-- ==== Sys2Proof/Word.lean ====
section
/-! DEFINITION. Word types of the module: bytes and 32-bit register words (R2, R381), and the die names. -/

namespace Sys2Proof

/-- One byte. -/
abbrev Byte := BitVec 8

/-- One register word: register accesses are 32 bits wide (R381). -/
abbrev Word := BitVec 32

/-- The two engine dies of a tree (R7). -/
inductive Trunk where
  | a
  | b
  deriving DecidableEq, Repr, Inhabited

/-- The other trunk of the tree. -/
def Trunk.other : Trunk → Trunk
  | .a => .b
  | .b => .a

/-- Index of a trunk where the spec numbers them: 0 is A, 1 is B. -/
def Trunk.idx : Trunk → Nat
  | .a => 0
  | .b => 1

end Sys2Proof
end

