-- ==== Sys2Proof/Syntax.lean ====
section
/-! DEFINITION. The commands of the block: one constructor of `Instr` per row of spec/opcode_table.json, in the
table's order, and the plain data their operands are made of. -/

namespace Sys2Proof

/-- A received or sent Ethernet frame (R209): addresses, EtherType, payload after the EtherType, the number of
802.1Q tags, and whether its FCS checks. -/
structure EthFrame where
  dst : Nat
  src : Nat
  etype : Nat
  payload : List Byte
  tags : Nat := 0
  fcsOk : Bool := true
  /-- FEC codewords corrected, and found uncorrectable, while the frame came in (R223). -/
  fecCorr : Nat := 0
  fecUncorr : Nat := 0
  deriving DecidableEq, Repr, Inhabited

/-- R209: a frame's length, from the destination address to the last byte of the FCS, VLAN tags included. -/
def EthFrame.len (f : EthFrame) : Nat := 18 + 4 * f.tags + f.payload.length

/-- What has come in of a frame that is cut through: the frame, and the bytes received so far (R211). -/
structure FrameHead where
  frame : EthFrame
  got : Nat
  deriving DecidableEq, Repr, Inhabited

/-- What a PTP Announce carries for the best master clock algorithm (R276, IEEE 1588-2019 clause 9.3). -/
structure PtpAnnounce where
  gmId : Nat
  priority1 : Nat
  clockClass : Nat
  accuracy : Nat
  variance : Nat
  priority2 : Nat
  stepsRemoved : Nat
  utcOffset : Nat
  utcValid : Bool
  deriving DecidableEq, Repr, Inhabited

/-- A PTP event or follow-up message as an instance sees it: sequence, time stamps in raw units of 2^-16 ns on
the instance's time base, and the correctionField sum of R278. -/
structure PtpEvent where
  seq : Nat
  origin : Int
  corr : Int
  twoStep : Bool := false
  deriving DecidableEq, Repr, Inhabited

/-- The address of one queue block (R360): the root's egress and ring blocks, and a trunk's by bough and
identifier. -/
inductive QbId where
  | egress (port : Fin 58)
  | ring (port : Fin 58)
  | trunk (t : Trunk) (bough : Fin 8) (block : Fin 5)
  deriving DecidableEq, Repr, Inhabited

/-- What has a governing axis and an epoch of its own (R45): a canvas, an output port record of PORTS, or a
raster generator. -/
inductive EpochOf where
  | canvas (c : Fin 8)
  | port (rec : Nat)
  | raster (t : Trunk) (g : Fin 8)
  deriving DecidableEq, Repr, Inhabited

/-- A value of a lane register or of the accumulator: the two's-complement word, and the residue modulo 7 kept beside it (R94). -/
structure LaneVal where
  word : Int
  res : Nat
  deriving DecidableEq, Repr, Inhabited

/-- A lane operation with its operands (R92). -/
inductive LaneOp where
  | add (x y : LaneVal)
  | sub (x y : LaneVal)
  | mul (x y : LaneVal)
  | mac (acc x y : LaneVal)
  | rnd (acc : LaneVal)
  | rcp (x : LaneVal)
  | sqrt (x : LaneVal)
  | cvt16 (half : BitVec 16)
  | minOp (x y : LaneVal)
  | maxOp (x y : LaneVal)
  | cmp (x y : LaneVal)
  | avg (sum : LaneVal) (m : Nat)
  deriving DecidableEq, Repr, Inhabited

/-- What a lane has computed: the value before saturation, the bits dropped or the remainder, and the result word (R94). -/
structure LaneResult where
  exact : Int
  side : Int
  word : Int
  deriving DecidableEq, Repr, Inhabited

/-- Where a lane lies (R95). -/
structure ErrPlace where
  bough : Fin 8
  branch : Fin 8
  twig : Fin 16
  lane : Fin 4
  deriving DecidableEq, Repr, Inhabited

/-- A lane operation of a work item as the lane has computed it: its checker decides whether it fails (R94, R95). -/
structure LaneCheck where
  place : ErrPlace
  op : LaneOp
  got : LaneResult
  deriving DecidableEq, Repr, Inhabited

/-- A word read from a memory under the SECDED code (R407, R408): its address, the address it was written at, and which of its 72
stored bits have changed since: data bits 0 to 63, check bits 64 to 71. -/
structure EccRead where
  memory : Fin 16
  unit : Fin 1024
  addr : Nat
  wrote : Nat
  flips : BitVec 72
  /-- The word lies in a persistent region (R299). -/
  persistent : Bool := false
  /-- The seed defines the word, and the bytes it defines there (R309). -/
  seedLine : Option (List Byte) := none
  deriving DecidableEq, Repr, Inhabited

/-- The picture format of an input (R171): R'G'B' or Y'CbCr, its sampling (0 4:2:0, 1 4:2:2, 2 4:4:4), and its bits a sample. -/
structure InputForm where
  rgb : Bool := false
  sampling : Fin 3 := 0
  depth : Nat := 8
  deriving DecidableEq, Repr, Inhabited

/-- A read of a block of the heartwood store (R157): the bits of the 4,096 bytes and of the CRC-32C after them that have changed
since the block was written. -/
structure HwRead where
  block : Fin 2048
  flips : List (Fin 32800) := []
  deriving DecidableEq, Repr, Inhabited

/-- The heartwood blocks that a composed frame of a canvas reads, and the words that its surface fetches read, by tree layer index. -/
structure FrameRead where
  canvas : Fin 8
  words : List (Fin 32 × EccRead) := []
  blocks : List HwRead := []
  deriving DecidableEq, Repr, Inhabited

/-- A line that a raster generator reads, with the heartwood blocks read for it (R157, R161). -/
structure LineRead where
  gen : Fin 8
  blocks : List HwRead := []
  deriving DecidableEq, Repr, Inhabited

/-- The address of a host access: in the tree address space, or an offset in BAR0 (R385). -/
structure BusAddr where
  bar : Bool := false
  addr : Nat
  deriving DecidableEq, Repr, Inhabited

/-- The priority and the synchronisation address that an E1.31 data packet carries (R241). -/
structure E131Framing where
  priority : Nat
  sync : Nat := 0
  deriving DecidableEq, Repr, Inhabited

/-- Whose PTP message it is, as clock identity and port number, and its sequence (R276, R278). -/
structure PtpSource where
  id : Nat
  seq : Nat
  deriving DecidableEq, Repr, Inhabited

/-- A core and the value of GCMP that its timer has reached (R335). -/
structure GcmpTimer where
  core : Fin 8
  gcmp : BitVec 64
  deriving DecidableEq, Repr, Inhabited

/-- A write to an interrupt controller: its writer, a core, or none for the host (R340), and the value. -/
structure IcuWrite where
  writer : Option (Fin 8) := none
  value : Word
  deriving DecidableEq, Repr, Inhabited

/-- A doorbell: the count of entries written, and that the fetch they ask for meets an error of the link (R388, R399). -/
structure Doorbell where
  count : BitVec 16
  fetchErr : Bool := false
  deriving DecidableEq, Repr, Inhabited

/-- The peer of a UDP session and the Ethernet port its datagram came through (R396). -/
structure UdpPeer where
  port : Fin 48
  addr : Nat
  deriving DecidableEq, Repr, Inhabited

/-- Where errors were corrected: a memory under the SECDED code, or a voter of triple storage (R408, R411). -/
structure EccSite where
  memory : Fin 16
  tmr : Option (BitVec 12) := none
  deriving DecidableEq, Repr, Inhabited

/-- What a completing task has done (95_what_each_step_holds, TASK_COMPLETION). -/
inductive Work where
  /-- No pixel work (a queue or housekeeping task). -/
  | none
  /-- Stages 3 to 7 of R12 for one tree leaf. -/
  | leaf (index : Nat)
  /-- The same, with one lane operation of it as its lane has computed it (R94, R95). -/
  | residue (index : Nat) (check : LaneCheck)
  /-- The same, with one word of it as it was read on demand (R408, R409). -/
  | ecc (index : Nat) (word : EccRead)
  /-- One sap-line burst is packed (R255). -/
  | burst (portRec : Nat)
  deriving DecidableEq, Repr, Inhabited

/-- The fields of a Stem command that every opcode shares (R389). `chan` is the channel of R397. -/
structure StemHdr where
  chan : Fin 20
  tag : Nat
  fence : Bool := false
  twin : Bool := false
  /-- Some `rsvd` field of the command is non-zero (R392). -/
  rsvd : Bool := false
  /-- A PCIe error meets the transfer of its `buffer`, or its reply write (R388). -/
  bufferErr : Bool := false
  replyErr : Bool := false
  deriving DecidableEq, Repr, Inhabited

/-- One chunk of a chunked object (R395). -/
structure Chunk where
  objLen : Nat
  off : Nat
  data : List Byte
  deriving DecidableEq, Repr, Inhabited

/-- The payload of a GRAFT grove link message (R375). -/
structure GraftMsg where
  op : Nat
  status : Nat := 0
  tag : Nat
  leaf : Nat
  offset : Nat
  length : Nat
  data : List Byte := []
  deriving DecidableEq, Repr, Inhabited

/-- The payload of an UPDATE grove link message (R426). -/
structure UpdMsg where
  cls : Nat
  code : Nat := 0
  axis : Nat := 0
  fallback : Bool := false
  position : Nat := 0
  digest : List Byte := []
  deriving DecidableEq, Repr, Inhabited

/-- An answer of a fixture to a graft frame (R370, R371), or of an RDM responder (R366). -/
structure GraftAnswer where
  nack : Bool := false
  reason : Nat := 0
  sideEffect : Bool := false
  data : List Byte := []
  /-- The CRC and header checks hold (R371). -/
  checks : Bool := true
  deriving DecidableEq, Repr, Inhabited

/-- The header fields of a grove link frame (R323); `checkOk` says that its CRC-32C verifies. -/
structure GroveHdr where
  type : Nat
  groveId : Nat
  src : Nat
  dst : Nat
  sequence : Nat
  checkOk : Bool := true
  deriving DecidableEq, Repr, Inhabited

/-- The commands of the block, one constructor per row of spec/opcode_table.json. -/
inductive Instr where
  | registerWrite (addr : Nat) (value : Word)
  | readClear (addr : BusAddr) (events : Word)
  | loWordRead (addr : BusAddr)
  | treeEpoch
  | epoch (of : EpochOf)
  /-- `words`: words that surface fetches of the frame read, by tree layer index; `blocks`: heartwood blocks read for it. -/
  | canvasFrameComplete (t : Trunk) (f : FrameRead)
  | taskPost (t : Trunk) (slot : Fin 4096) (flag : Fin 64)
  | taskDispatch (t : Trunk)
  | taskCompletion (t : Trunk) (slot : Fin 4096) (free : Bool) (work : Work)
  | workItemRerun (t : Trunk) (leaf : Nat) (check : Option LaneCheck)
  | taskAged (t : Trunk) (slot : Fin 4096)
  | qbWrite (q : QbId) (data : List Byte) (sop eop err : Bool)
  | qbRead (q : QbId)
  | qbStale (q : QbId)
  | axisLock (n : Fin 18) (pos : Nat) (rate : Int)
  | axisSourceLoss (n : Fin 18)
  | axisStep (n : Fin 18) (pos : Nat)
  | axisRelock (n : Fin 18)
  | axisHoldModeWrite (n : Fin 18) (halt : Bool)
  | axisSnap (n : Fin 18)
  | axisSnapAll
  | mainsZeroCrossing (volts : Nat)
  | videoRefEdge (line : Fin 8) (frameStart : Bool) (lines : Nat)
  | st2110FrameReceive (line : Fin 8) (rtp : Word) (lines : Nat)
  | aes67PacketReceive (slot : Fin 2) (rtp : Word)
  | wclkEdge (slot : Fin 2)
  | ltcFrame (tc : Fin 2) (hh mm ss ff : Nat) (readable : Bool)
  | evtArm (m : Fin 256)
  | evtDisarm (m : Fin 256)
  | evtArmDisarmBoth (m : Fin 256)
  | axisEventFire (m : Fin 256)
  | scheduledWrite
  | thermalSample (base dieA dieB dieRoot : Int)
  | throttleEngage
  | throttleRelease
  | thermalRecovery
  | frameLaunch (port : Nat)
  | launchLimitExpiry (port : Nat)
  | frameTxEnd (port : Fin 58)
  | untimedTransmit (port : Fin 58)
  | crownCommit (t : Trunk) (mask : BitVec 8)
  | crownCommitCheckDone (t : Trunk)
  | layerReady (t : Trunk) (n : Fin 32)
  | heartwoodScrub (t : Trunk) (block : Fin 2048) (flips : List (Fin 32800))
  | heartwoodWrite (h : StemHdr) (c : Chunk)
  | safetyLoopSample (ohmsA ohmsB : Nat)
  | safetyPack (t : Trunk)
  | rootSafetyPackerTick
  | safeRelease
  | safeAutoRelease
  /-- `blocks`: heartwood blocks that the line reads (R157, R161). -/
  | rasterLineRead (t : Trunk) (l : LineRead)
  /-- `tap`: the active samples that the tap of the pad signature reads, where they are not those the root sent (R200). -/
  | rasterLineStart (t : Trunk) (g : Fin 8) (tap : Option (List (BitVec 16)))
  | rastCommit (t : Trunk) (g : Fin 8)
  | rastCommitCheckDone (t : Trunk) (g : Fin 8)
  | frameReceive (port : Fin 58) (f : EthFrame)
  | cutThroughStart (ingress egress : Fin 58) (f : FrameHead)
  | pauseReceive (port : Fin 58) (time : BitVec 16)
  | pauseTimerExpiry (port : Fin 58)
  | pauseWatchdogTrip (port : Fin 58)
  | pauseRearm (port : Fin 58)
  | pauseTxRepeat (port : Fin 58)
  | t1sCollision (seg : Fin 8) (bit : Nat)
  | t1sBackoffExpiry (seg : Fin 8)
  | t1sCarrierFall (seg : Fin 8)
  | linkChange (port : Fin 58) (up : Bool)
  | ringReturn (port : Fin 58)
  | portDisable (port : Fin 58) (disable : Bool)
  | swFlush
  | addressAgeout (group : Fin 16) (addr : Nat)
  | leafcastReturnReceive (payload : List Byte)
  | e131PacketReceive (univ : Nat) (cid : Nat) (h : E131Framing) (slots : Option (List Byte)) (checks : Bool)
  | e131SourceLost (univ : Nat) (cid : Nat)
  | e131Repeat (univ : Nat)
  | dmxFrameStart (port : Fin 16)
  | dmxFrameEnd (port : Fin 16)
  | dmxRepeat (port : Fin 16)
  | rdmTransactionStart (port : Fin 16)
  | rdmResponse (port : Fin 16) (checksumOk : Bool) (ack : Bool) (data : List Byte)
  | rdmResponseTimeout (port : Fin 16)
  | rdmNoGap (port : Fin 16)
  | rdmDiscovery (port : Fin 16)
  | dmxInputPacket (port : Fin 16) (startCode : Byte) (slots : List Byte) (framingOk : Bool) (breakUs mabUs : Nat)
  | sapBurstStart (line : Fin 64)
  | sapBurstEnd (line : Fin 64)
  | sapPoll (line : Fin 64) (ident : Bool)
  | sapReply (line : Fin 64) (frame : List Byte)
  | sapTurnaroundEnd (line : Fin 64)
  | ptpEnable (i : Fin 4) (on : Bool)
  | ptpAnnounceReceive (i : Fin 4) (a : PtpAnnounce)
  | ptpSyncReceive (i : Fin 4) (m : PtpEvent) (sub : Nat)
  | ptpFollowUpReceive (i : Fin 4) (m : PtpEvent)
  | ptpDelayRespReceive (i : Fin 4) (seq : Nat) (t4 : Int) (corr : Int)
  | ptpDelayReqReceive (i : Fin 4) (src : PtpSource) (sub : Nat)
  | ptpPdelayReceive (port : Fin 50) (request : Bool) (src : PtpSource) (sample : Int)
  | ptpMessageDiscard (i : Fin 4)
  | ptpAnnounceSend (i : Fin 4)
  | ptpSyncSend (i : Fin 4)
  | ptpDelayReqSend (i : Fin 4)
  | ptpAnnounceTimeout (i : Fin 4)
  | ptpSyncTimeout (i : Fin 4)
  | ppsInEdge
  | ppsLost
  | setTod (i : Fin 4) (atPps : Bool)
  | ppsOutEdge
  | ocxoReady
  | tenMLock
  | tenMLoss
  | compareUnitArrival (t : Trunk)
  | compareWindowExpiry
  | arbitrationVote (t : Trunk) (port seq : Nat) (wrong : BitVec 64)
  | voteTimeout
  | linkReplay (t : Trunk) (up : Bool) (lane : Fin 34)
  | trunkKeepaliveLoss (t : Trunk)
  | trunkTestDone (t : Trunk) (pass : Bool)
  | trunkTestRetry (t : Trunk)
  | resyncBulkDone
  | resyncTimeout
  | cmpUnlatch
  | cmpSwap
  | cmpRejoin (t : Trunk)
  | heartbeatSend
  | heartbeatReceive (h : GroveHdr) (serving alarm takeover : Bool) (seedId : Nat) (epochIndex : Nat)
  | partnerHeartbeatTimeout
  | takeoverReturnSend
  | takeoverMessageReceive (h : GroveHdr) (accept : Bool) (epochIndex : Nat)
  | ringMessageReceive (h : GroveHdr) (port : Nat) (part : Nat) (frameLen : Nat) (launch : Nat) (off : Nat) (data : List Byte)
  | ringPartTimeout
  | groveFrameDiscard (h : GroveHdr)
  | guestWfi (t : Trunk) (core : Fin 2)
  | guestAccessFault (t : Trunk) (core : Fin 2) (addr : Nat) (write : Bool)
  | guestRegisterWrite (t : Trunk) (core : Fin 2) (off : Nat) (value : Word)
  | gcmpInterrupt (t : Trunk) (g : GcmpTimer)
  | interruptSourceEdge (t : Trunk) (src : Fin 1024) (level : Bool)
  | icuClaim (t : Trunk) (core : Fin 8)
  | icuComplete (t : Trunk) (core : Fin 8) (src : Fin 1024)
  | icuMaskSet (t : Trunk) (w : Fin 32) (v : IcuWrite)
  | icuMaskClr (t : Trunk) (w : Fin 32) (v : IcuWrite)
  | icuPendSet (t : Trunk) (w : Fin 32) (v : IcuWrite)
  | icuPendClr (t : Trunk) (w : Fin 32) (v : IcuWrite)
  | icuRouteWrite (t : Trunk) (src : Fin 512) (v : IcuWrite)
  | moderationExpiry (t : Trunk) (core : Fin 8) (group : Fin 16)
  | guestHalt (t : Trunk) (core : Fin 2)
  | guestResume (t : Trunk) (core : Fin 2)
  | guestRestart (t : Trunk) (core : Fin 2)
  | guestDoorbell (t : Trunk) (core : Fin 2)
  | guestSendGo (t : Trunk) (core : Fin 2) (addr : Nat) (length : Nat) (port : Nat)
  | graftRequest (init : Fin 8) (core : Option Trunk) (write : Bool) (leaf offset length : Nat) (data : List Byte)
  | graftResponseReceive (tag : Nat) (a : GraftAnswer)
  | graftRepeat (tag : Nat)
  | graftTimeout (tag : Nat)
  | graftMessageReceive (h : GroveHdr) (m : GraftMsg)
  | graftReissue (tag : Nat)
  | prefetchExpiry
  | windfallExpiry
  | graftAttrWrite (r : Fin 16) (v : Word)
  | tunnelMessageReceive (h : GroveHdr) (tunnel : Nat) (response : Bool) (breakUs mabUs : Nat) (startCode : Byte) (dstPort : Nat) (slots : List Byte)
  | tunnelFrameSend (port : Fin 16)
  | ringEnable (r : Fin 16)
  | ringDoorbell (r : Fin 16) (d : Doorbell)
  | stemUdpDatagram (peer : UdpPeer) (srcPort : Nat) (tag : Nat) (csumZero : Bool) (lengthOk : Bool)
  | stemSessionTimeout (session : Fin 4)
  | stemWinWrite (k : Fin 3) (v : Word)
  | bar0Write (off : Nat) (v : Word)
  | nop (h : StemHdr)
  | watch (h : StemHdr) (mask expected : BitVec 16) (timeoutMs : Nat)
  | watchExpired (c : Fin 20)
  | attnAck (h : StemHdr) (mask : BitVec 16)
  | reset (h : StemHdr) (confirm : BitVec 16)
  | readReg (h : StemHdr) (addr length : Nat)
  | writeReg (h : StemHdr) (addr : Nat) (data : List Word)
  | readMem (h : StemHdr) (addr length : Nat)
  | writeMem (h : StemHdr) (addr : Nat) (data : List Byte)
  | stemOpcode (h : StemHdr) (opcode : BitVec 16)
  | imageStage (h : StemHdr) (cls : Nat) (c : Chunk)
  | imageActivate (h : StemHdr) (cls axis : Nat) (position : Nat) (digest : List Byte)
  | imagePrepared (cls : Nat)
  | imageActivation (cls : Nat)
  | firmwareRestart
  | imageConfirm (h : StemHdr) (cls : Nat) (digest : List Byte)
  | imageConfirmation (cls : Nat)
  | imageFallback (cls : Nat)
  | imageDiscard (h : StemHdr) (cls : Nat)
  | settingsRead (h : StemHdr) (length : Nat)
  | settingsWrite (h : StemHdr) (c : Chunk)
  | updateActivateReceive (h : GroveHdr) (m : UpdMsg)
  | updateAckReceive (h : GroveHdr) (refuse : Bool) (m : UpdMsg)
  | updateGoReceive (h : GroveHdr) (cancel : Bool) (m : UpdMsg)
  | updateHealthReceive (h : GroveHdr) (m : UpdMsg)
  | updateConfirmReceive (h : GroveHdr) (m : UpdMsg)
  | groveGoDeadline (cls : Nat)
  | updateNoGo (cls : Nat)
  | groveFallbackAlone (cls : Nat)
  | lifeProvision (h : StemHdr) (key : List Byte)
  | lifeRekey (h : StemHdr) (payload : List Byte)
  | lifeService (h : StemHdr) (leave : Bool) (payload : List Byte)
  | lifeScrap (h : StemHdr) (payload : List Byte)
  | trunkPark (t : Trunk)
  | bistRun (h : StemHdr) (kind trunk index pattern durationMs : Nat)
  | bistDone (errors bits eye : Nat) (restored : Bool)
  | spareVectorPass (t : Trunk) (pass : Bool)
  | calRun (h : StemHdr) (item index : Nat) (skewPs : Int)
  | calSample (egressPs ingressPs : Int) (phaseErrors : Nat)
  | calNoGap
  | chkStart (e : Option Trunk) (n : Fin 16)
  | chkData (e : Option Trunk) (n : Fin 16) (v : Word)
  | chkFinish (e : Option Trunk) (n : Fin 16)
  | chkStateWrite (e : Option Trunk) (n : Fin 16) (hi : Bool) (v : Word)
  | patrolScrubRead (e : Option Trunk) (word : Option EccRead)
  | eccCorrEvent (e : Option Trunk) (site : EccSite)
  | eventRecordWrite
  | recFreeze
  | recThaw (k : Fin 4)
  | pwrGoodRise
  | firmwareReady
  | seedLoadDone (t : Trunk)
  | mainsInterruption (durationUs : Nat) (overVoltage : Bool)
  | brownout
  | pwrGoodFall
  | resetNAssert (durationNs : Nat)
  | resetNRelease
  | auxCurrentLimit (heldUs : Nat)
  | auxRestart
  | inputFrameComplete (portRec : Nat) (width height : Nat) (form : InputForm) (whole : Bool) (data : List Nat)
  | portDatapathFault (port : Fin 58)
  | rootCheckCodeFault (switchCore : Bool)
  | onlineLaneError (t : Trunk) (bits : Nat)
  | laneErrorWindowExpiry (t : Trunk)
  deriving DecidableEq, Repr

end Sys2Proof
end

