-- ==== Sys2Proof/Decode.lean ====
section
/-! DEFINITION. The command a word of the table spells. spec/opcode_table.json gives no row any bits, so no word
spells a command. -/

namespace Sys2Proof

/-- The rows of the table that have bits, as (bits, word, command): none. -/
def tableWords : List (Nat × Nat × Instr) := []

/-- The command that an instruction of `nbits` bits `w` spells by the table's bits. -/
def decodeTableWord (nbits w : Nat) : Option Instr :=
  (tableWords.find? (fun r => r.1 == nbits && r.2.1 == w)).map (fun r => r.2.2)

end Sys2Proof
end

