-- ==== Sys2Proof/Machine/RegMap.lean ====
section
/-! DEFINITION. Addresses of the registers and places of their fields, as the field maps of the spec give them. -/

namespace Sys2Proof.Machine

/-- One field of one register: the register's address, the lowest bit and the width. -/
structure Field where
  addr : Nat
  lo : Nat
  len : Nat
  deriving DecidableEq, Repr

/-- Register space of a trunk (R382). -/
def trunkBase : Trunk → Nat
  | .a => 0x1000000
  | .b => 0x2000000

/-- `TREE_READY` (R417). -/
def Reg.treeReady : Nat := 0x100
def Reg.TreeReady.seed : Field := ⟨Reg.treeReady, 31, 1⟩
def Reg.TreeReady.trunkB : Field := ⟨Reg.treeReady, 30, 1⟩
def Reg.TreeReady.trunkA : Field := ⟨Reg.treeReady, 29, 1⟩
def Reg.TreeReady.firmware : Field := ⟨Reg.treeReady, 28, 1⟩
def Reg.TreeReady.portsAll : Field := ⟨Reg.treeReady, 27, 1⟩
def Reg.TreeReady.record : Field := ⟨Reg.treeReady, 26, 1⟩
def Reg.TreeReady.dmx : Field := ⟨Reg.treeReady, 25, 1⟩
def Reg.TreeReady.safetySeed : Field := ⟨Reg.treeReady, 24, 1⟩
def Reg.TreeReady.safety : Field := ⟨Reg.treeReady, 23, 1⟩
def Reg.TreeReady.pcie : Field := ⟨Reg.treeReady, 22, 1⟩
def Reg.TreeReady.rootRom : Field := ⟨Reg.treeReady, 21, 1⟩
def Reg.TreeReady.recovery : Field := ⟨Reg.treeReady, 20, 1⟩
/-- `TREE_MODE` (R26). -/
def Reg.treeMode : Nat := 0x108
def Reg.TreeMode.throttled : Field := ⟨Reg.treeMode, 28, 1⟩
def Reg.TreeMode.thermalWarn : Field := ⟨Reg.treeMode, 27, 1⟩
def Reg.TreeMode.spareBoughB : Field := ⟨Reg.treeMode, 24, 3⟩
def Reg.TreeMode.spareBoughA : Field := ⟨Reg.treeMode, 21, 3⟩
def Reg.TreeMode.rastCounterB : Field := ⟨Reg.treeMode, 20, 1⟩
def Reg.TreeMode.rastCounterA : Field := ⟨Reg.treeMode, 19, 1⟩
def Reg.TreeMode.scalerFit : Field := ⟨Reg.treeMode, 18, 1⟩
def Reg.TreeMode.probe : Field := ⟨Reg.treeMode, 16, 2⟩
def Reg.TreeMode.cameraLock : Field := ⟨Reg.treeMode, 15, 1⟩
def Reg.TreeMode.dither : Field := ⟨Reg.treeMode, 13, 2⟩
def Reg.TreeMode.solver : Field := ⟨Reg.treeMode, 12, 1⟩
def Reg.TreeMode.emit : Field := ⟨Reg.treeMode, 11, 1⟩
def Reg.TreeMode.compareActive : Field := ⟨Reg.treeMode, 10, 1⟩
def Reg.TreeMode.redundancy : Field := ⟨Reg.treeMode, 8, 2⟩
def Reg.TreeMode.activeTrunk : Field := ⟨Reg.treeMode, 7, 1⟩
def Reg.TreeMode.degraded : Field := ⟨Reg.treeMode, 6, 1⟩
def Reg.TreeMode.trunkBUp : Field := ⟨Reg.treeMode, 5, 1⟩
def Reg.TreeMode.trunkAUp : Field := ⟨Reg.treeMode, 4, 1⟩
/-- `TREE_SEED_RESULT` (R88). -/
def Reg.treeSeedResult : Nat := 0x120
def Reg.TreeSeedResult.code : Field := ⟨Reg.treeSeedResult, 16, 16⟩
def Reg.TreeSeedResult.safetyRunning : Field := ⟨Reg.treeSeedResult, 1, 1⟩
def Reg.TreeSeedResult.done : Field := ⟨Reg.treeSeedResult, 0, 1⟩
/-- `TREE_SEED_SECT` (R88). -/
def Reg.treeSeedSect : Nat := 0x124
def Reg.TreeSeedSect.sect : Field := ⟨Reg.treeSeedSect, 0, 16⟩
/-- `TREE_SEED_REC` (R88). -/
def Reg.treeSeedRec : Nat := 0x128
/-- `TREE_SEED_ID_w` (R88). -/
def Reg.treeSeedId (w : Nat) : Nat := 0x130 + w * 0x4
/-- `TREE_SAFE_STATUS` (R168). -/
def Reg.treeSafeStatus : Nat := 0x140
def Reg.TreeSafeStatus.alarm : Field := ⟨Reg.treeSafeStatus, 31, 1⟩
def Reg.TreeSafeStatus.evaluation : Field := ⟨Reg.treeSafeStatus, 30, 1⟩
def Reg.TreeSafeStatus.ack : Field := ⟨Reg.treeSafeStatus, 29, 1⟩
def Reg.TreeSafeStatus.rootPacker : Field := ⟨Reg.treeSafeStatus, 28, 1⟩
def Reg.TreeSafeStatus.lineB : Field := ⟨Reg.treeSafeStatus, 22, 2⟩
def Reg.TreeSafeStatus.lineA : Field := ⟨Reg.treeSafeStatus, 20, 2⟩
def Reg.TreeSafeStatus.lineFault : Field := ⟨Reg.treeSafeStatus, 2, 1⟩
def Reg.TreeSafeStatus.released : Field := ⟨Reg.treeSafeStatus, 1, 1⟩
def Reg.TreeSafeStatus.accepted : Field := ⟨Reg.treeSafeStatus, 0, 1⟩
/-- `TREE_SAFE_CTRL` (R168). -/
def Reg.treeSafeCtrl : Nat := 0x144
def Reg.TreeSafeCtrl.autoRelease : Field := ⟨Reg.treeSafeCtrl, 1, 1⟩
def Reg.TreeSafeCtrl.release : Field := ⟨Reg.treeSafeCtrl, 0, 1⟩
/-- `TREE_SAFE_EVT_CNT` (R168). -/
def Reg.treeSafeEvtCnt : Nat := 0x148
/-- `AXIS_SNAP_CMD` (R53). -/
def Reg.axisSnapCmd : Nat := 0x40000
def Reg.AxisSnapCmd.snapAll : Field := ⟨Reg.axisSnapCmd, 0, 1⟩
/-- `AXIS_EPOCH_CNT_LO` (R53). -/
def Reg.axisEpochCntLo : Nat := 0x40008
/-- `AXIS_EPOCH_CNT_HI` (R53). -/
def Reg.axisEpochCntHi : Nat := 0x4000C
/-- `AXIS_n_CTRL` (R55). -/
def Reg.axisCtrl (n : Nat) : Nat := 0x40100 + n * 0x40
def Reg.AxisCtrl.source (n : Nat) : Field := ⟨Reg.axisCtrl n, 8, 8⟩
def Reg.AxisCtrl.holdMode (n : Nat) : Field := ⟨Reg.axisCtrl n, 5, 1⟩
def Reg.AxisCtrl.relock (n : Nat) : Field := ⟨Reg.axisCtrl n, 4, 1⟩
def Reg.AxisCtrl.snap (n : Nat) : Field := ⟨Reg.axisCtrl n, 0, 1⟩
/-- `AXIS_n_STATUS` (R55). -/
def Reg.axisStatus (n : Nat) : Nat := 0x40104 + n * 0x40
def Reg.AxisStatus.rangeErr (n : Nat) : Field := ⟨Reg.axisStatus n, 7, 1⟩
def Reg.AxisStatus.stepBack (n : Nat) : Field := ⟨Reg.axisStatus n, 6, 1⟩
def Reg.AxisStatus.stepFwd (n : Nat) : Field := ⟨Reg.axisStatus n, 5, 1⟩
def Reg.AxisStatus.stateChg (n : Nat) : Field := ⟨Reg.axisStatus n, 4, 1⟩
def Reg.AxisStatus.governing (n : Nat) : Field := ⟨Reg.axisStatus n, 3, 1⟩
def Reg.AxisStatus.holdRefused (n : Nat) : Field := ⟨Reg.axisStatus n, 2, 1⟩
def Reg.AxisStatus.state (n : Nat) : Field := ⟨Reg.axisStatus n, 0, 2⟩
/-- `AXIS_n_POS_LO` (R53). -/
def Reg.axisPosLo (n : Nat) : Nat := 0x40108 + n * 0x40
/-- `AXIS_n_POS_MID` (R53). -/
def Reg.axisPosMid (n : Nat) : Nat := 0x4010C + n * 0x40
/-- `AXIS_n_POS_HI` (R53). -/
def Reg.axisPosHi (n : Nat) : Nat := 0x40110 + n * 0x40
/-- `AXIS_n_SNAP_LO` (R53). -/
def Reg.axisSnapLo (n : Nat) : Nat := 0x40114 + n * 0x40
/-- `AXIS_n_SNAP_MID` (R53). -/
def Reg.axisSnapMid (n : Nat) : Nat := 0x40118 + n * 0x40
/-- `AXIS_n_SNAP_HI` (R53). -/
def Reg.axisSnapHi (n : Nat) : Nat := 0x4011C + n * 0x40
/-- `AXIS_n_RATE` (R53). -/
def Reg.axisRate (n : Nat) : Nat := 0x40120 + n * 0x40
/-- `AXIS_n_STEP_CNT` (R53). -/
def Reg.axisStepCnt (n : Nat) : Nat := 0x40124 + n * 0x40
/-- `AXIS_n_SKIP_CNT` (R53). -/
def Reg.axisSkipCnt (n : Nat) : Nat := 0x40128 + n * 0x40
/-- `AXIS_EVT_m_POS_LO` (R53). -/
def Reg.axisEvtPosLo (m : Nat) : Nat := 0x41000 + m * 0x20
/-- `AXIS_EVT_m_POS_MID` (R53). -/
def Reg.axisEvtPosMid (m : Nat) : Nat := 0x41004 + m * 0x20
/-- `AXIS_EVT_m_POS_HI` (R53). -/
def Reg.axisEvtPosHi (m : Nat) : Nat := 0x41008 + m * 0x20
/-- `AXIS_EVT_m_LIMIT` (R55). -/
def Reg.axisEvtLimit (m : Nat) : Nat := 0x4100C + m * 0x20
/-- `AXIS_EVT_m_ADDR` (R55). -/
def Reg.axisEvtAddr (m : Nat) : Nat := 0x41010 + m * 0x20
def Reg.AxisEvtAddr.addr (m : Nat) : Field := ⟨Reg.axisEvtAddr m, 2, 24⟩
/-- `AXIS_EVT_m_DATA` (R53). -/
def Reg.axisEvtData (m : Nat) : Nat := 0x41014 + m * 0x20
/-- `AXIS_EVT_m_CTRL` (R55). -/
def Reg.axisEvtCtrl (m : Nat) : Nat := 0x41018 + m * 0x20
def Reg.AxisEvtCtrl.disarm (m : Nat) : Field := ⟨Reg.axisEvtCtrl m, 11, 1⟩
def Reg.AxisEvtCtrl.arm (m : Nat) : Field := ⟨Reg.axisEvtCtrl m, 10, 1⟩
def Reg.AxisEvtCtrl.policy (m : Nat) : Field := ⟨Reg.axisEvtCtrl m, 9, 1⟩
def Reg.AxisEvtCtrl.actRecord (m : Nat) : Field := ⟨Reg.axisEvtCtrl m, 7, 1⟩
def Reg.AxisEvtCtrl.actGuest (m : Nat) : Field := ⟨Reg.axisEvtCtrl m, 6, 1⟩
def Reg.AxisEvtCtrl.actWrite (m : Nat) : Field := ⟨Reg.axisEvtCtrl m, 5, 1⟩
def Reg.AxisEvtCtrl.axis (m : Nat) : Field := ⟨Reg.axisEvtCtrl m, 0, 5⟩
/-- `AXIS_EVT_m_STATUS` (R55). -/
def Reg.axisEvtStatus (m : Nat) : Nat := 0x4101C + m * 0x20
def Reg.AxisEvtStatus.wrIgnored (m : Nat) : Field := ⟨Reg.axisEvtStatus m, 3, 1⟩
def Reg.AxisEvtStatus.state (m : Nat) : Field := ⟨Reg.axisEvtStatus m, 0, 3⟩
/-- `STEM_CTRL` (R400). -/
def Reg.stemCtrl : Nat := 0x50000
def Reg.StemCtrl.udpEn : Field := ⟨Reg.stemCtrl, 31, 1⟩
def Reg.StemCtrl.udpPort : Field := ⟨Reg.stemCtrl, 0, 16⟩
/-- `STEM_STATUS` (R400). -/
def Reg.stemStatus : Nat := 0x50004
def Reg.StemStatus.sessions : Field := ⟨Reg.stemStatus, 29, 3⟩
def Reg.StemStatus.winRefused : Field := ⟨Reg.stemStatus, 0, 1⟩
/-- `STEM_CMD_CNT` (R400). -/
def Reg.stemCmdCnt : Nat := 0x50008
/-- `STEM_ERR_CNT` (R400). -/
def Reg.stemErrCnt : Nat := 0x5000C
/-- `STEM_UDP_DROP` (R400). -/
def Reg.stemUdpDrop : Nat := 0x50010
/-- `STEM_BAR_WR_DROP` (R400). -/
def Reg.stemBarWrDrop : Nat := 0x50014
/-- `STEM_WIN_k` (R400). -/
def Reg.stemWin (k : Nat) : Nat := 0x50040 + k * 0x4
def Reg.StemWin.enable (k : Nat) : Field := ⟨Reg.stemWin k, 31, 1⟩
def Reg.StemWin.base (k : Nat) : Field := ⟨Reg.stemWin k, 0, 18⟩
/-- `STEM_RING_r_CMD_LO` (R400). -/
def Reg.stemRingCmdLo (r : Nat) : Nat := 0x50100 + r * 0x20
def Reg.StemRingCmdLo.addr (r : Nat) : Field := ⟨Reg.stemRingCmdLo r, 12, 20⟩
/-- `STEM_RING_r_CMD_HI` (R400). -/
def Reg.stemRingCmdHi (r : Nat) : Nat := 0x50104 + r * 0x20
/-- `STEM_RING_r_REPLY_LO` (R400). -/
def Reg.stemRingReplyLo (r : Nat) : Nat := 0x50108 + r * 0x20
def Reg.StemRingReplyLo.addr (r : Nat) : Field := ⟨Reg.stemRingReplyLo r, 12, 20⟩
/-- `STEM_RING_r_REPLY_HI` (R400). -/
def Reg.stemRingReplyHi (r : Nat) : Nat := 0x5010C + r * 0x20
/-- `STEM_RING_r_CFG` (R400). -/
def Reg.stemRingCfg (r : Nat) : Nat := 0x50110 + r * 0x20
def Reg.StemRingCfg.enable (r : Nat) : Field := ⟨Reg.stemRingCfg r, 31, 1⟩
def Reg.StemRingCfg.entries (r : Nat) : Field := ⟨Reg.stemRingCfg r, 0, 13⟩
/-- `STEM_RING_r_HEAD` (R400). -/
def Reg.stemRingHead (r : Nat) : Nat := 0x50114 + r * 0x20
def Reg.StemRingHead.head (r : Nat) : Field := ⟨Reg.stemRingHead r, 0, 16⟩
/-- `STEM_RING_r_STATUS` (R400). -/
def Reg.stemRingStatus (r : Nat) : Nat := 0x50118 + r * 0x20
def Reg.StemRingStatus.running (r : Nat) : Field := ⟨Reg.stemRingStatus r, 31, 1⟩
def Reg.StemRingStatus.inFlight (r : Nat) : Field := ⟨Reg.stemRingStatus r, 16, 7⟩
def Reg.StemRingStatus.doorbellErr (r : Nat) : Field := ⟨Reg.stemRingStatus r, 2, 1⟩
def Reg.StemRingStatus.dmaErr (r : Nat) : Field := ⟨Reg.stemRingStatus r, 1, 1⟩
def Reg.StemRingStatus.cfgErr (r : Nat) : Field := ⟨Reg.stemRingStatus r, 0, 1⟩
/-- `STEM_ATTN_c` (R400). -/
def Reg.stemAttn (c : Nat) : Nat := 0x50400 + c * 0x4
def Reg.StemAttn.attn (c : Nat) : Field := ⟨Reg.stemAttn c, 16, 16⟩
/-- `TIME_CTRL` (R294). -/
def Reg.timeCtrl : Nat := 0x60000
def Reg.TimeCtrl.ppsOutSrc : Field := ⟨Reg.timeCtrl, 29, 3⟩
def Reg.TimeCtrl.tenMOut : Field := ⟨Reg.timeCtrl, 28, 1⟩
def Reg.TimeCtrl.tenMInEn : Field := ⟨Reg.timeCtrl, 27, 1⟩
def Reg.TimeCtrl.ppsInEdge : Field := ⟨Reg.timeCtrl, 26, 1⟩
/-- `TIME_STATUS` (R294). -/
def Reg.timeStatus : Nat := 0x60004
def Reg.TimeStatus.ocxoReady : Field := ⟨Reg.timeStatus, 31, 1⟩
def Reg.TimeStatus.tenMLock : Field := ⟨Reg.timeStatus, 30, 1⟩
def Reg.TimeStatus.ppsValid : Field := ⟨Reg.timeStatus, 29, 1⟩
def Reg.TimeStatus.gmRefused : Field := ⟨Reg.timeStatus, 2, 1⟩
def Reg.TimeStatus.ppsLost : Field := ⟨Reg.timeStatus, 1, 1⟩
def Reg.TimeStatus.tenMLost : Field := ⟨Reg.timeStatus, 0, 1⟩
/-- `TIME_TC_CTRL` (R294). -/
def Reg.timeTcCtrl : Nat := 0x60008
def Reg.TimeTcCtrl.tcMode : Field := ⟨Reg.timeTcCtrl, 30, 2⟩
def Reg.TimeTcCtrl.logPdelay : Field := ⟨Reg.timeTcCtrl, 16, 8⟩
/-- `TIME_TC_CORR_CNT` (R294). -/
def Reg.timeTcCorrCnt : Nat := 0x6000C
/-- `TIME_TC_UNMATCHED` (R294). -/
def Reg.timeTcUnmatched : Nat := 0x60010
/-- `TIME_GM_SEC_LO` (R294). -/
def Reg.timeGmSecLo : Nat := 0x60020
/-- `TIME_GM_SEC_HI` (R294). -/
def Reg.timeGmSecHi : Nat := 0x60024
def Reg.TimeGmSecHi.sec : Field := ⟨Reg.timeGmSecHi, 0, 16⟩
/-- `TIME_GM_CMD` (R294). -/
def Reg.timeGmCmd : Nat := 0x60028
def Reg.TimeGmCmd.atPps : Field := ⟨Reg.timeGmCmd, 5, 1⟩
def Reg.TimeGmCmd.setTod : Field := ⟨Reg.timeGmCmd, 4, 1⟩
def Reg.TimeGmCmd.instanceF : Field := ⟨Reg.timeGmCmd, 0, 2⟩
/-- `TIME_GM_UTC` (R294). -/
def Reg.timeGmUtc : Nat := 0x6002C
def Reg.TimeGmUtc.leap59 : Field := ⟨Reg.timeGmUtc, 18, 1⟩
def Reg.TimeGmUtc.leap61 : Field := ⟨Reg.timeGmUtc, 17, 1⟩
def Reg.TimeGmUtc.utcValid : Field := ⟨Reg.timeGmUtc, 16, 1⟩
def Reg.TimeGmUtc.utcOffset : Field := ⟨Reg.timeGmUtc, 0, 16⟩
/-- `TIME_REF_CTRL` (R294). -/
def Reg.timeRefCtrl : Nat := 0x60040
def Reg.TimeRefCtrl.hsyncEdge : Field := ⟨Reg.timeRefCtrl, 31, 1⟩
def Reg.TimeRefCtrl.vsyncEdge : Field := ⟨Reg.timeRefCtrl, 30, 1⟩
def Reg.TimeRefCtrl.fsyncEdge : Field := ⟨Reg.timeRefCtrl, 29, 1⟩
def Reg.TimeRefCtrl.refOffset : Field := ⟨Reg.timeRefCtrl, 0, 16⟩
/-- `TIME_AES_s_OFFSET` (R294). -/
def Reg.timeAesOffset (s : Nat) : Nat := 0x60080 + s * 0x4
/-- `TIME_PTP_i_CFG` (R294). -/
def Reg.timePtpCfg (i : Nat) : Nat := 0x60100 + i * 0x100
def Reg.TimePtpCfg.enable (i : Nat) : Field := ⟨Reg.timePtpCfg i, 31, 1⟩
def Reg.TimePtpCfg.role (i : Nat) : Field := ⟨Reg.timePtpCfg i, 29, 2⟩
def Reg.TimePtpCfg.profile (i : Nat) : Field := ⟨Reg.timePtpCfg i, 28, 1⟩
def Reg.TimePtpCfg.twoStep (i : Nat) : Field := ⟨Reg.timePtpCfg i, 27, 1⟩
def Reg.TimePtpCfg.transport (i : Nat) : Field := ⟨Reg.timePtpCfg i, 26, 1⟩
def Reg.TimePtpCfg.delay (i : Nat) : Field := ⟨Reg.timePtpCfg i, 24, 2⟩
def Reg.TimePtpCfg.domain (i : Nat) : Field := ⟨Reg.timePtpCfg i, 16, 7⟩
def Reg.TimePtpCfg.gmPps (i : Nat) : Field := ⟨Reg.timePtpCfg i, 15, 1⟩
def Reg.TimePtpCfg.port (i : Nat) : Field := ⟨Reg.timePtpCfg i, 0, 6⟩
/-- `TIME_PTP_i_INTV` (R294). -/
def Reg.timePtpIntv (i : Nat) : Nat := 0x60104 + i * 0x100
def Reg.TimePtpIntv.logAnnounce (i : Nat) : Field := ⟨Reg.timePtpIntv i, 24, 8⟩
def Reg.TimePtpIntv.logSync (i : Nat) : Field := ⟨Reg.timePtpIntv i, 16, 8⟩
def Reg.TimePtpIntv.logDelay (i : Nat) : Field := ⟨Reg.timePtpIntv i, 8, 8⟩
/-- `TIME_PTP_i_PRIO` (R294). -/
def Reg.timePtpPrio (i : Nat) : Nat := 0x60108 + i * 0x100
def Reg.TimePtpPrio.priority1 (i : Nat) : Field := ⟨Reg.timePtpPrio i, 24, 8⟩
def Reg.TimePtpPrio.priority2 (i : Nat) : Field := ⟨Reg.timePtpPrio i, 16, 8⟩
def Reg.TimePtpPrio.timeSource (i : Nat) : Field := ⟨Reg.timePtpPrio i, 8, 8⟩
def Reg.TimePtpPrio.traceable (i : Nat) : Field := ⟨Reg.timePtpPrio i, 7, 1⟩
/-- `TIME_PTP_i_SERVO` (R294). -/
def Reg.timePtpServo (i : Nat) : Nat := 0x6010C + i * 0x100
def Reg.TimePtpServo.kp (i : Nat) : Field := ⟨Reg.timePtpServo i, 16, 16⟩
def Reg.TimePtpServo.ki (i : Nat) : Field := ⟨Reg.timePtpServo i, 0, 16⟩
/-- `TIME_PTP_i_THRESH` (R294). -/
def Reg.timePtpThresh (i : Nat) : Nat := 0x60110 + i * 0x100
def Reg.TimePtpThresh.stepUs (i : Nat) : Field := ⟨Reg.timePtpThresh i, 16, 16⟩
def Reg.TimePtpThresh.lockNs (i : Nat) : Field := ⟨Reg.timePtpThresh i, 0, 16⟩
/-- `TIME_PTP_i_STATUS` (R294). -/
def Reg.timePtpStatus (i : Nat) : Nat := 0x60114 + i * 0x100
def Reg.TimePtpStatus.portState (i : Nat) : Field := ⟨Reg.timePtpStatus i, 28, 4⟩
def Reg.TimePtpStatus.clockClass (i : Nat) : Field := ⟨Reg.timePtpStatus i, 20, 8⟩
def Reg.TimePtpStatus.gmSelf (i : Nat) : Field := ⟨Reg.timePtpStatus i, 17, 1⟩
def Reg.TimePtpStatus.utcValid (i : Nat) : Field := ⟨Reg.timePtpStatus i, 16, 1⟩
def Reg.TimePtpStatus.utcOffset (i : Nat) : Field := ⟨Reg.timePtpStatus i, 4, 12⟩
def Reg.TimePtpStatus.step (i : Nat) : Field := ⟨Reg.timePtpStatus i, 3, 1⟩
def Reg.TimePtpStatus.masterChg (i : Nat) : Field := ⟨Reg.timePtpStatus i, 2, 1⟩
def Reg.TimePtpStatus.annTimeout (i : Nat) : Field := ⟨Reg.timePtpStatus i, 1, 1⟩
def Reg.TimePtpStatus.msgErr (i : Nat) : Field := ⟨Reg.timePtpStatus i, 0, 1⟩
/-- `TIME_PTP_i_OFFSET` (R294). -/
def Reg.timePtpOffset (i : Nat) : Nat := 0x60118 + i * 0x100
/-- `TIME_PTP_i_PATH` (R294). -/
def Reg.timePtpPath (i : Nat) : Nat := 0x6011C + i * 0x100
/-- `TIME_PTP_i_RATE` (R294). -/
def Reg.timePtpRate (i : Nat) : Nat := 0x60120 + i * 0x100
/-- `TIME_PTP_i_GMID_LO` (R294). -/
def Reg.timePtpGmidLo (i : Nat) : Nat := 0x60124 + i * 0x100
/-- `TIME_PTP_i_GMID_HI` (R294). -/
def Reg.timePtpGmidHi (i : Nat) : Nat := 0x60128 + i * 0x100
/-- `TIME_PTP_i_STEP_CNT` (R294). -/
def Reg.timePtpStepCnt (i : Nat) : Nat := 0x6012C + i * 0x100
/-- `TIME_PTP_i_SYNC_RX` (R294). -/
def Reg.timePtpSyncRx (i : Nat) : Nat := 0x60130 + i * 0x100
/-- `TIME_PTP_i_ANN_TIMEOUT` (R294). -/
def Reg.timePtpAnnTimeout (i : Nat) : Nat := 0x60134 + i * 0x100
/-- `TIME_PTP_i_MSG_ERR` (R294). -/
def Reg.timePtpMsgErr (i : Nat) : Nat := 0x60138 + i * 0x100
/-- `TIME_PTP_i_MASTER_CHG` (R294). -/
def Reg.timePtpMasterChg (i : Nat) : Nat := 0x6013C + i * 0x100
/-- `CMP_CTRL` (R327). -/
def Reg.cmpCtrl : Nat := 0x70000
def Reg.CmpCtrl.unlatch : Field := ⟨Reg.cmpCtrl, 31, 1⟩
def Reg.CmpCtrl.swap : Field := ⟨Reg.cmpCtrl, 30, 1⟩
def Reg.CmpCtrl.rejoinB : Field := ⟨Reg.cmpCtrl, 29, 1⟩
def Reg.CmpCtrl.rejoinA : Field := ⟨Reg.cmpCtrl, 28, 1⟩
def Reg.CmpCtrl.window : Field := ⟨Reg.cmpCtrl, 0, 8⟩
/-- `CMP_STATUS` (R327). -/
def Reg.cmpStatus : Nat := 0x70004
def Reg.CmpStatus.stateB : Field := ⟨Reg.cmpStatus, 29, 3⟩
def Reg.CmpStatus.stateA : Field := ⟨Reg.cmpStatus, 26, 3⟩
def Reg.CmpStatus.arbBusy : Field := ⟨Reg.cmpStatus, 25, 1⟩
def Reg.CmpStatus.etcHold : Field := ⟨Reg.cmpStatus, 24, 1⟩
def Reg.CmpStatus.failbackLatched : Field := ⟨Reg.cmpStatus, 23, 1⟩
def Reg.CmpStatus.divergeLatchedB : Field := ⟨Reg.cmpStatus, 22, 1⟩
def Reg.CmpStatus.divergeLatchedA : Field := ⟨Reg.cmpStatus, 21, 1⟩
def Reg.CmpStatus.foRecent : Field := ⟨Reg.cmpStatus, 19, 2⟩
def Reg.CmpStatus.unresolved : Field := ⟨Reg.cmpStatus, 7, 1⟩
def Reg.CmpStatus.divergence : Field := ⟨Reg.cmpStatus, 6, 1⟩
def Reg.CmpStatus.mismatch : Field := ⟨Reg.cmpStatus, 5, 1⟩
def Reg.CmpStatus.failback : Field := ⟨Reg.cmpStatus, 4, 1⟩
def Reg.CmpStatus.rejoinedB : Field := ⟨Reg.cmpStatus, 3, 1⟩
def Reg.CmpStatus.rejoinedA : Field := ⟨Reg.cmpStatus, 2, 1⟩
def Reg.CmpStatus.yieldB : Field := ⟨Reg.cmpStatus, 1, 1⟩
def Reg.CmpStatus.yieldA : Field := ⟨Reg.cmpStatus, 0, 1⟩
/-- `CMP_AGREE_LO` (R327). -/
def Reg.cmpAgreeLo : Nat := 0x70008
/-- `CMP_AGREE_HI` (R327). -/
def Reg.cmpAgreeHi : Nat := 0x7000C
/-- `CMP_MISMATCH_CNT` (R327). -/
def Reg.cmpMismatchCnt : Nat := 0x70010
/-- `CMP_ARB_3OF4_CNT` (R327). -/
def Reg.cmpArb3of4Cnt : Nat := 0x70014
/-- `CMP_SELFCONS_CNT` (R327). -/
def Reg.cmpSelfconsCnt : Nat := 0x70018
/-- `CMP_DIVERGE_CNT` (R327). -/
def Reg.cmpDivergeCnt : Nat := 0x7001C
/-- `CMP_UNRESOLVED_CNT` (R327). -/
def Reg.cmpUnresolvedCnt : Nat := 0x70020
/-- `CMP_MISSING_CNT` (R327). -/
def Reg.cmpMissingCnt : Nat := 0x70024
/-- `CMP_FAILOVER_CNT` (R327). -/
def Reg.cmpFailoverCnt : Nat := 0x70028
/-- `CMP_FAILBACK_CNT` (R327). -/
def Reg.cmpFailbackCnt : Nat := 0x7002C
/-- `CMP_HOLD_MAX` (R327). -/
def Reg.cmpHoldMax : Nat := 0x70030
/-- `CMP_LAST_PORT` (R327). -/
def Reg.cmpLastPort : Nat := 0x70034
def Reg.CmpLastPort.port : Field := ⟨Reg.cmpLastPort, 0, 16⟩
/-- `CMP_LAST_SEQ_LO` (R327). -/
def Reg.cmpLastSeqLo : Nat := 0x70038
/-- `CMP_LAST_SEQ_HI` (R327). -/
def Reg.cmpLastSeqHi : Nat := 0x7003C
def Reg.CmpLastSeqHi.value : Field := ⟨Reg.cmpLastSeqHi, 0, 16⟩
/-- `CMP_LAST_CAUSE` (R327). -/
def Reg.cmpLastCause : Nat := 0x70040
def Reg.CmpLastCause.trunk : Field := ⟨Reg.cmpLastCause, 8, 1⟩
def Reg.CmpLastCause.cause : Field := ⟨Reg.cmpLastCause, 0, 4⟩
/-- `CMP_RESYNC` (R327). -/
def Reg.cmpResync : Nat := 0x70044
def Reg.CmpResync.phase : Field := ⟨Reg.cmpResync, 30, 2⟩
def Reg.CmpResync.target : Field := ⟨Reg.cmpResync, 29, 1⟩
def Reg.CmpResync.mibLeft : Field := ⟨Reg.cmpResync, 0, 16⟩
/-- `CMP_HOLDOFF` (R327). -/
def Reg.cmpHoldoff : Nat := 0x70048
def Reg.CmpHoldoff.left : Field := ⟨Reg.cmpHoldoff, 0, 16⟩
/-- `CMP_RING_MOVE_CNT` (R327). -/
def Reg.cmpRingMoveCnt : Nat := 0x7004C
/-- `CMP_RING_LOOP_CNT` (R327). -/
def Reg.cmpRingLoopCnt : Nat := 0x70050
/-- `CMP_GROVE_STATUS` (R327). -/
def Reg.cmpGroveStatus : Nat := 0x70060
def Reg.CmpGroveStatus.partner : Field := ⟨Reg.cmpGroveStatus, 28, 4⟩
def Reg.CmpGroveStatus.paired : Field := ⟨Reg.cmpGroveStatus, 27, 1⟩
def Reg.CmpGroveStatus.partnerServing : Field := ⟨Reg.cmpGroveStatus, 26, 1⟩
def Reg.CmpGroveStatus.takeover : Field := ⟨Reg.cmpGroveStatus, 25, 1⟩
def Reg.CmpGroveStatus.handbackPending : Field := ⟨Reg.cmpGroveStatus, 24, 1⟩
def Reg.CmpGroveStatus.linksUp : Field := ⟨Reg.cmpGroveStatus, 22, 2⟩
def Reg.CmpGroveStatus.partnerReturned : Field := ⟨Reg.cmpGroveStatus, 1, 1⟩
def Reg.CmpGroveStatus.partnerLost : Field := ⟨Reg.cmpGroveStatus, 0, 1⟩
/-- `CMP_HB_MISS_CNT` (R327). -/
def Reg.cmpHbMissCnt : Nat := 0x70064
/-- `CMP_GROVE_RX_ERR` (R327). -/
def Reg.cmpGroveRxErr : Nat := 0x70068
/-- `CMP_TAKEOVER_UNREACH` (R327). -/
def Reg.cmpTakeoverUnreach : Nat := 0x7006C
/-- `SW_CTRL` (R222). -/
def Reg.swCtrl : Nat := 0x80000
def Reg.SwCtrl.flush : Field := ⟨Reg.swCtrl, 31, 1⟩
def Reg.SwCtrl.ageTime : Field := ⟨Reg.swCtrl, 0, 16⟩
/-- `SW_STATUS` (R222). -/
def Reg.swStatus : Nat := 0x80004
def Reg.SwStatus.tableFull : Field := ⟨Reg.swStatus, 31, 1⟩
def Reg.SwStatus.entries : Field := ⟨Reg.swStatus, 0, 15⟩
/-- `SW_SRAM_USED` (R222). -/
def Reg.swSramUsed : Nat := 0x80008
/-- `SW_LEARN_DROP_CNT` (R222). -/
def Reg.swLearnDropCnt : Nat := 0x8000C
/-- `QB_q_CFG` (R362). -/
def Reg.qbCfg (q : Nat) : Nat := 0x90000 + q * 0x40
def Reg.QbCfg.staleUs (q : Nat) : Field := ⟨Reg.qbCfg q, 16, 16⟩
def Reg.QbCfg.ctThreshold (q : Nat) : Field := ⟨Reg.qbCfg q, 0, 14⟩
/-- `QB_q_GEOM` (R362). -/
def Reg.qbGeom (q : Nat) : Nat := 0x90004 + q * 0x40
def Reg.QbGeom.wide (q : Nat) : Field := ⟨Reg.qbGeom q, 31, 1⟩
def Reg.QbGeom.ptrBits (q : Nat) : Field := ⟨Reg.qbGeom q, 24, 5⟩
def Reg.QbGeom.depth (q : Nat) : Field := ⟨Reg.qbGeom q, 0, 24⟩
/-- `QB_q_FILL` (R362). -/
def Reg.qbFill (q : Nat) : Nat := 0x90008 + q * 0x40
def Reg.QbFill.fill (q : Nat) : Field := ⟨Reg.qbFill q, 0, 24⟩
/-- `QB_q_FILL_MAX` (R362). -/
def Reg.qbFillMax (q : Nat) : Nat := 0x9000C + q * 0x40
def Reg.QbFillMax.fill (q : Nat) : Field := ⟨Reg.qbFillMax q, 0, 24⟩
/-- `QB_q_PTR_W` (R362). -/
def Reg.qbPtrW (q : Nat) : Nat := 0x90010 + q * 0x40
def Reg.QbPtrW.ptr (q : Nat) : Field := ⟨Reg.qbPtrW q, 0, 25⟩
/-- `QB_q_PTR_R` (R362). -/
def Reg.qbPtrR (q : Nat) : Nat := 0x90014 + q * 0x40
def Reg.QbPtrR.ptr (q : Nat) : Field := ⟨Reg.qbPtrR q, 0, 25⟩
/-- `QB_q_STATUS` (R362). -/
def Reg.qbStatus (q : Nat) : Nat := 0x90018 + q * 0x40
def Reg.QbStatus.full (q : Nat) : Field := ⟨Reg.qbStatus q, 31, 1⟩
def Reg.QbStatus.empty (q : Nat) : Field := ⟨Reg.qbStatus q, 30, 1⟩
def Reg.QbStatus.stale (q : Nat) : Field := ⟨Reg.qbStatus q, 29, 1⟩
def Reg.QbStatus.staleSeen (q : Nat) : Field := ⟨Reg.qbStatus q, 2, 1⟩
def Reg.QbStatus.stalled (q : Nat) : Field := ⟨Reg.qbStatus q, 1, 1⟩
def Reg.QbStatus.emptyRead (q : Nat) : Field := ⟨Reg.qbStatus q, 0, 1⟩
/-- `QB_q_EMPTY_RD_CNT` (R362). -/
def Reg.qbEmptyRdCnt (q : Nat) : Nat := 0x9001C + q * 0x40
/-- `QB_q_STALL_CNT` (R362). -/
def Reg.qbStallCnt (q : Nat) : Nat := 0x90020 + q * 0x40
/-- `QB_q_STALE_CNT` (R362). -/
def Reg.qbStaleCnt (q : Nat) : Nat := 0x90024 + q * 0x40
/-- `ROOT_LC_RET_OK` (R246). -/
def Reg.rootLcRetOk : Nat := 0xB0000
/-- `ROOT_LC_RET_CRC_ERR` (R246). -/
def Reg.rootLcRetCrcErr : Nat := 0xB0004
/-- `ROOT_LC_RET_FOREIGN` (R246). -/
def Reg.rootLcRetForeign : Nat := 0xB0008
/-- `ROOT_UDP_CSUM_ERR` (R246). -/
def Reg.rootUdpCsumErr : Nat := 0xB000C
/-- `ROOT_E131_RX_ERR` (R246). -/
def Reg.rootE131RxErr : Nat := 0xB0010
/-- `ROOT_E131_SRC_LOST` (R246). -/
def Reg.rootE131SrcLost : Nat := 0xB0014
/-- `DMX_n_CTRL` (R247). -/
def Reg.dmxCtrl (n : Nat) : Nat := 0xC0000 + n * 0x40
def Reg.DmxCtrl.rdmDisc (n : Nat) : Field := ⟨Reg.dmxCtrl n, 1, 1⟩
def Reg.DmxCtrl.holdOff (n : Nat) : Field := ⟨Reg.dmxCtrl n, 0, 1⟩
/-- `DMX_n_STATUS` (R247). -/
def Reg.dmxStatus (n : Nat) : Nat := 0xC0004 + n * 0x40
def Reg.DmxStatus.uids (n : Nat) : Field := ⟨Reg.dmxStatus n, 16, 16⟩
def Reg.DmxStatus.rxValid (n : Nat) : Field := ⟨Reg.dmxStatus n, 4, 1⟩
def Reg.DmxStatus.discBusy (n : Nat) : Field := ⟨Reg.dmxStatus n, 3, 1⟩
def Reg.DmxStatus.rdmBusy (n : Nat) : Field := ⟨Reg.dmxStatus n, 2, 1⟩
def Reg.DmxStatus.superseded (n : Nat) : Field := ⟨Reg.dmxStatus n, 1, 1⟩
def Reg.DmxStatus.sending (n : Nat) : Field := ⟨Reg.dmxStatus n, 0, 1⟩
/-- `DMX_n_TX_FRAMES` (R247). -/
def Reg.dmxTxFrames (n : Nat) : Nat := 0xC0008 + n * 0x40
/-- `DMX_n_SUPERSEDED` (R247). -/
def Reg.dmxSuperseded (n : Nat) : Nat := 0xC000C + n * 0x40
/-- `DMX_n_RDM_OK` (R247). -/
def Reg.dmxRdmOk (n : Nat) : Nat := 0xC0010 + n * 0x40
/-- `DMX_n_RDM_TIMEOUT` (R247). -/
def Reg.dmxRdmTimeout (n : Nat) : Nat := 0xC0014 + n * 0x40
/-- `DMX_n_RDM_ERR` (R247). -/
def Reg.dmxRdmErr (n : Nat) : Nat := 0xC0018 + n * 0x40
/-- `DMX_n_RX_FRAMES` (R247). -/
def Reg.dmxRxFrames (n : Nat) : Nat := 0xC001C + n * 0x40
/-- `DMX_n_RX_ERR` (R247). -/
def Reg.dmxRxErr (n : Nat) : Nat := 0xC0020 + n * 0x40
/-- `SAP_n_CTRL` (R271). -/
def Reg.sapCtrl (n : Nat) : Nat := 0xD0000 + n * 0x100
def Reg.SapCtrl.holdOff (n : Nat) : Field := ⟨Reg.sapCtrl n, 0, 1⟩
/-- `SAP_n_STATUS` (R271). -/
def Reg.sapStatus (n : Nat) : Nat := 0xD0004 + n * 0x100
def Reg.SapStatus.missing (n : Nat) : Field := ⟨Reg.sapStatus n, 16, 11⟩
def Reg.SapStatus.safety (n : Nat) : Field := ⟨Reg.sapStatus n, 5, 1⟩
def Reg.SapStatus.diagChg (n : Nat) : Field := ⟨Reg.sapStatus n, 4, 1⟩
def Reg.SapStatus.takeSlip (n : Nat) : Field := ⟨Reg.sapStatus n, 3, 1⟩
def Reg.SapStatus.noReply (n : Nat) : Field := ⟨Reg.sapStatus n, 2, 1⟩
def Reg.SapStatus.replyErr (n : Nat) : Field := ⟨Reg.sapStatus n, 1, 1⟩
def Reg.SapStatus.drop (n : Nat) : Field := ⟨Reg.sapStatus n, 0, 1⟩
/-- `SAP_n_TX_BURSTS` (R271). -/
def Reg.sapTxBursts (n : Nat) : Nat := 0xD0008 + n * 0x100
/-- `SAP_n_TX_LATE` (R271). -/
def Reg.sapTxLate (n : Nat) : Nat := 0xD000C + n * 0x100
/-- `SAP_n_TX_DROP` (R271). -/
def Reg.sapTxDrop (n : Nat) : Nat := 0xD0010 + n * 0x100
/-- `SAP_n_TAKE_SLIP` (R271). -/
def Reg.sapTakeSlip (n : Nat) : Nat := 0xD0014 + n * 0x100
/-- `SAP_n_POLLS` (R271). -/
def Reg.sapPolls (n : Nat) : Nat := 0xD0018 + n * 0x100
/-- `SAP_n_NO_REPLY` (R271). -/
def Reg.sapNoReply (n : Nat) : Nat := 0xD001C + n * 0x100
/-- `SAP_n_REPLY_ERR` (R271). -/
def Reg.sapReplyErr (n : Nat) : Nat := 0xD0020 + n * 0x100
/-- `SAP_n_PROBES` (R271). -/
def Reg.sapProbes (n : Nat) : Nat := 0xD0024 + n * 0x100
/-- `SAP_n_PROBE_SKIP` (R271). -/
def Reg.sapProbeSkip (n : Nat) : Nat := 0xD0028 + n * 0x100
/-- `GRAFT_CTRL` (R379). -/
def Reg.graftCtrl : Nat := 0xE0000
def Reg.GraftCtrl.retryMax : Field := ⟨Reg.graftCtrl, 24, 4⟩
def Reg.GraftCtrl.timeoutMs : Field := ⟨Reg.graftCtrl, 0, 16⟩
/-- `GRAFT_STATUS` (R379). -/
def Reg.graftStatus : Nat := 0xE0004
def Reg.GraftStatus.inFlightRoot : Field := ⟨Reg.graftStatus, 25, 7⟩
def Reg.GraftStatus.inFlightA : Field := ⟨Reg.graftStatus, 18, 7⟩
def Reg.GraftStatus.inFlightB : Field := ⟨Reg.graftStatus, 11, 7⟩
def Reg.GraftStatus.tunBad : Field := ⟨Reg.graftStatus, 10, 1⟩
def Reg.GraftStatus.windfallFill : Field := ⟨Reg.graftStatus, 3, 5⟩
def Reg.GraftStatus.attrWrong : Field := ⟨Reg.graftStatus, 2, 1⟩
def Reg.GraftStatus.timeout : Field := ⟨Reg.graftStatus, 1, 1⟩
def Reg.GraftStatus.crossing : Field := ⟨Reg.graftStatus, 0, 1⟩
/-- `GRAFT_LAST` (R379). -/
def Reg.graftLast : Nat := 0xE0008
def Reg.GraftLast.code : Field := ⟨Reg.graftLast, 16, 16⟩
def Reg.GraftLast.reason : Field := ⟨Reg.graftLast, 0, 16⟩
/-- `GRAFT_REQ_CNT` (R379). -/
def Reg.graftReqCnt : Nat := 0xE0010
/-- `GRAFT_TIMEOUT_CNT` (R379). -/
def Reg.graftTimeoutCnt : Nat := 0xE0014
/-- `GRAFT_NACK_CNT` (R379). -/
def Reg.graftNackCnt : Nat := 0xE0018
/-- `GRAFT_RETRY_CNT` (R379). -/
def Reg.graftRetryCnt : Nat := 0xE001C
/-- `GRAFT_RSP_ERR` (R379). -/
def Reg.graftRspErr : Nat := 0xE0020
/-- `GRAFT_PREFETCH_HIT` (R379). -/
def Reg.graftPrefetchHit : Nat := 0xE0024
/-- `GRAFT_WINDFALL_CNT` (R379). -/
def Reg.graftWindfallCnt : Nat := 0xE0028
/-- `GRAFT_WINDFALL_DROP` (R379). -/
def Reg.graftWindfallDrop : Nat := 0xE002C
/-- `GRAFT_TUN_TX_CNT` (R379). -/
def Reg.graftTunTxCnt : Nat := 0xE0030
/-- `GRAFT_TUN_RX_CNT` (R379). -/
def Reg.graftTunRxCnt : Nat := 0xE0034
/-- `GRAFT_TUN_DROP` (R379). -/
def Reg.graftTunDrop : Nat := 0xE0038
/-- `GRAFT_SEL_i` (R379). -/
def Reg.graftSel (i : Nat) : Nat := 0xE0100 + i * 0x4
def Reg.GraftSel.remote (i : Nat) : Field := ⟨Reg.graftSel i, 31, 1⟩
def Reg.GraftSel.position (i : Nat) : Field := ⟨Reg.graftSel i, 24, 4⟩
/-- `GRAFT_ATTR_r` (R379). -/
def Reg.graftAttr (r : Nat) : Nat := 0xE0200 + r * 0x4
def Reg.GraftAttr.enable (r : Nat) : Field := ⟨Reg.graftAttr r, 31, 1⟩
def Reg.GraftAttr.sef (r : Nat) : Field := ⟨Reg.graftAttr r, 30, 1⟩
def Reg.GraftAttr.protocol (r : Nat) : Field := ⟨Reg.graftAttr r, 28, 2⟩
def Reg.GraftAttr.first (r : Nat) : Field := ⟨Reg.graftAttr r, 16, 12⟩
def Reg.GraftAttr.last (r : Nat) : Field := ⟨Reg.graftAttr r, 4, 12⟩
/-- `GRAFT_TUN_t` (R379). -/
def Reg.graftTun (t : Nat) : Nat := 0xE0300 + t * 0x4
def Reg.GraftTun.enable (t : Nat) : Field := ⟨Reg.graftTun t, 31, 1⟩
def Reg.GraftTun.dstPosition (t : Nat) : Field := ⟨Reg.graftTun t, 24, 4⟩
def Reg.GraftTun.dstPort (t : Nat) : Field := ⟨Reg.graftTun t, 16, 4⟩
def Reg.GraftTun.srcPort (t : Nat) : Field := ⟨Reg.graftTun t, 0, 4⟩
/-- `PORT_n_CTRL` (R223). -/
def Reg.portCtrl (n : Nat) : Nat := 0x100000 + n * 0x100
def Reg.PortCtrl.pauseRearm (n : Nat) : Field := ⟨Reg.portCtrl n, 1, 1⟩
def Reg.PortCtrl.disable (n : Nat) : Field := ⟨Reg.portCtrl n, 0, 1⟩
/-- `PORT_n_STATUS` (R223). -/
def Reg.portStatus (n : Nat) : Nat := 0x100004 + n * 0x100
def Reg.PortStatus.phyMode (n : Nat) : Field := ⟨Reg.portStatus n, 16, 4⟩
def Reg.PortStatus.link (n : Nat) : Field := ⟨Reg.portStatus n, 15, 1⟩
def Reg.PortStatus.rxPaused (n : Nat) : Field := ⟨Reg.portStatus n, 14, 1⟩
def Reg.PortStatus.txPausing (n : Nat) : Field := ⟨Reg.portStatus n, 13, 1⟩
def Reg.PortStatus.pauseIgnored (n : Nat) : Field := ⟨Reg.portStatus n, 12, 1⟩
def Reg.PortStatus.fecLock (n : Nat) : Field := ⟨Reg.portStatus n, 11, 1⟩
def Reg.PortStatus.linkChg (n : Nat) : Field := ⟨Reg.portStatus n, 3, 1⟩
def Reg.PortStatus.pauseWd (n : Nat) : Field := ⟨Reg.portStatus n, 2, 1⟩
def Reg.PortStatus.trunc (n : Nat) : Field := ⟨Reg.portStatus n, 1, 1⟩
def Reg.PortStatus.drop (n : Nat) : Field := ⟨Reg.portStatus n, 0, 1⟩
/-- `PORT_n_QUEUE_FILL` (R223). -/
def Reg.portQueueFill (n : Nat) : Nat := 0x100008 + n * 0x100
def Reg.PortQueueFill.fill (n : Nat) : Field := ⟨Reg.portQueueFill n, 0, 23⟩
/-- `PORT_n_RING_FILL` (R223). -/
def Reg.portRingFill (n : Nat) : Nat := 0x10000C + n * 0x100
def Reg.PortRingFill.fill (n : Nat) : Field := ⟨Reg.portRingFill n, 0, 25⟩
/-- `PORT_n_RX_BYTES_LO` (R223). -/
def Reg.portRxBytesLo (n : Nat) : Nat := 0x100020 + n * 0x100
/-- `PORT_n_RX_BYTES_HI` (R223). -/
def Reg.portRxBytesHi (n : Nat) : Nat := 0x100024 + n * 0x100
/-- `PORT_n_TX_BYTES_LO` (R223). -/
def Reg.portTxBytesLo (n : Nat) : Nat := 0x100028 + n * 0x100
/-- `PORT_n_TX_BYTES_HI` (R223). -/
def Reg.portTxBytesHi (n : Nat) : Nat := 0x10002C + n * 0x100
/-- `PORT_n_RX_FRAMES` (R223). -/
def Reg.portRxFrames (n : Nat) : Nat := 0x100030 + n * 0x100
/-- `PORT_n_TX_FRAMES` (R223). -/
def Reg.portTxFrames (n : Nat) : Nat := 0x100034 + n * 0x100
/-- `PORT_n_RX_FCS_ERR` (R223). -/
def Reg.portRxFcsErr (n : Nat) : Nat := 0x100038 + n * 0x100
/-- `PORT_n_RX_LEN_ERR` (R223). -/
def Reg.portRxLenErr (n : Nat) : Nat := 0x10003C + n * 0x100
/-- `PORT_n_RX_DROP` (R223). -/
def Reg.portRxDrop (n : Nat) : Nat := 0x100040 + n * 0x100
/-- `PORT_n_RX_TRUNC` (R223). -/
def Reg.portRxTrunc (n : Nat) : Nat := 0x100044 + n * 0x100
/-- `PORT_n_RX_PAUSE` (R223). -/
def Reg.portRxPause (n : Nat) : Nat := 0x100048 + n * 0x100
/-- `PORT_n_RX_PAUSE_IDLE` (R223). -/
def Reg.portRxPauseIdle (n : Nat) : Nat := 0x10004C + n * 0x100
/-- `PORT_n_RX_PAUSE_IGNORED` (R223). -/
def Reg.portRxPauseIgnored (n : Nat) : Nat := 0x100050 + n * 0x100
/-- `PORT_n_RX_CTRL_UNSUP` (R223). -/
def Reg.portRxCtrlUnsup (n : Nat) : Nat := 0x100054 + n * 0x100
/-- `PORT_n_TX_PAUSE` (R223). -/
def Reg.portTxPause (n : Nat) : Nat := 0x100058 + n * 0x100
/-- `PORT_n_TX_PAUSE_ZERO` (R223). -/
def Reg.portTxPauseZero (n : Nat) : Nat := 0x10005C + n * 0x100
/-- `PORT_n_PAUSE_WD_CNT` (R223). -/
def Reg.portPauseWdCnt (n : Nat) : Nat := 0x100060 + n * 0x100
/-- `PORT_n_TX_LATE` (R223). -/
def Reg.portTxLate (n : Nat) : Nat := 0x100064 + n * 0x100
/-- `PORT_n_TX_TIMED_DROP` (R223). -/
def Reg.portTxTimedDrop (n : Nat) : Nat := 0x100068 + n * 0x100
/-- `PORT_n_TX_UNTIMED_DROP` (R223). -/
def Reg.portTxUntimedDrop (n : Nat) : Nat := 0x10006C + n * 0x100
/-- `PORT_n_TX_STOMP` (R223). -/
def Reg.portTxStomp (n : Nat) : Nat := 0x100070 + n * 0x100
/-- `PORT_n_COLLISIONS` (R223). -/
def Reg.portCollisions (n : Nat) : Nat := 0x100074 + n * 0x100
/-- `PORT_n_LATE_COLL` (R223). -/
def Reg.portLateColl (n : Nat) : Nat := 0x100078 + n * 0x100
/-- `PORT_n_EXCESS_COLL` (R223). -/
def Reg.portExcessColl (n : Nat) : Nat := 0x10007C + n * 0x100
/-- `PORT_n_DEFER` (R223). -/
def Reg.portDefer (n : Nat) : Nat := 0x100080 + n * 0x100
/-- `PORT_n_FEC_CORR` (R223). -/
def Reg.portFecCorr (n : Nat) : Nat := 0x100084 + n * 0x100
/-- `PORT_n_FEC_UNCORR` (R223). -/
def Reg.portFecUncorr (n : Nat) : Nat := 0x100088 + n * 0x100
/-- `CHK_n_CFG` (R412). -/
def Reg.chkCfg (n : Nat) : Nat := 0x120000 + n * 0x80
def Reg.ChkCfg.mode (n : Nat) : Field := ⟨Reg.chkCfg n, 30, 2⟩
def Reg.ChkCfg.fixedSel (n : Nat) : Field := ⟨Reg.chkCfg n, 28, 2⟩
def Reg.ChkCfg.width (n : Nat) : Field := ⟨Reg.chkCfg n, 21, 7⟩
def Reg.ChkCfg.refin (n : Nat) : Field := ⟨Reg.chkCfg n, 20, 1⟩
def Reg.ChkCfg.refout (n : Nat) : Field := ⟨Reg.chkCfg n, 19, 1⟩
def Reg.ChkCfg.foldBytes (n : Nat) : Field := ⟨Reg.chkCfg n, 15, 4⟩
def Reg.ChkCfg.foldBe (n : Nat) : Field := ⟨Reg.chkCfg n, 14, 1⟩
def Reg.ChkCfg.dir (n : Nat) : Field := ⟨Reg.chkCfg n, 12, 2⟩
def Reg.ChkCfg.checkBe (n : Nat) : Field := ⟨Reg.chkCfg n, 11, 1⟩
def Reg.ChkCfg.dataBytes (n : Nat) : Field := ⟨Reg.chkCfg n, 0, 3⟩
/-- `CHK_n_CTRL` (R412). -/
def Reg.chkCtrl (n : Nat) : Nat := 0x120004 + n * 0x80
def Reg.ChkCtrl.start (n : Nat) : Field := ⟨Reg.chkCtrl n, 31, 1⟩
def Reg.ChkCtrl.finish (n : Nat) : Field := ⟨Reg.chkCtrl n, 30, 1⟩
/-- `CHK_n_DATA` (R412). -/
def Reg.chkData (n : Nat) : Nat := 0x120008 + n * 0x80
/-- `CHK_n_STATUS` (R412). -/
def Reg.chkStatus (n : Nat) : Nat := 0x12000C + n * 0x80
def Reg.ChkStatus.hostOwned (n : Nat) : Field := ⟨Reg.chkStatus n, 31, 1⟩
def Reg.ChkStatus.busy (n : Nat) : Field := ⟨Reg.chkStatus n, 30, 1⟩
def Reg.ChkStatus.matchF (n : Nat) : Field := ⟨Reg.chkStatus n, 29, 1⟩
def Reg.ChkStatus.done (n : Nat) : Field := ⟨Reg.chkStatus n, 28, 1⟩
def Reg.ChkStatus.mismatch (n : Nat) : Field := ⟨Reg.chkStatus n, 27, 1⟩
def Reg.ChkStatus.lost (n : Nat) : Field := ⟨Reg.chkStatus n, 26, 1⟩
def Reg.ChkStatus.cfgErr (n : Nat) : Field := ⟨Reg.chkStatus n, 25, 1⟩
/-- `CHK_n_POLY_LO` (R412). -/
def Reg.chkPolyLo (n : Nat) : Nat := 0x120010 + n * 0x80
/-- `CHK_n_POLY_HI` (R412). -/
def Reg.chkPolyHi (n : Nat) : Nat := 0x120014 + n * 0x80
/-- `CHK_n_INIT_LO` (R412). -/
def Reg.chkInitLo (n : Nat) : Nat := 0x120018 + n * 0x80
/-- `CHK_n_INIT_HI` (R412). -/
def Reg.chkInitHi (n : Nat) : Nat := 0x12001C + n * 0x80
/-- `CHK_n_XOROUT_LO` (R412). -/
def Reg.chkXoroutLo (n : Nat) : Nat := 0x120020 + n * 0x80
/-- `CHK_n_XOROUT_HI` (R412). -/
def Reg.chkXoroutHi (n : Nat) : Nat := 0x120024 + n * 0x80
/-- `CHK_n_FOLD_LO` (R412). -/
def Reg.chkFoldLo (n : Nat) : Nat := 0x120028 + n * 0x80
/-- `CHK_n_FOLD_HI` (R412). -/
def Reg.chkFoldHi (n : Nat) : Nat := 0x12002C + n * 0x80
/-- `CHK_n_STATE_LO` (R412). -/
def Reg.chkStateLo (n : Nat) : Nat := 0x120030 + n * 0x80
/-- `CHK_n_STATE_HI` (R412). -/
def Reg.chkStateHi (n : Nat) : Nat := 0x120034 + n * 0x80
/-- `CHK_n_RESULT_LO` (R412). -/
def Reg.chkResultLo (n : Nat) : Nat := 0x120038 + n * 0x80
/-- `CHK_n_RESULT_HI` (R412). -/
def Reg.chkResultHi (n : Nat) : Nat := 0x12003C + n * 0x80
/-- `CHK_n_UNIT_CNT` (R412). -/
def Reg.chkUnitCnt (n : Nat) : Nat := 0x120040 + n * 0x80
/-- `CHK_n_FAIL_CNT` (R412). -/
def Reg.chkFailCnt (n : Nat) : Nat := 0x120044 + n * 0x80
/-- `CHK_ECC_CORR_CNT` (R413). -/
def Reg.chkEccCorrCnt : Nat := 0x121000
/-- `CHK_ECC_UNCORR_CNT` (R413). -/
def Reg.chkEccUncorrCnt : Nat := 0x121004
/-- `CHK_ECC_LAST_INFO` (R413). -/
def Reg.chkEccLastInfo : Nat := 0x121008
def Reg.ChkEccLastInfo.valid : Field := ⟨Reg.chkEccLastInfo, 31, 1⟩
def Reg.ChkEccLastInfo.uncorr : Field := ⟨Reg.chkEccLastInfo, 30, 1⟩
def Reg.ChkEccLastInfo.scrub : Field := ⟨Reg.chkEccLastInfo, 29, 1⟩
def Reg.ChkEccLastInfo.memory : Field := ⟨Reg.chkEccLastInfo, 25, 4⟩
def Reg.ChkEccLastInfo.instanceF : Field := ⟨Reg.chkEccLastInfo, 15, 10⟩
def Reg.ChkEccLastInfo.bit : Field := ⟨Reg.chkEccLastInfo, 0, 7⟩
/-- `CHK_ECC_LAST_LO` (R413). -/
def Reg.chkEccLastLo : Nat := 0x12100C
/-- `CHK_ECC_LAST_HI` (R413). -/
def Reg.chkEccLastHi : Nat := 0x121010
/-- `CHK_SCRUB_CTRL` (R413). -/
def Reg.chkScrubCtrl : Nat := 0x121014
def Reg.ChkScrubCtrl.enable : Field := ⟨Reg.chkScrubCtrl, 31, 1⟩
def Reg.ChkScrubCtrl.periodS : Field := ⟨Reg.chkScrubCtrl, 0, 17⟩
/-- `CHK_SCRUB_PASS_CNT` (R413). -/
def Reg.chkScrubPassCnt : Nat := 0x121018
/-- `LIFE_STATE` (R456). -/
def Reg.lifeState : Nat := 0x130000
def Reg.LifeState.state : Field := ⟨Reg.lifeState, 29, 3⟩
def Reg.LifeState.ownerKey : Field := ⟨Reg.lifeState, 28, 1⟩
def Reg.LifeState.keyPending : Field := ⟨Reg.lifeState, 27, 1⟩
def Reg.LifeState.tapFull : Field := ⟨Reg.lifeState, 26, 1⟩
/-- `LIFE_CTRL` (R456). -/
def Reg.lifeCtrl : Nat := 0x130004
def Reg.LifeCtrl.parkB : Field := ⟨Reg.lifeCtrl, 1, 1⟩
def Reg.LifeCtrl.parkA : Field := ⟨Reg.lifeCtrl, 0, 1⟩
/-- `LIFE_NONCE_k` (R456). -/
def Reg.lifeNonce (k : Nat) : Nat := 0x130010 + k * 0x4
/-- `LIFE_UPD_CTRL` (R441). -/
def Reg.lifeUpdCtrl : Nat := 0x130100
def Reg.LifeUpdCtrl.forceRecovery : Field := ⟨Reg.lifeUpdCtrl, 31, 1⟩
def Reg.LifeUpdCtrl.confirmHost : Field := ⟨Reg.lifeUpdCtrl, 30, 1⟩
def Reg.LifeUpdCtrl.fwConfirmS : Field := ⟨Reg.lifeUpdCtrl, 0, 16⟩
/-- `LIFE_UPD_STATUS` (R441). -/
def Reg.lifeUpdStatus : Nat := 0x130104
def Reg.LifeUpdStatus.recovery : Field := ⟨Reg.lifeUpdStatus, 31, 1⟩
def Reg.LifeUpdStatus.seedStage : Field := ⟨Reg.lifeUpdStatus, 26, 2⟩
def Reg.LifeUpdStatus.seedRun : Field := ⟨Reg.lifeUpdStatus, 24, 2⟩
def Reg.LifeUpdStatus.fwStage : Field := ⟨Reg.lifeUpdStatus, 22, 2⟩
def Reg.LifeUpdStatus.fwRun : Field := ⟨Reg.lifeUpdStatus, 20, 2⟩
def Reg.LifeUpdStatus.loaderStage : Field := ⟨Reg.lifeUpdStatus, 18, 2⟩
def Reg.LifeUpdStatus.loaderSlot : Field := ⟨Reg.lifeUpdStatus, 17, 1⟩
def Reg.LifeUpdStatus.fallback : Field := ⟨Reg.lifeUpdStatus, 2, 1⟩
def Reg.LifeUpdStatus.refused : Field := ⟨Reg.lifeUpdStatus, 1, 1⟩
def Reg.LifeUpdStatus.confirmed : Field := ⟨Reg.lifeUpdStatus, 0, 1⟩
/-- `LIFE_UPD_WINDOW` (R441). -/
def Reg.lifeUpdWindow : Nat := 0x130108
def Reg.LifeUpdWindow.seed : Field := ⟨Reg.lifeUpdWindow, 16, 16⟩
def Reg.LifeUpdWindow.fw : Field := ⟨Reg.lifeUpdWindow, 0, 16⟩
/-- `LIFE_UPD_FW_VERSION` (R441). -/
def Reg.lifeUpdFwVersion : Nat := 0x13010C
/-- `LIFE_UPD_LOADER_VERSION` (R441). -/
def Reg.lifeUpdLoaderVersion : Nat := 0x130110
/-- `LIFE_UPD_FALLBACK_CNT` (R441). -/
def Reg.lifeUpdFallbackCnt : Nat := 0x130114
/-- `LIFE_UPD_c_STAGED_w` (R441). -/
def Reg.lifeUpdStaged (c : Nat) (w : Nat) : Nat := 0x130120 + c * 0x40 + w * 0x4
/-- `LIFE_UPD_c_RUN_w` (R441). -/
def Reg.lifeUpdRun (c : Nat) (w : Nat) : Nat := 0x130140 + c * 0x40 + w * 0x4
/-- `LIFE_UPD_c_ACT_LO` (R441). -/
def Reg.lifeUpdActLo (c : Nat) : Nat := 0x130200 + c * 0x10
/-- `LIFE_UPD_c_ACT_MID` (R441). -/
def Reg.lifeUpdActMid (c : Nat) : Nat := 0x130204 + c * 0x10
/-- `LIFE_UPD_c_ACT_HI` (R441). -/
def Reg.lifeUpdActHi (c : Nat) : Nat := 0x130208 + c * 0x10
/-- `LIFE_UPD_c_ACT_AXIS` (R441). -/
def Reg.lifeUpdActAxis (c : Nat) : Nat := 0x13020C + c * 0x10
def Reg.LifeUpdActAxis.axis (c : Nat) : Field := ⟨Reg.lifeUpdActAxis c, 0, 5⟩
/-- `BIST_STATUS` (R456). -/
def Reg.bistStatus : Nat := 0x140000
def Reg.BistStatus.busy : Field := ⟨Reg.bistStatus, 31, 1⟩
def Reg.BistStatus.parkRefused : Field := ⟨Reg.bistStatus, 1, 1⟩
def Reg.BistStatus.restoreFail : Field := ⟨Reg.bistStatus, 0, 1⟩
/-- `BIST_TRUNK_t_HEALTH` (R456). -/
def Reg.bistTrunkHealth (t : Nat) : Nat := 0x140010 + t * 0x10
def Reg.BistTrunkHealth.boughFailed (t : Nat) : Field := ⟨Reg.bistTrunkHealth t, 24, 8⟩
def Reg.BistTrunkHealth.sparesUp (t : Nat) : Field := ⟨Reg.bistTrunkHealth t, 22, 2⟩
def Reg.BistTrunkHealth.sparesDown (t : Nat) : Field := ⟨Reg.bistTrunkHealth t, 20, 2⟩
def Reg.BistTrunkHealth.laneErr60s (t : Nat) : Field := ⟨Reg.bistTrunkHealth t, 19, 1⟩
/-- `BIST_TRUNK_t_LANE_ERR` (R456). -/
def Reg.bistTrunkLaneErr (t : Nat) : Nat := 0x140014 + t * 0x10
/-- `BIST_TRUNK_t_VEC_FAIL` (R456). -/
def Reg.bistTrunkVecFail (t : Nat) : Nat := 0x140018 + t * 0x10
/-- `CAL_TB_PHASE` (R456). -/
def Reg.calTbPhase : Nat := 0x150000
/-- `CAL_TB_QUAL` (R456). -/
def Reg.calTbQual : Nat := 0x150004
def Reg.CalTbQual.valid : Field := ⟨Reg.calTbQual, 31, 1⟩
def Reg.CalTbQual.stale : Field := ⟨Reg.calTbQual, 30, 1⟩
def Reg.CalTbQual.wrLost : Field := ⟨Reg.calTbQual, 29, 1⟩
def Reg.CalTbQual.egressRes : Field := ⟨Reg.calTbQual, 16, 13⟩
/-- `CAL_TEMP` (R456). -/
def Reg.calTemp : Nat := 0x150008
/-- `CAL_PORT_n_EGRESS` (R456). -/
def Reg.calPortEgress (n : Nat) : Nat := 0x150100 + n * 0x10
/-- `CAL_PORT_n_INGRESS` (R456). -/
def Reg.calPortIngress (n : Nat) : Nat := 0x150104 + n * 0x10
/-- `CAL_PORT_n_QUAL` (R456). -/
def Reg.calPortQual (n : Nat) : Nat := 0x150108 + n * 0x10
def Reg.CalPortQual.valid (n : Nat) : Field := ⟨Reg.calPortQual n, 31, 1⟩
def Reg.CalPortQual.stale (n : Nat) : Field := ⟨Reg.calPortQual n, 30, 1⟩
def Reg.CalPortQual.wrLost (n : Nat) : Field := ⟨Reg.calPortQual n, 29, 1⟩
def Reg.CalPortQual.egressRes (n : Nat) : Field := ⟨Reg.calPortQual n, 16, 13⟩
def Reg.CalPortQual.ingressRes (n : Nat) : Field := ⟨Reg.calPortQual n, 0, 13⟩
/-- `CAL_SAP_n` (R456). -/
def Reg.calSap (n : Nat) : Nat := 0x150800 + n * 0x4
def Reg.CalSap.valid (n : Nat) : Field := ⟨Reg.calSap n, 31, 1⟩
def Reg.CalSap.stale (n : Nat) : Field := ⟨Reg.calSap n, 30, 1⟩
def Reg.CalSap.wrLost (n : Nat) : Field := ⟨Reg.calSap n, 29, 1⟩
def Reg.CalSap.eye (n : Nat) : Field := ⟨Reg.calSap n, 8, 8⟩
def Reg.CalSap.phase (n : Nat) : Field := ⟨Reg.calSap n, 0, 8⟩
/-- `REC_CTRL` (R442). -/
def Reg.recCtrl : Nat := 0x160000
def Reg.RecCtrl.freeze : Field := ⟨Reg.recCtrl, 31, 1⟩
def Reg.RecCtrl.thaw : Field := ⟨Reg.recCtrl, 0, 4⟩
/-- `REC_STATUS` (R442). -/
def Reg.recStatus : Nat := 0x160004
def Reg.RecStatus.openF : Field := ⟨Reg.recStatus, 31, 1⟩
def Reg.RecStatus.openSlot : Field := ⟨Reg.recStatus, 29, 2⟩
def Reg.RecStatus.frozen : Field := ⟨Reg.recStatus, 25, 4⟩
def Reg.RecStatus.safetyValid : Field := ⟨Reg.recStatus, 24, 1⟩
def Reg.RecStatus.safetyRepaired : Field := ⟨Reg.recStatus, 3, 1⟩
def Reg.RecStatus.lost : Field := ⟨Reg.recStatus, 2, 1⟩
def Reg.RecStatus.missed : Field := ⟨Reg.recStatus, 1, 1⟩
def Reg.RecStatus.freezeDone : Field := ⟨Reg.recStatus, 0, 1⟩
/-- `REC_HEAD` (R442). -/
def Reg.recHead : Nat := 0x160008
/-- `REC_LOST_CNT` (R442). -/
def Reg.recLostCnt : Nat := 0x16000C
/-- `REC_MISSED_CNT` (R442). -/
def Reg.recMissedCnt : Nat := 0x160010
/-- `REC_SLOT_k_TRIG` (R442). -/
def Reg.recSlotTrig (k : Nat) : Nat := 0x160020 + k * 0x8
/-- `REC_SLOT_k_END` (R442). -/
def Reg.recSlotEnd (k : Nat) : Nat := 0x160024 + k * 0x8
/-- `REC_SET_GEN_LO` (R442). -/
def Reg.recSetGenLo : Nat := 0x160040
/-- `REC_SET_GEN_HI` (R442). -/
def Reg.recSetGenHi : Nat := 0x160044
/-- `REC_SET_STATUS` (R442). -/
def Reg.recSetStatus : Nat := 0x160048
def Reg.RecSetStatus.liveSlot : Field := ⟨Reg.recSetStatus, 31, 1⟩
def Reg.RecSetStatus.shadow : Field := ⟨Reg.recSetStatus, 30, 1⟩
def Reg.RecSetStatus.defaults : Field := ⟨Reg.recSetStatus, 29, 1⟩
def Reg.RecSetStatus.unreadable : Field := ⟨Reg.recSetStatus, 0, 1⟩
/-- `PSU_STATUS` (R479). -/
def Reg.psuStatus : Nat := 0x170000
def Reg.PsuStatus.pfcOk : Field := ⟨Reg.psuStatus, 31, 1⟩
def Reg.PsuStatus.auxOn : Field := ⟨Reg.psuStatus, 30, 1⟩
def Reg.PsuStatus.holdUp : Field := ⟨Reg.psuStatus, 29, 1⟩
def Reg.PsuStatus.thermalWarn : Field := ⟨Reg.psuStatus, 28, 1⟩
def Reg.PsuStatus.throttled : Field := ⟨Reg.psuStatus, 27, 1⟩
def Reg.PsuStatus.trunksOff : Field := ⟨Reg.psuStatus, 26, 1⟩
def Reg.PsuStatus.pwrFail : Field := ⟨Reg.psuStatus, 5, 1⟩
def Reg.PsuStatus.brownout : Field := ⟨Reg.psuStatus, 4, 1⟩
def Reg.PsuStatus.dip : Field := ⟨Reg.psuStatus, 3, 1⟩
def Reg.PsuStatus.auxFault : Field := ⟨Reg.psuStatus, 2, 1⟩
def Reg.PsuStatus.thermalOff : Field := ⟨Reg.psuStatus, 1, 1⟩
def Reg.PsuStatus.overVoltage : Field := ⟨Reg.psuStatus, 0, 1⟩
/-- `PSU_VIN` (R479). -/
def Reg.psuVin : Nat := 0x170004
def Reg.PsuVin.vin : Field := ⟨Reg.psuVin, 0, 16⟩
/-- `PSU_PIN` (R479). -/
def Reg.psuPin : Nat := 0x170008
def Reg.PsuPin.pin : Field := ⟨Reg.psuPin, 0, 16⟩
/-- `PSU_AUX` (R479). -/
def Reg.psuAux : Nat := 0x17000C
def Reg.PsuAux.mv : Field := ⟨Reg.psuAux, 16, 16⟩
def Reg.PsuAux.ma : Field := ⟨Reg.psuAux, 0, 16⟩
/-- `PSU_TEMP_BASE` (R479). -/
def Reg.psuTempBase : Nat := 0x170010
def Reg.PsuTempBase.temp : Field := ⟨Reg.psuTempBase, 0, 16⟩
/-- `PSU_TEMP_A` (R479). -/
def Reg.psuTempA : Nat := 0x170014
def Reg.PsuTempA.temp : Field := ⟨Reg.psuTempA, 0, 16⟩
/-- `PSU_TEMP_B` (R479). -/
def Reg.psuTempB : Nat := 0x170018
def Reg.PsuTempB.temp : Field := ⟨Reg.psuTempB, 0, 16⟩
/-- `PSU_TEMP_ROOT` (R479). -/
def Reg.psuTempRoot : Nat := 0x17001C
def Reg.PsuTempRoot.temp : Field := ⟨Reg.psuTempRoot, 0, 16⟩
/-- `PSU_TEMP_MAX` (R479). -/
def Reg.psuTempMax : Nat := 0x170020
def Reg.PsuTempMax.temp : Field := ⟨Reg.psuTempMax, 0, 16⟩
/-- `PSU_DIP_CNT` (R479). -/
def Reg.psuDipCnt : Nat := 0x170024
/-- `PSU_AUX_TRIP_CNT` (R479). -/
def Reg.psuAuxTripCnt : Nat := 0x170028
/-- `TWIG_RES_ERR_CNT` (R114). -/
def Reg.twigResErrCnt (tr : Trunk) : Nat := trunkBase tr + 0x30000
/-- `TWIG_LAST_ERR` (R114). -/
def Reg.twigLastErr (tr : Trunk) : Nat := trunkBase tr + 0x30004
def Reg.TwigLastErr.valid (tr : Trunk) : Field := ⟨Reg.twigLastErr tr, 31, 1⟩
def Reg.TwigLastErr.op (tr : Trunk) : Field := ⟨Reg.twigLastErr tr, 27, 4⟩
def Reg.TwigLastErr.bough (tr : Trunk) : Field := ⟨Reg.twigLastErr tr, 21, 3⟩
def Reg.TwigLastErr.branch (tr : Trunk) : Field := ⟨Reg.twigLastErr tr, 18, 3⟩
def Reg.TwigLastErr.twig (tr : Trunk) : Field := ⟨Reg.twigLastErr tr, 14, 4⟩
def Reg.TwigLastErr.lane (tr : Trunk) : Field := ⟨Reg.twigLastErr tr, 12, 2⟩
/-- `TWIG_CLIP_CNT` (R114). -/
def Reg.twigClipCnt (tr : Trunk) : Nat := trunkBase tr + 0x30008
/-- `TWIG_OFF_CNT` (R114). -/
def Reg.twigOffCnt (tr : Trunk) : Nat := trunkBase tr + 0x3000C
/-- `TWIG_NAN_CNT` (R114). -/
def Reg.twigNanCnt (tr : Trunk) : Nat := trunkBase tr + 0x30010
/-- `TRK_MASTER_INT` (R137). -/
def Reg.trkMasterInt (tr : Trunk) : Nat := trunkBase tr + 0x40000
def Reg.TrkMasterInt.level (tr : Trunk) : Field := ⟨Reg.trkMasterInt tr, 0, 16⟩
/-- `TRK_GAMUT_CNT` (R137). -/
def Reg.trkGamutCnt (tr : Trunk) : Nat := trunkBase tr + 0x40010
/-- `TRK_SOLVE_NEG_CNT` (R137). -/
def Reg.trkSolveNegCnt (tr : Trunk) : Nat := trunkBase tr + 0x40014
/-- `TRK_SOLVE_FAIL_CNT` (R137). -/
def Reg.trkSolveFailCnt (tr : Trunk) : Nat := trunkBase tr + 0x40018
/-- `TRK_DERATE_CNT` (R137). -/
def Reg.trkDerateCnt (tr : Trunk) : Nat := trunkBase tr + 0x4001C
/-- `TRK_TEMP_STALE_CNT` (R137). -/
def Reg.trkTempStaleCnt (tr : Trunk) : Nat := trunkBase tr + 0x40020
/-- `TRK_CAM_g_STATUS` (R137). -/
def Reg.trkCamStatus (tr : Trunk) (g : Nat) : Nat := trunkBase tr + 0x40100 + g * 0x10
def Reg.TrkCamStatus.valid (tr : Trunk) (g : Nat) : Field := ⟨Reg.trkCamStatus tr g, 31, 1⟩
def Reg.TrkCamStatus.partial (tr : Trunk) (g : Nat) : Field := ⟨Reg.trkCamStatus tr g, 30, 1⟩
def Reg.TrkCamStatus.viewOverlap (tr : Trunk) (g : Nat) : Field := ⟨Reg.trkCamStatus tr g, 29, 1⟩
def Reg.TrkCamStatus.viewsM1 (tr : Trunk) (g : Nat) : Field := ⟨Reg.trkCamStatus tr g, 16, 2⟩
def Reg.TrkCamStatus.periods (tr : Trunk) (g : Nat) : Field := ⟨Reg.trkCamStatus tr g, 0, 16⟩
/-- `TRK_CAM_g_PERIOD_LO` (R137). -/
def Reg.trkCamPeriodLo (tr : Trunk) (g : Nat) : Nat := trunkBase tr + 0x40104 + g * 0x10
/-- `TRK_CAM_g_PERIOD_HI` (R137). -/
def Reg.trkCamPeriodHi (tr : Trunk) (g : Nat) : Nat := trunkBase tr + 0x40108 + g * 0x10
def Reg.TrkCamPeriodHi.value (tr : Trunk) (g : Nat) : Field := ⟨Reg.trkCamPeriodHi tr g, 0, 16⟩
/-- `TRK_PINT_n` (R137). -/
def Reg.trkPint (tr : Trunk) (n : Nat) : Nat := trunkBase tr + 0x100000 + n * 0x4
def Reg.TrkPint.levelOdd (tr : Trunk) (n : Nat) : Field := ⟨Reg.trkPint tr n, 16, 16⟩
def Reg.TrkPint.levelEven (tr : Trunk) (n : Nat) : Field := ⟨Reg.trkPint tr n, 0, 16⟩
/-- `CROWN_COMMIT` (R167). -/
def Reg.crownCommit (tr : Trunk) : Nat := trunkBase tr + 0x50000
def Reg.CrownCommit.canvasMask (tr : Trunk) : Field := ⟨Reg.crownCommit tr, 0, 8⟩
/-- `CROWN_COMMIT_STATUS` (R167). -/
def Reg.crownCommitStatus (tr : Trunk) : Nat := trunkBase tr + 0x50004
def Reg.CrownCommitStatus.code (tr : Trunk) : Field := ⟨Reg.crownCommitStatus tr, 16, 16⟩
def Reg.CrownCommitStatus.pendingMask (tr : Trunk) : Field := ⟨Reg.crownCommitStatus tr, 8, 8⟩
def Reg.CrownCommitStatus.lost (tr : Trunk) : Field := ⟨Reg.crownCommitStatus tr, 3, 1⟩
def Reg.CrownCommitStatus.refused (tr : Trunk) : Field := ⟨Reg.crownCommitStatus tr, 2, 1⟩
def Reg.CrownCommitStatus.fitActive (tr : Trunk) : Field := ⟨Reg.crownCommitStatus tr, 1, 1⟩
def Reg.CrownCommitStatus.busy (tr : Trunk) : Field := ⟨Reg.crownCommitStatus tr, 0, 1⟩
/-- `CROWN_POOL_STATUS` (R167). -/
def Reg.crownPoolStatus (tr : Trunk) : Nat := trunkBase tr + 0x50008
def Reg.CrownPoolStatus.cap (tr : Trunk) : Field := ⟨Reg.crownPoolStatus tr, 28, 4⟩
def Reg.CrownPoolStatus.used (tr : Trunk) : Field := ⟨Reg.crownPoolStatus tr, 0, 22⟩
/-- `CROWN_HW_ERR_CNT` (R167). -/
def Reg.crownHwErrCnt (tr : Trunk) : Nat := trunkBase tr + 0x5000C
/-- `CROWN_CANVAS_c_STATUS` (R167). -/
def Reg.crownCanvasStatus (tr : Trunk) (c : Nat) : Nat := trunkBase tr + 0x50800 + c * 0x20
def Reg.CrownCanvasStatus.safety (tr : Trunk) (c : Nat) : Field := ⟨Reg.crownCanvasStatus tr c, 31, 1⟩
def Reg.CrownCanvasStatus.hwPresent (tr : Trunk) (c : Nat) : Field := ⟨Reg.crownCanvasStatus tr c, 30, 1⟩
def Reg.CrownCanvasStatus.buffers (tr : Trunk) (c : Nat) : Field := ⟨Reg.crownCanvasStatus tr c, 24, 4⟩
def Reg.CrownCanvasStatus.lateLayers (tr : Trunk) (c : Nat) : Field := ⟨Reg.crownCanvasStatus tr c, 16, 8⟩
/-- `CROWN_CANVAS_c_FRAME_CNT` (R167). -/
def Reg.crownCanvasFrameCnt (tr : Trunk) (c : Nat) : Nat := trunkBase tr + 0x50804 + c * 0x20
/-- `CROWN_CANVAS_c_SKIP_CNT` (R167). -/
def Reg.crownCanvasSkipCnt (tr : Trunk) (c : Nat) : Nat := trunkBase tr + 0x50808 + c * 0x20
/-- `CROWN_CANVAS_c_HW_GEN_LO` (R167). -/
def Reg.crownCanvasHwGenLo (tr : Trunk) (c : Nat) : Nat := trunkBase tr + 0x5080C + c * 0x20
/-- `CROWN_CANVAS_c_HW_GEN_HI` (R167). -/
def Reg.crownCanvasHwGenHi (tr : Trunk) (c : Nat) : Nat := trunkBase tr + 0x50810 + c * 0x20
/-- `CROWN_LAYER_n_CTRL` (R167). -/
def Reg.crownLayerCtrl (tr : Trunk) (n : Nat) : Nat := trunkBase tr + 0x51000 + n * 0x40
def Reg.CrownLayerCtrl.enable (tr : Trunk) (n : Nat) : Field := ⟨Reg.crownLayerCtrl tr n, 31, 1⟩
def Reg.CrownLayerCtrl.awaitReady (tr : Trunk) (n : Nat) : Field := ⟨Reg.crownLayerCtrl tr n, 30, 1⟩
def Reg.CrownLayerCtrl.vTaps (tr : Trunk) (n : Nat) : Field := ⟨Reg.crownLayerCtrl tr n, 24, 4⟩
def Reg.CrownLayerCtrl.hTaps (tr : Trunk) (n : Nat) : Field := ⟨Reg.crownLayerCtrl tr n, 20, 4⟩
def Reg.CrownLayerCtrl.opacity (tr : Trunk) (n : Nat) : Field := ⟨Reg.crownLayerCtrl tr n, 0, 16⟩
/-- `CROWN_LAYER_n_DEST_POS` (R167). -/
def Reg.crownLayerDestPos (tr : Trunk) (n : Nat) : Nat := trunkBase tr + 0x51004 + n * 0x40
def Reg.CrownLayerDestPos.y (tr : Trunk) (n : Nat) : Field := ⟨Reg.crownLayerDestPos tr n, 16, 14⟩
def Reg.CrownLayerDestPos.x (tr : Trunk) (n : Nat) : Field := ⟨Reg.crownLayerDestPos tr n, 0, 14⟩
/-- `CROWN_LAYER_n_DEST_SIZE` (R167). -/
def Reg.crownLayerDestSize (tr : Trunk) (n : Nat) : Nat := trunkBase tr + 0x51008 + n * 0x40
def Reg.CrownLayerDestSize.height (tr : Trunk) (n : Nat) : Field := ⟨Reg.crownLayerDestSize tr n, 16, 15⟩
def Reg.CrownLayerDestSize.width (tr : Trunk) (n : Nat) : Field := ⟨Reg.crownLayerDestSize tr n, 0, 15⟩
/-- `CROWN_LAYER_n_SRC_SIZE` (R167). -/
def Reg.crownLayerSrcSize (tr : Trunk) (n : Nat) : Nat := trunkBase tr + 0x5100C + n * 0x40
def Reg.CrownLayerSrcSize.height (tr : Trunk) (n : Nat) : Field := ⟨Reg.crownLayerSrcSize tr n, 16, 15⟩
def Reg.CrownLayerSrcSize.width (tr : Trunk) (n : Nat) : Field := ⟨Reg.crownLayerSrcSize tr n, 0, 15⟩
/-- `CROWN_LAYER_n_SURF_BASE_LO` (R167). -/
def Reg.crownLayerSurfBaseLo (tr : Trunk) (n : Nat) : Nat := trunkBase tr + 0x51010 + n * 0x40
/-- `CROWN_LAYER_n_SURF_BASE_HI` (R167). -/
def Reg.crownLayerSurfBaseHi (tr : Trunk) (n : Nat) : Nat := trunkBase tr + 0x51014 + n * 0x40
def Reg.CrownLayerSurfBaseHi.value (tr : Trunk) (n : Nat) : Field := ⟨Reg.crownLayerSurfBaseHi tr n, 0, 3⟩
/-- `CROWN_LAYER_n_SURF_PITCH` (R167). -/
def Reg.crownLayerSurfPitch (tr : Trunk) (n : Nat) : Nat := trunkBase tr + 0x51018 + n * 0x40
/-- `CROWN_LAYER_n_SURF_PLANE1` (R167). -/
def Reg.crownLayerSurfPlane1 (tr : Trunk) (n : Nat) : Nat := trunkBase tr + 0x5101C + n * 0x40
/-- `CROWN_LAYER_n_SURF_PLANE2` (R167). -/
def Reg.crownLayerSurfPlane2 (tr : Trunk) (n : Nat) : Nat := trunkBase tr + 0x51020 + n * 0x40
/-- `CROWN_LAYER_n_SURF_FORMAT` (R167). -/
def Reg.crownLayerSurfFormat (tr : Trunk) (n : Nat) : Nat := trunkBase tr + 0x51024 + n * 0x40
def Reg.CrownLayerSurfFormat.code (tr : Trunk) (n : Nat) : Field := ⟨Reg.crownLayerSurfFormat tr n, 0, 8⟩
/-- `CROWN_LAYER_n_READY` (R167). -/
def Reg.crownLayerReady (tr : Trunk) (n : Nat) : Nat := trunkBase tr + 0x51028 + n * 0x40
def Reg.CrownLayerReady.ready (tr : Trunk) (n : Nat) : Field := ⟨Reg.crownLayerReady tr n, 0, 1⟩
/-- `CROWN_LAYER_n_STATUS` (R167). -/
def Reg.crownLayerStatus (tr : Trunk) (n : Nat) : Nat := trunkBase tr + 0x5102C + n * 0x40
def Reg.CrownLayerStatus.late (tr : Trunk) (n : Nat) : Field := ⟨Reg.crownLayerStatus tr n, 31, 1⟩
def Reg.CrownLayerStatus.absent (tr : Trunk) (n : Nat) : Field := ⟨Reg.crownLayerStatus tr n, 30, 1⟩
def Reg.CrownLayerStatus.fmtMismatch (tr : Trunk) (n : Nat) : Field := ⟨Reg.crownLayerStatus tr n, 29, 1⟩
def Reg.CrownLayerStatus.prevInUse (tr : Trunk) (n : Nat) : Field := ⟨Reg.crownLayerStatus tr n, 28, 1⟩
def Reg.CrownLayerStatus.vTapsEff (tr : Trunk) (n : Nat) : Field := ⟨Reg.crownLayerStatus tr n, 24, 4⟩
def Reg.CrownLayerStatus.lateCount (tr : Trunk) (n : Nat) : Field := ⟨Reg.crownLayerStatus tr n, 16, 8⟩
/-- `CROWN_LAYER_n_ERR_CNT` (R167). -/
def Reg.crownLayerErrCnt (tr : Trunk) (n : Nat) : Nat := trunkBase tr + 0x51030 + n * 0x40
/-- `CROWN_COEF` (R167). -/
def Reg.crownCoef (tr : Trunk) (t : Nat) (f : Nat) (k : Nat) : Nat := trunkBase tr + 0x58000 + t * 0x400 + f * 0x10 + k * 0x4
/-- `RAST_n_COMMIT` (R203). -/
def Reg.rastCommit (tr : Trunk) (n : Nat) : Nat := trunkBase tr + 0x60000 + n * 0x100
def Reg.RastCommit.commit (tr : Trunk) (n : Nat) : Field := ⟨Reg.rastCommit tr n, 0, 1⟩
/-- `RAST_n_STATUS` (R203). -/
def Reg.rastStatus (tr : Trunk) (n : Nat) : Nat := trunkBase tr + 0x60004 + n * 0x100
def Reg.RastStatus.code (tr : Trunk) (n : Nat) : Field := ⟨Reg.rastStatus tr n, 16, 16⟩
def Reg.RastStatus.locked (tr : Trunk) (n : Nat) : Field := ⟨Reg.rastStatus tr n, 15, 1⟩
def Reg.RastStatus.counterMode (tr : Trunk) (n : Nat) : Field := ⟨Reg.rastStatus tr n, 14, 1⟩
def Reg.RastStatus.pending (tr : Trunk) (n : Nat) : Field := ⟨Reg.rastStatus tr n, 13, 1⟩
def Reg.RastStatus.fbPrevInUse (tr : Trunk) (n : Nat) : Field := ⟨Reg.rastStatus tr n, 12, 1⟩
def Reg.RastStatus.modeBlack (tr : Trunk) (n : Nat) : Field := ⟨Reg.rastStatus tr n, 11, 1⟩
def Reg.RastStatus.freeze (tr : Trunk) (n : Nat) : Field := ⟨Reg.rastStatus tr n, 10, 1⟩
def Reg.RastStatus.freezeSeen (tr : Trunk) (n : Nat) : Field := ⟨Reg.rastStatus tr n, 9, 1⟩
def Reg.RastStatus.underrun (tr : Trunk) (n : Nat) : Field := ⟨Reg.rastStatus tr n, 8, 1⟩
def Reg.RastStatus.refused (tr : Trunk) (n : Nat) : Field := ⟨Reg.rastStatus tr n, 7, 1⟩
def Reg.RastStatus.lost (tr : Trunk) (n : Nat) : Field := ⟨Reg.rastStatus tr n, 6, 1⟩
def Reg.RastStatus.safety (tr : Trunk) (n : Nat) : Field := ⟨Reg.rastStatus tr n, 5, 1⟩
def Reg.RastStatus.busy (tr : Trunk) (n : Nat) : Field := ⟨Reg.rastStatus tr n, 0, 1⟩
/-- `RAST_n_CTRL` (R203). -/
def Reg.rastCtrl (tr : Trunk) (n : Nat) : Nat := trunkBase tr + 0x60008 + n * 0x100
def Reg.RastCtrl.enable (tr : Trunk) (n : Nat) : Field := ⟨Reg.rastCtrl tr n, 31, 1⟩
def Reg.RastCtrl.scanBuffer (tr : Trunk) (n : Nat) : Field := ⟨Reg.rastCtrl tr n, 30, 1⟩
def Reg.RastCtrl.blank (tr : Trunk) (n : Nat) : Field := ⟨Reg.rastCtrl tr n, 29, 1⟩
def Reg.RastCtrl.pixelFormat (tr : Trunk) (n : Nat) : Field := ⟨Reg.rastCtrl tr n, 24, 4⟩
def Reg.RastCtrl.cadence (tr : Trunk) (n : Nat) : Field := ⟨Reg.rastCtrl tr n, 16, 8⟩
def Reg.RastCtrl.transfer (tr : Trunk) (n : Nat) : Field := ⟨Reg.rastCtrl tr n, 8, 2⟩
def Reg.RastCtrl.range (tr : Trunk) (n : Nat) : Field := ⟨Reg.rastCtrl tr n, 0, 1⟩
/-- `RAST_n_TIMING_H` (R203). -/
def Reg.rastTimingH (tr : Trunk) (n : Nat) : Nat := trunkBase tr + 0x6000C + n * 0x100
def Reg.RastTimingH.hTotal (tr : Trunk) (n : Nat) : Field := ⟨Reg.rastTimingH tr n, 16, 16⟩
def Reg.RastTimingH.hActive (tr : Trunk) (n : Nat) : Field := ⟨Reg.rastTimingH tr n, 0, 16⟩
/-- `RAST_n_TIMING_V` (R203). -/
def Reg.rastTimingV (tr : Trunk) (n : Nat) : Nat := trunkBase tr + 0x60010 + n * 0x100
def Reg.RastTimingV.vTotal (tr : Trunk) (n : Nat) : Field := ⟨Reg.rastTimingV tr n, 16, 16⟩
def Reg.RastTimingV.vActive (tr : Trunk) (n : Nat) : Field := ⟨Reg.rastTimingV tr n, 0, 16⟩
/-- `RAST_n_TIMING_VS` (R203). -/
def Reg.rastTimingVs (tr : Trunk) (n : Nat) : Nat := trunkBase tr + 0x60014 + n * 0x100
def Reg.RastTimingVs.vStart (tr : Trunk) (n : Nat) : Field := ⟨Reg.rastTimingVs tr n, 0, 16⟩
/-- `RAST_n_REGION` (R203). -/
def Reg.rastRegion (tr : Trunk) (n : Nat) : Nat := trunkBase tr + 0x60018 + n * 0x100
def Reg.RastRegion.y (tr : Trunk) (n : Nat) : Field := ⟨Reg.rastRegion tr n, 16, 14⟩
def Reg.RastRegion.x (tr : Trunk) (n : Nat) : Field := ⟨Reg.rastRegion tr n, 0, 14⟩
/-- `RAST_n_FB_BASE_LO` (R203). -/
def Reg.rastFbBaseLo (tr : Trunk) (n : Nat) : Nat := trunkBase tr + 0x6001C + n * 0x100
/-- `RAST_n_FB_BASE_HI` (R203). -/
def Reg.rastFbBaseHi (tr : Trunk) (n : Nat) : Nat := trunkBase tr + 0x60020 + n * 0x100
def Reg.RastFbBaseHi.value (tr : Trunk) (n : Nat) : Field := ⟨Reg.rastFbBaseHi tr n, 0, 3⟩
/-- `RAST_n_FB_PITCH` (R203). -/
def Reg.rastFbPitch (tr : Trunk) (n : Nat) : Nat := trunkBase tr + 0x60024 + n * 0x100
/-- `RAST_n_FB_FORMAT` (R203). -/
def Reg.rastFbFormat (tr : Trunk) (n : Nat) : Nat := trunkBase tr + 0x60028 + n * 0x100
def Reg.RastFbFormat.code (tr : Trunk) (n : Nat) : Field := ⟨Reg.rastFbFormat tr n, 0, 8⟩
/-- `RAST_n_LINE_MATCH` (R203). -/
def Reg.rastLineMatch (tr : Trunk) (n : Nat) : Nat := trunkBase tr + 0x6002C + n * 0x100
def Reg.RastLineMatch.line (tr : Trunk) (n : Nat) : Field := ⟨Reg.rastLineMatch tr n, 0, 16⟩
/-- `RAST_n_EVENTS` (R203). -/
def Reg.rastEvents (tr : Trunk) (n : Nat) : Nat := trunkBase tr + 0x60030 + n * 0x100
def Reg.RastEvents.underrun (tr : Trunk) (n : Nat) : Field := ⟨Reg.rastEvents tr n, 3, 1⟩
def Reg.RastEvents.frameDone (tr : Trunk) (n : Nat) : Field := ⟨Reg.rastEvents tr n, 2, 1⟩
def Reg.RastEvents.lineMatch (tr : Trunk) (n : Nat) : Field := ⟨Reg.rastEvents tr n, 1, 1⟩
def Reg.RastEvents.sob (tr : Trunk) (n : Nat) : Field := ⟨Reg.rastEvents tr n, 0, 1⟩
/-- `RAST_n_FRAME_CNT` (R203). -/
def Reg.rastFrameCnt (tr : Trunk) (n : Nat) : Nat := trunkBase tr + 0x60034 + n * 0x100
/-- `RAST_n_FLIP_CNT` (R203). -/
def Reg.rastFlipCnt (tr : Trunk) (n : Nat) : Nat := trunkBase tr + 0x60038 + n * 0x100
/-- `RAST_n_FLIP_TS_LO` (R203). -/
def Reg.rastFlipTsLo (tr : Trunk) (n : Nat) : Nat := trunkBase tr + 0x6003C + n * 0x100
/-- `RAST_n_FLIP_TS_MID` (R203). -/
def Reg.rastFlipTsMid (tr : Trunk) (n : Nat) : Nat := trunkBase tr + 0x60040 + n * 0x100
/-- `RAST_n_FLIP_TS_HI` (R203). -/
def Reg.rastFlipTsHi (tr : Trunk) (n : Nat) : Nat := trunkBase tr + 0x60044 + n * 0x100
/-- `RAST_n_UNDERRUN_CNT` (R203). -/
def Reg.rastUnderrunCnt (tr : Trunk) (n : Nat) : Nat := trunkBase tr + 0x60048 + n * 0x100
/-- `RAST_n_FREEZE_CNT` (R203). -/
def Reg.rastFreezeCnt (tr : Trunk) (n : Nat) : Nat := trunkBase tr + 0x6004C + n * 0x100
/-- `RAST_n_SRC_SIG` (R203). -/
def Reg.rastSrcSig (tr : Trunk) (n : Nat) : Nat := trunkBase tr + 0x60050 + n * 0x100
/-- `RAST_n_PAD_SIG` (R203). -/
def Reg.rastPadSig (tr : Trunk) (n : Nat) : Nat := trunkBase tr + 0x60054 + n * 0x100
/-- `ICU_MASK_SET_w` (R344). -/
def Reg.icuMaskSet (tr : Trunk) (w : Nat) : Nat := trunkBase tr + 0x80000 + w * 0x4
/-- `ICU_MASK_CLR_w` (R344). -/
def Reg.icuMaskClr (tr : Trunk) (w : Nat) : Nat := trunkBase tr + 0x80080 + w * 0x4
/-- `ICU_PEND_SET_w` (R344). -/
def Reg.icuPendSet (tr : Trunk) (w : Nat) : Nat := trunkBase tr + 0x80100 + w * 0x4
/-- `ICU_PEND_CLR_w` (R344). -/
def Reg.icuPendClr (tr : Trunk) (w : Nat) : Nat := trunkBase tr + 0x80180 + w * 0x4
/-- `ICU_LEVEL_w` (R344). -/
def Reg.icuLevel (tr : Trunk) (w : Nat) : Nat := trunkBase tr + 0x80200 + w * 0x4
/-- `ICU_MOD_g` (R344). -/
def Reg.icuMod (tr : Trunk) (g : Nat) : Nat := trunkBase tr + 0x80300 + g * 0x4
def Reg.IcuMod.interval (tr : Trunk) (g : Nat) : Field := ⟨Reg.icuMod tr g, 0, 16⟩
/-- `ICU_CLAIM_c` (R344). -/
def Reg.icuClaim (tr : Trunk) (c : Nat) : Nat := trunkBase tr + 0x80400 + c * 0x20
def Reg.IcuClaim.valid (tr : Trunk) (c : Nat) : Field := ⟨Reg.icuClaim tr c, 31, 1⟩
def Reg.IcuClaim.levelNow (tr : Trunk) (c : Nat) : Field := ⟨Reg.icuClaim tr c, 30, 1⟩
def Reg.IcuClaim.maskedNow (tr : Trunk) (c : Nat) : Field := ⟨Reg.icuClaim tr c, 29, 1⟩
def Reg.IcuClaim.multi (tr : Trunk) (c : Nat) : Field := ⟨Reg.icuClaim tr c, 28, 1⟩
def Reg.IcuClaim.epoch (tr : Trunk) (c : Nat) : Field := ⟨Reg.icuClaim tr c, 27, 1⟩
def Reg.IcuClaim.source (tr : Trunk) (c : Nat) : Field := ⟨Reg.icuClaim tr c, 0, 10⟩
/-- `ICU_COMPLETE_c` (R344). -/
def Reg.icuComplete (tr : Trunk) (c : Nat) : Nat := trunkBase tr + 0x80404 + c * 0x20
def Reg.IcuComplete.source (tr : Trunk) (c : Nat) : Field := ⟨Reg.icuComplete tr c, 0, 10⟩
/-- `ICU_CORE_c_STATUS` (R344). -/
def Reg.icuCoreStatus (tr : Trunk) (c : Nat) : Nat := trunkBase tr + 0x80408 + c * 0x20
def Reg.IcuCoreStatus.wfi (tr : Trunk) (c : Nat) : Field := ⟨Reg.icuCoreStatus tr c, 31, 1⟩
def Reg.IcuCoreStatus.epochMode (tr : Trunk) (c : Nat) : Field := ⟨Reg.icuCoreStatus tr c, 30, 1⟩
def Reg.IcuCoreStatus.badComplete (tr : Trunk) (c : Nat) : Field := ⟨Reg.icuCoreStatus tr c, 29, 1⟩
def Reg.IcuCoreStatus.modHeld (tr : Trunk) (c : Nat) : Field := ⟨Reg.icuCoreStatus tr c, 28, 1⟩
def Reg.IcuCoreStatus.inService (tr : Trunk) (c : Nat) : Field := ⟨Reg.icuCoreStatus tr c, 0, 11⟩
/-- `ICU_ROUTE_s` (R344). -/
def Reg.icuRoute (tr : Trunk) (s : Nat) : Nat := trunkBase tr + 0x80800 + s * 0x4
def Reg.IcuRoute.guestOk (tr : Trunk) (s : Nat) : Field := ⟨Reg.icuRoute tr s, 31, 1⟩
def Reg.IcuRoute.group (tr : Trunk) (s : Nat) : Field := ⟨Reg.icuRoute tr s, 4, 4⟩
def Reg.IcuRoute.target (tr : Trunk) (s : Nat) : Field := ⟨Reg.icuRoute tr s, 0, 3⟩
/-- `TRK_GUEST_c_CTRL` (R345). -/
def Reg.trkGuestCtrl (tr : Trunk) (c : Nat) : Nat := trunkBase tr + 0x90000 + c * 0x40
def Reg.TrkGuestCtrl.halt (tr : Trunk) (c : Nat) : Field := ⟨Reg.trkGuestCtrl tr c, 31, 1⟩
def Reg.TrkGuestCtrl.resume (tr : Trunk) (c : Nat) : Field := ⟨Reg.trkGuestCtrl tr c, 30, 1⟩
def Reg.TrkGuestCtrl.restart (tr : Trunk) (c : Nat) : Field := ⟨Reg.trkGuestCtrl tr c, 29, 1⟩
def Reg.TrkGuestCtrl.doorbell (tr : Trunk) (c : Nat) : Field := ⟨Reg.trkGuestCtrl tr c, 28, 1⟩
/-- `TRK_GUEST_c_STATUS` (R345). -/
def Reg.trkGuestStatus (tr : Trunk) (c : Nat) : Nat := trunkBase tr + 0x90004 + c * 0x40
def Reg.TrkGuestStatus.state (tr : Trunk) (c : Nat) : Field := ⟨Reg.trkGuestStatus tr c, 29, 3⟩
def Reg.TrkGuestStatus.overrunSeen (tr : Trunk) (c : Nat) : Field := ⟨Reg.trkGuestStatus tr c, 15, 1⟩
def Reg.TrkGuestStatus.accessFault (tr : Trunk) (c : Nat) : Field := ⟨Reg.trkGuestStatus tr c, 14, 1⟩
def Reg.TrkGuestStatus.sendErr (tr : Trunk) (c : Nat) : Field := ⟨Reg.trkGuestStatus tr c, 13, 1⟩
def Reg.TrkGuestStatus.sendLost (tr : Trunk) (c : Nat) : Field := ⟨Reg.trkGuestStatus tr c, 12, 1⟩
/-- `TRK_GUEST_c_EPOCH` (R345). -/
def Reg.trkGuestEpoch (tr : Trunk) (c : Nat) : Nat := trunkBase tr + 0x90008 + c * 0x40
/-- `TRK_GUEST_c_SEND_ADDR` (R345). -/
def Reg.trkGuestSendAddr (tr : Trunk) (c : Nat) : Nat := trunkBase tr + 0x9000C + c * 0x40
def Reg.TrkGuestSendAddr.addr (tr : Trunk) (c : Nat) : Field := ⟨Reg.trkGuestSendAddr tr c, 3, 25⟩
/-- `TRK_GUEST_c_SEND_CTRL` (R345). -/
def Reg.trkGuestSendCtrl (tr : Trunk) (c : Nat) : Nat := trunkBase tr + 0x90010 + c * 0x40
def Reg.TrkGuestSendCtrl.go (tr : Trunk) (c : Nat) : Field := ⟨Reg.trkGuestSendCtrl tr c, 31, 1⟩
def Reg.TrkGuestSendCtrl.length (tr : Trunk) (c : Nat) : Field := ⟨Reg.trkGuestSendCtrl tr c, 16, 14⟩
def Reg.TrkGuestSendCtrl.port (tr : Trunk) (c : Nat) : Field := ⟨Reg.trkGuestSendCtrl tr c, 0, 6⟩
/-- `TRK_CORE_c_APER_k` (R345). -/
def Reg.trkCoreAper (tr : Trunk) (c : Nat) (k : Nat) : Nat := trunkBase tr + 0x90100 + c * 0x10 + k * 0x4
def Reg.TrkCoreAper.enable (tr : Trunk) (c : Nat) (k : Nat) : Field := ⟨Reg.trkCoreAper tr c k, 31, 1⟩
def Reg.TrkCoreAper.writeEn (tr : Trunk) (c : Nat) (k : Nat) : Field := ⟨Reg.trkCoreAper tr c k, 30, 1⟩
def Reg.TrkCoreAper.base (tr : Trunk) (c : Nat) (k : Nat) : Field := ⟨Reg.trkCoreAper tr c k, 0, 16⟩
/-- `SCHED_STATUS` (R361). -/
def Reg.schedStatus (tr : Trunk) : Nat := trunkBase tr + 0xA0000
def Reg.SchedStatus.backpressure (tr : Trunk) : Field := ⟨Reg.schedStatus tr, 31, 1⟩
def Reg.SchedStatus.aged (tr : Trunk) : Field := ⟨Reg.schedStatus tr, 30, 1⟩
def Reg.SchedStatus.inService (tr : Trunk) : Field := ⟨Reg.schedStatus tr, 11, 9⟩
def Reg.SchedStatus.readyDepth (tr : Trunk) : Field := ⟨Reg.schedStatus tr, 0, 11⟩
/-- `SCHED_SLOTS` (R361). -/
def Reg.schedSlots (tr : Trunk) : Nat := trunkBase tr + 0xA0004
def Reg.SchedSlots.flowsBusy (tr : Trunk) : Field := ⟨Reg.schedSlots tr, 16, 11⟩
def Reg.SchedSlots.slotsUsed (tr : Trunk) : Field := ⟨Reg.schedSlots tr, 0, 13⟩
/-- `SCHED_READY_MAX` (R361). -/
def Reg.schedReadyMax (tr : Trunk) : Nat := trunkBase tr + 0xA0008
def Reg.SchedReadyMax.depth (tr : Trunk) : Field := ⟨Reg.schedReadyMax tr, 0, 11⟩
/-- `SCHED_BP_CNT` (R361). -/
def Reg.schedBpCnt (tr : Trunk) : Nat := trunkBase tr + 0xA000C
/-- `SCHED_BP_CYCLES` (R361). -/
def Reg.schedBpCycles (tr : Trunk) : Nat := trunkBase tr + 0xA0010
/-- `SCHED_DISPATCH_CNT` (R361). -/
def Reg.schedDispatchCnt (tr : Trunk) : Nat := trunkBase tr + 0xA0014
/-- `SCHED_AGED_CNT` (R361). -/
def Reg.schedAgedCnt (tr : Trunk) : Nat := trunkBase tr + 0xA0018
/-- `SCHED_WAIT_HIST_k` (R361). -/
def Reg.schedWaitHist (tr : Trunk) (k : Nat) : Nat := trunkBase tr + 0xA0100 + k * 0x4
/-- `SCHED_BRANCH_LOAD_b` (R361). -/
def Reg.schedBranchLoad (tr : Trunk) (b : Nat) : Nat := trunkBase tr + 0xA0200 + b * 0x4
def Reg.SchedBranchLoad.load (tr : Trunk) (b : Nat) : Field := ⟨Reg.schedBranchLoad tr b, 0, 11⟩
/-- `SCHED_CORE_LOAD_c` (R361). -/
def Reg.schedCoreLoad (tr : Trunk) (c : Nat) : Nat := trunkBase tr + 0xA0300 + c * 0x4
def Reg.SchedCoreLoad.load (tr : Trunk) (c : Nat) : Field := ⟨Reg.schedCoreLoad tr c, 0, 11⟩
/-- `QB_T_q_CFG` (R362). -/
def Reg.qbTCfg (tr : Trunk) (q : Nat) : Nat := trunkBase tr + 0xB0000 + q * 0x40
def Reg.QbTCfg.staleUs (tr : Trunk) (q : Nat) : Field := ⟨Reg.qbTCfg tr q, 16, 16⟩
def Reg.QbTCfg.ctThreshold (tr : Trunk) (q : Nat) : Field := ⟨Reg.qbTCfg tr q, 0, 14⟩
/-- `QB_T_q_GEOM` (R362). -/
def Reg.qbTGeom (tr : Trunk) (q : Nat) : Nat := trunkBase tr + 0xB0004 + q * 0x40
def Reg.QbTGeom.wide (tr : Trunk) (q : Nat) : Field := ⟨Reg.qbTGeom tr q, 31, 1⟩
def Reg.QbTGeom.ptrBits (tr : Trunk) (q : Nat) : Field := ⟨Reg.qbTGeom tr q, 24, 5⟩
def Reg.QbTGeom.depth (tr : Trunk) (q : Nat) : Field := ⟨Reg.qbTGeom tr q, 0, 24⟩
/-- `QB_T_q_FILL` (R362). -/
def Reg.qbTFill (tr : Trunk) (q : Nat) : Nat := trunkBase tr + 0xB0008 + q * 0x40
def Reg.QbTFill.fill (tr : Trunk) (q : Nat) : Field := ⟨Reg.qbTFill tr q, 0, 24⟩
/-- `QB_T_q_FILL_MAX` (R362). -/
def Reg.qbTFillMax (tr : Trunk) (q : Nat) : Nat := trunkBase tr + 0xB000C + q * 0x40
def Reg.QbTFillMax.fill (tr : Trunk) (q : Nat) : Field := ⟨Reg.qbTFillMax tr q, 0, 24⟩
/-- `QB_T_q_PTR_W` (R362). -/
def Reg.qbTPtrW (tr : Trunk) (q : Nat) : Nat := trunkBase tr + 0xB0010 + q * 0x40
def Reg.QbTPtrW.ptr (tr : Trunk) (q : Nat) : Field := ⟨Reg.qbTPtrW tr q, 0, 25⟩
/-- `QB_T_q_PTR_R` (R362). -/
def Reg.qbTPtrR (tr : Trunk) (q : Nat) : Nat := trunkBase tr + 0xB0014 + q * 0x40
def Reg.QbTPtrR.ptr (tr : Trunk) (q : Nat) : Field := ⟨Reg.qbTPtrR tr q, 0, 25⟩
/-- `QB_T_q_STATUS` (R362). -/
def Reg.qbTStatus (tr : Trunk) (q : Nat) : Nat := trunkBase tr + 0xB0018 + q * 0x40
def Reg.QbTStatus.full (tr : Trunk) (q : Nat) : Field := ⟨Reg.qbTStatus tr q, 31, 1⟩
def Reg.QbTStatus.empty (tr : Trunk) (q : Nat) : Field := ⟨Reg.qbTStatus tr q, 30, 1⟩
def Reg.QbTStatus.stale (tr : Trunk) (q : Nat) : Field := ⟨Reg.qbTStatus tr q, 29, 1⟩
def Reg.QbTStatus.staleSeen (tr : Trunk) (q : Nat) : Field := ⟨Reg.qbTStatus tr q, 2, 1⟩
def Reg.QbTStatus.stalled (tr : Trunk) (q : Nat) : Field := ⟨Reg.qbTStatus tr q, 1, 1⟩
def Reg.QbTStatus.emptyRead (tr : Trunk) (q : Nat) : Field := ⟨Reg.qbTStatus tr q, 0, 1⟩
/-- `QB_T_q_EMPTY_RD_CNT` (R362). -/
def Reg.qbTEmptyRdCnt (tr : Trunk) (q : Nat) : Nat := trunkBase tr + 0xB001C + q * 0x40
/-- `QB_T_q_STALL_CNT` (R362). -/
def Reg.qbTStallCnt (tr : Trunk) (q : Nat) : Nat := trunkBase tr + 0xB0020 + q * 0x40
/-- `QB_T_q_STALE_CNT` (R362). -/
def Reg.qbTStaleCnt (tr : Trunk) (q : Nat) : Nat := trunkBase tr + 0xB0024 + q * 0x40
/-- `CHK_T_n_CFG` (R412). -/
def Reg.chkTCfg (tr : Trunk) (n : Nat) : Nat := trunkBase tr + 0xC0000 + n * 0x80
def Reg.ChkTCfg.mode (tr : Trunk) (n : Nat) : Field := ⟨Reg.chkTCfg tr n, 30, 2⟩
def Reg.ChkTCfg.fixedSel (tr : Trunk) (n : Nat) : Field := ⟨Reg.chkTCfg tr n, 28, 2⟩
def Reg.ChkTCfg.width (tr : Trunk) (n : Nat) : Field := ⟨Reg.chkTCfg tr n, 21, 7⟩
def Reg.ChkTCfg.refin (tr : Trunk) (n : Nat) : Field := ⟨Reg.chkTCfg tr n, 20, 1⟩
def Reg.ChkTCfg.refout (tr : Trunk) (n : Nat) : Field := ⟨Reg.chkTCfg tr n, 19, 1⟩
def Reg.ChkTCfg.foldBytes (tr : Trunk) (n : Nat) : Field := ⟨Reg.chkTCfg tr n, 15, 4⟩
def Reg.ChkTCfg.foldBe (tr : Trunk) (n : Nat) : Field := ⟨Reg.chkTCfg tr n, 14, 1⟩
def Reg.ChkTCfg.dir (tr : Trunk) (n : Nat) : Field := ⟨Reg.chkTCfg tr n, 12, 2⟩
def Reg.ChkTCfg.checkBe (tr : Trunk) (n : Nat) : Field := ⟨Reg.chkTCfg tr n, 11, 1⟩
def Reg.ChkTCfg.dataBytes (tr : Trunk) (n : Nat) : Field := ⟨Reg.chkTCfg tr n, 0, 3⟩
/-- `CHK_T_n_CTRL` (R412). -/
def Reg.chkTCtrl (tr : Trunk) (n : Nat) : Nat := trunkBase tr + 0xC0004 + n * 0x80
def Reg.ChkTCtrl.start (tr : Trunk) (n : Nat) : Field := ⟨Reg.chkTCtrl tr n, 31, 1⟩
def Reg.ChkTCtrl.finish (tr : Trunk) (n : Nat) : Field := ⟨Reg.chkTCtrl tr n, 30, 1⟩
/-- `CHK_T_n_DATA` (R412). -/
def Reg.chkTData (tr : Trunk) (n : Nat) : Nat := trunkBase tr + 0xC0008 + n * 0x80
/-- `CHK_T_n_STATUS` (R412). -/
def Reg.chkTStatus (tr : Trunk) (n : Nat) : Nat := trunkBase tr + 0xC000C + n * 0x80
def Reg.ChkTStatus.hostOwned (tr : Trunk) (n : Nat) : Field := ⟨Reg.chkTStatus tr n, 31, 1⟩
def Reg.ChkTStatus.busy (tr : Trunk) (n : Nat) : Field := ⟨Reg.chkTStatus tr n, 30, 1⟩
def Reg.ChkTStatus.matchF (tr : Trunk) (n : Nat) : Field := ⟨Reg.chkTStatus tr n, 29, 1⟩
def Reg.ChkTStatus.done (tr : Trunk) (n : Nat) : Field := ⟨Reg.chkTStatus tr n, 28, 1⟩
def Reg.ChkTStatus.mismatch (tr : Trunk) (n : Nat) : Field := ⟨Reg.chkTStatus tr n, 27, 1⟩
def Reg.ChkTStatus.lost (tr : Trunk) (n : Nat) : Field := ⟨Reg.chkTStatus tr n, 26, 1⟩
def Reg.ChkTStatus.cfgErr (tr : Trunk) (n : Nat) : Field := ⟨Reg.chkTStatus tr n, 25, 1⟩
/-- `CHK_T_n_POLY_LO` (R412). -/
def Reg.chkTPolyLo (tr : Trunk) (n : Nat) : Nat := trunkBase tr + 0xC0010 + n * 0x80
/-- `CHK_T_n_POLY_HI` (R412). -/
def Reg.chkTPolyHi (tr : Trunk) (n : Nat) : Nat := trunkBase tr + 0xC0014 + n * 0x80
/-- `CHK_T_n_INIT_LO` (R412). -/
def Reg.chkTInitLo (tr : Trunk) (n : Nat) : Nat := trunkBase tr + 0xC0018 + n * 0x80
/-- `CHK_T_n_INIT_HI` (R412). -/
def Reg.chkTInitHi (tr : Trunk) (n : Nat) : Nat := trunkBase tr + 0xC001C + n * 0x80
/-- `CHK_T_n_XOROUT_LO` (R412). -/
def Reg.chkTXoroutLo (tr : Trunk) (n : Nat) : Nat := trunkBase tr + 0xC0020 + n * 0x80
/-- `CHK_T_n_XOROUT_HI` (R412). -/
def Reg.chkTXoroutHi (tr : Trunk) (n : Nat) : Nat := trunkBase tr + 0xC0024 + n * 0x80
/-- `CHK_T_n_FOLD_LO` (R412). -/
def Reg.chkTFoldLo (tr : Trunk) (n : Nat) : Nat := trunkBase tr + 0xC0028 + n * 0x80
/-- `CHK_T_n_FOLD_HI` (R412). -/
def Reg.chkTFoldHi (tr : Trunk) (n : Nat) : Nat := trunkBase tr + 0xC002C + n * 0x80
/-- `CHK_T_n_STATE_LO` (R412). -/
def Reg.chkTStateLo (tr : Trunk) (n : Nat) : Nat := trunkBase tr + 0xC0030 + n * 0x80
/-- `CHK_T_n_STATE_HI` (R412). -/
def Reg.chkTStateHi (tr : Trunk) (n : Nat) : Nat := trunkBase tr + 0xC0034 + n * 0x80
/-- `CHK_T_n_RESULT_LO` (R412). -/
def Reg.chkTResultLo (tr : Trunk) (n : Nat) : Nat := trunkBase tr + 0xC0038 + n * 0x80
/-- `CHK_T_n_RESULT_HI` (R412). -/
def Reg.chkTResultHi (tr : Trunk) (n : Nat) : Nat := trunkBase tr + 0xC003C + n * 0x80
/-- `CHK_T_n_UNIT_CNT` (R412). -/
def Reg.chkTUnitCnt (tr : Trunk) (n : Nat) : Nat := trunkBase tr + 0xC0040 + n * 0x80
/-- `CHK_T_n_FAIL_CNT` (R412). -/
def Reg.chkTFailCnt (tr : Trunk) (n : Nat) : Nat := trunkBase tr + 0xC0044 + n * 0x80
/-- `CHK_T_ECC_CORR_CNT` (R413). -/
def Reg.chkTEccCorrCnt (tr : Trunk) : Nat := trunkBase tr + 0xC1000
/-- `CHK_T_ECC_UNCORR_CNT` (R413). -/
def Reg.chkTEccUncorrCnt (tr : Trunk) : Nat := trunkBase tr + 0xC1004
/-- `CHK_T_ECC_LAST_INFO` (R413). -/
def Reg.chkTEccLastInfo (tr : Trunk) : Nat := trunkBase tr + 0xC1008
def Reg.ChkTEccLastInfo.valid (tr : Trunk) : Field := ⟨Reg.chkTEccLastInfo tr, 31, 1⟩
def Reg.ChkTEccLastInfo.uncorr (tr : Trunk) : Field := ⟨Reg.chkTEccLastInfo tr, 30, 1⟩
def Reg.ChkTEccLastInfo.scrub (tr : Trunk) : Field := ⟨Reg.chkTEccLastInfo tr, 29, 1⟩
def Reg.ChkTEccLastInfo.memory (tr : Trunk) : Field := ⟨Reg.chkTEccLastInfo tr, 25, 4⟩
def Reg.ChkTEccLastInfo.instanceF (tr : Trunk) : Field := ⟨Reg.chkTEccLastInfo tr, 15, 10⟩
def Reg.ChkTEccLastInfo.bit (tr : Trunk) : Field := ⟨Reg.chkTEccLastInfo tr, 0, 7⟩
/-- `CHK_T_ECC_LAST_LO` (R413). -/
def Reg.chkTEccLastLo (tr : Trunk) : Nat := trunkBase tr + 0xC100C
/-- `CHK_T_ECC_LAST_HI` (R413). -/
def Reg.chkTEccLastHi (tr : Trunk) : Nat := trunkBase tr + 0xC1010
/-- `CHK_T_SCRUB_CTRL` (R413). -/
def Reg.chkTScrubCtrl (tr : Trunk) : Nat := trunkBase tr + 0xC1014
def Reg.ChkTScrubCtrl.enable (tr : Trunk) : Field := ⟨Reg.chkTScrubCtrl tr, 31, 1⟩
def Reg.ChkTScrubCtrl.periodS (tr : Trunk) : Field := ⟨Reg.chkTScrubCtrl tr, 0, 17⟩
/-- `CHK_T_SCRUB_PASS_CNT` (R413). -/
def Reg.chkTScrubPassCnt (tr : Trunk) : Nat := trunkBase tr + 0xC1018

end Sys2Proof.Machine
end

