-- ==== Sys2Proof/Machine/RegTable.lean ====
section
/-! DEFINITION. The access codes, reset values and reserved encodings of every register field (R3, R5, R6), from the
field maps of the spec, as tables the register operations look fields up in. -/

namespace Sys2Proof.Machine

/-- The access codes of R3. -/
inductive Acc where
  | rw
  | ro
  | rc
  | w1s
  | w1c
  | wo
  | rws
  deriving DecidableEq, Repr

/-- One row of a field map: bits, access, reset value, and the reserved encodings as inclusive ranges (R6). -/
structure Fld where
  hi : Nat
  lo : Nat
  acc : Acc
  rst : Nat
  bad : List (Nat × Nat)
  deriving DecidableEq, Repr

/-- One kind of register: its offset in its space, its index ranges as (count, stride), outermost first, and its
fields. -/
structure RegRow where
  off : Nat
  dims : List (Nat × Nat)
  flds : List Fld
  deriving DecidableEq, Repr

/-- Field maps of `TREE_READY`, `TREE_MODE`, `TREE_SEED_RESULT`, `TREE_SEED_SECT`, `TREE_SEED_REC`, `TREE_SEED_ID_w`, `TREE_SAFE_STATUS`, `TREE_SAFE_CTRL`, `TREE_SAFE_EVT_CNT`. -/
def rootRows00 : List RegRow := [
  ⟨0x100, [], [⟨31, 31, .ro, 0, []⟩, ⟨30, 30, .ro, 0, []⟩, ⟨29, 29, .ro, 0, []⟩, ⟨28, 28, .ro, 0, []⟩, ⟨27, 27, .ro, 0, []⟩, ⟨26, 26, .ro, 0, []⟩, ⟨25, 25, .ro, 0, []⟩, ⟨24, 24, .ro, 0, []⟩, ⟨23, 23, .ro, 0, []⟩, ⟨22, 22, .ro, 0, []⟩, ⟨21, 21, .ro, 0, []⟩, ⟨20, 20, .ro, 0, []⟩]⟩,
  ⟨0x108, [], [⟨28, 28, .ro, 0, []⟩, ⟨27, 27, .ro, 0, []⟩, ⟨26, 24, .ro, 0, []⟩, ⟨23, 21, .ro, 0, []⟩, ⟨20, 20, .ro, 0, []⟩, ⟨19, 19, .ro, 0, []⟩, ⟨18, 18, .ro, 0, []⟩, ⟨17, 16, .ro, 1, []⟩, ⟨15, 15, .ro, 0, []⟩, ⟨14, 13, .ro, 0, []⟩, ⟨12, 12, .ro, 0, []⟩, ⟨11, 11, .ro, 0, []⟩, ⟨10, 10, .ro, 0, []⟩, ⟨9, 8, .ro, 0, []⟩, ⟨7, 7, .ro, 0, []⟩, ⟨6, 6, .ro, 0, []⟩, ⟨5, 5, .ro, 0, []⟩, ⟨4, 4, .ro, 0, []⟩]⟩,
  ⟨0x120, [], [⟨31, 16, .ro, 0, []⟩, ⟨1, 1, .ro, 0, []⟩, ⟨0, 0, .w1c, 0, []⟩]⟩,
  ⟨0x124, [], [⟨15, 0, .ro, 0, []⟩]⟩,
  ⟨0x128, [], [⟨31, 0, .ro, 0, []⟩]⟩,
  ⟨0x130, [(4, 0x4)], [⟨31, 0, .ro, 0, []⟩]⟩,
  ⟨0x140, [], [⟨31, 31, .ro, 0, []⟩, ⟨30, 30, .ro, 0, []⟩, ⟨29, 29, .ro, 0, []⟩, ⟨28, 28, .ro, 0, []⟩, ⟨23, 22, .ro, 0, []⟩, ⟨21, 20, .ro, 0, []⟩, ⟨2, 2, .w1c, 0, []⟩, ⟨1, 1, .w1c, 0, []⟩, ⟨0, 0, .w1c, 0, []⟩]⟩,
  ⟨0x144, [], [⟨1, 1, .rws, 0, []⟩, ⟨0, 0, .wo, 0, []⟩]⟩,
  ⟨0x148, [], [⟨31, 0, .rc, 0, []⟩]⟩]
/-- Field maps of `AXIS_SNAP_CMD`, `AXIS_EPOCH_CNT_LO`, `AXIS_EPOCH_CNT_HI`, `AXIS_n_CTRL`, `AXIS_n_STATUS`, `AXIS_n_POS_LO`, `AXIS_n_POS_MID`, `AXIS_n_POS_HI`, `AXIS_n_SNAP_LO`, `AXIS_n_SNAP_MID`, `AXIS_n_SNAP_HI`, `AXIS_n_RATE`, `AXIS_n_STEP_CNT`, `AXIS_n_SKIP_CNT`, `AXIS_EVT_m_POS_LO`, `AXIS_EVT_m_POS_MID`, `AXIS_EVT_m_POS_HI`, `AXIS_EVT_m_LIMIT`, `AXIS_EVT_m_ADDR`, `AXIS_EVT_m_DATA`, `AXIS_EVT_m_CTRL`, `AXIS_EVT_m_STATUS`. -/
def rootRows04 : List RegRow := [
  ⟨0x40000, [], [⟨0, 0, .wo, 0, []⟩]⟩,
  ⟨0x40008, [], [⟨31, 0, .ro, 0, []⟩]⟩,
  ⟨0x4000C, [], [⟨31, 0, .ro, 0, []⟩]⟩,
  ⟨0x40100, [(18, 0x40)], [⟨15, 8, .ro, 0, []⟩, ⟨5, 5, .rw, 0, []⟩, ⟨4, 4, .wo, 0, []⟩, ⟨0, 0, .wo, 0, []⟩]⟩,
  ⟨0x40104, [(18, 0x40)], [⟨7, 7, .w1c, 0, []⟩, ⟨6, 6, .w1c, 0, []⟩, ⟨5, 5, .w1c, 0, []⟩, ⟨4, 4, .w1c, 0, []⟩, ⟨3, 3, .ro, 0, []⟩, ⟨2, 2, .w1c, 0, []⟩, ⟨1, 0, .ro, 0, []⟩]⟩,
  ⟨0x40108, [(18, 0x40)], [⟨31, 0, .ro, 0, []⟩]⟩,
  ⟨0x4010C, [(18, 0x40)], [⟨31, 0, .ro, 0, []⟩]⟩,
  ⟨0x40110, [(18, 0x40)], [⟨31, 0, .ro, 0, []⟩]⟩,
  ⟨0x40114, [(18, 0x40)], [⟨31, 0, .ro, 0, []⟩]⟩,
  ⟨0x40118, [(18, 0x40)], [⟨31, 0, .ro, 0, []⟩]⟩,
  ⟨0x4011C, [(18, 0x40)], [⟨31, 0, .ro, 0, []⟩]⟩,
  ⟨0x40120, [(18, 0x40)], [⟨31, 0, .ro, 0, []⟩]⟩,
  ⟨0x40124, [(18, 0x40)], [⟨31, 0, .rc, 0, []⟩]⟩,
  ⟨0x40128, [(18, 0x40)], [⟨31, 0, .rc, 0, []⟩]⟩,
  ⟨0x41000, [(256, 0x20)], [⟨31, 0, .rw, 0, []⟩]⟩,
  ⟨0x41004, [(256, 0x20)], [⟨31, 0, .rw, 0, []⟩]⟩,
  ⟨0x41008, [(256, 0x20)], [⟨31, 0, .rw, 0, []⟩]⟩,
  ⟨0x4100C, [(256, 0x20)], [⟨31, 0, .rw, 0xFFFFFFFF, [(0, 0)]⟩]⟩,
  ⟨0x41010, [(256, 0x20)], [⟨25, 2, .rw, 0, []⟩]⟩,
  ⟨0x41014, [(256, 0x20)], [⟨31, 0, .rw, 0, []⟩]⟩,
  ⟨0x41018, [(256, 0x20)], [⟨11, 11, .wo, 0, []⟩, ⟨10, 10, .wo, 0, []⟩, ⟨9, 9, .rw, 0, []⟩, ⟨7, 7, .rw, 0, []⟩, ⟨6, 6, .rw, 0, []⟩, ⟨5, 5, .rw, 0, []⟩, ⟨4, 0, .rw, 0, [(18, 31)]⟩]⟩,
  ⟨0x4101C, [(256, 0x20)], [⟨3, 3, .w1c, 0, []⟩, ⟨2, 0, .ro, 0, []⟩]⟩]
/-- Field maps of `STEM_CTRL`, `STEM_STATUS`, `STEM_CMD_CNT`, `STEM_ERR_CNT`, `STEM_UDP_DROP`, `STEM_BAR_WR_DROP`, `STEM_WIN_k`, `STEM_RING_r_CMD_LO`, `STEM_RING_r_CMD_HI`, `STEM_RING_r_REPLY_LO`, `STEM_RING_r_REPLY_HI`, `STEM_RING_r_CFG`, `STEM_RING_r_HEAD`, `STEM_RING_r_STATUS`, `STEM_ATTN_c`. -/
def rootRows05 : List RegRow := [
  ⟨0x50000, [], [⟨31, 31, .rws, 0, []⟩, ⟨15, 0, .rws, 0xC8DA, []⟩]⟩,
  ⟨0x50004, [], [⟨31, 29, .ro, 0, []⟩, ⟨0, 0, .w1c, 0, []⟩]⟩,
  ⟨0x50008, [], [⟨31, 0, .rc, 0, []⟩]⟩,
  ⟨0x5000C, [], [⟨31, 0, .rc, 0, []⟩]⟩,
  ⟨0x50010, [], [⟨31, 0, .rc, 0, []⟩]⟩,
  ⟨0x50014, [], [⟨31, 0, .rc, 0, []⟩]⟩,
  ⟨0x50040, [(4, 0x4)], [⟨31, 31, .rw, 0, []⟩, ⟨17, 0, .rw, 0, []⟩]⟩,
  ⟨0x50100, [(16, 0x20)], [⟨31, 12, .rw, 0, []⟩]⟩,
  ⟨0x50104, [(16, 0x20)], [⟨31, 0, .rw, 0, []⟩]⟩,
  ⟨0x50108, [(16, 0x20)], [⟨31, 12, .rw, 0, []⟩]⟩,
  ⟨0x5010C, [(16, 0x20)], [⟨31, 0, .rw, 0, []⟩]⟩,
  ⟨0x50110, [(16, 0x20)], [⟨31, 31, .rw, 0, []⟩, ⟨12, 0, .rw, 0, []⟩]⟩,
  ⟨0x50114, [(16, 0x20)], [⟨15, 0, .ro, 0, []⟩]⟩,
  ⟨0x50118, [(16, 0x20)], [⟨31, 31, .ro, 0, []⟩, ⟨22, 16, .ro, 0, []⟩, ⟨2, 2, .w1c, 0, []⟩, ⟨1, 1, .w1c, 0, []⟩, ⟨0, 0, .w1c, 0, []⟩]⟩,
  ⟨0x50400, [(20, 0x4)], [⟨31, 16, .w1c, 0, []⟩]⟩]
/-- Field maps of `TIME_CTRL`, `TIME_STATUS`, `TIME_TC_CTRL`, `TIME_TC_CORR_CNT`, `TIME_TC_UNMATCHED`, `TIME_GM_SEC_LO`, `TIME_GM_SEC_HI`, `TIME_GM_CMD`, `TIME_GM_UTC`, `TIME_REF_CTRL`, `TIME_AES_s_OFFSET`, `TIME_PTP_i_CFG`, `TIME_PTP_i_INTV`, `TIME_PTP_i_PRIO`, `TIME_PTP_i_SERVO`, `TIME_PTP_i_THRESH`, `TIME_PTP_i_STATUS`, `TIME_PTP_i_OFFSET`, `TIME_PTP_i_PATH`, `TIME_PTP_i_RATE`, `TIME_PTP_i_GMID_LO`, `TIME_PTP_i_GMID_HI`, `TIME_PTP_i_STEP_CNT`, `TIME_PTP_i_SYNC_RX`. -/
def rootRows06p0 : List RegRow := [
  ⟨0x60000, [], [⟨31, 29, .rws, 7, [(5, 6)]⟩, ⟨28, 28, .rws, 0, []⟩, ⟨27, 27, .rws, 0, []⟩, ⟨26, 26, .rws, 0, []⟩]⟩,
  ⟨0x60004, [], [⟨31, 31, .ro, 0, []⟩, ⟨30, 30, .ro, 0, []⟩, ⟨29, 29, .ro, 0, []⟩, ⟨2, 2, .w1c, 0, []⟩, ⟨1, 1, .w1c, 0, []⟩, ⟨0, 0, .w1c, 0, []⟩]⟩,
  ⟨0x60008, [], [⟨31, 30, .rws, 0, [(3, 3)]⟩, ⟨23, 16, .rws, 0, [(6, 252)]⟩]⟩,
  ⟨0x6000C, [], [⟨31, 0, .rc, 0, []⟩]⟩,
  ⟨0x60010, [], [⟨31, 0, .rc, 0, []⟩]⟩,
  ⟨0x60020, [], [⟨31, 0, .rw, 0, []⟩]⟩,
  ⟨0x60024, [], [⟨15, 0, .rw, 0, []⟩]⟩,
  ⟨0x60028, [], [⟨5, 5, .wo, 0, []⟩, ⟨4, 4, .wo, 0, []⟩, ⟨1, 0, .wo, 0, []⟩]⟩,
  ⟨0x6002C, [], [⟨18, 18, .rws, 0, []⟩, ⟨17, 17, .rws, 0, []⟩, ⟨16, 16, .rws, 0, []⟩, ⟨15, 0, .rws, 0x25, []⟩]⟩,
  ⟨0x60040, [], [⟨31, 31, .rws, 0, []⟩, ⟨30, 30, .rws, 0, []⟩, ⟨29, 29, .rws, 1, []⟩, ⟨15, 0, .rws, 0, []⟩]⟩,
  ⟨0x60080, [(2, 0x4)], [⟨31, 0, .ro, 0, []⟩]⟩,
  ⟨0x60100, [(4, 0x100)], [⟨31, 31, .rws, 0, []⟩, ⟨30, 29, .rws, 1, [(3, 3)]⟩, ⟨28, 28, .rws, 1, []⟩, ⟨27, 27, .rws, 0, []⟩, ⟨26, 26, .rws, 1, []⟩, ⟨25, 24, .rws, 0, [(2, 3)]⟩, ⟨22, 16, .rws, 0x7F, []⟩, ⟨15, 15, .rws, 0, []⟩, ⟨5, 0, .rws, 0, [(50, 63)]⟩]⟩,
  ⟨0x60104, [(4, 0x100)], [⟨31, 24, .rws, 0x7F, []⟩, ⟨23, 16, .rws, 0x7F, []⟩, ⟨15, 8, .rws, 0x7F, []⟩]⟩,
  ⟨0x60108, [(4, 0x100)], [⟨31, 24, .rws, 0x80, []⟩, ⟨23, 16, .rws, 0x80, []⟩, ⟨15, 8, .rws, 0x90, []⟩, ⟨7, 7, .rws, 0, []⟩]⟩,
  ⟨0x6010C, [(4, 0x100)], [⟨31, 16, .rws, 0x8000, []⟩, ⟨15, 0, .rws, 0x800, []⟩]⟩,
  ⟨0x60110, [(4, 0x100)], [⟨31, 16, .rws, 0x32, []⟩, ⟨15, 0, .rws, 0x1F4, [(0, 0)]⟩]⟩,
  ⟨0x60114, [(4, 0x100)], [⟨31, 28, .ro, 3, []⟩, ⟨27, 20, .ro, 0xFF, []⟩, ⟨17, 17, .ro, 0, []⟩, ⟨16, 16, .ro, 0, []⟩, ⟨15, 4, .ro, 0, []⟩, ⟨3, 3, .w1c, 0, []⟩, ⟨2, 2, .w1c, 0, []⟩, ⟨1, 1, .w1c, 0, []⟩, ⟨0, 0, .w1c, 0, []⟩]⟩,
  ⟨0x60118, [(4, 0x100)], [⟨31, 0, .ro, 0, []⟩]⟩,
  ⟨0x6011C, [(4, 0x100)], [⟨31, 0, .ro, 0, []⟩]⟩,
  ⟨0x60120, [(4, 0x100)], [⟨31, 0, .ro, 0, []⟩]⟩,
  ⟨0x60124, [(4, 0x100)], [⟨31, 0, .ro, 0, []⟩]⟩,
  ⟨0x60128, [(4, 0x100)], [⟨31, 0, .ro, 0, []⟩]⟩,
  ⟨0x6012C, [(4, 0x100)], [⟨31, 0, .rc, 0, []⟩]⟩,
  ⟨0x60130, [(4, 0x100)], [⟨31, 0, .rc, 0, []⟩]⟩]
/-- Field maps of `TIME_PTP_i_ANN_TIMEOUT`, `TIME_PTP_i_MSG_ERR`, `TIME_PTP_i_MASTER_CHG`. -/
def rootRows06p1 : List RegRow := [
  ⟨0x60134, [(4, 0x100)], [⟨31, 0, .rc, 0, []⟩]⟩,
  ⟨0x60138, [(4, 0x100)], [⟨31, 0, .rc, 0, []⟩]⟩,
  ⟨0x6013C, [(4, 0x100)], [⟨31, 0, .rc, 0, []⟩]⟩]
def rootRows06 : List RegRow := rootRows06p0 ++ rootRows06p1
/-- Field maps of `CMP_CTRL`, `CMP_STATUS`, `CMP_AGREE_LO`, `CMP_AGREE_HI`, `CMP_MISMATCH_CNT`, `CMP_ARB_3OF4_CNT`, `CMP_SELFCONS_CNT`, `CMP_DIVERGE_CNT`, `CMP_UNRESOLVED_CNT`, `CMP_MISSING_CNT`, `CMP_FAILOVER_CNT`, `CMP_FAILBACK_CNT`, `CMP_HOLD_MAX`, `CMP_LAST_PORT`, `CMP_LAST_SEQ_LO`, `CMP_LAST_SEQ_HI`, `CMP_LAST_CAUSE`, `CMP_RESYNC`, `CMP_HOLDOFF`, `CMP_RING_MOVE_CNT`, `CMP_RING_LOOP_CNT`, `CMP_GROVE_STATUS`, `CMP_HB_MISS_CNT`, `CMP_GROVE_RX_ERR`. -/
def rootRows07p0 : List RegRow := [
  ⟨0x70000, [], [⟨31, 31, .wo, 0, []⟩, ⟨30, 30, .wo, 0, []⟩, ⟨29, 29, .wo, 0, []⟩, ⟨28, 28, .wo, 0, []⟩, ⟨7, 0, .rw, 0x32, [(0, 9), (101, 255)]⟩]⟩,
  ⟨0x70004, [], [⟨31, 29, .ro, 0, []⟩, ⟨28, 26, .ro, 0, []⟩, ⟨25, 25, .ro, 0, []⟩, ⟨24, 24, .ro, 0, []⟩, ⟨23, 23, .ro, 0, []⟩, ⟨22, 22, .ro, 0, []⟩, ⟨21, 21, .ro, 0, []⟩, ⟨20, 19, .ro, 0, []⟩, ⟨7, 7, .w1c, 0, []⟩, ⟨6, 6, .w1c, 0, []⟩, ⟨5, 5, .w1c, 0, []⟩, ⟨4, 4, .w1c, 0, []⟩, ⟨3, 3, .w1c, 0, []⟩, ⟨2, 2, .w1c, 0, []⟩, ⟨1, 1, .w1c, 0, []⟩, ⟨0, 0, .w1c, 0, []⟩]⟩,
  ⟨0x70008, [], [⟨31, 0, .rc, 0, []⟩]⟩,
  ⟨0x7000C, [], [⟨31, 0, .rc, 0, []⟩]⟩,
  ⟨0x70010, [], [⟨31, 0, .rc, 0, []⟩]⟩,
  ⟨0x70014, [], [⟨31, 0, .rc, 0, []⟩]⟩,
  ⟨0x70018, [], [⟨31, 0, .rc, 0, []⟩]⟩,
  ⟨0x7001C, [], [⟨31, 0, .rc, 0, []⟩]⟩,
  ⟨0x70020, [], [⟨31, 0, .rc, 0, []⟩]⟩,
  ⟨0x70024, [], [⟨31, 0, .rc, 0, []⟩]⟩,
  ⟨0x70028, [], [⟨31, 0, .rc, 0, []⟩]⟩,
  ⟨0x7002C, [], [⟨31, 0, .rc, 0, []⟩]⟩,
  ⟨0x70030, [], [⟨31, 0, .rc, 0, []⟩]⟩,
  ⟨0x70034, [], [⟨15, 0, .ro, 0, []⟩]⟩,
  ⟨0x70038, [], [⟨31, 0, .ro, 0, []⟩]⟩,
  ⟨0x7003C, [], [⟨15, 0, .ro, 0, []⟩]⟩,
  ⟨0x70040, [], [⟨8, 8, .ro, 0, []⟩, ⟨3, 0, .ro, 0, []⟩]⟩,
  ⟨0x70044, [], [⟨31, 30, .ro, 0, []⟩, ⟨29, 29, .ro, 0, []⟩, ⟨15, 0, .ro, 0, []⟩]⟩,
  ⟨0x70048, [], [⟨15, 0, .ro, 0, []⟩]⟩,
  ⟨0x7004C, [], [⟨31, 0, .rc, 0, []⟩]⟩,
  ⟨0x70050, [], [⟨31, 0, .rc, 0, []⟩]⟩,
  ⟨0x70060, [], [⟨31, 28, .ro, 0, []⟩, ⟨27, 27, .ro, 0, []⟩, ⟨26, 26, .ro, 0, []⟩, ⟨25, 25, .ro, 0, []⟩, ⟨24, 24, .ro, 0, []⟩, ⟨23, 22, .ro, 0, []⟩, ⟨1, 1, .w1c, 0, []⟩, ⟨0, 0, .w1c, 0, []⟩]⟩,
  ⟨0x70064, [], [⟨31, 0, .rc, 0, []⟩]⟩,
  ⟨0x70068, [], [⟨31, 0, .rc, 0, []⟩]⟩]
/-- Field maps of `CMP_TAKEOVER_UNREACH`. -/
def rootRows07p1 : List RegRow := [
  ⟨0x7006C, [], [⟨31, 0, .ro, 0, []⟩]⟩]
def rootRows07 : List RegRow := rootRows07p0 ++ rootRows07p1
/-- Field maps of `SW_CTRL`, `SW_STATUS`, `SW_SRAM_USED`, `SW_LEARN_DROP_CNT`. -/
def rootRows08 : List RegRow := [
  ⟨0x80000, [], [⟨31, 31, .wo, 0, []⟩, ⟨15, 0, .rw, 0x12C, []⟩]⟩,
  ⟨0x80004, [], [⟨31, 31, .w1c, 0, []⟩, ⟨14, 0, .ro, 0, []⟩]⟩,
  ⟨0x80008, [], [⟨31, 0, .ro, 0, []⟩]⟩,
  ⟨0x8000C, [], [⟨31, 0, .rc, 0, []⟩]⟩]
/-- Field maps of `QB_q_CFG`, `QB_q_GEOM`, `QB_q_FILL`, `QB_q_FILL_MAX`, `QB_q_PTR_W`, `QB_q_PTR_R`, `QB_q_STATUS`, `QB_q_EMPTY_RD_CNT`, `QB_q_STALL_CNT`, `QB_q_STALE_CNT`. -/
def rootRows09 : List RegRow := [
  ⟨0x90000, [(128, 0x40)], [⟨31, 16, .rw, 0, []⟩, ⟨13, 0, .ro, 0, []⟩]⟩,
  ⟨0x90004, [(128, 0x40)], [⟨31, 31, .ro, 0, []⟩, ⟨28, 24, .ro, 0, []⟩, ⟨23, 0, .ro, 0, []⟩]⟩,
  ⟨0x90008, [(128, 0x40)], [⟨23, 0, .ro, 0, []⟩]⟩,
  ⟨0x9000C, [(128, 0x40)], [⟨23, 0, .rc, 0, []⟩]⟩,
  ⟨0x90010, [(128, 0x40)], [⟨24, 0, .ro, 0, []⟩]⟩,
  ⟨0x90014, [(128, 0x40)], [⟨24, 0, .ro, 0, []⟩]⟩,
  ⟨0x90018, [(128, 0x40)], [⟨31, 31, .ro, 0, []⟩, ⟨30, 30, .ro, 0, []⟩, ⟨29, 29, .ro, 0, []⟩, ⟨2, 2, .w1c, 0, []⟩, ⟨1, 1, .w1c, 0, []⟩, ⟨0, 0, .w1c, 0, []⟩]⟩,
  ⟨0x9001C, [(128, 0x40)], [⟨31, 0, .rc, 0, []⟩]⟩,
  ⟨0x90020, [(128, 0x40)], [⟨31, 0, .rc, 0, []⟩]⟩,
  ⟨0x90024, [(128, 0x40)], [⟨31, 0, .rc, 0, []⟩]⟩]
/-- Field maps of `ROOT_LC_RET_OK`, `ROOT_LC_RET_CRC_ERR`, `ROOT_LC_RET_FOREIGN`, `ROOT_UDP_CSUM_ERR`, `ROOT_E131_RX_ERR`, `ROOT_E131_SRC_LOST`. -/
def rootRows0B : List RegRow := [
  ⟨0xB0000, [], [⟨31, 0, .rc, 0, []⟩]⟩,
  ⟨0xB0004, [], [⟨31, 0, .rc, 0, []⟩]⟩,
  ⟨0xB0008, [], [⟨31, 0, .rc, 0, []⟩]⟩,
  ⟨0xB000C, [], [⟨31, 0, .rc, 0, []⟩]⟩,
  ⟨0xB0010, [], [⟨31, 0, .rc, 0, []⟩]⟩,
  ⟨0xB0014, [], [⟨31, 0, .rc, 0, []⟩]⟩]
/-- Field maps of `DMX_n_CTRL`, `DMX_n_STATUS`, `DMX_n_TX_FRAMES`, `DMX_n_SUPERSEDED`, `DMX_n_RDM_OK`, `DMX_n_RDM_TIMEOUT`, `DMX_n_RDM_ERR`, `DMX_n_RX_FRAMES`, `DMX_n_RX_ERR`. -/
def rootRows0C : List RegRow := [
  ⟨0xC0000, [(16, 0x40)], [⟨1, 1, .wo, 0, []⟩, ⟨0, 0, .rw, 0, []⟩]⟩,
  ⟨0xC0004, [(16, 0x40)], [⟨31, 16, .ro, 0, []⟩, ⟨4, 4, .ro, 0, []⟩, ⟨3, 3, .ro, 0, []⟩, ⟨2, 2, .ro, 0, []⟩, ⟨1, 1, .w1c, 0, []⟩, ⟨0, 0, .ro, 0, []⟩]⟩,
  ⟨0xC0008, [(16, 0x40)], [⟨31, 0, .rc, 0, []⟩]⟩,
  ⟨0xC000C, [(16, 0x40)], [⟨31, 0, .rc, 0, []⟩]⟩,
  ⟨0xC0010, [(16, 0x40)], [⟨31, 0, .rc, 0, []⟩]⟩,
  ⟨0xC0014, [(16, 0x40)], [⟨31, 0, .rc, 0, []⟩]⟩,
  ⟨0xC0018, [(16, 0x40)], [⟨31, 0, .rc, 0, []⟩]⟩,
  ⟨0xC001C, [(16, 0x40)], [⟨31, 0, .rc, 0, []⟩]⟩,
  ⟨0xC0020, [(16, 0x40)], [⟨31, 0, .rc, 0, []⟩]⟩]
/-- Field maps of `SAP_n_CTRL`, `SAP_n_STATUS`, `SAP_n_TX_BURSTS`, `SAP_n_TX_LATE`, `SAP_n_TX_DROP`, `SAP_n_TAKE_SLIP`, `SAP_n_POLLS`, `SAP_n_NO_REPLY`, `SAP_n_REPLY_ERR`, `SAP_n_PROBES`, `SAP_n_PROBE_SKIP`. -/
def rootRows0D : List RegRow := [
  ⟨0xD0000, [(64, 0x100)], [⟨0, 0, .rw, 0, []⟩]⟩,
  ⟨0xD0004, [(64, 0x100)], [⟨26, 16, .ro, 0, []⟩, ⟨5, 5, .ro, 0, []⟩, ⟨4, 4, .w1c, 0, []⟩, ⟨3, 3, .w1c, 0, []⟩, ⟨2, 2, .w1c, 0, []⟩, ⟨1, 1, .w1c, 0, []⟩, ⟨0, 0, .w1c, 0, []⟩]⟩,
  ⟨0xD0008, [(64, 0x100)], [⟨31, 0, .rc, 0, []⟩]⟩,
  ⟨0xD000C, [(64, 0x100)], [⟨31, 0, .rc, 0, []⟩]⟩,
  ⟨0xD0010, [(64, 0x100)], [⟨31, 0, .rc, 0, []⟩]⟩,
  ⟨0xD0014, [(64, 0x100)], [⟨31, 0, .rc, 0, []⟩]⟩,
  ⟨0xD0018, [(64, 0x100)], [⟨31, 0, .rc, 0, []⟩]⟩,
  ⟨0xD001C, [(64, 0x100)], [⟨31, 0, .rc, 0, []⟩]⟩,
  ⟨0xD0020, [(64, 0x100)], [⟨31, 0, .rc, 0, []⟩]⟩,
  ⟨0xD0024, [(64, 0x100)], [⟨31, 0, .rc, 0, []⟩]⟩,
  ⟨0xD0028, [(64, 0x100)], [⟨31, 0, .rc, 0, []⟩]⟩]
/-- Field maps of `GRAFT_CTRL`, `GRAFT_STATUS`, `GRAFT_LAST`, `GRAFT_REQ_CNT`, `GRAFT_TIMEOUT_CNT`, `GRAFT_NACK_CNT`, `GRAFT_RETRY_CNT`, `GRAFT_RSP_ERR`, `GRAFT_PREFETCH_HIT`, `GRAFT_WINDFALL_CNT`, `GRAFT_WINDFALL_DROP`, `GRAFT_TUN_TX_CNT`, `GRAFT_TUN_RX_CNT`, `GRAFT_TUN_DROP`, `GRAFT_SEL_i`, `GRAFT_ATTR_r`, `GRAFT_TUN_t`. -/
def rootRows0E : List RegRow := [
  ⟨0xE0000, [], [⟨27, 24, .rws, 8, [(0, 0)]⟩, ⟨15, 0, .rws, 0x5DC, [(0, 9), (10001, 65535)]⟩]⟩,
  ⟨0xE0004, [], [⟨31, 25, .ro, 0, []⟩, ⟨24, 18, .ro, 0, []⟩, ⟨17, 11, .ro, 0, []⟩, ⟨10, 10, .w1c, 0, []⟩, ⟨7, 3, .ro, 0, []⟩, ⟨2, 2, .w1c, 0, []⟩, ⟨1, 1, .w1c, 0, []⟩, ⟨0, 0, .w1c, 0, []⟩]⟩,
  ⟨0xE0008, [], [⟨31, 16, .ro, 0, []⟩, ⟨15, 0, .ro, 0, []⟩]⟩,
  ⟨0xE0010, [], [⟨31, 0, .rc, 0, []⟩]⟩,
  ⟨0xE0014, [], [⟨31, 0, .rc, 0, []⟩]⟩,
  ⟨0xE0018, [], [⟨31, 0, .rc, 0, []⟩]⟩,
  ⟨0xE001C, [], [⟨31, 0, .rc, 0, []⟩]⟩,
  ⟨0xE0020, [], [⟨31, 0, .rc, 0, []⟩]⟩,
  ⟨0xE0024, [], [⟨31, 0, .rc, 0, []⟩]⟩,
  ⟨0xE0028, [], [⟨31, 0, .rc, 0, []⟩]⟩,
  ⟨0xE002C, [], [⟨31, 0, .rc, 0, []⟩]⟩,
  ⟨0xE0030, [], [⟨31, 0, .rc, 0, []⟩]⟩,
  ⟨0xE0034, [], [⟨31, 0, .rc, 0, []⟩]⟩,
  ⟨0xE0038, [], [⟨31, 0, .rc, 0, []⟩]⟩,
  ⟨0xE0100, [(8, 0x4)], [⟨31, 31, .rw, 0, []⟩, ⟨27, 24, .rw, 0, []⟩]⟩,
  ⟨0xE0200, [(16, 0x4)], [⟨31, 31, .rws, 0, []⟩, ⟨30, 30, .rws, 0, []⟩, ⟨29, 28, .rws, 0, [(3, 3)]⟩, ⟨27, 16, .rws, 0, []⟩, ⟨15, 4, .rws, 0, []⟩]⟩,
  ⟨0xE0300, [(16, 0x4)], [⟨31, 31, .rws, 0, []⟩, ⟨27, 24, .rws, 0, []⟩, ⟨19, 16, .rws, 0, []⟩, ⟨3, 0, .rws, 0, []⟩]⟩]
/-- Field maps of `PORT_n_CTRL`, `PORT_n_STATUS`, `PORT_n_QUEUE_FILL`, `PORT_n_RING_FILL`, `PORT_n_RX_BYTES_LO`, `PORT_n_RX_BYTES_HI`, `PORT_n_TX_BYTES_LO`, `PORT_n_TX_BYTES_HI`, `PORT_n_RX_FRAMES`, `PORT_n_TX_FRAMES`, `PORT_n_RX_FCS_ERR`, `PORT_n_RX_LEN_ERR`, `PORT_n_RX_DROP`, `PORT_n_RX_TRUNC`, `PORT_n_RX_PAUSE`, `PORT_n_RX_PAUSE_IDLE`, `PORT_n_RX_PAUSE_IGNORED`, `PORT_n_RX_CTRL_UNSUP`, `PORT_n_TX_PAUSE`, `PORT_n_TX_PAUSE_ZERO`, `PORT_n_PAUSE_WD_CNT`, `PORT_n_TX_LATE`, `PORT_n_TX_TIMED_DROP`, `PORT_n_TX_UNTIMED_DROP`. -/
def rootRows10p0 : List RegRow := [
  ⟨0x100000, [(58, 0x100)], [⟨1, 1, .wo, 0, []⟩, ⟨0, 0, .rw, 0, []⟩]⟩,
  ⟨0x100004, [(58, 0x100)], [⟨19, 16, .ro, 0, []⟩, ⟨15, 15, .ro, 0, []⟩, ⟨14, 14, .ro, 0, []⟩, ⟨13, 13, .ro, 0, []⟩, ⟨12, 12, .ro, 0, []⟩, ⟨11, 11, .ro, 0, []⟩, ⟨3, 3, .w1c, 0, []⟩, ⟨2, 2, .w1c, 0, []⟩, ⟨1, 1, .w1c, 0, []⟩, ⟨0, 0, .w1c, 0, []⟩]⟩,
  ⟨0x100008, [(58, 0x100)], [⟨22, 0, .ro, 0, []⟩]⟩,
  ⟨0x10000C, [(58, 0x100)], [⟨24, 0, .ro, 0, []⟩]⟩,
  ⟨0x100020, [(58, 0x100)], [⟨31, 0, .rc, 0, []⟩]⟩,
  ⟨0x100024, [(58, 0x100)], [⟨31, 0, .rc, 0, []⟩]⟩,
  ⟨0x100028, [(58, 0x100)], [⟨31, 0, .rc, 0, []⟩]⟩,
  ⟨0x10002C, [(58, 0x100)], [⟨31, 0, .rc, 0, []⟩]⟩,
  ⟨0x100030, [(58, 0x100)], [⟨31, 0, .rc, 0, []⟩]⟩,
  ⟨0x100034, [(58, 0x100)], [⟨31, 0, .rc, 0, []⟩]⟩,
  ⟨0x100038, [(58, 0x100)], [⟨31, 0, .rc, 0, []⟩]⟩,
  ⟨0x10003C, [(58, 0x100)], [⟨31, 0, .rc, 0, []⟩]⟩,
  ⟨0x100040, [(58, 0x100)], [⟨31, 0, .rc, 0, []⟩]⟩,
  ⟨0x100044, [(58, 0x100)], [⟨31, 0, .rc, 0, []⟩]⟩,
  ⟨0x100048, [(58, 0x100)], [⟨31, 0, .rc, 0, []⟩]⟩,
  ⟨0x10004C, [(58, 0x100)], [⟨31, 0, .rc, 0, []⟩]⟩,
  ⟨0x100050, [(58, 0x100)], [⟨31, 0, .rc, 0, []⟩]⟩,
  ⟨0x100054, [(58, 0x100)], [⟨31, 0, .rc, 0, []⟩]⟩,
  ⟨0x100058, [(58, 0x100)], [⟨31, 0, .rc, 0, []⟩]⟩,
  ⟨0x10005C, [(58, 0x100)], [⟨31, 0, .rc, 0, []⟩]⟩,
  ⟨0x100060, [(58, 0x100)], [⟨31, 0, .rc, 0, []⟩]⟩,
  ⟨0x100064, [(58, 0x100)], [⟨31, 0, .rc, 0, []⟩]⟩,
  ⟨0x100068, [(58, 0x100)], [⟨31, 0, .rc, 0, []⟩]⟩,
  ⟨0x10006C, [(58, 0x100)], [⟨31, 0, .rc, 0, []⟩]⟩]
/-- Field maps of `PORT_n_TX_STOMP`, `PORT_n_COLLISIONS`, `PORT_n_LATE_COLL`, `PORT_n_EXCESS_COLL`, `PORT_n_DEFER`, `PORT_n_FEC_CORR`, `PORT_n_FEC_UNCORR`. -/
def rootRows10p1 : List RegRow := [
  ⟨0x100070, [(58, 0x100)], [⟨31, 0, .rc, 0, []⟩]⟩,
  ⟨0x100074, [(58, 0x100)], [⟨31, 0, .rc, 0, []⟩]⟩,
  ⟨0x100078, [(58, 0x100)], [⟨31, 0, .rc, 0, []⟩]⟩,
  ⟨0x10007C, [(58, 0x100)], [⟨31, 0, .rc, 0, []⟩]⟩,
  ⟨0x100080, [(58, 0x100)], [⟨31, 0, .rc, 0, []⟩]⟩,
  ⟨0x100084, [(58, 0x100)], [⟨31, 0, .rc, 0, []⟩]⟩,
  ⟨0x100088, [(58, 0x100)], [⟨31, 0, .rc, 0, []⟩]⟩]
def rootRows10 : List RegRow := rootRows10p0 ++ rootRows10p1
/-- Field maps of `CHK_n_CFG`, `CHK_n_CTRL`, `CHK_n_DATA`, `CHK_n_STATUS`, `CHK_n_POLY_LO`, `CHK_n_POLY_HI`, `CHK_n_INIT_LO`, `CHK_n_INIT_HI`, `CHK_n_XOROUT_LO`, `CHK_n_XOROUT_HI`, `CHK_n_FOLD_LO`, `CHK_n_FOLD_HI`, `CHK_n_STATE_LO`, `CHK_n_STATE_HI`, `CHK_n_RESULT_LO`, `CHK_n_RESULT_HI`, `CHK_n_UNIT_CNT`, `CHK_n_FAIL_CNT`, `CHK_ECC_CORR_CNT`, `CHK_ECC_UNCORR_CNT`, `CHK_ECC_LAST_INFO`, `CHK_ECC_LAST_LO`, `CHK_ECC_LAST_HI`, `CHK_SCRUB_CTRL`. -/
def rootRows12p0 : List RegRow := [
  ⟨0x120000, [(8, 0x80)], [⟨31, 30, .rw, 0, [(2, 3)]⟩, ⟨29, 28, .rw, 0, []⟩, ⟨27, 21, .rw, 0x20, [(0, 7), (65, 127)]⟩, ⟨20, 20, .rw, 0, []⟩, ⟨19, 19, .rw, 0, []⟩, ⟨18, 15, .rw, 0, [(9, 15)]⟩, ⟨14, 14, .rw, 0, []⟩, ⟨13, 12, .rw, 0, [(3, 3)]⟩, ⟨11, 11, .rw, 0, []⟩, ⟨2, 0, .rw, 4, [(0, 0), (5, 7)]⟩]⟩,
  ⟨0x120004, [(8, 0x80)], [⟨31, 31, .wo, 0, []⟩, ⟨30, 30, .wo, 0, []⟩]⟩,
  ⟨0x120008, [(8, 0x80)], [⟨31, 0, .wo, 0, []⟩]⟩,
  ⟨0x12000C, [(8, 0x80)], [⟨31, 31, .ro, 0, []⟩, ⟨30, 30, .ro, 0, []⟩, ⟨29, 29, .ro, 0, []⟩, ⟨28, 28, .w1c, 0, []⟩, ⟨27, 27, .w1c, 0, []⟩, ⟨26, 26, .w1c, 0, []⟩, ⟨25, 25, .w1c, 0, []⟩]⟩,
  ⟨0x120010, [(8, 0x80)], [⟨31, 0, .rw, 0, []⟩]⟩,
  ⟨0x120014, [(8, 0x80)], [⟨31, 0, .rw, 0, []⟩]⟩,
  ⟨0x120018, [(8, 0x80)], [⟨31, 0, .rw, 0, []⟩]⟩,
  ⟨0x12001C, [(8, 0x80)], [⟨31, 0, .rw, 0, []⟩]⟩,
  ⟨0x120020, [(8, 0x80)], [⟨31, 0, .rw, 0, []⟩]⟩,
  ⟨0x120024, [(8, 0x80)], [⟨31, 0, .rw, 0, []⟩]⟩,
  ⟨0x120028, [(8, 0x80)], [⟨31, 0, .rw, 0, []⟩]⟩,
  ⟨0x12002C, [(8, 0x80)], [⟨31, 0, .rw, 0, []⟩]⟩,
  ⟨0x120030, [(8, 0x80)], [⟨31, 0, .rw, 0, []⟩]⟩,
  ⟨0x120034, [(8, 0x80)], [⟨31, 0, .rw, 0, []⟩]⟩,
  ⟨0x120038, [(8, 0x80)], [⟨31, 0, .ro, 0, []⟩]⟩,
  ⟨0x12003C, [(8, 0x80)], [⟨31, 0, .ro, 0, []⟩]⟩,
  ⟨0x120040, [(8, 0x80)], [⟨31, 0, .rc, 0, []⟩]⟩,
  ⟨0x120044, [(8, 0x80)], [⟨31, 0, .rc, 0, []⟩]⟩,
  ⟨0x121000, [], [⟨31, 0, .rc, 0, []⟩]⟩,
  ⟨0x121004, [], [⟨31, 0, .rc, 0, []⟩]⟩,
  ⟨0x121008, [], [⟨31, 31, .w1c, 0, []⟩, ⟨30, 30, .ro, 0, []⟩, ⟨29, 29, .ro, 0, []⟩, ⟨28, 25, .ro, 0, []⟩, ⟨24, 15, .ro, 0, []⟩, ⟨6, 0, .ro, 0, []⟩]⟩,
  ⟨0x12100C, [], [⟨31, 0, .ro, 0, []⟩]⟩,
  ⟨0x121010, [], [⟨31, 0, .ro, 0, []⟩]⟩,
  ⟨0x121014, [], [⟨31, 31, .rws, 1, []⟩, ⟨16, 0, .rws, 0xE10, [(0, 599), (86401, 131071)]⟩]⟩]
/-- Field maps of `CHK_SCRUB_PASS_CNT`. -/
def rootRows12p1 : List RegRow := [
  ⟨0x121018, [], [⟨31, 0, .ro, 0, []⟩]⟩]
def rootRows12 : List RegRow := rootRows12p0 ++ rootRows12p1
/-- Field maps of `LIFE_STATE`, `LIFE_CTRL`, `LIFE_NONCE_k`, `LIFE_UPD_CTRL`, `LIFE_UPD_STATUS`, `LIFE_UPD_WINDOW`, `LIFE_UPD_FW_VERSION`, `LIFE_UPD_LOADER_VERSION`, `LIFE_UPD_FALLBACK_CNT`, `LIFE_UPD_c_STAGED_w`, `LIFE_UPD_c_RUN_w`, `LIFE_UPD_c_ACT_LO`, `LIFE_UPD_c_ACT_MID`, `LIFE_UPD_c_ACT_HI`, `LIFE_UPD_c_ACT_AXIS`. -/
def rootRows13 : List RegRow := [
  ⟨0x130000, [], [⟨31, 29, .ro, 0, []⟩, ⟨28, 28, .ro, 0, []⟩, ⟨27, 27, .ro, 0, []⟩, ⟨26, 26, .ro, 0, []⟩]⟩,
  ⟨0x130004, [], [⟨1, 1, .wo, 0, []⟩, ⟨0, 0, .wo, 0, []⟩]⟩,
  ⟨0x130010, [(4, 0x4)], [⟨31, 0, .ro, 0, []⟩]⟩,
  ⟨0x130100, [], [⟨31, 31, .rws, 0, []⟩, ⟨30, 30, .rws, 0, []⟩, ⟨15, 0, .rws, 0x78, [(0, 29), (3601, 65535)]⟩]⟩,
  ⟨0x130104, [], [⟨31, 31, .ro, 0, []⟩, ⟨27, 26, .ro, 0, []⟩, ⟨25, 24, .ro, 0, []⟩, ⟨23, 22, .ro, 0, []⟩, ⟨21, 20, .ro, 1, []⟩, ⟨19, 18, .ro, 0, []⟩, ⟨17, 17, .ro, 0, []⟩, ⟨2, 2, .w1c, 0, []⟩, ⟨1, 1, .w1c, 0, []⟩, ⟨0, 0, .w1c, 0, []⟩]⟩,
  ⟨0x130108, [], [⟨31, 16, .ro, 0, []⟩, ⟨15, 0, .ro, 0, []⟩]⟩,
  ⟨0x13010C, [], [⟨31, 0, .ro, 0, []⟩]⟩,
  ⟨0x130110, [], [⟨31, 0, .ro, 0, []⟩]⟩,
  ⟨0x130114, [], [⟨31, 0, .rc, 0, []⟩]⟩,
  ⟨0x130120, [(3, 0x40), (8, 0x4)], [⟨31, 0, .ro, 0, []⟩]⟩,
  ⟨0x130140, [(3, 0x40), (8, 0x4)], [⟨31, 0, .ro, 0, []⟩]⟩,
  ⟨0x130200, [(3, 0x10)], [⟨31, 0, .ro, 0, []⟩]⟩,
  ⟨0x130204, [(3, 0x10)], [⟨31, 0, .ro, 0, []⟩]⟩,
  ⟨0x130208, [(3, 0x10)], [⟨31, 0, .ro, 0, []⟩]⟩,
  ⟨0x13020C, [(3, 0x10)], [⟨4, 0, .ro, 0, []⟩]⟩]
/-- Field maps of `BIST_STATUS`, `BIST_TRUNK_t_HEALTH`, `BIST_TRUNK_t_LANE_ERR`, `BIST_TRUNK_t_VEC_FAIL`. -/
def rootRows14 : List RegRow := [
  ⟨0x140000, [], [⟨31, 31, .ro, 0, []⟩, ⟨1, 1, .w1c, 0, []⟩, ⟨0, 0, .w1c, 0, []⟩]⟩,
  ⟨0x140010, [(2, 0x10)], [⟨31, 24, .ro, 0, []⟩, ⟨23, 22, .ro, 2, []⟩, ⟨21, 20, .ro, 2, []⟩, ⟨19, 19, .ro, 0, []⟩]⟩,
  ⟨0x140014, [(2, 0x10)], [⟨31, 0, .rc, 0, []⟩]⟩,
  ⟨0x140018, [(2, 0x10)], [⟨31, 0, .rc, 0, []⟩]⟩]
/-- Field maps of `CAL_TB_PHASE`, `CAL_TB_QUAL`, `CAL_TEMP`, `CAL_PORT_n_EGRESS`, `CAL_PORT_n_INGRESS`, `CAL_PORT_n_QUAL`, `CAL_SAP_n`. -/
def rootRows15 : List RegRow := [
  ⟨0x150000, [], [⟨31, 0, .rws, 0, []⟩]⟩,
  ⟨0x150004, [], [⟨31, 31, .rws, 0, []⟩, ⟨30, 30, .ro, 0, []⟩, ⟨29, 29, .w1c, 0, []⟩, ⟨28, 16, .ro, 0, []⟩]⟩,
  ⟨0x150008, [], [⟨31, 0, .ro, 0, []⟩]⟩,
  ⟨0x150100, [(72, 0x10)], [⟨31, 0, .rws, 0, []⟩]⟩,
  ⟨0x150104, [(72, 0x10)], [⟨31, 0, .rws, 0, []⟩]⟩,
  ⟨0x150108, [(72, 0x10)], [⟨31, 31, .rws, 0, []⟩, ⟨30, 30, .ro, 0, []⟩, ⟨29, 29, .w1c, 0, []⟩, ⟨28, 16, .ro, 0, []⟩, ⟨12, 0, .ro, 0, []⟩]⟩,
  ⟨0x150800, [(64, 0x4)], [⟨31, 31, .rws, 0, []⟩, ⟨30, 30, .ro, 0, []⟩, ⟨29, 29, .w1c, 0, []⟩, ⟨15, 8, .ro, 0, []⟩, ⟨7, 0, .rws, 0x80, []⟩]⟩]
/-- Field maps of `REC_CTRL`, `REC_STATUS`, `REC_HEAD`, `REC_LOST_CNT`, `REC_MISSED_CNT`, `REC_SLOT_k_TRIG`, `REC_SLOT_k_END`, `REC_SET_GEN_LO`, `REC_SET_GEN_HI`, `REC_SET_STATUS`. -/
def rootRows16 : List RegRow := [
  ⟨0x160000, [], [⟨31, 31, .wo, 0, []⟩, ⟨3, 0, .wo, 0, []⟩]⟩,
  ⟨0x160004, [], [⟨31, 31, .ro, 0, []⟩, ⟨30, 29, .ro, 0, []⟩, ⟨28, 25, .ro, 0, []⟩, ⟨24, 24, .ro, 0, []⟩, ⟨3, 3, .w1c, 0, []⟩, ⟨2, 2, .w1c, 0, []⟩, ⟨1, 1, .w1c, 0, []⟩, ⟨0, 0, .w1c, 0, []⟩]⟩,
  ⟨0x160008, [], [⟨31, 0, .ro, 0, []⟩]⟩,
  ⟨0x16000C, [], [⟨31, 0, .rc, 0, []⟩]⟩,
  ⟨0x160010, [], [⟨31, 0, .rc, 0, []⟩]⟩,
  ⟨0x160020, [(4, 0x8)], [⟨31, 0, .ro, 0, []⟩]⟩,
  ⟨0x160024, [(4, 0x8)], [⟨31, 0, .ro, 0, []⟩]⟩,
  ⟨0x160040, [], [⟨31, 0, .ro, 0, []⟩]⟩,
  ⟨0x160044, [], [⟨31, 0, .ro, 0, []⟩]⟩,
  ⟨0x160048, [], [⟨31, 31, .ro, 0, []⟩, ⟨30, 30, .ro, 0, []⟩, ⟨29, 29, .ro, 0, []⟩, ⟨0, 0, .w1c, 0, []⟩]⟩]
/-- Field maps of `PSU_STATUS`, `PSU_VIN`, `PSU_PIN`, `PSU_AUX`, `PSU_TEMP_BASE`, `PSU_TEMP_A`, `PSU_TEMP_B`, `PSU_TEMP_ROOT`, `PSU_TEMP_MAX`, `PSU_DIP_CNT`, `PSU_AUX_TRIP_CNT`. -/
def rootRows17 : List RegRow := [
  ⟨0x170000, [], [⟨31, 31, .ro, 0, []⟩, ⟨30, 30, .ro, 0, []⟩, ⟨29, 29, .ro, 0, []⟩, ⟨28, 28, .ro, 0, []⟩, ⟨27, 27, .ro, 0, []⟩, ⟨26, 26, .ro, 0, []⟩, ⟨5, 5, .w1c, 0, []⟩, ⟨4, 4, .w1c, 0, []⟩, ⟨3, 3, .w1c, 0, []⟩, ⟨2, 2, .w1c, 0, []⟩, ⟨1, 1, .w1c, 0, []⟩, ⟨0, 0, .w1c, 0, []⟩]⟩,
  ⟨0x170004, [], [⟨15, 0, .ro, 0, []⟩]⟩,
  ⟨0x170008, [], [⟨15, 0, .ro, 0, []⟩]⟩,
  ⟨0x17000C, [], [⟨31, 16, .ro, 0, []⟩, ⟨15, 0, .ro, 0, []⟩]⟩,
  ⟨0x170010, [], [⟨15, 0, .ro, 0, []⟩]⟩,
  ⟨0x170014, [], [⟨15, 0, .ro, 0, []⟩]⟩,
  ⟨0x170018, [], [⟨15, 0, .ro, 0, []⟩]⟩,
  ⟨0x17001C, [], [⟨15, 0, .ro, 0, []⟩]⟩,
  ⟨0x170020, [], [⟨15, 0, .rc, 0x8000, []⟩]⟩,
  ⟨0x170024, [], [⟨31, 0, .rc, 0, []⟩]⟩,
  ⟨0x170028, [], [⟨31, 0, .rc, 0, []⟩]⟩]
/-- The register rows of the root, by 64 KiB block (R382). -/
def rootRows : Nat → List RegRow
  | 0x0 => rootRows00
  | 0x4 => rootRows04
  | 0x5 => rootRows05
  | 0x6 => rootRows06
  | 0x7 => rootRows07
  | 0x8 => rootRows08
  | 0x9 => rootRows09
  | 0xB => rootRows0B
  | 0xC => rootRows0C
  | 0xD => rootRows0D
  | 0xE => rootRows0E
  | 0x10 => rootRows10
  | 0x12 => rootRows12
  | 0x13 => rootRows13
  | 0x14 => rootRows14
  | 0x15 => rootRows15
  | 0x16 => rootRows16
  | 0x17 => rootRows17
  | _ => []
/-- Field maps of `TWIG_RES_ERR_CNT`, `TWIG_LAST_ERR`, `TWIG_CLIP_CNT`, `TWIG_OFF_CNT`, `TWIG_NAN_CNT`. -/
def trunkRows03 : List RegRow := [
  ⟨0x30000, [], [⟨31, 0, .rc, 0, []⟩]⟩,
  ⟨0x30004, [], [⟨31, 31, .w1c, 0, []⟩, ⟨30, 27, .ro, 0, []⟩, ⟨23, 21, .ro, 0, []⟩, ⟨20, 18, .ro, 0, []⟩, ⟨17, 14, .ro, 0, []⟩, ⟨13, 12, .ro, 0, []⟩]⟩,
  ⟨0x30008, [], [⟨31, 0, .rc, 0, []⟩]⟩,
  ⟨0x3000C, [], [⟨31, 0, .rc, 0, []⟩]⟩,
  ⟨0x30010, [], [⟨31, 0, .rc, 0, []⟩]⟩]
/-- Field maps of `TRK_MASTER_INT`, `TRK_GAMUT_CNT`, `TRK_SOLVE_NEG_CNT`, `TRK_SOLVE_FAIL_CNT`, `TRK_DERATE_CNT`, `TRK_TEMP_STALE_CNT`, `TRK_CAM_g_STATUS`, `TRK_CAM_g_PERIOD_LO`, `TRK_CAM_g_PERIOD_HI`. -/
def trunkRows04 : List RegRow := [
  ⟨0x40000, [], [⟨15, 0, .rw, 0x8000, []⟩]⟩,
  ⟨0x40010, [], [⟨31, 0, .rc, 0, []⟩]⟩,
  ⟨0x40014, [], [⟨31, 0, .rc, 0, []⟩]⟩,
  ⟨0x40018, [], [⟨31, 0, .rc, 0, []⟩]⟩,
  ⟨0x4001C, [], [⟨31, 0, .rc, 0, []⟩]⟩,
  ⟨0x40020, [], [⟨31, 0, .rc, 0, []⟩]⟩,
  ⟨0x40100, [(8, 0x10)], [⟨31, 31, .ro, 0, []⟩, ⟨30, 30, .ro, 0, []⟩, ⟨29, 29, .ro, 0, []⟩, ⟨17, 16, .ro, 0, []⟩, ⟨15, 0, .ro, 0, []⟩]⟩,
  ⟨0x40104, [(8, 0x10)], [⟨31, 0, .ro, 0, []⟩]⟩,
  ⟨0x40108, [(8, 0x10)], [⟨15, 0, .ro, 0, []⟩]⟩]
/-- Field maps of `CROWN_COMMIT`, `CROWN_COMMIT_STATUS`, `CROWN_POOL_STATUS`, `CROWN_HW_ERR_CNT`, `CROWN_CANVAS_c_STATUS`, `CROWN_CANVAS_c_FRAME_CNT`, `CROWN_CANVAS_c_SKIP_CNT`, `CROWN_CANVAS_c_HW_GEN_LO`, `CROWN_CANVAS_c_HW_GEN_HI`, `CROWN_LAYER_n_CTRL`, `CROWN_LAYER_n_DEST_POS`, `CROWN_LAYER_n_DEST_SIZE`, `CROWN_LAYER_n_SRC_SIZE`, `CROWN_LAYER_n_SURF_BASE_LO`, `CROWN_LAYER_n_SURF_BASE_HI`, `CROWN_LAYER_n_SURF_PITCH`, `CROWN_LAYER_n_SURF_PLANE1`, `CROWN_LAYER_n_SURF_PLANE2`, `CROWN_LAYER_n_SURF_FORMAT`, `CROWN_LAYER_n_READY`, `CROWN_LAYER_n_STATUS`, `CROWN_LAYER_n_ERR_CNT`, `CROWN_COEF`. -/
def trunkRows05 : List RegRow := [
  ⟨0x50000, [], [⟨7, 0, .wo, 0, []⟩]⟩,
  ⟨0x50004, [], [⟨31, 16, .ro, 0, []⟩, ⟨15, 8, .ro, 0, []⟩, ⟨3, 3, .w1c, 0, []⟩, ⟨2, 2, .w1c, 0, []⟩, ⟨1, 1, .ro, 0, []⟩, ⟨0, 0, .ro, 0, []⟩]⟩,
  ⟨0x50008, [], [⟨31, 28, .ro, 8, []⟩, ⟨21, 0, .ro, 0, []⟩]⟩,
  ⟨0x5000C, [], [⟨31, 0, .rc, 0, []⟩]⟩,
  ⟨0x50800, [(8, 0x20)], [⟨31, 31, .ro, 0, []⟩, ⟨30, 30, .ro, 0, []⟩, ⟨27, 24, .ro, 0, []⟩, ⟨23, 16, .ro, 0, []⟩]⟩,
  ⟨0x50804, [(8, 0x20)], [⟨31, 0, .ro, 0, []⟩]⟩,
  ⟨0x50808, [(8, 0x20)], [⟨31, 0, .rc, 0, []⟩]⟩,
  ⟨0x5080C, [(8, 0x20)], [⟨31, 0, .ro, 0, []⟩]⟩,
  ⟨0x50810, [(8, 0x20)], [⟨31, 0, .ro, 0, []⟩]⟩,
  ⟨0x51000, [(32, 0x40)], [⟨31, 31, .rw, 0, []⟩, ⟨30, 30, .rw, 0, []⟩, ⟨27, 24, .rw, 0, []⟩, ⟨23, 20, .rw, 0, []⟩, ⟨15, 0, .rw, 0x8000, []⟩]⟩,
  ⟨0x51004, [(32, 0x40)], [⟨29, 16, .rw, 0, []⟩, ⟨13, 0, .rw, 0, []⟩]⟩,
  ⟨0x51008, [(32, 0x40)], [⟨30, 16, .rw, 0, []⟩, ⟨14, 0, .rw, 0, []⟩]⟩,
  ⟨0x5100C, [(32, 0x40)], [⟨30, 16, .rw, 0, []⟩, ⟨14, 0, .rw, 0, []⟩]⟩,
  ⟨0x51010, [(32, 0x40)], [⟨31, 0, .rw, 0, []⟩]⟩,
  ⟨0x51014, [(32, 0x40)], [⟨2, 0, .rw, 0, []⟩]⟩,
  ⟨0x51018, [(32, 0x40)], [⟨31, 0, .rw, 0, []⟩]⟩,
  ⟨0x5101C, [(32, 0x40)], [⟨31, 0, .rw, 0, []⟩]⟩,
  ⟨0x51020, [(32, 0x40)], [⟨31, 0, .rw, 0, []⟩]⟩,
  ⟨0x51024, [(32, 0x40)], [⟨7, 0, .rw, 0, []⟩]⟩,
  ⟨0x51028, [(32, 0x40)], [⟨0, 0, .wo, 0, []⟩]⟩,
  ⟨0x5102C, [(32, 0x40)], [⟨31, 31, .ro, 0, []⟩, ⟨30, 30, .ro, 0, []⟩, ⟨29, 29, .ro, 0, []⟩, ⟨28, 28, .ro, 0, []⟩, ⟨27, 24, .ro, 0, []⟩, ⟨23, 16, .ro, 0, []⟩]⟩,
  ⟨0x51030, [(32, 0x40)], [⟨31, 0, .rc, 0, []⟩]⟩,
  ⟨0x58000, [(7, 0x400), (64, 0x10), (4, 0x4)], [⟨31, 0, .ro, 0, []⟩]⟩]
/-- Field maps of `RAST_n_COMMIT`, `RAST_n_STATUS`, `RAST_n_CTRL`, `RAST_n_TIMING_H`, `RAST_n_TIMING_V`, `RAST_n_TIMING_VS`, `RAST_n_REGION`, `RAST_n_FB_BASE_LO`, `RAST_n_FB_BASE_HI`, `RAST_n_FB_PITCH`, `RAST_n_FB_FORMAT`, `RAST_n_LINE_MATCH`, `RAST_n_EVENTS`, `RAST_n_FRAME_CNT`, `RAST_n_FLIP_CNT`, `RAST_n_FLIP_TS_LO`, `RAST_n_FLIP_TS_MID`, `RAST_n_FLIP_TS_HI`, `RAST_n_UNDERRUN_CNT`, `RAST_n_FREEZE_CNT`, `RAST_n_SRC_SIG`, `RAST_n_PAD_SIG`. -/
def trunkRows06 : List RegRow := [
  ⟨0x60000, [(8, 0x100)], [⟨0, 0, .wo, 0, []⟩]⟩,
  ⟨0x60004, [(8, 0x100)], [⟨31, 16, .ro, 0, []⟩, ⟨15, 15, .ro, 0, []⟩, ⟨14, 14, .ro, 0, []⟩, ⟨13, 13, .ro, 0, []⟩, ⟨12, 12, .ro, 0, []⟩, ⟨11, 11, .w1c, 0, []⟩, ⟨10, 10, .ro, 0, []⟩, ⟨9, 9, .w1c, 0, []⟩, ⟨8, 8, .w1c, 0, []⟩, ⟨7, 7, .w1c, 0, []⟩, ⟨6, 6, .w1c, 0, []⟩, ⟨5, 5, .ro, 0, []⟩, ⟨0, 0, .ro, 0, []⟩]⟩,
  ⟨0x60008, [(8, 0x100)], [⟨31, 31, .rw, 0, []⟩, ⟨30, 30, .rw, 0, []⟩, ⟨29, 29, .rw, 0, []⟩, ⟨27, 24, .rw, 0, [(5, 15)]⟩, ⟨23, 16, .rw, 0, []⟩, ⟨9, 8, .rw, 0, []⟩, ⟨0, 0, .rw, 0, []⟩]⟩,
  ⟨0x6000C, [(8, 0x100)], [⟨31, 16, .rw, 0, []⟩, ⟨15, 0, .rw, 0, []⟩]⟩,
  ⟨0x60010, [(8, 0x100)], [⟨31, 16, .rw, 0, []⟩, ⟨15, 0, .rw, 0, []⟩]⟩,
  ⟨0x60014, [(8, 0x100)], [⟨15, 0, .rw, 0, []⟩]⟩,
  ⟨0x60018, [(8, 0x100)], [⟨29, 16, .rw, 0, []⟩, ⟨13, 0, .rw, 0, []⟩]⟩,
  ⟨0x6001C, [(8, 0x100)], [⟨31, 0, .rw, 0, []⟩]⟩,
  ⟨0x60020, [(8, 0x100)], [⟨2, 0, .rw, 0, []⟩]⟩,
  ⟨0x60024, [(8, 0x100)], [⟨31, 0, .rw, 0, []⟩]⟩,
  ⟨0x60028, [(8, 0x100)], [⟨7, 0, .rw, 0, []⟩]⟩,
  ⟨0x6002C, [(8, 0x100)], [⟨15, 0, .rw, 0, []⟩]⟩,
  ⟨0x60030, [(8, 0x100)], [⟨3, 3, .w1c, 0, []⟩, ⟨2, 2, .w1c, 0, []⟩, ⟨1, 1, .w1c, 0, []⟩, ⟨0, 0, .w1c, 0, []⟩]⟩,
  ⟨0x60034, [(8, 0x100)], [⟨31, 0, .ro, 0, []⟩]⟩,
  ⟨0x60038, [(8, 0x100)], [⟨31, 0, .ro, 0, []⟩]⟩,
  ⟨0x6003C, [(8, 0x100)], [⟨31, 0, .ro, 0, []⟩]⟩,
  ⟨0x60040, [(8, 0x100)], [⟨31, 0, .ro, 0, []⟩]⟩,
  ⟨0x60044, [(8, 0x100)], [⟨31, 0, .ro, 0, []⟩]⟩,
  ⟨0x60048, [(8, 0x100)], [⟨31, 0, .rc, 0, []⟩]⟩,
  ⟨0x6004C, [(8, 0x100)], [⟨31, 0, .rc, 0, []⟩]⟩,
  ⟨0x60050, [(8, 0x100)], [⟨31, 0, .ro, 0, []⟩]⟩,
  ⟨0x60054, [(8, 0x100)], [⟨31, 0, .ro, 0, []⟩]⟩]
/-- Field maps of `ICU_MASK_SET_w`, `ICU_MASK_CLR_w`, `ICU_PEND_SET_w`, `ICU_PEND_CLR_w`, `ICU_LEVEL_w`, `ICU_MOD_g`, `ICU_CLAIM_c`, `ICU_COMPLETE_c`, `ICU_CORE_c_STATUS`, `ICU_ROUTE_s`. -/
def trunkRows08 : List RegRow := [
  ⟨0x80000, [(32, 0x4)], [⟨31, 0, .w1s, 0xFFFFFFFF, []⟩]⟩,
  ⟨0x80080, [(32, 0x4)], [⟨31, 0, .w1c, 0xFFFFFFFF, []⟩]⟩,
  ⟨0x80100, [(32, 0x4)], [⟨31, 0, .w1s, 0, []⟩]⟩,
  ⟨0x80180, [(32, 0x4)], [⟨31, 0, .w1c, 0, []⟩]⟩,
  ⟨0x80200, [(32, 0x4)], [⟨31, 0, .ro, 0, []⟩]⟩,
  ⟨0x80300, [(16, 0x4)], [⟨15, 0, .rw, 0, []⟩]⟩,
  ⟨0x80400, [(8, 0x20)], [⟨31, 31, .ro, 0, []⟩, ⟨30, 30, .ro, 0, []⟩, ⟨29, 29, .ro, 0, []⟩, ⟨28, 28, .ro, 0, []⟩, ⟨27, 27, .ro, 0, []⟩, ⟨9, 0, .ro, 0, []⟩]⟩,
  ⟨0x80404, [(8, 0x20)], [⟨9, 0, .wo, 0, []⟩]⟩,
  ⟨0x80408, [(8, 0x20)], [⟨31, 31, .ro, 0, []⟩, ⟨30, 30, .ro, 0, []⟩, ⟨29, 29, .w1c, 0, []⟩, ⟨28, 28, .ro, 0, []⟩, ⟨10, 0, .ro, 0, []⟩]⟩,
  ⟨0x80800, [(512, 0x4)], [⟨31, 31, .ro, 0, []⟩, ⟨7, 4, .rw, 0, []⟩, ⟨2, 0, .rw, 0, []⟩]⟩]
/-- Field maps of `TRK_GUEST_c_CTRL`, `TRK_GUEST_c_STATUS`, `TRK_GUEST_c_EPOCH`, `TRK_GUEST_c_SEND_ADDR`, `TRK_GUEST_c_SEND_CTRL`, `TRK_CORE_c_APER_k`. -/
def trunkRows09 : List RegRow := [
  ⟨0x90000, [(2, 0x40)], [⟨31, 31, .wo, 0, []⟩, ⟨30, 30, .wo, 0, []⟩, ⟨29, 29, .wo, 0, []⟩, ⟨28, 28, .wo, 0, []⟩]⟩,
  ⟨0x90004, [(2, 0x40)], [⟨31, 29, .ro, 0, []⟩, ⟨15, 15, .w1c, 0, []⟩, ⟨14, 14, .w1c, 0, []⟩, ⟨13, 13, .w1c, 0, []⟩, ⟨12, 12, .w1c, 0, []⟩]⟩,
  ⟨0x90008, [(2, 0x40)], [⟨31, 0, .ro, 0, []⟩]⟩,
  ⟨0x9000C, [(2, 0x40)], [⟨27, 3, .rw, 0, []⟩]⟩,
  ⟨0x90010, [(2, 0x40)], [⟨31, 31, .wo, 0, []⟩, ⟨29, 16, .rw, 0, []⟩, ⟨5, 0, .rw, 0, []⟩]⟩,
  ⟨0x90100, [(6, 0x10), (4, 0x4)], [⟨31, 31, .ro, 0, []⟩, ⟨30, 30, .ro, 0, []⟩, ⟨15, 0, .ro, 0, []⟩]⟩]
/-- Field maps of `SCHED_STATUS`, `SCHED_SLOTS`, `SCHED_READY_MAX`, `SCHED_BP_CNT`, `SCHED_BP_CYCLES`, `SCHED_DISPATCH_CNT`, `SCHED_AGED_CNT`, `SCHED_WAIT_HIST_k`, `SCHED_BRANCH_LOAD_b`, `SCHED_CORE_LOAD_c`. -/
def trunkRows0A : List RegRow := [
  ⟨0xA0000, [], [⟨31, 31, .w1c, 0, []⟩, ⟨30, 30, .w1c, 0, []⟩, ⟨19, 11, .ro, 0, []⟩, ⟨10, 0, .ro, 0, []⟩]⟩,
  ⟨0xA0004, [], [⟨26, 16, .ro, 0, []⟩, ⟨12, 0, .ro, 0, []⟩]⟩,
  ⟨0xA0008, [], [⟨10, 0, .rc, 0, []⟩]⟩,
  ⟨0xA000C, [], [⟨31, 0, .rc, 0, []⟩]⟩,
  ⟨0xA0010, [], [⟨31, 0, .rc, 0, []⟩]⟩,
  ⟨0xA0014, [], [⟨31, 0, .rc, 0, []⟩]⟩,
  ⟨0xA0018, [], [⟨31, 0, .rc, 0, []⟩]⟩,
  ⟨0xA0100, [(16, 0x4)], [⟨31, 0, .rc, 0, []⟩]⟩,
  ⟨0xA0200, [(64, 0x4)], [⟨10, 0, .ro, 0, []⟩]⟩,
  ⟨0xA0300, [(8, 0x4)], [⟨10, 0, .ro, 0, []⟩]⟩]
/-- Field maps of `QB_T_q_CFG`, `QB_T_q_GEOM`, `QB_T_q_FILL`, `QB_T_q_FILL_MAX`, `QB_T_q_PTR_W`, `QB_T_q_PTR_R`, `QB_T_q_STATUS`, `QB_T_q_EMPTY_RD_CNT`, `QB_T_q_STALL_CNT`, `QB_T_q_STALE_CNT`. -/
def trunkRows0B : List RegRow := [
  ⟨0xB0000, [(64, 0x40)], [⟨31, 16, .rw, 0, []⟩, ⟨13, 0, .ro, 0, []⟩]⟩,
  ⟨0xB0004, [(64, 0x40)], [⟨31, 31, .ro, 0, []⟩, ⟨28, 24, .ro, 0, []⟩, ⟨23, 0, .ro, 0, []⟩]⟩,
  ⟨0xB0008, [(64, 0x40)], [⟨23, 0, .ro, 0, []⟩]⟩,
  ⟨0xB000C, [(64, 0x40)], [⟨23, 0, .rc, 0, []⟩]⟩,
  ⟨0xB0010, [(64, 0x40)], [⟨24, 0, .ro, 0, []⟩]⟩,
  ⟨0xB0014, [(64, 0x40)], [⟨24, 0, .ro, 0, []⟩]⟩,
  ⟨0xB0018, [(64, 0x40)], [⟨31, 31, .ro, 0, []⟩, ⟨30, 30, .ro, 0, []⟩, ⟨29, 29, .ro, 0, []⟩, ⟨2, 2, .w1c, 0, []⟩, ⟨1, 1, .w1c, 0, []⟩, ⟨0, 0, .w1c, 0, []⟩]⟩,
  ⟨0xB001C, [(64, 0x40)], [⟨31, 0, .rc, 0, []⟩]⟩,
  ⟨0xB0020, [(64, 0x40)], [⟨31, 0, .rc, 0, []⟩]⟩,
  ⟨0xB0024, [(64, 0x40)], [⟨31, 0, .rc, 0, []⟩]⟩]
/-- Field maps of `CHK_T_n_CFG`, `CHK_T_n_CTRL`, `CHK_T_n_DATA`, `CHK_T_n_STATUS`, `CHK_T_n_POLY_LO`, `CHK_T_n_POLY_HI`, `CHK_T_n_INIT_LO`, `CHK_T_n_INIT_HI`, `CHK_T_n_XOROUT_LO`, `CHK_T_n_XOROUT_HI`, `CHK_T_n_FOLD_LO`, `CHK_T_n_FOLD_HI`, `CHK_T_n_STATE_LO`, `CHK_T_n_STATE_HI`, `CHK_T_n_RESULT_LO`, `CHK_T_n_RESULT_HI`, `CHK_T_n_UNIT_CNT`, `CHK_T_n_FAIL_CNT`, `CHK_T_ECC_CORR_CNT`, `CHK_T_ECC_UNCORR_CNT`, `CHK_T_ECC_LAST_INFO`, `CHK_T_ECC_LAST_LO`, `CHK_T_ECC_LAST_HI`, `CHK_T_SCRUB_CTRL`. -/
def trunkRows0Cp0 : List RegRow := [
  ⟨0xC0000, [(16, 0x80)], [⟨31, 30, .rw, 0, [(2, 3)]⟩, ⟨29, 28, .rw, 0, []⟩, ⟨27, 21, .rw, 0x20, [(0, 7), (65, 127)]⟩, ⟨20, 20, .rw, 0, []⟩, ⟨19, 19, .rw, 0, []⟩, ⟨18, 15, .rw, 0, [(9, 15)]⟩, ⟨14, 14, .rw, 0, []⟩, ⟨13, 12, .rw, 0, [(3, 3)]⟩, ⟨11, 11, .rw, 0, []⟩, ⟨2, 0, .rw, 4, [(0, 0), (5, 7)]⟩]⟩,
  ⟨0xC0004, [(16, 0x80)], [⟨31, 31, .wo, 0, []⟩, ⟨30, 30, .wo, 0, []⟩]⟩,
  ⟨0xC0008, [(16, 0x80)], [⟨31, 0, .wo, 0, []⟩]⟩,
  ⟨0xC000C, [(16, 0x80)], [⟨31, 31, .ro, 0, []⟩, ⟨30, 30, .ro, 0, []⟩, ⟨29, 29, .ro, 0, []⟩, ⟨28, 28, .w1c, 0, []⟩, ⟨27, 27, .w1c, 0, []⟩, ⟨26, 26, .w1c, 0, []⟩, ⟨25, 25, .w1c, 0, []⟩]⟩,
  ⟨0xC0010, [(16, 0x80)], [⟨31, 0, .rw, 0, []⟩]⟩,
  ⟨0xC0014, [(16, 0x80)], [⟨31, 0, .rw, 0, []⟩]⟩,
  ⟨0xC0018, [(16, 0x80)], [⟨31, 0, .rw, 0, []⟩]⟩,
  ⟨0xC001C, [(16, 0x80)], [⟨31, 0, .rw, 0, []⟩]⟩,
  ⟨0xC0020, [(16, 0x80)], [⟨31, 0, .rw, 0, []⟩]⟩,
  ⟨0xC0024, [(16, 0x80)], [⟨31, 0, .rw, 0, []⟩]⟩,
  ⟨0xC0028, [(16, 0x80)], [⟨31, 0, .rw, 0, []⟩]⟩,
  ⟨0xC002C, [(16, 0x80)], [⟨31, 0, .rw, 0, []⟩]⟩,
  ⟨0xC0030, [(16, 0x80)], [⟨31, 0, .rw, 0, []⟩]⟩,
  ⟨0xC0034, [(16, 0x80)], [⟨31, 0, .rw, 0, []⟩]⟩,
  ⟨0xC0038, [(16, 0x80)], [⟨31, 0, .ro, 0, []⟩]⟩,
  ⟨0xC003C, [(16, 0x80)], [⟨31, 0, .ro, 0, []⟩]⟩,
  ⟨0xC0040, [(16, 0x80)], [⟨31, 0, .rc, 0, []⟩]⟩,
  ⟨0xC0044, [(16, 0x80)], [⟨31, 0, .rc, 0, []⟩]⟩,
  ⟨0xC1000, [], [⟨31, 0, .rc, 0, []⟩]⟩,
  ⟨0xC1004, [], [⟨31, 0, .rc, 0, []⟩]⟩,
  ⟨0xC1008, [], [⟨31, 31, .w1c, 0, []⟩, ⟨30, 30, .ro, 0, []⟩, ⟨29, 29, .ro, 0, []⟩, ⟨28, 25, .ro, 0, []⟩, ⟨24, 15, .ro, 0, []⟩, ⟨6, 0, .ro, 0, []⟩]⟩,
  ⟨0xC100C, [], [⟨31, 0, .ro, 0, []⟩]⟩,
  ⟨0xC1010, [], [⟨31, 0, .ro, 0, []⟩]⟩,
  ⟨0xC1014, [], [⟨31, 31, .rws, 1, []⟩, ⟨16, 0, .rws, 0xE10, [(0, 599), (86401, 131071)]⟩]⟩]
/-- Field maps of `CHK_T_SCRUB_PASS_CNT`. -/
def trunkRows0Cp1 : List RegRow := [
  ⟨0xC1018, [], [⟨31, 0, .ro, 0, []⟩]⟩]
def trunkRows0C : List RegRow := trunkRows0Cp0 ++ trunkRows0Cp1
/-- The register rows of the trunk register spaces, by 64 KiB block (R382). -/
def trunkRows : Nat → List RegRow
  | 0x3 => trunkRows03
  | 0x4 => trunkRows04
  | 0x5 => trunkRows05
  | 0x6 => trunkRows06
  | 0x8 => trunkRows08
  | 0x9 => trunkRows09
  | 0xA => trunkRows0A
  | 0xB => trunkRows0B
  | 0xC => trunkRows0C
  | _ => []
/-- Field map of `TRK_PINT_n`. -/
def trkPintRow : RegRow :=
  ⟨0x100000, [(524288, 0x4)], [⟨31, 16, .rw, 0x8000, []⟩, ⟨15, 0, .rw, 0x8000, []⟩]⟩

end Sys2Proof.Machine
end

