-- ==== Sys2Proof/Config.lean ====
section
/-! DEFINITION. What the spec leaves to the module or leaves unstated: free values, opaque, so that no proof can see
them. Each is named in a row of notes/assumptions. -/

namespace Sys2Proof.Config

/-- A free natural number: the n-th draw of a run. A statement about it holds for every value. -/
opaque freeNat : Nat → Nat

/-- A free function of an operand at a place the spec leaves the value unstated; the first argument names the
place, the second carries the operand. -/
opaque unstated : Nat → Nat → Nat

/-- The scaler coefficients of R148 that no rule gives: filter, phase and tap, as the raw register word. -/
opaque scalerCoef : Nat → Nat → Nat → Word

end Sys2Proof.Config
end

