-- ==== Sys2Proof/Machine/Float.lean ====
section
/-! DEFINITION. IEEE 754 arithmetic with rounding to nearest even, on exact dyadic values: binary16 surfaces (R108,
R144 to R146), the binary32 blend (R145) and the binary64 constants of R120. -/

namespace Sys2Proof.Machine

/-- A floating-point value: (-1)^neg times m times 2^e, an infinity or a NaN. -/
inductive Flt where
  | nan
  | inf (neg : Bool)
  | fin (neg : Bool) (m : Nat) (e : Int)
  deriving DecidableEq, Repr, Inhabited

/-- A binary format: precision in bits, exponent of the least subnormal, largest exponent. -/
structure Fmt where
  prec : Nat
  emin : Int
  emax : Int
  deriving DecidableEq, Repr

def bin16 : Fmt := ⟨11, -24, 15⟩
def bin32 : Fmt := ⟨24, -149, 127⟩
def bin64 : Fmt := ⟨53, -1074, 1023⟩

/-- An integer quotient rounded to nearest, ties to even. -/
def divEven (m k : Nat) : Nat :=
  let q := m / k
  let r := m % k
  if k < 2 * r ∨ (2 * r = k ∧ q % 2 = 1) then q + 1 else q

/-- Rounds an exact value to a format; past the largest exponent it is infinite. -/
def fround (f : Fmt) (neg : Bool) (m : Nat) (e : Int) : Flt :=
  if m = 0 then .fin neg 0 0
  else
    let lsb := max (e + (Nat.log2 m + 1 : Nat) - f.prec) f.emin
    let q := if lsb ≤ e then m * 2 ^ (e - lsb).toNat else divEven m (2 ^ (lsb - e).toNat)
    if q = 0 then .fin neg 0 0
    else if f.emax < lsb + Nat.log2 q then .inf neg
    else .fin neg q lsb

/-- The signed integer m of m times 2^e at a common exponent. -/
def scaled (neg : Bool) (m : Nat) (e base : Int) : Int :=
  let v : Int := m * 2 ^ (e - base).toNat
  if neg then -v else v

def fadd (f : Fmt) : Flt → Flt → Flt
  | .nan, _ => .nan
  | _, .nan => .nan
  | .inf a, .inf b => if a = b then .inf a else .nan
  | .inf a, .fin _ _ _ => .inf a
  | .fin _ _ _, .inf b => .inf b
  | .fin n1 m1 e1, .fin n2 m2 e2 =>
    let base := min e1 e2
    let v := scaled n1 m1 e1 base + scaled n2 m2 e2 base
    if v = 0 then .fin (n1 && n2) 0 0 else fround f (decide (v < 0)) v.natAbs base

def fneg : Flt → Flt
  | .nan => .nan
  | .inf a => .inf (!a)
  | .fin n m e => .fin (!n) m e

def fsub (f : Fmt) (a b : Flt) : Flt := fadd f a (fneg b)

def fmul (f : Fmt) : Flt → Flt → Flt
  | .nan, _ => .nan
  | _, .nan => .nan
  | .inf a, .inf b => .inf (a != b)
  | .inf a, .fin b m _ => if m = 0 then .nan else .inf (a != b)
  | .fin a m _, .inf b => if m = 0 then .nan else .inf (a != b)
  | .fin n1 m1 e1, .fin n2 m2 e2 => fround f (n1 != n2) (m1 * m2) (e1 + e2)

/-- Division of finite values, the divisor not zero: a quotient with a sticky bit, then rounded. -/
def fdiv (f : Fmt) : Flt → Flt → Flt
  | .fin n1 m1 e1, .fin n2 m2 e2 =>
    if m2 = 0 then (if m1 = 0 then .nan else .inf (n1 != n2))
    else
      let k : Nat := f.prec + 3 + Nat.log2 m2
      let q : Nat := m1 * 2 ^ k / m2
      let sticky : Nat := if m1 * 2 ^ k % m2 = 0 then 0 else 1
      fround f (n1 != n2) (2 * q + sticky) (e1 - e2 - k - 1)
  | .inf a, .fin b _ _ => .inf (a != b)
  | .fin a _ _, .inf b => .fin (a != b) 0 0
  | _, _ => .nan

/-- An integer as a value. -/
def fint (x : Int) : Flt := .fin (decide (x < 0)) x.natAbs 0

/-- The value of a binary16 pattern. -/
def ofHalf (h : Nat) : Flt :=
  let neg := h / 2 ^ 15 % 2 == 1
  let ex : Nat := h / 1024 % 32
  let fr : Nat := h % 1024
  if ex = 31 then (if fr = 0 then .inf neg else .nan)
  else if ex = 0 then .fin neg fr (-24)
  else .fin neg (1024 + fr) ((ex : Int) - 25)

/-- The value of a binary32 pattern. -/
def ofSingle (w : Nat) : Flt :=
  let neg := w / 2 ^ 31 % 2 == 1
  let ex : Nat := w / 2 ^ 23 % 256
  let fr : Nat := w % 2 ^ 23
  if ex = 255 then (if fr = 0 then .inf neg else .nan)
  else if ex = 0 then .fin neg fr (-149)
  else .fin neg (2 ^ 23 + fr) ((ex : Int) - 150)

/-- R145 step 6: rounded to binary16 to nearest even, saturated to ±65,504, a NaN replaced by +0. -/
def toHalfSat : Flt → Nat
  | .nan => 0
  | .inf n => (if n then 2 ^ 15 else 0) + 0x7BFF
  | .fin n m e =>
    let s := if n then 2 ^ 15 else 0
    match fround bin16 n m e with
    | .fin _ 0 _ => s
    | .fin _ q l =>
      let len := Nat.log2 q + 1
      let top := l + len - 1
      if top < -14 then s + q * 2 ^ (l + 24).toNat
      else s + (top + 15).toNat * 1024 + (q * 2 ^ (11 - len) - 1024)
    | _ => s + 0x7BFF

/-- The value times 2^k as the integer nearest, ties up (half-up); none for an infinity or a NaN. -/
def toFixed (k : Nat) : Flt → Option Int
  | .fin n m e =>
    let p : Int := e + k
    let sgn : Int := if n then -1 else 1
    some (if 0 ≤ p then sgn * (m * 2 ^ p.toNat : Nat) else (2 * (sgn * m) + 2 ^ (-p).toNat) / 2 ^ ((-p).toNat + 1))
  | _ => none

end Sys2Proof.Machine
end

