-- ==== Sys2Proof/Machine/State.lean ====
section
/-! DEFINITION. The state of the module as plain data, the reasons a step can stop, and the state after reset. -/

namespace Sys2Proof.Machine

/-- A sparse table by key: an absent key reads as the default its reader names. -/
abbrev Tab (α : Type) := List (Nat × α)

/-- The entry of key `k`, if the table lists it. -/
def Tab.find? {α : Type} : Tab α → Nat → Option α
  | [], _ => none
  | (j, v) :: r, k => if j = k then some v else Tab.find? r k

/-- The entry of key `k`, or `d`. -/
def Tab.get {α : Type} (d : α) (l : Tab α) (k : Nat) : α := (Tab.find? l k).getD d

/-- Sets the entry of key `k`, keeping keys in rising order. -/
def Tab.set {α : Type} : Tab α → Nat → α → Tab α
  | [], k, v => [(k, v)]
  | (j, w) :: r, k, v =>
    if k < j then (k, v) :: (j, w) :: r
    else if k = j then (k, v) :: r
    else (j, w) :: Tab.set r k v

/-- Removes the entry of key `k`. -/
def Tab.erase {α : Type} : Tab α → Nat → Tab α
  | [], _ => []
  | (j, w) :: r, k => if k = j then Tab.erase r k else (j, w) :: Tab.erase r k

/-- One axis (R29 to R39). Positions are raw units of R30: 2^-16 ns on a time axis, 2^-32 count on a count axis. -/
structure AxisSt where
  /-- Current position (R41). -/
  pos : Nat := 0
  /-- The last position received from the source (R36). -/
  rxPos : Nat := 0
  /-- Advance per fabric cycle, in 2^-32 raw units, as last measured (R36). -/
  adv : Nat := 0
  /-- Fraction of a raw unit carried between cycles, in 2^-32. -/
  acc : Nat := 0
  /-- Consecutive good references towards the lock criterion of R35. -/
  good : Nat := 0
  /-- FREE at the last reference of the source, and the period before it, in 2^-16 ns. -/
  lastAt : Nat := 0
  lastPeriod : Nat := 0
  /-- Lines per frame of a LINE source as last received; 0 before it is measured. -/
  lines : Nat := 0
  /-- Lines per frame established at lock (R32, R126). -/
  nLines : Nat := 0
  /-- Frames (LINE), cycles (MAINS), samples (AUDIO) or midnights (TC) counted since first lock. -/
  count : Nat := 0
  /-- The last frame number, line or timecode count; for a word clock, FREE at the start of the measured run. -/
  lastRef : Nat := 0
  /-- Consecutive invalid timecode frames (R35). -/
  bad : Nat := 0
  /-- The axis has locked since it was bound (R33). -/
  locked1 : Bool := false
  deriving DecidableEq, Repr, Inhabited

/-- The capture of R49: positions, advances, rate deviations and relations of every bound axis at a tree epoch, under one
arrival tag. A relation is (a_num, a_den, b). -/
structure Capture where
  tag : Nat := 0
  epoch : Nat := 0
  pos : List Nat := []
  adv : List Nat := []
  rate : List Int := []
  rel : List (Int × Int × Int) := []
  /-- State codes (R330, R35). -/
  state : List Nat := []
  deriving DecidableEq, Repr, Inhabited

/-- A frame waiting or held: the PORTS record that launches it, its content, its launch time in ns on its launch
base, the tag of the capture it was packed from, and the leaves it carries. -/
structure OutFrame where
  portRec : Nat := 0
  seq : Nat := 0
  launch : Nat := 0
  base : Nat := 17
  safety : Bool := false
  capTag : Nat := 0
  ringMoved : Bool := false
  /-- Counted late when it leaves (R52, R213, R214). -/
  late : Bool := false
  /-- Due while its port was held (R214). -/
  held : Bool := false
  /-- Its length on the wire, and its content. -/
  len : Nat := 0
  data : List Byte := []
  leaves : List Nat := []
  /-- A frame of a sap-line burst (R255): the burst's sequence, the frame's place in it, how many frames it has, and the
  raw position predicted as its take boundary (R266). -/
  burst : Nat := 0
  part : Nat := 0
  parts : Nat := 1
  takeBy : Nat := 0
  deriving DecidableEq, Repr, Inhabited

/-- A compare unit as one trunk hands it over (R302): its port code, its 48-bit sequence, and what it becomes. -/
structure CUnit where
  code : Nat
  seq : Nat
  out : OutFrame
  /-- A guest frame leaves untimed (R337). -/
  timed : Bool := true
  /-- Of an epoch before the cut-over of the other trunk: no second copy comes (R312). -/
  solo : Bool := false
  deriving DecidableEq, Repr, Inhabited

/-- A first copy at the compare stage: the trunk that sent it, when it arrived (FREE raw units), and whether it
already stands in its launch queue (ETC, R304). -/
structure HeldCopy where
  from_ : Trunk
  unit : CUnit
  at_ : Nat
  queued : Bool := false
  deriving DecidableEq, Repr, Inhabited

/-- A unit under arbitration (R306): the originals and recomputed votes of trunks A and B, when its first copy
arrived and when the recompute was asked for. An absent original is a missing copy. -/
structure ArbUnit where
  code : Nat
  seq : Nat
  copyA : Option CUnit := none
  copyB : Option CUnit := none
  /-- A vote that has come in; `some none` is a missing vote. -/
  voteA : Option (Option (BitVec 64)) := none
  voteB : Option (Option (BitVec 64)) := none
  at_ : Nat := 0
  asked : Nat := 0
  /-- Under ETC the first copy has started to leave, so nothing more is sent (R304). -/
  gone : Bool := false
  deriving DecidableEq, Repr, Inhabited

/-- An untimed frame of an egress queue (R212). -/
structure Untimed where
  ingress : Nat := 58
  frame : EthFrame
  /-- Its ingress time stamp on FREE (R286). -/
  at_ : Nat := 0
  /-- A PTP message the root sends, which takes its time as it leaves (R287): the instance, or 4 + the port for the switch's own; the
  message kind; and its sequence. -/
  stamp : Option (Nat × Nat × Nat) := none
  deriving DecidableEq, Repr, Inhabited

/-- What a port has on the line: a timed frame with its queue record, or an untimed frame. -/
structure TxSt where
  timed : Bool := false
  out : OutFrame := {}
  ingress : Nat := 58
  frame : Option EthFrame := none
  len : Nat := 0
  startedAt : Nat := 0
  /-- It leaves cut-through: its entries stand in the egress block until it ends, and its ingress FCS has failed (R211). -/
  cut : Bool := false
  /-- Entries of a cut-through frame that stood in the block when it started. -/
  wrote : Nat := 0
  stomp : Bool := false
  stamp : Option (Nat × Nat × Nat) := none
  deriving DecidableEq, Repr, Inhabited

/-- A frame in a receive ring (R219): its arrival stamp on FREE, the 256-byte buffers it still holds, and TRUNC status. -/
structure RingFrame where
  frame : EthFrame
  at_ : Nat := 0
  bufs : Nat := 0
  trunc : Bool := false
  deriving DecidableEq, Repr, Inhabited

/-- A learned address (R210): its switching group, the address, its port, and when it was last learned, on FREE. -/
structure SwEntry where
  group : Nat
  addr : Nat
  port : Nat
  at_ : Nat := 0
  deriving DecidableEq, Repr, Inhabited

/-- An Ethernet port (R204 to R220). -/
structure PortSt where
  timed : List OutFrame := []
  untimed : List Untimed := []
  tx : Option TxSt := none
  /-- End of the pause timer on FREE; 0 when it does not run (R214). -/
  pauseEnd : Nat := 0
  /-- When received PAUSE began to hold transmission; 0 when it does not (R215). -/
  heldFrom : Nat := 0
  /-- The egress queues in this port's pausing set, and when its PAUSE repeats (R216). -/
  pausing : List Nat := []
  pauseNext : Nat := 0
  /-- PAUSE frames waiting for the launch guard. -/
  pauseOut : List Nat := []
  /-- This egress queue is congested (R216). -/
  congested : Bool := false
  /-- Frames in the receive ring (R219). -/
  ring : List RingFrame := []
  /-- Egress ports at which the frame arriving here leaves cut-through (R211). -/
  cutTo : List Nat := []
  /-- The datapath check codes have faulted the port (R318). -/
  faulted : Bool := false
  /-- Its timed frames move to the ring partner (R318), and since when its link is up again. -/
  fallback : Bool := false
  upSince : Nat := 0
  /-- T1S: carrier sensed, attempts of the frame in hand, end of back-off, and the frame counted as deferred. -/
  carrier : Bool := false
  attempts : Nat := 0
  backoffEnd : Nat := 0
  deferred : Bool := false
  /-- The physical link of the pad side, before `disable` (R220). -/
  phys : Bool := false
  deriving DecidableEq, Repr, Inhabited

/-- An RDM request (R244): where it came from (1 graft, 3 discovery, 4 a tunnel), its bytes, and when it was asked for. -/
structure RdmReq where
  origin : Nat := 0
  /-- The graft transaction or the tunnel it serves. -/
  tag : Nat := 0
  data : List Byte := []
  asked : Nat := 0
  retried : Bool := false
  /-- A step of discovery (E1.20): 1 DISC_UN_MUTE, 2 DISC_UNIQUE_BRANCH from `lo` to `hi`, 3 DISC_MUTE of `lo`, 4 GET of the
  DMX start address of `lo`. For a tunnel, `lo` is the grove position of its source. -/
  step : Nat := 0
  lo : Nat := 0
  hi : Nat := 0
  deriving DecidableEq, Repr, Inhabited

/-- A tunnelled frame that waits for the line (R378): break and mark-after-break in µs, and start code and slots. -/
structure TunFrame where
  brk : Nat
  mab : Nat
  data : List Byte
  deriving DecidableEq, Repr, Inhabited

/-- Whom the outcome of a graft transaction goes to (R364, R375): a Stem command, an initiator of its own, or the tree at a
grove position. -/
inductive GraftTo where
  | stem (chan tag opcode : Nat)
  | init
  | tree (pos tag : Nat)
  deriving DecidableEq, Repr

/-- A graft transaction (R366, R367): its tag, initiator, the tables whose entries it holds (0 trunk A, 1 trunk B, 2 the
root), what it asks, and the other tree it asks it of. -/
structure GraftTx where
  tag : Nat := 0
  init : Nat := 0
  tables : List Nat := []
  replyTo : GraftTo := .init
  write : Bool := false
  leaf : Nat := 0
  offset : Nat := 0
  length : Nat := 0
  data : List Byte := []
  remote : Option Nat := none
  /-- 0 it waits; 1 it is issued; 2 it was aborted and waits for its delay (R376). -/
  phase : Nat := 0
  /-- Answered ISSUED (R375). -/
  accepted : Bool := false
  issuedAt : Nat := 0
  sentAt : Nat := 0
  copies : Nat := 0
  aborts : Nat := 0
  againAt : Nat := 0
  /-- What the fetch covers, when it lies in a `sef` range (R372). -/
  fetch : Option (Nat × Nat) := none
  deriving DecidableEq, Repr

/-- A core's copy of a graft request that waits for the other trunk's (R368): trunk, count and arrival. -/
structure GraftCopy where
  trunk : Nat
  count : Nat
  at_ : Nat
  tx : GraftTx
  deriving DecidableEq, Repr

/-- Bytes fetched beyond a request (R372), and which of them a read has consumed; or an entry of the windfall buffer
(R374). `whole` marks an RDM parameter, all of whose bytes lie at its offset. -/
structure Fetched where
  leaf : Nat
  offset : Nat
  init : Nat
  data : List Byte
  used : List Bool := []
  whole : Bool := false
  /-- The answer had a side effect (R373). -/
  effect : Bool := false
  expires : Nat := 0
  deriving DecidableEq, Repr, Inhabited

/-- The outcome of a graft transaction as an initiator other than Stem sees it (R369). -/
structure GraftOutcome where
  init : Nat
  tables : List Nat
  code : Nat
  data : List Byte
  windfall : Bool
  deriving DecidableEq, Repr, Inhabited

/-- A DMX512 port (R242 to R245). -/
structure DmxSt where
  queue : List OutFrame := []
  cur : Option OutFrame := none
  repeating : Bool := false
  last : List Byte := []
  lastStart : Nat := 0
  /-- When the first slot of the frame on the line begins and when the frame ends, on FREE (R242); a frame has ended since the last one
  began (R244). -/
  slotAt : Nat := 0
  endsAt : Nat := 0
  ended : Bool := false
  /-- Timed frames sent late and dropped (R52); no register of the port shows them. -/
  lateN : Nat := 0
  dropN : Nat := 0
  rdmQ : List RdmReq := []
  rdm : Option RdmReq := none
  rdmAt : Nat := 0
  /-- The transaction number of the next request, and the responders of the latest discovery and of the one in progress: UID
  and DMX start address. -/
  tn : Nat := 0
  found : List (Nat × Nat) := []
  finding : List (Nat × Nat) := []
  /-- The tunnelled frame that waits (R378). -/
  tun : Option TunFrame := none
  rx : List Byte := []
  rxAt : Nat := 0
  /-- FREE of the last input packet. -/
  rxLast : Option Nat := none
  deriving DecidableEq, Repr, Inhabited

/-- A burst on a sap line (R255): its first frame, the place of the frame whose turn is next, the raw position on its base from which the
line is free for it, and where the frame in front of that began. -/
structure SapBurst where
  head : OutFrame
  next : Nat := 0
  free : Int := 0
  start : Int := 0
  deriving DecidableEq, Repr, Inhabited

/-- A turnaround window (R263), on FREE: the node asked, whether with IDENT, when the root releases DE, when the window closes, and whether
a valid reply has come. -/
structure SapWindow where
  node : Nat
  ident : Bool := false
  opens : Nat := 0
  fin : Nat := 0
  got : Bool := false
  deriving DecidableEq, Repr, Inhabited

/-- A sap line (R248 to R269). -/
structure SapSt where
  queue : List OutFrame := []
  cur : Option SapBurst := none
  /-- The burst that was dropped last: the rest of it is dropped with it. -/
  dropped : Option OutFrame := none
  window : Option SapWindow := none
  /-- The running disparity of the line; true is positive (R249). -/
  rd : Bool := false
  /-- The node polled next, and when each was last polled, on FREE (R250, R267). -/
  pollNext : Nat := 0
  polledAt : Tab Nat := []
  identQ : List Nat := []
  /-- Consecutive polls without a valid reply, by node. -/
  misses : Tab Nat := []
  deriving DecidableEq, Repr, Inhabited

/-- A universe a source group sends (R240): its group, sequence, last packet and when it left. -/
structure E131Tx where
  group : Nat := 0
  seq : Nat := 0
  packet : List Byte := []
  lastAt : Nat := 0
  deriving DecidableEq, Repr, Inhabited

/-- A source of a received universe (R241). -/
structure E131Src where
  /-- Its synchronisation universe, the data it holds back for it, and when its last synchronisation packet came. -/
  sync : Nat := 0
  held : Option (List Byte) := none
  syncAt : Option Nat := none
  cid : Nat
  priority : Nat
  slots : List Byte
  lastAt : Nat
  deriving DecidableEq, Repr, Inhabited

/-- What a pad or wire has carried: an output log entry, by kind and unit. -/
inductive Sent where
  /-- A frame began to leave Ethernet port `port`, without its FCS; `timed` frames carry whether they were late. -/
  | eth (port : Nat) (timed : Bool) (late : Bool) (data : List Byte)
  /-- A cut-through frame whose FCS failed on ingress ended on port `port` with this inverted FCS (R211). -/
  | stomp (port : Nat) (fcs : Nat)
  /-- A MAC control PAUSE left the port. -/
  | pause (port : Nat) (time : Nat)
  /-- A DMX512 frame or an RDM request began to leave the port, with its break and mark-after-break in µs (R242). -/
  | dmx (port : Nat) (rdm : Bool) (brk mab : Nat) (data : List Byte)
  /-- A sap-line frame began to leave the line: DATA 1, TIMING 2, TAKE 3, POLL 4, PROBE 5, IDENT 6 (R254); its code groups, with the idle
  ordered set ahead of it (R249, R252). -/
  | sap (line : Nat) (cmd : Nat) (codes : List (BitVec 10))
  /-- The frame on the line was abandoned after this many characters from its comma (R255). -/
  | sapCut (line : Nat) (chars : Nat)
  /-- An SDI line left the pad of a generator: its line number, whether it was sent black for want of data, and the 10-bit words of its
  data streams (R192, R201). -/
  | raster (t : Trunk) (g : Nat) (line : Nat) (black : Bool) (streams : List (List Nat))
  /-- An ST 2110 packet left an uplink at a time in ns on its launch base: its line number, whether its line was sent black for want of
  data, and the Ethernet frame (R202). -/
  | st2110 (port : Nat) (line : Nat) (black : Bool) (at_ : Nat) (data : List Byte)
  /-- A tunnelled frame on a DMX512 port, with its break and mark-after-break in µs (R378). -/
  | tunnel (port : Nat) (brk mab : Nat) (data : List Byte)
  /-- A jam on a T1S segment. -/
  | jam (seg : Nat)
  /-- A pulse of the PPS output. -/
  | pps
  /-- A check value an engine appends after its data (R406): the engine as in `State.chk`. -/
  | check (engine : Nat) (data : List Byte)
  deriving DecidableEq, Repr

/-- One event of the ring record's queue (R436, R437). -/
structure Event where
  die : Nat := 0
  block : Nat := 0
  code : Nat
  cls : Nat := 0
  args : List Byte := []
  freeNs : Nat := 0
  axis : Nat := 17
  pos : Nat := 0
  host : Bool := false
  /-- A freeze trigger (R438) whatever its class. -/
  trig : Bool := false
  deriving DecidableEq, Repr, Inhabited

/-- A Stem reply (R390). -/
structure Reply where
  chan : Nat
  /-- A ring's reply slot and the phase of its pass; 0 and no for a session. -/
  slot : Nat := 0
  phase : Bool := false
  status : Nat
  tag : Nat
  opcode : Nat
  windfall : Bool := false
  result : List Byte := []
  data : List Byte := []
  deriving DecidableEq, Repr, Inhabited

/-- A held WATCH of a channel (R398). -/
structure Watch where
  tag : Nat
  mask : Nat
  expected : Nat
  start : Nat
  deadline : Nat
  deriving DecidableEq, Repr, Inhabited

/-- A chunked object in progress (R395): its opcode, the channel, its length and the bytes so far. -/
structure ChunkObj where
  chan : Nat
  objLen : Nat
  data : List Byte
  deriving DecidableEq, Repr, Inhabited

/-- A command of a ring or session that has started and not replied, for `fence` and `in_flight` (R391). -/
structure Flight where
  chan : Nat
  tag : Nat
  opcode : Nat
  /-- Which command of its ring it is, from 0 at the enable (R388), and whether a PCIe error meets its reply write. -/
  index : Nat := 0
  replyErr : Bool := false
  deriving DecidableEq, Repr, Inhabited

/-- A Stem UDP session (R396). -/
structure Session where
  peer : Nat := 0
  port : Nat := 0
  openS : Bool := false
  last : Nat := 0
  /-- The Ethernet port its datagrams come through; the replies to its last 16 tags, newest first; and replies that have not left. -/
  via : Nat := 0
  replies : List Reply := []
  out : List Reply := []
  deriving DecidableEq, Repr, Inhabited

/-- The parsed sections of a seed image: raw records and data areas, by section (R58 to R82). -/
structure Seed where
  image : List Byte := []
  seedId : List Byte := []
  flags : Nat := 0
  profile : List Byte := []
  allot : List (List Byte) := []
  axes : List (List Byte) := []
  cadences : List (List Byte) := []
  ports : List (List Byte) := []
  leaves : List (List Byte) := []
  leafData : List Byte := []
  patches : List (List Byte) := []
  patchData : List Byte := []
  models : List (List Byte) := []
  modelData : List Byte := []
  canvases : List (List Byte) := []
  canvasData : List Byte := []
  layers : List (List Byte) := []
  layerData : List Byte := []
  rasters : List (List Byte) := []
  cameras : List (List Byte) := []
  guests : List (List Byte) := []
  guestData : List Byte := []
  safety : List (List Byte) := []
  safetyData : List Byte := []
  groves : List (List Byte) := []
  deriving DecidableEq, Repr, Inhabited

/-- One source value of a layer at a canvas pixel (R145): linear R, G, B, alpha, and the NaN channel values met. -/
structure Src where
  r : Flt
  g : Flt
  b : Flt
  a : Flt
  nan : Nat := 0
  deriving DecidableEq, Repr, Inhabited

/-- A layer as a frame in composition draws it: its tree layer index, its opacity, its sources over the canvas and those of its absent
fill, row by row, and whether its fetch has met a Burl decode error (R155). -/
structure DrawnLayer where
  n : Nat
  opacity : Nat
  src : List (Option Src)
  fill : List (Option Src)
  bad : Bool
  deriving DecidableEq, Repr, Inhabited

/-- A composed canvas frame: its size, and one 64-bit word of four binary16 channels (R lowest) per pixel, row by
row; its index on the canvas's cadence and its epoch position on the canvas's governing axis. -/
structure CanvasFrame where
  width : Nat := 0
  height : Nat := 0
  pix : List Nat := []
  index : Nat := 0
  pos : Nat := 0
  /-- Composed under an alarm in force (R161). -/
  safety : Bool := false
  /-- Composition order in this trunk. -/
  id : Nat := 0
  /-- While it is composed: its layers, lowest first, and the heartwood content and its blocks that are black (R155, R157). -/
  drawn : List DrawnLayer := []
  hw : List Byte := []
  hwBad : List Nat := []
  deriving DecidableEq, Repr, Inhabited

/-- What a layer of a trunk keeps beside its registers (R154, R155). -/
structure LayerSt where
  /-- The previous surface's registers, from `CTRL` to `SURF_FORMAT`, while they are read. -/
  prev : Option (List Word) := none
  /-- A change with `await_ready` is committed, and `ready` has released it. -/
  awaiting : Bool := false
  released : Bool := false
  /-- The vertical tap cap in force for the layer, and its consecutive late epochs (R149, R154). -/
  cap : Nat := 8
  lateN : Nat := 0
  deriving DecidableEq, Repr, Inhabited

/-- The camera timing of a group for one epoch on its output's launch base (R126 to R128): the *open* its periods count
from, in raw units, the PWM period, the periods per camera frame, the shutter length, and the views; and on the line axis
the camera frame of that *open*, with the lines, phase and shutter that place its boundaries and windows. -/
structure CamShot where
  ax : Nat := 0
  frame : Int := 0
  lines : Nat := 0
  phase : Nat := 0
  exposure : Nat := 0
  anchor : Int := 0
  period : Nat := 0
  periods : Nat := 0
  shutter : Nat := 0
  views : Nat := 1
  deriving DecidableEq, Repr, Inhabited

/-- The work of one leaf for one epoch of its output (R12, R107): its tree leaf index (a partner's leaf from 2^24), the
intensities its patch sampled (R123), the report it uses and whether that is stale (R125), whether it is shed (R22), and
whether its work item has failed and is re-run (R95). -/
structure Job where
  leaf : Nat
  master : Nat := 0
  pint : Nat := 0
  temp : Option (Int × Bool) := none
  shed : Bool := false
  rerun : Bool := false
  /-- Stages 3 to 6 are done: the codes by view; a view without new codes is held. -/
  codes : Option (List (Option (List Nat))) := none
  /-- What that work began with, for a recompute (R301): the canvas frames its views sampled, and the trunk's residuals. -/
  frames : List (Option CanvasFrame) := []
  began : Tab Nat := []
  deriving DecidableEq, Repr, Inhabited

/-- The work of a trunk for one epoch of one output: the PORTS record, the epoch index, its position and axis, the launch
time in ns and its base (the record's; FREE where that one gives no time), the capture it follows, whether it is packed under the look, the camera timing of
each group, and its leaves. -/
structure PortJob where
  portRec : Nat := 0
  k : Nat := 0
  pos : Nat := 0
  ax : Nat := 0
  launch : Option Nat := none
  base : Nat := 17
  cap : Capture := {}
  look : Bool := false
  cams : List (Option CamShot) := []
  jobs : List Job := []
  deriving DecidableEq, Repr, Inhabited

/-- What a trunk keeps of an epoch of an output until its compare units have been compared or arbitrated (R301): the units' port code,
first sequence and number; the epoch's work with what each leaf began with; and the packed codes, waiting probes and fresh leaves its
packing began with. -/
structure EpochKept where
  code : Nat
  first : Nat
  count : Nat
  job : PortJob
  safety : Bool := false
  lastCodes : Tab (List Nat) := []
  heldCodes : Tab (List Nat) := []
  probeWait : List Nat := []
  fresh : List Nat := []
  deriving DecidableEq, Repr, Inhabited

/-- What a trunk keeps of a raster line until it has been compared or arbitrated (R301): its port code and sequence, its sample format,
the coefficients, and the signals read. -/
structure LineKept where
  code : Nat
  seq : Nat
  pixelFormat : Nat := 0
  full : Bool := false
  sdi : Bool := false
  k : Flt × Flt × Flt
  signals : List (Flt × Flt × Flt) := []
  deriving DecidableEq, Repr

/-- The state of one trunk beside its registers: dither residuals by (pixel slot * 8 + emitter) * 4 + view, last
packed codes by leaf * 4 + view, heartwood content by canvas * 2 + which, composed and composing canvas frames,
layers, and the work in hand. -/
structure TrunkSt where
  residuals : Tab Nat := []
  lastCodes : Tab (List Nat) := []
  /-- Codes last packed while no alarm was in force (R133, HOLD). -/
  heldCodes : Tab (List Nat) := []
  hw : Tab (List Byte) := []
  hwPend : Tab (List Byte) := []
  /-- Heartwood blocks written black in the next frame: (canvas, which, block of the content) (R157). -/
  hwBlack : List (Nat × Nat × Nat) := []
  frames : Tab (List CanvasFrame) := []
  composing : Tab (List CanvasFrame) := []
  nextId : Nat := 0
  layers : Tab LayerSt := []
  /-- The pool cap of the last commit that passed, and whether it is still to come into force (R149). -/
  capPend : Nat := 8
  capDue : Bool := false
  epochs : List PortJob := []
  /-- Leaves that start with residual 0 after a takeover or the loss of a SPLIT trunk (R132). -/
  fresh : List Nat := []
  /-- Canvases named by the commit being checked. -/
  commitMask : Nat := 0
  /-- Sap-line records whose probe waits for a gap that fits (R266). -/
  probeWait : List Nat := []
  /-- The safety frames of the alarm in force are packed (R161). -/
  safePacked : Bool := false
  /-- What activation places in the trunk's DRAM, at no stated address (R71, R89): the leaf records and calibration blocks by tree leaf
  index, and the models with their matrices. -/
  leafRecs : List (List Byte) := []
  cals : List (List Byte) := []
  models : List (List Byte × List Byte) := []
  /-- The patches that each of the seven working boughs works on (R89). -/
  workLists : List (List Nat) := []
  /-- Epochs and raster lines whose compare units have not all been compared or arbitrated (R301). -/
  kept : List EpochKept := []
  keptLines : List LineKept := []
  deriving DecidableEq, Repr, Inhabited

/-- A complete frame of an input port (R154): size, sampling, depth and kind, its samples plane by plane, its arrival tag, when it came
and the measured period on FREE. The spec names no address in trunk DRAM at which the root writes it. -/
structure InputSt where
  width : Nat := 0
  height : Nat := 0
  form : InputForm := {}
  data : List Nat := []
  tag : Nat := 0
  at_ : Nat := 0
  period : Nat := 0
  deriving DecidableEq, Repr, Inhabited

/-- An epoch of a generator that is not yet read (R187): its index, the launch time in ns, the frame period in ns as a fraction, and the
arrival tag it came under. -/
structure RastEpoch where
  k : Nat := 0
  launch : Nat := 0
  tfN : Nat := 1
  tfD : Nat := 1
  tag : Nat := 0
  deriving DecidableEq, Repr, Inhabited

/-- A raster frame as a generator reads it (R187 to R190): its number since activation, its epoch, the launch base and time and the frame
period in ns, the line that starts at the launch time, its timing and sample format, the canvas frame it reads, and whether it is
black. -/
structure RastFrame where
  n : Nat := 0
  k : Nat := 0
  tag : Nat := 0
  base : Nat := 17
  launch : Nat := 0
  tfN : Nat := 1
  tfD : Nat := 1
  off : Nat := 0
  vTotal : Nat := 1
  vStart : Nat := 0
  vActive : Nat := 0
  hTotal : Nat := 0
  hActive : Nat := 0
  pixelFormat : Nat := 0
  full : Bool := false
  transfer : Nat := 0
  canvas : Option (Nat × Nat) := none
  lineMatch : Nat := 0
  black : Bool := false
  deriving DecidableEq, Repr, Inhabited

/-- A raster generator of a trunk (R184 to R199). -/
structure RastSt where
  epochs : List RastEpoch := []
  cur : Option RastFrame := none
  line : Nat := 0
  frames : Nat := 0
  /-- The running source signature register. -/
  sig : Nat := 0xFFFFFFFF
  /-- Frames read, for the pad side, with their source signatures. -/
  done : List (RastFrame × Nat) := []
  /-- The next frame is the first in a new timing (R190, R197), and it starts no earlier than the last frame ends: that end, as launch
  base and ns. -/
  modeChange : Bool := true
  afterEnd : Bool := false
  lastEnd : Option (Nat × Nat) := none
  /-- Frames timed on FREE before the axis first locks (R190): when they began, in ns, and how many have begun. -/
  freeAt : Option (Nat × Nat) := none
  /-- The canvas frame the last frame read (R196). -/
  lastCanvas : Option (Nat × Nat) := none
  /-- The arrival tags of the commit in check and of the one that is pending; the latch passed since the last frame began: its tag and
  that frame (R195). -/
  commitTag : Nat := 0
  pendTag : Nat := 0
  latched : Option (Nat × RastFrame) := none
  deriving DecidableEq, Repr, Inhabited

/-- The root's side of a raster output: the raster queue by frame * 65,536 + line, the pad position, the running pad signature, the freeze
detector, the last scan position marked and the tags of latch marks by frame (R188, R192, R193, R200); the active words of the last
line of each SDI sub-image pair, for line CRCs, and the RTP packets sent (R201, R202). -/
structure RasterOut where
  queue : Tab (List Byte) := []
  frame : Nat := 0
  line : Nat := 0
  run : Nat := 0xFFFFFFFF
  padSig : Nat := 0
  srcSig : Nat := 0
  same : Nat := 0
  srcMoved : Bool := false
  mark : Option (Nat × Nat) := none
  latches : Tab Nat := []
  sdiPrev : Tab (List (List Nat)) := []
  rtpSeq : Nat := 0
  deriving DecidableEq, Repr, Inhabited

/-- An entry of a queue block (R355, R357). -/
structure QbEntry where
  data : List Byte := []
  sop : Bool := false
  eop : Bool := false
  err : Bool := false
  deriving DecidableEq, Repr, Inhabited

/-- A queue block (R355 to R359): its entries, pointers, whether the consumer has started a packet, since when the
stale-tail timer runs, producers' entries that wait for space, and the fill at the start of the cycle, on FREE, of its last change. -/
structure QbSt where
  entries : List QbEntry := []
  ptrW : Nat := 0
  ptrR : Nat := 0
  started : Bool := false
  since : Option Nat := none
  held : List QbEntry := []
  at_ : Nat := 0
  fill : Nat := 0
  deriving DecidableEq, Repr, Inhabited

/-- A task slot (R346): its state (0 FREE, 1 WAITING, 2 READY, 3 IN_SERVICE), event flags, wait mask and mode, target
(0 BRANCH, 1 SPARE, 2 + c vendor core c), atomic flow, line-store segments, when it became READY, whether it is aged,
and where it is in service (bough * 8 + branch, or 64 + core). -/
structure Task where
  state : Nat := 0
  flags : BitVec 64 := 0
  mask : BitVec 64 := 0
  any : Bool := false
  target : Nat := 0
  flow : Option Nat := none
  segs : Nat := 0
  readyAt : Nat := 0
  aged : Bool := false
  place : Nat := 0
  deriving DecidableEq, Repr, Inhabited

/-- What a scheduler has done in one fabric cycle, on FREE (R348, R350, R351): where it has dispatched tasks, the flows whose task has
completed, and the posts that have set a flag, as slot and flag. -/
structure SchedCyc where
  at_ : Nat := 0
  used : List Nat := []
  done : List Nat := []
  landed : List (Nat × Nat) := []
  deriving DecidableEq, Repr, Inhabited

/-- A trunk's scheduler (R346 to R354): task slots, the ready queue oldest first, held posts, and by branch or core
the FREE time since it is busy and the busy time of the present epoch; and the cycle in progress. -/
structure SchedSt where
  tasks : Tab Task := []
  ready : List Nat := []
  held : List (Nat × Nat) := []
  busySince : Tab Nat := []
  busy : Tab Nat := []
  epochAt : Nat := 0
  cyc : SchedCyc := {}
  deriving DecidableEq, Repr, Inhabited

/-- A trunk's interrupt controller beside its registers (R340 to R343): edges since the last claim by source, sources
in service with their core, sources in the guest cores' batches and the levels captured with them, moderation holds by
core * 16 + group with their end on FREE, when a source was masked last, and mask changes and route writes that wait for
the next capture. -/
structure IcuSt where
  edges : Tab Nat := []
  serving : List (Nat × Nat) := []
  batch : List Nat := []
  batchLevel : List Nat := []
  holds : Tab Nat := []
  maskAt : Tab Nat := []
  late : List (Bool × Nat × Word) := []
  /-- Routes from or to a guest core that wait for the capture, as shared source less 512 and target (R339). -/
  routes : List (Nat × Nat) := []
  deriving DecidableEq, Repr, Inhabited

/-- A guest core of a trunk (R328 to R337): program counter, integer registers, machine CSRs by number, instructions
retired since it started and since its batch, its batch's epoch count, `GCMP`, the reservation of LR, tightly coupled
RAM, posted register writes, the send request, and the actions asked for. -/
structure GuestSt where
  pc : Nat := 0
  x : Tab Word := []
  csr : Tab Word := []
  retired : Nat := 0
  inBatch : Nat := 0
  epoch : Nat := 0
  gcmp : Nat := 0xFFFFFFFFFFFFFFFF
  reserved : Option Nat := none
  tcm : List Host.Cell := []
  posted : List (Nat × Word) := []
  send : Bool := false
  /-- The registers of its trunk's range as its batch's capture found them (R331). -/
  seen : Tab Word := []
  haltReq : Bool := false
  resumeReq : Bool := false
  restartReq : Bool := false
  deriving DecidableEq, Repr, Inhabited

/-- A part of a RING message that waits for the other part (R325): the sender, the port, the frame's length and launch time,
which part it is, its bytes, and when it came. -/
structure RingPart where
  src : Nat
  port : Nat
  len : Nat
  launch : Nat
  second : Bool
  data : List Byte
  at_ : Nat
  deriving DecidableEq, Repr, Inhabited

/-- A check-value engine beside its registers (R404, R406): the end of the cycle in which it absorbs, and the bytes STRIP
holds back. -/
structure ChkSt where
  busyTo : Nat := 0
  tail : List Byte := []
  /-- The last write of `CFG` carried a reserved encoding. -/
  badCfg : Bool := false
  deriving DecidableEq, Repr, Inhabited

/-- A PTP instance and its time base (R272 to R285). -/
structure PtpSt where
  /-- `enable` is set and the stored configuration `cfg`, `intv`, `prio` is in effect. -/
  running : Bool := false
  cfg : Word := 0
  intv : Word := 0
  prio : Word := 0
  /-- The time base has started: its raw units, and the fraction in 2^-32. -/
  started : Bool := false
  base : Int := 0
  acc : Nat := 0
  /-- The rate correction and the servo's integral, in 2^-40; the rates taken while in SLAVE with their times, newest first. -/
  r : Int := 0
  integ : Int := 0
  rLog : List (Nat × Int) := []
  /-- The filtered path delay, and t2 - t1 - c of the most recent Sync. -/
  d : Option Int := none
  diff : Option Int := none
  /-- A two-step Sync that waits for its Follow_Up: sequence, t2, c; and a Delay_Req that waits: sequence, t3. -/
  two : Option (Nat × Int × Int) := none
  req : Option (Nat × Int) := none
  /-- Consecutive good samples (R281). -/
  good : Nat := 0
  /-- Announces by grandmaster with when the last came and how many have come in time; the one followed; the grandmaster
  last in use. -/
  foreign : List (PtpAnnounce × Nat × Nat) := []
  parent : Option PtpAnnounce := none
  gm : Option Nat := none
  lastAnn : Nat := 0
  lastSync : Nat := 0
  /-- Time of day has been set; seconds to set at the next valid pulse. -/
  tod : Bool := false
  todAt : Option Nat := none
  /-- Sequences of Announce, Sync and Delay_Req, and when the next of each leaves. -/
  annSeq : Nat := 0
  syncSeq : Nat := 0
  reqSeq : Nat := 0
  annNext : Nat := 0
  syncNext : Nat := 0
  reqNext : Nat := 0
  deriving DecidableEq, Repr, Inhabited

/-- The image store of one class (R418, R423 to R431): the running, previous and staged images with the digests the slot
directory keeps, the staging lock, and whether the running image is confirmed. Of the loader, `run` is the slot booted and
`prev` the other. -/
structure ImgSlots where
  run : List Byte := []
  runDig : List Byte := []
  prev : List Byte := []
  prevDig : List Byte := []
  staged : List Byte := []
  stagedDig : List Byte := []
  lock : Bool := false
  confirmed : Bool := true
  deriving DecidableEq, Repr, Inhabited

/-- An armed activation (R424 to R427): axis and 96-bit position, the image's digest, whether it is a fallback, the command
that holds its reply (channel and tag), whether it is prepared, and in a grove the trees that have acknowledged, whether this
tree has, and whether it holds GO. -/
structure Armed where
  axis : Nat := 17
  pos : Nat := 0
  digest : List Byte := []
  fallback : Bool := false
  replyTo : Option (Nat × Nat) := none
  prepared : Bool := false
  acks : List Nat := []
  acked : Bool := false
  go : Bool := false
  deriving DecidableEq, Repr, Inhabited

/-- A BIST run (R448, R449): kind, trunk and index of its region, the command that holds its reply, and its end on FREE. -/
structure BistRun where
  kind : Nat
  trunk : Nat
  index : Nat
  chan : Nat
  tag : Nat
  endAt : Nat
  deriving DecidableEq, Repr, Inhabited

/-- A calibration run (R452, R453): item, index and declared skew, the command that holds its reply, its start on FREE, the
samples taken, their sums for egress and ingress, the sap-line phases seen with bit errors, and the values it replaces. -/
structure CalRun where
  item : Nat
  index : Nat
  skew : Int
  chan : Nat
  tag : Nat
  start : Nat
  n : Nat := 0
  sumE : Int := 0
  sumI : Int := 0
  phases : List Nat := []
  oldE : Nat := 0
  oldI : Nat := 0
  deriving DecidableEq, Repr, Inhabited

/-- Firmware, seeds and loaders: where they are stored, and their activation and confirmation. -/
structure UpdSt where
  /-- The image store by class: 0 loader, 1 firmware, 2 seed (R418, R419); armed activations; the ends of confirm windows on
  FREE; classes that a host has confirmed (R424 to R431). -/
  store : Tab ImgSlots := []
  armed : Tab Armed := []
  confirmEnd : Tab Nat := []
  hostOk : List Nat := []
  /-- Classes whose running image has had what every fallback does (R431). -/
  fellBack : List Nat := []
  /-- Trees whose health the master knows, and whether this tree has reported its own (R429). -/
  groveWell : List Nat := []
  healthSent : Bool := false
  /-- FREE of the last break of seed health, and since when each trunk is in service (R428, R429). -/
  lastIll : Nat := 0
  trunkUp : Tab Nat := []
  /-- Layout of persistent state of the running firmware, and of the firmware before a switch (R419, R425). -/
  fwFormat : Nat := 0
  fwFormatOld : Nat := 0
  deriving DecidableEq, Repr, Inhabited

/-- The ring record. -/
structure RecSt where
  /-- The ring record (R435 to R439): events by slot, snapshots by freeze slot, the first index of each segment, whether events
  were lost before the next one written; settings slots and the safety seed's image. -/
  events : Tab (List Byte) := []
  snaps : Tab (List Byte) := []
  segStart : Tab Nat := []
  lost : Bool := false
  setSlots : Tab (List Byte) := []
  safetyImage : List Byte := []
  deriving DecidableEq, Repr, Inhabited

/-- Life-cycle, self-test, calibration, temperature and power. -/
structure LifeSt where
  /-- The life-cycle fuses (R443: 0 BLANK, 1 MAKE, 2 FIELD, 4 SCRAP), SERVICE, and the pending owner key (R446). -/
  fuse : Nat := 1
  service : Bool := false
  pendKey : Option (List Byte) := none
  /-- A self-test in progress, and regions held disabled after one: kind, trunk and index (R448, R449). -/
  bist : Option BistRun := none
  bistHeld : List (Nat × Nat × Nat) := []
  /-- Calibrations, the first of them in progress, and the baseplate temperature of each item's calibration, by item * 256 +
  index (R452 to R454). -/
  cals : List CalRun := []
  calTemp : Tab Int := []
  /-- By trunk, FREE of the last online lane error; by trunk * 8 + bough, consecutive failed vector passes (R450, R451). -/
  laneErrAt : Tab Nat := []
  vecFails : Tab Nat := []
  /-- FREE since when the baseplate is below 95 degrees, and since when the dies are below 100 too; the module is off above
  120 degrees (R21, R474). -/
  coolSince : Option Nat := none
  diesCool : Option Nat := none
  tooHot : Bool := false
  /-- A throttle is decided and not yet released (R21). -/
  hot : Bool := false
  /-- Check codes have found a fault in the compare stage or the switch core since the last reset (R326). -/
  moduleFault : Bool := false
  /-- RESET_N is held low (R465). -/
  resetLow : Bool := false
  /-- FREE when AUX_12V turned off on overload (R462). -/
  auxOffAt : Option Nat := none
  deriving DecidableEq, Repr, Inhabited

/-- What the fabric cycle in progress has seen (R4, R57, R123, R309): bits the hardware has set, by register address; the words that registers
whose new value acts later held when the cycle began; the scheduled writes issued; and the active trunk's report. A cycle ends at a tick. -/
structure CycSt where
  sets : Tab Nat := []
  /-- By the register of a `valid` bit, the register words that hold this cycle's error if `valid` is cleared in it (R115, R413). -/
  again : Tab (List (Nat × Nat)) := []
  old : Tab Word := []
  issued : Nat := 0
  /-- The cause for which the active trunk has reported an error while copies are compared (R309): it yields as the cycle ends. -/
  report : Option Nat := none
  deriving DecidableEq, Repr, Inhabited

/-- Why a step stops with a fault. The spec names no stop of the module: no meaning of this model raises one. -/
inductive Fault where
  /-- Never raised: the type must be inhabited. Safe, since no step answers it. -/
  | none
  deriving DecidableEq, Repr

/-- Why a command has no meaning. -/
inductive Refusal where
  /-- The command of that mnemonic has no meaning in this model yet. Safe: no claim about it can be proved. -/
  | notModelled (mnemonic : String)
  deriving DecidableEq, Repr

/-- Twin trunks: units on their way, arbitration, test and rejoin, and requests for the next tree epoch. -/
structure TwinSt where
  /-- Units each trunk has handed over and the root has not yet received, by trunk; and the count of units handed
  over per port code (R302). -/
  outbox : Tab (List CUnit) := []
  handed : Tab Nat := []
  /-- First copies waiting (R303), units under arbitration, and units that wait for the next round (R308). -/
  waiting : List HeldCopy := []
  arb : List ArbUnit := []
  arbWait : List ArbUnit := []
  /-- Verdicts on the units of the round in progress that are decided: the trunk that yields and its cause, where cause 0 is
  an input divergence; and the unit's port code and sequence. -/
  arbDone : List (Option (Trunk × Nat) × Nat × Nat) := []
  /-- Copies still to come of units already let out or decided: trunk, code and sequence. They are dropped. -/
  dropCopies : List (Nat × Nat × Nat) := []
  /-- Fail-overs within the latch window, and divergences by trunk, as FREE times (R315, R316). -/
  foTimes : List Nat := []
  divTimes : Tab (List Nat) := []
  /-- By trunk: consecutive TEST failures, and when TEST runs again (0: it runs or has not failed) (R296). -/
  testFails : Tab Nat := []
  retryAt : Tab Nat := []
  /-- Trunks that have passed TEST, finished the seed load, and are ready, in that order (R415). -/
  tested : List Nat := []
  loaded : List Nat := []
  ready : List Nat := []
  /-- When the resynchronisation phase in progress began (R312). -/
  resyncAt : Nat := 0
  /-- The trunk in hold-off (R313), and requests for the next tree epoch: role exchange (R297), SPLIT hand-back
  (R314), park (R447) and the park of R450. -/
  holdTrunk : Option Trunk := none
  swapReq : Bool := false
  backReq : List Nat := []
  parkReq : List Nat := []
  vecPark : List Nat := []
  /-- SPLIT: trunks whose KEEP leaves the survivor carries (R298), and those of them that fit its budget (R25). -/
  adopted : List Nat := []
  adoptedLeaves : List Nat := []
  /-- The trunks have left DOWN since the last reset (R415). -/
  started : Bool := false
  /-- Trunks that compute from the next tree epoch (R298). -/
  startNext : List Nat := []
  /-- FREE times of recent replays of a trunk-root lane, by trunk, direction and lane (R305). -/
  laneReplays : Tab (List Nat) := []
  /-- Copies that arrived while the ETC hold was in force (R304). -/
  etcHeld : List (Trunk × CUnit × Nat) := []
  /-- The move of the spare role waits for the arbitration in progress to end (R9). -/
  sparePend : Bool := false
  deriving DecidableEq, Repr, Inhabited

/-- The graft bridge. -/
structure BridgeSt where
  /-- The graft bridge: transactions in the order they arrived, the next tag, the count of requests by trunk * 8 + initiator,
  copies that wait, requests issued without the copy of a trunk (trunk, initiator, count), the prefetch and windfall buffers,
  oldest first, and leaves that proved an attribute wrong (R366 to R374). -/
  grafts : List GraftTx := []
  graftTag : Nat := 0
  graftCnt : Tab Nat := []
  graftCopies : List GraftCopy := []
  graftSolo : List (Nat × Nat × Nat) := []
  prefetch : List Fetched := []
  windfalls : List Fetched := []
  attrWrong : List Nat := []
  graftOut : List GraftOutcome := []
  /-- The enabled tunnels that carry frames, in the order enabled (R377). -/
  tunLive : List Nat := []
  deriving DecidableEq, Repr, Inhabited

/-- Grove links and the pair. -/
structure GroveSt where
  /-- Tree leaf indexes of the partner's leaves this tree carries after a takeover (R321). -/
  takenLeaves : List Nat := []
  /-- Grove links (R320 to R325): when the partner's last HEARTBEAT came and its seed, whether one came since this tree's last,
  when this tree sends next, and the partner is lost. -/
  hbLast : Nat := 0
  hbSeed : Nat := 0
  hbSeen : Bool := false
  hbNext : Nat := 0
  partnerGone : Bool := false
  /-- This tree has returned and does not emit yet (R322); the epochs of its hold-off; the hand-back epoch proposed or
  agreed. -/
  returning : Bool := false
  returnLeft : Nat := 0
  backK : Option Nat := none
  ringParts : List RingPart := []
  deriving DecidableEq, Repr, Inhabited

/-- The safety alarm and the root safety packer. -/
structure SafeSt where
  /-- PORTS records whose first safety frames have still to launch; none once SAFE_ACK stands or no alarm (R166). -/
  ackWait : Option (List Nat) := none
  /-- When the alarm in force came into force (FREE raw units), and the safety capture's tag (R161). -/
  alarmAt : Nat := 0
  alarmTag : Nat := 0
  /-- *A* + 1 ms on each launch base that had a position in cycle *A*, in ns (R161). -/
  alarmLaunch : Tab Nat := []
  /-- A release acts at the next epoch of each canvas and output (R165): FREE when it was made, and its arrival tag. -/
  releasedAt : Nat := 0
  releasedTag : Nat := 0
  /-- The loop samples that agree: class and count, for loops A and B (R159). -/
  loopRun : List (Nat × Nat) := [(0, 0), (0, 0)]
  /-- FREE since when the evaluation has read No (R165). -/
  evalNoSince : Nat := 0
  /-- When the root's safety packer sends next (R163). -/
  packerNext : Nat := 0
  /-- Safety frames the root's packer or a trunk has packed under the present alarm, by port record. -/
  safetySeq : Nat := 0
  deriving DecidableEq, Repr, Inhabited

/-- Stem channels. -/
structure StemSt where
  /-- Replies written, held WATCHes by channel, and commands in progress (R390, R391, R398). -/
  replies : List Reply := []
  watches : Tab Watch := []
  flights : List Flight := []
  /-- Commands started by each ring since it was enabled (R388); rings that an error stopped in this cycle, whose ATTN_FAULT
  is still to be raised. -/
  started : Tab Nat := []
  stopped : List Nat := []
  /-- Stem commands that wait to start, oldest first: the channel, `fence`, and the command (R391). -/
  stemWait : List (Nat × Bool × Instr) := []
  /-- UDP sessions, and chunked objects in progress by opcode (R395, R396). -/
  sessions : Tab Session := []
  chunks : Tab ChunkObj := []
  deriving DecidableEq, Repr, Inhabited

/-- The state of one tree (one DGP-416 module). -/
structure State where
  /-- Commands waiting, first in, first out: the model's own queue. -/
  pending : List Instr := []
  /-- The module is unpowered or held in reset: every other command waits for PWR_GOOD or RESET_N. -/
  held : Bool := true
  /-- FREE, in 2^-16 ns since the first root ROM boot after PWR_GOOD (R31, R272). -/
  free : Nat := 0
  /-- The model's own counter: how many free values have been drawn. -/
  freeCtr : Nat := 0
  /-- The fabric cycle in progress: the model's own record of what R4, R57 and R123 say of one cycle. -/
  cyc : CycSt := {}
  /-- Registers that differ from their reset word, by tree address (R53 ...). -/
  regs : Tab Word := []
  /-- Pending and active copies of shadow registers, by the shadow register's address (R151, R194). -/
  pend : Tab Word := []
  act : Tab Word := []
  /-- Upper words latched by a read of a `_LO` word, by the upper word's address (R54). -/
  latch : Tab Word := []
  /-- The words the last register read returned. -/
  rdata : List Word := []
  /-- Arrival tags given out by the root (R13). -/
  tag : Nat := 0
  axes : Tab AxisSt := []
  capture : Capture := {}
  /-- Relations as last fitted (R50), by follower axis: (a_num, a_den, b). -/
  rels : Tab (Int × Int × Int) := []
  /-- Scheduled writes waiting to be issued, in R44 order (R57). -/
  schedQ : List (Nat × Word) := []
  /-- The frame counters of canvases, outputs and rasters (R46), by epoch key. -/
  frameCnt : Tab Nat := []
  /-- The index of the last cadence point each follower of a cadence has passed (R45, R46), by epoch key. -/
  cadence : Tab Nat := []
  /-- The last epoch of a follower passed more than one point: its LATE (R46), by epoch key. -/
  epochLate : Tab Bool := []
  /-- Events waiting to be written to the ring record (R437). -/
  events : List Event := []
  /-- A firmware switch is in progress: Stem commands start after it (R425). -/
  fwSwitch : Bool := false
  sent : List Sent := []
  /-- The status pads (R470): SAFE_ACK is closed; HEALTH, FAULT_N and PWR_GOOD are high. FAULT_N reads high on an unpowered
  module. -/
  padSafeAck : Bool := false
  padHealth : Bool := false
  padFaultN : Bool := true
  padPwrGood : Bool := false
  /-- Egress and receive side of the 58 Ethernet ports, the DMX512 ports, the sap lines, and the sap diagnostic
  records by line * 1,024 + node (R212, R242, R248, R269). -/
  ports : Tab PortSt := []
  dmx : Tab DmxSt := []
  saps : Tab SapSt := []
  diag : Tab (List Byte) := []
  /-- The temperature reports of a leaf, by tree leaf index, newest first (R125): 0.01 degrees, its arrival tag, and FREE
  when it was delivered; and a sap-line node's, by line * 1,024 + node. -/
  leafTemp : Tab (List (Int × Nat × Nat)) := []
  nodeTemp : Tab (List (Int × Nat × Nat)) := []
  /-- The status and channel codes a leaf's RETURN frames last gave (R237). -/
  leafStatus : Tab (Nat × List Nat) := []
  /-- The switch's address table: (group, address, port) in the order learned (R210). -/
  swTable : List SwEntry := []
  /-- Residence times waiting for a Follow_Up (R286): egress port, domain and source port identity with sequence, the
  residence in 2^-16 ns, and when it was taken. -/
  tcSync : List (Nat × List Byte × Nat × Nat) := []
  /-- PTP instances, and the peer delay measured by port (R278, R286). -/
  ptps : Tab PtpSt := []
  peerDelay : Tab Int := []
  /-- When the switch next sends Pdelay_Req, on FREE, and its sequence (R286). -/
  pdelayNext : Nat := 0
  pdelaySeq : Nat := 0
  /-- REF_PPS_IN: FREE of the last edge and of the last valid one, consecutive edges 1 s apart, and when it was lost after being valid
  (R282). -/
  ppsLast : Nat := 0
  ppsGood : Nat := 0
  ppsRun : Nat := 0
  ppsLostAt : Option Nat := none
  /-- The second at which REF_PPS_OUT last rose (R289). -/
  ppsOut : Option Nat := none
  /-- The settings body in use (R432, R433). -/
  settingsBody : List Byte := []
  /-- E1.31 universes sent, and the sources of each universe received. -/
  e131tx : Tab E131Tx := []
  e131rx : Tab (List E131Src) := []
  /-- Inputs as the epoch capture takes them (R241, R245): E1.31 universes and DMX512 inputs. -/
  capE131 : Tab (List Byte) := []
  capDmx : Tab (List Byte) := []
  /-- Trunk, root and host memory by tree address (R380): rising addresses, no entry that reads 0. -/
  mem : List Host.Cell := []
  /-- The two trunks, by index. -/
  trunks : Tab TrunkSt := []
  inputs : Tab (List InputSt) := []
  /-- Raster generators by trunk * 8 + number, and the root's side of each output. -/
  rasters : Tab RastSt := []
  rasterOut : Tab RasterOut := []
  /-- Leaves shed for the present tree epoch, and the thinning factor of each trunk (R22, R23). -/
  shedLeaves : List Nat := []
  thin : List Nat := [1, 1]
  /-- The safety seed in the ring record, and its image (R416). -/
  safetySeed : Option Seed := none
  /-- Check-value engines: of the root by number, of trunk t at 16 * (t + 1) + number (R401). -/
  chk : Tab ChkSt := []
  /-- Corrected words by die * 16 + memory kind (R411): the count since the last event, when that was, and the unit and
  address of the last; and when the scrubber's pass of a die began (R410). -/
  eccSeen : Tab (Nat × Option Nat × Nat × Nat) := []
  scrubAt : Tab Nat := []
  /-- The root's copies of accepted heartwood writes, by canvas * 2 + which (R158). -/
  hwCopy : Tab (List Byte) := []
  /-- Queue blocks: of the root by number, of trunk t at 1,000 * (t + 1) + number (R362). -/
  qbs : Tab QbSt := []
  /-- Schedulers and interrupt controllers by trunk, guest cores by trunk * 2 + (core - 6). -/
  scheds : Tab SchedSt := []
  icus : Tab IcuSt := []
  guests : Tab GuestSt := []
  /-- The tree's grove position, from its settings (R83). -/
  grovePos : Nat := 0xFF
  /-- Points skipped are counted once for a cadence (R46): the last index counted, by cadence. -/
  skipSeen : Tab Nat := []
  /-- The parts of the module with state of their own: twin trunks, graft bridge, grove links, alarm, Stem channels, images and
  their activation; the ring record; the life-cycle, self-test, calibration and power of the module. -/
  twin : TwinSt := {}
  bridge : BridgeSt := {}
  grove : GroveSt := {}
  safe : SafeSt := {}
  stem : StemSt := {}
  upd : UpdSt := {}
  ring : RecSt := {}
  life : LifeSt := {}
  /-- The running seed (R89). -/
  seed : Option Seed := none
  deriving DecidableEq, Repr

/-- The machine before power: every register at its reset word, memory with nothing listed, PWR_GOOD low. -/
def State.reset : State := {}

end Sys2Proof.Machine
end

