-- ==== Sys2Proof/Machine/Ops.lean ====
section
/-! DEFINITION. The named operations over registers, memory, attention, events and time that every meaning uses. -/

namespace Sys2Proof.Machine

/-! ### Bits of a word -/

/-- Bits `lo` to `lo + len - 1` of `x`. -/
def getBits (x lo len : Nat) : Nat := x / 2 ^ lo % 2 ^ len

/-- `x` with bits `lo` to `lo + len - 1` replaced by `v`. -/
def setBits (x lo len v : Nat) : Nat :=
  x % 2 ^ lo + 2 ^ lo * (v % 2 ^ len + 2 ^ len * (x / 2 ^ lo / 2 ^ len))

/-- Little-endian bytes of `x` (R2). -/
def leBytes : Nat → Nat → List Byte
  | 0, _ => []
  | n + 1, x => BitVec.ofNat 8 x :: leBytes n (x / 256)

/-- The number little-endian bytes spell (R2). -/
def ofLe : List Byte → Nat
  | [] => 0
  | b :: r => b.toNat + 256 * ofLe r

/-- The number big-endian bytes spell. -/
def ofBe (l : List Byte) : Nat := l.foldl (fun a b => a * 256 + b.toNat) 0

/-- Big-endian bytes of `x`. -/
def beBytes (n x : Nat) : List Byte := (leBytes n x).reverse

/-- The `n` bytes of `l` from offset `o`. -/
def slice (l : List Byte) (o n : Nat) : List Byte := (l.drop o).take n

/-- Unsigned little-endian fields of a record. -/
def u8 (l : List Byte) (o : Nat) : Nat := ofLe (slice l o 1)
def u16 (l : List Byte) (o : Nat) : Nat := ofLe (slice l o 2)
def u32 (l : List Byte) (o : Nat) : Nat := ofLe (slice l o 4)
def u64 (l : List Byte) (o : Nat) : Nat := ofLe (slice l o 8)

/-- The signed reading of an `n`-bit number. -/
def signed (n x : Nat) : Int := if 2 * (x % 2 ^ n) < 2 ^ n then (x % 2 ^ n : Nat) else (x % 2 ^ n : Nat) - 2 ^ n

/-- The `n`-bit two's complement code of an integer. -/
def unsigned (n : Nat) (x : Int) : Nat := (x % (2 ^ n : Nat)).toNat

/-- `x` held to at most `hi`. -/
def satTo (hi x : Nat) : Nat := min hi x

/-! ### Register tables -/

/-- The index part of `a` from `base` under index ranges `dims` lands on a register exactly. -/
def dimsHit : List (Nat × Nat) → Nat → Bool
  | [], d => d == 0
  | (cnt, stride) :: r, d => d / stride < cnt && dimsHit r (d % stride)

/-- The row of `rows` that holds offset `off`. -/
def rowIn (rows : List RegRow) (off : Nat) : Option RegRow :=
  rows.find? (fun r => r.off ≤ off && dimsHit r.dims (off - r.off))

/-- The field map of the register at tree address `a`, by its own range; none where no block occupies it (R381).
The twin alias is resolved before this (R383). -/
def regRow (a : Nat) : Option RegRow :=
  if a < 0x1000000 then rowIn (rootRows (a / 0x10000)) a
  else if a < 0x3000000 then
    let off := a % 0x1000000
    if trkPintRow.off ≤ off && dimsHit trkPintRow.dims (off - trkPintRow.off) then some trkPintRow
    else rowIn (trunkRows (off / 0x10000)) off
  else none

/-- The word of a field map's reset values. -/
def RegRow.resetNat (r : RegRow) : Nat := r.flds.foldl (fun w f => w + f.rst * 2 ^ f.lo) 0

/-- R338: sources whose `guest_ok` reads 1. -/
def guestOkSource (s : Nat) : Bool :=
  512 ≤ s && s < 954 || 960 ≤ s && s < 964

/-- Reset values that depend on the unit's number: `host_owned` of R401 and `guest_ok` of R338. -/
def indexedReset (a : Nat) : Nat :=
  if a = Reg.chkStatus 6 ∨ a = Reg.chkStatus 7 then 2 ^ 31
  else if a % 0x1000000 / 0x800 = 0x101 ∧ 0x1000000 ≤ a ∧ guestOkSource (512 + a % 0x800 / 4) then 2 ^ 31
  else 0

/-- The word of a register at reset. -/
def resetWord (a : Nat) : Word :=
  match regRow a with
  | none => 0
  | some r => BitVec.ofNat 32 (r.resetNat + indexedReset a)

/-! ### Positions and event codes (R30, R31, R436) -/

/-- R436: the status-bit form of an event: the code of bit `f.lo` of its register. -/
def statusCode (f : Field) : Nat := 0x8000 + f.addr % 0x10000 / 4 % 1024 * 32 + f.lo

/-- Indexes 0 to 3 and 17 are time axes (R29). -/
def isTimeAxis (n : Nat) : Bool := n < 4 || n == 17

/-- One second in raw units of a time axis. -/
def second : Nat := 65536000000000

/-- R30: the 96-bit form of a raw position. -/
def posForm (n raw : Nat) : Nat :=
  if isTimeAxis n then raw / second * 2 ^ 48 + raw % second else raw % 2 ^ 96

/-- R31: a 96-bit position is canonical on its axis. -/
def canonical (n p : Nat) : Bool := !isTimeAxis n || p % 2 ^ 48 / 65536 < 1000000000

/-- The raw units a 96-bit position names. -/
def posRaw (n p : Nat) : Nat :=
  if isTimeAxis n then p / 2 ^ 48 * second + p % 2 ^ 48 else p

namespace State

/-! ### Registers -/

/-- The stored word of the register at tree address `a`. -/
def reg (s : State) (a : Nat) : Word :=
  match s.regs.find? a with
  | some w => w
  | none => resetWord a

/-- The stored word as a number. -/
def regN (s : State) (a : Nat) : Nat := (s.reg a).toNat

/-- Stores the word of the register at tree address `a`. -/
def setReg (s : State) (a : Nat) (w : Word) : State := { s with regs := s.regs.set a w }

/-- Stores a number as a register word. -/
def setRegN (s : State) (a v : Nat) : State := s.setReg a (BitVec.ofNat 32 v)

/-- A field of a register. -/
def fget (s : State) (f : Field) : Nat := getBits (s.regN f.addr) f.lo f.len

/-- A one-bit field reads 1. -/
def fbit (s : State) (f : Field) : Bool := s.fget f != 0

/-- R4: the bits that a value sets count as set in this fabric cycle. -/
def noteSet (s : State) (f : Field) (v : Nat) : State :=
  { s with cyc.sets := if v = 0 then s.cyc.sets else s.cyc.sets.set f.addr (s.cyc.sets.get 0 f.addr ||| v % 2 ^ f.len * 2 ^ f.lo) }

/-- R115, R413: an error of this cycle that found its `valid` bit set, as the words it would leave. -/
def keepAgain (s : State) (a : Nat) (l : List (Nat × Nat)) : State :=
  { s with cyc.again := if (s.cyc.again.find? a).isSome then s.cyc.again else s.cyc.again.set a l }

/-- The hardware sets a field. -/
def fset (s : State) (f : Field) (v : Nat) : State :=
  (s.noteSet f v).setRegN f.addr (setBits (s.regN f.addr) f.lo f.len v)

/-- The hardware sets a one-bit field. -/
def fsetB (s : State) (f : Field) (b : Bool) : State := s.fset f b.toNat

/-- A counter register takes `n` more events; counters saturate at 0xFFFF_FFFF. -/
def bumpBy (s : State) (a n : Nat) : State := s.setRegN a (satTo 0xFFFFFFFF (s.regN a + n))

/-- A counter register counts one event. -/
def bump (s : State) (a : Nat) : State := s.bumpBy a 1

/-- A field keeps the largest value it has shown. -/
def fmax (s : State) (f : Field) (v : Nat) : State := if s.fget f < v then s.fset f v else s

/-- A register keeps the largest value it has shown. -/
def regMax (s : State) (a v : Nat) : State := if s.regN a < v then s.setRegN a (satTo 0xFFFFFFFF v) else s

/-- A pair of registers holds a 64-bit number, `_LO` first (R381). -/
def setReg64 (s : State) (lo hi v : Nat) : State := (s.setRegN lo v).setRegN hi (v / 2 ^ 32)

/-- Three registers hold a 96-bit position (R30). -/
def setReg96 (s : State) (lo mid hi v : Nat) : State :=
  ((s.setRegN lo v).setRegN mid (v / 2 ^ 32)).setRegN hi (v / 2 ^ 64)

/-- The 96-bit number of three registers. -/
def reg96 (s : State) (lo mid hi : Nat) : Nat := s.regN lo + 2 ^ 32 * s.regN mid + 2 ^ 64 * s.regN hi

/-! ### Shadow registers (R151, R194) -/

/-- The active copy of a shadow register. -/
def actReg (s : State) (a : Nat) : Word := s.act.get (resetWord a) a
/-- The pending copy. -/
def pendReg (s : State) (a : Nat) : Word := s.pend.get (resetWord a) a
/-- A field of the active copy. -/
def aget (s : State) (f : Field) : Nat := getBits (s.actReg f.addr).toNat f.lo f.len
def pget (s : State) (f : Field) : Nat := getBits (s.pendReg f.addr).toNat f.lo f.len
/-- The shadow copy becomes the pending copy. -/
def shadowToPend (s : State) (as : List Nat) : State := { s with pend := as.foldl (fun p a => p.set a (s.reg a)) s.pend }
/-- The pending copy becomes the active copy. -/
def pendToAct (s : State) (as : List Nat) : State := { s with act := as.foldl (fun p a => p.set a (s.pendReg a)) s.act }
/-- Seed activation loads all three copies. -/
def setShadow (s : State) (a v : Nat) : State :=
  let w := BitVec.ofNat 32 v
  { s.setReg a w with pend := s.pend.set a w, act := s.act.set a w }

/-! ### Trunks -/

/-- R296: the state code of a trunk. -/
def trunkState (s : State) (t : Trunk) : Nat :=
  match t with
  | .a => s.fget Reg.CmpStatus.stateA
  | .b => s.fget Reg.CmpStatus.stateB

/-- R296: in service in STANDBY (3) and ACTIVE (4). -/
def inService (s : State) (t : Trunk) : Bool := s.trunkState t == 3 || s.trunkState t == 4

/-- R26: the seed's redundancy mode: 0 TWIN, 1 SIMPLEX, 2 SPLIT. -/
def redundancy (s : State) : Nat := s.fget Reg.TreeMode.redundancy

/-- R296, R298: the trunk computes: ACTIVE, or STANDBY under TWIN; one that took the role waits for a tree epoch, and none
computes during a firmware switch (R425). -/
def computes (s : State) (t : Trunk) : Bool :=
  (s.trunkState t == 4 || s.trunkState t == 3 && s.redundancy == 0) && !s.twin.startNext.contains t.idx && !s.fwSwitch

/-- R161, R165: the alarm is in force and latched. -/
def alarmOn (s : State) : Bool := s.fbit Reg.TreeSafeStatus.alarm

/-- R383: alias writes reach trunks in service or IDLE. -/
def mirrored (s : State) (t : Trunk) : Bool := s.inService t || s.trunkState t == 5

/-- R383: a trunk's own range is closed while it is DOWN or TEST. -/
def trunkClosed (s : State) (t : Trunk) : Bool := s.trunkState t == 0 || s.trunkState t == 1

/-- The trunk that `active_trunk` names (R26). -/
def activeTrunk (s : State) : Trunk := if s.fbit Reg.TreeMode.activeTrunk then .b else .a

/-- No trunk is in service. -/
def noTrunk (s : State) : Bool := !s.inService .a && !s.inService .b

/-- R26: both trunks in service and frames compared. -/
def compareActive (s : State) : Bool := s.fbit Reg.TreeMode.compareActive

/-- R13: the next arrival tag. -/
def nextTag (s : State) : State := { s with tag := s.tag + 1 }

/-- Applies an update for each trunk that satisfies a test, A first. -/
def onTrunks (s : State) (p : State → Trunk → Bool) (f : Trunk → State → State) : State :=
  let s := if p s .a then f .a s else s
  if p s .b then f .b s else s

/-- R125: a temperature report joins those that still matter: every one the present capture precedes, and the newest one
before it. -/
def addReport (s : State) (l : List (Int × Nat × Nat)) (temp : Int) : List (Int × Nat × Nat) :=
  (temp, s.tag, s.free) :: (l.filter (fun x => decide (s.capture.tag ≤ x.2.1)) ++ (l.filter (fun x => decide (x.2.1 < s.capture.tag))).take 1)

/-! ### Free values -/

/-- Draws the next free value below `n` (n > 0): a value the spec leaves open. -/
def draw (s : State) (n : Nat) : Nat × State :=
  (Config.freeNat s.freeCtr % n, { s with freeCtr := s.freeCtr + 1 })

/-! ### Logs -/

/-- An item leaves the module. -/
def emit (s : State) (x : Sent) : State := { s with sent := s.sent ++ [x] }

/-! ### Axes and time -/

/-- The running seed's epoch axis; FREE before any seed runs (R48, R436). -/
def epochAxis (s : State) : Nat :=
  match s.seed with
  | some d => u8 d.profile 8
  | none => 17

/-- The axis record. -/
def axis (s : State) (n : Nat) : AxisSt := s.axes.get {} n

def setAxis (s : State) (n : Nat) (a : AxisSt) : State := { s with axes := s.axes.set n a }

/-- R35: the state code of an axis; FREE reads LOCKED from ROM boot. -/
def axisState (s : State) (n : Nat) : Nat := s.fget (Reg.AxisStatus.state n)

/-- LOCKED or HOLDOVER: the axis has a position (R54). -/
def hasPos (s : State) (n : Nat) : Bool := s.axisState n == 2 || s.axisState n == 3

/-- R54: the position of an axis; 0 in OFF and SEEKING. -/
def axisPos (s : State) (n : Nat) : Nat :=
  if n = 17 then (if s.hasPos 17 then s.free else 0)
  else if s.hasPos n then (s.axis n).pos else 0

/-- FREE `n` seconds from now. -/
def inSeconds (s : State) (n : Nat) : Nat := s.free + n * second

/-- `n` seconds have passed since an instant, where there is one. -/
def waited (s : State) (o : Option Nat) (n : Nat) : Bool := o.any (fun t => decide (t + n * second ≤ s.free))

/-- FREE in ns. -/
def freeNs (s : State) : Nat := s.free / 65536

/-! ### Events (R436, R437) -/

/-- An event enters the queue, or is dropped and counted when 4,096 wait (R437). -/
def pushEvent (s : State) (e : Event) : State :=
  let ax := if s.hasPos s.epochAxis then s.epochAxis else 17
  let e := { e with freeNs := s.freeNs, axis := ax, pos := posForm ax (s.axisPos ax) }
  if s.events.length < 4096 then { s with events := s.events ++ [e] }
  else { (s.bump Reg.recLostCnt).fset Reg.RecStatus.lost 1 with ring := { s.ring with lost := true } }

/-- An event of a root block: `base` is its block base (R436 `source`). -/
def rootEvent (s : State) (base code cls : Nat) (args : List Byte) : State :=
  s.pushEvent { die := 0, block := base / 0x1000, code := code, cls := cls, args := args }

/-- An event of a trunk block at `base` within the trunk's range. -/
def trunkEvent (s : State) (t : Trunk) (base code cls : Nat) (args : List Byte) : State :=
  s.pushEvent { die := t.idx + 1, block := base / 0x1000, code := code, cls := cls, args := args }

/-- R480: an event that names the status bit `f`. -/
def statusEvent (s : State) (f : Field) (cls : Nat) : State :=
  s.pushEvent { die := f.addr / 0x1000000, block := f.addr % 0x1000000 / 0x10000 * 16, code := statusCode f, cls := cls, args := leBytes 4 f.addr }

/-- A status bit sets and its event is written. -/
def flag (s : State) (f : Field) (cls : Nat) : State := (s.fset f 1).statusEvent f cls

/-! ### Stem replies and attention (R390, R397, R398) -/

/-- R397: the attention word of a channel, its classes as bits 0 to 9. -/
def attnWord (s : State) (c : Nat) : Nat := s.fget (Reg.StemAttn.attn c)

/-- R388: an error stops a ring; its ATTN_FAULT is raised at the end of the cycle. -/
def ringStop (s : State) (r : Nat) (f : Field) : State :=
  let s := (s.fset (Reg.StemRingStatus.running r) 0).fset f 1
  { s with stem.stopped := s.stem.stopped ++ [r] }

/-- R390: a reply joins those written; where a PCIe error meets the write (R388), the ring stops instead. -/
def replyWrite (s : State) (r : Reply) (err : Bool) : State :=
  if err then s.ringStop r.chan (Reg.StemRingStatus.dmaErr r.chan) else { s with stem.replies := s.stem.replies ++ [r] }

/-- A reply is written: the completion counts, the channel's command is no longer in flight, and a UDP session keeps
the tag (R390, R391, R396, R399). -/
def reply (s : State) (c tag opcode code : Nat) (result data : List Byte) (windfall : Bool) : State :=
  let f := (s.stem.flights.find? (fun f => f.chan == c && f.tag == tag)).getD { chan := c, tag := tag, opcode := opcode }
  let n := s.fget (Reg.StemRingCfg.entries c)
  let ring := decide (c < 16)
  let r : Reply := { chan := c, slot := if ring then f.index % n else 0, phase := ring && f.index / n % 2 == 0, status := s.attnWord c * 65536 + code,
                     tag := tag, opcode := opcode, windfall := windfall, result := result, data := data }
  let s := { s with stem.flights := s.stem.flights.eraseP (fun f => f.chan == c && f.tag == tag) }.replyWrite r (ring && f.replyErr)
  let s := s.bump Reg.stemCmdCnt
  let s := if 0x100 ≤ code then s.bump Reg.stemErrCnt else s
  if c < 16 then
    s.fset (Reg.StemRingStatus.inFlight c) (s.fget (Reg.StemRingStatus.inFlight c) - 1)
  else
    let k := c - 16
    let x := s.stem.sessions.get ({} : Session) k
    { s with stem.sessions := s.stem.sessions.set k { x with replies := (r :: x.replies).take 16, out := x.out ++ [r] } }

/-- R398: the condition of a WATCH. -/
def watchMet (s : State) (c : Nat) (w : Watch) : Bool := (s.attnWord c) &&& w.mask != w.expected

/-- R398: the reply of a WATCH: the word in `status`, the changed bits in `result`. -/
def watchReply (s : State) (c : Nat) (w : Watch) (code : Nat) : State :=
  let s := s.reply c w.tag 2 code (leBytes 16 ((s.attnWord c) ^^^ w.start)) [] false
  { s with stem.watches := s.stem.watches.erase c }

/-- R398: every held WATCH whose condition holds replies. -/
def watchCheck (s : State) : State :=
  s.stem.watches.foldl (fun s cw => if s.watchMet cw.1 cw.2 then s.watchReply cw.1 cw.2 0 else s) s

/-- R397: raising a class sets its bit in every channel's word; held WATCHes are then looked at. -/
def attn (s : State) (k : Nat) : State :=
  ((List.range 20).foldl (fun s c => s.fset ⟨Reg.stemAttn c, 16 + k, 1⟩ 1) s).watchCheck

def attnFault (s : State) : State := s.attn 0
def attnFailover (s : State) : State := s.attn 1
def attnSafety (s : State) : State := s.attn 2
def attnReady (s : State) : State := s.attn 3
def attnLeaf (s : State) : State := s.attn 4
def attnTime (s : State) : State := s.attn 5
def attnUpdate (s : State) : State := s.attn 6
def attnRecord (s : State) : State := s.attn 7
def attnBridge (s : State) : State := s.attn 8
def attnThermal (s : State) : State := s.attn 9

/-- R417: a readiness bit; every change of `TREE_READY` raises ATTN_READY. -/
def setReady (s : State) (f : Field) (b : Bool) : State := if s.fbit f = b then s else (s.fsetB f b).attnReady

end State

/-- The next state of a command: nothing but PWR_GOOD and RESET_N reaches a module that is held (R414, R465). -/
def act (s : State) (f : State → State) : Host.Outcome State Fault Refusal :=
  .next (if s.held then s else f s)

end Sys2Proof.Machine
end

