-- ==== Sys2Proof/Machine/Crypto.lean ====
section
/-! DEFINITION. SHA-256, SHA-512 and Ed25519 verification (R2 names the algorithms; PRESUMED: their constants and steps are those
of FIPS 180-4 and RFC 8032). -/

namespace Sys2Proof.Machine

/-- The round constants of SHA-256 (FIPS 180-4). -/
def sha2K320 : List Nat :=
  [0x428A2F98, 0x71374491, 0xB5C0FBCF, 0xE9B5DBA5, 0x3956C25B, 0x59F111F1, 0x923F82A4, 0xAB1C5ED5,
   0xD807AA98, 0x12835B01, 0x243185BE, 0x550C7DC3, 0x72BE5D74, 0x80DEB1FE, 0x9BDC06A7, 0xC19BF174,
   0xE49B69C1, 0xEFBE4786, 0x0FC19DC6, 0x240CA1CC, 0x2DE92C6F, 0x4A7484AA, 0x5CB0A9DC, 0x76F988DA,
   0x983E5152, 0xA831C66D, 0xB00327C8, 0xBF597FC7, 0xC6E00BF3, 0xD5A79147, 0x06CA6351, 0x14292967,
   0x27B70A85, 0x2E1B2138, 0x4D2C6DFC, 0x53380D13, 0x650A7354, 0x766A0ABB, 0x81C2C92E, 0x92722C85]

/-- The round constants of SHA-256 (FIPS 180-4). -/
def sha2K321 : List Nat :=
  [0xA2BFE8A1, 0xA81A664B, 0xC24B8B70, 0xC76C51A3, 0xD192E819, 0xD6990624, 0xF40E3585, 0x106AA070,
   0x19A4C116, 0x1E376C08, 0x2748774C, 0x34B0BCB5, 0x391C0CB3, 0x4ED8AA4A, 0x5B9CCA4F, 0x682E6FF3,
   0x748F82EE, 0x78A5636F, 0x84C87814, 0x8CC70208, 0x90BEFFFA, 0xA4506CEB, 0xBEF9A3F7, 0xC67178F2]

/-- The round constants of SHA-256 (FIPS 180-4). -/
def sha2K32 : List Nat := sha2K320 ++ sha2K321

/-- The initial hash value of SHA-256 (FIPS 180-4). -/
def sha2H32 : List Nat :=
  [0x6A09E667, 0xBB67AE85, 0x3C6EF372, 0xA54FF53A, 0x510E527F, 0x9B05688C, 0x1F83D9AB, 0x5BE0CD19]

/-- The round constants of SHA-512 (FIPS 180-4). -/
def sha2K640 : List Nat :=
  [0x428A2F98D728AE22, 0x7137449123EF65CD, 0xB5C0FBCFEC4D3B2F, 0xE9B5DBA58189DBBC, 0x3956C25BF348B538,
   0x59F111F1B605D019, 0x923F82A4AF194F9B, 0xAB1C5ED5DA6D8118, 0xD807AA98A3030242, 0x12835B0145706FBE,
   0x243185BE4EE4B28C, 0x550C7DC3D5FFB4E2, 0x72BE5D74F27B896F, 0x80DEB1FE3B1696B1, 0x9BDC06A725C71235,
   0xC19BF174CF692694, 0xE49B69C19EF14AD2, 0xEFBE4786384F25E3, 0x0FC19DC68B8CD5B5, 0x240CA1CC77AC9C65,
   0x2DE92C6F592B0275, 0x4A7484AA6EA6E483, 0x5CB0A9DCBD41FBD4, 0x76F988DA831153B5, 0x983E5152EE66DFAB,
   0xA831C66D2DB43210, 0xB00327C898FB213F, 0xBF597FC7BEEF0EE4, 0xC6E00BF33DA88FC2, 0xD5A79147930AA725,
   0x06CA6351E003826F, 0x142929670A0E6E70, 0x27B70A8546D22FFC, 0x2E1B21385C26C926, 0x4D2C6DFC5AC42AED,
   0x53380D139D95B3DF, 0x650A73548BAF63DE, 0x766A0ABB3C77B2A8, 0x81C2C92E47EDAEE6, 0x92722C851482353B]

/-- The round constants of SHA-512 (FIPS 180-4). -/
def sha2K641 : List Nat :=
  [0xA2BFE8A14CF10364, 0xA81A664BBC423001, 0xC24B8B70D0F89791, 0xC76C51A30654BE30, 0xD192E819D6EF5218,
   0xD69906245565A910, 0xF40E35855771202A, 0x106AA07032BBD1B8, 0x19A4C116B8D2D0C8, 0x1E376C085141AB53,
   0x2748774CDF8EEB99, 0x34B0BCB5E19B48A8, 0x391C0CB3C5C95A63, 0x4ED8AA4AE3418ACB, 0x5B9CCA4F7763E373,
   0x682E6FF3D6B2B8A3, 0x748F82EE5DEFB2FC, 0x78A5636F43172F60, 0x84C87814A1F0AB72, 0x8CC702081A6439EC,
   0x90BEFFFA23631E28, 0xA4506CEBDE82BDE9, 0xBEF9A3F7B2C67915, 0xC67178F2E372532B, 0xCA273ECEEA26619C,
   0xD186B8C721C0C207, 0xEADA7DD6CDE0EB1E, 0xF57D4F7FEE6ED178, 0x06F067AA72176FBA, 0x0A637DC5A2C898A6,
   0x113F9804BEF90DAE, 0x1B710B35131C471B, 0x28DB77F523047D84, 0x32CAAB7B40C72493, 0x3C9EBE0A15C9BEBC,
   0x431D67C49C100D4C, 0x4CC5D4BECB3E42B6, 0x597F299CFC657E2A, 0x5FCB6FAB3AD6FAEC, 0x6C44198C4A475817]

/-- The round constants of SHA-512 (FIPS 180-4). -/
def sha2K64 : List Nat := sha2K640 ++ sha2K641

/-- The initial hash value of SHA-512 (FIPS 180-4). -/
def sha2H64 : List Nat :=
  [0x6A09E667F3BCC908, 0xBB67AE8584CAA73B, 0x3C6EF372FE94F82B, 0xA54FF53A5F1D36F1, 0x510E527FADE682D1,
   0x9B05688C2B3E6C1F, 0x1F83D9ABFB41BD6B, 0x5BE0CD19137E2179]

/-- The parameters of one SHA-2 variant: word width in bits, round constants, initial value, and the rotation amounts of
Σ0, Σ1, σ0 and σ1; the last amount of σ0 and σ1 is a shift. -/
structure Sha2 where
  w : Nat
  k : List Nat
  h : List Nat
  big0 : Nat × Nat × Nat
  big1 : Nat × Nat × Nat
  sm0 : Nat × Nat × Nat
  sm1 : Nat × Nat × Nat

def sha256P : Sha2 := ⟨32, sha2K32, sha2H32, (2, 13, 22), (6, 11, 25), (7, 18, 3), (17, 19, 10)⟩
def sha512P : Sha2 := ⟨64, sha2K64, sha2H64, (28, 34, 39), (14, 18, 41), (1, 8, 7), (19, 61, 6)⟩

/-- A right rotation of a `w`-bit word. -/
def rotr (w x n : Nat) : Nat := x / 2 ^ n + x % 2 ^ n * 2 ^ (w - n)

def shaBig (w : Nat) (r : Nat × Nat × Nat) (x : Nat) : Nat := rotr w x r.1 ^^^ rotr w x r.2.1 ^^^ rotr w x r.2.2
def shaSmall (w : Nat) (r : Nat × Nat × Nat) (x : Nat) : Nat := rotr w x r.1 ^^^ rotr w x r.2.1 ^^^ x / 2 ^ r.2.2

/-- The message schedule: `l` holds the last 16 words, newest first; the words come out oldest first. -/
def shaSchedule (p : Sha2) : Nat → List Nat → List Nat
  | 0, _ => []
  | n + 1, l =>
    let x := (shaSmall p.w p.sm1 (l.getD 1 0) + l.getD 6 0 + shaSmall p.w p.sm0 (l.getD 14 0) + l.getD 15 0) % 2 ^ p.w
    x :: shaSchedule p n (x :: l.take 15)

/-- One round on the working variables a to h. -/
def shaRound (p : Sha2) (v : List Nat) (kw : Nat × Nat) : List Nat :=
  match v with
  | [a, b, c, d, e, f, g, h] =>
    let t1 := h + shaBig p.w p.big1 e + ((e &&& f) ^^^ ((2 ^ p.w - 1 - e) &&& g)) + kw.1 + kw.2
    let t2 := shaBig p.w p.big0 a + ((a &&& b) ^^^ (a &&& c) ^^^ (b &&& c))
    [(t1 + t2) % 2 ^ p.w, a, b, c, (d + t1) % 2 ^ p.w, e, f, g]
  | _ => v

/-- One block of 16 words. -/
def shaBlock (p : Sha2) (h : List Nat) (ws : List Nat) : List Nat :=
  let all := ws ++ shaSchedule p (p.k.length - 16) ws.reverse
  let v := (p.k.zip all).foldl (shaRound p) h
  (h.zip v).map (fun x => (x.1 + x.2) % 2 ^ p.w)

/-- Big-endian words of `n` bytes each. -/
def beWords (n : Nat) : Nat → List Byte → List Nat
  | 0, _ => []
  | k + 1, l => ofBe (l.take n) :: beWords n k (l.drop n)

def shaBlocks (p : Sha2) : Nat → List Nat → List Byte → List Nat
  | 0, h, _ => h
  | k + 1, h, l => shaBlocks p k (shaBlock p h (beWords (p.w / 8) 16 l)) (l.drop (2 * p.w))

/-- The digest of a message. -/
def sha2 (p : Sha2) (m : List Byte) : List Byte :=
  let blk := 2 * p.w
  let lenB := p.w / 4
  let zeros := (blk - (m.length + 1 + lenB) % blk) % blk
  let padded := m ++ [0x80] ++ List.replicate zeros 0 ++ beBytes lenB (8 * m.length)
  (shaBlocks p (padded.length / blk) p.h padded).foldl (fun o x => o ++ beBytes (p.w / 8) x) []

/-- SHA-256. -/
def sha256 (m : List Byte) : List Byte := sha2 sha256P m
/-- SHA-512. -/
def sha512 (m : List Byte) : List Byte := sha2 sha512P m

/-! ### Ed25519 (RFC 8032) -/

/-- The field's prime and the order of the base point. -/
def edP : Nat := 2 ^ 255 - 19
def edL : Nat := 2 ^ 252 + 27742317777372353535851937790883648493

/-- `x` to the power `e` modulo the prime, by `n` bits of `e`. -/
def edPow : Nat → Nat → Nat → Nat
  | 0, _, _ => 1
  | n + 1, x, e => let r := edPow n (x * x % edP) (e / 2); if e % 2 = 1 then r * x % edP else r

def edInv (x : Nat) : Nat := edPow 255 x (edP - 2)
/-- The constant d of the curve, and the square root of -1. -/
def edD : Nat := 37095705934669439343138083508754565189542113879843219016388785533085940283555
def edI : Nat := edPow 255 2 ((edP - 1) / 4)
def edSub (a b : Nat) : Nat := (a + (edP - b % edP)) % edP

/-- A point in extended coordinates X, Y, Z, T. -/
structure EdPoint where
  x : Nat
  y : Nat
  z : Nat
  t : Nat

def edAdd (p q : EdPoint) : EdPoint :=
  let a := edSub p.y p.x * edSub q.y q.x % edP
  let b := (p.y + p.x) * (q.y + q.x) % edP
  let c := p.t * 2 % edP * edD % edP * q.t % edP
  let d := p.z * 2 * q.z % edP
  let e := edSub b a
  let f := edSub d c
  let g := (d + c) % edP
  let h := (b + a) % edP
  ⟨e * f % edP, g * h % edP, f * g % edP, e * h % edP⟩

def edZero : EdPoint := ⟨0, 1, 1, 0⟩

/-- The point times a scalar, by `n` bits of it. -/
def edMul : Nat → Nat → EdPoint → EdPoint
  | 0, _, _ => edZero
  | n + 1, k, p => let r := edMul n (k / 2) (edAdd p p); if k % 2 = 1 then edAdd r p else r

def edEq (p q : EdPoint) : Bool := p.x * q.z % edP == q.x * p.z % edP && p.y * q.z % edP == q.y * p.z % edP

/-- The x coordinate that belongs to y and a sign bit. -/
def edX (y sign : Nat) : Option Nat :=
  if edP ≤ y then none
  else
    let yy := y * y % edP
    let xx := edSub yy 1 * edInv ((edD * yy + 1) % edP) % edP
    if xx = 0 then (if sign = 1 then none else some 0)
    else
      let x := edPow 255 xx ((edP + 3) / 8)
      let x := if x * x % edP = xx then x else x * edI % edP
      if x * x % edP ≠ xx then none else some (if x % 2 = sign then x else edP - x)

/-- Decodes a point from its 32 bytes. -/
def edDecode (l : List Byte) : Option EdPoint :=
  if l.length ≠ 32 then none
  else
    let n := ofLe l
    let y := n % 2 ^ 255
    (edX y (n / 2 ^ 255)).map (fun x => ⟨x, y, 1, x * y % edP⟩)

/-- The base point. -/
def edBase : EdPoint :=
  let x := 15112221349535400772501151409588531511454012693041857206046113283949847762202
  let y := 46316835694926478169428394003475163141307993866256225615783033603165251855960
  ⟨x, y, 1, x * y % edP⟩

/-- R2: an Ed25519 signature of 64 bytes verifies over a message under a public key (RFC 8032, clause 5.1.7). -/
def edVerify (key m sig : List Byte) : Bool :=
  match edDecode key, edDecode (sig.take 32) with
  | some a, some r =>
    let s := ofLe (sig.drop 32)
    let k := ofLe (sha512 (sig.take 32 ++ key ++ m)) % edL
    sig.length == 64 && decide (s < edL) &&
      edEq (edMul 256 (8 * s) edBase) (edAdd (edMul 4 8 r) (edMul 256 (8 * k) a))
  | _, _ => false

end Sys2Proof.Machine
end

