-- ==== Sys2Proof/Machine/Seed.lean ====
section
/-! DEFINITION. Reading a seed image (R58 to R85): its sections, records and data areas, and the records a tree
takes as its own. -/

namespace Sys2Proof.Machine

/-- Cuts a byte string into `n` records of `size` bytes. -/
def records : Nat → Nat → List Byte → List (List Byte)
  | 0, _, _ => []
  | n + 1, size, l => l.take size :: records n size (l.drop size)

/-- R61: the section table entries. -/
def sectionTable (img : List Byte) : List (List Byte) := records (u32 img 0x1C) 32 (img.drop 256)

/-- R61: the body of a section, from its entry. -/
def sectionBody (img e : List Byte) : List Byte := slice img (u64 e 8) (u64 e 16)

/-- The body of the section of a type; none gives the empty string. -/
def sectionOf (img : List Byte) (type : Nat) : List Byte :=
  match (sectionTable img).find? (fun e => u16 e 0 == type) with
  | some e => sectionBody img e
  | none => []

/-- R64: the records of a section body; none where it cannot hold its body header. -/
def bodyRecords (b : List Byte) : List (List Byte) := if b.length < 32 then [] else records (u32 b 0) (u32 b 4) (b.drop 32)

/-- R64: the data area of a section body. -/
def bodyData (b : List Byte) : List Byte := slice b (u32 b 8) (u32 b 12)

/-- R64: the bytes a data reference at offset `o` of record `r` names. -/
def dataRef (data r : List Byte) (o : Nat) : List Byte := slice data (u32 r o) (u32 r (o + 4))

/-- The sections of a seed image. -/
def parseSeed (img : List Byte) : Seed :=
  let sec := sectionOf img
  { image := img, seedId := slice img 0x20 16, flags := u32 img 0x0C,
    profile := (bodyRecords (sec 1)).headD [],
    allot := records ((bodyData (sec 1)).length / 8) 8 (bodyData (sec 1)),
    axes := bodyRecords (sec 2),
    cadences := records ((bodyData (sec 2)).length / 32) 32 (bodyData (sec 2)),
    ports := bodyRecords (sec 3),
    leaves := bodyRecords (sec 4), leafData := bodyData (sec 4),
    patches := bodyRecords (sec 5), patchData := bodyData (sec 5),
    models := bodyRecords (sec 6), modelData := bodyData (sec 6),
    canvases := bodyRecords (sec 7), canvasData := bodyData (sec 7),
    layers := bodyRecords (sec 8), layerData := bodyData (sec 8),
    rasters := bodyRecords (sec 9), cameras := bodyRecords (sec 10),
    guests := bodyRecords (sec 11), guestData := bodyData (sec 11),
    safety := bodyRecords (sec 12), safetyData := bodyData (sec 12),
    groves := bodyRecords (sec 13) }

/-- The record of an index; an absent one reads as no bytes, so as zeros. -/
def recAt (l : List (List Byte)) (i : Nat) : List Byte := l.getD i []

/-- A field whose marker `m` selects the default `d` (R65). -/
def orDefault (v m d : Nat) : Nat := if v = m then d else v

/-! ### PROFILE (R24, R67) -/

def Seed.redundancy (d : Seed) : Nat := orDefault (u8 d.profile 0) 0xFF 0
def Seed.emit (d : Seed) : Nat := orDefault (u8 d.profile 1) 0xFF 0
def Seed.solver (d : Seed) : Nat := orDefault (u8 d.profile 2) 0xFF 0
def Seed.dither (d : Seed) : Nat := orDefault (u8 d.profile 3) 0xFF 0
def Seed.cameraPhase (d : Seed) : Nat := orDefault (u8 d.profile 4) 0xFF 0
/-- R24: probe pulses default to OFF with LOCK and to GAP with camera phase OFF. -/
def Seed.probe (d : Seed) : Nat := orDefault (u8 d.profile 5) 0xFF (if d.cameraPhase = 1 then 0 else 1)
def Seed.rasterEvents (d : Seed) : Nat := orDefault (u8 d.profile 6) 0xFF 0
def Seed.scalerShort (d : Seed) : Nat := orDefault (u8 d.profile 7) 0xFF 0
def Seed.epochAxis (d : Seed) : Nat := u8 d.profile 8
def Seed.epochCadence (d : Seed) : Nat := u8 d.profile 9
def Seed.lead (d : Seed) : Nat := orDefault (u32 d.profile 0x0C) 0 2000000
def Seed.confirmS (d : Seed) : Nat := orDefault (u32 d.profile 0x10) 0 120
def Seed.holdoff (d : Seed) : Nat := orDefault (u16 d.profile 0x14) 0 600
def Seed.latchWindow (d : Seed) : Nat := orDefault (u16 d.profile 0x16) 0 600
def Seed.primary (d : Seed) : Trunk := if u8 d.profile 0x18 = 1 then .b else .a
def Seed.failbackOff (d : Seed) : Bool := u8 d.profile 0x19 == 1
def Seed.groveId (d : Seed) : Nat := u32 d.profile 0x1C
def Seed.isGrove (d : Seed) : Bool := d.flags % 2 == 1
def Seed.isSafety (d : Seed) : Bool := d.flags / 2 % 2 == 1

/-! ### AXES and cadences (R45, R68, R69) -/

def Seed.axisSource (d : Seed) (n : Nat) : Nat := u8 (recAt d.axes n) 1
/-- R29: the default hold mode is HALT on TC axes, EXTRAPOLATE elsewhere. -/
def Seed.axisHold (d : Seed) (n : Nat) : Nat :=
  orDefault (u8 (recAt d.axes n) 2) 0xFF (if n = 15 ∨ n = 16 then 1 else 0)
def Seed.axisFlags (d : Seed) (n : Nat) : Nat := u8 (recAt d.axes n) 3
def Seed.stepThreshold (d : Seed) (n : Nat) : Nat := u32 (recAt d.axes n) 4
def Seed.rateNum (d : Seed) (n : Nat) : Nat := u32 (recAt d.axes n) 8
def Seed.rateDen (d : Seed) (n : Nat) : Nat := u32 (recAt d.axes n) 12
def Seed.relKind (d : Seed) (n : Nat) : Nat := u8 (recAt d.axes n) 0x10
def Seed.relSource (d : Seed) (n : Nat) : Nat := u8 (recAt d.axes n) 0x11
def Seed.alignPtp (d : Seed) (n : Nat) : Nat := u8 (recAt d.axes n) 0x12
def Seed.tcRate (d : Seed) (n : Nat) : Nat := u8 (recAt d.axes n) 0x13
def Seed.aNum (d : Seed) (n : Nat) : Nat := u64 (recAt d.axes n) 0x14
def Seed.aDen (d : Seed) (n : Nat) : Nat := u64 (recAt d.axes n) 0x1C
def Seed.relB (d : Seed) (n : Nat) : Int := signed 128 (ofLe (slice (recAt d.axes n) 0x24 16))

/-- R29: FREE counts as bound whatever its source field holds. -/
def Seed.axisBound (d : Seed) (n : Nat) : Bool := n == 17 || d.axisSource n != 0

def Seed.cadAxis (d : Seed) (c : Nat) : Nat := u8 (recAt d.cadences c) 0
def Seed.cadNum (d : Seed) (c : Nat) : Nat := u32 (recAt d.cadences c) 4
def Seed.cadDen (d : Seed) (c : Nat) : Nat := u32 (recAt d.cadences c) 8
/-- The anchor in raw units. -/
def Seed.cadAnchor (d : Seed) (c : Nat) : Nat :=
  posRaw (d.cadAxis c) (ofLe (slice (recAt d.cadences c) 16 12))

/-- R45: the raw units `num` frames (time axis) or `den` frames (count axis) take. -/
def Seed.cadSpan (d : Seed) (c : Nat) : Nat × Nat :=
  if isTimeAxis (d.cadAxis c) then (d.cadDen c * second, d.cadNum c) else (d.cadNum c * 2 ^ 32, d.cadDen c)

/-- R45: the position of cadence point `k`. -/
def Seed.cadPos (d : Seed) (c k : Nat) : Nat := d.cadAnchor c + k * (d.cadSpan c).1 / (d.cadSpan c).2

/-- R45: the index of the last cadence point at or before a position. The spec leaves open whether *k* may be negative: the model
counts from 0, so no point lies before the anchor (DESIGN CHOICE). -/
def Seed.cadIndex (d : Seed) (c p : Nat) : Option Nat :=
  if p < d.cadAnchor c ∨ (d.cadSpan c).1 = 0 then none
  else some (((p - d.cadAnchor c + 1) * (d.cadSpan c).2 - 1) / (d.cadSpan c).1)

/-! ### Records (R70 to R82) -/

def portKind (r : List Byte) : Nat := u8 r 0
def portNumber (r : List Byte) : Nat := u8 r 1
def portTrunk (r : List Byte) : Nat := u8 r 2
def portCadence (r : List Byte) : Nat := u8 r 3
def portBase (r : List Byte) : Nat := u8 r 4
def portFlags (r : List Byte) : Nat := u8 r 6
def portPartner (r : List Byte) : Nat := u8 r 7
def portLateLimit (r : List Byte) : Nat := orDefault (u32 r 8) 0 1000000
def portQueueSize (r : List Byte) : Nat := u32 r 0x0C
def portWmHigh (r : List Byte) : Nat := u32 r 0x10
def portWmLow (r : List Byte) : Nat := u32 r 0x14
def portRingSize (r : List Byte) : Nat := u32 r 0x18
def portMaxFrame (r : List Byte) : Nat := u32 r 0x1C
def portParams (r : List Byte) : List Byte := slice r 0x28 24

def leafType (r : List Byte) : Nat := u8 r 0
def leafPriority (r : List Byte) : Nat := u8 r 1
def leafCamera (r : List Byte) : Nat := u8 r 2
def leafTrunk (r : List Byte) : Nat := u8 r 3
def leafPort (r : List Byte) : Nat := u16 r 4
def leafProtocol (r : List Byte) : Nat := u8 r 6
def leafFlags (r : List Byte) : Nat := u8 r 7
def leafAddress (r : List Byte) : List Byte := slice r 8 8
def leafPatch (r : List Byte) : Nat := u32 r 0x10
def leafModel (r : List Byte) : Nat := u16 r 0x14
def leafFirst (r : List Byte) : Nat := u32 r 0x18
def leafPixels (r : List Byte) : Nat := u32 r 0x1C
def leafCal (r : List Byte) : Nat := u32 r 0x20
def leafPlacement (r : List Byte) : List Byte := slice r 0x28 24

def patchProjection (r : List Byte) : Nat := u8 r 0
def patchFilter (r : List Byte) : Nat := u8 r 1
def patchCanvas (r : List Byte) : Nat := u8 r 2
def patchCadence (r : List Byte) : Nat := u8 r 3
def patchDither (r : List Byte) : Nat := u8 r 4
def patchBits (r : List Byte) : Nat := u8 r 5
def patchFootprint (r : List Byte) : Nat := u32 r 8
def patchParams (r : List Byte) : List Byte := slice r 0x18 40

def modelEmitters (r : List Byte) : Nat := u8 r 0
def modelSolver (r : List Byte) : Nat := u8 r 1

def canvasWidth (r : List Byte) : Nat := u16 r 0
def canvasHeight (r : List Byte) : Nat := u16 r 2
def canvasSpace (r : List Byte) : Nat := u8 r 4
def canvasCadence (r : List Byte) : Nat := u8 r 5
def canvasTrunk (r : List Byte) : Nat := u8 r 6
/-- The heartwood area x0, y0, x1, y1, half-open. -/
def canvasHw (r : List Byte) : Nat × Nat × Nat × Nat := (u16 r 0x20, u16 r 0x22, u16 r 0x24, u16 r 0x26)

def layerCanvas (r : List Byte) : Nat := u8 r 0
def layerGraphic (r : List Byte) : Bool := u8 r 1 == 1
def layerZ (r : List Byte) : Nat := u8 r 2
def layerSource (r : List Byte) : Nat := u8 r 3
def layerVTaps (r : List Byte) : Nat := u8 r 4
def layerHTaps (r : List Byte) : Nat := u8 r 5
def layerLate (r : List Byte) : Nat := orDefault (u8 r 6) 0 3
def layerFormat (r : List Byte) : Nat := u8 r 7

def rasterGen (r : List Byte) : Nat := u8 r 0
def rasterTrunk (r : List Byte) : Nat := u8 r 1
def rasterTransport (r : List Byte) : Nat := u8 r 2
def rasterCadence (r : List Byte) : Nat := u8 r 3
def rasterCanvas (r : List Byte) : Nat := u8 r 4
def rasterFlags (r : List Byte) : Nat := u8 r 5

/-- R83: the GROVE record that bears a position. -/
def Seed.groveRec (d : Seed) (pos : Nat) : List Byte :=
  (d.groves.find? (fun g => u8 g 0 == pos)).getD []

/-- R83: base and count of a record range of the tree at a position; the whole section outside a grove. -/
def Seed.leafRange (d : Seed) (pos : Nat) : Nat × Nat :=
  if d.isGrove then (u32 (d.groveRec pos) 4, u32 (d.groveRec pos) 8) else (0, d.leaves.length)
def Seed.patchRange (d : Seed) (pos : Nat) : Nat × Nat :=
  if d.isGrove then (u32 (d.groveRec pos) 0x0C, u32 (d.groveRec pos) 0x10) else (0, d.patches.length)
def Seed.portRange (d : Seed) (pos : Nat) : Nat × Nat :=
  if d.isGrove then (u16 (d.groveRec pos) 0x14, u16 (d.groveRec pos) 0x16) else (0, d.ports.length)
def Seed.layerRange (d : Seed) (pos : Nat) : Nat × Nat :=
  if d.isGrove then (u16 (d.groveRec pos) 0x18, u16 (d.groveRec pos) 0x1A) else (0, d.layers.length)
def Seed.canvasRange (d : Seed) (pos : Nat) : Nat × Nat :=
  if d.isGrove then (u8 (d.groveRec pos) 0x1C, u8 (d.groveRec pos) 0x1D) else (0, d.canvases.length)
def Seed.rasterRange (d : Seed) (pos : Nat) : Nat × Nat :=
  if d.isGrove then (u8 (d.groveRec pos) 0x1E, u8 (d.groveRec pos) 0x1F) else (0, d.rasters.length)
def Seed.guestRange (d : Seed) (pos : Nat) : Nat × Nat :=
  if d.isGrove then (u8 (d.groveRec pos) 0x20, u8 (d.groveRec pos) 0x21) else (0, d.guests.length)
def Seed.treeId (d : Seed) (pos : Nat) : Nat :=
  if d.isGrove then u16 (d.groveRec pos) 0x22 else u16 d.profile 0x0A

/-- A record range of a section. -/
def inRange (l : List (List Byte)) (r : Nat × Nat) : List (List Byte) := (l.drop r.1).take r.2

namespace State

/-- The seed the machine is configured by: the running seed, or the ring record's safety seed before any runs (R163). -/
def sd (s : State) : Seed := (s.seed.or s.safetySeed).getD {}

/-- R83: this tree's records. -/
def leafRec (s : State) (i : Nat) : List Byte := recAt s.sd.leaves ((s.sd.leafRange s.grovePos).1 + i)
def leafCount (s : State) : Nat := min (s.sd.leafRange s.grovePos).2 s.sd.leaves.length
def portRec (s : State) (i : Nat) : List Byte := recAt s.sd.ports i
def patchRec (s : State) (i : Nat) : List Byte := recAt s.sd.patches i
def modelRec (s : State) (i : Nat) : List Byte := recAt s.sd.models i
def canvasRec (s : State) (c : Nat) : List Byte := recAt s.sd.canvases ((s.sd.canvasRange s.grovePos).1 + c)
def canvasCount (s : State) : Nat := min (s.sd.canvasRange s.grovePos).2 s.sd.canvases.length
def layerRec (s : State) (n : Nat) : List Byte := recAt s.sd.layers ((s.sd.layerRange s.grovePos).1 + n)
def layerCount (s : State) : Nat := min (s.sd.layerRange s.grovePos).2 s.sd.layers.length
def rasterRecs (s : State) : List (List Byte) := inRange s.sd.rasters (s.sd.rasterRange s.grovePos)
/-- The own canvas index of a CANVASES record index. -/
def ownCanvas (s : State) (i : Nat) : Nat := i - (s.sd.canvasRange s.grovePos).1
/-- The PORTS record indexes of this tree. -/
def portIdxs (s : State) : List Nat :=
  (List.range (min (s.sd.portRange s.grovePos).2 s.sd.ports.length)).map (· + (s.sd.portRange s.grovePos).1)
/-- The PORTS record of a kind and number, if the seed uses the port (R70). -/
def portOf? (s : State) (kind number : Nat) : Option Nat :=
  s.portIdxs.find? (fun i => portKind (s.portRec i) == kind && portNumber (s.portRec i) == number)

/-- R184: the record that binds generator `g` in trunk `t`. -/
def rastRec? (s : State) (t : Trunk) (g : Nat) : Option (List Byte) :=
  s.rasterRecs.find? fun r => rasterGen r == g && (s.redundancy != 2 || rasterTrunk r == t.idx)
def rastRec (s : State) (t : Trunk) (g : Nat) : List Byte := (s.rastRec? t g).getD []
/-- A generator runs. -/
def rastActive (s : State) (t : Trunk) (g : Nat) : Bool := (s.rastRec? t g).isSome && s.aget (Reg.RastCtrl.enable t g) == 1

/-- R36, R47, R203: the axis governs a raster output, by the cadence in use. -/
def governsRaster (s : State) (n : Nat) : Bool :=
  [Trunk.a, Trunk.b].any fun t => (s.mirrored t || s.noTrunk) &&
    (List.range 8).any fun g => (s.rastRec? t g).isSome && s.sd.cadAxis (s.aget (Reg.RastCtrl.cadence t g)) == n

/-- The seed's nominal advance of an axis per fabric cycle, in 2^-32 raw units (R68). -/
def nominalAdv (s : State) (n : Nat) : Nat :=
  if isTimeAxis n then 163840 * 2 ^ 32
  else s.sd.rateNum n * 2 ^ 64 / (s.sd.rateDen n * 400000000)

end State

end Sys2Proof.Machine
end

