-- ==== Sys2Proof/Machine/Pixel.lean ====
section
/-! DEFINITION. The pixel path's locate and sample stages: twig arithmetic, projections and filters (R90 to R113),
to the bit. -/

namespace Sys2Proof.Machine

/-! ### Twig arithmetic (R91, R92) -/

def rnd (x : Int) (k : Nat) : Int := (x + 2 ^ (k - 1)) / 2 ^ k
def sat32 (x : Int) : Int := min (max x (-(2 ^ 31))) (2 ^ 31 - 1)
def sat64 (x : Int) : Int := min (max x (-(2 ^ 63))) (2 ^ 63 - 1)
def twMul (x y : Int) : Int := sat32 (rnd (x * y) 28)
def twAdd (x y : Int) : Int := sat32 (x + y)

/-- RCP: 1/x in Q3.28 for x > 0, half up, saturated. -/
def rcp (x : Int) : Int := min ((2 ^ 57 + x) / (2 * x)) 0x7FFFFFFF

/-- The largest r with r² ≤ x, one bit of the root at a time, from bit `n - 1` down. -/
def isqrtBits : Nat → Nat → Nat → Nat
  | 0, _, r => r
  | n + 1, x, r => isqrtBits n x (if (r + 2 ^ n) * (r + 2 ^ n) ≤ x then r + 2 ^ n else r)

/-- SQRT: the integer nearest to √(x × 2^28); 0 for x < 0. -/
def twSqrt (x : Int) : Int :=
  if x < 0 then 0
  else
    let v := x.toNat * 2 ^ 28
    let r := isqrtBits 32 v 0
    if r * r + r < v then r + 1 else r

/-- A value and whether a saturation took part in it. -/
abbrev Sv := Int × Bool

def sv32 (x : Int) (b : Bool) : Sv := (sat32 x, b || decide (sat32 x ≠ x))
def svMul (x y : Sv) : Sv := sv32 (rnd (x.1 * y.1) 28) (x.2 || y.2)
def svAdd (x y : Sv) : Sv := sv32 (x.1 + y.1) (x.2 || y.2)
def svRcp (x : Sv) : Sv := (rcp x.1, x.2 || decide (0x7FFFFFFF < (2 ^ 57 + x.1) / (2 * x.1)))

/-- R102: one MAC chain in Q6.56, saturated after every step, then rounded to Q3.28. -/
def svChain (l : List (Int × Int)) : Sv :=
  let acc := l.foldl (fun (a : Sv) p => let t := a.1 + p.1 * p.2; (sat64 t, a.2 || decide (sat64 t ≠ t))) (0, false)
  sv32 (rnd acc.1 28) acc.2

/-! ### Grid and placement (R97 to R101) -/

/-- A signed little-endian field. -/
def i32 (l : List Byte) (o : Nat) : Int := signed 32 (u32 l o)
def i16 (l : List Byte) (o : Nat) : Int := signed 16 (u16 l o)

/-- R97: grid position (g, row, col) of wire-order pixel `w`. -/
def gridPos (leaf : List Byte) (w : Nat) : Nat × Nat × Nat :=
  let n := leafPixels leaf
  let fl := leafFlags leaf
  let g := if fl % 2 = 1 then n - 1 - w else w
  let c0 := u16 (leafPlacement leaf) 0x14
  let c := if c0 = 0 then n else c0
  let row := g / c
  let col := g % c
  (g, row, if fl / 2 % 2 = 1 ∧ row % 2 = 1 then c - 1 - col else col)

/-- R101: the pre-scale by 2^-shift of a position with `f` fraction bits. -/
def prescale (p : Int) (f sh : Nat) : Int :=
  let k : Int := 28 - f - sh
  sat32 (if 0 ≤ k then p * 2 ^ k.toNat else rnd p (-k).toNat)

/-- R98: the position of a PLANAR or CYLINDER pixel in 16.16. -/
def gridXY (leaf : List Byte) (w : Nat) : Int × Int :=
  let p := leafPlacement leaf
  let (_, row, col) := gridPos leaf w
  (i32 p 0 + col * i32 p 8 + row * i16 p 0x10 * 256, i32 p 4 + col * i32 p 12 + row * i16 p 0x12 * 256)

def patchShift (r : List Byte) : Nat := u8 (patchParams r) 0x24
def patchEdge (r : List Byte) : Nat := u8 (patchParams r) 0x25

/-- Normalised coordinates as (S, T), or clipped. -/
def normal (clip : Bool) (s t : Sv) : Option (Int × Int) := if clip || s.2 || t.2 then none else some (s.1, t.1)

/-- R102: PLANAR. -/
def planar (pp : List Byte) (a b : Int) : Option (Int × Int) :=
  let row (o : Nat) := svChain [(i32 pp o, a), (i32 pp (o + 4), b), (i32 pp (o + 8), 2 ^ 28)]
  let nx := row 0
  let ny := row 12
  let nw := row 24
  if nw.1 ≤ 0 then none else normal nw.2 (svMul nx (svRcp nw)) (svMul ny (svRcp nw))

/-- R103: CYLINDER. -/
def cylinder (pp : List Byte) (a b : Int) : Option (Int × Int) :=
  let s := svAdd (svMul (i32 pp 0, false) (a, false)) (i32 pp 4, false)
  let t := svAdd (svMul (i32 pp 8, false) (b, false)) (i32 pp 12, false)
  normal false (s.1 % 2 ^ 28, s.2) t

/-- R104: SPHERE, from the pre-scaled difference to the centre. -/
def sphere (pp : List Byte) (dx dy dz : Int) : Option (Int × Int) :=
  let l2 := svChain [(dx, dx), (dy, dy), (dz, dz)]
  let len := twSqrt l2.1
  if l2.2 || decide (len ≤ 0) then none
  else
    let inv := svRcp (len, false)
    let ux := svMul (dx, false) inv
    let uy := svMul (dy, false) inv
    let uz := svMul (dz, false) inv
    let den := svAdd uz (2 ^ 28, false)
    if den.1 < 2 ^ 20 then none
    else
      let q := svRcp den
      let c (o : Nat) : Sv := (i32 pp o, false)
      normal den.2 (svAdd (c 0x0C) (svMul (c 0x10) (svMul ux q))) (svAdd (c 0x14) (svMul (c 0x18) (svMul uy q)))

/-- R105: SPATIAL, from the pre-scaled entry and the matrix M. -/
def spatial (m : List Byte) (a b c : Int) : Option (Int × Int) :=
  let row (k : Nat) := svChain [(i32 m (k * 16), a), (i32 m (k * 16 + 4), b), (i32 m (k * 16 + 8), c), (i32 m (k * 16 + 12), 2 ^ 28)]
  let n0 := row 0
  let n1 := row 1
  let n2 := row 2
  let n3 := row 3
  if n3.1 ≤ 0 ∨ n2.1 < 0 ∨ n3.1 < n2.1 then none
  else normal (n2.2 || n3.2) (svMul n0 (svRcp n3)) (svMul n1 (svRcp n3))

/-- R106: normalised to canvas coordinates in Q15.16; a saturation clips. -/
def toCanvas (w h : Nat) : Option (Int × Int) → Option (Int × Int)
  | none => none
  | some (s, t) =>
    let u := sv32 (rnd (s * w) 12) false
    let v := sv32 (rnd (t * h) 12) false
    if u.2 || v.2 then none else some (u.1, v.1)

/-- R97 to R106: the canvas coordinates of wire-order pixel `w`; none when clipped. -/
def locate (leaf patch table : List Byte) (cw ch w : Nat) : Option (Int × Int) :=
  let pp := patchParams patch
  let sh := patchShift patch
  let pl := leafPlacement leaf
  let (g, _, _) := gridPos leaf w
  match patchProjection patch with
  | 0 => let p := gridXY leaf w; toCanvas cw ch (planar pp (prescale p.1 16 sh) (prescale p.2 16 sh))
  | 1 => let p := gridXY leaf w; toCanvas cw ch (cylinder pp (prescale p.1 16 sh) (prescale p.2 16 sh))
  | 2 =>
    let d (o : Nat) : Int := prescale (i32 pl o + g * i32 pl (o + 12) - i32 pp o) 16 sh
    toCanvas cw ch (sphere pp (d 0) (d 4) (d 8))
  | 3 =>
    let e := (u32 pl 0 + g) * 8
    if u32 table e = 0xFFFFFFFF then none else some (u32 table e, u32 table (e + 4))
  | _ =>
    let e := 64 + (u32 pl 0 + g) * 12
    let d (o : Nat) : Int := prescale (i32 table (e + o)) 0 sh
    toCanvas cw ch (spatial table (d 0) (d 4) (d 8))

/-- R106: canvas coordinates outside the canvas. -/
def offCanvas (cw ch : Nat) (p : Int × Int) : Bool :=
  decide (p.1 < 0) || decide ((cw : Int) * 65536 ≤ p.1) || decide (p.2 < 0) || decide ((ch : Int) * 65536 ≤ p.2)

/-! ### Canvas frames and filters (R107 to R112) -/

/-- R108: one binary16 channel as Q3.28, with 1 for a NaN. -/
def cvt16 (h : Nat) : Int × Nat :=
  match ofHalf h with
  | .nan => (0, 1)
  | .inf n => (if n then -(2 ^ 31) else 2 ^ 31 - 1, 0)
  | .fin n m e =>
    let v : Int := (m * 2 ^ (e + 28).toNat : Nat)
    let v := if n then -v else v
    (if 2 ^ 31 ≤ v then 2 ^ 31 - 1 else if v < -(2 ^ 31) then -(2 ^ 31) else v, 0)

/-- R, G, B in Q3.28 and the NaN channel values read. -/
structure Rgb where
  r : Int := 0
  g : Int := 0
  b : Int := 0
  nan : Nat := 0
  deriving DecidableEq, Repr, Inhabited

/-- R108, R109: one tap at integer pixel (i, j) under the edge rule. -/
def tap (f : CanvasFrame) (edge : Nat) (i j : Int) : Rgb :=
  let w : Int := f.width
  let h : Int := f.height
  let outI := decide (i < 0) || decide (w ≤ i)
  let outJ := decide (j < 0) || decide (h ≤ j)
  if edge = 1 ∧ (outI || outJ) then {}
  else
    let i := if edge = 2 then i % w else min (max i 0) (w - 1)
    let j := min (max j 0) (h - 1)
    let p := f.pix.getD (j * w + i).toNat 0
    let c (k : Nat) := cvt16 (p / 2 ^ (16 * k) % 65536)
    { r := (c 0).1, g := (c 1).1, b := (c 2).1, nan := (c 0).2 + (c 1).2 + (c 2).2 }

/-- R111: the bilinear blend of one channel. -/
def bilerp (p00 p10 p01 p11 fx fy : Int) : Int :=
  let top := p00 + rnd ((p10 - p00) * fx) 16
  let bot := p01 + rnd ((p11 - p01) * fx) 16
  top + rnd ((bot - top) * fy) 16

/-- R112: the taps of one axis of an AREA box. -/
def areaTaps (u r : Int) : List Int :=
  let cdiv (x : Int) : Int := -((-x) / 65536)
  let lo := cdiv (u - r - 32768)
  let n := cdiv (u + r - 32768) - lo
  if n ≤ 0 then [u / 65536]
  else if n ≤ 32 then (List.range n.toNat).map (fun (k : Nat) => lo + (k : Int))
  else (List.range 32).map (fun (k : Nat) => lo + (k : Int) * n / 32)

/-- R92 AVG: the mean of `m` taps, half up. -/
def avg (sum : Int) (m : Nat) : Int := (2 * sum + m) / (2 * m)

/-- R108 to R112: the sample at canvas coordinates (u, v). -/
def sample (f : CanvasFrame) (filter edge footprint : Nat) (u v : Int) : Rgb :=
  match filter with
  | 0 => tap f edge (u / 65536) (v / 65536)
  | 1 =>
    let x := u - 32768
    let y := v - 32768
    let i := x / 65536
    let j := y / 65536
    let fx := x - i * 65536
    let fy := y - j * 65536
    let a := tap f edge i j
    let b := tap f edge (i + 1) j
    let c := tap f edge i (j + 1)
    let d := tap f edge (i + 1) (j + 1)
    { r := bilerp a.r b.r c.r d.r fx fy, g := bilerp a.g b.g c.g d.g fx fy, b := bilerp a.b b.b c.b d.b fx fy,
      nan := a.nan + b.nan + c.nan + d.nan }
  | _ =>
    let cols := areaTaps u footprint
    let rows := areaTaps v footprint
    let taps := rows.flatMap (fun j => cols.map (fun i => tap f edge i j))
    let sum := taps.foldl (fun (a : Rgb) t => { r := a.r + t.r, g := a.g + t.g, b := a.b + t.b, nan := a.nan + t.nan }) {}
    { r := avg sum.r taps.length, g := avg sum.g taps.length, b := avg sum.b taps.length, nan := sum.nan }

end Sys2Proof.Machine
end

