-- ==== Sys2Proof/Machine/Colour.lean ====
section
/-! DEFINITION. The pixel path's colour, intensity and emission stages: MATRIX and SOLVE, calibration, derating,
dither, the safety look and widening (R116 to R136), to the bit. -/

namespace Sys2Proof.Machine

/-- Full drive, 1.0 in Q3.28. -/
def full : Int := 2 ^ 28

/-! ### MATRIX (R119) -/

/-- R119: the drive of each emitter from the sample and the model's row-major matrix of `n` columns. -/
def matrixDrives (m : List Byte) (n : Nat) (c : Rgb) : List Int :=
  (List.range n).map fun e =>
    let co (r : Nat) := i32 m ((r * n + e) * 4)
    let acc := sat64 (sat64 (sat64 (co 0 * c.r) + co 1 * c.g) + co 2 * c.b)
    min (max (sat32 (rnd acc 28)) 0) full

/-! ### Constants of SOLVE (R120) -/

def f64 (x : Int) : Flt := fround bin64 (decide (x < 0)) x.natAbs 0
def add64 := fadd bin64
def sub64 := fsub bin64
def mul64 := fmul bin64
def div64 := fdiv bin64
def one64 : Flt := f64 1

/-- Rounded half up to Q3.28. -/
def q328 (x : Flt) : Int := (toFixed 28 x).getD 0

/-- The emitter table of a model: chromaticities and flux. -/
def emitterXy (r : List Byte) (e : Nat) : Flt × Flt × Flt :=
  let o := 0x20 + 12 * e
  (div64 (f64 (u16 r o)) (f64 65536), div64 (f64 (u16 r (o + 2))) (f64 65536), div64 (f64 (u32 r (o + 4))) (f64 65536))

/-- R120: f_e = flux_e / F. -/
def emitterShare (r : List Byte) (n e : Nat) : Flt :=
  div64 (emitterXy r e).2.2 ((List.range n).foldl (fun a k => add64 a (emitterXy r k).2.2) (f64 0))

/-- R120: the weight w[e]. -/
def solveW (r : List Byte) (n e : Nat) : Int := q328 (emitterShare r n e)

/-- R120: the column a[·][e]. -/
def solveA (r : List Byte) (n row e : Nat) : Int :=
  let (x, y, _) := emitterXy r e
  let f := emitterShare r n e
  q328 (match row with
    | 0 => mul64 f (div64 x y)
    | 1 => mul64 f one64
    | _ => mul64 f (div64 (sub64 (sub64 one64 x) y) y))

/-- (x / y, 1, z / y) of a chromaticity. -/
def xyzOf (x y : Flt) : Flt × Flt × Flt := (div64 x y, one64, div64 (sub64 (sub64 one64 x) y) y)

/-- A decimal chromaticity of `n` ten-thousandths, as binary64. -/
def dec4 (n : Nat) : Flt := div64 (f64 n) (f64 10000)

/-- The primaries and white of a canvas: red, green, blue, white as (x, y). -/
def primaries (canvas : List Byte) : List (Flt × Flt) :=
  match canvasSpace canvas with
  | 0 => [(dec4 6400, dec4 3300), (dec4 3000, dec4 6000), (dec4 1500, dec4 600), (dec4 3127, dec4 3290)]
  | 1 => [(dec4 7080, dec4 2920), (dec4 1700, dec4 7970), (dec4 1310, dec4 460), (dec4 3127, dec4 3290)]
  | _ => (List.range 4).map fun i => (div64 (f64 (u16 canvas (8 + 4 * i))) (f64 65536), div64 (f64 (u16 canvas (10 + 4 * i))) (f64 65536))

/-- R120: the matrix K of a canvas from linear RGB to XYZ, row-major, before rounding to Q3.28; none when the
determinant is zero. -/
def canvasKF (canvas : List Byte) : Option (List Flt) :=
  let p := (primaries canvas).map fun xy => xyzOf xy.1 xy.2
  let col (i : Nat) := p.getD i (one64, one64, one64)
  let el (r c : Nat) : Flt := match r with | 0 => (col c).1 | 1 => (col c).2.1 | _ => (col c).2.2
  let minor (r0 r1 c0 c1 : Nat) := sub64 (mul64 (el r0 c0) (el r1 c1)) (mul64 (el r0 c1) (el r1 c0))
  let det := add64 (sub64 (mul64 (el 0 0) (minor 1 2 1 2)) (mul64 (el 0 1) (minor 1 2 0 2))) (mul64 (el 0 2) (minor 1 2 0 1))
  match det with
  | .fin _ 0 _ => none
  | _ =>
    let adj (i j : Nat) : Flt :=
      let rs := (List.range 3).filter (· != j)
      let cs := (List.range 3).filter (· != i)
      let m := minor (rs.getD 0 0) (rs.getD 1 0) (cs.getD 0 0) (cs.getD 1 0)
      if (i + j) % 2 = 1 then fneg m else m
    let w (j : Nat) := el j 3
    let s (i : Nat) := add64 (add64 (mul64 (div64 (adj i 0) det) (w 0)) (mul64 (div64 (adj i 1) det) (w 1))) (mul64 (div64 (adj i 2) det) (w 2))
    some ((List.range 9).map fun k => mul64 (el (k / 3) (k % 3)) (s (k % 3)))

/-- R120: K in Q3.28. -/
def canvasK (canvas : List Byte) : List Int := ((canvasKF canvas).getD []).map q328

/-! ### SOLVE (R121) -/

/-- The result of SOLVE and the counts it makes. -/
structure Solved where
  drives : List Int := []
  neg : Bool := false
  fail : Bool := false
  gamut : Bool := false
  deriving DecidableEq, Repr, Inhabited

/-- Constants of one SOLVE: columns a, products b, weights w, target t. -/
structure SolveK where
  a : List (List Int)
  b : List (List Int)
  w : List Int
  t : List Int
  deriving DecidableEq, Repr, Inhabited

def mat (m : List (List Int)) (r e : Nat) : Int := (m.getD r []).getD e 0
def sumOver (l : List Nat) (f : Nat → Int) : Int := l.foldl (fun a e => a + f e) 0

/-- R121: the drives of one iteration from the free set; none on a determinant of 0 or below. -/
def solveIter (k : SolveK) (n : Nat) (free : List Nat) : Option (List Int) :=
  let g0 (r s : Nat) := sat32 (rnd (sumOver free (fun e => mat k.b r e * mat k.a s e)) 28)
  let g (r s : Nat) : Int := if r = s then twAdd (g0 r r) 4096 else g0 (min r s) (max r s)
  let c00 := g 1 1 * g 2 2 - g 1 2 * g 1 2
  let c01 := g 1 2 * g 0 2 - g 0 1 * g 2 2
  let c02 := g 0 1 * g 1 2 - g 1 1 * g 0 2
  let c11 := g 0 0 * g 2 2 - g 0 2 * g 0 2
  let c12 := g 0 1 * g 0 2 - g 0 0 * g 1 2
  let c22 := g 0 0 * g 1 1 - g 0 1 * g 0 1
  let det := g 0 0 * c00 + g 0 1 * c01 + g 0 2 * c02
  if det ≤ 0 then none
  else
    let sh : Int := (Nat.log2 det.toNat : Int) - 27
    let dn := if 1 ≤ sh then rnd det sh.toNat else det * 2 ^ (-sh).toNat
    let inv := rcp dn
    let c (i j : Nat) : Int := mat [[c00, c01, c02], [c01, c11, c12], [c02, c12, c22]] i j
    let y (i : Nat) := sat32 (rnd ((c i 0 * k.t.getD 0 0 + c i 1 * k.t.getD 1 0 + c i 2 * k.t.getD 2 0) * inv) (28 + sh).toNat)
    some ((List.range n).map fun e =>
      if e ∈ free then
        twMul (k.w.getD e 0) (sat32 (rnd (mat k.a 0 e * y 0 + mat k.a 1 e * y 1 + mat k.a 2 e * y 2) 28))
      else 0)

/-- The index of the smallest entry of `free`, the lowest on ties. -/
def argMin (d : List Int) (free : List Nat) : Nat :=
  free.foldl (fun m e => if d.getD e 0 < d.getD m 0 then e else m) (free.headD 0)

/-- R121: the six iterations, `left` to go; a failure stays. -/
def solveLoop : Nat → SolveK → Nat → List Nat → Bool → List Int → Bool × List Int
  | 0, _, _, _, fail, d => (fail, d)
  | left + 1, k, n, free, fail, _ =>
    match (if fail then none else solveIter k n free) with
    | none => solveLoop left k n free true (List.replicate n 0)
    | some d =>
      let m := argMin d free
      let free := if 0 < left ∧ 3 < free.length ∧ d.getD m 0 < 0 then free.filter (· != m) else free
      solveLoop left k n free false d

/-- R121: SOLVE for one pixel. -/
def solve (model canvas : List Byte) (c : Rgb) : Solved :=
  let n := modelEmitters model
  let kk := canvasK canvas
  let t (i : Nat) := sat32 (rnd (kk.getD (i * 3) 0 * c.r + kk.getD (i * 3 + 1) 0 * c.g + kk.getD (i * 3 + 2) 0 * c.b) 28)
  let w := (List.range n).map (solveW model n)
  let a := (List.range 3).map fun r => (List.range n).map (solveA model n r)
  let b := (List.range 3).map fun r => (List.range n).map fun e => twMul (w.getD e 0) (mat a r e)
  let res := solveLoop 6 ⟨a, b, w, [t 0, t 1, t 2]⟩ n (List.range n) false (List.replicate n 0)
  let neg := res.2.any (· < 0)
  let d := res.2.map (max 0 ·)
  let mx := d.foldl max 0
  if full < mx then { drives := d.map fun x => min (twMul x (rcp mx)) full, neg := neg, fail := res.1, gamut := true }
  else { drives := d, neg := neg, fail := res.1, gamut := false }

/-! ### Calibration, intensity, derate (R118, R122 to R124) -/

/-- R118: the calibration block of a leaf, if it has one. -/
def calBlock (leaf leafData : List Byte) : Option (List Byte) :=
  if leafCal leaf = 0xFFFFFFFF then none else some (slice leafData (leafCal leaf) 32)

def calGain (cal : Option (List Byte)) (e : Nat) : Nat :=
  match cal with
  | none => 0x8000
  | some b => u16 b (2 * e)

def calTemp (cal : Option (List Byte)) : Int :=
  match cal with
  | none => 0
  | some b => i16 b 16

/-- R122. -/
def gainStep (cal : Option (List Byte)) (d : List Int) : List Int :=
  d.mapIdx fun e x => min (twMul x (calGain cal e * 8192)) full

/-- R124: the derate factor at temperature `t` (0.01 °C). -/
def derate (model : List Byte) (t : Int) : Int :=
  let kn := u16 model 4
  let knee : Int := if kn = 0xFFFF then 8500 else signed 16 kn
  let slope := orDefault (u16 model 6) 0xFFFF 250
  let floor := orDefault (u16 model 8) 0xFFFF 2500
  let x := max (t - knee) 0
  let f := min (max (1000000 - slope * x) (floor * 100)) 1000000
  (f * 2 ^ 28 + 500000) / 1000000

/-- R123, R124: intensity and derate as one factor. -/
def intensity (master pint : Nat) (der : Int) : Int :=
  twMul (twMul (min master 0x8000 * 8192) (min pint 0x8000 * 8192)) der

/-! ### Dither and quantise (R131, R132) -/

/-- R132: a residual's value at seed activation. -/
def residual0 (dither slot e v : Nat) : Nat :=
  if dither = 2 then (slot * 0x9E37 + e * 0x79B9 + v * 0x3C6F) % 65536 else 0

/-- R131: the code and the new residual of drive `d`. -/
def quantise (dither bits : Nat) (d : Int) (r : Nat) : Nat × Nat :=
  let p := d * (2 ^ bits - 1)
  if dither = 0 then ((rnd p 28).toNat, r)
  else
    let acc := p + r * 4096
    let q := acc / 2 ^ 28
    (q.toNat, ((acc - q * 2 ^ 28) / 4096).toNat)

/-! ### Safety look and widening (R133, R134) -/

/-- R79, R133: the SAFETY record that covers a grove leaf index: record 0 when no other does. -/
def safetyRecOf (recs : List (List Byte)) (leaf : Nat) : List Byte :=
  ((recs.drop 1).find? (fun r => decide (u32 r 0 ≤ leaf) && decide (leaf < u32 r 0 + u32 r 4))).getD (recAt recs 0)

/-- R133: the code of emitter `e` under the look; `last` is the last code packed before the look. -/
def safetyCode (rec : List Byte) (bits e last : Nat) : Nat :=
  match u8 rec 8 with
  | 0 => 0
  | 1 =>
    let v := (u16 rec (12 + 2 * e) * u16 rec 10 + 32767) / 65535
    (v * (2 ^ bits - 1) + 32767) / 65535
  | _ => last

/-- R134: a code as the bytes or slots of a protocol field: 1 Leafcast, 2 sap line, 3 DMX512, 4 E1.31. Wider values
go most significant byte first. -/
def widen (protocol bits q : Nat) : Nat × Nat :=
  -- (field value, bytes)
  if protocol = 2 then
    (if bits = 8 then q * 257 else if bits = 12 then q * 16 + q / 256 else q, 2)
  else if bits = 8 then (q, 1)
  else (if bits = 12 then q * 16 + q / 256 else q, 2)

end Sys2Proof.Machine
end

