-- ==== Sys2Proof/Machine/Surface.lean ====
section
/-! DEFINITION. Surface formats, chroma upsampling, conversion to R'G'B' codes and the Burl decoder (R169 to R183),
to the byte. -/

namespace Sys2Proof.Machine

/-! ### Format codes (R169, R170) -/

def fmtIsLuma (f : Nat) : Bool := f / 64 == 1 && f / 16 % 4 != 3 && f / 2 % 4 != 3
def fmtIsBurlYuv (f : Nat) : Bool := decide (0xC0 ≤ f) && decide (f ≤ 0xC5)
def fmtIsBurl (f : Nat) : Bool := fmtIsBurlYuv f || f == 0xC8 || f == 0xD0
def fmtDefined (f : Nat) : Bool := fmtIsLuma f || f == 0x80 || f == 0x81 || fmtIsBurl f
/-- R170: the codes a video layer accepts. -/
def fmtVideo (f : Nat) : Bool := fmtIsLuma f || f == 0x80 || fmtIsBurlYuv f || f == 0xC8
/-- R171: the codes an input-fed layer may carry. -/
def fmtInput (f : Nat) : Bool := fmtIsLuma f || f == 0x80
/-- Depth of a luma/chroma or Burl Y'CbCr code. -/
def fmtDepth (f : Nat) : Nat := 8 + 2 * (f / 2 % 4)
def fmtFull (f : Nat) : Bool := f % 2 == 1
def fmtSampling (f : Nat) : Nat := f / 16 % 4
def fmtSemi (f : Nat) : Bool := f / 8 % 2 == 1
/-- R172: the container size of a sample. -/
def fmtContainer (f : Nat) : Nat := if fmtDepth f = 8 then 1 else 2

/-- R171: an input has the sampling structure, depth and component kind of a code. -/
def formFits (fmt : Nat) (f : InputForm) : Bool :=
  if fmtIsLuma fmt then !f.rgb && f.sampling.val == fmtSampling fmt && f.depth == fmtDepth fmt
  else f.rgb && f.sampling.val == 2 && f.depth == 10

/-! ### Planes (R173, R174, R178) -/

/-- One plane: its offset, pitch, rows and row length in bytes. -/
structure Plane where
  off : Nat := 0
  pitch : Nat := 0
  rows : Nat := 0
  rowLen : Nat := 0
  deriving DecidableEq, Repr, Inhabited

def ceilDiv (a b : Nat) : Nat := (a + b - 1) / b
def chromaCols (f w : Nat) : Nat := if fmtSampling f = 2 then w else ceilDiv w 2
def chromaRows (f h : Nat) : Nat := if fmtSampling f = 0 then ceilDiv h 2 else h

/-- R173: the planes of an uncompressed surface. -/
def planesOf (f w h base pitch p1 p2 : Nat) : List Plane :=
  if fmtIsLuma f then
    let s := fmtContainer f
    let cc := chromaCols f w
    let cr := chromaRows f h
    let y : Plane := ⟨base, pitch, h, w * s⟩
    if fmtSemi f then [y, ⟨base + p1, if fmtSampling f = 2 then 2 * pitch else pitch, cr, 2 * cc * s⟩]
    else
      let cp := if fmtSampling f = 2 then pitch else pitch / 2
      [y, ⟨base + p1, cp, cr, cc * s⟩, ⟨base + p2, cp, cr, cc * s⟩]
  else [⟨base, pitch, h, if f = 0x80 then 4 * w else 8 * w⟩]

/-- R178: tiles across and down. -/
def burlTiles (w h : Nat) : Nat × Nat := (ceilDiv w 32, ceilDiv h 8)

/-- R178: the data plane and the header plane of a Burl surface, as single rows. -/
def burlPlanes (w h base len p1 : Nat) : List Plane :=
  [⟨base, len, 1, len⟩, ⟨base + p1, (burlTiles w h).1 * (burlTiles w h).2 * 8, 1, (burlTiles w h).1 * (burlTiles w h).2 * 8⟩]

/-- R174: a plane's bytes lie in the trunk's 32 GiB and outside the guest partitions. -/
def planeFits (parts : List (Nat × Nat)) (p : Plane) : Bool :=
  let fin := p.off + p.pitch * (p.rows - 1) + p.rowLen
  decide (fin ≤ 2 ^ 35) && parts.all (fun g => g.2 == 0 || decide (fin ≤ g.1) || decide (g.1 + g.2 ≤ p.off))

/-- R174: the surface is acceptable. -/
def surfaceOk (parts : List (Nat × Nat)) (f w h base pitch p1 p2 : Nat) : Bool :=
  if fmtIsBurl f then
    base % 256 == 0 && p1 % 256 == 0 && decide (16 ≤ pitch) && (burlPlanes w h base pitch p1).all (planeFits parts)
  else
    let ps := planesOf f w h base pitch p1 p2
    base % 256 == 0 && ps.all (fun p => (p.off - base) % 256 == 0 && p.pitch % 64 == 0 && decide (p.rowLen ≤ p.pitch) && planeFits parts p)

/-- A surface as fetched: its format, size, planes, and for Burl the length of its data plane. -/
structure Surf where
  fmt : Nat
  width : Nat
  height : Nat
  planes : List Plane
  dataLen : Nat := 0
  deriving DecidableEq, Repr, Inhabited

/-- One decoded pixel: three codes at a depth with a 2-bit alpha code, or four binary16 patterns. -/
structure SurfPix where
  half : Bool := false
  depth : Nat := 8
  r : Nat := 0
  g : Nat := 0
  b : Nat := 0
  a : Nat := 3
  deriving DecidableEq, Repr, Inhabited

/-! ### Luma/chroma to R'G'B' (R175, R176) -/

/-- The coefficients m of R176: luma, Cr to R', Cb and Cr to G', Cb to B'. -/
structure YuvK where
  y : Int
  rCr : Int
  gCb : Int
  gCr : Int
  bCb : Int
  oy : Int
  oc : Int
  depth : Nat
  deriving DecidableEq, Repr, Inhabited

/-- R176: the conversion coefficients of a format on a canvas. -/
def yuvK (fmt : Nat) (canvas : List Byte) : YuvK :=
  let k := fmtDepth fmt
  let kf := (canvasKF canvas).getD []
  let kr := kf.getD 3 one64
  let kg := kf.getD 4 one64
  let kb := kf.getD 5 one64
  let full := fmtFull fmt
  let top := f64 (2 ^ k - 1)
  let sy := if full then one64 else div64 top (f64 (219 * 2 ^ (k - 8)))
  let sc := if full then one64 else div64 top (f64 (224 * 2 ^ (k - 8)))
  let m (x : Flt) : Int := (toFixed 16 x).getD 0
  let two := f64 2
  let mtwo := f64 (-2)
  { y := m sy,
    rCr := m (mul64 (mul64 two (sub64 one64 kr)) sc),
    gCb := m (div64 (mul64 (mul64 (mul64 mtwo kb) (sub64 one64 kb)) sc) kg),
    gCr := m (div64 (mul64 (mul64 (mul64 mtwo kr) (sub64 one64 kr)) sc) kg),
    bCb := m (mul64 (mul64 two (sub64 one64 kb)) sc),
    oy := if full then 0 else 16 * 2 ^ (k - 8), oc := 2 ^ (k - 1), depth := k }

/-- R176: Y'CbCr to R'G'B' codes. -/
def yuvToRgb (k : YuvK) (y cb cr : Nat) : SurfPix :=
  let ty := (y : Int) - k.oy
  let tb := (cb : Int) - k.oc
  let tr := (cr : Int) - k.oc
  let lim (x : Int) : Nat := (min (max (rnd x 16) 0) (2 ^ k.depth - 1)).toNat
  { depth := k.depth, r := lim (k.y * ty + k.rCr * tr), g := lim (k.y * ty + k.gCb * tb + k.gCr * tr), b := lim (k.y * ty + k.bCb * tb) }

/-- The sample of `s` bytes at byte offset `o`, its low `k` bits (R172). -/
def sampleAt (fetch : Nat → Byte) (s k o : Nat) : Nat :=
  (if s = 1 then (fetch o).toNat else (fetch o).toNat + 256 * (fetch (o + 1)).toNat) % 2 ^ k

/-- R175: chroma at luma position (x, y), vertically then horizontally. -/
def chromaAt (f cols rows : Nat) (c : Nat → Nat → Nat) (x y : Nat) : Nat :=
  let v (i : Nat) : Nat :=
    if fmtSampling f = 0 then
      let j := y / 2
      let n := if y % 2 = 0 then j - 1 else min (j + 1) (rows - 1)
      (3 * c j i + c n i + 2) / 4
    else c y i
  if fmtSampling f = 2 then v x
  else
    let i := x / 2
    if x % 2 = 0 then v i else (v i + v (min (i + 1) (cols - 1)) + 1) / 2

/-- A packed RGB10A2 word (R172). -/
def rgb10 (w : Nat) : SurfPix :=
  { depth := 10, r := w % 1024, g := w / 1024 % 1024, b := w / 1048576 % 1024, a := w / 1073741824 % 4 }

/-- The little-endian number of `n` fetched bytes. -/
def fetchLe (fetch : Nat → Byte) (o n : Nat) : Nat := ofLe ((List.range n).map (fun k => fetch (o + k)))

/-- R172 to R176: the pixel (x, y) of an uncompressed surface. -/
def plainPix (fetch : Nat → Byte) (k : YuvK) (u : Surf) (x y : Nat) : SurfPix :=
  let f := u.fmt
  let p0 := u.planes.getD 0 {}
  if fmtIsLuma f then
    let s := fmtContainer f
    let d := fmtDepth f
    let p1 := u.planes.getD 1 {}
    let p2 := u.planes.getD 2 {}
    let cols := chromaCols f u.width
    let rows := chromaRows f u.height
    let cb (j i : Nat) := sampleAt fetch s d (p1.off + j * p1.pitch + (if fmtSemi f then 2 * i else i) * s)
    let cr (j i : Nat) :=
      if fmtSemi f then sampleAt fetch s d (p1.off + j * p1.pitch + (2 * i + 1) * s)
      else sampleAt fetch s d (p2.off + j * p2.pitch + i * s)
    yuvToRgb k (sampleAt fetch s d (p0.off + y * p0.pitch + x * s)) (chromaAt f cols rows cb x y) (chromaAt f cols rows cr x y)
  else if f = 0x80 then rgb10 (fetchLe fetch (p0.off + y * p0.pitch + 4 * x) 4)
  else
    let h (c : Nat) := fetchLe fetch (p0.off + y * p0.pitch + 8 * x + 2 * c) 2
    { half := true, r := h 0, g := h 1, b := h 2, a := h 3 }

/-! ### Burl (R177 to R183) -/

/-- R177: the component depths of a Burl code. -/
def burlDepths (f : Nat) : List Nat :=
  if f = 0xC8 then [10, 10, 10, 2] else if f = 0xD0 then [16, 16, 16, 16] else [fmtDepth f, fmtDepth f, fmtDepth f]

/-- R177: the packed pixel size. -/
def burlPixBytes (f : Nat) : Nat := if f = 0xC8 then 4 else if f = 0xD0 then 8 else 3 * fmtContainer f

/-- R181 getbit: bit `pos` of tile data of `size` bytes. -/
def burlBit (d : Nat → Byte) (size pos : Nat) : Option (Nat × Nat) :=
  if size * 8 ≤ pos then none else some ((d (pos / 8)).toNat / 2 ^ (pos % 8) % 2, pos + 1)

/-- R181 getbits. -/
def burlBits (d : Nat → Byte) (size : Nat) : Nat → Nat → Option (Nat × Nat)
  | 0, pos => some (0, pos)
  | n + 1, pos => do
    let (b, pos) ← burlBit d size pos
    let (v, pos) ← burlBits d size n pos
    some (b + 2 * v, pos)

/-- R180: the unary quotient, at most 24, reading no stop bit at 24. -/
def burlUnary (d : Nat → Byte) (size : Nat) : Nat → Nat → Option (Nat × Nat)
  | 0, pos => some (0, pos)
  | n + 1, pos => do
    let (b, pos) ← burlBit d size pos
    if b = 0 then some (0, pos)
    else
      let (q, pos) ← burlUnary d size n pos
      some (q + 1, pos)

/-- Index of component `c`, row `y`, column `x` of a tile's samples. -/
def pxIdx (c y x : Nat) : Nat := (c * 8 + y) * 32 + x

/-- R181 predict. -/
def burlPredict (pred : Nat) (px : List Nat) (c x y : Nat) : Nat :=
  let at' (y x : Nat) := px.getD (pxIdx c y x) 0
  if x = 0 ∧ y = 0 then 0
  else if y = 0 then at' 0 (x - 1)
  else if x = 0 then at' (y - 1) 0
  else
    let a := at' y (x - 1)
    let b := at' (y - 1) x
    let e := at' (y - 1) (x - 1)
    match pred with
    | 0 => a
    | 1 => b
    | 2 => (a + b) / 2
    | _ => if max a b ≤ e then min a b else if e ≤ min a b then max a b else a + b - e

/-- R181: one sample of a block. -/
def burlSample (d : Nat → Byte) (size pred dep k zf c x y : Nat) (st : Nat × List Nat) : Option (Nat × List Nat) := do
  let (pos, px) := st
  let (u, pos) ←
    if zf ≠ 0 then some (0, pos)
    else do
      let (q, pos) ← burlUnary d size 24 pos
      if q = 24 then burlBits d size dep pos
      else
        let (v, pos) ← burlBits d size k pos
        some (q * 2 ^ k + v, pos)
  if 2 ^ dep ≤ u then none
  else
    let r : Int := if u % 2 = 0 then u / 2 else -(((u + 1) / 2 : Nat) : Int)
    let v := (((burlPredict pred px c x y : Nat) : Int) + r) % (2 ^ dep : Nat)
    some (pos, px.set (pxIdx c y x) v.toNat)

/-- R181: one 4 × 4 block of one component: the zero flag, then 16 samples row-major. -/
def burlBlock (d : Nat → Byte) (size pred dep k c bx byy : Nat) (st : Nat × List Nat) : Option (Nat × List Nat) := do
  let (zf, pos) ← burlBit d size st.1
  (List.range 16).foldlM (fun st i => burlSample d size pred dep k zf c (bx * 4 + i % 4) (byy * 4 + i / 4) st) (pos, st.2)

/-- R180, R181: a CODED tile. -/
def burlCoded (d : Nat → Byte) (size pred : Nat) (deps ks : List Nat) : Option (List Nat) := do
  let nc := deps.length
  let st ← (List.range (16 * nc)).foldlM
    (fun st i => let blk := i / nc; let c := i % nc; burlBlock d size pred (deps.getD c 0) (ks.getD c 0) c (blk % 8) (blk / 8) st)
    (0, List.replicate 1024 0)
  some st.2

/-- The components of a packed pixel (R177). -/
def burlPacked (f : Nat) (d : Nat → Byte) (o : Nat) : List Nat :=
  if f = 0xC8 then
    let p := rgb10 (fetchLe d o 4)
    [p.r, p.g, p.b, p.a]
  else if f = 0xD0 then (List.range 4).map (fun c => fetchLe d (o + 2 * c) 2)
  else (List.range 3).map (fun c => sampleAt d (fmtContainer f) (fmtDepth f) (o + c * fmtContainer f))

/-- R179 to R183: one tile from its header; none in decode error. -/
def burlTile (fetch : Nat → Byte) (u : Surf) (t : Nat) : Option (List Nat) :=
  let base := (u.planes.getD 0 {}).off
  let hd := fetchLe fetch ((u.planes.getD 1 {}).off + 8 * t) 8
  let mode := getBits hd 60 2
  let pred := getBits hd 62 2
  let ks := [getBits hd 40 5, getBits hd 45 5, getBits hd 50 5, getBits hd 55 5]
  let size := (getBits hd 32 8 + 1) * 16
  let off := getBits hd 0 32 * 16
  let deps := burlDepths u.fmt
  let d (i : Nat) := fetch (base + off + i)
  let pb := burlPixBytes u.fmt
  if u.dataLen < off + size then none
  else match mode with
    | 0 =>
      if (List.range 4).any (fun c => decide (deps.getD c 0 < ks.getD c 0)) then none
      else burlCoded d size pred deps ks
    | 1 =>
      if size < pb then none
      else
        let p := burlPacked u.fmt d 0
        some ((List.range 1024).map (fun i => p.getD (i / 256) 0))
    | 2 =>
      if size < 256 * pb then none
      else some ((List.range 1024).map (fun i => (burlPacked u.fmt d (i % 256 * pb)).getD (i / 256) 0))
    | _ => none

/-- R181: no tile of the surface is in decode error. -/
def burlOk (fetch : Nat → Byte) (u : Surf) : Bool :=
  let n := (burlTiles u.width u.height).1 * (burlTiles u.width u.height).2
  (List.range n).all (fun t => (burlTile fetch u t).isSome)

/-- The pixel (x, y) of a Burl surface. -/
def burlPix (fetch : Nat → Byte) (k : YuvK) (u : Surf) (x y : Nat) : SurfPix :=
  let px := (burlTile fetch u (y / 8 * (burlTiles u.width u.height).1 + x / 32)).getD []
  let c (i : Nat) := px.getD (pxIdx i (y % 8) (x % 32)) 0
  if u.fmt = 0xC8 then { depth := 10, r := c 0, g := c 1, b := c 2, a := c 3 }
  else if u.fmt = 0xD0 then { half := true, r := c 0, g := c 1, b := c 2, a := c 3 }
  else yuvToRgb k (c 0) (c 1) (c 2)

/-- R172 to R183: the pixel (x, y) of a surface as R'G'B' codes. -/
def surfPix (fetch : Nat → Byte) (k : YuvK) (u : Surf) (x y : Nat) : SurfPix :=
  if fmtIsBurl u.fmt then burlPix fetch k u x y else plainPix fetch k u x y

end Sys2Proof.Machine
end

