-- ==== Sys2Proof/Machine/Compose.lean ====
section
/-! DEFINITION. Composition of one canvas frame: scalers, LUTs, blending and the heartwood (R143 to R148), to the
bit. -/

namespace Sys2Proof.Machine

/-! ### Scaler (R147, R148) -/

/-- R148: a coefficient as the spec leaves it: any signed 2.10 value, read as 12 bits (DEDUCED). -/
def rawCoef (t phase k : Nat) : Int :=
  let w := (Config.scalerCoef t phase (k / 2)).toNat
  signed 12 (if k % 2 = 0 then w % 65536 else w / 65536)

/-- R148: the coefficient that brings the sum of a phase to 1,024. -/
def lastCoef (t phase : Nat) : Int := 1024 - (List.range (t - 1)).foldl (fun a j => a + rawCoef t phase j) 0

/-- R148: coefficient `k` of `t` taps at a phase: any set of signed 2.10 values that sum to 1,024. Where the open values make no such set,
one tap has it all. -/
def scalerCoef (t phase k : Nat) : Int :=
  if t ≤ k then 0
  else if -2048 ≤ lastCoef t phase ∧ lastCoef t phase < 2048 then (if k + 1 = t then lastCoef t phase else rawCoef t phase k)
  else if k + 1 = t then 1024 else 0

/-- R147: the tap positions and phase for output index `x` of source size `s` and destination size `d`. -/
def scalerTaps (s d t x : Nat) : List Nat × Nat :=
  let st := (s * 65536 + d / 2) / d
  let p : Int := (x * st + st / 2 : Nat) - 32768
  let i := p / 65536
  let tp (k : Nat) : Nat := (min (max (i - (t / 2 : Nat) + 1 + k) 0) ((s : Int) - 1)).toNat
  ((List.range t).map tp, (p % 65536).toNat / 1024)

/-- R147: a code brought to 10 bits. -/
def toTen (depth c : Nat) : Nat :=
  if depth = 12 then min ((c + 2) / 4) 1023 else if depth = 8 then c * 4 + c / 64 else c

/-- R147: one component of the scaled pixel at (x, y) of the destination, from `get i j` of the source. -/
def scaleComp (get : Nat → Nat → Nat) (sw sh dw dh vt ht top x y : Nat) : Nat :=
  let (xs, xp) := scalerTaps sw dw ht x
  let (ys, yp) := scalerTaps sh dh vt y
  let col (i : Nat) : Int := (List.range vt).foldl (fun a k => a + scalerCoef vt yp k * get i (ys.getD k 0)) 0
  let h : Int := (List.range ht).foldl (fun a k => a + scalerCoef ht xp k * col (xs.getD k 0)) 0
  (min (max (rnd h 20) 0) top).toNat

/-- R147: the pixel at (x, y) of a scaled layer. -/
def scalePix (get : Nat → Nat → SurfPix) (sw sh dw dh vt ht x y : Nat) : SurfPix :=
  let sc (f : SurfPix → Nat) (top : Nat) := scaleComp (fun i j => f (get i j)) sw sh dw dh vt ht top x y
  { depth := 10, r := sc (fun p => toTen p.depth p.r) 1023, g := sc (fun p => toTen p.depth p.g) 1023,
    b := sc (fun p => toTen p.depth p.b) 1023, a := sc (·.a) 3 }

/-! ### LUTs (R144, R146) -/

/-- R144: entry `i` of channel `c` of a pre-blend LUT; length 0 is the identity table. -/
def preLut (lut : List Byte) (c i : Nat) : Flt :=
  if lut = [] then
    let q := fdiv bin64 (fint i) (fint 4095)
    -- i / 4,095 to the nearest binary16: the binary64 quotient is never a tie of binary16
    match q with
    | .fin n m e => fround bin16 n m e
    | x => x
  else ofHalf (u16 lut ((c * 4096 + i) * 2))

/-- R144: a code widened to a 12-bit index. -/
def lutIndex (depth c : Nat) : Nat :=
  if depth = 8 then c * 16 + c / 16 else if depth = 10 then c * 4 + c / 256 else c

def fl32 := fround bin32
def f32 (x : Flt) : Flt :=
  match x with
  | .fin n m e => fround bin32 n m e
  | y => y

/-- R146: the post-blend LUT on one channel's binary16 pattern. -/
def postLut (lut : List Byte) (c p : Nat) : Nat :=
  if lut = [] then p
  else
    let neg := decide (2 ^ 15 < p)
    let q := p % 2 ^ 15
    let l (i : Nat) := ofHalf (u16 lut ((c * 4096 + i) * 2))
    let i := q / 8
    let f := q % 8
    let prod := fmul bin32 (fsub bin32 (l (i + 1)) (l i)) (.fin false f (-3))
    let out := toHalfSat (fadd bin32 (l i) prod)
    if neg then (out + 2 ^ 15) % 2 ^ 16 else out

/-! ### Sources and blending (R145) -/

/-- R145: a NaN source value is 0 and counts. -/
def noNan : Flt → Flt × Nat
  | .nan => (.fin false 0 0, 1)
  | x => (x, 0)

/-- R145: the alpha of a binary16 surface, clamped to [0, 1], NaN taken as 0. -/
def halfAlpha (h : Nat) : Flt :=
  match ofHalf h with
  | .nan => .fin false 0 0
  | .inf n => if n then .fin false 0 0 else one64
  | .fin n m e =>
    if n then .fin false 0 0
    else if (2 : Nat) ^ 24 ≤ m * 2 ^ (e + 24).toNat then one64 else .fin n m e

/-- A binary16 quadruple as a source. -/
def halfSrc (r g b a : Nat) : Src :=
  let x := noNan (ofHalf r)
  let y := noNan (ofHalf g)
  let z := noNan (ofHalf b)
  { r := x.1, g := y.1, b := z.1, a := halfAlpha a, nan := x.2 + y.2 + z.2 }

/-- R144, R145: a decoded pixel through the pre-blend LUT. -/
def srcOf (lut : List Byte) (p : SurfPix) : Src :=
  if p.half then halfSrc p.r p.g p.b p.a
  else
    let c (k v : Nat) := preLut lut k (lutIndex p.depth v)
    { r := c 0 p.r, g := c 1 p.g, b := c 2 p.b, a := fdiv bin32 (fint p.a) (fint 3) }

/-- R145: one channel of the blend. -/
def blend (a cs cd : Flt) : Flt :=
  fadd bin32 (fmul bin32 cs a) (fmul bin32 cd (fsub bin32 one64 a))

/-- R145: a source over the accumulator at an opacity. -/
def blendSrc (opacity : Nat) (s : Src) (acc : Flt × Flt × Flt) : Flt × Flt × Flt :=
  let a := fmul bin32 s.a (.fin false (min opacity 0x8000) (-15))
  (blend a s.r acc.1, blend a s.g acc.2.1, blend a s.b acc.2.2)

/-- A layer as drawn in one frame: its tree layer index, opacity, and its source over the canvas. -/
abbrev Drawn := Nat × Nat × (Nat → Nat → Option Src)

/-- R143 steps 1 to 7 at a canvas pixel, outside the heartwood area. -/
def composePix (post : List Byte) (ls : List Drawn) (x y : Nat) : Nat :=
  let z : Flt := .fin false 0 0
  let acc := ls.foldl (fun acc l => match l.2.2 x y with | some s => blendSrc l.2.1 s acc | none => acc) (z, z, z)
  postLut post 0 (toHalfSat acc.1) + 65536 * postLut post 1 (toHalfSat acc.2.1) + 2 ^ 32 * postLut post 2 (toHalfSat acc.2.2) + 2 ^ 48 * 0x3C00

/-- R145: NaN source values a layer meets over the pixels it blends. -/
def nanCount (w h : Nat) (inHw : Nat → Nat → Bool) (l : Drawn) : Nat :=
  (List.range (w * h)).foldl (fun a i =>
    if inHw (i % w) (i / w) then a
    else match l.2.2 (i % w) (i / w) with | some s => a + s.nan | none => a) 0

/-- R156: a canvas pixel lies in the heartwood area. -/
def inHeartwood (hw : Nat × Nat × Nat × Nat) (x y : Nat) : Bool :=
  decide (hw.1 ≤ x) && decide (x < hw.2.2.1) && decide (hw.2.1 ≤ y) && decide (y < hw.2.2.2)

/-- R156, R157: the heartwood pixel from its content; pixels of a failed 512-pixel block are opaque black. -/
def heartwoodPix (content : List Byte) (hw : Nat × Nat × Nat × Nat) (bad : List Nat) (x y : Nat) : Nat :=
  let i := (y - hw.2.1) * (hw.2.2.1 - hw.1) + (x - hw.1)
  if (i / 512) ∈ bad then 2 ^ 48 * 0x3C00
  else ofLe (slice content (8 * i) 6) + 2 ^ 48 * 0x3C00

/-- R143: the pixels of a canvas frame, row by row. -/
def composeFrame (w h : Nat) (hw : Nat × Nat × Nat × Nat) (content : List Byte) (bad : List Nat) (post : List Byte)
    (ls : List Drawn) : List Nat :=
  (List.range (w * h)).map fun i =>
    let x := i % w
    let y := i / w
    if inHeartwood hw x y then heartwoodPix content hw bad x y else composePix post ls x y

end Sys2Proof.Machine
end

