-- ==== Sys2Proof/Machine/Axes.lean ====
section
/-! DEFINITION. Show axes (R29 to R57): lock, loss, steps, snaps, the mains axis, and event slots. -/

namespace Sys2Proof.Machine

/-- The number nearest to `p` that leaves the rest `r` modulo `m`. -/
def nearest (p m r : Nat) : Nat :=
  let b := p / m * m + r % m
  if 2 * b + m ≤ 2 * p then b + m else if 2 * p + m < 2 * b ∧ m ≤ b then b - m else b

/-- `a / b` rounded to the nearest integer. -/
def roundDiv (a b : Nat) : Nat := if b = 0 then 0 else (2 * a + b) / (2 * b)

/-- Advance per fabric cycle, in 2^-32 raw units, of `units` whole counts in `period` (2^-16 ns). -/
def advOf (units period : Nat) : Nat := if period = 0 then 0 else units * 2 ^ 64 * 163840 / period

/-- The whole counts that pass in `gap` (2^-16 ns) at an advance, rounded to the nearest. -/
def countsIn (adv gap : Nat) : Nat := roundDiv (gap * adv) (2 ^ 64 * 163840)

namespace State

/-! ### Position, rate and state of an axis -/

/-- R54: the register words of a position. MAINS shows 2^-16 cycle (R32). -/
def posWords (s : State) (n : Nat) : Nat :=
  let p := s.axisPos n
  posForm n (if n = 12 then p / 65536 * 65536 else p)

/-- The epoch key of what follows a cadence: canvases 0 to 7, the tree 99, rasters 50 to 65, port records from
100. -/
def epochKey : EpochOf → Nat
  | .canvas c => c.val
  | .raster t g => 50 + t.idx * 8 + g.val
  | .port r => 100 + r

/-- R45: the cadence of a follower of the running seed, by epoch key. -/
def cadenceOf (s : State) (key : Nat) : Nat :=
  if key = 99 then s.sd.epochCadence
  else if key < 50 then canvasCadence (s.canvasRec key)
  else if key < 99 then
    s.aget (Reg.RastCtrl.cadence (if key < 58 then .a else .b) ((key - 50) % 8))
  else portCadence (s.portRec (key - 100))

/-- R45: the epoch keys of what follows a cadence of the running seed. -/
def followers (s : State) : List Nat :=
  if s.seed.isNone then []
  else 99 :: List.range s.canvasCount ++ (List.range 16).map (· + 50) ++
    (s.portIdxs.filter (fun i => portCadence (s.portRec i) != 0xFF)).map (· + 100)

/-- R46: the cadence point that a follower is to pass now: the latest one at or before the axis, if it has not been passed. -/
def pointDue (s : State) (key c : Nat) : Option Nat :=
  let a := s.sd.cadAxis c
  if !s.hasPos a then none
  else
    match s.sd.cadIndex c (s.axisPos a) with
    | none => none
    | some k =>
      match s.cadence.find? key with
      | some l => if l < k then some k else none
      | none => some k

/-- R44: an epoch of the running seed on axis `n`, or on one before it, is due in this cycle. -/
def internalDue (s : State) (n : Nat) : Bool :=
  s.seed.isSome && !s.twin.loaded.isEmpty && s.followers.any fun key =>
    (decide (key < 50 ∨ 99 ≤ key) || s.rastActive (if key < 58 then .a else .b) ((key - 50) % 8)) &&
      decide (s.sd.cadAxis (s.cadenceOf key) ≤ n) && (s.pointDue key (s.cadenceOf key)).isSome

/-- R46: a follower counts from the cadence point at or before a position. -/
def countFrom (s : State) (key p : Nat) : State :=
  match s.sd.cadIndex (s.cadenceOf key) p with
  | some k => { s with cadence := s.cadence.set key k }
  | none => { s with cadence := s.cadence.erase key }

/-- R46: after a backward step, a first lock or a fall back to a held position, followers of the axis count from the point at
or before the new position. At a first lock that point has no epoch of its own: R46 names no previous position there (DESIGN
CHOICE). -/
def rebaseCadences (s : State) (n : Nat) : State :=
  let keys := ((s.followers ++ s.cadence.map (·.1)).eraseDups).filter (fun e => s.sd.cadAxis (s.cadenceOf e) == n)
  keys.foldl (fun s e => s.countFrom e (s.axis n).pos) { s with skipSeen := s.skipSeen.filter (fun e => s.sd.cadAxis e.1 != n) }

/-- R35, R37: a change of axis state sets `state_chg`, writes an event and raises ATTN_TIME. -/
def setAxisState (s : State) (n v : Nat) : State :=
  if s.axisState n = v then s
  else
    let s := s.fset (Reg.AxisStatus.state n) v
    let s := if v ≤ 1 then s.setRegN (Reg.axisRate n) 0 else s
    (s.flag (Reg.AxisStatus.stateChg n) 0).attnTime

/-- R190: the first frame of a generator after a step of its governing axis starts as a timing change does. -/
def rasterStep (s : State) (n : Nat) : State :=
  { s with rasters := s.rasters.map fun e =>
      let c := s.aget (Reg.RastCtrl.cadence (if e.1 < 8 then .a else .b) (e.1 % 8))
      if s.sd.cadAxis c = n then (e.1, { e.2 with modeChange := true, afterEnd := true }) else e }

/-- R37: a step sets its bit, counts, writes an event and raises ATTN_TIME. -/
def recordStep (s : State) (n : Nat) (fwd : Bool) : State :=
  let s := (s.rasterStep n).bump (Reg.axisStepCnt n)
  (s.flag (if fwd then Reg.AxisStatus.stepFwd n else Reg.AxisStatus.stepBack n) 0).attnTime

/-- R29, R37: the step threshold of an axis in raw units; `relock` selects the PTP default at re-lock, where a
default of a LOCKED PTP axis takes every servo phase step. -/
def stepThr (s : State) (n : Nat) (relock : Bool) : Nat :=
  let st := s.sd.stepThreshold n
  if st ≠ 0 then st * 65536
  else if n < 4 then (if relock then s.fget (Reg.TimePtpThresh.lockNs n) * 65536 else 1)
  else if n < 12 then 2 ^ 30
  else if n = 12 then 4096 * 65536
  else 2 ^ 32

/-- R37: an axis takes a new position; a difference of at least the threshold is a step. -/
def takePos (s : State) (n p : Nat) (thr : Nat) : State :=
  let old := (s.axis n).pos
  let s := s.setAxis n { s.axis n with pos := p, rxPos := p, acc := 0 }
  if p = old then s
  else if old < p then (if thr ≤ p - old then s.recordStep n true else s)
  else
    let s := s.rebaseCadences n
    if thr ≤ old - p then s.recordStep n false else s

/-- R53: `AXIS_n_RATE`: the deviation of the measured rate from nominal, in 2^-32. -/
def setRate (s : State) (n adv : Nat) : State :=
  let nom := s.nominalAdv n
  let dev : Int := if nom = 0 then 0 else ((adv : Int) - nom) * 2 ^ 32 / nom
  (s.setAxis n { s.axis n with adv := adv }).setRegN (Reg.axisRate n) (unsigned 32 dev)

/-- R38: a MAINS axis that re-locks takes the measured phase, with the count nearest to the extrapolated position. -/
def nearestCycle (old phase : Nat) : Nat := nearest old (2 ^ 32) phase

/-- R35, R37, R38: the lock criterion is met: SEEKING or HOLDOVER enters LOCKED at the source's position and rate, and a LINE
axis takes the lines per frame received (R126). Every lock out of SEEKING counts as a first lock (R32, R33), also the one
after `relock`, which the spec leaves open: MAINS counts from 0 again (DESIGN CHOICE). -/
def lockAxis (s : State) (n p adv : Nat) : State :=
  match s.axisState n with
  | 1 =>
    let p := if n = 12 then p % 2 ^ 32 else p
    let s := s.setAxis n { s.axis n with pos := p, rxPos := p, acc := 0, locked1 := true, nLines := (s.axis n).lines }
    let s := (s.setRate n adv).setAxisState n 2
    s.rebaseCadences n
  | 3 =>
    let p := if n = 12 then nearestCycle (s.axis n).pos p else p
    let s := (s.setAxis n { s.axis n with nLines := (s.axis n).lines }).takePos n p (s.stepThr n true)
    (s.setRate n adv).setAxisState n 2
  | _ => s

/-- R36: under HALT a count axis falls back to the last position received from its source; it is no step (DESIGN CHOICE). A PTP
axis receives its position in every cycle. -/
def fallBack (s : State) (n : Nat) : State :=
  let a := s.axis n
  if n < 4 ∨ !s.fbit (Reg.AxisCtrl.holdMode n) then s
  else
    let s := s.setAxis n { a with pos := a.rxPos, acc := 0 }
    if a.rxPos < a.pos then s.rebaseCadences n else s

/-- R36: LOCKED enters HOLDOVER under the hold mode; FREE never loses its source. -/
def loseAxis (s : State) (n : Nat) : State :=
  if n ≠ 17 ∧ s.axisState n = 2 then ((s.setAxis n { s.axis n with good := 0 }).fallBack n).setAxisState n 3 else s

/-- R37: a LOCKED axis jumps to a new source position. -/
def stepAxis (s : State) (n p : Nat) : State :=
  if n ≠ 17 ∧ s.axisState n = 2 then s.takePos n p (s.stepThr n false) else s

/-- R36, R55: `relock` drops a bound axis other than FREE to SEEKING. -/
def relockAxis (s : State) (n : Nat) : State :=
  if n ≠ 17 ∧ s.axisState n ≠ 0 then
    (s.setAxis n { s.axis n with good := 0, locked1 := false }).setAxisState n 1
  else s

/-- R53, R54: one axis is captured into its SNAP registers. -/
def snapAxis (s : State) (n : Nat) : State :=
  s.setReg96 (Reg.axisSnapLo n) (Reg.axisSnapMid n) (Reg.axisSnapHi n) (s.posWords n)

/-- R53: every axis is captured in one cycle. -/
def snapAll (s : State) : State := (List.range 18).foldl snapAxis s

/-- R36: a run-time write of `hold_mode`. -/
def writeHoldMode (s : State) (n : Nat) (halt : Bool) : State :=
  if halt ∧ (n = s.epochAxis ∨ s.governsRaster n) then s.flag (Reg.AxisStatus.holdRefused n) 0
  else s.fsetB (Reg.AxisCtrl.holdMode n) halt

/-! ### Interrupt sources of the AXIS event slots (R53, R338) -/

/-- R340: source `src` pends in a trunk's interrupt controller. -/
def pendBit (s : State) (t : Trunk) (src : Nat) : State :=
  let i := s.icus.get ({} : IcuSt) t.idx
  let a := Reg.icuPendSet t (src / 32)
  ({ s with icus := s.icus.set t.idx { i with edges := i.edges.set src (i.edges.get 0 src + 1) } }).setRegN a (setBits (s.regN a) (src % 32) 1 1)

/-- R340: a hardware edge pends source `src` in a trunk's interrupt controller. -/
def pendSource (s : State) (t : Trunk) (src : Nat) : State := (s.noteSet ⟨Reg.icuPendSet t (src / 32), src % 32, 1⟩ 1).pendBit t src

/-- An input edge reaches both trunks under one arrival tag (R13). -/
def pendBoth (s : State) (src : Nat) : State :=
  (s.nextTag.pendSource .a src).pendSource .b src

/-! ### Event slots (R41 to R44, R55, R56) -/

def evtState (s : State) (m : Nat) : Nat := s.fget (Reg.AxisEvtStatus.state m)
def evtAxis (s : State) (m : Nat) : Nat := s.fget (Reg.AxisEvtCtrl.axis m)
/-- The event position as its 96-bit form. -/
def evtPos (s : State) (m : Nat) : Nat := s.reg96 (Reg.axisEvtPosLo m) (Reg.axisEvtPosMid m) (Reg.axisEvtPosHi m)

/-- R43: events are evaluated on LOCKED axes, and in HOLDOVER unless the axis halts. -/
def axisRuns (s : State) (n : Nat) : Bool :=
  s.axisState n == 2 || s.axisState n == 3 && !s.fbit (Reg.AxisCtrl.holdMode n)

/-- R41: an armed event is due in this cycle. -/
def evtDue (s : State) (m : Nat) : Bool :=
  s.evtState m == 1 && s.axisRuns (s.evtAxis m) && decide (s.evtPos m ≤ s.posWords (s.evtAxis m))

/-- R44: a due event that comes before slot `m` in this cycle: ascending axis index, then ascending slot. -/
def evtBefore (s : State) (m j : Nat) : Bool :=
  s.evtDue j && (decide (s.evtAxis j < s.evtAxis m) || s.evtAxis j == s.evtAxis m && decide (j < m))

/-- R42, R55: the event is late when its axis stands at or past the end of its lateness window. -/
def evtLate (s : State) (m : Nat) : Bool :=
  let l := s.regN (Reg.axisEvtLimit m)
  let n := s.evtAxis m
  l != 0xFFFFFFFF && decide (posRaw n (s.evtPos m) + l * 65536 ≤ posRaw n (s.posWords n))

/-- R480: the `args` of an event slot's event. -/
def evtArgs (s : State) (m final : Nat) : List Byte :=
  leBytes 2 m ++ leBytes 1 (s.evtAxis m) ++ leBytes 1 final ++ leBytes 12 (s.evtPos m) ++ leBytes 12 (s.posWords (s.evtAxis m))

/-- R53, R57: the actions of a fired event: the write joins the scheduled writes, the guest source pends. -/
def evtActions (s : State) (m : Nat) : State :=
  let s := if s.fbit (Reg.AxisEvtCtrl.actWrite m) then
    { s with schedQ := s.schedQ ++ [(s.fget (Reg.AxisEvtAddr.addr m) * 4, s.reg (Reg.axisEvtData m))] } else s
  if s.fbit (Reg.AxisEvtCtrl.actGuest m) then s.pendBoth (512 + m) else s

/-- R41, R42: a due event fires on time, fires late or is dropped. -/
def evtFire (s : State) (m : Nat) : State :=
  if s.evtLate m then
    if s.fbit (Reg.AxisEvtCtrl.policy m) then
      (s.rootEvent 0x40000 0x0803 0 (s.evtArgs m 4)).fset (Reg.AxisEvtStatus.state m) 4
    else
      ((s.rootEvent 0x40000 0x0802 0 (s.evtArgs m 3)).fset (Reg.AxisEvtStatus.state m) 3).evtActions m
  else
    let s' := if s.fbit (Reg.AxisEvtCtrl.actRecord m) then s.rootEvent 0x40000 0x0801 0 (s.evtArgs m 2) else s
    (s'.fset (Reg.AxisEvtStatus.state m) 2).evtActions m

/-- R56: arming refuses a non-canonical position, an OFF axis, or a slot without an action. -/
def evtRefused (s : State) (m : Nat) : Bool :=
  !canonical (s.evtAxis m) (s.evtPos m) || s.axisState (s.evtAxis m) == 0 ||
  !(s.fbit (Reg.AxisEvtCtrl.actRecord m) || s.fbit (Reg.AxisEvtCtrl.actGuest m) || s.fbit (Reg.AxisEvtCtrl.actWrite m))

/-- R56: a write of `arm`. -/
def evtArmOp (s : State) (m : Nat) : State :=
  if s.evtState m = 1 then s.fset (Reg.AxisEvtStatus.wrIgnored m) 1
  else s.fset (Reg.AxisEvtStatus.state m) (if s.evtRefused m then 5 else 1)

/-- R56: a write of `disarm` alone has no effect in the cycle in which the event fires. -/
def evtDisarmOp (s : State) (m : Nat) : State :=
  if s.evtState m = 1 ∧ !s.evtDue m then s.fset (Reg.AxisEvtStatus.state m) 0 else s

/-- R56: `arm` and `disarm` together are ignored; `wr_ignored` sets only on an ARMED slot. -/
def evtBothOp (s : State) (m : Nat) : State :=
  if s.evtState m = 1 then s.fset (Reg.AxisEvtStatus.wrIgnored m) 1 else s

/-! ### The mains axis (R35, R39) -/

/-- R35, R39: a period of 47 Hz to 63 Hz. -/
def mainsPeriod (period : Nat) : Bool := decide (second ≤ 63 * period) && decide (47 * period ≤ second)

/-- Two periods within 1 % of each other. -/
def within1pc (period last : Nat) : Bool := decide (period * 100 ≤ last * 101) && decide (last * 99 ≤ period * 100)

/-- R35: a crossing is valid at 70 V rms or more with a period between 1/63 s and 1/47 s, within 1 % of the one
before, where that one lay in the range. -/
def crossingGood (volts period last : Nat) : Bool :=
  decide (70 ≤ volts) && mainsPeriod period && (!mainsPeriod last || within1pc period last)

/-- R39: the loop of 0.5 s: the advance after `gap` in which the mains moved at `meas`. -/
def mainsLoop (adv meas gap : Nat) : Nat :=
  ((adv : Int) + ((meas : Int) - adv) * gap / ((gap + second / 2 : Nat) : Int)).toNat

/-- R39: a crossing of a LOCKED axis (`advOf 1` of an advance is its period): the crossings expected since the last one are told by the rate of the loop, so one that
stayed away (a short interruption) changes no rate. -/
def mainsFollow (s : State) (gap : Nat) : State :=
  let a := s.axis 12
  let adv := mainsLoop a.adv (advOf (max 1 (countsIn a.adv gap)) gap) gap
  let s := s.setRate 12 adv
  if mainsPeriod (advOf 1 adv) then s.takePos 12 (nearestCycle (s.axis 12).pos 0) (s.stepThr 12 false)
  else (s.fset (Reg.AxisStatus.rangeErr 12) 1).loseAxis 12

/-- R35, R39: a positive-going zero crossing. The position takes the measured phase. R35 gives each of its 8 consecutive crossings a
period and the one before it: the model counts 8 good periods, so 9 crossings (DESIGN CHOICE). Outside LOCKED two
consecutive periods out of range that agree set `range_err`. -/
def mainsCross (s : State) (volts : Nat) : State :=
  let a := s.axis 12
  let period := s.free - a.lastAt
  let first := a.lastAt = 0
  let ok := crossingGood volts period a.lastPeriod && !first
  if volts < 70 then s.setAxis 12 { a with good := 0 }
  else
    let s := s.setAxis 12 { a with lastAt := s.free, lastPeriod := if first then 0 else period, good := if ok then a.good + 1 else 0 }
    if s.axisState 12 = 0 ∨ first then s
    else if s.axisState 12 = 2 then s.mainsFollow period
    else if !mainsPeriod period && within1pc period a.lastPeriod then s.fset (Reg.AxisStatus.rangeErr 12) 1
    else if 8 ≤ (s.axis 12).good then s.lockAxis 12 0 (advOf 1 period)
    else s

end State

/-! ### Meanings -/

/-- AXIS_LOCK (R35, R37, R38): the position is in raw units; the rate is the deviation from nominal in
2^-32. -/
def execAxisLock (n : Fin 18) (pos : Nat) (rate : Int) (s : State) : Host.Outcome State Fault Refusal :=
  act s fun s =>
    let adv := ((s.nominalAdv n : Int) * (2 ^ 32 + rate) / 2 ^ 32).toNat
    s.lockAxis n pos adv

/-- AXIS_SOURCE_LOSS (R35, R36). -/
def execAxisSourceLoss (n : Fin 18) (s : State) : Host.Outcome State Fault Refusal :=
  act s fun s => s.loseAxis n

/-- AXIS_STEP (R37, R43, R46). -/
def execAxisStep (n : Fin 18) (pos : Nat) (s : State) : Host.Outcome State Fault Refusal :=
  act s fun s => s.stepAxis n pos

/-- AXIS_RELOCK (R36, R55). -/
def execAxisRelock (n : Fin 18) (s : State) : Host.Outcome State Fault Refusal :=
  act s fun s => s.relockAxis n

/-- AXIS_HOLD_MODE_WRITE (R36). -/
def execAxisHoldModeWrite (n : Fin 18) (halt : Bool) (s : State) : Host.Outcome State Fault Refusal :=
  act s fun s => s.writeHoldMode n halt

/-- AXIS_SNAP (R53). -/
def execAxisSnap (n : Fin 18) (s : State) : Host.Outcome State Fault Refusal :=
  act s fun s => s.snapAxis n

/-- AXIS_SNAP_ALL (R53): every axis in one cycle. -/
def execAxisSnapAll (s : State) : Host.Outcome State Fault Refusal :=
  act s fun s => s.snapAll

/-- MAINS_ZERO_CROSSING (R35, R39, R479): the input voltage is measured with it. -/
def execMainsZeroCrossing (volts : Nat) (s : State) : Host.Outcome State Fault Refusal :=
  act s fun s => (s.fset Reg.PsuVin.vin (satTo 0xFFFF (volts * 10))).mainsCross volts

/-- EVT_ARM (R56). -/
def execEvtArm (m : Fin 256) (s : State) : Host.Outcome State Fault Refusal :=
  act s fun s => s.evtArmOp m

/-- EVT_DISARM (R56). -/
def execEvtDisarm (m : Fin 256) (s : State) : Host.Outcome State Fault Refusal :=
  act s fun s => s.evtDisarmOp m

/-- EVT_ARM_DISARM_BOTH (R56). -/
def execEvtArmDisarmBoth (m : Fin 256) (s : State) : Host.Outcome State Fault Refusal :=
  act s fun s => s.evtBothOp m

/-- AXIS_EVENT_FIRE (R41 to R44): slot `m` fires if it is due and no due event of the seed or of a slot comes before it. -/
def execAxisEventFire (m : Fin 256) (s : State) : Host.Outcome State Fault Refusal :=
  act s fun s => if s.evtDue m && !s.internalDue (s.evtAxis m) && !(List.range 256).any (s.evtBefore m) then s.evtFire m else s

end Sys2Proof.Machine
end

