-- ==== Sys2Proof/Machine/Crc.lean ====
section
/-! DEFINITION. Cyclic redundancy checks, bit by bit: CRC-32C of R60, CRC-64 of R302, CRC-16/CCITT of R253, and the
general engine of R403. -/

namespace Sys2Proof.Machine

/-- A check-value algorithm: width, polynomial, initial value, reflection of input and output, final XOR. -/
structure CrcAlg where
  width : Nat
  poly : Nat
  init : Nat
  refin : Bool
  refout : Bool
  xorout : Nat
  deriving DecidableEq, Repr

/-- The lowest `n` bits of `x`, reversed. -/
def reflect : Nat → Nat → Nat
  | 0, _ => 0
  | n + 1, x => x % 2 * 2 ^ n + reflect n (x / 2)

/-- One bit of input into the register, most significant bit first. -/
def crcBit (a : CrcAlg) (r : Nat) (b : Nat) : Nat :=
  let top := (r / 2 ^ (a.width - 1) + b) % 2
  let r := r * 2 % 2 ^ a.width
  if top = 1 then r ^^^ a.poly else r

/-- One byte of input. -/
def crcByte (a : CrcAlg) (r : Nat) (b : Byte) : Nat :=
  let v := if a.refin then reflect 8 b.toNat else b.toNat
  [7, 6, 5, 4, 3, 2, 1, 0].foldl (fun r i => crcBit a r (v / 2 ^ i % 2)) r

/-- The register after a byte string. -/
def crcRun (a : CrcAlg) (r : Nat) (l : List Byte) : Nat := l.foldl (crcByte a) r

/-- The check value a register gives. -/
def crcOut (a : CrcAlg) (r : Nat) : Nat := (if a.refout then reflect a.width r else r) ^^^ a.xorout

def crc (a : CrcAlg) (l : List Byte) : Nat := crcOut a (crcRun a a.init l)

/-- R60: CRC-32C. -/
def crc32cAlg : CrcAlg := ⟨32, 0x1EDC6F41, 0xFFFFFFFF, true, true, 0xFFFFFFFF⟩
def crc32c (l : List Byte) : Nat := crc crc32cAlg l

/-- R302: CRC-64. -/
def crc64Alg : CrcAlg := ⟨64, 0x42F0E1EBA9EA3693, 0xFFFFFFFFFFFFFFFF, true, true, 0xFFFFFFFFFFFFFFFF⟩
def crc64 (l : List Byte) : Nat := crc crc64Alg l

/-- R253: CRC-16/CCITT. -/
def crc16Alg : CrcAlg := ⟨16, 0x1021, 0xFFFF, false, false, 0⟩
def crc16 (l : List Byte) : Nat := crc crc16Alg l

/-- R302: the CRC-64 of a compare unit: port code and sequence, little-endian, then its content. -/
def CUnit.crc (u : CUnit) : BitVec 64 := BitVec.ofNat 64 (crc64 (leBytes 2 u.code ++ leBytes 6 u.seq ++ u.out.data))

end Sys2Proof.Machine
end

