-- ==== Sys2Proof/Machine/Launch.lean ====
section
/-! DEFINITION. Relations between axes, launch times and launch bases (R49 to R52), the mapping of port indexes, and
SAFE_ACK (R166). -/

namespace Sys2Proof.Machine

/-- An exact position: numerator and denominator of raw units. -/
abbrev QPos := Int × Nat

/-- The largest integer at most q. -/
def QPos.floor (p : QPos) : Int := p.1 / p.2
/-- The least integer at least q. -/
def QPos.ceil (p : QPos) : Int := -((-p.1) / p.2)

/-- R448, R472: the Ethernet ports with a pad in a bank. -/
def bankPorts : Nat → List Nat
  | 0 => List.range 8
  | 1 => (List.range 8).map (· + 8)
  | 2 => [48, 49]
  | 3 => (List.range 16).map (· + 16)
  | 4 => (List.range 16).map (· + 32)
  | 10 => (List.range 8).map (· + 50)
  | _ => []

namespace State

/-- R49, R50: the relation of follower `n` as the capture holds it; the declared one before any tree epoch. -/
def relOf (s : State) (n : Nat) : Int × Int × Int :=
  match s.rels.find? n with
  | some r => r
  | none => (s.sd.aNum n, s.sd.aDen n, s.sd.relB n)

/-- R50: an axis and the axes it follows, at most two relations deep. -/
def relChain (s : State) (n : Nat) : List Nat :=
  if s.sd.relKind n = 0 then [n]
  else
    let m := s.sd.relSource n
    if s.sd.relKind m = 0 then [n, m] else [n, m, s.sd.relSource m]

/-- From a follower to its source: (f - b) / a. -/
def relUp (s : State) (n : Nat) (p : QPos) : QPos :=
  let (an, ad, b) := s.relOf n
  ((p.1 - b * p.2) * ad, p.2 * an.toNat)

/-- From a source to its follower: s * a + b. -/
def relDown (s : State) (n : Nat) (p : QPos) : QPos :=
  let (an, ad, b) := s.relOf n
  (p.1 * an + b * p.2 * ad, p.2 * ad.toNat)

/-- R50: a position converted through the common source of two axes; none without one. -/
def convert (s : State) (p : QPos) (a b : Nat) : Option QPos :=
  let ca := s.relChain a
  let cb := s.relChain b
  match ca.find? (fun x => decide (x ∈ cb)) with
  | none => none
  | some c =>
    let up := ca.takeWhile (· != c)
    let down := (cb.takeWhile (· != c)).reverse
    some (down.foldl (fun p n => s.relDown n p) (up.foldl (fun p n => s.relUp n p) p))

/-- R51 step 1: the presentation lead in raw units of axis `g`, rounded up on a count axis. -/
def leadUnits (s : State) (g : Nat) : Nat :=
  if isTimeAxis g then s.sd.lead * 65536
  else (s.sd.lead * (s.capture.adv.getD g 0) * 2 + (5 * 2 ^ 32 - 1)) / (5 * 2 ^ 32)

/-- R51: the launch time in ns on launch base `base` of epoch `k` of cadence `cad`. -/
def launchNs (s : State) (cad k base : Nat) : Option Nat :=
  let g := s.sd.cadAxis cad
  match s.convert (((s.sd.cadPos cad k + s.leadUnits g : Nat) : Int), 1) g base with
  | none => none
  | some q => some (QPos.ceil (q.1, q.2 * 65536)).toNat

/-- The position of a launch base in raw units; none where it has no position (R54). -/
def basePos (s : State) (base : Nat) : Option Nat := if s.hasPos base then some (s.axisPos base) else none

/-- R52: the launch time of a frame has come. A base without a position gives no instant. -/
def due (s : State) (f : OutFrame) : Bool :=
  match s.basePos f.base with
  | some p => decide (f.launch * 65536 ≤ p)
  | none => false

/-- R52: launch time plus the lateness limit of the frame's output has come. -/
def pastLimit (s : State) (f : OutFrame) : Bool :=
  match s.basePos f.base with
  | some p => decide ((f.launch + portLateLimit (s.portRec f.portRec)) * 65536 ≤ p)
  | none => false

/-- R52: the frame reaches its launch queue after its launch time. -/
def lateNow (s : State) (f : OutFrame) : Bool :=
  match s.basePos f.base with
  | some p => decide (f.launch * 65536 < p)
  | none => false

/-! ### Port indexes (R205) -/

/-- R205: kind and number of Ethernet port index `n`. -/
def portKindNum (n : Nat) : Nat × Nat :=
  if n < 16 then (1, n) else if n < 48 then (2, n - 16) else if n < 50 then (3, n - 48) else (4, n - 50)

/-- R205: the port index of a kind and number. -/
def portIndex (kind number : Nat) : Nat :=
  match kind with
  | 1 => number
  | 2 => 16 + number
  | 3 => 48 + number
  | _ => 50 + number

/-- The PORTS record of Ethernet port `n`; none where PORTS does not list it. -/
def ethRec? (s : State) (n : Nat) : Option Nat := s.portOf? (portKindNum n).1 (portKindNum n).2

/-- The record bytes of Ethernet port `n`; no bytes where absent. -/
def ethRec (s : State) (n : Nat) : List Byte :=
  match s.ethRec? n with
  | some i => s.portRec i
  | none => []

/-! ### Settings (R433) -/

/-- R433: the value of the first record of a type in a settings body, looking at most at `fuel` records. -/
def settingIn : Nat → List Byte → Nat → Option (List Byte)
  | 0, _, _ => none
  | fuel + 1, l, type =>
    if l.length < 8 then none
    else
      let n := u32 l 4
      if u16 l 0 = type then some (slice l 8 n)
      else settingIn fuel (l.drop (8 + (n + 7) / 8 * 8)) type

/-- R433: the values of the records of a type in a settings body, looking at most at `fuel` records. -/
def settingsOf : Nat → List Byte → Nat → List (List Byte)
  | 0, _, _ => []
  | fuel + 1, l, type =>
    if l.length < 8 then []
    else
      let n := u32 l 4
      let r := settingsOf fuel (l.drop (8 + (n + 7) / 8 * 8)) type
      if u16 l 0 = type then slice l 8 n :: r else r

/-- The value of a settings record of the running settings. -/
def setting (s : State) (type : Nat) : Option (List Byte) := settingIn s.settingsBody.length s.settingsBody type

/-- R208: the module base MAC address; the factory's own value without settings. -/
def baseMac (s : State) : Nat :=
  match s.setting 2 with
  | some v => ofBe (v.take 6)
  | none => Config.unstated 208 0 % 2 ^ 48

/-- R208: the MAC address of Ethernet port `n`. -/
def portMac (s : State) (n : Nat) : Nat :=
  let m := ofBe (slice (portParams (s.ethRec n)) 12 6)
  if m = 0 then s.baseMac + n else m

/-! ### SAFE_ACK (R166) -/

/-- R166: SAFE_ACK rises once the first safety frames have launched on every leaf output. -/
def safetyLaunched (s : State) (rec : Nat) : State :=
  match s.safe.ackWait with
  | none => s
  | some l =>
    let l := l.filter (· != rec)
    if l = [] then { s with safe.ackWait := none, padSafeAck := true }.fset Reg.TreeSafeStatus.ack 1
    else { s with safe.ackWait := some l }

/-! ### Pad banks held disabled (R449) -/

/-- R449: a self-test could not restore pad bank `b`: it is held disabled. -/
def bankHeld (s : State) (b : Nat) : Bool := s.life.bistHeld.any fun k => k.1 == 3 && k.2.2 == b

/-- Ethernet port `n` has its pads in such a bank. -/
def ethHeld (s : State) (n : Nat) : Bool := (List.range 14).any fun b => s.bankHeld b && (bankPorts b).contains n

/-- R243, R449: DMX512 port `n` starts nothing: held off, or its pads are held disabled. -/
def dmxHeld (s : State) (n : Nat) : Bool := s.fbit (Reg.DmxCtrl.holdOff n) || s.bankHeld 9

/-- R271, R449: sap line `n` starts nothing. -/
def sapHeld (s : State) (n : Nat) : Bool := s.fbit (Reg.SapCtrl.holdOff n) || s.bankHeld (if n < 32 then 7 else 8)

end State

/-- Frames in launch order: ascending launch time, then sequence (R213). -/
def insertLaunch (f : OutFrame) : List OutFrame → List OutFrame
  | [] => [f]
  | g :: r => if f.launch < g.launch ∨ f.launch = g.launch ∧ f.seq < g.seq then f :: g :: r else g :: insertLaunch f r

end Sys2Proof.Machine
end

