-- ==== Sys2Proof/Machine/Mem.lean ====
section
/-! DEFINITION. Memory by tree address in one canonical form (R380, R393): what an unlisted address reads as, reads
and writes of byte strings, and the ranges that exist. -/

namespace Sys2Proof.Machine

/-- A byte nothing has written reads as 0 (DESIGN CHOICE). -/
def memDefault : Byte := 0

/-- The byte at an address. -/
def memGet : List Host.Cell → Nat → Byte
  | [], _ => memDefault
  | (b, v) :: r, a => if b = a then v else memGet r a

/-- Stores one byte, keeping addresses rising and dropping what reads as an unlisted address does. -/
def memPut : List Host.Cell → Nat → Byte → List Host.Cell
  | [], a, v => if v = memDefault then [] else [(a, v)]
  | (b, w) :: r, a, v =>
    if a < b then (if v = memDefault then (b, w) :: r else (a, v) :: (b, w) :: r)
    else if a = b then (if v = memDefault then r else (a, v) :: r)
    else (b, w) :: memPut r a v

/-- Every address of a list lies above `a`. -/
def memAbove (a : Nat) (l : List Host.Cell) : Bool := l.all (fun c => decide (a < c.1))

/-- The canonical form: addresses strictly rising, no entry that reads as an unlisted address does. -/
def memWf : List Host.Cell → Bool
  | [] => true
  | c :: r => memAbove c.1 r && decide (c.2 ≠ memDefault) && memWf r

/-- Stores a byte string. -/
def memPuts : List Host.Cell → Nat → List Byte → List Host.Cell
  | m, _, [] => m
  | m, a, v :: r => memPuts (memPut m a v) (a + 1) r

/-- The `n` bytes from `a` read 0 again. -/
def memZero (m : List Host.Cell) (a n : Nat) : List Host.Cell := m.filter (fun c => decide (c.1 < a) || decide (a + n ≤ c.1))

/-- The bytes of a range and no others, at their offset from `a`. -/
def memRange (m : List Host.Cell) (a n : Nat) : List Host.Cell := (m.filter (fun c => decide (a ≤ c.1) && decide (c.1 < a + n))).map (fun c => (c.1 - a, c.2))

/-- Reads `n` bytes. -/
def memGets (m : List Host.Cell) (a n : Nat) : List Byte := (List.range n).map (fun i => memGet m (a + i))

/-- R380: trunk DRAM in tree space, 32 GiB each. -/
def dramBase : Trunk → Nat
  | .a => 0x1000000000
  | .b => 0x1800000000

namespace State

/-- Memory.wf of the machine's state. -/
abbrev memOk (s : State) : Prop := memWf s.mem = true

def memRead (s : State) (a n : Nat) : List Byte := memGets s.mem a n
def memWrite (s : State) (a : Nat) (l : List Byte) : State := { s with mem := memPuts s.mem a l }

/-- A range of memory reads 0 again. -/
def memClear (s : State) (a n : Nat) : State := { s with mem := memZero s.mem a n }

/-- A range of memory becomes a copy of another. -/
def memCopy (s : State) (src dst n : Nat) : State :=
  { s with mem := (memRange s.mem src n).foldl (fun m c => memPut m (dst + c.1) c.2) (memZero s.mem dst n) }

def trunk (s : State) (t : Trunk) : TrunkSt := s.trunks.get {} t.idx
def putTrunk (s : State) (t : Trunk) (x : TrunkSt) : State := { s with trunks := s.trunks.set t.idx x }

end State

end Sys2Proof.Machine
end

