-- ==== Sys2Proof/Machine/Leaf.lean ====
section
/-! DEFINITION. The leaves a trunk works on: its own and, after a takeover, its grove partner's; their pixel slots, views,
canvases and reports (R71, R83, R84, R125, R129). -/

namespace Sys2Proof.Machine

/-- A job's leaf index from which the partner's leaves are counted. -/
def foreignLeaf : Nat := 2 ^ 24

namespace State

/-- R84: the partner's grove position; 0xFF without one. -/
def partnerPos (s : State) : Nat := if s.sd.isGrove then u8 (s.sd.groveRec s.grovePos) 1 else 0xFF

/-- The grove position of the tree whose partition holds a leaf. -/
def leafPos (s : State) (i : Nat) : Nat := if i < foreignLeaf then s.grovePos else s.partnerPos

/-- R83: the grove leaf index of a leaf. -/
def groveLeaf (s : State) (i : Nat) : Nat := (s.sd.leafRange (s.leafPos i)).1 + i % foreignLeaf

/-- The leaf record of a job's leaf index. -/
def leafAt (s : State) (i : Nat) : List Byte := recAt s.sd.leaves (s.groveLeaf i)

/-- A leaf with locate and sample work (R71, R97). -/
def leafWorks (r : List Byte) : Bool := leafType r != 5 && leafPixels r != 0

/-- The partner's KEEP leaves, as job indexes, in leaf-index order. -/
def partnerKeep (s : State) : List Nat :=
  if s.partnerPos = 0xFF then []
  else ((List.range (s.sd.leafRange s.partnerPos).2).map (· + foreignLeaf)).filter fun i =>
    leafPriority (s.leafAt i) == 0 && leafWorks (s.leafAt i)

/-- R84: the first pixel slot of a leaf; the partner's KEEP leaves follow this tree's highest slot. -/
def slotOf (s : State) (i : Nat) : Nat :=
  if i < foreignLeaf then leafFirst (s.leafAt i)
  else
    let top := (List.range s.leafCount).foldl (fun a j => let r := s.leafRec j; if leafWorks r then max a (leafFirst r + leafPixels r) else a) 0
    ((s.partnerKeep).takeWhile (· != i)).foldl (fun a j => a + leafPixels (s.leafAt j)) top

/-- R133: a leaf's emitters: its model's, or under the safety seed its `model` field. -/
def leafEmitters (s : State) (r : List Byte) : Nat :=
  if s.sd.isSafety then leafModel r else modelEmitters (s.modelRec (leafModel r))

/-- R131, R133: the code width of a leaf: its patch's, or under the safety seed by its protocol. -/
def leafBits (s : State) (r : List Byte) : Nat :=
  if s.sd.isSafety then (if leafProtocol r ≤ 2 then 16 else 8) else patchBits (s.patchRec (leafPatch r))

/-- R131: a patch's dither mode. -/
def ditherOf (s : State) (p : List Byte) : Nat := orDefault (patchDither p) 0xFF s.sd.dither

/-- R77: the record of a camera group. -/
def camRec (s : State) (g : Nat) : Option (List Byte) := s.sd.cameras.find? (fun r => u8 r 0 == g)
def camAxis (r : List Byte) : Nat := u8 r 1
def camViews (r : List Byte) : Nat := min 4 (max 1 (u8 r 2))
def camShutter (r : List Byte) : Nat := u32 r 4
def camPhase (r : List Byte) : Nat := u32 r 8
def camCanvas (r : List Byte) (v : Nat) : Nat := u8 r (12 + v)

/-- The camera timing of a leaf's group in an epoch's work. -/
def leafCam (e : PortJob) (r : List Byte) : Option CamShot := if leafCamera r < 8 then (e.cams.getD (leafCamera r) none) else none

/-- R129: the views of a leaf. -/
def leafViews (e : PortJob) (r : List Byte) : Nat := match leafCam e r with | some c => c.views | none => 1

/-- R129: the CANVASES record that view `v` of a leaf samples. -/
def viewCanvas (s : State) (e : PortJob) (r : List Byte) (v : Nat) : Nat :=
  let own := patchCanvas (s.patchRec (leafPatch r))
  match leafCam e r with
  | none => own
  | some _ => match s.camRec (leafCamera r) with | some c => orDefault (camCanvas c v) 0xFF own | none => own

/-- R49: the state as a capture shows it: relations and positions are those of the capture. -/
def withCap (s : State) (c : Capture) : State :=
  { s with capture := c, rels := c.rel.mapIdx (fun n r => (n, r)) }

/-- R125: the newest report whose tag precedes a capture, and whether it is stale there. -/
def reportFor (c : Capture) (l : List (Int × Nat × Nat)) : Option (Int × Bool) :=
  match l.find? (fun x => decide (x.2.1 < c.tag)) with
  | none => none
  | some x => some (x.1, decide (x.2.2 + 2 * second < c.pos.getD 17 0))

/-- R107, R189: the frame of canvas `c` for an epoch at `pos` on axis `ax`: the newest whose epoch position,
converted onto that axis, lies at or before it. -/
def frameFor (s : State) (t : Trunk) (c pos ax : Nat) : Option CanvasFrame :=
  let x := s.trunk t
  let all := (x.composing.get [] c).reverse ++ x.frames.get [] c
  let ca := s.sd.cadAxis (canvasCadence (s.canvasRec c))
  all.find? fun f =>
    match s.convert (((f.pos : Nat) : Int), 1) ca ax with
    | some q => decide (q.floor ≤ pos)
    | none => false

/-- The tree canvas index in the partition that holds a leaf. A partner's leaf samples this tree's canvas of the same tree canvas index:
R84 names no other that this tree composes (DESIGN CHOICE). -/
def leafCanvas (s : State) (i c : Nat) : Nat := c - (s.sd.canvasRange (s.leafPos i)).1

/-- The frame a view of a leaf samples (R107). -/
def viewFrame (s : State) (t : Trunk) (e : PortJob) (i v : Nat) : Option CanvasFrame :=
  (s.withCap e.cap).frameFor t (s.leafCanvas i (s.viewCanvas e (s.leafAt i) v)) e.pos e.ax

end State

end Sys2Proof.Machine
end

