-- ==== Sys2Proof/Machine/Crown.lean ====
section
/-! DEFINITION. The crown of a trunk: canvases, layers, commits, late and absent layers, and heartwood content (R139 to
R158, R164, R167). -/

namespace Sys2Proof.Machine

/-- The `RANGE`-checked shadow registers of a layer, from `CTRL` to `SURF_FORMAT` (R167). -/
def layerRegs (t : Trunk) (n : Nat) : List Nat := (List.range 10).map (fun i => Reg.crownLayerCtrl t n + 4 * i)

/-- A layer's configuration, from its ten register words. -/
structure LayerCfg where
  enable : Bool
  await : Bool
  vTaps : Nat
  hTaps : Nat
  opacity : Nat
  x : Nat
  y : Nat
  dw : Nat
  dh : Nat
  sw : Nat
  sh : Nat
  base : Nat
  pitch : Nat
  p1 : Nat
  p2 : Nat
  fmt : Nat
  deriving DecidableEq, Repr

/-- The fields of R167 of ten register words. -/
def layerCfg (l : List Word) : LayerCfg :=
  let w (i : Nat) : Nat := (l.getD i 0).toNat
  { enable := getBits (w 0) 31 1 == 1, await := getBits (w 0) 30 1 == 1, vTaps := getBits (w 0) 24 4,
    hTaps := getBits (w 0) 20 4, opacity := getBits (w 0) 0 16, x := getBits (w 1) 0 14, y := getBits (w 1) 16 14,
    dw := getBits (w 2) 0 15, dh := getBits (w 2) 16 15, sw := getBits (w 3) 0 15, sh := getBits (w 3) 16 15,
    base := w 4 + 2 ^ 32 * getBits (w 5) 0 3, pitch := w 6, p1 := w 7, p2 := w 8, fmt := getBits (w 9) 0 8 }

/-- R155: what makes a surface change: base, pitch, plane offsets, format, sizes and position. -/
def surfWords (l : List Word) : List Word := l.drop 1

namespace State

/-- The words of a layer as shadow, pending and active copies. -/
def layerShadow (s : State) (t : Trunk) (n : Nat) : LayerCfg := layerCfg ((layerRegs t n).map s.reg)
def layerPend (s : State) (t : Trunk) (n : Nat) : List Word := (layerRegs t n).map s.pendReg
def layerAct (s : State) (t : Trunk) (n : Nat) : List Word := (layerRegs t n).map s.actReg

def layerSt (s : State) (t : Trunk) (n : Nat) : LayerSt := (s.trunk t).layers.get {} n
def putLayer (s : State) (t : Trunk) (n : Nat) (x : LayerSt) : State :=
  s.putTrunk t { s.trunk t with layers := (s.trunk t).layers.set n x }

/-- R153: the canvas is composed in trunk `t`; the survivor of SPLIT composes those of the lost half for the leaves it adds (R298). -/
def canvasIn (s : State) (t : Trunk) (c : Nat) : Bool :=
  decide (c < s.canvasCount) &&
    (s.redundancy != 2 || canvasTrunk (s.canvasRec c) == 2 || canvasTrunk (s.canvasRec c) == t.idx || s.twin.adopted.contains t.other.idx)

/-- The tree layer indexes of a canvas, ascending. -/
def layersOf (s : State) (c : Nat) : List Nat :=
  (List.range s.layerCount).filter fun n => s.ownCanvas (layerCanvas (s.layerRec n)) == c

/-- R143: the layers of a canvas in ascending `z`. -/
def layersByZ (s : State) (c : Nat) : List Nat := (s.layersOf c).mergeSort (fun a b => layerZ (s.layerRec a) ≤ layerZ (s.layerRec b))

def layerInput (s : State) (n : Nat) : Bool := layerSource (s.layerRec n) != 0xFF

/-! ### Guest partitions and surfaces (R174) -/

/-- The guest partitions of a trunk's DRAM: each trunk holds its own copy at an offset that the seed fixes; the seed
names none, so it is open. -/
def guestParts (s : State) : List (Nat × Nat) :=
  (inRange s.sd.guests (s.sd.guestRange s.grovePos)).map fun g => (Config.unstated 329 (u8 g 0) % 2 ^ 35 / 65536 * 65536, u32 g 0x18)

/-! ### Commit check (R149, R151) -/

/-- R151: tests 1 to 4 of one layer's shadow configuration; 0 passes. -/
def layerCheck (s : State) (t : Trunk) (n : Nat) : Nat :=
  let r := s.layerRec n
  let c := s.layerShadow t n
  let c := if s.layerInput n then { c with fmt := layerFormat r, sw := u16 r 8, sh := u16 r 10 } else c
  let okSize (v : Nat) : Bool := decide (1 ≤ v) && decide (v ≤ 16384)
  let ratio (d w : Nat) : Bool := decide (w ≤ 8 * d) && decide (d ≤ 16 * w)
  if !(if layerGraphic r then fmtDefined c.fmt else fmtVideo c.fmt) then 0x0505
  else if !(okSize c.dw && okSize c.dh && okSize c.sw && okSize c.sh) then 0x0503
  else if layerGraphic r && !(c.dw == c.sw && c.dh == c.sh) then 0x0503
  else if !layerGraphic r && !(decide (2 ≤ c.vTaps) && decide (c.vTaps ≤ 8) && decide (2 ≤ c.hTaps) && decide (c.hTaps ≤ 8)) then 0x0503
  else if !layerGraphic r && !(ratio c.dw c.sw && ratio c.dh c.sh) then 0x0502
  else if !s.layerInput n && !surfaceOk s.guestParts c.fmt c.sw c.sh c.base c.pitch c.p1 c.p2 then 0x0504
  else 0

/-- R149: a layer's charge at a cap. -/
def charge (cap : Nat) (c : LayerCfg) : Nat := min c.vTaps cap * c.sw * 4

/-- R155: the registers of the surface that a layer reads: the previous one while it waits. -/
def layerReads (s : State) (t : Trunk) (n : Nat) : List Word := (s.layerSt t n).prev.getD (s.layerAct t n)

/-- R155: configuration `c` would change the surface that the layer reads, and waits for `ready`. -/
def surfWaits (s : State) (t : Trunk) (n : Nat) (c : List Word) : Bool :=
  !s.layerInput n && (layerCfg c).await && surfWords c != surfWords (s.layerReads t n)

/-- R155: the change of `c` is the one that is committed or waits, and `ready` has released it. -/
def readyFor (s : State) (t : Trunk) (n : Nat) (c : List Word) : Bool :=
  (s.layerSt t n).awaiting && (s.layerSt t n).released && surfWords c == surfWords (s.layerPend t n)

/-- R149: the configurations a video layer is charged for under `c`: its own, and the surface it reads where it would wait. -/
def chargeCfgs (s : State) (t : Trunk) (n : Nat) (c : List Word) : List LayerCfg :=
  if s.surfWaits t n c && !s.readyFor t n c then [layerCfg c, layerCfg (s.layerReads t n)] else [layerCfg c]

/-- R149: a layer's charge in force: the larger of its own and of the surface it still reads. -/
def layerCharge (s : State) (t : Trunk) (n : Nat) : Nat :=
  max (charge (s.layerSt t n).cap (layerCfg (s.layerAct t n))) (charge (s.layerSt t n).cap (layerCfg (s.layerReads t n)))

/-- R149: the pool bytes at a cap with the canvases of `mask` at their shadow copies. -/
def poolNeed (s : State) (t : Trunk) (mask cap : Nat) : Nat :=
  (List.range s.layerCount).foldl (fun a n =>
    let r := s.layerRec n
    let cv := s.ownCanvas (layerCanvas r)
    if layerGraphic r || !s.canvasIn t cv then a
    else
      let c := if getBits mask cv 1 = 1 then (layerRegs t n).map s.reg
        else if getBits (s.fget (Reg.CrownCommitStatus.pendingMask t)) cv 1 = 1 then s.layerPend t n else s.layerAct t n
      a + (s.chargeCfgs t n c).foldl (fun m c => max m (charge cap c)) 0) 0

/-- R149: the cap of a commit: 8, under FIT the largest that fits, 0 when none does. -/
def poolCap (s : State) (t : Trunk) (mask : Nat) : Nat :=
  if s.poolNeed t mask 8 ≤ 2097152 then 8
  else if s.sd.scalerShort = 1 then (([7, 6, 5, 4, 3, 2] : List Nat).find? (fun c => decide (s.poolNeed t mask c ≤ 2097152))).getD 0
  else 0

/-- R151: the outcome of tests 1 to 4 over the named canvases' layers in ascending index. -/
def commitTests (s : State) (t : Trunk) (mask : Nat) : Nat :=
  let ls := (List.range s.layerCount).filter fun n =>
    let cv := s.ownCanvas (layerCanvas (s.layerRec n))
    getBits mask cv 1 == 1 && s.canvasIn t cv
  (ls.map (s.layerCheck t)).find? (· != 0) |>.getD 0

/-- R149, R151: code and cap of the check in one trunk. -/
def commitResult (s : State) (t : Trunk) (mask : Nat) : Nat × Nat :=
  let e := s.commitTests t mask
  if e ≠ 0 then (e, 0)
  else
    let c := s.poolCap t mask
    if c = 0 then (0x0501, 0) else (0, c)

/-- R149: in SPLIT both trunks check: the smaller cap holds, and a refusal in either refuses both. -/
def commitSplit (s : State) (t : Trunk) (mask : Nat) : Nat × Nat :=
  let a := s.commitResult t mask
  if s.redundancy = 2 ∧ s.inService t ∧ s.inService t.other then
    let b := s.commitResult t.other mask
    if a.1 ≠ 0 then a else if b.1 ≠ 0 then b else (0, min a.2 b.2)
  else a

/-- R151: a write of `CROWN_COMMIT`. -/
def commitWrite (s : State) (t : Trunk) (mask : Nat) : State :=
  if s.fbit (Reg.CrownCommitStatus.busy t) then s.fset (Reg.CrownCommitStatus.lost t) 1
  else if mask = 0 then s
  else (s.fset (Reg.CrownCommitStatus.busy t) 1).putTrunk t { s.trunk t with commitMask := mask }

/-- Canvas sources of the interrupt controller: commit accepted or refused (R338). -/
def pendCommit (s : State) (t : Trunk) (mask : Nat) : State :=
  (List.range 8).foldl (fun s c => if getBits mask c 1 = 1 then s.pendSource t (880 + c) else s) s

/-- R151, R155: a layer's shadow copy becomes its pending copy. A change of surface with `await_ready` waits; a `ready` stands only for
the change it released. -/
def layerCommit (s : State) (t : Trunk) (n : Nat) : State :=
  let c := (layerRegs t n).map s.reg
  let w := s.surfWaits t n c
  let x := { s.layerSt t n with awaiting := w, released := w && s.readyFor t n c }
  (s.shadowToPend (layerRegs t n)).putLayer t n x

/-- R151: the check completes. -/
def commitDone (s : State) (t : Trunk) : State :=
  if !s.fbit (Reg.CrownCommitStatus.busy t) then s
  else
    let mask := (s.trunk t).commitMask
    let (code, cap) := s.commitSplit t mask
    let s := ((s.fset (Reg.CrownCommitStatus.busy t) 0).fset (Reg.CrownCommitStatus.code t) code).pendCommit t mask
    if code ≠ 0 then (s.fset (Reg.CrownCommitStatus.refused t) 1).trunkEvent t 0x50000 code 0 []
    else
      let cs := (List.range 8).filter fun c => getBits mask c 1 == 1 && s.canvasIn t c
      let s := cs.foldl (fun s c => (s.layersOf c).foldl (fun s n => s.layerCommit t n) s) s
      let pm := cs.foldl (fun m c => setBits m c 1 1) (s.fget (Reg.CrownCommitStatus.pendingMask t))
      let s := s.fset (Reg.CrownCommitStatus.pendingMask t) pm
      s.putTrunk t { s.trunk t with capPend := cap, capDue := true }

/-- R155: a `ready` write releases a change that is committed or waiting. -/
def layerReadyOp (s : State) (t : Trunk) (n : Nat) : State :=
  let x := s.layerSt t n
  if x.awaiting then s.putLayer t n { x with released := true } else s

/-! ### Heartwood content (R156 to R158) -/

/-- R79: the heartwood directory of this tree. -/
def hwDir (s : State) : Nat :=
  if s.sd.isGrove then (s.sd.groves.findIdx (fun g => u8 g 0 == s.grovePos)) * 256 else 0

/-- The seed's heartwood content of a canvas: 0 show, 1 safety. -/
def seedHw (s : State) (c which : Nat) : List Byte :=
  dataRef s.sd.safetyData s.sd.safetyData (s.hwDir + 24 * c + 8 + 8 * which)

/-- The content in the trunk's store. -/
def hwContent (s : State) (t : Trunk) (c which : Nat) : List Byte := (s.trunk t).hw.get [] (c * 2 + which)

/-- R157: blocks of 512 pixels a content takes. -/
def hwBlocks (s : State) (c : Nat) : Nat :=
  let h := canvasHw (s.canvasRec c)
  ((h.2.2.1 - h.1) * (h.2.2.2 - h.2.1) + 511) / 512

/-- The content and block that a block of a trunk's store holds: the store keeps the trunk's canvases in order, show before safety, each
content from a block of its own (DESIGN CHOICE). -/
def hwBlockAt (s : State) (t : Trunk) (b : Nat) : Option (Nat × Nat × Nat) :=
  let spans := ((List.range 16).filter fun i => s.canvasIn t (i / 2)).map fun i => (i / 2, i % 2, s.hwBlocks (i / 2))
  (spans.foldl (fun (a : Nat × Option (Nat × Nat × Nat)) x =>
    match a.2 with
    | some _ => a
    | none => if b < a.1 + x.2.2 then (a.1, some (x.1, x.2.1, b - a.1)) else (a.1 + x.2.2, none)) (0, none)).2

/-! ### A canvas epoch (R141, R143, R152, R154, R155) -/

/-- The layer reads its committed surface: no change waits (R155). -/
def layerSettled (x : LayerSt) : LayerSt := { x with prev := none, awaiting := false, released := false }

/-- R155: activation of a layer's pending configuration: the layer goes on with the surface it reads while a change waits. A change
released before this epoch is used at it (DEDUCED: the frame is composed with the configuration that becomes active, R152). -/
def layerActivate (s : State) (t : Trunk) (n : Nat) : State :=
  let x := s.layerSt t n
  let reads := s.layerReads t n
  (s.pendToAct (layerRegs t n)).putLayer t n (if x.awaiting && !x.released then { x with prev := some reads } else layerSettled x)

/-- R149: the cap of the last commit is in force for a layer from the next epoch of its canvas. -/
def layerCap (s : State) (t : Trunk) (n : Nat) : State := s.putLayer t n { s.layerSt t n with cap := (s.trunk t).capPend }

/-- R149, R152: the pending configuration of a canvas becomes active. -/
def canvasActivate (s : State) (t : Trunk) (c : Nat) : State :=
  let pm := s.fget (Reg.CrownCommitStatus.pendingMask t)
  let s := if getBits pm c 1 = 0 then s
    else
      let s := (s.layersOf c).foldl (fun s n => s.layerActivate t n) s
      let s := s.fset (Reg.CrownCommitStatus.pendingMask t) (setBits pm c 1 0)
      let x := s.trunk t
      if x.capDue then
        ((s.putTrunk t { x with capDue := false }).fset (Reg.CrownPoolStatus.cap t) x.capPend).fsetB (Reg.CrownCommitStatus.fitActive t) (decide (x.capPend < 8))
      else s
  let s := (s.layersOf c).foldl (fun s n => s.layerCap t n) s
  let x := s.trunk t
  let take (x : TrunkSt) (i : Nat) : TrunkSt :=
    match x.hwPend.find? i with
    | some v => { x with hw := x.hw.set i v, hwPend := x.hwPend.erase i }
    | none => x
  s.putTrunk t (take (take x (2 * c)) (2 * c + 1))

/-- R155: a release takes effect at the first epoch after it. -/
def layerRelease (s : State) (t : Trunk) (n : Nat) : State :=
  let x := s.layerSt t n
  if x.released ∧ x.prev.isSome then s.putLayer t n (layerSettled x) else s

/-- R150, R171: a picture of this size and form is one that layer `n` takes. -/
def layerTakes (s : State) (n w h : Nat) (f : InputForm) : Bool :=
  let r := s.layerRec n
  w == u16 r 8 && h == u16 r 10 && formFits (layerFormat r) f

/-- R154: the newest complete input frame whose tag precedes the epoch capture, of those the layer takes. -/
def layerFrame (s : State) (n : Nat) : Option InputSt :=
  (s.inputs.get [] (layerSource (s.layerRec n))).find? (fun i => s.layerTakes n i.width i.height i.form && decide (i.tag < s.capture.tag))

/-- R154: late: no complete frame within 1.25 source frame periods of the capture. -/
def inputLate (s : State) (n : Nat) : Bool :=
  match s.layerFrame n with
  | none => true
  | some i => decide (i.at_ * 4 + 5 * i.period < s.capture.pos.getD 17 s.free * 4)

/-- R154, R155: the lateness of a layer at an epoch, and its status fields. -/
def layerLate (s : State) (t : Trunk) (n : Nat) : State :=
  let waits := (s.layerSt t n).prev.isSome
  let late := if s.layerInput n then s.inputLate n else waits
  let never := s.layerInput n && (s.layerFrame n).isNone
  let k := if late then (s.layerSt t n).lateN + 1 else 0
  let absent := late && (never || decide (Machine.layerLate (s.layerRec n) < k))
  let s := s.putLayer t n { s.layerSt t n with lateN := k }
  let s := s.fsetB (Reg.CrownLayerStatus.late t n) late
  let s := s.fsetB (Reg.CrownLayerStatus.absent t n) absent
  let s := s.fsetB (Reg.CrownLayerStatus.prevInUse t n) waits
  s.fset (Reg.CrownLayerStatus.lateCount t n) (min 255 k)

/-- R149: effective taps and pool bytes of the layers as they now stand. -/
def layerEff (s : State) (t : Trunk) (c : Nat) : State :=
  let s := (s.layersOf c).foldl (fun s n =>
    if layerGraphic (s.layerRec n) then s
    else s.fset (Reg.CrownLayerStatus.vTapsEff t n) (min (layerCfg (s.layerReads t n)).vTaps (s.layerSt t n).cap)) s
  let used := (List.range s.layerCount).foldl (fun a n =>
    let r := s.layerRec n
    if layerGraphic r || !s.canvasIn t (s.ownCanvas (layerCanvas r)) then a
    else a + s.layerCharge t n) 0
  s.fset (Reg.CrownPoolStatus.used t) used

/-- R141: the buffers of a canvas: 3 plus the generators that scan it. -/
def canvasBuffers (s : State) (c : Nat) : Nat :=
  3 + (s.rasterRecs.filter (fun r => rasterCanvas r != 0xFF && s.ownCanvas (rasterCanvas r) == c)).length

/-- R149, R167: a layer's three copies from its record. -/
def seedLayer (s : State) (t : Trunk) (n : Nat) : State :=
  let r := s.layerRec n
  let s := s.setShadow (Reg.crownLayerCtrl t n) ((if layerGraphic r then 0 else layerVTaps r * 2 ^ 24 + layerHTaps r * 2 ^ 20) + 0x8000)
  let s := s.setShadow (Reg.crownLayerDestPos t n) (u16 r 0x0C + u16 r 0x0E * 65536)
  let s := s.setShadow (Reg.crownLayerDestSize t n) (u16 r 0x10 + u16 r 0x12 * 65536)
  let s := s.setShadow (Reg.crownLayerSrcSize t n) (u16 r 8 + u16 r 0x0A * 65536)
  s.setShadow (Reg.crownLayerSurfFormat t n) (layerFormat r)

/-- R141, R156: a canvas of the trunk: its buffers and its heartwood content. -/
def seedCanvas (s : State) (t : Trunk) (c : Nat) : State :=
  let h := canvasHw (s.canvasRec c)
  let s := s.fsetB (Reg.CrownCanvasStatus.hwPresent t c) (decide (h.1 < h.2.2.1 ∧ h.2.1 < h.2.2.2))
  let s := s.fset (Reg.CrownCanvasStatus.buffers t c) (s.canvasBuffers c)
  let x := s.trunk t
  s.putTrunk t { x with hw := (x.hw.set (2 * c) (s.seedHw c 0)).set (2 * c + 1) (s.seedHw c 1) }

/-- R89: some canvases of a trunk with their layers, as the seed gives them. -/
def seedCanvases (s : State) (t : Trunk) (p : Nat → Bool) : State :=
  let s := ((List.range s.canvasCount).filter p).foldl (fun s c => s.seedCanvas t c) s
  ((List.range s.layerCount).filter (fun n => p (s.ownCanvas (layerCanvas (s.layerRec n))))).foldl (fun s n => s.seedLayer t n) s

/-- R149: the pool bytes that the seed's own layers take in a trunk at a cap. -/
def seedNeed (s : State) (t : Trunk) (cap : Nat) : Nat :=
  (List.range s.layerCount).foldl (fun a n =>
    let r := s.layerRec n
    if layerGraphic r || !s.canvasIn t (s.ownCanvas (layerCanvas r)) then a else a + min (layerVTaps r) cap * u16 r 8 * 4) 0

/-- R149: the cap that a seed starts with: the largest at which its layers fit, in both trunks of SPLIT (DEDUCED: a FIT seed may need one,
0x0446, and the rule states a cap only for commits). -/
def seedCap (s : State) (t : Trunk) : Nat :=
  let fits (c : Nat) : Bool := decide (s.seedNeed t c ≤ 2097152) && (s.redundancy != 2 || decide (s.seedNeed t.other c ≤ 2097152))
  (([8, 7, 6, 5, 4, 3] : List Nat).find? fits).getD 2

/-- R149: a seed's cap is in force with it. -/
def seedPool (s : State) (t : Trunk) : State :=
  let c := s.seedCap t
  let x := s.trunk t
  let s := s.putTrunk t { x with capPend := c, layers := (List.range s.layerCount).foldl (fun l n => l.set n { Tab.get {} l n with cap := c }) x.layers }
  (s.fset (Reg.CrownPoolStatus.cap t) c).fsetB (Reg.CrownCommitStatus.fitActive t) (decide (c < 8))

/-- R141: a frame that a patch still samples or a generator still scans. -/
def frameHeld (s : State) (t : Trunk) (c id : Nat) : Bool :=
  (s.trunk t).epochs.any (fun e => e.jobs.any fun j => j.codes.isNone && !j.shed &&
    (List.range (leafViews e (s.leafAt j.leaf))).any fun v =>
      s.leafCanvas j.leaf (s.viewCanvas e (s.leafAt j.leaf) v) == c && (s.viewFrame t e j.leaf v).any (fun f => f.id == id)) ||
  (List.range 8).any (fun g =>
    match (s.rasters.get ({} : RastSt) (t.idx * 8 + g)).cur with
    | some f => f.canvas == some (c, id)
    | none => false)

/-- The absent fill of a layer as a source (R154). -/
def fillSrc (s : State) (n : Nat) : Src :=
  let o := s.layerRec n
  halfSrc (u16 o 0x1C) (u16 o 0x1E) (u16 o 0x20) (u16 o 0x22)

/-- Rows of samples of `sz` bytes at a pitch, as bytes (R172, R173). -/
def planeBytes (sz cols rows pitch : Nat) (f : Nat → Nat → Nat) : List Byte :=
  (List.range rows).flatMap fun j => ((List.range cols).flatMap fun i => leBytes sz (f j i)) ++ List.replicate (pitch - cols * sz) 0

/-- R171: an input frame in the layout of a format: its samples stand Y', Cb, Cr (or R', G', B') plane by plane. An RGB input has alpha
code 3. -/
def inputBytes (i : InputSt) (fmt : Nat) : List Byte :=
  let n := i.width * i.height
  let y (j k : Nat) : Nat := i.data.getD (j * i.width + k) 0
  if fmtIsLuma fmt then
    let sz := fmtContainer fmt
    let pitch := (i.width + 1) / 2 * 2 * sz
    let cw := chromaCols fmt i.width
    let ch := chromaRows fmt i.height
    let cb (j k : Nat) : Nat := i.data.getD (n + j * cw + k) 0
    let cr (j k : Nat) : Nat := i.data.getD (n + cw * ch + j * cw + k) 0
    let cp := if fmtSampling fmt = 2 then pitch else pitch / 2
    planeBytes sz i.width i.height pitch y ++
      if fmtSemi fmt then planeBytes sz (2 * cw) ch (if fmtSampling fmt = 2 then 2 * pitch else pitch) (fun j k => if k % 2 = 0 then cb j (k / 2) else cr j (k / 2))
      else planeBytes sz cw ch cp cb ++ planeBytes sz cw ch cp cr
  else
    planeBytes 4 i.width i.height (4 * i.width) fun j k =>
      let p (m : Nat) : Nat := i.data.getD (m * n + j * i.width + k) 0 % 1024
      p 0 + 1024 * p 1 + 1048576 * p 2 + 1073741824 * 3

/-- The surface an input frame is stored as: rows of an even number of samples, planes one after another. -/
def inputSurf (i : InputSt) (fmt : Nat) : Surf :=
  if fmtIsLuma fmt then
    let sz := fmtContainer fmt
    let pitch := (i.width + 1) / 2 * 2 * sz
    let p1 := pitch * i.height
    let cp := if fmtSampling fmt = 2 then pitch else pitch / 2
    { fmt := fmt, width := i.width, height := i.height,
      planes := planesOf fmt i.width i.height 0 pitch p1 (p1 + cp * chromaRows fmt i.height) }
  else { fmt := fmt, width := i.width, height := i.height, planes := planesOf fmt i.width i.height 0 (4 * i.width) 0 0 }

/-- A committed memory surface. -/
def memSurf (c : LayerCfg) : Surf :=
  if fmtIsBurl c.fmt then { fmt := c.fmt, width := c.sw, height := c.sh, planes := burlPlanes c.sw c.sh c.base c.pitch c.p1, dataLen := c.pitch }
  else { fmt := c.fmt, width := c.sw, height := c.sh, planes := planesOf c.fmt c.sw c.sh c.base c.pitch c.p1 c.p2 }

/-- R143 steps 2 to 5: how a layer is drawn in this frame, and whether its fetch failed (R155). -/
def drawLayer (s : State) (t : Trunk) (c n : Nat) : Drawn × Bool :=
  let rec_ := s.layerRec n
  let act := layerCfg (s.layerAct t n)
  let geo := layerCfg (s.layerReads t n)
  let inRect (x y : Nat) : Bool := decide (geo.x ≤ x) && decide (x < geo.x + geo.dw) && decide (geo.y ≤ y) && decide (y < geo.y + geo.dh)
  let fill := s.fillSrc n
  let filled : Nat → Nat → Option Src := fun x y => if inRect x y then some fill else none
  let lut := dataRef s.sd.layerData rec_ 0x14
  let cv := s.canvasRec c
  let run (fetch : Nat → Byte) (u : Surf) : Drawn × Bool :=
    if fmtIsBurl u.fmt && !burlOk fetch u then ((n, act.opacity, filled), true)
    else
      let k := yuvK u.fmt cv
      let get := surfPix fetch k u
      let vt := min geo.vTaps (s.layerSt t n).cap
      let scaled := !layerGraphic rec_ && (geo.dw != u.width || geo.dh != u.height)
      let pix (x y : Nat) : SurfPix := if scaled then scalePix get u.width u.height geo.dw geo.dh vt geo.hTaps x y else get x y
      ((n, act.opacity, fun x y => if inRect x y then some (srcOf lut (pix (x - geo.x) (y - geo.y))) else none), false)
  if s.fbit (Reg.CrownLayerStatus.absent t n) then ((n, act.opacity, filled), false)
  else if s.layerInput n then
    match s.layerFrame n with
    | some i => let b := inputBytes i (layerFormat rec_); run (fun o => b.getD o 0) (inputSurf i (layerFormat rec_))
    | none => ((n, act.opacity, filled), false)
  else run (fun o => memGet s.mem (dramBase t + o)) (memSurf geo)

/-- A drawing as plain data over a canvas of a size. -/
def asDrawn (s : State) (w h : Nat) (d : Drawn × Bool) : DrawnLayer :=
  let geo (f : Nat → Nat → Option Src) : List (Option Src) := (List.range (w * h)).map fun i => f (i % w) (i / w)
  let fill := s.fillSrc d.1.1
  { n := d.1.1, opacity := d.1.2.1, src := geo d.1.2.2, fill := geo (fun x y => (d.1.2.2 x y).map fun _ => fill), bad := d.2 }

/-- The drawing that plain data holds, with the absent fill where the fetch has failed (R155). -/
def ofDrawn (w : Nat) (failed : List Nat) (d : DrawnLayer) : Drawn :=
  (d.n, d.opacity, fun x y => (if failed.contains d.n then d.fill else d.src).getD (y * w + x) none)

/-- R141 to R157: the crown composes a frame of canvas `c` into a buffer, from what the epoch finds. -/
def canvasCompose (s : State) (t : Trunk) (c k pos : Nat) : State :=
  let cv := s.canvasRec c
  let w := canvasWidth cv
  let h := canvasHeight cv
  let alarm := s.alarmOn
  let which := if alarm then 1 else 0
  let x := s.trunk t
  let ls := if alarm then [] else ((s.layersByZ c).filter (fun n => (layerCfg (s.layerAct t n)).enable)).map (s.drawLayer t c)
  let f : CanvasFrame :=
    { width := w, height := h, index := k, pos := pos, safety := alarm, id := x.nextId, drawn := ls.map (s.asDrawn w h), hw := s.hwContent t c which,
      hwBad := (x.hwBlack.filter (fun b => b.1 == c && b.2.1 == which)).map (·.2.2) }
  let s := s.putTrunk t { x with nextId := x.nextId + 1, composing := x.composing.set c (x.composing.get [] c ++ [f]),
                                 hwBlack := x.hwBlack.filter (fun b => b.1 != c) }
  let s := s.fsetB (Reg.CrownCanvasStatus.safety t c) alarm
  s.setRegN (Reg.crownCanvasFrameCnt t c) (s.regN (Reg.crownCanvasFrameCnt t c) + 1)

/-- R143, R155, R157: the frame that a composition gives: the layers in `failed` show their absent fill, the blocks in `bad` are black. -/
def composed (s : State) (c : Nat) (failed bad : List Nat) (f : CanvasFrame) : CanvasFrame :=
  let cv := s.canvasRec c
  { f with drawn := [], hw := [], hwBad := [],
           pix := composeFrame f.width f.height (canvasHw cv) f.hw (f.hwBad ++ bad) (dataRef s.sd.canvasData cv 0x18) (f.drawn.map (ofDrawn f.width failed)) }

/-- R145, R155: the fetch errors and the NaN source values of a layer in a frame. -/
def drawnErrors (s : State) (c : Nat) (failed : List Nat) (f : CanvasFrame) (d : DrawnLayer) : Nat :=
  (d.bad || failed.contains d.n).toNat + nanCount f.width f.height (inHeartwood (canvasHw (s.canvasRec c))) (ofDrawn f.width failed d)

/-- R107, R141: composition of the oldest frame in hand completes; it is the newest complete frame. -/
def frameDone (s : State) (t : Trunk) (c : Nat) (failed bad : List Nat) : State :=
  match (s.trunk t).composing.get [] c with
  | [] => s
  | f :: r =>
    let s := f.drawn.foldl (fun s d =>
      if s.drawnErrors c failed f d = 0 then s else s.bumpBy (Reg.crownLayerErrCnt t d.n) (s.drawnErrors c failed f d)) s
    let x := s.trunk t
    s.putTrunk t { x with composing := x.composing.set c r, frames := x.frames.set c (s.composed c failed bad f :: x.frames.get [] c) }

/-- R141: a buffer is free, or can be taken from a frame nothing reads. -/
def freeBuffer (s : State) (t : Trunk) (c : Nat) : Option State :=
  let x := s.trunk t
  let fs := x.frames.get [] c
  let n := fs.length + (x.composing.get [] c).length
  if n < s.canvasBuffers c then some s
  else
    match ((fs.drop 1).reverse).find? (fun f => !s.frameHeld t c f.id) with
    | some f => some (s.putTrunk t { x with frames := x.frames.set c (fs.filter (fun g => g.id != f.id)) })
    | none => none

/-- One epoch of canvas `c` in trunk `t` (R152). -/
def canvasEpoch (s : State) (t : Trunk) (c k pos : Nat) (thin : Bool) : State :=
  let s := s.canvasActivate t c
  let s := (s.layersOf c).foldl (fun s n => (s.layerRelease t n).layerLate t n) s
  let s := s.layerEff t c
  let late := ((s.layersOf c).filter (fun n => s.fbit (Reg.CrownLayerStatus.late t n) || s.fbit (Reg.CrownLayerStatus.absent t n))).length
  let s := (s.fset (Reg.CrownCanvasStatus.lateLayers t c) late).pendSource t (888 + c)
  if thin then s.bump (Reg.crownCanvasSkipCnt t c)
  else
    match s.freeBuffer t c with
    | none => s.bump (Reg.crownCanvasSkipCnt t c)
    | some s => s.canvasCompose t c k pos

/-- A complete frame of a canvas by identity. -/
def frameById (s : State) (t : Trunk) (c id : Nat) : Option CanvasFrame :=
  ((s.trunk t).frames.get [] c).find? (fun f => f.id == id)

/-! ### Input frames (R150, R154, R171) -/

/-- Of frames in hand, newest first, the newest of each size and form. -/
def newestInputs (l : List InputSt) : List InputSt :=
  l.foldl (fun a i => if a.any (fun j => j.width == i.width && j.height == i.height && j.form == i.form) then a else a ++ [i]) []

/-- R150, R154, R171: a frame of an input completes, or is cut short. One that no layer takes is not stored. The source's frame period is
what FREE measured since the frame before; before there is one, it is open. -/
def inputFrame (s : State) (rec w h : Nat) (f : InputForm) (whole : Bool) (data : List Nat) : State :=
  let ls := (List.range s.layerCount).filter (fun n => layerSource (s.layerRec n) == rec)
  let s := ls.foldl (fun s n =>
    s.onTrunks (fun s t => s.inService t) (fun t s => s.fsetB (Reg.CrownLayerStatus.fmtMismatch t n) (!s.layerTakes n w h f))) s
  if !whole || !ls.any (fun n => s.layerTakes n w h f) then s
  else
    let s := s.nextTag
    let l := s.inputs.get [] rec
    let period := match l.head? with | some i => s.free - i.at_ | none => Config.unstated 154 rec + 1
    let new : InputSt := { width := w, height := h, form := f, data := data, tag := s.tag, at_ := s.free, period := period }
    let newer := l.filter (fun i => decide (s.capture.tag ≤ i.tag))
    let older := newestInputs (l.filter (fun i => decide (i.tag < s.capture.tag)))
    { s with inputs := s.inputs.set rec (new :: (newer ++ older)) }

end State

/-! ### Meanings -/

/-- CROWN_COMMIT (R151). -/
def execCrownCommit (t : Trunk) (mask : BitVec 8) (s : State) : Host.Outcome State Fault Refusal :=
  act s fun s => if s.mirrored t then s.commitWrite t mask.toNat else s

/-- CROWN_COMMIT_CHECK_DONE (R149, R151). -/
def execCrownCommitCheckDone (t : Trunk) (s : State) : Host.Outcome State Fault Refusal :=
  act s fun s => s.commitDone t

/-- LAYER_READY (R155). -/
def execLayerReady (t : Trunk) (n : Fin 32) (s : State) : Host.Outcome State Fault Refusal :=
  act s fun s => if s.mirrored t then s.layerReadyOp t n else s

/-- INPUT_FRAME_COMPLETE (R150, R154, R171). -/
def execInputFrameComplete (portRec width height : Nat) (form : InputForm) (whole : Bool) (data : List Nat) (s : State) :
    Host.Outcome State Fault Refusal :=
  act s fun s => s.inputFrame portRec width height form whole data

end Sys2Proof.Machine
end

