-- ==== Sys2Proof/Machine/Ecc.lean ====
section
/-! DEFINITION. The (72,64) SECDED code of DRAM and of the ECC-protected arrays: the columns, the check bits of a word at its address,
the syndrome, and what a syndrome means (R407, R408). -/

namespace Sys2Proof.Machine

/-! ### Columns (R407) -/

/-- The number of ones among the low `n` bits. -/
def ones : Nat → Nat → Nat
  | 0, _ => 0
  | n + 1, x => x % 2 + ones n (x / 2)

/-- The 8-bit columns a data bit may have: odd weight, and not that of a check bit. -/
def dataPool : List Nat := (List.range 256).filter fun c => ones 8 c % 2 == 1 && decide (3 ≤ ones 8 c)

/-- The 8-bit columns an address bit may have: even weight, not zero. -/
def addrPool : List Nat := (List.range 256).filter fun c => ones 8 c % 2 == 0 && decide (0 < ones 8 c)

/-- `n` different entries of a list, as `f` picks them. -/
def pickFrom (f : Nat → Nat) : Nat → List Nat → List Nat
  | 0, _ => []
  | n + 1, l => l.getD (f n % l.length) 0 :: pickFrom f n (l.eraseIdx (f n % l.length))

/-- R407: the columns of the data bits and of the address bits. Which they are is open: any that R407 allows. -/
def dataColumns : List Nat := pickFrom (fun i => Config.unstated 407 i) 64 dataPool
def addrColumns : List Nat := pickFrom (fun i => Config.unstated 407 (1000 + i)) 37 addrPool

/-- The XOR of the columns of the bits that are set. -/
def colSum : List Nat → Nat → Nat
  | [], _ => 0
  | c :: r, w => (if w % 2 = 1 then c else 0) ^^^ colSum r (w / 2)

/-! ### Check bits and syndrome (R407, R408) -/

/-- R407: the address of a word: tree address bits 39:3 of DRAM, or the array instance and the word index. -/
def eccAddr (memory unit addr : Nat) : Nat := if memory = 0 then addr / 8 % 2 ^ 37 else unit + 1024 * addr

/-- R407: the eight check bits of a word at its address. -/
def checkBits (wa data : Nat) : Nat := colSum dataColumns data ^^^ colSum addrColumns wa

/-- A word as it is stored: 64 data bits, then 8 check bits. -/
def eccStore (wa data : Nat) : Nat := data % 2 ^ 64 + 2 ^ 64 * checkBits wa (data % 2 ^ 64)

/-- The syndrome of a stored word read at an address. -/
def syndrome (wa stored : Nat) : Nat := checkBits wa (stored % 2 ^ 64) ^^^ stored / 2 ^ 64

/-- R408: what a syndrome means. A corrected bit has its number, 64 to 71 for a check bit. -/
inductive EccClass where
  | clean
  | corrected (bit : Nat)
  | uncorrectable
  deriving DecidableEq, Repr

/-- R408. -/
def eccClass (syn : Nat) : EccClass :=
  if syn = 0 then .clean
  else
    match dataColumns.findIdx? (· == syn) with
    | some i => .corrected i
    | none =>
      match (List.range 8).find? (fun k => 2 ^ k == syn) with
      | some k => .corrected (64 + k)
      | none => .uncorrectable

/-- R407, R408: how the decoder classes a word read: the bits that have changed since it was written, and the address it was written
at. DRAM holds what was written there; of an array the data does not matter, since the code is linear. -/
def State.eccRead (s : State) (x : EccRead) : EccClass :=
  let m := x.memory.val
  let data := if m = 0 then ofLe (memGets s.mem (x.wrote / 8 * 8) 8) else 0
  eccClass (syndrome (eccAddr m x.unit.val x.addr) (eccStore (eccAddr m x.unit.val x.wrote) data ^^^ x.flips.toNat))

end Sys2Proof.Machine
end

