-- ==== Sys2Proof/Machine/Icu.lean ====
section
/-! DEFINITION. The interrupt controller of a trunk (R333 to R335, R338 to R344). -/

namespace Sys2Proof.Machine

/-- R338: the source is reserved, or a vendor source of a guest core's bank: it never pends. -/
def srcReserved (i : Nat) : Bool :=
  (954 ≤ i && i < 960) || 1000 ≤ i || (384 ≤ i && i < 512 && 2 ≤ i % 64 && i % 64 < 8)

/-- R338: level sources: local source 1 of each core, and the alarm. -/
def srcLevel (i : Nat) : Bool := i == 962 || (i < 512 && i % 64 == 1)

namespace State

def icu (s : State) (t : Trunk) : IcuSt := s.icus.get {} t.idx

/-- R338: the core a source belongs to. -/
def srcCore (s : State) (t : Trunk) (i : Nat) : Nat := if i < 512 then i / 64 else s.fget (Reg.IcuRoute.target t (i - 512))

def icuBit (s : State) (base i : Nat) : Bool := s.fbit ⟨base + i / 32 * 4, i % 32, 1⟩
def srcPending (s : State) (t : Trunk) (i : Nat) : Bool := s.icuBit (Reg.icuPendSet t 0) i
def masked (s : State) (t : Trunk) (i : Nat) : Bool := s.icuBit (Reg.icuMaskSet t 0) i
def levelOf (s : State) (t : Trunk) (i : Nat) : Bool := s.icuBit (Reg.icuLevel t 0) i
def serving (s : State) (t : Trunk) (i : Nat) : Bool := (s.icu t).serving.any (fun p => p.1 == i)

def setPend (s : State) (t : Trunk) (i : Nat) (b : Bool) : State := s.fsetB ⟨Reg.icuPendSet t (i / 32), i % 32, 1⟩ b

/-- The controller's state changes; the in-service and moderation fields follow (R344). -/
def putIcu (s : State) (t : Trunk) (x : IcuSt) : State :=
  let s := { s with icus := s.icus.set t.idx x }
  (List.range 8).foldl (fun s c =>
    (s.fset (Reg.IcuCoreStatus.inService t c) (x.serving.filter (fun p => p.2 == c)).length).fsetB
      (Reg.IcuCoreStatus.modHeld t c) (x.holds.any (fun h => h.1 / 16 == c))) s

/-- R340, R341: a source that a guest core may claim lies in its batch; the two private kinds of R335 bypass it. -/
def inBatch (s : State) (t : Trunk) (i : Nat) : Bool := (s.icu t).batch.contains i

/-- R340: deliverable to its core. -/
def deliverable (s : State) (t : Trunk) (c i : Nat) : Bool :=
  s.srcCore t i == c && s.srcPending t i && !s.masked t i && !s.serving t i && (c < 6 || s.inBatch t i)

/-- R342: masked within the last 8 fabric cycles, so it may still be claimed once. -/
def lateMasked (s : State) (t : Trunk) (c i : Nat) : Bool :=
  c < 6 && s.srcCore t i == c && s.srcPending t i && s.masked t i && !s.serving t i &&
    (match (s.icu t).maskAt.find? i with | some a => decide (s.free < a + 8 * 163840) | none => false)

/-- R341: the word of a claim is recorded and read. -/
def claimGive (s : State) (t : Trunk) (c w : Nat) : State := { s.setRegN (Reg.icuClaim t c) w with rdata := [BitVec.ofNat 32 w] }

/-- R341: the word of a claim of source `i`. -/
def claimWord (s : State) (t : Trunk) (c i : Nat) : Nat :=
  let x := s.icu t
  let epoch := decide (6 ≤ c) && !(i < 512 && (i % 64 == 1 || 8 ≤ i % 64))
  let level := srcLevel i && (if 6 ≤ c ∧ epoch then x.batchLevel.contains i else s.levelOf t i)
  let multi := decide (1 < x.edges.get 0 i)
  2 ^ 31 + level.toNat * 2 ^ 30 + (s.masked t i).toNat * 2 ^ 29 + multi.toNat * 2 ^ 28 + epoch.toNat * 2 ^ 27 + i

/-- R341, R343: source `i` goes into service at core `c`, and starts a moderation hold. -/
def claimTake (s : State) (t : Trunk) (c i : Nat) : State :=
  let x := s.icu t
  let g := s.fget (Reg.IcuRoute.group t (i - 512))
  let us := s.fget (Reg.IcuMod.interval t g)
  let holds := if 512 ≤ i ∧ c < 6 ∧ us ≠ 0 ∧ !s.fbit (Reg.IcuCoreStatus.wfi t c) then x.holds.set (c * 16 + g) (s.free + us * 65536000) else x.holds
  (s.setPend t i false).putIcu t { x with holds := holds, edges := x.edges.erase i, serving := x.serving ++ [(i, c)], batch := x.batch.filter (· != i) }

/-- R341 to R343: a claim by core `c`; whether a source masked within the last 8 cycles is still claimed is free. -/
def claim (s : State) (t : Trunk) (c : Nat) : State :=
  let late := (List.range 1024).filter (s.lateMasked t c)
  let d := if late.isEmpty then (0, s) else s.draw 2
  let s := d.2
  match (List.range 1024).find? (fun i => s.deliverable t c i || d.1 == 1 && late.contains i) with
  | none => s.claimGive t c 0
  | some i => (s.claimTake t c i).claimGive t c (s.claimWord t c i)

/-- R335: source `i` is delivered to its guest core without waiting for a batch. -/
def atOnce (s : State) (t : Trunk) (i : Nat) : State := { s with icus := s.icus.set t.idx { s.icu t with batch := (s.icu t).batch ++ [i] } }

/-- R341: a completion. GCMP of a guest core is an immediate level source. -/
def completeSrc (s : State) (t : Trunk) (c i : Nat) : State :=
  let x := s.icu t
  if x.serving.contains (i, c) then
    let s := s.putIcu t { x with serving := x.serving.filter (· != (i, c)) }
    if srcLevel i && s.levelOf t i && decide (c < 6 ∨ i % 64 = 1 ∧ i < 512) then
      let s := s.setPend t i true
      if c < 6 then s else s.atOnce t i
    else s
  else s.fset (Reg.IcuCoreStatus.badComplete t c) 1

/-- R333, R340: a hardware edge, or a level that changes; in epoch mode the capture samples the level. -/
def srcEdge (s : State) (t : Trunk) (i : Nat) (level : Bool) : State :=
  if srcReserved i then s
  else if srcLevel i then
    let s := s.fsetB ⟨Reg.icuLevel t (i / 32), i % 32, 1⟩ level
    if level && !s.serving t i && decide (i < 512 ∨ s.srcCore t i < 6) then s.setPend t i true
    else if !level && decide (s.srcCore t i < 6) then s.setPend t i false else s
  else if level then s.pendSource t i else s

/-- A mask change reaches the bits of word `w`, remembering when a source was masked (R342). -/
def maskApply (s : State) (t : Trunk) (set : Bool) (w : Nat) (v : Word) : State :=
  let m := s.reg (Reg.icuMaskSet t w)
  let x := s.icu t
  let at_ := if set then (List.range 32).foldl (fun l b => if v.getLsbD b && !m.getLsbD b then l.set (32 * w + b) s.free else l) x.maskAt else x.maskAt
  ({ s with icus := s.icus.set t.idx { x with maskAt := at_ } }).setReg (Reg.icuMaskSet t w) (if set then m ||| v else m &&& ~~~v)

/-- Bits of word `w` whose source belongs to a guest core. -/
def guestBits (s : State) (t : Trunk) (w : Nat) : Word :=
  (List.range 32).foldl (fun v b => if 6 ≤ s.srcCore t (32 * w + b) then v ||| BitVec.ofNat 32 (2 ^ b) else v) 0

/-- R339: the bits of word `w` that a writer reaches: a guest core's own bank and the shared sources routed to it, else all. -/
def reach (s : State) (t : Trunk) (writer : Option (Fin 8)) (w : Nat) : Word :=
  match writer with
  | some c => if c.val < 6 then BitVec.allOnes 32 else
      (List.range 32).foldl (fun v b => if s.srcCore t (32 * w + b) = c.val then v ||| BitVec.ofNat 32 (2 ^ b) else v) 0
  | none => BitVec.allOnes 32

/-- The writer is a guest core. -/
def isGuest (writer : Option (Fin 8)) : Bool := writer.any (fun c => decide (6 ≤ c.val))

/-- R339, R340, R342: a mask write. A set bit stands against a clear of the same cycle. A writer other than the guest core itself reaches a
guest core's sources at the capture. -/
def maskWrite (s : State) (t : Trunk) (set : Bool) (writer : Option (Fin 8)) (w : Nat) (v : Word) : State :=
  let v := v &&& s.reach t writer w
  let v := if set then v else v &&& ~~~(BitVec.ofNat 32 (s.cyc.sets.get 0 (Reg.icuMaskSet t w)))
  let s := if set then s.noteSet ⟨Reg.icuMaskSet t w, 0, 32⟩ v.toNat else s
  let g := if isGuest writer then 0 else s.guestBits t w
  let s := s.maskApply t set w (v &&& ~~~g)
  if v &&& g = 0 then s else { s with icus := s.icus.set t.idx { s.icu t with late := (s.icu t).late ++ [(set, w, v &&& g)] } }

/-- R335, R338 to R340: a pend write. A software source that a guest core pends for itself is delivered at once. -/
def pendSetWrite (s : State) (t : Trunk) (writer : Option (Fin 8)) (w : Nat) (v : Word) : State :=
  let v := v &&& s.reach t writer w
  (List.range 32).foldl (fun s b =>
    let i := 32 * w + b
    if !v.getLsbD b || srcReserved i || srcLevel i then s
    else
      let s := s.pendBit t i
      if isGuest writer && decide (i < 512) && decide (8 ≤ i % 64) then s.atOnce t i else s) s

/-- R339, R340: a clear of pending bits; a hardware edge of the same cycle stands. -/
def pendClrWrite (s : State) (t : Trunk) (writer : Option (Fin 8)) (w : Nat) (v : Word) : State :=
  let x := s.icu t
  let v := v &&& s.reach t writer w &&& ~~~(BitVec.ofNat 32 (s.cyc.sets.get 0 (Reg.icuPendSet t w)))
  let gone (i : Nat) : Bool := i / 32 == w && v.getLsbD (i % 32)
  ({ s with icus := s.icus.set t.idx { x with edges := x.edges.filter (fun e => !gone e.1), batch := x.batch.filter (fun i => !gone i) } }).setReg
    (Reg.icuPendSet t w) (s.reg (Reg.icuPendSet t w) &&& ~~~v)

/-- R339: a route write. For a guest core routes are read-only; a route from or to a guest core changes at the next capture. -/
def routeWrite (s : State) (t : Trunk) (writer : Option (Fin 8)) (k : Nat) (v : Word) : State :=
  if isGuest writer then s
  else
    let src := 512 + k
    let target := v.toNat % 8
    let s := s.fset (Reg.IcuRoute.group t k) (v.toNat / 16)
    let ok := if src = 960 then target == 6 else if src = 961 then target == 7 else target < 6 || s.fbit (Reg.IcuRoute.guestOk t k)
    if !ok then s
    else if 6 ≤ target ∨ 6 ≤ s.srcCore t src then { s with icus := s.icus.set t.idx { s.icu t with routes := (s.icu t).routes ++ [(k, target)] } }
    else s.fset (Reg.IcuRoute.target t k) target

/-- R343: moderation holds of core `c` and group `g` end after their interval, or at once in WFI. -/
def modExpire (s : State) (t : Trunk) (c g : Nat) : State :=
  let x := s.icu t
  match x.holds.find? (c * 16 + g) with
  | none => s
  | some e => if e ≤ s.free || s.fbit (Reg.IcuCoreStatus.wfi t c) then s.putIcu t { x with holds := x.holds.erase (c * 16 + g) } else s

/-- R343: the core's external interrupt is asserted. -/
def extIrq (s : State) (t : Trunk) (c : Nat) : Bool :=
  (List.range 1024).any fun i => s.deliverable t c i &&
    !(512 ≤ i && ((s.icu t).holds.find? (c * 16 + s.fget (Reg.IcuRoute.group t (i - 512)))).isSome)

/-- R333, R339: at a capture, late routes and mask changes apply and the batches of the guest cores close. -/
def icuCapture (s : State) (t : Trunk) : State :=
  let s := (s.icu t).routes.foldl (fun s r => s.fset (Reg.IcuRoute.target t r.1) r.2) s
  let late := (s.icu t).late
  let s := late.foldl (fun s l => s.maskApply t l.1 l.2.1 l.2.2) s
  let levels := (List.range 1024).filter (fun i => srcLevel i && s.levelOf t i && decide (6 ≤ s.srcCore t i))
  let s := levels.foldl (fun s i => if s.serving t i then s else s.setPend t i true) s
  let s := (List.range 8).foldl (fun s c => s.pendSource t (64 * c)) s
  let mine := (List.range 1024).filter (fun i => s.srcPending t i && decide (6 ≤ s.srcCore t i))
  s.putIcu t { s.icu t with late := [], routes := [], batch := mine, batchLevel := levels }

end State

/-- INTERRUPT_SOURCE_EDGE (R338, R340). -/
def execInterruptSourceEdge (t : Trunk) (src : Fin 1024) (level : Bool) (s : State) : Host.Outcome State Fault Refusal :=
  act s fun s => s.srcEdge t src level

/-- ICU_CLAIM (R341 to R343). -/
def execIcuClaim (t : Trunk) (core : Fin 8) (s : State) : Host.Outcome State Fault Refusal := act s fun s => s.claim t core

/-- ICU_COMPLETE (R341). -/
def execIcuComplete (t : Trunk) (core : Fin 8) (src : Fin 1024) (s : State) : Host.Outcome State Fault Refusal :=
  act s fun s => s.completeSrc t core src

/-- ICU_MASK_SET (R339, R340, R342). The writer is a core, or the host. -/
def execIcuMaskSet (t : Trunk) (w : Fin 32) (v : IcuWrite) (s : State) : Host.Outcome State Fault Refusal :=
  act s fun s => s.maskWrite t true v.writer w v.value

/-- ICU_MASK_CLR (R339, R340). The writer is a core, or the host. -/
def execIcuMaskClr (t : Trunk) (w : Fin 32) (v : IcuWrite) (s : State) : Host.Outcome State Fault Refusal :=
  act s fun s => s.maskWrite t false v.writer w v.value

/-- ICU_PEND_SET (R335, R340). The writer is a core, or the host. -/
def execIcuPendSet (t : Trunk) (w : Fin 32) (v : IcuWrite) (s : State) : Host.Outcome State Fault Refusal :=
  act s fun s => s.pendSetWrite t v.writer w v.value

/-- ICU_PEND_CLR (R339, R340). The writer is a core, or the host. -/
def execIcuPendClr (t : Trunk) (w : Fin 32) (v : IcuWrite) (s : State) : Host.Outcome State Fault Refusal :=
  act s fun s => s.pendClrWrite t v.writer w v.value

/-- ICU_ROUTE_WRITE (R339). The operand is the shared source less 512. -/
def execIcuRouteWrite (t : Trunk) (src : Fin 512) (v : IcuWrite) (s : State) : Host.Outcome State Fault Refusal :=
  act s fun s => s.routeWrite t v.writer src v.value

/-- MODERATION_EXPIRY (R343). -/
def execModerationExpiry (t : Trunk) (core : Fin 8) (group : Fin 16) (s : State) : Host.Outcome State Fault Refusal :=
  act s fun s => s.modExpire t core group

end Sys2Proof.Machine
end

