-- ==== Sys2Proof/Machine/Ip.lean ====
section
/-! DEFINITION. Internet framing of what the module sends: Ethernet, IPv4 or IPv6, and UDP (R202, R208, R224). The spec names these
protocols and states neither their headers nor how a unicast address is resolved: the headers are PRESUMED from the protocols' own
standards. -/

namespace Sys2Proof.Machine

/-- The Internet checksum's sum of 16-bit big-endian words, an odd last byte padded with zero; ends around carry. -/
def inetSum : List Byte → Nat
  | [] => 0
  | [a] => a.toNat * 256
  | a :: b :: r => let x := a.toNat * 256 + b.toNat + inetSum r; x % 65536 + x / 65536

/-- The Internet checksum of some bytes. -/
def inetCheck (l : List Byte) : Nat := 65535 - inetSum l

/-- The bytes of an IP address. -/
def ipBytes (v6 : Bool) (a : Nat) : List Byte := beBytes (if v6 then 16 else 4) a

/-- The UDP checksum over the pseudo header and the datagram; 0 is sent as all ones. -/
def udpSum (v6 : Bool) (src dst : Nat) (datagram : List Byte) : Nat :=
  let pseudo := ipBytes v6 src ++ ipBytes v6 dst ++ (if v6 then beBytes 4 datagram.length ++ [0, 0, 0, 17] else [0, 17] ++ beBytes 2 datagram.length)
  let c := inetCheck (pseudo ++ datagram)
  if c = 0 then 65535 else c

/-- A UDP datagram with its checksum. -/
def udpDatagram (v6 : Bool) (src dst sport dport : Nat) (payload : List Byte) : List Byte :=
  let h := beBytes 2 sport ++ beBytes 2 dport ++ beBytes 2 (8 + payload.length)
  h ++ beBytes 2 (udpSum v6 src dst (h ++ [0, 0] ++ payload)) ++ payload

/-- R224: an IP packet: TTL or hop limit 64, not fragmented. -/
def ipPacket (v6 : Bool) (src dst dscp : Nat) (body : List Byte) : List Byte :=
  if v6 then [BitVec.ofNat 8 (0x60 + dscp / 4), BitVec.ofNat 8 (dscp % 4 * 64), 0, 0] ++ beBytes 2 body.length ++ [17, 64] ++ ipBytes true src ++ ipBytes true dst ++ body
  else
    let a : List Byte := [0x45, BitVec.ofNat 8 (dscp * 4)] ++ beBytes 2 (20 + body.length) ++ [0, 0, 0x40, 0, 64, 17]
    let b := ipBytes false src ++ ipBytes false dst
    a ++ beBytes 2 (inetCheck (a ++ b)) ++ b ++ body

/-- The MAC address of an IP destination: a group's; which unicast address resolves to which is open. -/
def ipMac (v6 : Bool) (dst : Nat) : Nat :=
  if v6 then (if dst / 2 ^ 120 = 0xFF then 0x333300000000 + dst % 2 ^ 32 else Config.unstated 224 dst % 2 ^ 48)
  else if dst / 2 ^ 28 = 0xE then 0x01005E000000 + dst % 2 ^ 23
  else Config.unstated 224 dst % 2 ^ 48

/-- An Ethernet frame without its FCS, padded to 60 bytes. -/
def etherFrame (dst src etype : Nat) (body : List Byte) : List Byte :=
  let f := beBytes 6 dst ++ beBytes 6 src ++ beBytes 2 etype ++ body
  f ++ List.replicate (60 - f.length) 0

/-- R224: `ip_params` of a port. -/
def ipParams (r : List Byte) : List Byte := slice (portParams r) 0x12 6
def ipHeader (r : List Byte) : Nat := if u8 (ipParams r) 2 = 1 then 40 else 20

namespace State

/-- R224, R433: the address of Ethernet port `n` for an IP version, from its settings record: the fields in the order that R433 lists
them, without padding, the version as 4 or 6 (PRESUMED); 0 without a record. -/
def portIp (s : State) (n : Nat) (v6 : Bool) : Nat :=
  match (settingsOf s.settingsBody.length s.settingsBody 3).find? (fun v => u8 v 0 == n && u8 v 1 == if v6 then 6 else 4) with
  | some v => ofBe (slice v 2 (if v6 then 16 else 4))
  | none => 0

/-- R224, R225: a datagram to the destination of a Leafcast leaf, whose address field is `a`, from Ethernet port `n`, whose PORTS record is
`r`. `up` is added to the ports of the graft transport (R370), which are the port's own. -/
def leafFrame (s : State) (n : Nat) (r a : List Byte) (up : Nat) (payload : List Byte) : List Byte :=
  let ip := ipParams r
  let v6 := u8 ip 2 == 1
  let own := orDefault (u16 ip 0) 0 51416
  let dst := if v6 then 0xFF15 * 2 ^ 112 + u32 a 0 else u32 a 0
  let dport := if up = 0 then orDefault (u16 a 6) 0 own else own + up
  let src := s.portIp n v6
  etherFrame (ipMac v6 dst) (s.portMac n) (if v6 then 0x86DD else 0x0800)
    (ipPacket v6 src dst (orDefault (u8 ip 3) 0xFF 46) (udpDatagram v6 src dst (own + up) dport payload))

/-- A UDP datagram from Ethernet port `n` as a frame. -/
def udpFrame (s : State) (n : Nat) (v6 : Bool) (dst sport dport dscp : Nat) (payload : List Byte) : List Byte :=
  let src := s.portIp n v6
  etherFrame (ipMac v6 dst) (s.portMac n) (if v6 then 0x86DD else 0x0800) (ipPacket v6 src dst dscp (udpDatagram v6 src dst sport dport payload))

end State

end Sys2Proof.Machine
end

