-- ==== Sys2Proof/Machine/Sdi.lean ====
section
/-! DEFINITION. What the root sends for a raster line: SDI data streams with their blanking, and ST 2110 packets (R192, R201, R202). Of
both the spec names the standards alone: their framing is PRESUMED from SMPTE ST 292-1, ST 352, ST 425, ST 2082 and ST 2110-20. -/

namespace Sys2Proof.Machine

/-! ### SDI (R201) -/

/-- A 9-bit value as a 10-bit word whose top bit is the complement of the next. -/
def sdiNine (x : Nat) : Nat := x % 512 + 512 * (1 - x / 256 % 2)

/-- An ancillary data byte with even parity. -/
def sdiByte (x : Nat) : Nat := sdiNine (x % 256 + 256 * (ones 8 x % 2))

/-- The last word of a timing reference code of a progressive line: vertical blanking, and end (else start) of active video. -/
def sdiXyz (v h : Bool) : Nat :=
  0x200 + 0x80 * v.toNat + 0x40 * h.toNat + 0x20 * (v.toNat + h.toNat) % 0x40 + 0x10 * h.toNat + 8 * v.toNat + 4 * ((v.toNat + h.toNat) % 2)

/-- A timing reference code. -/
def sdiTrs (v h : Bool) : List Nat := [0x3FF, 0, 0, sdiXyz v h]

/-- The two words of a line number. -/
def sdiLineNo (l : Nat) : List Nat := [sdiNine (l % 128 * 4), sdiNine (l / 128 % 16 * 4)]

/-- One 10-bit word into the line CRC, least significant bit first: x^18 + x^5 + x^4 + 1. -/
def sdiCrcBits : Nat → Nat → Nat → Nat
  | 0, r, _ => r
  | n + 1, r, w => sdiCrcBits n ((r / 2) ^^^ (if (r + w) % 2 = 1 then 0x23000 else 0)) (w / 2)

/-- The line CRC of some words, and its two words. -/
def sdiCrc (l : List Nat) : List Nat :=
  let r := l.foldl (fun r w => sdiCrcBits 10 r w) 0
  [sdiNine (r % 512), sdiNine (r / 512)]

/-- The ancillary packet of a payload identifier of four bytes (ST 352). -/
def sdiPayloadId (id : List Nat) : List Nat :=
  let b := ([0x41, 0x01, 0x04] ++ id).map sdiByte
  [0, 0x3FF, 0x3FF] ++ b ++ [sdiNine (b.foldl (fun a x => a + x % 512) 0 % 512)]

/-- One data stream of a line: timing codes, line number, line CRC over the line before, horizontal ancillary space, active words. -/
def sdiStream (line hTotal : Nat) (v : Bool) (fill : Nat) (prev anc active : List Nat) : List Nat :=
  let h := sdiTrs v true ++ sdiLineNo line
  h ++ sdiCrc (prev ++ h) ++ anc ++ List.replicate (hTotal - active.length - 12 - anc.length) fill ++ sdiTrs v false ++ active

/-- The picture rates of ST 352. -/
def sdiRates : List (Nat × Nat × Nat) :=
  [(24000, 1001, 2), (24, 1, 3), (25, 1, 5), (30000, 1001, 6), (30, 1, 7), (50, 1, 9), (60000, 1001, 10), (60, 1, 11)]

/-- The four bytes of the payload identifier: transport and format; progressive transport and picture, transfer, rate; width, BT.2020
colour, 4:2:2; 10 bits. -/
def sdiId (transport hActive vActive transfer : Nat) (full bt2020 : Bool) (rate : Nat × Nat) : List Nat :=
  let std := match transport with | 0 => 0xCE | 1 => 0x89 | _ => if vActive = 720 then 0x84 else 0x85
  let r := ((sdiRates.find? (fun x => rate.1 * x.2.1 == x.1 * rate.2)).map (·.2.2)).getD 0
  let tc := match transfer with | 0 => 0 | 1 => 2 | 2 => 1 | _ => 3
  [std, 0xC0 + 16 * tc + r, 0x80 + (if hActive % 2048 = 0 then 0x40 else 0) + (if bt2020 then 0x20 else 0), if full then 0 else 1]

/-- The chroma and luma words of a 4:2:2 line. -/
def sdiSplit (codes : List Nat) : List Nat × List Nat :=
  ((codes.zipIdx.filter (fun x => x.2 % 2 == 0)).map (·.1), (codes.zipIdx.filter (fun x => x.2 % 2 == 1)).map (·.1))

/-- The two sub-images of a 12G line: its pairs of samples in turn. -/
def sdiHalves (codes : List Nat) : List Nat × List Nat :=
  ((codes.zipIdx.filter (fun x => x.2 / 4 % 2 == 0)).map (·.1), (codes.zipIdx.filter (fun x => x.2 / 4 % 2 == 1)).map (·.1))

/-- The active words of a line's data streams: chroma and luma of the picture, or of the two sub-images a 12G line holds. -/
def sdiActive (uhd : Bool) (codes : List Nat) : List (List Nat) :=
  if uhd then
    let h := sdiHalves codes
    [(sdiSplit h.1).1, (sdiSplit h.1).2, (sdiSplit h.2).1, (sdiSplit h.2).2]
  else [(sdiSplit codes).1, (sdiSplit codes).2]

/-- The data streams of line `line` (from 1) of a picture or sub-image: the payload identifier stands on line 10, on the luma stream of HD
and on every stream else. -/
def sdiLine (hd : Bool) (line hTotal : Nat) (v : Bool) (id : List Nat) (prev active : List (List Nat)) : List (List Nat) :=
  active.zipIdx.map fun x =>
    let luma := x.2 % 2 == 1
    let anc := if line = 10 ∧ (luma ∨ !hd) then sdiPayloadId id else []
    sdiStream line hTotal v (if luma then 0x040 else 0x200) (prev.getD x.2 []) anc x.1

/-! ### ST 2110-20 (R202) -/

/-- The pixel group of a sample format: codes, pixels, bits a code. -/
def pixelGroup (pixelFormat : Nat) : Nat × Nat × Nat :=
  match pixelFormat with | 0 => (4, 2, 10) | 1 => (4, 2, 12) | 2 => (12, 4, 10) | 3 => (12, 4, 10) | _ => (6, 2, 12)

/-- A list cut into pieces of `n`, at most `fuel` of them. -/
def pieces {α : Type} (n : Nat) : Nat → List α → List (List α)
  | 0, _ => []
  | _ + 1, [] => []
  | fuel + 1, a :: l => (a :: l).take n :: pieces n fuel ((a :: l).drop n)

/-- Pixel groups as bytes, first code in the highest bits; the last group is filled up with zeros. -/
def groupBytes (pixelFormat : Nat) (codes : List Nat) : List (List Byte) :=
  let g := pixelGroup pixelFormat
  (pieces g.1 codes.length codes).map fun c =>
    beBytes (g.1 * g.2.2 / 8) ((c ++ List.replicate (g.1 - c.length) 0).foldl (fun a x => a * 2 ^ g.2.2 + x % 2 ^ g.2.2) 0)

/-- R202: pixel groups in a packet: its UDP payload has at most 1,460 bytes, 20 of them headers. A packet holds samples of one line (DESIGN
CHOICE: general packing allows others). -/
def groupsPer (pixelFormat : Nat) : Nat := 1440 / ((pixelGroup pixelFormat).1 * (pixelGroup pixelFormat).2.2 / 8)

/-- Packets of a line of `n` samples. -/
def packetsPer (pixelFormat n : Nat) : Nat :=
  let g := (n + (pixelGroup pixelFormat).2.1 - 1) / (pixelGroup pixelFormat).2.1
  (g + groupsPer pixelFormat - 1) / groupsPer pixelFormat

/-- The RTP packets of active line `row`, from sequence `seq`; the last of the frame is marked. -/
def rtpLine (pixelFormat payloadType ssrc stamp row seq : Nat) (last : Bool) (codes : List Nat) : List (List Byte) :=
  let gs := groupBytes pixelFormat codes
  let ps := pieces (groupsPer pixelFormat) gs.length gs
  ps.zipIdx.map fun x =>
    let d := x.1.flatten
    let mark := last && x.2 + 1 == ps.length
    [0x80, BitVec.ofNat 8 (128 * mark.toNat + payloadType)] ++ beBytes 2 (seq + x.2) ++ beBytes 4 stamp ++ beBytes 4 ssrc ++ beBytes 2 ((seq + x.2) / 65536) ++
      beBytes 2 d.length ++ beBytes 2 row ++ beBytes 2 (x.2 * groupsPer pixelFormat * (pixelGroup pixelFormat).2.1) ++ d

end Sys2Proof.Machine
end

