-- ==== Sys2Proof/Machine/Transfer.lean ====
section
/-! DEFINITION. The built-in transfer tables of raster outputs (R191): BT.709, sRGB, PQ and HLG, from exponential
and logarithm in fixed point with 96 fraction bits. The constants are those of the named standards. -/

namespace Sys2Proof.Machine

/-- One in fixed point. -/
def fx1 : Int := 2 ^ 96
def fxMul (a b : Int) : Int := a * b / fx1
def fxDiv (a b : Int) : Int := a * fx1 / b
/-- A decimal constant n / d. -/
def fxQ (n d : Int) : Int := n * fx1 / d

/-- Terms of atanh(z): z^(2i+1) / (2i+1), `n` of them. -/
def atanhSum : Nat → Int → Int → Int → Int
  | 0, _, _, _ => 0
  | n + 1, z2, p, i => p / (2 * i + 1) + atanhSum n z2 (fxMul p z2) (i + 1)

/-- ln of a value in [1, 2): 2 atanh((x - 1) / (x + 1)). -/
def lnOne (x : Int) : Int :=
  let z := fxDiv (x - fx1) (x + fx1)
  2 * atanhSum 64 (fxMul z z) z 0

def ln2 : Int := lnOne (2 * fx1)

/-- ln of a positive value. -/
def fxLn (x : Int) : Int :=
  let e : Int := (Nat.log2 x.toNat : Nat) - 96
  let m := if 0 ≤ e then x / 2 ^ e.toNat else x * 2 ^ (-e).toNat
  e * ln2 + lnOne m

/-- Terms of exp(r), `n` of them. -/
def expSum : Nat → Int → Int → Int → Int
  | 0, _, _, _ => 0
  | n + 1, r, p, i => p + expSum n r (fxMul p r / (i + 1)) (i + 1)

/-- exp of a value. -/
def fxExp (x : Int) : Int :=
  let k := x / ln2
  let r := x - k * ln2
  let v := expSum 40 r fx1 0
  if 0 ≤ k then v * 2 ^ k.toNat else v / 2 ^ (-k).toNat

/-- x to the power y; 0 for x at or below 0. -/
def fxPow (x y : Int) : Int := if x ≤ 0 then 0 else fxExp (fxMul y (fxLn x))

/-- Clamped to [0, 1]. -/
def fxClamp (x : Int) : Int := min (max x 0) fx1

/-- A fixed-point value rounded to a binary16 value, ties to even. -/
def fxHalf (x : Int) : Flt := fround bin16 (decide (x < 0)) x.natAbs (-96)

/-- BT.709 OETF. -/
def oetf709 (l : Int) : Int :=
  if l < fxQ 18 1000 then l * 9 / 2 else fxMul (fxQ 1099 1000) (fxPow l (fxQ 45 100)) - fxQ 99 1000

/-- IEC 61966-2-1 encoding. -/
def oetfSrgb (l : Int) : Int :=
  if l ≤ fxQ 31308 10000000 then fxMul (fxQ 1292 100) l
  else fxMul (fxQ 1055 1000) (fxPow l (fxQ 10 24)) - fxQ 55 1000

/-- ST 2084 inverse EOTF of 203 × L cd/m². -/
def oetfPq (l : Int) : Int :=
  let y := fxPow (l * 203 / 10000) (fxQ 2610 16384)
  let n := fxQ 3424 4096 + fxMul (fxQ 2413 128) y
  let d := fx1 + fxMul (fxQ 2392 128) y
  fxPow (fxDiv n d) (fxQ 2523 32)

def hlgA : Int := fxQ 17883277 100000000
def hlgB : Int := fxQ 28466892 100000000
def hlgC : Int := fxQ 55991073 100000000

/-- BT.2100 HLG OETF of L × Eref, Eref the scene value that gives signal 0.75. -/
def oetfHlg (l : Int) : Int :=
  let eref := (fxExp (fxDiv (fxQ 75 100 - hlgC) hlgA) + hlgB) / 12
  let e := fxMul l eref
  if e * 12 ≤ fx1 then fxPow (3 * e) (fx1 / 2)
  else fxMul hlgA (fxLn (12 * e - hlgB)) + hlgC

/-- R191: entry `i` of the table of a transfer. -/
def transferEntry (transfer i : Nat) : Flt :=
  match ofHalf (i * 8) with
  | .fin _ m e =>
    let x : Int := if 0 ≤ e + 96 then m * 2 ^ (e + 96).toNat else m / 2 ^ (-(e + 96)).toNat
    fxHalf (fxClamp (match transfer with | 0 => oetf709 x | 1 => oetfPq x | 2 => oetfHlg x | _ => oetfSrgb x))
  | _ => .fin false 1 0

/-- R191 steps 1 and 2: the signal E' of a binary16 value. -/
def signalOf (transfer h : Nat) : Flt :=
  match ofHalf h with
  | .nan => transferEntry transfer 0
  | .fin true _ _ => transferEntry transfer 0
  | .inf true => transferEntry transfer 0
  | _ =>
    let i := h / 8
    let f := h % 8
    let prod := fmul bin32 (fsub bin32 (transferEntry transfer (i + 1)) (transferEntry transfer i)) (.fin false f (-3))
    match fadd bin32 (transferEntry transfer i) prod with
    | .fin n m e => fround bin16 n m e
    | x => x

end Sys2Proof.Machine
end

