-- ==== Sys2Proof/Machine/Raster.lean ====
section
/-! DEFINITION. Raster outputs: generators, pixel encoding, commit, latch and flip, events, underrun and freeze
detection (R184 to R203). -/

namespace Sys2Proof.Machine

/-! ### RASTERS timing (R185) -/

def rasterTiming (r : List Byte) : List Byte := slice r 0x10 32
def rasterLaunchBase (r : List Byte) : Nat := u8 (rasterTiming r) 0x0D
def rasterSeamless (r : List Byte) : Bool := rasterFlags r % 2 == 1
def rasterFreezeN (r : List Byte) : Nat := orDefault (u16 r 6) 0 4

/-- The shadow registers of a generator (R203). -/
def rastRegs (t : Trunk) (g : Nat) : List Nat :=
  [Reg.rastCtrl t g, Reg.rastTimingH t g, Reg.rastTimingV t g, Reg.rastTimingVs t g, Reg.rastRegion t g,
   Reg.rastFbBaseLo t g, Reg.rastFbBaseHi t g, Reg.rastFbPitch t g, Reg.rastFbFormat t g]

/-! ### Pixel encoding (R191) -/

/-- The largest integer at most a finite value. -/
def fltFloor : Flt → Int
  | .fin n m e =>
    let v : Int := if n then -(m : Int) else m
    if 0 ≤ e then v * 2 ^ e.toNat else v / 2 ^ (-e).toNat
  | _ => 0

/-- A sample format: depth, 4:2:2, Y'CbCr (else RGB), full range, SDI limits. -/
structure RastFmt where
  depth : Nat
  sub : Bool
  yuv : Bool
  full : Bool
  sdi : Bool
  deriving DecidableEq, Repr

/-- R185: the sample format of `pixel_format`. -/
def rastFmt (pf : Nat) (full sdi : Bool) : RastFmt :=
  { depth := if pf = 1 ∨ pf = 4 then 12 else 10, sub := pf < 2, yuv := pf < 3, full := full, sdi := sdi }

def f32n (n : Int) : Flt := fround bin32 (decide (n < 0)) n.natAbs 0
def add32 := fadd bin32
def sub32 := fsub bin32
def mul32 := fmul bin32
def div32 := fdiv bin32

/-- R191 steps 4 and 5: the code of a value; `chroma` selects the chroma form. -/
def rastCode (f : RastFmt) (chroma : Bool) (v : Flt) : Nat :=
  let sc : Int := 2 ^ (f.depth - 8)
  let top : Int := 2 ^ f.depth - 1
  let x :=
    if f.full then
      (if chroma then add32 (f32n (2 ^ (f.depth - 1))) (mul32 (f32n top) v) else mul32 (f32n top) v)
    else if chroma then add32 (f32n (2 ^ (f.depth - 1))) (mul32 (f32n sc) (mul32 (f32n 224) v))
    else mul32 (f32n sc) (add32 (f32n 16) (mul32 (f32n 219) v))
  let c := fltFloor (add32 x (.fin false 1 (-1)))
  let lim : Int := if f.sdi then 4 * 2 ^ (f.depth - 10) else 0
  (min (max c lim) (top - lim)).toNat

/-- R191 step 3: (Y', Cb, Cr) from signals under binary32 coefficients Kr, Kg, Kb. -/
def rastYuv (kr kg kb r g b : Flt) : Flt × Flt × Flt :=
  let y := add32 (add32 (mul32 kr r) (mul32 kg g)) (mul32 kb b)
  let cb := div32 (sub32 b y) (mul32 (f32n 2) (sub32 (f32n 1) kb))
  let cr := div32 (sub32 r y) (mul32 (f32n 2) (sub32 (f32n 1) kr))
  (y, cb, cr)

/-- The codes of one line's samples from its signals, in transmission order: Cb Y Cr Y under 4:2:2, Cb Y Cr under
4:4:4, R G B for RGB. -/
def rastLine (f : RastFmt) (kr kg kb : Flt) (px : List (Flt × Flt × Flt)) : List Nat :=
  if f.yuv then
    let yc := px.map fun p => rastYuv kr kg kb p.1 p.2.1 p.2.2
    if f.sub then
      (yc.zipIdx).flatMap fun p =>
        let y := rastCode f false p.1.1
        if p.2 % 2 = 0 then [rastCode f true p.1.2.1, y]
        else [rastCode f true ((yc.getD (p.2 - 1) p.1).2.2), y]
    else yc.flatMap fun p => [rastCode f true p.2.1, rastCode f false p.1, rastCode f true p.2.2]
  else px.flatMap fun p => [rastCode f false p.1, rastCode f false p.2.1, rastCode f false p.2.2]

namespace State

def rastSt (s : State) (t : Trunk) (g : Nat) : RastSt := s.rasters.get {} (t.idx * 8 + g)
def putRast (s : State) (t : Trunk) (g : Nat) (x : RastSt) : State := { s with rasters := s.rasters.set (t.idx * 8 + g) x }

/-- The key of a raster output on the root's side: by trunk in SPLIT, else by generator. -/
def rastKey (s : State) (t : Trunk) (g : Nat) : Nat := if s.redundancy = 2 then t.idx * 8 + g else g
def rastOut (s : State) (k : Nat) : RasterOut := s.rasterOut.get {} k
def putRastOut (s : State) (k : Nat) (x : RasterOut) : State := { s with rasterOut := s.rasterOut.set k x }

/-- Trunks that run the output: every trunk in service, or in SPLIT the one the record names. -/
def onRast (s : State) (t : Trunk) (f : Trunk → State → State) : State :=
  if s.redundancy = 2 then (if s.inService t then f t s else s) else s.onTrunks (fun s t => s.inService t) f

def isSdi (r : List Byte) : Bool := rasterTransport r != 3

/-- R191, R176: binary32 coefficients of a generator's canvas; open where it scans no canvas. -/
def rastK (s : State) (t : Trunk) (g : Nat) : Flt × Flt × Flt :=
  let r := s.rastRec t g
  if rasterCanvas r = 0xFF then
    let k (i : Nat) : Flt := .fin false (Config.unstated 191 i % 2 ^ 24) (-25)
    (k 0, k 1, k 2)
  else
    let kf := (canvasKF (s.canvasRec (s.ownCanvas (rasterCanvas r)))).getD []
    (f32 (kf.getD 3 one64), f32 (kf.getD 4 one64), f32 (kf.getD 5 one64))


/-- R198: the FULL set is in use. -/
def rastFull (s : State) (t : Trunk) (g : Nat) : Bool := !s.fbit (Reg.RastStatus.counterMode t g)

/-- R199: an event sets its bit and pends its source. -/
def rastEvent (s : State) (t : Trunk) (g i : Nat) : State :=
  (s.fset ⟨Reg.rastEvents t g, i, 1⟩ 1).pendSource t (768 + 4 * g + i)

/-- The frame rate of a cadence as a fraction of frames per second (R186). -/
def cadRate (s : State) (c : Nat) : Nat × Nat :=
  let a := s.sd.cadAxis c
  if isTimeAxis a then (s.sd.cadNum c, s.sd.cadDen c)
  else (s.sd.rateNum a * s.sd.cadDen c, s.sd.rateDen a * s.sd.cadNum c)

/-! ### Frames and lines on their launch base (R187, R188, R190) -/

/-- R187: the frame period of a cadence in ns on a launch base, under the capture, as a fraction. -/
def rastPeriod (s : State) (c k base : Nat) : Nat × Nat :=
  let a := s.sd.cadAxis c
  match s.convert (((s.sd.cadPos c k : Nat) : Int), 1) a base, s.convert (((s.sd.cadPos c (k + 1) : Nat) : Int), 1) a base with
  | some p, some q => ((q.1 * p.2 - p.1 * q.2).toNat, q.2 * p.2 * 65536)
  | _, _ => (1, 1)

/-- R190: the frame period of a cadence at its nominal rate, in ns. -/
def rastNominal (s : State) (c : Nat) : Nat × Nat := (1000000000 * (s.cadRate c).2, max 1 (s.cadRate c).1)

/-- R187, R202: the line that starts at the launch time: line 0, and on ST 2110 the first active line, whose first packet leaves then. The
blanking of ST 2110 carries no packets: its lines before the picture lie before the launch time (DESIGN CHOICE). -/
def rastOff (r : List Byte) (vStart : Nat) : Nat := if rasterTransport r = 3 then vStart else 0

/-- A frame in the timing that is active. -/
def rastFrame (s : State) (t : Trunk) (g : Nat) (e : RastEpoch) (n base : Nat) (canvas : Option (Nat × Nat)) (black : Bool) : RastFrame :=
  let vs := s.aget (Reg.RastTimingVs.vStart t g)
  { n := n, k := e.k, tag := e.tag, base := base, launch := e.launch, tfN := e.tfN, tfD := max 1 e.tfD, off := rastOff (s.rastRec t g) vs,
    vTotal := max 1 (s.aget (Reg.RastTimingV.vTotal t g)), vStart := vs, vActive := s.aget (Reg.RastTimingV.vActive t g),
    hTotal := s.aget (Reg.RastTimingH.hTotal t g), hActive := s.aget (Reg.RastTimingH.hActive t g),
    pixelFormat := s.aget (Reg.RastCtrl.pixelFormat t g), full := s.aget (Reg.RastCtrl.range t g) == 1, transfer := s.aget (Reg.RastCtrl.transfer t g),
    canvas := canvas, lineMatch := s.fget (Reg.RastLineMatch.line t g), black := black }

/-- R187: line `j` of a frame starts at the pad, in ns on its launch base. -/
def lineNs (f : RastFrame) (j : Nat) : Int := (f.launch : Int) + ((j : Int) - (f.off : Int)) * (f.tfN : Int) / ((f.tfD * f.vTotal : Nat) : Int)

/-- The time in ns on `base` has come. -/
def nsCome (s : State) (base : Nat) (ns : Int) : Bool :=
  match s.basePos base with
  | some p => decide (ns * 65536 ≤ (p : Int))
  | none => false

/-- R187, R188: a line is due at the pad; it is due to be read 500 µs before. -/
def padDue (s : State) (f : RastFrame) (j : Nat) : Bool := s.nsCome f.base (lineNs f j)
def readDue (s : State) (f : RastFrame) (j : Nat) : Bool := s.nsCome f.base (lineNs f j - 500000)

/-- A time in ns on one launch base as the same instant on another. -/
def onBase (s : State) (b : Nat) (a : Nat) (ns : Int) : Int :=
  if a = b then ns
  else
    match s.basePos a, s.basePos b with
    | some p, some q => ns + ((q : Int) - (p : Int)) / 65536
    | _, _ => ns

/-! ### Commit (R186, R194) -/

def rateIs (r : Nat × Nat) (n d : Nat) : Bool := r.1 * d == n * r.2 && r.2 != 0

/-- R186: which of the three SDI rate columns a rate lies in, up to 30 Hz or up to 60 Hz. -/
def sdiColumn (r : Nat × Nat) (to60 : Bool) : Option Nat :=
  if rateIs r 24 1 || rateIs r 24000 1001 then some 2
  else if rateIs r 25 1 || to60 && rateIs r 50 1 then some 1
  else if rateIs r 30 1 || rateIs r 30000 1001 || to60 && (rateIs r 60 1 || rateIs r 60000 1001) then some 0
  else none

/-- R186: the timing is one its transport supports. -/
def timingOk (transport ha va ht vt vs pf : Nat) (r : Nat × Nat) : Bool :=
  let hd := (va == 1080 && (ha == 1920 || ha == 2048)) && vt == 1125 && vs == 41
  let cols (to60 : Bool) (l : List Nat) : Bool := match sdiColumn r to60 with | some i => l.getD i 0 == ht | none => false
  match transport with
  | 0 => va == 2160 && (ha == 3840 || ha == 4096) && vt == 2250 && vs == 82 && cols true [4400, 5280, 5500] && pf == 0
  | 1 => hd && cols true [2200, 2640, 2750] && pf == 0
  | 2 => pf == 0 && (hd && cols false [2200, 2640, 2750] ||
      ha == 1280 && va == 720 && vt == 750 && vs == 25 && cols true [1650, 1980, 4125])
  | _ =>
    decide (16 ≤ ha) && decide (ha ≤ 8192) && decide (16 ≤ va) && decide (va ≤ 4320) && (decide (2 ≤ pf) || ha % 2 == 0) &&
    decide (va + 1 ≤ vt) && decide (vs + va < vt) && decide (ha ≤ ht) && decide (pf ≤ 4) &&
    decide (24000 * r.2 ≤ 1001 * r.1) && decide (r.1 ≤ 240 * r.2) && decide (ha * va * r.1 ≤ 2123366400 * r.2)

/-- R194: the code of the check of a generator's shadow copy; 0 passes. -/
def rastCheck (s : State) (t : Trunk) (g : Nat) : Nat :=
  let r := s.rastRec t g
  let ha := s.fget (Reg.RastTimingH.hActive t g)
  let va := s.fget (Reg.RastTimingV.vActive t g)
  let cad := s.fget (Reg.RastCtrl.cadence t g)
  let cv := s.canvasRec (s.ownCanvas (rasterCanvas r))
  let buf := s.fbit (Reg.RastCtrl.scanBuffer t g)
  let cadOk := decide (cad < s.sd.cadences.length)
  let ax := s.sd.cadAxis cad
  if cadOk && !timingOk (rasterTransport r) ha va (s.fget (Reg.RastTimingH.hTotal t g)) (s.fget (Reg.RastTimingV.vTotal t g))
      (s.fget (Reg.RastTimingVs.vStart t g)) (s.fget (Reg.RastCtrl.pixelFormat t g)) (s.cadRate cad) then 0x0520
  else if !buf && !(decide (s.fget (Reg.RastRegion.x t g) + ha ≤ canvasWidth cv) && decide (s.fget (Reg.RastRegion.y t g) + va ≤ canvasHeight cv)) then 0x0521
  else if buf && !((s.fget (Reg.RastFbFormat.code t g) == 0x80 || s.fget (Reg.RastFbFormat.code t g) == 0x81) &&
      surfaceOk s.guestParts (s.fget (Reg.RastFbFormat.code t g)) ha va
        (s.regN (Reg.rastFbBaseLo t g) + 2 ^ 32 * s.fget (Reg.RastFbBaseHi.value t g)) (s.regN (Reg.rastFbPitch t g)) 0 0) then 0x0522
  else if !cadOk || s.axisState ax == 0 || s.fbit (Reg.AxisCtrl.holdMode ax) then 0x0523
  else 0

/-- R46: a generator's epochs count from where its axis stands. -/
def rastCount (s : State) (t : Trunk) (g : Nat) : State :=
  let key := 50 + t.idx * 8 + g
  let n := s.sd.cadAxis (s.cadenceOf key)
  if s.hasPos n then s.countFrom key (s.axisPos n) else { s with cadence := s.cadence.erase key }

/-- R184: a generator starts: it has no frame in hand, and its first frame is the first in a new timing (R190, R197). Frames that still
wait at the pad end first. -/
def rastFresh (s : State) (t : Trunk) (g : Nat) : State :=
  s.putRast t g { s.rastSt t g with epochs := [], cur := none, line := 0, modeChange := true, afterEnd := true, freeAt := none, lastCanvas := none, latched := none }

/-- R194, R195: the pending configuration becomes active. A generator that stops reads no further frame. A generator that is inactive has
no latch point to wait for (DESIGN CHOICE). -/
def rastTake (s : State) (t : Trunk) (g : Nat) : State :=
  let on := s.rastActive t g
  let cad := s.aget (Reg.RastCtrl.cadence t g)
  let s := (s.pendToAct (rastRegs t g)).fset (Reg.RastStatus.pending t g) 0
  let s := if s.rastActive t g = on then s else if on then s.putRast t g { s.rastSt t g with epochs := [] } else s.rastFresh t g
  if on && s.aget (Reg.RastCtrl.cadence t g) == cad then s else s.rastCount t g

/-- R194: a write of 1 to `commit`. -/
def rastCommitWrite (s : State) (t : Trunk) (g : Nat) : State :=
  if s.rastRec? t g = none then s
  else if s.fbit (Reg.RastStatus.busy t g) then s.fset (Reg.RastStatus.lost t g) 1
  else (s.fset (Reg.RastStatus.busy t g) 1).putRast t g { s.rastSt t g with commitTag := s.tag }

/-! ### Latch and flip (R195 to R197) -/

/-- R197: the first frame of a cadence that launches on `base` at or after a time in ns: its index and launch. -/
def firstLaunch (s : State) (c base : Nat) (ns : Int) : Option (Nat × Nat) :=
  match s.convert (ns * 65536, 1) base (s.sd.cadAxis c) with
  | none => none
  | some q =>
    let k := (s.sd.cadIndex c (q.floor - s.leadUnits (s.sd.cadAxis c)).toNat).getD 0
    [k - 1, k, k + 1, k + 2].findSome? fun k => (s.launchNs c k base).bind fun l => if ns ≤ l then some (k, l) else none

/-- R189: the canvas frame a generator reads for epoch `k`. -/
def rastCanvas (s : State) (t : Trunk) (g k : Nat) : Option (Nat × Nat) :=
  let r := s.rastRec t g
  if s.aget (Reg.RastCtrl.scanBuffer t g) = 1 ∨ rasterCanvas r = 0xFF then none
  else
    let cad := s.aget (Reg.RastCtrl.cadence t g)
    let c := s.ownCanvas (rasterCanvas r)
    (s.frameFor t c (s.sd.cadPos cad k) (s.sd.cadAxis cad)).map (fun f => (c, f.id))

/-- R196: a flip: it is counted, and the launch time of the next frame recorded. A frame timed on FREE before its axis locks has no launch
time on the launch base: nothing is recorded (DESIGN CHOICE). -/
def flip (s : State) (t : Trunk) (g : Nat) (l : Option Nat) : State :=
  let base := rasterLaunchBase (s.rastRec t g)
  let s := s.setRegN (Reg.rastFlipCnt t g) (s.regN (Reg.rastFlipCnt t g) + 1)
  match l with
  | some l => s.setReg96 (Reg.rastFlipTsLo t g) (Reg.rastFlipTsMid t g) (Reg.rastFlipTsHi t g) (posForm base (l * 65536))
  | none => s

/-- R197: pending timing differs from active timing, so that the next frame starts as a timing change; a seamless one does not. -/
def timingMoves (s : State) (t : Trunk) (g : Nat) : Bool :=
  let moved (f : Field) : Bool := s.aget f != s.pget f
  let px (get : Field → Nat) : Nat := get (Reg.RastTimingH.hTotal t g) * get (Reg.RastTimingV.vTotal t g)
  let cad := moved (Reg.RastCtrl.cadence t g)
  let any := cad || moved (Reg.RastTimingH.hTotal t g) || moved (Reg.RastTimingH.hActive t g) ||
    moved (Reg.RastTimingV.vTotal t g) || moved (Reg.RastTimingV.vActive t g) || moved (Reg.RastTimingVs.vStart t g)
  any && !(rasterSeamless (s.rastRec t g) && !cad && px s.aget == px s.pget)

/-- R196: the pending configuration replaces the buffer that is scanned. -/
def bufferMoves (s : State) (t : Trunk) (g : Nat) : Bool :=
  s.aget (Reg.RastCtrl.scanBuffer t g) == 1 &&
    ([Reg.rastFbBaseLo t g, Reg.rastFbBaseHi t g, Reg.rastFbPitch t g, Reg.rastFbFormat t g].any (fun a => s.actReg a != s.pendReg a) ||
      s.pget (Reg.RastCtrl.scanBuffer t g) == 0)

/-- R187: an epoch of a cadence as a generator's frame. -/
def rastEpochOf (s : State) (t : Trunk) (g k : Nat) : Option RastEpoch :=
  let c := s.aget (Reg.RastCtrl.cadence t g)
  let base := rasterLaunchBase (s.rastRec t g)
  (s.launchNs c k base).map fun l => { k := k, launch := l, tfN := (s.rastPeriod c k base).1, tfD := (s.rastPeriod c k base).2, tag := s.tag }

/-- R197: in a new cadence the next frame is the one with the first launch at or after the end of the frame in hand. Epochs of the new
cadence from there on that lie behind are taken as passed. -/
def rastRecad (s : State) (t : Trunk) (g : Nat) (next : Option (Nat × Nat)) : State :=
  let es : List RastEpoch := match next, s.cadence.find? (50 + t.idx * 8 + g) with
    | some n, some last => (List.range (last + 1 - n.1)).filterMap fun i => s.rastEpochOf t g (n.1 + i)
    | _, _ => []
  s.putRast t g { s.rastSt t g with epochs := es, afterEnd := true }

/-- R195, R196: what the latch of frame `f` does under its mark's tag: a commit that arrived before takes effect at the next frame. -/
def latchTake (s : State) (t : Trunk) (g : Nat) (f : RastFrame) (tag : Nat) : State :=
  let base := rasterLaunchBase (s.rastRec t g)
  let pend := s.fbit (Reg.RastStatus.pending t g) && decide ((s.rastSt t g).pendTag < tag)
  let moves := pend && s.timingMoves t g
  let fb := pend && s.bufferMoves t g
  let cad := s.aget (Reg.RastCtrl.cadence t g)
  let s := if pend then s.rastTake t g else s
  let c := s.aget (Reg.RastCtrl.cadence t g)
  let same := decide (c = cad)
  let timed := decide (f.base = base) && s.fbit (Reg.RastStatus.locked t g)
  let next : Option (Nat × Nat) :=
    if same then (if timed then (s.launchNs c (f.k + 1) base).map (f.k + 1, ·) else none)
    else s.firstLaunch c base (s.onBase base f.base (lineNs f f.vTotal))
  let s := if same then s else s.rastRecad t g next
  let s := if moves then s.putRast t g { s.rastSt t g with modeChange := true } else s
  let cv := match next with | some n => s.rastCanvas t g n.1 | none => (s.rastSt t g).lastCanvas
  if s.rastActive t g && (pend || cv != (s.rastSt t g).lastCanvas) then
    let s := s.flip t g (next.map (·.2))
    if fb then s.fset (Reg.RastStatus.fbPrevInUse t g) 1 else s
  else s

/-- R194: the check completes. A commit whose tag precedes the latch mark takes effect at the frame after that latch, though its check ends
behind it (R195), as long as that frame is not begun. -/
def rastCommitDone (s : State) (t : Trunk) (g : Nat) : State :=
  if !s.fbit (Reg.RastStatus.busy t g) then s
  else
    let code := s.rastCheck t g
    let s := (s.fset (Reg.RastStatus.busy t g) 0).fset (Reg.RastStatus.code t g) code
    if code ≠ 0 then (s.fset (Reg.RastStatus.refused t g) 1).trunkEvent t (0x60000) code 0 []
    else
      let s := (s.shadowToPend (rastRegs t g)).fset (Reg.RastStatus.pending t g) 1
      let x := s.rastSt t g
      let s := s.putRast t g { x with pendTag := x.commitTag }
      if !s.rastActive t g then s.rastTake t g
      else
        match x.latched with
        | some l => if x.commitTag < l.1 then s.latchTake t g l.2 l.1 else s
        | none => s

/-! ### Scan (R188 to R199) -/

/-- The signals of an active line: black, buffer, canvas or safety content (R161, R189, R191). A substituted line of a generator that scans
a canvas shows the heartwood safety content, but for its blocks in `bad` (R157). -/
def rastSignals (s : State) (t : Trunk) (g : Nat) (f : RastFrame) (j : Nat) (subst : Bool) (bad : List Nat) : List (Flt × Flt × Flt) :=
  let ha := s.aget (Reg.RastTimingH.hActive t g)
  let tr := s.aget (Reg.RastCtrl.transfer t g)
  let z : Flt := .fin false 0 0
  let half (p : Nat) : Flt × Flt × Flt :=
    (signalOf tr (p % 65536), signalOf tr (p / 65536 % 65536), signalOf tr (p / 2 ^ 32 % 65536))
  let black : List (Flt × Flt × Flt) := List.replicate ha (z, z, z)
  let r := s.rastRec t g
  let buf := s.aget (Reg.RastCtrl.scanBuffer t g) = 1 ∨ rasterCanvas r = 0xFF
  let row := j - f.vStart
  let x0 := s.aget (Reg.RastRegion.x t g)
  let y := s.aget (Reg.RastRegion.y t g) + row
  if subst then
    if buf then black
    else
      let c := s.ownCanvas (rasterCanvas r)
      let hw := canvasHw (s.canvasRec c)
      let gone := bad ++ ((s.trunk t).hwBlack.filter (fun b => b.1 == c && b.2.1 == 1)).map (·.2.2)
      (List.range ha).map fun i => if inHeartwood hw (x0 + i) y then half (heartwoodPix (s.hwContent t c 1) hw gone (x0 + i) y) else (z, z, z)
  else if f.black || s.aget (Reg.RastCtrl.blank t g) == 1 then black
  else if buf then
    let base := dramBase t + (s.actReg (Reg.rastFbBaseLo t g)).toNat + 2 ^ 32 * s.aget (Reg.RastFbBaseHi.value t g) +
      row * (s.actReg (Reg.rastFbPitch t g)).toNat
    (List.range ha).map fun i =>
      if s.aget (Reg.RastFbFormat.code t g) = 0x80 then
        let w := ofLe (s.memRead (base + 4 * i) 4)
        let e (k : Nat) : Flt := div32 (f32n (w / 2 ^ (10 * k) % 1024)) (f32n 1023)
        (e 0, e 1, e 2)
      else half (ofLe (s.memRead (base + 8 * i) 6))
  else
    match f.canvas.bind fun c => s.frameById t c.1 c.2 with
    | none => black
    | some fr => (List.range ha).map fun i => half (fr.pix.getD (y * fr.width + x0 + i) 0)

/-- What a generator reads of an active line, as the compare unit of sequence `q` (R301). -/
def scanLine (s : State) (t : Trunk) (g : Nat) (f : RastFrame) (j : Nat) (subst : Bool) (bad : List Nat) (q : Nat) : LineKept :=
  { code := 0x0A00 + g, seq := q, pixelFormat := s.aget (Reg.RastCtrl.pixelFormat t g), full := s.aget (Reg.RastCtrl.range t g) == 1,
    sdi := isSdi (s.rastRec t g), k := s.rastK t g, signals := s.rastSignals t g f j subst bad }

/-- R192: the codes of an active line as 16-bit little-endian words. -/
def lineCodes (l : LineKept) : List Byte :=
  (rastLine (rastFmt l.pixelFormat l.full l.sdi) l.k.1 l.k.2.1 l.k.2.2 l.signals).flatMap (leBytes 2)

/-- A unit joins what the trunk has handed over (R302). -/
def handOver (s : State) (t : Trunk) (u : CUnit) : State :=
  { s with twin.outbox := s.twin.outbox.set t.idx (s.twin.outbox.get [] t.idx ++ [u]) }

/-- R190: an axis has reached LOCKED since it was bound. -/
def everLocked (s : State) (n : Nat) : Bool := s.hasPos n || (s.axis n).locked1

/-- R189, R190, R197: the frame a generator reads next, and its state once that frame has begun: the next epoch's frame, after a change of
timing base no earlier than the last frame ends; before the axis has locked, a black frame on FREE. -/
def rastNext (s : State) (t : Trunk) (g : Nat) : Option (RastFrame × RastSt) :=
  let x := s.rastSt t g
  let c := s.aget (Reg.RastCtrl.cadence t g)
  let base := rasterLaunchBase (s.rastRec t g)
  let mk (e : RastEpoch) (black : Bool) : RastFrame := s.rastFrame t g e x.frames base (s.rastCanvas t g e.k) black
  let early (e : RastEpoch) : Bool :=
    x.afterEnd && (match x.lastEnd with | some l => decide (lineNs (mk e true) 0 < s.onBase base l.1 l.2) | none => false)
  let took (f : RastFrame) (y : RastSt) : RastFrame × RastSt :=
    (f, { y with cur := some f, line := 0, frames := x.frames + 1, sig := 0xFFFFFFFF, lastCanvas := f.canvas, latched := none,
                 lastEnd := some (f.base, (lineNs f f.vTotal).toNat) })
  match x.epochs.dropWhile early with
  | e :: rest => some (took (mk e x.modeChange) { x with epochs := rest, modeChange := false, afterEnd := false, freeAt := none })
  | [] =>
    if s.everLocked (s.sd.cadAxis c) then none
    else
      let soon := s.free / 65536 + 500000
      let ended := match x.lastEnd with | some l => (s.onBase 17 l.1 l.2).toNat | none => 0
      let o := x.freeAt.getD (if s.free / 65536 ≤ ended then ended else soon, 0)
      let tf := s.rastNominal c
      let e : RastEpoch := { k := o.2, launch := o.1 + o.2 * tf.1 / tf.2, tfN := tf.1, tfD := tf.2, tag := s.tag }
      let f := { s.rastFrame t g e x.frames 17 none true with off := 0 }
      some (took f { x with epochs := [], freeAt := some (o.1, o.2 + 1), modeChange := true, afterEnd := true })

/-- R190, R197: the next frame begins: whether it is timed on the axis, and whether it is the black one after a timing change. -/
def rastBegin (s : State) (t : Trunk) (g : Nat) (n : RastFrame × RastSt) : State :=
  let s := s.putRast t g n.2
  let timed := n.2.freeAt.isNone
  let s := s.fsetB (Reg.RastStatus.locked t g) timed
  if timed && n.1.black then s.flag (Reg.RastStatus.modeBlack t g) 0 else s

/-- The canvas frame the reading needs is complete (R189). -/
def rastReady (s : State) (t : Trunk) (f : RastFrame) : Bool :=
  match f.canvas with
  | none => true
  | some (c, id) => (s.frameById t c id).isSome

/-- R161 step 3, R165: the line is substituted: from *A* + 1 ms on, and after a release in the frames of epochs before it. -/
def rastSubst (s : State) (f : RastFrame) : Bool :=
  decide (s.safe.alarmAt + 1000000 * 65536 ≤ s.free) && (s.alarmOn || decide (f.tag < s.safe.releasedTag))

/-- R188: a scan position that events or the latch name. -/
def namedLine (f : RastFrame) (j : Nat) : Bool := j == f.lineMatch || j == f.vStart + f.vActive || j + 1 == f.vStart + f.vActive

/-- R188, R198, R199: the root marks a scan position once, in both trunks' input order under one tag: the trunks that read the output get
its events. -/
def rastMark (s : State) (t : Trunk) (g : Nat) (f : RastFrame) (j : Nat) : State :=
  let k := s.rastKey t g
  let o := s.rastOut k
  let before := match o.mark with | some m => decide (m.1 < f.n ∨ m.1 = f.n ∧ m.2 < j) | none => true
  if !namedLine f j || !before then s
  else
    let latch := j == f.vStart + f.vActive
    let s := s.nextTag
    let s := s.putRastOut k { o with mark := some (f.n, j), latches := if latch then Tab.set (o.latches.filter (fun l => decide (f.n < l.1 + 4))) f.n s.tag else o.latches }
    s.onRast t fun t s =>
      if !s.rastFull t g then s
      else
        let s := if j = f.lineMatch then s.rastEvent t g 1 else s
        let s := if latch then s.rastEvent t g 0 else s
        if j + 1 = f.vStart + f.vActive then s.rastEvent t g 2 else s

/-- R195: the latch point of frame `f`: the mark's tag decides which commits come before it. -/
def rastLatch (s : State) (t : Trunk) (g : Nat) (f : RastFrame) : State :=
  let tag := (s.rastOut (s.rastKey t g)).latches.get s.tag f.n
  let s := s.latchTake t g f tag
  s.putRast t g { s.rastSt t g with latched := some (tag, f) }

/-- R188 to R199: one line of the scan timeline. The compare unit carries the line's frame and line beside its sequence. -/
def rastScan (s : State) (t : Trunk) (g : Nat) (f : RastFrame) (bad : List Nat) : State :=
  let j := (s.rastSt t g).line
  let s := s.fset (Reg.RastStatus.fbPrevInUse t g) 0
  let active := decide (f.vStart ≤ j) && decide (j < f.vStart + f.vActive)
  let last := j + 1 == f.vStart + f.vActive
  let s :=
    if !active then s
    else
      let subst := s.rastSubst f
      let q := f.n * f.vTotal + j
      let l := s.scanLine t g f j subst bad q
      let codes := lineCodes l
      let s := s.fsetB (Reg.RastStatus.safety t g) subst
      let s := s.putTrunk t { s.trunk t with keptLines := (s.trunk t).keptLines ++ [l] }
      let s := s.handOver t { code := 0x0A00 + g, seq := q, out := { data := codes, seq := q, len := f.vTotal, burst := f.n, part := j } }
      let x := s.rastSt t g
      let x := { x with sig := crcRun crc32cAlg x.sig codes }
      s.putRast t g (if last then { x with done := (x.done ++ [(f, crcOut crc32cAlg x.sig)]).drop (x.done.length - 3), cur := some { f with canvas := none } } else x)
  let s := s.rastMark t g f j
  let s := if j == f.vStart + f.vActive then s.rastLatch t g f else s
  let x := s.rastSt t g
  if f.vTotal ≤ j + 1 then s.putRast t g { x with cur := none, line := 0 } else s.putRast t g { x with line := j + 1 }

/-- R188: a generator reads its next line, if that is due and its canvas frame is complete. A generator that stops reads no further line. -/
def rastRead (s : State) (t : Trunk) (g : Nat) (bad : List Nat) : State :=
  if !s.computes t || !s.rastActive t g then s
  else
    let go (s : State) (f : RastFrame) : State :=
      if s.readDue f (s.rastSt t g).line && s.rastReady t f then s.rastScan t g f bad else s
    match (s.rastSt t g).cur with
    | some f => go s f
    | none =>
      match s.rastNext t g with
      | some n => if s.readDue n.1 0 then go (s.rastBegin t g n) n.1 else s
      | none => s

/-! ### The pad side (R192, R193, R200 to R202) -/

/-- R192: a line enters the raster queue of 8 MiB; a line already sent as underrun is discarded. A line that finds no room does not enter
(DESIGN CHOICE). -/
def enqueueLine (s : State) (k n j : Nat) (data : List Byte) : State :=
  let o := s.rastOut k
  let held := o.queue.foldl (fun a q => a + q.2.length) 0
  if n < o.frame ∨ n = o.frame ∧ j < o.line ∨ 8388608 < held + data.length then s
  else s.putRastOut k { o with queue := o.queue.set (n * 65536 + j) data }

/-- R200: the freeze detector at the end of a frame. -/
def freezeCheck (s : State) (t : Trunk) (g : Nat) (pad src : Nat) : State :=
  let k := s.rastKey t g
  let o := s.rastOut k
  let n := rasterFreezeN (s.rastRec t g)
  let samePad := decide (o.same ≠ 0 ∧ o.padSig = pad)
  let same := if samePad then o.same + 1 else 1
  let moved := samePad && (o.srcMoved || o.srcSig != src)
  let s := s.putRastOut k { o with padSig := pad, srcSig := src, same := same, srcMoved := moved }
  let s := s.onRast t (fun t s => (s.setRegN (Reg.rastPadSig t g) pad).setRegN (Reg.rastSrcSig t g) src)
  if !samePad then s.onRast t (fun t s => s.fset (Reg.RastStatus.freeze t g) 0)
  else if moved && decide (n ≤ same) && !s.fbit (Reg.RastStatus.freeze t g) then
    let s := s.onRast t (fun t s => ((s.fset (Reg.RastStatus.freeze t g) 1).fset (Reg.RastStatus.freezeSeen t g) 1).bump (Reg.rastFreezeCnt t g))
    (s.statusEvent (Reg.RastStatus.freezeSeen t g) 0).attnFault
  else s

/-- The trunk whose generator the pad follows: the one named, or in TWIN and SIMPLEX the other where that one is out of service. -/
def padTrunk (s : State) (t : Trunk) : Trunk := if s.redundancy = 2 ∨ s.inService t then t else t.other

/-- R187, R193: the frame whose lines are next at the pad, with its source signature where it has been read: one read or begun, or the frame
of an epoch that no reading has begun. -/
def padFrame (s : State) (t : Trunk) (g : Nat) : Option (RastFrame × Option Nat) :=
  let x := s.rastSt t g
  let n := (s.rastOut (s.rastKey t g)).frame
  match x.done.find? (fun d => d.1.n == n) with
  | some d => some (d.1, some d.2)
  | none =>
    match x.cur with
    | some f => if f.n = n then some (f, none) else none
    | none => if n < x.frames ∨ !s.rastActive t g then none
        else (x.epochs[n - x.frames]?).map fun e => (s.rastFrame t g e n (rasterLaunchBase (s.rastRec t g)) none false, none)

/-- R191: the codes of a black line: of *E*′ = 0. -/
def blackCodes (r : List Byte) (f : RastFrame) : List Nat :=
  let fm := rastFmt f.pixelFormat f.full (isSdi r)
  let z : Flt := .fin false 0 0
  let l := rastCode fm false z
  let c := rastCode fm true z
  (List.range f.hActive).flatMap fun _ => if !fm.yuv then [l, l, l] else if fm.sub then [c, l] else [c, l, c]

/-- 16-bit little-endian words as numbers. -/
def words16 : List Byte → List Nat
  | a :: b :: l => (a.toNat + 256 * b.toNat) :: words16 l
  | _ => []

/-- R192, R201: an SDI line leaves: `codes` are those of an active line. -/
def sendSdi (s : State) (t : Trunk) (g : Nat) (f : RastFrame) (j : Nat) (active black : Bool) (codes : List Nat) : State :=
  let r := s.rastRec t g
  let k := s.rastKey t g
  let o := s.rastOut k
  let uhd := decide (rasterTransport r = 0)
  let blank (n : Nat) : List (List Nat) := [List.replicate n 0x200, List.replicate n 0x040]
  let act := if active then sdiActive uhd codes else if uhd then blank (f.hActive / 2) ++ blank (f.hActive / 2) else blank f.hActive
  let pair := if uhd then j % 2 else 0
  let wide := rasterCanvas r != 0xFF && canvasSpace (s.canvasRec (s.ownCanvas (rasterCanvas r))) == 1
  let id := sdiId (rasterTransport r) f.hActive f.vActive f.transfer f.full wide (s.cadRate (s.aget (Reg.RastCtrl.cadence t g)))
  let line := (if uhd then j / 2 else j) + 1
  let out := sdiLine (decide (rasterTransport r = 2)) line (if uhd then f.hTotal / 2 else f.hTotal) (!active) id (o.sdiPrev.get [] pair) act
  (s.putRastOut k { o with sdiPrev := o.sdiPrev.set pair act }).emit (.raster t g j black out)

/-- R202: the packets of an active line leave, spaced evenly over the active lines of the frame. -/
def sendIp (s : State) (t : Trunk) (g : Nat) (f : RastFrame) (j : Nat) (black : Bool) (codes : List Nat) : State :=
  let r := s.rastRec t g
  let m := rasterTiming r
  let k := s.rastKey t g
  let o := s.rastOut k
  let n := portIndex 1 (portNumber (s.portRec (u16 m 0x0E)))
  let per := packetsPer f.pixelFormat f.hActive
  let row := j - f.vStart
  let ps := rtpLine f.pixelFormat (u8 m 0x1A) (u32 m 0x1C) (f.launch * 9 / 100000 % 2 ^ 32) row (Config.unstated 202 0 + o.rtpSeq) (row + 1 == f.vActive) codes
  let at_ (i : Nat) : Nat := f.launch + (row * per + i) * f.tfN / (f.tfD * f.vTotal * max 1 per)
  let s := s.putRastOut k { o with rtpSeq := o.rtpSeq + ps.length }
  ps.zipIdx.foldl (fun s p =>
    s.emit (.st2110 n j black (at_ p.2) (s.udpFrame n false (u32 m 0x14) (Config.unstated 202 1 % 65536) (u16 m 0x18) (Config.unstated 202 2 % 64) p.1))) s

/-- R193: the next line of the output comes due at the pad. `tap` is what the tap of the pad signature reads of an active line, where
the transmitted stream is not what the root sent (R200). -/
def rastPad (s : State) (t : Trunk) (g : Nat) (tap : Option (List (BitVec 16))) : State :=
  let t := s.padTrunk t
  let k := s.rastKey t g
  let j := (s.rastOut k).line
  match if s.noTrunk then none else s.padFrame t g with
  | none => s
  | some (f, src) =>
    if !s.padDue f j then s
    else
      let r := s.rastRec t g
      let s := if j = f.off then s.onRast t (fun t s => s.setRegN (Reg.rastFrameCnt t g) (s.regN (Reg.rastFrameCnt t g) + 1)) else s
      let active := decide (f.vStart ≤ j ∧ j < f.vStart + f.vActive)
      let line := (s.rastOut k).queue.find? (f.n * 65536 + j)
      let black := active && line.isNone
      let codes := match line with | some d => words16 d | none => blackCodes r f
      let s := if black then s.nextTag.onRast t (fun t s => ((s.bump (Reg.rastUnderrunCnt t g)).fset (Reg.RastStatus.underrun t g) 1).rastEvent t g 3) else s
      let s := if isSdi r then s.sendSdi t g f j active black codes else if active then s.sendIp t g f j black codes else s
      let o := s.rastOut k
      let seen := match tap with | some l => l.map BitVec.toNat | none => codes
      let run := if active then crcRun crc32cAlg o.run (seen.flatMap (leBytes 2)) else o.run
      let fin := decide (f.vTotal ≤ j + 1)
      let s := s.putRastOut k { o with queue := o.queue.erase (f.n * 65536 + j), frame := if fin then o.frame + 1 else o.frame, line := if fin then 0 else j + 1,
                                       run := if fin then 0xFFFFFFFF else run }
      if fin then s.freezeCheck t g (crcOut crc32cAlg run) (src.getD o.srcSig) else s

/-- One epoch of a generator (R187): its launch time is computed and its frame joins those to be read. -/
def rastEpoch (s : State) (t : Trunk) (g k : Nat) : State :=
  if !s.rastActive t g then s
  else
    let x := s.rastSt t g
    s.putRast t g { x with epochs := x.epochs ++ (s.rastEpochOf t g k).toList }

end State

/-! ### Meanings -/

/-- RASTER_LINE_START (R193, R199 to R202). -/
def execRasterLineStart (t : Trunk) (g : Fin 8) (tap : Option (List (BitVec 16))) (s : State) : Host.Outcome State Fault Refusal :=
  act s fun s => s.rastPad t g tap

/-- RAST_COMMIT (R194). -/
def execRastCommit (t : Trunk) (g : Fin 8) (s : State) : Host.Outcome State Fault Refusal :=
  act s fun s => if s.mirrored t then s.rastCommitWrite t g else s

/-- RAST_COMMIT_CHECK_DONE (R186, R194, R195). -/
def execRastCommitCheckDone (t : Trunk) (g : Fin 8) (s : State) : Host.Outcome State Fault Refusal :=
  act s fun s => s.rastCommitDone t g

end Sys2Proof.Machine
end

