-- ==== Sys2Proof/Machine/Sched.lean ====
section
/-! DEFINITION. The task scheduler of a trunk (R346 to R354, R361). -/

namespace Sys2Proof.Machine

/-- R347: a task's ready condition. -/
def Task.holds (x : Task) : Bool :=
  if x.any then (x.flags &&& x.mask) != 0 else x.mask != 0 && (x.flags &&& x.mask) == x.mask

/-- R350: ready entries by the cycle in which they became READY, then by slot. -/
def insertReady (tasks : Tab Task) (at_ slot : Nat) : List Nat → List Nat
  | [] => [slot]
  | k :: r =>
    let t := (tasks.get {} k).readyAt
    if at_ < t ∨ at_ = t ∧ slot < k then slot :: k :: r else k :: insertReady tasks at_ slot r

namespace SchedSt

def task (x : SchedSt) (slot : Nat) : Task := x.tasks.get {} slot
/-- Tasks in service at a branch (0 to 63) or core (64 + c). -/
def at_ (x : SchedSt) (place : Nat) : List Task := (x.tasks.filter (fun k => k.2.state == 3 && k.2.place == place)).map (·.2)
def items (x : SchedSt) (place : Nat) : Nat := (x.at_ place).length
/-- R353: free segments of a branch's line store. -/
def freeSegs (x : SchedSt) (place : Nat) : Nat := 64 - (x.at_ place).foldl (fun a t => a + t.segs) 0
def inService (x : SchedSt) : Nat := (x.tasks.filter (fun k => k.2.state == 3)).length
/-- What the scheduler has done in the cycle `free`. -/
def now (x : SchedSt) (free : Nat) : SchedCyc := if x.cyc.at_ = free then x.cyc else { at_ := free }
/-- R351: a flow has a task in service, or its task has completed in this cycle. -/
def flowBusy (x : SchedSt) (free : Nat) (f : Option Nat) : Bool :=
  match f with
  | none => false
  | some n => x.tasks.any (fun k => k.2.state == 3 && k.2.flow == f) || (x.now free).done.contains n

/-- R354: a branch or core begins or ends having an item in service. -/
def busyOn (x : SchedSt) (place now : Nat) : SchedSt :=
  match x.busySince.find? place with
  | some _ => x
  | none => { x with busySince := x.busySince.set place now }
def busyOff (x : SchedSt) (place now : Nat) : SchedSt :=
  match x.busySince.find? place with
  | some t => { x with busySince := x.busySince.erase place, busy := x.busy.set place (x.busy.get 0 place + (now - t)) }
  | none => x

/-- R350, R352: the place a task goes to in this cycle; `used` places have no free dispatch port left (one port each,
DESIGN CHOICE). -/
def placeFor (x : SchedSt) (spare : Nat) (used : List Nat) (t : Task) : Option Nat :=
  if 2 ≤ t.target then
    let p := 64 + (t.target - 2)
    if used.contains p || decide (4 ≤ x.items p) then none else some p
  else
    let fits (b : Nat) : Bool := (if t.target = 1 then b / 8 == spare else b / 8 != spare) && !used.contains b &&
      decide (x.items b < 8) && decide (t.segs ≤ x.freeSegs b)
    (List.range 64).foldl (fun best b => if !fits b then best else
      match best with
      | none => some b
      | some c => if x.items b < x.items c then some b else best) none

/-- R348: the flags that posts of this cycle have set in a slot. -/
def landed (x : SchedSt) (free slot : Nat) : BitVec 64 :=
  (x.now free).landed.foldl (fun v p => if p.1 = slot then v ||| BitVec.ofNat 64 (2 ^ p.2) else v) 0

/-- R348: the task of a slot goes into service; a post of this cycle stands. -/
def start (x : SchedSt) (slot place now : Nat) : SchedSt :=
  let t := x.task slot
  let c := x.now now
  let v := x.landed now slot
  let x := x.busyOn place now
  { x with tasks := x.tasks.set slot { t with state := 3, flags := (t.flags &&& ~~~t.mask) ||| v, aged := false, place := place },
           ready := x.ready.filter (· != slot), cyc := { c with used := place :: c.used } }

/-- R348, R350, R353: scans the ready queue from the oldest; answers the waits of the tasks dispatched. A task that became READY in this
cycle is dispatched in a later one (DEDUCED: its flags would outlast the dispatch). -/
def scan (spare now : Nat) : List Nat → SchedSt → Bool → List Nat → SchedSt × List Nat
  | [], x, _, out => (x, out)
  | slot :: r, x, blocked, out =>
    let used := (x.now now).used
    if 16 ≤ used.length ∨ 256 ≤ x.inService then (x, out)
    else
      let t := x.task slot
      let go := if blocked && decide (t.segs ≠ 0) || x.flowBusy now t.flow || t.readyAt == now then none else x.placeFor spare used t
      match go with
      | some p => scan spare now r (x.start slot p now) blocked (out ++ [(now - t.readyAt) / 163840])
      | none => scan spare now r x (blocked || t.aged) out

end SchedSt

/-- R354: the histogram bin of a wait in cycles. -/
def waitBin (n : Nat) : Nat := if n < 16 then 0 else min 15 (Nat.log2 n - 3)

namespace State

def sched (s : State) (t : Trunk) : SchedSt := s.scheds.get {} t.idx

/-- R9: the spare bough of a trunk. -/
def spareBough (s : State) (t : Trunk) : Nat :=
  match t with
  | .a => s.fget Reg.TreeMode.spareBoughA
  | .b => s.fget Reg.TreeMode.spareBoughB

/-- The scheduler's state changes; its registers follow (R361). -/
def putSched (s : State) (t : Trunk) (x : SchedSt) : State :=
  let s := { s with scheds := s.scheds.set t.idx x }
  let s := (s.fset (Reg.SchedStatus.readyDepth t) x.ready.length).fset (Reg.SchedStatus.inService t) x.inService
  let s := s.fmax (Reg.SchedReadyMax.depth t) x.ready.length
  let flows := ((x.tasks.filterMap (fun k => if k.2.state == 3 then k.2.flow else none)).eraseDups).length
  (s.fset (Reg.SchedSlots.flowsBusy t) flows).fset (Reg.SchedSlots.slotsUsed t) (x.tasks.filter (fun k => k.2.state != 0)).length

/-- R347 to R349: a post to a slot, `flag` 64 for a task that waits for an entry with its flags set. `again` is a post
already held. -/
def post (s : State) (t : Trunk) (slot flag : Nat) (again : Bool) : State :=
  let x := s.sched t
  let k := x.task slot
  let k1 := if flag < 64 then { k with flags := k.flags ||| BitVec.ofNat 64 (2 ^ flag) } else k
  let c := x.now s.free
  let c := if flag < 64 then { c with landed := (slot, flag) :: c.landed } else c
  if k.state = 0 then s
  else if k.state = 1 ∧ k1.holds then
    if x.ready.length < 1024 then
      let k1 := { k1 with state := 2, readyAt := s.free }
      let tasks := x.tasks.set slot k1
      s.putSched t { x with tasks := tasks, ready := insertReady tasks s.free slot x.ready, cyc := c }
    else
      let s := s.putSched t { x with held := x.held ++ [(slot, flag)] }
      if again || flag = 64 then s else (s.bump (Reg.schedBpCnt t)).fset (Reg.SchedStatus.backpressure t) 1
  else s.putSched t { x with tasks := x.tasks.set slot k1, cyc := c }

/-- R349: held posts complete as entries free. -/
def unhold (s : State) (t : Trunk) : State :=
  let held := (s.sched t).held
  held.foldl (fun s h => s.post t h.1 h.2 true) (s.putSched t { s.sched t with held := [] })

/-- R350: one cycle of dispatch. -/
def dispatch (s : State) (t : Trunk) : State :=
  let x := s.sched t
  let r := SchedSt.scan (s.spareBough t) s.free x.ready x false []
  let s := s.putSched t r.1
  let s := r.2.foldl (fun s w => (s.bump (Reg.schedDispatchCnt t)).bump (Reg.schedWaitHist t (waitBin w))) s
  if r.2.isEmpty then s else s.unhold t

/-- R348: a task in service completes: its slot frees, or it is evaluated again. -/
def complete (s : State) (t : Trunk) (slot : Nat) (free : Bool) : State :=
  let x := s.sched t
  let k := x.task slot
  let tasks := if free then x.tasks.erase slot else x.tasks.set slot { k with state := 1 }
  let c := x.now s.free
  let x := { x with tasks := tasks, cyc := { c with done := k.flow.toList ++ c.done } }
  let x := if x.items k.place = 0 then x.busyOff k.place s.free else x
  let s := s.putSched t x
  if free || !k.holds then s else s.post t slot 64 false

/-- R353: a BRANCH task that has waited 65,536 cycles is aged. -/
def age (s : State) (t : Trunk) (slot : Nat) : State :=
  let x := s.sched t
  let k := x.task slot
  if k.state = 2 ∧ k.target = 0 ∧ !k.aged ∧ k.readyAt + 65536 * 163840 ≤ s.free then
    ((s.putSched t { x with tasks := x.tasks.set slot { k with aged := true } }).bump (Reg.schedAgedCnt t)).fset (Reg.SchedStatus.aged t) 1
  else s

/-- R354: loads of branches and cores over the tree epoch that ends. -/
def schedEpoch (s : State) (t : Trunk) : State :=
  let x := s.sched t
  let len := s.free - x.epochAt
  let load (p : Nat) : Nat :=
    let b := x.busy.get 0 p + (match x.busySince.find? p with | some a => s.free - max a x.epochAt | none => 0)
    if len = 0 then 0 else min 1024 (b * 1024 / len)
  let s := (List.range 64).foldl (fun s p => s.fset (Reg.SchedBranchLoad.load t p) (load p)) s
  let s := (List.range 8).foldl (fun s c => s.fset (Reg.SchedCoreLoad.load t c) (load (64 + c))) s
  s.putSched t { x with busy := [], epochAt := s.free, busySince := x.busySince.map (fun k => (k.1, s.free)) }

/-- R346: vendor firmware fills the task slots at seed activation; the tasks it defines are open. -/
def firmwareTask (slot : Nat) : Task :=
  let v (k m : Nat) : Nat := Config.unstated 346 (slot * 8 + k) % m
  if v 0 2 = 0 then {}
  else { state := 1, mask := BitVec.ofNat 64 (v 1 (2 ^ 64)), any := v 2 2 == 1, target := v 3 8,
         flow := if v 4 1025 = 1024 then none else some (v 4 1025), segs := v 5 65 }

/-- The task slots that are not FREE when a seed starts. -/
def firmwareTasks : Tab Task := ((List.range 4096).map (fun k => (k, firmwareTask k))).filter (fun k => k.2.state != 0)

end State

/-- TASK_POST (R347 to R349). -/
def execTaskPost (t : Trunk) (slot : Fin 4096) (flag : Fin 64) (s : State) : Host.Outcome State Fault Refusal :=
  act s fun s => s.post t slot flag false

/-- TASK_DISPATCH (R350 to R353). -/
def execTaskDispatch (t : Trunk) (s : State) : Host.Outcome State Fault Refusal := act s fun s => s.dispatch t

/-- TASK_AGED (R353). -/
def execTaskAged (t : Trunk) (slot : Fin 4096) (s : State) : Host.Outcome State Fault Refusal := act s fun s => s.age t slot

end Sys2Proof.Machine
end

