-- ==== Sys2Proof/Machine/Guest.lean ====
section
/-! DEFINITION. Guest cores 6 and 7 of a trunk (R328 to R337, R345). The instructions they run are no commands of the
block: what a core does between two batches is named by the GUEST_ commands. -/

namespace Sys2Proof.Machine

/-- The GUEST record of core `6 + c` of this tree; none where it has none (R78). -/
def guestRec? (s : State) (c : Nat) : Option (List Byte) :=
  (inRange s.sd.guests (s.sd.guestRange s.grovePos)).find? (fun r => u8 r 0 == 6 + c)

/-- The partition of core `6 + c`: its offset in the trunk's DRAM, which no rule gives, and its size. -/
def guestPart (s : State) (c : Nat) : Nat × Nat :=
  match guestRec? s c with
  | some r => (Config.unstated 329 (6 + c) % 2 ^ 35 / 65536 * 65536, u32 r 0x18)
  | none => (0, 0)

/-- R331: the registers a guest core may write, by offset in its own trunk's range. -/
def guestMayWrite (c off : Nat) : Bool :=
  let a := trunkBase .a + off
  a % 4 == 0 &&
    (a == Reg.trkMasterInt .a || (Reg.trkPint .a 0 ≤ a && a < Reg.trkPint .a 524288) || a == Reg.crownCommit .a ||
      (List.range 32).any (fun n => a == Reg.crownLayerReady .a n || (layerRegs .a n).contains a) ||
      (List.range 8).any (fun g => a == Reg.rastCommit .a g || a == Reg.rastLineMatch .a g || (rastRegs .a g).contains a) ||
      a == Reg.trkGuestSendAddr .a c || a == Reg.trkGuestSendCtrl .a c)

/-- R330: an access of core `6 + c` is permitted; `part` is the size of its partition. -/
def guestMayAccess (part c addr : Nat) (write : Bool) : Bool :=
  addr < 0x80000 || (0x10000000 ≤ addr && addr < 0x10001000) || (0x10002000 ≤ addr && addr < 0x10002008) ||
    (!write && ((0x10003000 ≤ addr && addr < 0x10003120) || (0x10003200 ≤ addr && addr < 0x10003208))) ||
    (0x20000000 ≤ addr && addr < 0x21000000 && (!write || guestMayWrite c (addr - 0x20000000))) ||
    (0x40000000 ≤ addr && addr < 0x40000000 + part)

namespace State

def guest (s : State) (t : Trunk) (c : Nat) : GuestSt := s.guests.get {} (t.idx * 2 + c)
def putGuest (s : State) (t : Trunk) (c : Nat) (g : GuestSt) : State := { s with guests := s.guests.set (t.idx * 2 + c) g }
/-- R345: 0 NONE, 1 RUN, 2 WAIT, 3 HALTED, 4 OVERRUN. -/
def guestState (s : State) (t : Trunk) (c : Nat) : Nat := s.fget (Reg.TrkGuestStatus.state t c)

/-- The core enters a state; its busy time and `wfi` follow (R344, R354). -/
def setGuestState (s : State) (t : Trunk) (c v : Nat) : State :=
  let s := (s.fset (Reg.TrkGuestStatus.state t c) v).fsetB (Reg.IcuCoreStatus.wfi t (6 + c)) (v == 2)
  let x := s.sched t
  s.putSched t (if v = 1 then x.busyOn (70 + c) s.free else x.busyOff (70 + c) s.free)

/-- R334: the core executes WFI. -/
def guestWfi (s : State) (t : Trunk) (c : Nat) : State := if s.guestState t c = 1 then s.setGuestState t c 2 else s

/-- RISC-V machine-mode entry of an exception: `mepc`, `mcause`, `mtval`, `mstatus`, and the pc from `mtvec` (PRESUMED). -/
def guestTrap (g : GuestSt) (cause tval : Nat) : GuestSt :=
  let ms := (g.csr.get 0 0x300).toNat
  let ms := setBits (setBits (setBits ms 7 1 (getBits ms 3 1)) 3 1 0) 11 2 3
  let csr := (((g.csr.set 0x341 (BitVec.ofNat 32 g.pc)).set 0x342 (BitVec.ofNat 32 cause)).set 0x343 (BitVec.ofNat 32 tval)).set 0x300 (BitVec.ofNat 32 ms)
  { g with csr := csr, pc := (g.csr.get 0 0x305).toNat / 4 * 4, reserved := none }

/-- R329, R331: an access that R330 does not permit. -/
def guestFault (s : State) (t : Trunk) (c addr : Nat) (write : Bool) : State :=
  if s.guestState t c ≠ 1 ∨ guestMayAccess (guestPart s c).2 c addr write then s
  else (s.putGuest t c (guestTrap (s.guest t c) (if write then 7 else 5) addr)).fset (Reg.TrkGuestStatus.accessFault t c) 1

/-- R331: a posted register write. -/
def guestPost (s : State) (t : Trunk) (c off : Nat) (v : Word) : State :=
  if s.guestState t c ≠ 1 then s
  else if guestMayWrite c off then
    let g := s.guest t c
    s.putGuest t c { g with posted := g.posted ++ [(off, v)] }
  else s.guestFault t c (0x20000000 + off) true

/-- R335: `G` reaches `GCMP`, to which the core's program has set the compare value; of a vendor core, its own timer. -/
def gcmpReach (s : State) (t : Trunk) (core : Nat) (gcmp : BitVec 64) : State :=
  let fire (s : State) : State :=
    let i := core * 64 + 1
    let s := s.fset ⟨Reg.icuLevel t (i / 32), i % 32, 1⟩ 1
    let s := if s.serving t i then s else s.setPend t i true
    if core < 6 then s else s.atOnce t i
  if core < 6 then fire s
  else
    let c := core - 6
    if s.guestState t c ≠ 1 then s
    else
      let g : GuestSt := { s.guest t c with gcmp := gcmp.toNat }
      if g.gcmp ≤ g.epoch * 2 ^ 24 + (2 ^ 24 - 1) then fire (s.putGuest t c { g with inBatch := max g.inBatch (g.gcmp - g.epoch * 2 ^ 24) })
      else s.putGuest t c g

/-- R332: the guest count. -/
def guestCount (g : GuestSt) : Nat := g.epoch * 2 ^ 24 + min g.inBatch (2 ^ 24 - 1)

/-- R329: what CSR `n` of core `6 + c` reads: `mhartid`, the counters, and every other as it was written. -/
def guestCsr (g : GuestSt) (c n : Nat) : Word :=
  if n = 0xF14 then BitVec.ofNat 32 (6 + c)
  else if n = 0xC00 ∨ n = 0xC01 ∨ n = 0xB00 then BitVec.ofNat 32 (guestCount g)
  else if n = 0xC80 ∨ n = 0xC81 ∨ n = 0xB80 then BitVec.ofNat 32 (guestCount g / 2 ^ 32)
  else if n = 0xC02 ∨ n = 0xB02 then BitVec.ofNat 32 g.retired
  else if n = 0xC82 ∨ n = 0xB82 then BitVec.ofNat 32 (g.retired / 2 ^ 32)
  else g.csr.get 0 n

/-- R339, R344: what a word of the ICU window of core `6 + c` reads; `ICU_CLAIM` claims and is no plain read. -/
def guestIcuWord (s : State) (t : Trunk) (c off : Nat) : Word :=
  let a := trunkBase t + 0x80000 + off
  let w := off % 0x80 / 4
  if off < 0x280 then s.reg a &&& s.reach t (if c = 0 then some 6 else some 7) w
  else if off < 0x340 then s.reg a
  else if 0x400 ≤ off ∧ off < 0x500 then (if (off - 0x400) / 0x20 = 6 + c then s.reg a else 0)
  else if 0x800 ≤ off ∧ off < 0x1000 then (if s.srcCore t (512 + (off - 0x800) / 4) = 6 + c then s.reg a else 0)
  else 0

/-- R330: the words of an axis in the batch's capture: the position, and the state code. -/
def guestAxisWord (s : State) (n k : Nat) : Word :=
  if k = 3 then BitVec.ofNat 32 (s.capture.state.getD n 0) else BitVec.ofNat 32 (posForm n (s.capture.pos.getD n 0) / 2 ^ (32 * k))

/-- R330, R331, R354: the word that a load of core `6 + c` reads at an aligned address; none where it faults. A load has no effect (R331), but of
`ICU_CLAIM`, which is a command. -/
def guestWord (s : State) (t : Trunk) (c addr : Nat) : Option Word :=
  let g := s.guest t c
  if !guestMayAccess (guestPart s c).2 c addr false then none
  else if addr < 0x80000 then some (BitVec.ofNat 32 (ofLe ((List.range 4).map fun k => memGet g.tcm (addr + k))))
  else if addr < 0x10001000 then some (s.guestIcuWord t c (addr - 0x10000000))
  else if addr < 0x10002008 then some (BitVec.ofNat 32 (g.gcmp / 2 ^ (8 * (addr - 0x10002000))))
  else if addr < 0x10003120 then some (s.guestAxisWord ((addr - 0x10003000) / 16) ((addr - 0x10003000) / 4 % 4))
  else if addr < 0x20000000 then some (BitVec.ofNat 32 (g.epoch / 2 ^ (8 * (addr - 0x10003200))))
  else if 0x200A0000 ≤ addr ∧ addr < 0x200C0000 then some 0
  else if addr < 0x21000000 then some ((g.seen.find? (addr - 0x20000000)).getD (resetWord (trunkBase t + (addr - 0x20000000))))
  else some (BitVec.ofNat 32 (ofLe (s.memRead (dramBase t + (guestPart s c).1 + (addr - 0x40000000)) 4)))

/-- R345: an action of `TRK_GUEST_c_CTRL` waits for the next tree epoch; a core without a GUEST record ignores it. -/
def guestAct (s : State) (t : Trunk) (c : Nat) (f : GuestSt → GuestSt) : State :=
  if (guestRec? s c).isSome then s.putGuest t c (f (s.guest t c)) else s

/-- R338, R345: the host doorbell. -/
def guestBell (s : State) (t : Trunk) (c : Nat) : State :=
  if (guestRec? s c).isSome then s.pendSource t (960 + c) else s

/-- R337: the writes of a send request. -/
def guestSend (s : State) (t : Trunk) (c addr len port : Nat) : State :=
  let s := s.guestPost t c (Reg.trkGuestSendAddr t c - trunkBase t) (BitVec.ofNat 32 addr)
  s.guestPost t c (Reg.trkGuestSendCtrl t c - trunkBase t) (BitVec.ofNat 32 (2 ^ 31 + len % 2 ^ 14 * 2 ^ 16 + port % 64))

/-- R336: a core is loaded from the seed and starts at `entry`. -/
def guestLoad (s : State) (t : Trunk) (c : Nat) : State :=
  match guestRec? s c with
  | none => s
  | some r =>
    let p := guestPart s c
    let base := dramBase t + p.1
    let img := dataRef s.sd.guestData r 0x10
    let s := (s.memClear base p.2).memWrite base img
    s.putGuest t c { pc := u32 r 4, tcm := memPuts [] 0 (dataRef s.sd.guestData r 8) }

/-- R337: why a send request is discarded. -/
def sendBad (s : State) (t : Trunk) (c addr len port : Nat) : Bool :=
  48 ≤ port ||
    (match ethRec? s port with
     | none => true
     | some rec => s.redundancy == 2 && portTrunk (s.portRec rec) != t.idx || len < 60 || decide (portMaxFrame (s.portRec rec) - 4 < len)) ||
    decide ((guestPart s c).2 < addr + len)

/-- The count of units a trunk has handed over for a port code, taken for the next (R302). -/
def unitSeq (s : State) (t : Trunk) (code : Nat) : Nat × State :=
  let k := (t.idx + 1) * 0x1000000 + code
  let n := s.twin.handed.get 0 k
  (n, { s with twin.handed := s.twin.handed.set k (n + 1) })

/-- R302, R337: the frame of a send request is handed over as one compare unit. -/
def guestFrame (s : State) (t : Trunk) (c : Nat) : State :=
  let g := s.guest t c
  if !g.send then s
  else
    let s := s.putGuest t c { g with send := false }
    let addr := s.fget (Reg.TrkGuestSendAddr.addr t c) * 8
    let len := s.fget (Reg.TrkGuestSendCtrl.length t c)
    let port := s.fget (Reg.TrkGuestSendCtrl.port t c)
    if s.sendBad t c addr len port then s.fset (Reg.TrkGuestStatus.sendErr t c) 1
    else
      let kn := portKindNum port
      let code := kn.1 * 256 + kn.2
      let q := s.unitSeq t code
      q.2.handOver t { code := code, seq := q.1, timed := false, out := { portRec := (ethRec? s port).getD 0, seq := q.1, data := s.memRead (dramBase t + (guestPart s c).1 + addr) len } }

end State

/-- GUEST_WFI (R334). -/
def execGuestWfi (t : Trunk) (core : Fin 2) (s : State) : Host.Outcome State Fault Refusal := act s fun s => s.guestWfi t core

/-- GUEST_ACCESS_FAULT (R329, R330). -/
def execGuestAccessFault (t : Trunk) (core : Fin 2) (addr : Nat) (write : Bool) (s : State) : Host.Outcome State Fault Refusal :=
  act s fun s => s.guestFault t core addr write

/-- GUEST_REGISTER_WRITE (R331). -/
def execGuestRegisterWrite (t : Trunk) (core : Fin 2) (off : Nat) (value : Word) (s : State) : Host.Outcome State Fault Refusal :=
  act s fun s => s.guestPost t core off value

/-- GCMP_INTERRUPT (R335). -/
def execGcmpInterrupt (t : Trunk) (g : GcmpTimer) (s : State) : Host.Outcome State Fault Refusal :=
  act s fun s => s.gcmpReach t g.core g.gcmp

/-- GUEST_HALT (R345). -/
def execGuestHalt (t : Trunk) (core : Fin 2) (s : State) : Host.Outcome State Fault Refusal :=
  act s fun s => s.guestAct t core (fun g => { g with haltReq := true })

/-- GUEST_RESUME (R345). -/
def execGuestResume (t : Trunk) (core : Fin 2) (s : State) : Host.Outcome State Fault Refusal :=
  act s fun s => s.guestAct t core (fun g => { g with resumeReq := true })

/-- GUEST_RESTART (R345). -/
def execGuestRestart (t : Trunk) (core : Fin 2) (s : State) : Host.Outcome State Fault Refusal :=
  act s fun s => s.guestAct t core (fun g => { g with restartReq := true })

/-- GUEST_DOORBELL (R345). -/
def execGuestDoorbell (t : Trunk) (core : Fin 2) (s : State) : Host.Outcome State Fault Refusal := act s fun s => s.guestBell t core

/-- GUEST_SEND_GO (R331, R337). -/
def execGuestSendGo (t : Trunk) (core : Fin 2) (addr length port : Nat) (s : State) : Host.Outcome State Fault Refusal :=
  act s fun s => s.guestSend t core addr length port

end Sys2Proof.Machine
end

