-- ==== Sys2Proof/Machine/E131.lean ====
section
/-! DEFINITION. E1.31 streaming ACN: packets and sequences of source groups, and the sources of received universes
(R239 to R241). -/

namespace Sys2Proof.Machine

/-! ### Groups (R239) -/

def e131Cid (r : List Byte) : List Byte := (portParams r).take 16
def e131Priority (r : List Byte) : Nat := orDefault (u8 (portParams r) 0x10) 0xFF 100
def e131Flags (r : List Byte) : Nat := u8 (portParams r) 0x11
def e131IsRx (r : List Byte) : Bool := e131Flags r % 2 == 1
def e131Sync (r : List Byte) : Bool := e131Flags r / 4 % 2 == 1
def e131EthPort (r : List Byte) : Nat := u16 (portParams r) 0x12
def e131SyncUniv (r : List Byte) : Nat := u16 (portParams r) 0x14

/-- The root layer of a packet of `n` bytes (ANSI E1.17, E1.31 clause 5). -/
def acnRoot (n vector : Nat) (cid : List Byte) : List Byte :=
  beBytes 2 0x10 ++ beBytes 2 0 ++ [0x41, 0x53, 0x43, 0x2D, 0x45, 0x31, 0x2E, 0x31, 0x37, 0, 0, 0] ++
    beBytes 2 (0x7000 + (n - 16)) ++ beBytes 4 vector ++ cid

/-- R240: the PROFILE label padded with zeros to the 64-byte source name. -/
def e131Name (label : List Byte) : List Byte := (label ++ List.replicate 64 0).take 64

/-- R240: a data packet with start code 0x00 and 512 slots; the root sets its sequence number. -/
def e131Data (cid label : List Byte) (priority sync univ : Nat) (slots : List Byte) : List Byte :=
  acnRoot 638 4 cid ++ beBytes 2 (0x7000 + 600) ++ beBytes 4 2 ++ e131Name label ++ beBytes 1 priority ++
    beBytes 2 sync ++ beBytes 1 0 ++ beBytes 1 0 ++ beBytes 2 univ ++
    beBytes 2 (0x7000 + 523) ++ [0x02, 0xA1] ++ beBytes 2 0 ++ beBytes 2 1 ++ beBytes 2 513 ++ [0x00] ++ slots

/-- R240: the synchronisation packet that ends a burst. -/
def e131SyncPacket (cid : List Byte) (sync : Nat) : List Byte :=
  acnRoot 49 8 cid ++ beBytes 2 (0x7000 + 11) ++ beBytes 4 1 ++ beBytes 1 0 ++ beBytes 2 sync ++ beBytes 2 0

/-- The sequence's offset and the key of the sequence a packet counts in: its universe, or 65,536 plus its
synchronisation universe. -/
def e131Key (p : List Byte) : Nat × Nat :=
  if p.length = 49 then (44, 65536 + ofBe (slice p 45 2)) else (111, ofBe (slice p 113 2))

/-- A packet with its sequence number set. -/
def e131WithSeq (p : List Byte) (seq : Nat) : List Byte := p.set (e131Key p).1 (BitVec.ofNat 8 seq)

/-- A data packet with Stream_Terminated set (options bit 6). -/
def e131Terminated (p : List Byte) : List Byte := p.set 112 (0x40 : Byte)

namespace State

/-- R240: a packet of group record `rec` leaves: it takes its universe's next sequence number. -/
def e131Stamp (s : State) (rec : Nat) (p : List Byte) : List Byte × State :=
  let k := (e131Key p).2
  let t := s.e131tx.get ({} : E131Tx) k
  let p := e131WithSeq p t.seq
  (p, { s with e131tx := s.e131tx.set k { group := rec, seq := (t.seq + 1) % 256, packet := p, lastAt := s.free } })

/-- The Ethernet port of a group record. -/
def e131Port (s : State) (rec : Nat) : Nat :=
  let r := s.portRec (e131EthPort (s.portRec rec))
  portIndex (portKind r) (portNumber r)

/-- R240: the standard multicast address of a universe. -/
def e131Group (v6 : Bool) (univ : Nat) : Nat := if v6 then 0xFF18 * 2 ^ 112 + 0x830000 * 256 + univ else 0xEFFF0000 + univ

/-- R240: a packet of a group as a frame, to the multicast address of its universe at the ACN port 5568 (PRESUMED); its service class is
stated nowhere. -/
def e131Frame (s : State) (rec : Nat) (p : List Byte) : List Byte :=
  let v6 := e131Flags (s.portRec rec) / 2 % 2 == 1
  s.udpFrame (s.e131Port rec) v6 (e131Group v6 ((e131Key p).2 % 65536)) 5568 5568 (Config.unstated 240 rec % 64) p

/-- R241: some receiver group of the seed joins the universe. -/
def e131Joined (s : State) (univ : Nat) : Bool :=
  s.portIdxs.any fun i =>
    let r := s.portRec i
    let kp := portParams r
    portKind r == 9 && e131IsRx r && decide (u16 kp 0 ≤ univ) && decide (univ < u16 kp 0 + u16 kp 2)

/-- R241: the source a universe takes: the highest priority, then the lowest CID. -/
def e131Select (l : List E131Src) : Option E131Src :=
  l.foldl (fun b x =>
    match b with
    | none => some x
    | some y => if y.priority < x.priority ∨ x.priority = y.priority ∧ x.cid < y.cid then some x else b) none

/-- R241: a synchronised source: its synchronisation packets come; it is taken at once before the first, and 2.5 s after the last
(E1.31 clause 11, PRESUMED). -/
def e131Synced (s : State) (x : E131Src) : Bool := x.sync != 0 && x.syncAt.any (fun t => decide (s.free ≤ t + 5 * second / 2))

/-- R238, R241: a packet of a received universe: data, or the synchronisation packet of a universe, at which what its source holds back
is taken. -/
def e131Rx (s : State) (univ cid priority sync : Nat) (slots : Option (List Byte)) (checks : Bool) : State :=
  if !checks then s.bump Reg.rootE131RxErr
  else
    match slots with
    | none =>
      let take (x : E131Src) : E131Src :=
        if x.cid = cid ∧ x.sync = univ then { x with slots := x.held.getD x.slots, held := none, syncAt := some s.free } else x
      { s with e131rx := s.e131rx.map fun (k : Nat × List E131Src) => (k.1, k.2.map take) }
    | some l =>
      if !s.e131Joined univ then s
      else
        let q := s.e131rx.get [] univ
        let x : E131Src := (q.find? (·.cid == cid)).getD { cid := cid, priority := priority, slots := l, lastAt := s.free }
        let x := { x with priority := priority, lastAt := s.free, sync := sync, syncAt := if x.sync = sync then x.syncAt else none }
        let x := if s.e131Synced x then { x with held := some l } else { x with slots := l, held := none }
        { s with e131rx := s.e131rx.set univ (x :: q.filter (fun y => y.cid != cid)) }

/-- R241, R246: a source is lost after 2.5 s without packets. -/
def e131Lost (s : State) (univ cid : Nat) : State :=
  let l := s.e131rx.get [] univ
  match l.find? (fun x => x.cid == cid) with
  | some x =>
    if x.lastAt + 5 * second / 2 ≤ s.free then
      { s with e131rx := s.e131rx.set univ (l.filter (fun y => y.cid != cid)) }.bump Reg.rootE131SrcLost
    else s
  | none => s

/-- R241: at a tree epoch the selected data of every received universe enters the capture. -/
def e131Capture (s : State) : State :=
  { s with capE131 := s.e131rx.foldl (fun c e =>
      match e131Select e.2 with
      | some x => c.set e.1 x.slots
      | none => c) s.capE131 }

end State

/-! ### Meanings -/

/-- E131_PACKET_RECEIVE (R238, R241). -/
def execE131PacketReceive (univ cid : Nat) (h : E131Framing) (slots : Option (List Byte)) (checks : Bool) (s : State) :
    Host.Outcome State Fault Refusal :=
  act s fun s => s.e131Rx univ cid h.priority h.sync slots checks

/-- E131_SOURCE_LOST (R241). -/
def execE131SourceLost (univ cid : Nat) (s : State) : Host.Outcome State Fault Refusal :=
  act s fun s => s.e131Lost univ cid

end Sys2Proof.Machine
end

