-- ==== Sys2Proof/Machine/Qb.lean ====
section
/-! DEFINITION. Queue blocks (R355 to R362): entry by entry, for the root's and the trunks' blocks. -/

namespace Sys2Proof.Machine

/-- The key of a queue block, and its number `q` of R362. -/
def qbKey : QbId → Nat
  | .egress n => n
  | .ring n => 64 + n
  | .trunk t b k => 1000 * (t.idx + 1) + b * 8 + k

/-- R362: the register base of a queue block. -/
def qbBase (k : Nat) : Nat :=
  if k < 1000 then 0x90000 + k * 0x40
  else if k < 2000 then Reg.qbTCfg .a (k - 1000)
  else Reg.qbTCfg .b (k - 2000)

def qbGeomDepth (k : Nat) : Field := ⟨qbBase k + 4, 0, 24⟩
def qbGeomWide (k : Nat) : Field := ⟨qbBase k + 4, 31, 1⟩
def qbGeomBits (k : Nat) : Field := ⟨qbBase k + 4, 24, 5⟩
def qbStaleUs (k : Nat) : Field := ⟨qbBase k, 16, 16⟩
def qbThreshold (k : Nat) : Field := ⟨qbBase k, 0, 14⟩
def qbStatusBit (k i : Nat) : Field := ⟨qbBase k + 0x18, i, 1⟩

/-- R355: a pointer of `a` index bits steps through `d` entries; the wrap bit inverts after the last. -/
def ptrNext (d a p : Nat) : Nat :=
  if p % 2 ^ a + 1 = d then (if p / 2 ^ a % 2 = 0 then 2 ^ a else 0) else p + 1

/-- A pointer steps `n` times. -/
def ptrAdvance (d a : Nat) : Nat → Nat → Nat
  | 0, p => p
  | n + 1, p => ptrAdvance d a n (ptrNext d a p)

/-- R355: the fill from the pointers. -/
def ptrFill (d a w r : Nat) : Nat :=
  if w / 2 ^ a % 2 = r / 2 ^ a % 2 then w % 2 ^ a - r % 2 ^ a else d - r % 2 ^ a + w % 2 ^ a

/-- The least number of bits that index `d` entries: ceil(log2 d). -/
def indexBits (d : Nat) : Nat := if d ≤ 1 then 0 else Nat.log2 (d - 1) + 1

/-- Whole entries of `w` bytes that hold a frame: the first with `sop`, the last with `eop`. -/
def frameEntries (w : Nat) (l : List Byte) : List QbEntry :=
  let n := (l.length + w - 1) / w
  (List.range n).map fun i => { data := slice l (i * w) w, sop := i == 0, eop := i + 1 == n }

/-- R358: the packet in front is visible under threshold `t`. -/
def qbVisible (t : Nat) : Nat → List QbEntry → Bool
  | _, [] => false
  | n, e :: r =>
    if e.eop then true
    else if t ≠ 0 ∧ t ≤ n + e.data.length then true
    else qbVisible t (n + e.data.length) r

/-- R357: the tag of a read word. -/
def qbTag (e : QbEntry) : Nat :=
  2 ^ 31 + e.sop.toNat * 2 ^ 30 + e.eop.toNat * 2 ^ 29 + (e.err && e.eop).toNat * 2 ^ 28 + e.data.length

namespace State

def qb (s : State) (k : Nat) : QbSt := s.qbs.get {} k
/-- The block is present: it has entries (R360). -/
def qbPresent (s : State) (k : Nat) : Bool := s.fget (qbGeomDepth k) != 0

/-- R356: the fill at the start of this cycle. -/
def qbFillAt (s : State) (k : Nat) : Nat := let q := s.qb k; if q.at_ = s.free then q.fill else q.entries.length

/-- The block's state changes; its fill, status and pointer registers follow, and the stale-tail timer starts and
stops with its emptiness (R359). -/
def putQb (s : State) (k : Nat) (q : QbSt) : State :=
  let was := (s.qb k).entries.isEmpty
  let now := q.entries.isEmpty
  let q := if now then { q with since := none, started := false } else if was then { q with since := some s.free } else q
  let q := { q with at_ := s.free, fill := s.qbFillAt k }
  let s := { s with qbs := s.qbs.set k q }
  let n := q.entries.length
  let s := (s.fset ⟨qbBase k + 8, 0, 24⟩ n).fmax ⟨qbBase k + 12, 0, 24⟩ n
  let s := s.fset ⟨qbBase k + 0x10, 0, 25⟩ q.ptrW
  let s := (s.fsetB (qbStatusBit k 31) (decide (s.fget (qbGeomDepth k) ≤ n))).fsetB (qbStatusBit k 30) now
  if now then s.fset (qbStatusBit k 29) 0 else s

/-- R355: entries are written at the tail. -/
def qbPush (s : State) (k : Nat) (l : List QbEntry) : State :=
  let q := s.qb k
  s.putQb k { q with entries := q.entries ++ l, ptrW := ptrAdvance (s.fget (qbGeomDepth k)) (s.fget (qbGeomBits k)) l.length q.ptrW }

/-- Entries leave at the head. -/
def qbDrop (s : State) (k n : Nat) : State :=
  let q := s.qb k
  let n := min n q.entries.length
  s.putQb k { q with entries := q.entries.drop n, ptrR := ptrAdvance (s.fget (qbGeomDepth k)) (s.fget (qbGeomBits k)) n q.ptrR }

/-- R211, R358: the rest of the packet whose first `i` entries stand at the head is written behind them. -/
def qbPushAt (s : State) (k i : Nat) (l : List QbEntry) : State :=
  let q := s.qb k
  s.putQb k { q with entries := q.entries.take i ++ l ++ q.entries.drop i, ptrW := ptrAdvance (s.fget (qbGeomDepth k)) (s.fget (qbGeomBits k)) l.length q.ptrW }

/-- Entries that were read come back to the head: the read pointer steps back. -/
def qbBack (s : State) (k : Nat) (l : List QbEntry) : State :=
  let q := s.qb k
  let d := s.fget (qbGeomDepth k)
  s.putQb k { q with entries := l ++ q.entries, ptrR := ptrAdvance d (s.fget (qbGeomBits k)) (2 * d - l.length) q.ptrR }

/-- R356: a write completes if the block had space as the cycle began; otherwise its producer stalls. An entry holds at most W bytes. -/
def qbWriteOp (s : State) (k : Nat) (e : QbEntry) : State :=
  if !s.qbPresent k then s
  else
    let q := s.qb k
    let e := { e with data := e.data.take (if s.fbit (qbGeomWide k) then 64 else 8) }
    let d := s.fget (qbGeomDepth k)
    if q.held.isEmpty && decide (q.entries.length < d) && decide (s.qbFillAt k < d) then s.qbPush k [e]
    else (({ s with qbs := s.qbs.set k { q with held := q.held ++ [e] } }).bump (qbBase k + 0x20)).fset (qbStatusBit k 1) 1

/-- R356: where a read has freed an entry, the first stalled write completes in the next cycle. -/
def qbUnstall (s : State) (k : Nat) : State :=
  let q := s.qb k
  match q.held with
  | e :: r =>
    if q.entries.length < s.fget (qbGeomDepth k) then ({ s with qbs := s.qbs.set k { q with held := r } }).qbPush k [e] else s
  | [] => s

/-- R356 to R358: a read returns the tag and an entry, or a word that is not valid, as it does where the block was empty as the cycle
began. -/
def qbReadOp (s : State) (k : Nat) : State :=
  let word (tag : Nat) (d : List Byte) : List Word :=
    let w := if s.fbit (qbGeomWide k) then 16 else 2
    BitVec.ofNat 32 tag :: (List.range w).map (fun i => BitVec.ofNat 32 (ofLe (slice d (4 * i) 4)))
  let q := s.qb k
  match (if s.qbFillAt k = 0 then [] else q.entries) with
  | e :: _ =>
    if q.started || qbVisible (s.fget (qbThreshold k)) 0 q.entries then
      let s := s.qbDrop k 1
      let s := s.fset (qbStatusBit k 29) 0
      let q := s.qb k
      let q := { q with started := !e.eop, since := if q.entries.isEmpty then none else some s.free }
      { s with qbs := s.qbs.set k q, rdata := word (qbTag e) e.data }
    else (({ s with rdata := word 0 [] }).bump (qbBase k + 0x1C)).fset (qbStatusBit k 0) 1
  | [] =>
    if q.started then { s with rdata := word (2 ^ 27) [] }
    else (({ s with rdata := word 0 [] }).bump (qbBase k + 0x1C)).fset (qbStatusBit k 0) 1

/-- R359: the stale-tail timer reaches its limit. Which vendor source a block pends is open. -/
def qbStaleOp (s : State) (k : Nat) : State :=
  match (s.qb k).since with
  | none => s
  | some t =>
    let us := s.fget (qbStaleUs k)
    if us = 0 ∨ s.free < t + us * 65536000 ∨ s.fbit (qbStatusBit k 29) then s
    else
      let s := ((s.fset (qbStatusBit k 29) 1).flag (qbStatusBit k 2) 0).bump (qbBase k + 0x24)
      let src := 964 + Config.unstated 338 k % 36
      if k < 1000 then s.pendBoth src else s.pendSource (if k < 2000 then .a else .b) src

end State

/-- QB_WRITE (R355, R356). -/
def execQbWrite (q : QbId) (data : List Byte) (sop eop err : Bool) (s : State) : Host.Outcome State Fault Refusal :=
  act s fun s => s.qbWriteOp (qbKey q) { data := data, sop := sop, eop := eop, err := err }

/-- QB_STALE (R359). -/
def execQbStale (q : QbId) (s : State) : Host.Outcome State Fault Refusal := act s fun s => s.qbStaleOp (qbKey q)

end Sys2Proof.Machine
end

