-- ==== Sys2Proof/Machine/Ports.lean ====
section
/-! DEFINITION. The port fabric: egress queues and launch, PAUSE, the switch, receive rings, T1S segments and link
state (R204 to R223, R286, R317 to R319). -/

namespace Sys2Proof.Machine

/-! ### Seed fields of Ethernet ports (R208) -/

def ethGroup (r : List Byte) : Nat := u8 (portParams r) 1
def ethPauseTx (r : List Byte) : Bool := u8 (portParams r) 2 == 1
def ethPauseQuanta (r : List Byte) : Nat := orDefault (u16 (portParams r) 4) 0 0xFFFF
/-- The pause watchdog limit in ms; 0xFFFF is off. -/
def ethPauseWd (r : List Byte) : Nat := orDefault (u16 (portParams r) 6) 0 50
def ethCtThreshold (r : List Byte) : Nat := u16 (portParams r) 8
def ethPhy (r : List Byte) : Nat := u8 r 5
def portPauseHonoured (r : List Byte) : Bool := portFlags r % 2 == 1
def portRingValid (r : List Byte) : Bool := portFlags r / 2 % 2 == 1

/-- R204, R206: line rate in units of 10 Mb/s; an SGMII port's speed comes from its PHY (R207), so it is open. -/
def lineRate (n phy : Nat) : Nat :=
  match phy with
  | 1 => 10000
  | 2 => 2500
  | 3 => 1000
  | 4 => 250
  | 5 => 100
  | 6 => match Config.unstated 207 n % 3 with | 0 => 100 | 1 => 10 | _ => 1
  | _ => 1

/-- The time `bits` bits take on a port, in 2^-16 ns, rounded up. -/
def bitsRaw (rate bits : Nat) : Nat := (bits * 100 * 65536 + rate - 1) / rate

/-- R209, R286: where the PTP message of a frame begins in its payload: over Ethernet, UDP/IPv4 or UDP/IPv6. -/
def ptpAt (f : EthFrame) : Option Nat :=
  if f.etype = 0x88F7 then some 0
  else if f.etype = 0x0800 then
    let h := u8 f.payload 0 % 16 * 4
    let dp := ofBe (slice f.payload (h + 2) 2)
    if u8 f.payload 9 = 17 ∧ (dp = 319 ∨ dp = 320) then some (h + 8) else none
  else if f.etype = 0x86DD then
    let dp := ofBe (slice f.payload 42 2)
    if u8 f.payload 6 = 17 ∧ (dp = 319 ∨ dp = 320) then some 48 else none
  else none

/-- `l` with the bytes from `o` replaced. -/
def patchBytes (l : List Byte) (o : Nat) (v : List Byte) : List Byte :=
  l.take o ++ v ++ l.drop (o + v.length)

/-- One's complement sum of 16-bit words. -/
def onesAdd (a b : Nat) : Nat := let s := a + b; s % 65536 + s / 65536

/-- R286: a UDP checksum updated for words changed from `m` to `n`. -/
def csumUpdate (c : Nat) (m n : List Nat) : Nat :=
  let x := 0xFFFF - c
  let x := m.foldl (fun a w => onesAdd a (0xFFFF - w)) x
  let x := n.foldl onesAdd x
  0xFFFF - x

/-- Big-endian 16-bit words of a byte string of even length. -/
def words16 : List Byte → List Nat
  | a :: b :: r => (a.toNat * 256 + b.toNat) :: words16 r
  | _ => []

/-- R286: bytes of a frame with a PTP message at offset `o` of its payload are replaced, from offset `x` of the payload; on UDP/IPv4 the
UDP checksum follows. -/
def patchAt (f : EthFrame) (o x : Nat) (new : List Byte) : EthFrame :=
  let old := slice f.payload x new.length
  let p := patchBytes f.payload x new
  if f.etype = 0x0800 then
    let c := ofBe (slice f.payload (o - 2) 2)
    if c = 0 then { f with payload := p }
    else
      let c' := csumUpdate c (words16 old) (words16 new)
      { f with payload := patchBytes p (o - 2) (beBytes 2 (if c' = 0 then 0xFFFF else c')) }
  else { f with payload := p }

/-- Bytes of a frame's PTP message, from offset `x` of the message. -/
def patchPtp (f : EthFrame) (x : Nat) (new : List Byte) : EthFrame :=
  match ptpAt f with
  | none => f
  | some o => patchAt f o (o + x) new

/-- R276: the Follow_Up of a two-step Sync that carries its time: another type, no two-step flag, control 2, and the general port. -/
def followUpOf (f : EthFrame) : EthFrame :=
  match ptpAt f with
  | none => f
  | some o =>
    let b (x : Nat) : Nat := u8 f.payload (o + x)
    let f := patchAt f o (o + 32) [2, BitVec.ofNat 8 (b 33)]
    let f := patchAt f o (o + 6) [BitVec.ofNat 8 (b 6 - 2), BitVec.ofNat 8 (b 7)]
    let f := patchAt f o o [BitVec.ofNat 8 (b 0 / 16 * 16 + 8), BitVec.ofNat 8 (b 1)]
    if f.etype = 0x0800 then patchAt f o (o - 6) (beBytes 2 320) else f

/-- R286: adds a residence time to the correctionField of the PTP message of a frame. -/
def addCorrection (f : EthFrame) (res : Nat) : EthFrame :=
  match ptpAt f with
  | none => f
  | some o => patchPtp f 8 (beBytes 8 (ofBe (slice f.payload (o + 8) 8) + res))

/-- IEEE 1588-2019 clause 5.3.3: a time in raw units as a Timestamp: whole seconds and nanoseconds. -/
def ptpStamp (t : Int) : List Byte :=
  let t := t.toNat
  beBytes 6 (t / second) ++ beBytes 4 (t % second / 65536)

/-- A frame's bytes without VLAN tags and FCS. -/
def frameBytes (f : EthFrame) : List Byte := beBytes 6 f.dst ++ beBytes 6 f.src ++ beBytes 2 f.etype ++ f.payload

/-- A frame's bytes, without FCS, as a frame. -/
def ethOf (l : List Byte) : EthFrame :=
  { dst := ofBe (slice l 0 6), src := ofBe (slice l 6 6), etype := ofBe (slice l 12 2), payload := l.drop 14 }

/-- The payload of a UDP frame that the root has built. -/
def udpPayload (l : List Byte) : List Byte := l.drop (22 + if ofBe (slice l 12 2) = 0x86DD then 40 else 20)

/-- R210: the frame carries a UDP packet whose checksum does not hold (R238): over IPv4 a checksum of 0 is none. -/
def udpBad (f : EthFrame) : Bool :=
  let v6 := f.etype == 0x86DD
  let h := if v6 then 40 else u8 f.payload 0 % 16 * 4
  let udp := if v6 then u8 f.payload 6 == 17 else f.etype == 0x0800 && u8 f.payload 9 == 17
  let n := ofBe (slice f.payload (h + 4) 2)
  let d := slice f.payload h n
  let c := ofBe (slice d 6 2)
  let (src, dst) := if v6 then (ofBe (slice f.payload 8 16), ofBe (slice f.payload 24 16)) else (ofBe (slice f.payload 12 4), ofBe (slice f.payload 16 4))
  udp && (if c = 0 then v6 else c != udpSum v6 src dst (patchBytes d 6 [0, 0]))

/-- The Ethernet FCS (IEEE 802.3 clause 3.2.9, PRESUMED). -/
def fcsAlg : CrcAlg := ⟨32, 0x04C11DB7, 0xFFFFFFFF, true, true, 0xFFFFFFFF⟩
def etherFcs (l : List Byte) : Nat := crc fcsAlg l

/-- R390: the 32 bytes of a reply, and its read data. -/
def replyBytes (r : Reply) : List Byte :=
  leBytes 4 r.status ++ leBytes 4 r.tag ++ leBytes 2 r.opcode ++ [BitVec.ofNat 8 (2 * r.windfall.toNat + r.phase.toNat), 0] ++ leBytes 4 r.data.length ++
    (r.result ++ List.replicate 16 0).take 16 ++ r.data

namespace State

def port (s : State) (n : Nat) : PortSt := s.ports.get {} n

def queueFill (p : PortSt) : Nat :=
  p.timed.foldl (fun a f => a + f.len) 0 + p.untimed.foldl (fun a u => a + u.frame.len) 0

def ringBuffers (p : PortSt) : Nat := p.ring.foldl (fun a f => a + f.bufs) 0

/-- R360: the entries of an untimed frame in its egress block; the bytes of VLAN tags, which the model does not carry, read 0. -/
def egressEntries (f : EthFrame) : List QbEntry :=
  frameEntries 8 (frameBytes f ++ List.replicate (4 * f.tags) 0 ++ beBytes 4 (etherFcs (frameBytes f)))

/-- R219, R360: the descriptors of a received frame, one for each buffer it still holds; what they hold is not stated. -/
def ringEntries (f : RingFrame) : List QbEntry :=
  frameEntries 8 (List.replicate (8 * f.bufs) (BitVec.ofNat 8 (Config.unstated 219 f.frame.len)))

/-- The egress entries of the frames that wait at a port. -/
def egressOf (p : PortSt) : List (List QbEntry) := p.untimed.map fun u => egressEntries u.frame

/-- A queue block of the root follows the frames of its port. -/
def qbFollow (s : State) (k : Nat) (old new : List (List QbEntry)) : State :=
  if !s.qbPresent k then s
  else if old.length < new.length then s.qbPush k (new.drop old.length).flatten
  else if new.length < old.length then s.qbDrop k (old.flatten.length - new.flatten.length)
  else s

/-- The port's state changes; its fill, ring and pause fields and `SW_SRAM_USED` follow (R222, R223). -/
def setPort (s : State) (n : Nat) (p : PortSt) : State :=
  let old := queueFill (s.port n)
  let s := { s with ports := s.ports.set n p }
  let s := s.fset (Reg.PortQueueFill.fill n) (queueFill p)
  let s := s.fset (Reg.PortRingFill.fill n) (ringBuffers p * 256)
  let s := s.fsetB (Reg.PortStatus.rxPaused n) (p.pauseEnd != 0)
  let s := s.fsetB (Reg.PortStatus.txPausing n) (!p.pausing.isEmpty)
  s.setRegN Reg.swSramUsed (s.regN Reg.swSramUsed + queueFill p - old)

/-- The port's state changes, and its queue blocks follow (R360). -/
def putPort (s : State) (n : Nat) (p : PortSt) : State :=
  let o := s.port n
  let s := s.qbFollow n (egressOf o) (egressOf p)
  let s := s.qbFollow (64 + n) (o.ring.map ringEntries) (p.ring.map ringEntries)
  s.setPort n p

/-- A 64-bit counter pair takes `n` more (R221). -/
def bump64 (s : State) (lo hi n : Nat) : State :=
  s.setReg64 lo hi (min (s.regN lo + 2 ^ 32 * s.regN hi + n) (2 ^ 64 - 1))

def linkUp (s : State) (n : Nat) : Bool := s.fbit (Reg.PortStatus.link n)

/-- R214, R220: no frame starts while the pause timer runs or the link is down. -/
def txBlocked (s : State) (n : Nat) : Bool := !s.linkUp n || (s.port n).pauseEnd != 0

def rateOf (s : State) (n : Nat) : Nat := lineRate n (ethPhy (s.ethRec n))

/-- R217: carrier and back-off hold a T1S segment. -/
def t1sBusy (s : State) (n : Nat) : Bool :=
  decide (50 ≤ n) && ((s.port n).carrier || decide (s.free < (s.port n).backoffEnd))

/-- R213: the launch guard: preamble, frame and minimum gap end at or before the next timed launch. -/
def guardOk (s : State) (n len : Nat) : Bool :=
  match (s.port n).timed with
  | [] => true
  | f :: _ =>
    match s.basePos f.base with
    | none => true
    | some p => decide (p + bitsRaw (s.rateOf n) ((8 + len + 12) * 8) ≤ f.launch * 65536)

def dropBit (s : State) (n : Nat) : State := s.fset (Reg.PortStatus.drop n) 1

/-- R220: the line is free to start a frame. -/
def lineFree (s : State) (n : Nat) : Bool := !s.txBlocked n && (s.port n).tx.isNone && !s.t1sBusy n

/-- A frame has been sent: it counts, its bytes count. -/
def txCount (s : State) (n len : Nat) : State :=
  (s.bump (Reg.portTxFrames n)).bump64 (Reg.portTxBytesLo n) (Reg.portTxBytesHi n) len

/-! ### Sending PAUSE (R216) -/

/-- The port sends a PAUSE now, if its line is free and the launch guard admits it; otherwise it waits. -/
def sendPause (s : State) (n time : Nat) : State :=
  if s.lineFree n && s.guardOk n 64 then
    let s := s.putPort n { s.port n with tx := some { len := 64, startedAt := s.free } }
    let s := if time = 0 then s.bump (Reg.portTxPauseZero n) else s.bump (Reg.portTxPause n)
    s.emit (.pause n time)
  else s.putPort n { s.port n with pauseOut := (s.port n).pauseOut ++ [time] }

/-- R216: half of `pause_quanta` as time. -/
def pauseHalf (s : State) (n : Nat) : Nat := bitsRaw (s.rateOf n) (ethPauseQuanta (s.ethRec n) * 512) / 2

/-- R216: forwarding from `i` into congested queue `e` adds it to the pausing set. -/
def pauseOn (s : State) (i e : Nat) : State :=
  let p := s.port i
  if e ∈ p.pausing then s
  else
    let s' := s.putPort i { p with pausing := e :: p.pausing, pauseNext := if p.pausing = [] then s.free + s.pauseHalf i else p.pauseNext }
    if p.pausing = [] then s'.sendPause i (ethPauseQuanta (s.ethRec i)) else s'

/-- R216: queue `e` leaves every pausing set; a set that empties sends PAUSE with time 0. -/
def pauseOff (s : State) (e : Nat) : State :=
  (List.range 58).foldl (fun s i =>
    let p := s.port i
    if e ∈ p.pausing then
      let s := s.putPort i { p with pausing := p.pausing.filter (· != e) }
      if (s.port i).pausing = [] then s.sendPause i 0 else s
    else s) s

/-- R216: congestion begins at `wm_high` and ends at `wm_low`. The watermarks of a T1S segment are not used (R218). -/
def congestion (s : State) (n : Nat) : State :=
  let r := s.ethRec n
  let p := s.port n
  if 50 ≤ n then s
  else if p.congested ∧ queueFill p ≤ portWmLow r then (s.putPort n { p with congested := false }).pauseOff n
  else if !p.congested ∧ portWmHigh r ≤ queueFill p then s.putPort n { p with congested := true }
  else s

/-! ### Egress admission (R212, R52) -/

/-- R212, R52: a timed frame reaches egress queue `n`. -/
def enqueueEth (s : State) (n : Nat) (f : OutFrame) : State :=
  let p := s.port n
  if s.pastLimit f || decide (portQueueSize (s.ethRec n) < queueFill p + f.len) then
    (s.bump (Reg.portTxTimedDrop n)).dropBit n
  else (s.putPort n { p with timed := insertLaunch { f with late := f.late || s.lateNow f } p.timed }).congestion n

/-- R212, R220: an untimed frame is admitted to egress queue `n` or dropped. -/
def enqueueUntimed (s : State) (n : Nat) (u : Untimed) : State :=
  let p := s.port n
  let r := s.ethRec n
  if !s.linkUp n || decide (portQueueSize r - portMaxFrame r < queueFill p + u.frame.len) then
    (s.bump (Reg.portTxUntimedDrop n)).dropBit n
  else (s.putPort n { p with untimed := p.untimed ++ [u] }).congestion n

/-- R212: a frame of the root, as bytes without FCS, enters egress queue `n` untimed. -/
def sendFrame (s : State) (n : Nat) (l : List Byte) (stamp : Option (Nat × Nat × Nat) := none) : State :=
  s.enqueueUntimed n { frame := ethOf l, at_ := s.free, stamp := stamp }

/-- R320, R426: the grove links a message leaves on: HEARTBEAT and UPDATE on both that are up, any other on the first that is up. Which
link reaches a tree is not stated. -/
def groveLinks (s : State) (type : Nat) : List Nat :=
  let up := [48, 49].filter s.linkUp
  if type = 1 ∨ type = 0x20 then up else [up.headD 48]

/-- R323: a grove link frame: Ethernet addresses, header, payload and check. The destination address is stated nowhere. -/
def groveFrame (s : State) (link type dst seq : Nat) (data : List Byte) : List Byte :=
  let h := beBytes 1 1 ++ beBytes 1 type ++ beBytes 2 data.length ++ beBytes 4 s.sd.groveId ++ beBytes 1 s.grovePos ++ beBytes 1 dst ++ [0, 0] ++ beBytes 4 seq
  etherFrame (Config.unstated 323 link % 2 ^ 48) (s.portMac link) 0x88B5 (h ++ data ++ beBytes 4 (crc32c (beBytes 4 s.sd.groveId ++ h ++ data)))

/-- R319, R323: a grove link message takes its type's next sequence and enters the egress queues of its grove links. -/
def sendGrove (s : State) (type dst : Nat) (data : List Byte) : State :=
  let k := 0x10000 + type
  let n := s.twin.handed.get 0 k
  (s.groveLinks type).foldl (fun s l => s.sendFrame l (s.groveFrame l type dst (n % 2 ^ 32) data))
    { s with twin.handed := s.twin.handed.set k (n + 1) }

/-- R324, R325: a frame moved to a port of the partner tree leaves in one RING message, or in two parts. -/
def sendRing (s : State) (port : Nat) (f : OutFrame) : State :=
  let dst := s.fget Reg.CmpGroveStatus.partner
  let hd (part off : Nat) : List Byte :=
    [BitVec.ofNat 8 port, BitVec.ofNat 8 part] ++ beBytes 2 (f.len - 4) ++ beBytes 6 (f.launch / 1000000000) ++
      beBytes 4 (f.launch % 1000000000) ++ beBytes 2 off
  if f.data.length ≤ 9162 then s.sendGrove 3 dst (hd 0 0 ++ f.data)
  else (s.sendGrove 3 dst (hd 1 0 ++ f.data.take 9162)).sendGrove 3 dst (hd 2 9162 ++ f.data.drop 9162)

/-- R317, R318: the timed frame moves to the ring partner of port `n`. -/
def moveRing (s : State) (n : Nat) (f : OutFrame) : State :=
  let q := portPartner (s.ethRec n)
  let s := s.bump Reg.cmpRingMoveCnt
  if q < 0x20 then s.enqueueEth (16 + q) { f with ringMoved := true }
  else s.sendRing (q - 0x80) f

/-- R318: timed frames of the port move to its ring partner. -/
def fallsBack (s : State) (n : Nat) : Bool := portRingValid (s.ethRec n) && (s.port n).fallback

/-- R212, R318: a timed frame enters the launch queue of port `n`, or its ring partner's. -/
def enqueueTimed (s : State) (n : Nat) (f : OutFrame) : State :=
  if s.fallsBack n && !f.ringMoved then s.moveRing n f else s.enqueueEth n f

/-! ### Transparent clock (R286) -/

/-- The residence time of a frame that starts now, corrected by the ports' calibrated latencies (R287). -/
def residence (s : State) (e i at_ : Nat) : Nat :=
  s.free - at_ + (s.regN (Reg.calPortEgress e) + s.regN (Reg.calPortIngress i)) * 65536 / 1000

/-- R286: the correction a forwarded frame takes as it leaves; under P2P with the ingress port's peer delay. -/
def tcCorrect (s : State) (e : Nat) (u : Untimed) : EthFrame × State :=
  let mode := s.fget Reg.TimeTcCtrl.tcMode
  match ptpAt u.frame with
  | none => (u.frame, s)
  | some o =>
    if mode = 0 ∨ 50 ≤ e ∨ 50 ≤ u.ingress then (u.frame, s)
    else
      let b := u.frame.payload.drop o
      let kind := u8 b 0 % 16
      let key := slice b 4 1 ++ slice b 20 12
      let res := s.residence e u.ingress u.at_ + (if mode = 2 then (s.peerDelay.get 0 u.ingress).toNat else 0)
      if kind = 0 ∧ u8 b 6 / 2 % 2 = 0 ∨ kind = 1 ∧ mode = 1 then
        (addCorrection u.frame res, s.bump Reg.timeTcCorrCnt)
      else if kind = 0 then (u.frame, { s with tcSync := (e, key, res, s.free) :: s.tcSync }.bump Reg.timeTcCorrCnt)
      else if kind = 8 then
        match s.tcSync.find? (fun x => x.1 == e && x.2.1 == key && decide (s.free ≤ x.2.2.2 + second)) with
        | some x => (addCorrection u.frame x.2.2.1, { s with tcSync := s.tcSync.filter (· != x) })
        | none => (u.frame, s.bump Reg.timeTcUnmatched)
      else (u.frame, s)

/-! ### Transmission (R213, R214, R218) -/

/-- R213, R214: frames that come due while the port is held, or behind an earlier burst, are late. -/
def markDue (s : State) (n : Nat) (held : Bool) (own : Option Nat) : State :=
  let p := s.port n
  let mark (f : OutFrame) : OutFrame :=
    if s.due f && some f.launch != own then { f with late := true, held := f.held || held } else f
  s.putPort n { p with timed := p.timed.map mark }

/-- R240: a frame of a timed queue as it leaves: an E1.31 packet takes its universe's next sequence number. -/
def timedBytes (s : State) (f : OutFrame) : List Byte × State :=
  if portKind (s.portRec f.portRec) = 9 then
    let q := s.e131Stamp f.portRec (udpPayload f.data)
    (s.e131Frame f.portRec q.1, q.2)
  else (f.data, s)

/-- R213: the timed frame in front starts. A T1S segment judges its lateness now (R218). -/
def startTimed (s : State) (n : Nat) (f : OutFrame) (rest : List OutFrame) : State :=
  let f := { f with late := f.late || decide (50 ≤ n) && s.lateNow f }
  let s := s.putPort n { s.port n with timed := rest, tx := some { timed := true, out := f, len := f.len, startedAt := s.free } }
  let b := s.timedBytes f
  let s := b.2.emit (.eth n true f.late b.1)
  let s := if f.safety then s.safetyLaunched f.portRec else s
  s.congestion n

/-- R287: the time stamp of a message that leaves port `n` now, on instance `i` or on FREE, corrected by the port's calibrated latency. -/
def egressTime (s : State) (n i : Nat) : Int :=
  (if i < 4 then (s.ptps.get {} i).base else (s.free : Int)) + ((s.regN (Reg.calPortEgress n) * 65536 / 1000 : Nat) : Int)

/-- R276, R278, R287: a PTP message of the root leaves port `n`. A one-step Sync and Pdelay_Req carry the time; a two-step Sync sends its
Follow_Up after it; Delay_Req and Pdelay_Req keep it; a Pdelay_Resp carries the time it took to answer in its correctionField. -/
def stampOut (s : State) (n : Nat) (u : Untimed) : EthFrame × State :=
  match u.stamp with
  | none => (u.frame, s)
  | some (i, kind, q) =>
    let t := s.egressTime n i
    let f := patchPtp u.frame 34 (ptpStamp t)
    if kind = 0 ∧ u8 (u.frame.payload.drop ((ptpAt u.frame).getD 0)) 6 / 2 % 2 = 1 then
      (u.frame, s.enqueueUntimed n { frame := followUpOf f, at_ := s.free })
    else if kind = 0 then (f, s)
    else if kind = 1 then (f, { s with ptps := s.ptps.set i { s.ptps.get {} i with req := some (q, t) } })
    else if kind = 2 then (f, s)
    else if kind = 3 then (addCorrection u.frame (s.free - u.at_ + s.regN (Reg.calPortEgress n) * 65536 / 1000), s)
    else (u.frame, s)

/-- R213: an untimed frame starts. -/
def startUntimed (s : State) (n : Nat) (u : Untimed) (rest : List Untimed) : State :=
  let c := s.tcCorrect n u
  let s := c.2.putPort n { c.2.port n with untimed := rest, tx := some { frame := some c.1, ingress := u.ingress, len := c.1.len, startedAt := s.free, stamp := u.stamp } }
  let o := s.stampOut n { u with frame := c.1 }
  (o.2.emit (.eth n false false (frameBytes o.1))).congestion n

/-- R217: a T1S frame that waits for carrier to fall is counted once. -/
def countDefer (s : State) (n : Nat) : State :=
  if (s.port n).carrier ∧ !(s.port n).deferred then
    (s.putPort n { s.port n with deferred := true }).bump (Reg.portDefer n)
  else s

/-- R213: a waiting PAUSE or the untimed frame in front starts, if the launch guard admits it. -/
def tryUntimed (s : State) (n : Nat) : State :=
  if !s.lineFree n then (if (s.port n).untimed.isEmpty || s.txBlocked n || (s.port n).tx.isSome then s else s.countDefer n)
  else
    match (s.port n).pauseOut with
    | t :: r => if s.guardOk n 64 then (s.putPort n { s.port n with pauseOut := r }).sendPause n t else s
    | [] =>
      match (s.port n).untimed with
      | [] => s
      | u :: r => if s.guardOk n u.frame.len then s.startUntimed n u r else s

/-- R213: the MAC chooses the next frame: the timed frame in front once it is due, else untimed. -/
def chooseNext (s : State) (n : Nat) : State :=
  match (s.port n).timed with
  | f :: r =>
    if s.due f then (if s.lineFree n then s.startTimed n f r else s.countDefer n) else s.tryUntimed n
  | [] => s.tryUntimed n

/-- The timed frame in front launches when it is due. -/
def launchEth (s : State) (n : Nat) : State :=
  match (s.port n).timed with
  | f :: r => if s.due f then (if s.lineFree n then s.startTimed n f r else s.countDefer n) else s
  | [] => s

/-- R52, R214, R218: timed frames past their limit on a held port are dropped. -/
def dropExpired (s : State) (n : Nat) : State :=
  let p := s.port n
  let gone (f : OutFrame) : Bool := s.pastLimit f && (s.txBlocked n || f.held || decide (50 ≤ n))
  let k := (p.timed.filter gone).length
  if k = 0 then s
  else
    let s := s.putPort n { p with timed := p.timed.filter (fun f => !gone f) }
    ((s.bumpBy (Reg.portTxTimedDrop n) k).dropBit n).congestion n

/-- R211: a cut-through frame leaves its egress block as it ends. -/
def cutLeaves (s : State) (n : Nat) (t : TxSt) : State :=
  match t.frame with
  | some f => if t.cut then s.qbDrop n (egressEntries f).length else s
  | none => s

/-- R211: a frame whose ingress FCS failed ends with an inverted FCS. -/
def stompEnds (s : State) (n : Nat) (t : TxSt) : State :=
  match t.frame with
  | some f => if t.stomp then (s.bump (Reg.portTxStomp n)).emit (.stomp n (2 ^ 32 - 1 - etherFcs (frameBytes f))) else s
  | none => s

/-- A cut-through frame on the line of `n` is still coming in. -/
def stillIn (s : State) (n : Nat) (t : TxSt) : Bool := t.cut && (s.port t.ingress).cutTo.contains n

/-- R213, R223: the frame on the line ends, and is counted sent. Timed frames that came due behind a burst are late. -/
def txEnd (s : State) (n : Nat) : State :=
  match (s.port n).tx with
  | none => s
  | some t =>
    if s.stillIn n t then s
    else
      let s := (s.putPort n { s.port n with tx := none, attempts := 0, deferred := false }).txCount n t.len
      let s := if t.timed && t.out.late then s.bump (Reg.portTxLate n) else s
      let s := if t.timed then s.markDue n false (some t.out.launch) else s
      ((s.stompEnds n t).cutLeaves n t).chooseNext n

/-! ### Received PAUSE (R214, R215) -/

/-- The port's pause ends: frames that came due leave late. -/
def pauseEnds (s : State) (n : Nat) : State :=
  let s := s.markDue n true none
  (s.putPort n { s.port n with pauseEnd := 0, heldFrom := 0 }).chooseNext n

/-- R214, R215: a PAUSE whose FCS has been checked acts. -/
def pauseAct (s : State) (n time : Nat) : State :=
  let p := s.port n
  if !portPauseHonoured (s.ethRec n) then s.bump (Reg.portRxPauseIgnored n)
  else if s.fbit (Reg.PortStatus.pauseIgnored n) then
    if time = 0 then (s.fset (Reg.PortStatus.pauseIgnored n) 0).bump (Reg.portRxPauseIdle n)
    else s.bump (Reg.portRxPauseIgnored n)
  else if time = 0 then
    if p.pauseEnd = 0 then s.bump (Reg.portRxPauseIdle n)
    else (s.bump (Reg.portRxPause n)).pauseEnds n
  else
    let s := s.bump (Reg.portRxPause n)
    let busyTo := match p.tx with | some t => t.startedAt + bitsRaw (s.rateOf n) ((8 + t.len + 12) * 8) | none => s.free
    s.putPort n { p with pauseEnd := s.free + bitsRaw (s.rateOf n) (time * 512),
                         heldFrom := if p.heldFrom = 0 then max s.free busyTo else p.heldFrom }

/-- R214: the pause timer runs out. -/
def pauseExpire (s : State) (n : Nat) : State :=
  let p := s.port n
  if p.pauseEnd ≠ 0 ∧ p.pauseEnd ≤ s.free then s.pauseEnds n else s

/-- R215: the pause watchdog. -/
def pauseTrip (s : State) (n : Nat) : State :=
  let p := s.port n
  let wd := ethPauseWd (s.ethRec n)
  if p.pauseEnd ≠ 0 ∧ wd ≠ 0xFFFF ∧ p.heldFrom + wd * 1000000 * 65536 ≤ s.free then
    let s := s.fset (Reg.PortStatus.pauseIgnored n) 1
    let s := (s.flag (Reg.PortStatus.pauseWd n) 0).bump (Reg.portPauseWdCnt n)
    (s.pauseEnds n).attnLeaf
  else s

/-! ### Link state (R220, R318) -/

/-- R211, R360: the rest of a frame that leaves cut-through is written to the egress blocks; its last entry carries `err` when its FCS
has failed. -/
def cutRest (s : State) (n : Nat) (bad : Bool) : State :=
  (s.port n).cutTo.foldl (fun s e =>
    match (s.port e).tx with
    | some t =>
      match t.frame with
      | some f =>
        if t.ingress ≠ n ∨ !t.cut then s
        else
          let l := (egressEntries f).mapIdx fun i x => { x with err := bad && i + 1 == (egressEntries f).length }
          let s := if s.qbPresent e then s.qbPushAt e t.wrote (l.drop t.wrote) else s
          s.putPort e { s.port e with tx := some { t with stomp := bad } }
      | none => s
    | none => s) s

/-- R318: timed frames queued for the port move, and learned addresses on it are flushed. -/
def beginFallback (s : State) (n : Nat) : State :=
  if !portRingValid (s.ethRec n) || (s.port n).fallback then s
  else
    let p := s.port n
    let s := (s.putPort n { p with timed := [], fallback := true }).congestion n
    let s := { s with swTable := s.swTable.filter (fun e => e.port != n) }
    let s := s.fset Reg.SwStatus.entries s.swTable.length
    p.timed.foldl (fun s f => s.moveRing n f) s

/-- R417: every Ethernet port of PORTS reports link. -/
def portsAll (s : State) : Bool :=
  s.seed.isSome && (List.range 58).all (fun n => (s.ethRec? n).isNone || s.linkUp n)

/-- R220: the link of a port present in the seed changes state. -/
def linkTo (s : State) (n : Nat) (up : Bool) : State :=
  if s.linkUp n = up ∨ s.ethRec? n = none then s
  else
    let s := s.fsetB (Reg.PortStatus.link n) up
    let s := s.fsetB (Reg.PortStatus.fecLock n) (up && u8 (portParams (s.ethRec n)) 0 != 0)
    let s := ((s.flag (Reg.PortStatus.linkChg n) 0).pendBoth (896 + n)).setReady Reg.TreeReady.portsAll ((s.fsetB (Reg.PortStatus.link n) up).portsAll)
    let s := if 16 ≤ n ∧ n < 48 ∨ 50 ≤ n then s.attnLeaf else s.attnFault
    let s := if n = 48 then s.fset Reg.CmpGroveStatus.linksUp (setBits (s.fget Reg.CmpGroveStatus.linksUp) 0 1 up.toNat)
      else if n = 49 then s.fset Reg.CmpGroveStatus.linksUp (setBits (s.fget Reg.CmpGroveStatus.linksUp) 1 1 up.toNat) else s
    if up then
      let s := s.markDue n true none
      s.putPort n { s.port n with upSince := s.free }
    else
      let s := s.cutRest n true
      let s := s.putPort n { s.port n with pauseEnd := 0, heldFrom := 0, cutTo := [] }
      let s := s.fset (Reg.PortStatus.pauseIgnored n) 0
      s.beginFallback n

/-- R220, R318: the link is up when the pad side is, the port is not disabled and not faulted, and R449
does not hold its pads. -/
def linkApply (s : State) (n : Nat) : State :=
  s.linkTo n ((s.port n).phys && !s.fbit (Reg.PortCtrl.disable n) && !(s.port n).faulted && !s.ethHeld n)

/-- R223: a write of `disable`. -/
def disableWrite (s : State) (n : Nat) (off : Bool) : State := if s.ethRec? n = none then s else (s.fsetB (Reg.PortCtrl.disable n) off).linkApply n

/-- R215: a write of `pause_rearm`. -/
def rearmWrite (s : State) (n : Nat) : State := if s.ethRec? n = none then s else s.fset (Reg.PortStatus.pauseIgnored n) 0

/-! ### The switch (R210, R211) -/

/-- R222: the address table is emptied. -/
def swFlush (s : State) : State := { s with swTable := [] }.fset Reg.SwStatus.entries 0


def isMulticast (a : Nat) : Bool := a / 2 ^ 40 % 2 == 1

/-- R210: the local filter of port `n`: the PTP multicast addresses and the E1.31 groups that the seed joins on it (R239). -/
def inLocalFilter (s : State) (n a : Nat) : Bool :=
  a == 0x011B19000000 || a == 0x0180C200000E || a == 0x01005E000181 || a == 0x01005E00006B || a == 0x333300000181 ||
  a == 0x33330000006B ||
  s.portIdxs.any fun i =>
    let r := s.portRec i
    let kp := portParams r
    portKind r == 9 && u8 kp 0x11 % 2 == 1 && s.e131Port i == n && ((List.range (u16 kp 2)).any fun k =>
      let u := u16 kp 0 + k
      a == (if u8 kp 0x11 / 2 % 2 = 1 then 0x333300000000 + 0x830000 * 256 + u else 0x01005E7F0000 + u))

/-- R210: the switch learns a source address of a group. -/
def learn (s : State) (g a n : Nat) : State :=
  if isMulticast a then s
  else if s.swTable.any (fun e => e.group == g && e.addr == a) then
    { s with swTable := s.swTable.map fun e => if e.group == g && e.addr == a then { e with port := n, at_ := s.free } else e }
  else if 16384 ≤ s.swTable.length then s.bump Reg.swLearnDropCnt
  else
    let s := { s with swTable := s.swTable ++ [({ group := g, addr := a, port := n, at_ := s.free } : SwEntry)] }
    let s := s.fset Reg.SwStatus.entries s.swTable.length
    if s.swTable.length = 16384 then s.fset Reg.SwStatus.tableFull 1 else s

/-- The ports of a switching group. Grove links do not switch (R208). -/
def groupPorts (s : State) (g : Nat) : List Nat :=
  (List.range 58).filter fun n => decide ((n < 48 ∨ 50 ≤ n) ∧ s.ethRec? n ≠ none ∧ ethGroup (s.ethRec n) = g)

/-- R317, R319: two ports of this tree are ring partners. -/
def ringPair (s : State) (n m : Nat) : Bool :=
  portRingValid (s.ethRec n) && decide (16 ≤ n) && decide (n < 48) && (16 + portPartner (s.ethRec n) == m)

/-- R210: the egress ports of a frame received on `n`. -/
def forwardTo (s : State) (n : Nat) (f : EthFrame) : List Nat :=
  let g := ethGroup (s.ethRec n)
  if g = 0xFF ∨ f.dst = s.portMac n ∨ 48 ≤ n ∧ n < 50 then []
  else
    let ps := (s.groupPorts g).filter (fun m => m != n && !s.ringPair n m)
    if isMulticast f.dst then ps
    else
      match s.swTable.find? (fun e => e.group == g && e.addr == f.dst) with
      | some e => ps.filter (· == e.port)
      | none => ps

/-- R286: a PTP message the switch does not forward: Pdelay messages in P2P mode. -/
def tcStops (s : State) (f : EthFrame) : Bool :=
  match ptpAt f with
  | none => false
  | some o => s.fget Reg.TimeTcCtrl.tcMode == 2 && decide (u8 f.payload o % 16 ∈ [2, 3, 10])

/-- R360: the threshold of an egress block is that of the port its frames come in by. -/
def blockThreshold (s : State) (n e : Nat) : State := if s.qbPresent e then s.fset (qbThreshold e) (ethCtThreshold (s.ethRec n)) else s

/-- R210, R216: a frame is forwarded into egress queue `e`. -/
def forward (s : State) (n : Nat) (f : EthFrame) (e : Nat) : State :=
  let s := (s.blockThreshold n e).enqueueUntimed e { ingress := n, frame := f, at_ := s.free }
  let s := if (s.port e).congested && ethPauseTx (s.ethRec n) then s.pauseOn n e else s
  s

/-- R219: a locally delivered frame enters the receive ring with its arrival stamp; one whose buffers run out leaves those it filled,
with TRUNC status. A UDP packet with a failed checksum is discarded (R238, R246). -/
def ringEnter (s : State) (n : Nat) (f : EthFrame) : State :=
  let p := s.port n
  let cap := (portRingSize (s.ethRec n) + 255) / 256
  let used := ringBuffers p
  let need := (f.len + 255) / 256
  if udpBad f then s.bump Reg.rootUdpCsumErr
  else if cap ≤ used then s.bump (Reg.portRxDrop n)
  else if cap < used + need then
    ((s.putPort n { p with ring := p.ring ++ [{ frame := f, at_ := s.free, bufs := cap - used, trunc := true }] }).bump (Reg.portRxTrunc n)).fset (Reg.PortStatus.trunc n) 1
  else s.putPort n { p with ring := p.ring ++ [{ frame := f, at_ := s.free, bufs := need }] }

/-- R12, R219: the ingest stage reads a descriptor of the ring of port `n`: its buffer is free, and with the last of a frame the frame
takes its arrival tag (R13) and leaves; a TRUNC frame is discarded without one. -/
def ringTake (s : State) (n : Nat) : State :=
  let p := s.port n
  match p.ring with
  | [] => s
  | f :: r =>
    if 1 < f.bufs then s.setPort n { p with ring := { f with bufs := f.bufs - 1 } :: r }
    else
      let s := s.setPort n { p with ring := r }
      if f.trunc then s else s.nextTag

/-- R357: a read of a queue block; a descriptor read from a receive ring is taken by the ingest stage. -/
def qbReadNext (s : State) (k : Nat) : State :=
  let n := (s.qb k).entries.length
  let s := s.qbReadOp k
  if 64 ≤ k ∧ k < 122 ∧ (s.qb k).entries.length < n then s.ringTake (k - 64) else s

/-- R210: delivery and forwarding of a good frame that is no MAC control frame. -/
def switchFrame (s : State) (n : Nat) (f : EthFrame) : State :=
  let g := ethGroup (s.ethRec n)
  let grove := decide (48 ≤ n ∧ n < 50)
  let cut := (s.port n).cutTo
  let s := if g = 0xFF ∨ grove then s else s.learn g f.src n
  let s := if grove || f.dst == s.portMac n || f.dst == 0xFFFFFFFFFFFF || isMulticast f.dst && s.inLocalFilter n f.dst then s.ringEnter n f else s
  if s.tcStops f then s
  else (s.forwardTo n f).foldl (fun s e => if e ∈ cut then s else s.forward n f e) s

/-- R223: FEC codewords corrected and found uncorrectable while a frame came in, where FEC is on. -/
def fecCount (s : State) (n : Nat) (f : EthFrame) : State :=
  if u8 (portParams (s.ethRec n)) 0 = 0 then s else (s.bumpBy (Reg.portFecCorr n) f.fecCorr).bumpBy (Reg.portFecUncorr n) f.fecUncorr

/-- R209, R210, R319: an Ethernet frame is received whole. -/
def receive (s : State) (n : Nat) (f : EthFrame) : State :=
  if s.ethRec? n = none ∨ !s.linkUp n then s
  else
    let r := s.ethRec n
    let s := s.fecCount n f
    let f := { f with fecCorr := 0, fecUncorr := 0 }
    let done (s : State) : State := s.putPort n { s.port n with cutTo := [] }
    let s := s.cutRest n (decide (f.len < 64 ∨ portMaxFrame r < f.len) || !f.fcsOk)
    if f.len < 64 ∨ portMaxFrame r < f.len then done (s.bump (Reg.portRxLenErr n))
    else if !f.fcsOk then done (s.bump (Reg.portRxFcsErr n))
    else
      let s := (s.bump (Reg.portRxFrames n)).bump64 (Reg.portRxBytesLo n) (Reg.portRxBytesHi n) f.len
      if f.etype = 0x8808 then
        if ofBe (f.payload.take 2) = 1 then s.pauseAct n (ofBe (slice f.payload 2 2))
        else s.bump (Reg.portRxCtrlUnsup n)
      else if (48 ≤ n ∧ n < 50) ∧ f.etype ≠ 0x88B5 ∧ ptpAt f = none then s.bump (Reg.portRxCtrlUnsup n)
      else if (16 ≤ n ∧ n < 48) ∧ (List.range 58).any (fun m => (s.ethRec? m).isSome && s.portMac m == f.src) then
        done (s.bump Reg.cmpRingLoopCnt)
      else done (s.switchFrame n f)

/-- R211: a frame of which `got` bytes have arrived at `i` leaves egress `e` cut-through. -/
def cutOk (s : State) (i e : Nat) (f : EthFrame) (got : Nat) : Bool :=
  ethCtThreshold (s.ethRec i) != 0 && decide (ethCtThreshold (s.ethRec i) ≤ got) && decide (s.rateOf e ≤ s.rateOf i) && (s.port e).untimed.isEmpty &&
  s.lineFree e && s.guardOk e (portMaxFrame (s.ethRec i)) && decide (e ∈ s.forwardTo i f) && s.linkUp i && !s.tcStops f && f.etype != 0x8808

/-- R211, R360: cut-through transmission starts: the entries that have arrived pass through the egress block. -/
def cutStart (s : State) (i e : Nat) (f : EthFrame) (got : Nat) : State :=
  if !s.cutOk i e f got then s
  else
    let s := s.putPort i { s.port i with cutTo := e :: (s.port i).cutTo }
    let c := s.tcCorrect e { ingress := i, frame := f, at_ := s.free }
    let s := c.2.blockThreshold i e
    let l := egressEntries c.1
    let w := min (got / 8) (l.length - 1)
    let s := if s.qbPresent e then s.qbPush e (l.take w) else s
    let s := s.putPort e { s.port e with tx := some { frame := some c.1, ingress := i, len := c.1.len, startedAt := s.free, cut := true, wrote := w } }
    s.emit (.eth e false false (frameBytes c.1))

/-! ### E1.31 packets of the root (R240) -/

/-- A packet of a group with its universe's next sequence leaves untimed. -/
def e131Send (s : State) (rec : Nat) (p : List Byte) : State :=
  let q := s.e131Stamp rec p
  q.2.sendFrame (s.e131Port rec) (s.e131Frame rec q.1)

/-- R240: a universe without a new packet for 1 s repeats its last packet with the next sequence number. -/
def e131RepeatOp (s : State) (univ : Nat) : State :=
  let t := s.e131tx.get ({} : E131Tx) univ
  if t.packet = [] ∨ s.free < t.lastAt + second then s else s.e131Send t.group t.packet

/-- R240: seed deactivation sends each universe three packets with Stream_Terminated set. -/
def e131Terminate (s : State) : State :=
  let s := s.e131tx.foldl (fun s e =>
    if e.1 < 65536 ∧ e.2.packet ≠ [] then [0, 1, 2].foldl (fun s _ => s.e131Send e.2.group (e131Terminated (s.e131tx.get ({} : E131Tx) e.1).packet)) s
    else s) s
  { s with e131tx := [] }

/-! ### T1S segments (R217, R218) -/

/-- Port index of T1S segment `g`. -/
def segPort (g : Nat) : Nat := 50 + g

/-- R217: back-off after attempt `k`: a whole number of slots below 2^min(k, 10). -/
def backoff (s : State) (n k : Nat) : State :=
  let (r, s) := s.draw (2 ^ min k 10)
  s.putPort n { s.port n with backoffEnd := s.free + r * 512 * 100 * 65536 }

/-- The frame on the segment goes back to the front of its class, and its entries to the front of their block. -/
def unsend (s : State) (n : Nat) (t : TxSt) (attempts : Nat) : State :=
  let p := s.port n
  if t.timed then s.setPort n { p with tx := none, attempts := attempts, timed := t.out :: p.timed }
  else
    match t.frame with
    | some f =>
      let s := if s.qbPresent n then s.qbBack n (egressEntries f) else s
      s.setPort n { p with tx := none, attempts := attempts, untimed := { ingress := t.ingress, frame := f, at_ := s.free, stamp := t.stamp } :: p.untimed }
    | none => s.setPort n { p with tx := none, attempts := attempts }

/-- R217: a collision at bit `bit` of the frame. -/
def t1sCollide (s : State) (g bit : Nat) : State :=
  let n := segPort g
  match (s.port n).tx with
  | none => s
  | some t =>
    let s := (s.putPort n { s.port n with carrier := true }).emit (.jam g)
    if 512 ≤ bit then (s.bump (Reg.portLateColl n)).putPort n { s.port n with tx := none, attempts := 0 }
    else
      let k := (s.port n).attempts + 1
      if 16 ≤ k then (s.bump (Reg.portExcessColl n)).putPort n { s.port n with tx := none, attempts := 0 }
      else ((s.bump (Reg.portCollisions n)).unsend n t k).backoff n k

/-- R217, R218: back-off ends. -/
def t1sBackoffEnds (s : State) (g : Nat) : State :=
  let n := segPort g
  if (s.port n).backoffEnd ≤ s.free then
    (s.putPort n { s.port n with backoffEnd := 0 }).chooseNext n
  else s

/-- R217, R218: carrier falls on a segment. -/
def t1sCarrierFalls (s : State) (g : Nat) : State :=
  let n := segPort g
  (s.putPort n { s.port n with carrier := false }).chooseNext n

/-! ### Replies of Stem over UDP (R390, R396) -/

/-- R396: the datagram of a reply to session `k`; a peer below 2^32 has an IPv4 address. -/
def replyFrame (s : State) (k : Nat) (r : Reply) : List Byte :=
  let x := s.stem.sessions.get ({} : Session) k
  s.udpFrame x.via (decide (2 ^ 32 ≤ x.peer)) x.peer (s.fget Reg.StemCtrl.udpPort) x.port (Config.unstated 396 x.peer % 64) (replyBytes r)

/-- The replies of session `k` are taken, and `f` sends each. -/
def sessionSend (s : State) (f : Nat → List Byte → State → State) (k : Nat) : State :=
  let x := s.stem.sessions.get ({} : Session) k
  if x.out.isEmpty then s
  else x.out.foldl (fun s r => f x.via (s.replyFrame k r) s) { s with stem.sessions := s.stem.sessions.set k { x with out := [] } }

/-- R212, R396: the replies of session `k` enter the egress queue of its port. -/
def sessionOut (s : State) (k : Nat) : State := s.sessionSend (fun n l s => s.sendFrame n l) k

/-- R392: what has been replied leaves before a warm reset that follows within 1 ms. -/
def sessionFlush (s : State) : State := [0, 1, 2, 3].foldl (fun s k => s.sessionSend (fun n l s => s.emit (.eth n false false l)) k) s

end State

/-! ### Meanings -/

/-- FRAME_TX_END (R213, R216). -/
def execFrameTxEnd (port : Fin 58) (s : State) : Host.Outcome State Fault Refusal :=
  act s fun s => s.txEnd port

/-- UNTIMED_TRANSMIT (R213). -/
def execUntimedTransmit (port : Fin 58) (s : State) : Host.Outcome State Fault Refusal :=
  act s fun s => s.tryUntimed port

/-- FRAME_RECEIVE (R209, R210, R216, R219, R286, R319). -/
def execFrameReceive (port : Fin 58) (f : EthFrame) (s : State) : Host.Outcome State Fault Refusal :=
  act s fun s => s.receive port f

/-- CUT_THROUGH_START (R211): `got` bytes of the frame have arrived. -/
def execCutThroughStart (ingress egress : Fin 58) (f : FrameHead) (s : State) : Host.Outcome State Fault Refusal :=
  act s fun s => s.cutStart ingress egress f.frame f.got

/-- PAUSE_RECEIVE (R214, R215). -/
def execPauseReceive (port : Fin 58) (time : BitVec 16) (s : State) : Host.Outcome State Fault Refusal :=
  act s fun s =>
    if s.ethRec? port = none ∨ !s.linkUp port then s
    else (((s.bump (Reg.portRxFrames port)).bump64 (Reg.portRxBytesLo port) (Reg.portRxBytesHi port) 64)).pauseAct port time.toNat

/-- PAUSE_TIMER_EXPIRY (R214). -/
def execPauseTimerExpiry (port : Fin 58) (s : State) : Host.Outcome State Fault Refusal :=
  act s fun s => s.pauseExpire port

/-- PAUSE_WATCHDOG_TRIP (R215). -/
def execPauseWatchdogTrip (port : Fin 58) (s : State) : Host.Outcome State Fault Refusal :=
  act s fun s => s.pauseTrip port

/-- PAUSE_REARM (R215). -/
def execPauseRearm (port : Fin 58) (s : State) : Host.Outcome State Fault Refusal :=
  act s fun s => s.rearmWrite port

/-- PAUSE_TX_REPEAT (R216). -/
def execPauseTxRepeat (port : Fin 58) (s : State) : Host.Outcome State Fault Refusal :=
  act s fun s =>
    let p := s.port port
    if p.pausing ≠ [] ∧ p.pauseNext ≤ s.free then
      (s.putPort port { p with pauseNext := s.free + s.pauseHalf port }).sendPause port (ethPauseQuanta (s.ethRec port))
    else s

/-- T1S_COLLISION (R217). -/
def execT1sCollision (seg : Fin 8) (bit : Nat) (s : State) : Host.Outcome State Fault Refusal :=
  act s fun s => s.t1sCollide seg bit

/-- T1S_BACKOFF_EXPIRY (R217, R218). -/
def execT1sBackoffExpiry (seg : Fin 8) (s : State) : Host.Outcome State Fault Refusal :=
  act s fun s => s.t1sBackoffEnds seg

/-- T1S_CARRIER_FALL (R217, R218). -/
def execT1sCarrierFall (seg : Fin 8) (s : State) : Host.Outcome State Fault Refusal :=
  act s fun s => s.t1sCarrierFalls seg

/-- LINK_CHANGE (R220, R318). -/
def execLinkChange (port : Fin 58) (up : Bool) (s : State) : Host.Outcome State Fault Refusal :=
  act s fun s =>
    if s.ethRec? port = none then s
    else (s.putPort port { s.port port with phys := up }).linkApply port

/-- RING_RETURN (R318): at a tree epoch after the link has been up for 1 s. -/
def execRingReturn (port : Fin 58) (s : State) : Host.Outcome State Fault Refusal :=
  act s fun s =>
    if (s.port port).fallback ∧ s.linkUp port ∧ (s.port port).upSince + second ≤ s.free then
      s.putPort port { s.port port with fallback := false }
    else s

/-- PORT_DISABLE (R220). -/
def execPortDisable (port : Fin 58) (disable : Bool) (s : State) : Host.Outcome State Fault Refusal :=
  act s fun s => s.disableWrite port disable

/-- SW_FLUSH (R222). -/
def execSwFlush (s : State) : Host.Outcome State Fault Refusal :=
  act s fun s => s.swFlush

/-- ADDRESS_AGEOUT (R210, R222): an address of a group not learned again for `age_time` ages out; with `age_time` 0 none does. -/
def execAddressAgeout (group : Fin 16) (addr : Nat) (s : State) : Host.Outcome State Fault Refusal :=
  act s fun s =>
    if s.fget Reg.SwCtrl.ageTime = 0 then s
    else
      let old (e : SwEntry) : Bool := decide (e.at_ + s.fget Reg.SwCtrl.ageTime * second ≤ s.free)
      let s := { s with swTable := s.swTable.filter (fun e => !(e.group == group.val && e.addr == addr && old e)) }
      s.fset Reg.SwStatus.entries s.swTable.length

/-- QB_READ (R357, R358, R219). -/
def execQbRead (q : QbId) (s : State) : Host.Outcome State Fault Refusal := act s fun s => s.qbReadNext (qbKey q)

/-- E131_REPEAT (R240). -/
def execE131Repeat (univ : Nat) (s : State) : Host.Outcome State Fault Refusal :=
  act s fun s => s.e131RepeatOp univ

/-- PORT_DATAPATH_FAULT (R318): the check codes fault the port; it is held with its link down. -/
def execPortDatapathFault (port : Fin 58) (s : State) : Host.Outcome State Fault Refusal :=
  act s fun s =>
    if s.ethRec? port = none then s
    else
      let s := s.putPort port { s.port port with faulted := true }
      ((s.linkApply port).beginFallback port).attnLeaf

end Sys2Proof.Machine
end

