-- ==== Sys2Proof/Machine/Stem.lean ====
section
/-! DEFINITION. The Stem host interface: command channels, chunked objects, WATCH, attention and rings (R385 to R400). -/

namespace Sys2Proof.Machine

/-- R384: what the PCIe function of the Premus shows a host: identifiers, class code, link, sizes in bytes and BARs. The Revision ID is
the root die revision, which the spec does not give. -/
structure PcieFunction where
  vendor : BitVec 16 := 0x1F3C
  device : BitVec 16 := 0x0416
  subVendor : BitVec 16 := 0x1F3C
  subsystem : BitVec 16 := 0x0416
  revision : BitVec 8 := BitVec.ofNat 8 (Config.unstated 384 0)
  classCode : BitVec 24 := 0x118000
  gigaTransfers : Nat := 16
  lanes : Nat := 4
  maxPayload : Nat := 512
  maxReadRequest : Nat := 4096
  msi : Bool := false
  msix : Bool := false
  interruptPin : Nat := 0
  bar0 : Nat := 2 ^ 24
  bar2 : Nat := 2 ^ 16
  bars64 : Bool := true
  barsPrefetch : Bool := false
  deriving DecidableEq, Repr

def pcieFunction : PcieFunction := {}

/-- R387: the BAR2 offset of a ring's doorbell. -/
def doorbellAt (r : Nat) : Nat := r * 0x1000

namespace State

/-! ### Channels (R387, R391, R396, R397) -/

/-- A channel that takes commands: a ring that runs, or a session that is open. -/
def chanLive (s : State) (c : Nat) : Bool :=
  if c < 16 then s.fbit (Reg.StemRingStatus.running c) else (s.stem.sessions.get ({} : Session) (c - 16)).openS

/-- Commands of a channel started and not yet replied (R391). -/
def inFlight (s : State) (c : Nat) : Nat := (s.stem.flights.filter (·.chan == c)).length

/-- R391, R425: the next command of a channel may start. -/
def mayStart (s : State) (c : Nat) (fence : Bool) : Bool :=
  !s.fwSwitch && decide (s.inFlight c < 64) && !(fence && decide (0 < s.inFlight c))

/-- R396: a repeated tag of a session is not executed again. -/
def tagSeen (s : State) (c tag : Nat) : Bool :=
  decide (16 ≤ c) && ((s.stem.sessions.get ({} : Session) (c - 16)).replies.any (·.tag == tag) || s.stem.flights.any (fun f => f.chan == c && f.tag == tag))

/-- R421: the opcodes that recovery mode accepts. -/
def recoveryOp (op : Nat) : Bool := [1, 4, 0x10, 0x100, 0x101, 0x103].contains op

/-- R396: what a reply datagram to a session may carry, on the port its datagrams come through. -/
def udpRoom (s : State) (c : Nat) : Nat :=
  let p := (s.stem.sessions.get ({} : Session) (c - 16)).via
  min 8192 (portMaxFrame (s.ethRec p) - 46 - 32)

/-- A command has started (R391). -/
def startCmd (s : State) (c tag op : Nat) (replyErr : Bool) : State :=
  let n := s.stem.started.get 0 c
  let s := { s with stem.flights := s.stem.flights ++ [{ chan := c, tag := tag, opcode := op, index := n, replyErr := replyErr }],
                    stem.started := s.stem.started.set c (n + 1) }
  if c < 16 then s.fset (Reg.StemRingStatus.inFlight c) (s.fget (Reg.StemRingStatus.inFlight c) + 1) else s

/-- A command replies with a completion code and nothing else. -/
def done (s : State) (h : StemHdr) (op code : Nat) : State := s.reply h.chan h.tag op code [] [] false

/-- R444: a command is refused before its own effect; a life-cycle command writes an event and raises ATTN_FAULT. -/
def refuse (s : State) (h : StemHdr) (op code : Nat) : State :=
  (if op / 4 = 0x80 then (s.rootEvent 0x130000 code 0 []).attnFault else s).done h op code

/-- R388: the command is of a ring and a PCIe error meets the transfer of its `buffer`: payload or read data that `params` or
`result` do not hold. -/
def bufferFails (h : StemHdr) (op len : Nat) : Bool :=
  h.bufferErr && decide (h.chan.val < 16) && decide ((if op = 0x10 ∨ op = 0x11 then 8 else 0) < len)

/-- R391, R392, R396, R421, R446: what every command goes through before its own effect `f`, which replies or leaves the command
in flight. `len` is its payload or its read data; `i` is the command, for the wait. -/
def stemCmd (s : State) (h : StemHdr) (op len : Nat) (read : Bool) (i : Instr) (f : State → State) : State :=
  if !s.chanLive h.chan || s.tagSeen h.chan h.tag then s
  else if s.stem.stemWait.any (·.1 == h.chan.val) || !s.mayStart h.chan h.fence then { s with stem.stemWait := s.stem.stemWait ++ [(h.chan.val, h.fence, i)] }
  else
    let s := s.startCmd h.chan h.tag op h.replyErr
    if h.rsvd then s.refuse h op 0x0102
    else if s.fbit Reg.TreeReady.recovery && !recoveryOp op then s.refuse h op 0x0210
    else if s.fget Reg.LifeState.state = 4 ∧ ! [4, 0x10, 0x210].contains op then s.refuse h op 0x010C
    else if 65536 < len ∨ (16 ≤ h.chan.val ∧ (8192 < len ∨ read ∧ s.udpRoom h.chan < len)) then s.refuse h op 0x0105
    else if bufferFails h op len then (s.ringStop h.chan (Reg.StemRingStatus.dmaErr h.chan)).refuse h op 0x0106
    else f s

/-- R388: the ring stops of this cycle raise ATTN_FAULT. -/
def stopTick (s : State) : State := if s.stem.stopped.isEmpty then s else { s with stem.stopped := [] }.attnFault

/-- R391: the waiting commands of every channel whose first may start are put to the queue again, in their order. -/
def stemTick (s : State) : State :=
  if s.stem.stemWait.isEmpty then s
  else
    let go (c : Nat) : Bool := match s.stem.stemWait.find? (·.1 == c) with | some w => s.mayStart c w.2.1 | none => false
    { s with pending := s.pending ++ (s.stem.stemWait.filter (fun w => go w.1)).map (·.2.2), stem.stemWait := s.stem.stemWait.filter (fun w => !go w.1) }

/-- A channel ends: what it has in progress is dropped (R387, R396). -/
def chanDrop (s : State) (c : Nat) : State :=
  let s := { s with stem.flights := s.stem.flights.filter (fun f => f.chan != c), stem.watches := s.stem.watches.erase c,
                    stem.stemWait := s.stem.stemWait.filter (fun w => w.1 != c), stem.chunks := s.stem.chunks.filter (fun k => k.2.chan != c) }
  if c < 16 then s.fset (Reg.StemRingStatus.inFlight c) 0 else s

/-! ### Chunked objects (R395) -/

/-- One chunk of an object of opcode `op`; `take` runs when the last byte arrives, and replies. -/
def chunkIn (s : State) (h : StemHdr) (op : Nat) (c : Chunk) (take : List Byte → State → State) : State :=
  let keep (s : State) (l : List Byte) : State :=
    if c.objLen < l.length then ({ s with stem.chunks := s.stem.chunks.erase op }).done h op 0x010A
    else if l.length = c.objLen then take l { s with stem.chunks := s.stem.chunks.erase op }
    else ({ s with stem.chunks := s.stem.chunks.set op { chan := h.chan, objLen := c.objLen, data := l } }).done h op 0
  match s.stem.chunks.find? op with
  | some o =>
    if o.chan ≠ h.chan.val then s.done h op (if c.off = 0 then 0x010B else 0x010A)
    else if c.off = 0 then keep s c.data
    else if c.off = o.data.length ∧ c.objLen = o.objLen then keep s (o.data ++ c.data)
    else ({ s with stem.chunks := s.stem.chunks.erase op }).done h op 0x010A
  | none => if c.off = 0 then keep s c.data else s.done h op 0x010A

/-! ### WATCH and attention (R397, R398) -/

/-- R398: a WATCH of a channel. -/
def watchOp (s : State) (h : StemHdr) (mask expected timeout : Nat) : State :=
  let c := h.chan.val
  let s := match s.stem.watches.find? c with | some w => s.watchReply c w 0x0109 | none => s
  let w : Watch := { tag := h.tag, mask := mask, expected := expected, start := s.attnWord c, deadline := s.free + timeout * 1000000 * 65536 }
  let s := { s with stem.watches := s.stem.watches.set c w }
  if s.watchMet c w then s.watchReply c w 0
  else if timeout = 0 then s.watchReply c w 1
  else s

/-- R398: the timeout of a held WATCH has passed. -/
def watchExpire (s : State) (c : Nat) : State :=
  match s.stem.watches.find? c with
  | some w => if w.deadline ≤ s.free then s.watchReply c w 1 else s
  | none => s

/-- R4, R397: bits of a channel's word are cleared, but for those raised in this cycle. -/
def attnClear (s : State) (c mask : Nat) : State :=
  let raised := s.cyc.sets.get 0 (Reg.stemAttn c) / 65536
  let m := s.attnWord c &&& mask
  (s.fset (Reg.StemAttn.attn c) (s.attnWord c - (m - (m &&& raised)))).watchCheck

/-! ### Rings (R387, R388) -/

def ringCmd (s : State) (r : Nat) : Nat × Nat := (s.regN (Reg.stemRingCmdLo r) + 2 ^ 32 * s.regN (Reg.stemRingCmdHi r), s.fget (Reg.StemRingCfg.entries r) * 64)
def ringReply (s : State) (r : Nat) : Nat × Nat := (s.regN (Reg.stemRingReplyLo r) + 2 ^ 32 * s.regN (Reg.stemRingReplyHi r), s.fget (Reg.StemRingCfg.entries r) * 32)

/-- Two areas of memory have an address in common. -/
def overlap (a b : Nat × Nat) : Bool := decide (a.1 < b.1 + b.2) && decide (b.1 < a.1 + a.2)

/-- R387: the enable check of a ring; the areas' registers hold no bits below 4 KiB. -/
def ringCheck (s : State) (r : Nat) : Bool :=
  let n := s.fget (Reg.StemRingCfg.entries r)
  [16, 32, 64, 128, 256, 512, 1024, 2048, 4096].contains n &&
    !(List.range 16).any (fun q => s.fbit (Reg.StemRingCfg.enable q) && (overlap (s.ringReply r) (s.ringCmd q) || overlap (s.ringReply r) (s.ringReply q)))

/-- R387: a write of 1 to `enable`. -/
def ringOn (s : State) (r : Nat) : State :=
  if s.fbit (Reg.StemRingCfg.enable r) then s
  else if s.ringCheck r then
    let s := (s.fset (Reg.StemRingCfg.enable r) 1).fset (Reg.StemRingStatus.running r) 1
    let s := ((s.fset (Reg.StemRingHead.head r) 0).chanDrop r).fset (Reg.StemAttn.attn r) 0
    { s with stem.started := s.stem.started.erase r }
  else s.fset (Reg.StemRingStatus.cfgErr r) 1

/-- R387: `enable` is cleared. -/
def ringOff (s : State) (r : Nat) : State :=
  ((s.fset (Reg.StemRingCfg.enable r) 0).fset (Reg.StemRingStatus.running r) 0).chanDrop r

/-- R388: a doorbell; a PCIe error may meet a fetch. -/
def doorbell (s : State) (r count : Nat) (err : Bool) : State :=
  if !s.fbit (Reg.StemRingStatus.running r) then s
  else
    let n := (count + 65536 - s.fget (Reg.StemRingHead.head r)) % 65536
    if s.fget (Reg.StemRingCfg.entries r) < n then
      s.ringStop r (Reg.StemRingStatus.doorbellErr r)
    else if err && n != 0 then s.ringStop r (Reg.StemRingStatus.dmaErr r)
    else s.fset (Reg.StemRingHead.head r) count

/-! ### Stem over UDP (R396) -/

/-- R433: the peers that the settings list: 16 bytes each after `STEM_CTRL` (PRESUMED). -/
def stemPeers (s : State) : List Nat :=
  match s.setting 6 with
  | some v => (records ((v.length - 4) / 16) 16 (v.drop 4)).map ofLe
  | none => []

/-- `sessions` counts the open sessions. -/
def putSession (s : State) (k : Nat) (x : Session) : State :=
  let s := { s with stem.sessions := s.stem.sessions.set k x }
  s.fset Reg.StemStatus.sessions ((List.range 4).filter (fun k => (s.stem.sessions.get ({} : Session) k).openS)).length

/-- R396: a datagram. The command it carries follows as a command of its own unless its tag is repeated. -/
def datagram (s : State) (via peer port tag : Nat) (csumZero lengthOk : Bool) : State :=
  if !s.fbit Reg.StemCtrl.udpEn || s.fbit Reg.TreeReady.recovery then s
  else if !s.stemPeers.contains peer || csumZero || !lengthOk then s.bump Reg.stemUdpDrop
  else
    let at_ (k : Nat) : Session := s.stem.sessions.get ({} : Session) k
    match (List.range 4).find? (fun k => (at_ k).openS && (at_ k).peer == peer && (at_ k).port == port) with
    | some k =>
      let x : Session := { at_ k with last := s.free, via := via }
      s.putSession k (match x.replies.find? (·.tag == tag) with | some r => { x with out := x.out ++ [r] } | none => x)
    | none =>
      match (List.range 4).find? (fun k => !(at_ k).openS) with
      | some k => (s.putSession k { peer := peer, port := port, openS := true, last := s.free, via := via }).fset (Reg.StemAttn.attn (16 + k)) 0
      | none => s.bump Reg.stemUdpDrop

/-- R396: a session ends after 60 s without a datagram. -/
def sessionEnd (s : State) (k : Nat) : State :=
  let x := s.stem.sessions.get ({} : Session) k
  if x.openS ∧ x.last + 60 * second ≤ s.free then (s.putSession k {}).chanDrop (16 + k) else s

/-- R385: a write of a window register: register ranges, the ring record and DRAM may be named. -/
def winWrite (s : State) (k : Nat) (v : Word) : State :=
  let b := v.toNat % 2 ^ 18 * 2 ^ 22
  let ok := b < 0x5000000 || decide (0x1000000000 ≤ b ∧ b < 0x2100000000)
  if ok then s.setRegN (Reg.stemWin k) (v.toNat / 2 ^ 31 * 2 ^ 31 + v.toNat % 2 ^ 18) else s.fset Reg.StemStatus.winRefused 1

end State

/-! ### Meanings -/

/-- NOP (R392). -/
def execNop (h : StemHdr) (s : State) : Host.Outcome State Fault Refusal :=
  act s fun s => s.stemCmd h 1 0 false (.nop h) fun s => s.done h 1 0

/-- WATCH (R398): a timeout above 60,000 is a reserved value. -/
def execWatch (h : StemHdr) (mask expected : BitVec 16) (timeoutMs : Nat) (s : State) : Host.Outcome State Fault Refusal :=
  act s fun s => s.stemCmd h 2 0 false (.watch h mask expected timeoutMs) fun s =>
    if 60000 < timeoutMs then s.done h 2 0x0102 else s.watchOp h mask.toNat expected.toNat timeoutMs

/-- WATCH_EXPIRED (R398). -/
def execWatchExpired (c : Fin 20) (s : State) : Host.Outcome State Fault Refusal := act s fun s => s.watchExpire c

/-- ATTN_ACK (R392, R397). -/
def execAttnAck (h : StemHdr) (mask : BitVec 16) (s : State) : Host.Outcome State Fault Refusal :=
  act s fun s => s.stemCmd h 3 0 false (.attnAck h mask) fun s => (s.attnClear h.chan mask.toNat).done h 3 0

/-- STEM_OPCODE (R392): a command with an undefined opcode. -/
def execStemOpcode (h : StemHdr) (opcode : BitVec 16) (s : State) : Host.Outcome State Fault Refusal :=
  act s fun s => s.stemCmd h opcode.toNat 0 false (.stemOpcode h opcode) fun s => s.done h opcode.toNat 0x0101

/-- RING_ENABLE (R387, R397). -/
def execRingEnable (r : Fin 16) (s : State) : Host.Outcome State Fault Refusal := act s fun s => s.ringOn r

/-- RING_DOORBELL (R388). -/
def execRingDoorbell (r : Fin 16) (d : Doorbell) (s : State) : Host.Outcome State Fault Refusal :=
  act s fun s => s.doorbell r d.count.toNat d.fetchErr

/-- STEM_UDP_DATAGRAM (R396): a datagram that came through Ethernet port `port`. -/
def execStemUdpDatagram (peer : UdpPeer) (srcPort tag : Nat) (csumZero lengthOk : Bool) (s : State) : Host.Outcome State Fault Refusal :=
  act s fun s => s.datagram peer.port peer.addr srcPort tag csumZero lengthOk

/-- STEM_SESSION_TIMEOUT (R396). -/
def execStemSessionTimeout (session : Fin 4) (s : State) : Host.Outcome State Fault Refusal := act s fun s => s.sessionEnd session

/-- STEM_WIN_WRITE (R385): windows 1 to 3. -/
def execStemWinWrite (k : Fin 3) (v : Word) (s : State) : Host.Outcome State Fault Refusal := act s fun s => s.winWrite (k + 1) v

end Sys2Proof.Machine
end

