-- ==== Sys2Proof/Machine/Graft.lean ====
section
/-! DEFINITION. The graft bridge: transactions, prefetch and windfall buffers, and what completes a transaction (R363 to R376).
The RDM message format is that of ANSI E1.20 (PRESUMED). -/

namespace Sys2Proof.Machine

/-! ### RDM messages (R244, ANSI E1.20) -/

/-- An E1.20 request with its checksum: destination, source, transaction number, command class, parameter and data. -/
def rdmMessage (dst src tn cc pid : Nat) (pd : List Byte) : List Byte :=
  let m := [0xCC, 0x01, BitVec.ofNat 8 (24 + pd.length)] ++ beBytes 6 dst ++ beBytes 6 src ++ beBytes 1 tn ++ [0x01, 0x00, 0x00, 0x00] ++
    beBytes 1 cc ++ beBytes 2 pid ++ beBytes 1 pd.length ++ pd
  m ++ beBytes 2 (m.foldl (fun a b => a + b.toNat) 0)

/-- The UID the Premus sends from, which is stated nowhere. -/
def rdmSource : Nat := Config.unstated 244 0 % 2 ^ 48

namespace State

/-- R244: a request joins those of DMX512 port `n`. -/
def rdmAsk (s : State) (n : Nat) (q : RdmReq) (dst cc pid : Nat) (pd : List Byte) : State :=
  let d : DmxSt := s.dmx.get {} n
  let q := { q with data := rdmMessage dst rdmSource (d.tn % 256) cc pid pd, asked := s.free }
  { s with dmx := s.dmx.set n { d with rdmQ := d.rdmQ ++ [q], tn := d.tn + 1 } }

/-! ### Paths (R364, R365, R372) -/

/-- R364: the grove position of another tree that an initiator addresses. -/
def graftRemote (s : State) (i : Nat) : Option Nat :=
  let p := s.fget (Reg.GraftSel.position i)
  if s.fbit (Reg.GraftSel.remote i) ∧ p ≠ s.grovePos then some p else none

/-- R365: the path to a leaf of this tree. -/
inductive GraftPath where
  | none
  | leafcast (port dest : Nat)
  | rdm (port uid : Nat)
  deriving DecidableEq, Repr

/-- R365: what the leaf's protocol and port give. -/
def graftPath (s : State) (leaf : Nat) : GraftPath :=
  if s.leafCount ≤ leaf then .none
  else
    let r := s.leafRec leaf
    let p := s.portRec (leafPort r)
    let dest := u32 (leafAddress r) 0
    if leafProtocol r = 1 then
      if u8 (slice (portParams p) 0x12 6) 2 = 0 ∧ 0 < dest / 2 ^ 24 ∧ dest / 2 ^ 24 < 224 then
        .leafcast (portIndex (portKind p) (portNumber p)) dest
      else .none
    else if leafProtocol r = 3 ∧ u8 (portParams p) 1 = 1 then
      match (s.dmx.get ({} : DmxSt) (portNumber p)).found.find? (·.2 == u16 (leafAddress r) 0) with
      | some e => .rdm (portNumber p) e.1
      | none => .none
    else .none

/-- The leaf is reached by RDM. -/
def graftRdm (s : State) (leaf : Nat) : Bool := decide (leaf < s.leafCount) && leafProtocol (s.leafRec leaf) == 3

/-- R363, R369: the length and range check. -/
def graftAlign (s : State) (x : GraftTx) : Bool :=
  let far := match x.replyTo with | .tree _ _ => true | _ => false
  let zero := x.write && x.length == 0 && (x.init == 0 || far) && (x.remote.isSome || s.graftRdm x.leaf)
  (decide (1 ≤ x.length) || zero) && decide (x.length ≤ 256) && decide (x.offset + x.length ≤ 0x40000) &&
    !(x.remote.isNone && s.graftRdm x.leaf && x.offset % 4 != 0)

/-- R372: a read lies in a `sef` range. -/
def sefRange (s : State) (leaf off len : Nat) : Bool :=
  let rdm := s.graftRdm leaf
  (List.range 16).any fun r =>
    let p := s.fget (Reg.GraftAttr.protocol r)
    s.fbit (Reg.GraftAttr.enable r) && s.fbit (Reg.GraftAttr.sef r) && (p == 2 || p == (if rdm then 1 else 0)) &&
      decide (s.fget (Reg.GraftAttr.first r) * 64 ≤ off) && decide (off + (if rdm then 1 else len) ≤ s.fget (Reg.GraftAttr.last r) * 64 + 64)

/-- R372, R373: a read may fetch more than it asks for. -/
def sefHit (s : State) (leaf off len : Nat) : Bool := !s.bridge.attrWrong.contains leaf && s.sefRange leaf off len

/-! ### The transaction tables (R367) -/

/-- The transactions change; the entries held show in `GRAFT_STATUS`. -/
def putGrafts (s : State) (l : List GraftTx) : State :=
  let held (t : Nat) : Nat := (l.filter (fun x => x.phase != 0 && x.tables.contains t)).length
  (({ s with bridge.grafts := l }.fset Reg.GraftStatus.inFlightA (held 0)).fset Reg.GraftStatus.inFlightB (held 1)).fset Reg.GraftStatus.inFlightRoot (held 2)

/-- One transaction changes. -/
def putGraft (s : State) (x : GraftTx) : State := s.putGrafts (s.bridge.grafts.map fun y => if y.tag = x.tag then x else y)

def graftOf (s : State) (tag : Nat) : Option GraftTx := s.bridge.grafts.find? (·.tag == tag)

/-! ### Prefetch and windfall (R372 to R374) -/

/-- R374, R480: a windfall entry is delivered (0), expires (1) or is displaced (2). -/
def windfallEvent (s : State) (w : Fetched) (outcome init : Nat) : State :=
  s.rootEvent 0xE0000 0x0850 0 (leBytes 1 outcome ++ leBytes 1 init ++ leBytes 1 s.grovePos ++ leBytes 4 w.leaf ++ leBytes 4 w.offset ++ leBytes 2 w.data.length)

/-- The windfall buffer changes. -/
def putWindfalls (s : State) (l : List Fetched) : State := { s with bridge.windfalls := l }.fset Reg.GraftStatus.windfallFill l.length

/-- R374: a windfall entry is dropped. -/
def windfallLost (s : State) (w : Fetched) (outcome : Nat) : State := (s.bump Reg.graftWindfallDrop).windfallEvent w outcome w.init

/-- R374: an entry enters the windfall buffer; the oldest of a full buffer is dropped. -/
def windfallIn (s : State) (w : Fetched) : State :=
  let w := { w with expires := s.free + 1000000 * 65536, used := [] }
  match s.bridge.windfalls with
  | o :: r => if 16 ≤ s.bridge.windfalls.length then (s.windfallLost o 2).putWindfalls (r ++ [w]) else s.putWindfalls (s.bridge.windfalls ++ [w])
  | [] => s.putWindfalls [w]

/-- The runs of bytes that no read has consumed: offset from the start, and bytes. -/
def freshRuns : List Byte → List Bool → Nat → List (Nat × List Byte)
  | [], _, _ => []
  | b :: l, u, o =>
    let r := freshRuns l (u.drop 1) (o + 1)
    if u.headD false then r
    else match r with
      | (p, x) :: t => if p = o + 1 then (o, b :: x) :: t else (o, [b]) :: r
      | [] => [(o, [b])]

/-- R374: an entry leaves the prefetch buffer. -/
def prefetchOut (s : State) (e : Fetched) : State :=
  if !e.effect then s
  else (freshRuns e.data e.used 0).foldl (fun s p => s.windfallIn { e with offset := if e.whole then e.offset else e.offset + p.1, data := p.2 }) s

/-- R372: the entries that match leave the prefetch buffer. -/
def prefetchDrop (s : State) (p : Fetched → Bool) : State :=
  (s.bridge.prefetch.filter p).foldl prefetchOut { s with bridge.prefetch := s.bridge.prefetch.filter (fun e => !p e) }

/-- R372: an entry of 1 ms enters the prefetch buffer; the oldest of a full buffer leaves it. -/
def prefetchIn (s : State) (e : Fetched) : State :=
  if e.data.isEmpty then s
  else
    let e := { e with expires := s.free + 1000000 * 65536 }
    match s.bridge.prefetch with
    | o :: r => if 32 ≤ s.bridge.prefetch.length then ({ s with bridge.prefetch := r ++ [e] }).prefetchOut o else { s with bridge.prefetch := s.bridge.prefetch ++ [e] }
    | [] => { s with bridge.prefetch := [e] }

/-- R372: a read lies wholly inside an entry. -/
def fetchedHolds (e : Fetched) (leaf off len : Nat) : Bool :=
  e.leaf == leaf && (if e.whole then off == e.offset && decide (len ≤ e.data.length)
    else decide (e.offset ≤ off) && decide (off + len ≤ e.offset + e.data.length))

/-- `n` bytes from `o` are consumed. -/
def consume (u : List Bool) (n o len : Nat) : List Bool :=
  (List.range n).map fun i => u.getD i false || decide (o ≤ i) && decide (i < o + len)

/-- WINDFALL_EXPIRY (R374). -/
def windfallAge (s : State) : State :=
  let old := s.bridge.windfalls.filter (fun w => decide (w.expires ≤ s.free))
  old.foldl (fun s w => s.windfallLost w 1) (s.putWindfalls (s.bridge.windfalls.filter (fun w => !decide (w.expires ≤ s.free))))

/-- PREFETCH_EXPIRY (R372). -/
def prefetchAge (s : State) : State := s.prefetchDrop fun e => decide (e.expires ≤ s.free)

/-! ### Completion (R366, R368, R369) -/

/-- R369: the counters, `GRAFT_LAST` and the event of an outcome other than success. -/
def graftFail (s : State) (x : GraftTx) (code reason : Nat) : State :=
  let s := (s.fset Reg.GraftLast.code code).fset Reg.GraftLast.reason reason
  let s := if code = 0x0601 then (s.bump Reg.graftTimeoutCnt).fset Reg.GraftStatus.timeout 1 else s
  let s := if code = 0x0603 then s.bump Reg.graftNackCnt else s
  let s := s.rootEvent 0xE0000 code 0 (leBytes 4 x.leaf ++ leBytes 4 x.offset ++ leBytes 2 x.length)
  if 2 ≤ x.init ∧ x.init < 8 then s.attnBridge else s

/-- R375: the payload of a GRAFT grove link message. -/
def graftBytes (op status tag leaf offset length : Nat) (data : List Byte) : List Byte :=
  beBytes 1 op ++ [0] ++ beBytes 2 status ++ beBytes 4 tag ++ beBytes 3 leaf ++ [0] ++ beBytes 4 offset ++ beBytes 2 length ++ [0, 0] ++ data

/-- R375: a GRAFT grove link message. -/
def sendGraft (s : State) (dst op status tag leaf offset length : Nat) (data : List Byte) : State :=
  s.sendGrove 0x10 dst (graftBytes op status tag leaf offset length data)

/-- R366, R368: the outcome reaches whoever asked; a read's data is padded with 0 (R365). -/
def graftDeliver (s : State) (x : GraftTx) (code : Nat) (data : List Byte) (windfall : Bool) : State :=
  let d := if code = 0 && !x.write then (data ++ List.replicate x.length 0).take x.length else []
  match x.replyTo with
  | .stem c tag op =>
    if s.stem.flights.any (fun f => f.chan == c && f.tag == tag) then
      if d.length ≤ 8 then s.reply c tag op code d [] windfall else s.reply c tag op code [] d windfall
    else s
  | .init => { s.nextTag with bridge.graftOut := s.bridge.graftOut ++ [{ init := x.init, tables := x.tables, code := code, data := d, windfall := windfall }] }
  | .tree p tag => s.sendGraft p (if x.write then 4 else 3) code tag x.leaf x.offset x.length d

/-- R366: a transaction completes. -/
def graftEnd (s : State) (x : GraftTx) (code reason : Nat) (data : List Byte) (windfall : Bool) : State :=
  let s := s.putGrafts (s.bridge.grafts.filter (·.tag != x.tag))
  let s := if code = 0 then s else s.graftFail x code reason
  s.graftDeliver x code data windfall

/-! ### Issue (R364 to R367, R370 to R376) -/

/-- R370, R371: the graft frame of a request. -/
def graftFrame (s : State) (x : GraftTx) (again : Bool) : List Byte :=
  let m := [0x01] ++ beBytes 1 (if x.write then 2 else 1) ++ beBytes 2 (s.sd.treeId s.grovePos) ++ beBytes 4 x.tag ++ beBytes 3 x.leaf ++
    [if again then 2 else 0] ++ beBytes 3 (x.fetch.getD (x.offset, x.length)).1 ++ [0] ++ beBytes 2 (x.fetch.getD (x.offset, x.length)).2 ++ [0, 0] ++
    (if x.write then x.data else [])
  m ++ beBytes 4 (crc32c (beBytes 4 x.leaf ++ m))

/-- R212, R370: a graft frame to a Leafcast leaf leaves untimed through its port. -/
def graftSend (s : State) (port leaf : Nat) (l : List Byte) : State :=
  let r := s.leafRec leaf
  s.sendFrame port (s.leafFrame port (s.portRec (leafPort r)) (leafAddress r) 1 l)

/-- A request that an issue serves takes an entry; a re-issue (R376) is the same transaction. -/
def graftHeld (s : State) (x : GraftTx) : State :=
  let t := s.putGraft { x with phase := 1, issuedAt := if x.aborts = 0 then s.free else x.issuedAt, sentAt := s.free, copies := x.copies + 1 }
  if x.aborts = 0 then t.bump Reg.graftReqCnt else t

/-- R375: the requester of an inbound request hears that it is issued. -/
def graftIssued (s : State) (x : GraftTx) : State :=
  match x.replyTo with
  | .tree p tag => s.sendGraft p 5 0 tag x.leaf x.offset x.length []
  | _ => s

/-- R365 to R376: a transaction whose turn has come: the windfall and prefetch buffers serve it, or it is issued. -/
def graftIssue (s : State) (x : GraftTx) : State :=
  match x.remote with
  | some p => (s.graftHeld x).sendGraft p (if x.write then 2 else 1) 0 x.tag x.leaf x.offset x.length (if x.write then x.data else [])
  | none =>
    let s := (s.graftIssued x).prefetchAge.windfallAge
    let win := if x.write then none else s.bridge.windfalls.find? fun w => w.leaf == x.leaf && w.offset == x.offset
    let pre := if x.write then none else s.bridge.prefetch.find? fun e => fetchedHolds e x.leaf x.offset x.length
    match win, pre with
    | some w, _ =>
      let s := (s.putWindfalls (s.bridge.windfalls.erase w)).bump Reg.graftWindfallCnt
      (s.windfallEvent w 0 x.init).graftEnd x 0 0 w.data true
    | none, some e =>
      let o := if e.whole then 0 else x.offset - e.offset
      let s := { s with bridge.prefetch := s.bridge.prefetch.map fun y => if y = e then { e with used := consume e.used e.data.length o x.length } else y }
      (s.bump Reg.graftPrefetchHit).graftEnd x 0 0 (slice e.data o x.length) false
    | none, none =>
      let s := if x.write then s.prefetchDrop (·.leaf == x.leaf) else s
      match s.graftPath x.leaf with
      | .none => s.graftEnd x 0x0602 0 [] false
      | .leafcast port _ =>
        let one := x.offset / 256 == (x.offset + x.length - 1) / 256
        let x := { x with fetch := if !x.write && one && s.sefHit x.leaf x.offset x.length then some (x.offset / 256 * 256, 256) else none }
        (s.graftHeld x).graftSend port x.leaf (s.graftFrame x false)
      | .rdm port uid =>
        let x := { x with fetch := if !x.write && s.sefHit x.leaf x.offset x.length then some (x.offset, 0) else none }
        (s.graftHeld x).rdmAsk port { origin := 1, tag := x.tag } uid (if x.write then 0x30 else 0x20) (x.offset / 4) (if x.write then x.data else [])

/-- R366, R367, R376: the turn of a waiting transaction has come: its tables have room, its leaf has none at the bridge, and an
inbound request finds the near bus free. -/
def graftMay (s : State) (x : GraftTx) : Bool :=
  let held (t : Nat) : Nat := (s.bridge.grafts.filter (fun y => y.phase != 0 && y.tables.contains t)).length
  let ahead := (s.bridge.grafts.takeWhile (fun y => y.tag != x.tag)).any (fun y => y.remote == x.remote && y.leaf == x.leaf)
  let inbound := match x.replyTo with | .tree _ _ => true | _ => false
  x.phase == 0 && !ahead && x.tables.all (fun t => decide (held t < 64)) &&
    !(inbound && s.bridge.grafts.any (fun y => y.remote.isSome && y.phase == 1))

/-- Every transaction whose turn has come starts, at most `n` of them, in the order in which they arrived. -/
def graftPump : Nat → State → State
  | 0, s => s
  | n + 1, s =>
    match s.bridge.grafts.find? s.graftMay with
    | some x => graftPump n (s.graftIssue x)
    | none => s

/-- The bridge goes on. -/
def graftGo (s : State) : State := graftPump (2 * s.bridge.grafts.length) s

/-- R366: a transaction completes, and those that waited for it may start. -/
def graftDone (s : State) (x : GraftTx) (code reason : Nat) (data : List Byte) (windfall : Bool) : State :=
  (s.graftEnd x code reason data windfall).graftGo

/-- R363 to R367: a request is checked and joins those that wait. -/
def graftSubmit (s : State) (x : GraftTx) : State :=
  let x := { x with tag := s.bridge.graftTag % 2 ^ 32 }
  let s := { s with bridge.graftTag := s.bridge.graftTag + 1 }
  let noTree := x.remote.any fun p => !s.sd.isGrove || (s.sd.groveRec p).isEmpty
  let code := if !s.graftAlign x then 0x0604 else if noTree then 0x0602
    else match x.remote, s.graftPath x.leaf with | none, .none => 0x0602 | _, _ => 0
  if code ≠ 0 then (s.graftFail x code 0).graftDeliver x code [] false
  else (s.putGrafts (s.bridge.grafts ++ [x])).graftGo

/-! ### Answers -/

/-- R373: a fetch in a `sef` range had a side effect: no further prefetch for the leaf. -/
def sefWrong (s : State) (leaf : Nat) : State :=
  ({ s with bridge.attrWrong := leaf :: s.bridge.attrWrong.filter (· != leaf) }.flag Reg.GraftStatus.attrWrong 0).attnBridge

/-- R371 to R373: a READ_RSP brings the bytes of the request and those fetched beyond it. -/
def graftRead (s : State) (x : GraftTx) (data : List Byte) (effect : Bool) : State :=
  let rdm := s.graftRdm x.leaf
  let effect := effect || rdm && x.offset / 4 == 0x20
  let s := if effect && s.sefRange x.leaf x.offset x.length then s.sefWrong x.leaf else s
  match x.fetch with
  | none => s.graftDone x 0 0 data false
  | some (o, _) =>
    let e : Fetched := { leaf := x.leaf, offset := o, init := x.init, data := data, effect := effect }
    if rdm then
      let s := if x.length < data.length then s.prefetchIn { e with whole := true, used := consume [] data.length 0 x.length } else s
      s.graftDone x 0 0 data false
    else
      let k := x.offset - o
      let s := s.prefetchIn { e with data := data.take k }
      let s := s.prefetchIn { e with offset := x.offset + x.length, data := data.drop (k + x.length) }
      s.graftDone x 0 0 (slice data k x.length) false

/-- R366: an RDM transaction of the bridge ends: an ACK with its parameter data, a NACK with its reason, or another code. -/
def graftRdmEnd (s : State) (tag code : Nat) (ack : Bool) (data : List Byte) : State :=
  match s.graftOf tag with
  | none => s
  | some x =>
    if code ≠ 0 then s.graftDone x code 0 [] false
    else if !ack then s.graftDone x 0x0603 (ofBe (data.take 2)) [] false
    else if x.write then s.graftDone x 0 0 [] false
    else s.graftRead x data false

/-- R368: the copies whose second has not come within the CMP `window` are issued alone. -/
def graftWindow (s : State) : State :=
  let w := s.fget Reg.CmpCtrl.window * 65536000
  let late := s.bridge.graftCopies.filter (fun c => decide (c.at_ + w ≤ s.free))
  late.foldl (fun s c => { s with bridge.graftSolo := s.bridge.graftSolo ++ [(1 - c.trunk, c.tx.init, c.count)] }.graftSubmit c.tx)
    { s with bridge.graftCopies := s.bridge.graftCopies.filter (fun c => !decide (c.at_ + w ≤ s.free)) }

end State

end Sys2Proof.Machine
end

