-- ==== Sys2Proof/Machine/Dmx.lean ====
section
/-! DEFINITION. DMX512 ports: frames, repeats, supersession, the RDM controller, inputs and tunnels (R242 to R247, R377,
R378). Discovery goes through the steps of ANSI E1.20 (PRESUMED). -/

namespace Sys2Proof.Machine

/-! ### Seed fields (R242) -/

def dmxInput (r : List Byte) : Bool := u8 (portParams r) 0 == 1
def dmxRdm (r : List Byte) : Bool := u8 (portParams r) 1 == 1
def dmxBreak (r : List Byte) : Nat := orDefault (u16 (portParams r) 2) 0 176
def dmxMab (r : List Byte) : Nat := orDefault (u16 (portParams r) 4) 0 16
def dmxSlots (r : List Byte) : Nat := orDefault (u16 (portParams r) 6) 0 512
/-- Repeat interval in ms; 0xFFFF is none. -/
def dmxRepeatMs (r : List Byte) : Nat := orDefault (u16 (portParams r) 8) 0 25

/-- A microsecond in 2^-16 ns. -/
def usRaw : Nat := 65536000

namespace State

def dmxSt (s : State) (n : Nat) : DmxSt := s.dmx.get {} n

/-- The PORTS record of DMX512 port `n`; none where PORTS does not list it. -/
def dmxRec? (s : State) (n : Nat) : Option Nat := s.portOf? 6 n
def dmxRec (s : State) (n : Nat) : List Byte := match s.dmxRec? n with | some i => s.portRec i | none => []

/-- The port's state changes; `sending`, `rdm_busy` and `disc_busy` follow. -/
def putDmx (s : State) (n : Nat) (d : DmxSt) : State :=
  let s := { s with dmx := s.dmx.set n d }
  let s := s.fsetB (Reg.DmxStatus.sending n) d.cur.isSome
  s.fsetB (Reg.DmxStatus.rdmBusy n) d.rdm.isSome

/-- R52, R243: a timed frame reaches the port's launch queue; past its limit it is dropped and counted. -/
def enqueueDmx (s : State) (n : Nat) (f : OutFrame) : State :=
  if s.pastLimit f then s.putDmx n { s.dmxSt n with dropN := (s.dmxSt n).dropN + 1 }
  else s.putDmx n { s.dmxSt n with queue := insertLaunch { f with late := s.lateNow f } (s.dmxSt n).queue }

def supersede (s : State) (n k : Nat) : State :=
  if k = 0 then s else (s.bumpBy (Reg.dmxSuperseded n) k).fset (Reg.DmxStatus.superseded n) 1

/-- R243: of the frames that are due, the newest replaces those before it. A safety frame does not wait behind a normal one, so frames
newer than it wait behind it; behind another safety frame it waits as any frame does. -/
def dmxPick (s : State) (n : Nat) : Option OutFrame × State :=
  let d := s.dmxSt n
  let dueF := d.queue.filter s.due
  let rest := d.queue.filter (fun f => !s.due f)
  let held := d.cur.any (·.safety)
  let k := if held || !dueF.any (·.safety) then dueF.length - 1 else ((List.range dueF.length).filter fun i => (dueF.getD i {}).safety).getLastD 0
  match dueF.drop k with
  | [] => (none, s)
  | f :: newer => (some f, (s.putDmx n { d with queue := f :: (newer ++ rest) }).supersede n k)

/-! ### RDM transactions and discovery (R244, R247) -/

/-- R247: discovery ends when none of its steps is left: its responders are the latest. -/
def discoveryEnd (s : State) (n : Nat) : State :=
  let d := s.dmxSt n
  if d.rdmQ.any (·.origin == 3) then s
  else ((s.putDmx n { d with found := d.finding }).fset (Reg.DmxStatus.uids n) d.finding.length).fset (Reg.DmxStatus.discBusy n) 0

/-- A DISC_UNIQUE_BRANCH of a range of UIDs. -/
def discBranch (s : State) (n lo hi : Nat) : State :=
  s.rdmAsk n { origin := 3, step := 2, lo := lo, hi := hi } (2 ^ 48 - 1) 0x10 1 (beBytes 6 lo ++ beBytes 6 hi)

/-- A step of discovery ends: with no response, a collision, or data. -/
def discoveryStep (s : State) (n : Nat) (q : RdmReq) (collision : Bool) (data : Option (List Byte)) : State :=
  let s := match q.step, data with
    | 1, _ => s.discBranch n 0 (2 ^ 48 - 2)
    | 2, some l =>
      let uid := ofBe (l.take 6)
      (s.rdmAsk n { origin := 3, step := 3, lo := uid } uid 0x10 2 []).discBranch n q.lo q.hi
    | 2, none =>
      if collision && decide (q.lo < q.hi) then
        let m := (q.lo + q.hi) / 2
        (s.discBranch n q.lo m).discBranch n (m + 1) q.hi
      else s
    | 3, some _ =>
      let d := s.dmxSt n
      (s.putDmx n { d with finding := d.finding.filter (fun (e : Nat × Nat) => e.1 != q.lo) ++ [(q.lo, 0xFFFF)] }).rdmAsk n { origin := 3, step := 4, lo := q.lo } q.lo 0x20 0xF0 []
    | 4, some l =>
      let d := s.dmxSt n
      s.putDmx n { d with finding := d.finding.map fun (e : Nat × Nat) => if e.1 = q.lo then (e.1, ofBe (l.take 2)) else e }
    | _, _ => s
  s.discoveryEnd n

/-- R247: full discovery starts. -/
def discoveryStart (s : State) (n : Nat) : State :=
  if !dmxRdm (s.dmxRec n) || s.fbit (Reg.DmxStatus.discBusy n) then s
  else
    let s := (s.putDmx n { s.dmxSt n with finding := [] }).fset (Reg.DmxStatus.discBusy n) 1
    s.rdmAsk n { origin := 3, step := 1 } (2 ^ 48 - 1) 0x10 3 []

/-- R377: a TUNNEL grove link message. -/
def sendTunnel (s : State) (dst tunnel dir brk mab port : Nat) (l : List Byte) : State :=
  s.sendGrove 0x11 dst (beBytes 1 tunnel ++ beBytes 1 dir ++ beBytes 2 brk ++ beBytes 2 mab ++ beBytes 1 (ofBe (l.take 1)) ++ beBytes 1 port ++
    beBytes 2 (l.length - 1) ++ [0, 0] ++ l.drop 1)

/-- R378: the response to a tunnelled RDM request leaves the source port as soon as it arrives. -/
def tunnelResponse (s : State) (pos tunnel : Nat) (l : List Byte) : State :=
  if pos = s.grovePos then
    let n := s.fget (Reg.GraftTun.srcPort tunnel)
    s.emit (.dmx n true (dmxBreak (s.dmxRec n)) (dmxMab (s.dmxRec n)) l)
  else s.sendTunnel pos tunnel 1 0 0 0 l

/-- A transaction ends with no response, with another failure, or with a response (R244, R366, R378). -/
def rdmEnd (s : State) (n : Nat) (q : RdmReq) (code : Nat) (ack : Bool) (data : List Byte) : State :=
  match q.origin with
  | 1 => s.graftRdmEnd q.tag code ack data
  | 3 => s.discoveryStep n q false (if code = 0 ∧ ack then some data else none)
  | _ => if code = 0 then s.tunnelResponse q.lo q.tag data else s

/-- R244: an RDM transaction in progress is abandoned and reported as a timeout. -/
def rdmAbandon (s : State) (n : Nat) : State :=
  match (s.dmxSt n).rdm with
  | none => s
  | some q => ((s.putDmx n { s.dmxSt n with rdm := none }).bump (Reg.dmxRdmTimeout n)).rdmEnd n q 0x0601 false []

/-! ### Frames (R243) -/

/-- R243: the next slot boundary of what is on the line of port `n`; now when it is idle. -/
def slotEdge (s : State) (n : Nat) : Nat :=
  let d := s.dmxSt n
  if d.cur.isNone && !d.repeating || decide (d.endsAt ≤ s.free) then s.free
  else if s.free ≤ d.slotAt then d.slotAt
  else d.slotAt + (s.free - d.slotAt + 44 * usRaw - 1) / (44 * usRaw) * (44 * usRaw)

/-- R242: a frame of `k` bytes, start code and slots, takes the line from `at_`. -/
def takeLine (d : DmxSt) (at_ brk mab k : Nat) : DmxSt :=
  { d with slotAt := at_ + (brk + mab) * usRaw, endsAt := at_ + (brk + mab + k * 44) * usRaw, ended := false }

/-- R243: the frame in front of the queue starts its break. -/
def dmxBegin (s : State) (n : Nat) (f : OutFrame) : State :=
  let d := s.dmxSt n
  let r := s.dmxRec n
  let at_ := s.slotEdge n
  let s := s.putDmx n { takeLine d at_ (dmxBreak r) (dmxMab r) f.data.length with
    queue := d.queue.drop 1, cur := some f, repeating := false, last := f.data, lastStart := at_, lateN := d.lateN + f.late.toNat }
  let s := (s.bump (Reg.dmxTxFrames n)).emit (.dmx n false (dmxBreak r) (dmxMab r) f.data)
  if f.safety then s.safetyLaunched f.portRec else s

/-- R243: the frame that is due starts when the line is idle or repeating; a safety frame cuts what is in progress,
unless that is a safety frame, which runs to its end. -/
def dmxStart (s : State) (n : Nat) : State :=
  if s.dmxHeld n then s
  else
    let (f?, s) := s.dmxPick n
    match f? with
    | none => s
    | some f =>
      match (s.dmxSt n).cur with
      | some c => if f.safety && !c.safety then ((s.supersede n 1).rdmAbandon n).dmxBegin n f else s
      | none =>
        let s := if f.safety && (s.dmxSt n).repeating then s.supersede n 1 else s
        (s.rdmAbandon n).dmxBegin n f

/-- R242, R243: the frame on the line ends, once its time has run. -/
def dmxEnd (s : State) (n : Nat) : State :=
  let d := s.dmxSt n
  if s.free < d.endsAt then s else s.putDmx n { d with cur := none, repeating := false, ended := d.ended || d.cur.isSome || d.repeating }

/-- R243: a port with no frame waiting repeats its last timed frame every `repeat_ms`. -/
def dmxRepeatOp (s : State) (n : Nat) : State :=
  let d := s.dmxSt n
  let ms := dmxRepeatMs (s.dmxRec n)
  if s.dmxHeld n || d.cur.isSome || d.repeating || d.rdm.isSome || d.last.isEmpty || ms == 0xFFFF ||
      d.queue.any s.due || decide (s.free < d.lastStart + ms * 1000 * usRaw) then s
  else
    let r := s.dmxRec n
    (s.putDmx n { takeLine d s.free (dmxBreak r) (dmxMab r) d.last.length with repeating := true, lastStart := s.free }).emit (.dmx n false (dmxBreak r) (dmxMab r) d.last)

/-- R244: the time a request of `k` bytes and its response window take, in 2^-16 ns. DISC_UNIQUE_BRANCH has a window of
5.8 ms. -/
def rdmWait (r : List Byte) (k : Nat) (disc : Bool) : Nat := (dmxBreak r + dmxMab r + k * 44 + (if disc then 5800 else 2800)) * usRaw

/-- R244: a request is a DISC_UNIQUE_BRANCH: command class 0x10, parameter 0x0001 (ANSI E1.20, PRESUMED). -/
def rdmDisc (q : RdmReq) : Bool := u8 q.data 20 == 0x10 && ofBe (slice q.data 21 2) == 1

/-- R244: something that takes `t` ends before the launch time. -/
def fitsGap (s : State) (t : Nat) (nextLaunch : Option (Nat × Nat)) : Bool :=
  match nextLaunch with
  | none => true
  | some (base, l) =>
    match s.basePos base with
    | none => true
    | some p => decide (p + t ≤ l * 65536)

/-- R244: the next launch time of the port's cadence: that of the frame in front, else of the latest epoch while it is ahead, else of the one after. -/
def nextLaunchOf (s : State) (rec : Nat) (q : List OutFrame) : Option (Nat × Nat) :=
  match q with
  | f :: _ => some (f.base, f.launch)
  | [] =>
    let r := s.portRec rec
    match s.cadence.find? (epochKey (.port rec)) with
    | none => none
    | some k =>
      let ahead (l : Nat) : Bool := match s.basePos (portBase r) with | some p => decide (p < l * 65536) | none => false
      let next := [k, k + 1].findSome? fun j => match s.launchNs (portCadence r) j (portBase r) with | some l => if ahead l then some l else none | none => none
      (next.or (s.launchNs (portCadence r) (k + 1) (portBase r))).map (fun l => (portBase r, l))

/-- R244, R378: the gap before the next launch of port `n` holds something that takes `t`. -/
def gapHolds (s : State) (n t : Nat) : Bool :=
  match s.dmxRec? n with
  | some rec => s.fitsGap t (s.nextLaunchOf rec (s.dmxSt n).queue)
  | none => false

/-- The line of port `n` carries nothing. -/
def dmxIdle (s : State) (n : Nat) : Bool :=
  let d := s.dmxSt n
  d.cur.isNone && !d.repeating && d.rdm.isNone && !s.dmxHeld n

/-! ### RDM commands (R244) -/

/-- R243, R244: leaves of this tree are bound to port `n`, so that frames of its cadence leave on it. -/
def dmxBound (s : State) (n : Nat) : Bool :=
  match s.dmxRec? n with | some rec => (List.range s.leafCount).any (fun i => leafPort (s.leafRec i) == rec) | none => false

/-- RDM_TRANSACTION_START: on a port with frames of its own only after one has ended. DISC_UN_MUTE is a broadcast and has no response. -/
def rdmStart (s : State) (n : Nat) : State :=
  let d := s.dmxSt n
  match d.rdmQ with
  | [] => s
  | q :: r =>
    let wait := rdmWait (s.dmxRec n) q.data.length (rdmDisc q)
    if !s.dmxIdle n || s.dmxBound n && !d.ended || !s.gapHolds n (wait + 257 * 44 * usRaw) then s
    else
      let s := (s.putDmx n { d with rdmQ := r, rdm := if q.step = 1 then none else some q, rdmAt := s.free }).emit (.dmx n true (dmxBreak (s.dmxRec n)) (dmxMab (s.dmxRec n)) q.data)
      if q.step = 1 then s.discoveryStep n q false none else s

/-- No response: the request goes once more, then it is reported as a timeout. -/
def rdmSilent (s : State) (n : Nat) : State :=
  let d := s.dmxSt n
  match d.rdm with
  | none => s
  | some q =>
    if q.retried then ((s.putDmx n { d with rdm := none }).bump (Reg.dmxRdmTimeout n)).rdmEnd n q 0x0601 false []
    else s.putDmx n { d with rdm := none, rdmQ := { q with retried := true, asked := s.free } :: d.rdmQ }

/-- RDM_RESPONSE: a response with a bad checksum is none; to DISC_UNIQUE_BRANCH it is a collision. -/
def rdmAnswer (s : State) (n : Nat) (ok ack : Bool) (data : List Byte) : State :=
  let d := s.dmxSt n
  match d.rdm with
  | none => s
  | some q =>
    if ok then ((s.putDmx n { d with rdm := none }).bump (Reg.dmxRdmOk n)).rdmEnd n q 0 ack data
    else
      let s := s.bump (Reg.dmxRdmErr n)
      if q.step = 2 then (s.putDmx n { d with rdm := none }).discoveryStep n q true none else s.rdmSilent n

/-- RDM_RESPONSE_TIMEOUT. -/
def rdmTimeout (s : State) (n : Nat) : State :=
  match (s.dmxSt n).rdm with
  | some q => if (s.dmxSt n).rdmAt + rdmWait (s.dmxRec n) q.data.length (rdmDisc q) ≤ s.free then s.rdmSilent n else s
  | none => s

/-- RDM_NO_GAP: a request that could not start within 1 s. -/
def rdmNone (s : State) (n : Nat) : State :=
  let d := s.dmxSt n
  match d.rdmQ with
  | q :: r => if q.asked + second ≤ s.free then ((s.putDmx n { d with rdmQ := r }).bump (Reg.dmxRdmTimeout n)).rdmEnd n q 0x0606 false [] else s
  | [] => s

/-! ### Inputs and tunnels (R245, R377, R378) -/

/-- Port `n` is an output of this tree. -/
def dmxOutput (s : State) (n : Nat) : Bool := (s.dmxRec? n).isSome && !dmxInput (s.dmxRec n)

/-- R377: a tunnel that breaks the rule carries nothing. -/
def tunnelBad (s : State) : State := (s.flag Reg.GraftStatus.tunBad 0).attnBridge

/-- R378: a tunnelled frame reaches its destination port; a newer one replaces the one that waits. A port whose `rdm` is 0 is no
controller, so an RDM request to it goes no further. -/
def tunnelDeliver (s : State) (n pos tunnel brk mab : Nat) (l : List Byte) : State :=
  if !s.dmxOutput n then s.tunnelBad
  else
    let d := s.dmxSt n
    if l.head? = some 0xCC then if !dmxRdm (s.dmxRec n) then s else s.putDmx n { d with rdmQ := d.rdmQ ++ [{ origin := 4, tag := tunnel, lo := pos, data := l, asked := s.free }] }
    else
      let s := if d.tun.isSome then s.bump Reg.graftTunDrop else s
      s.putDmx n { d with tun := some { brk := max 92 brk, mab := max 12 mab, data := l } }

/-- R377: a tunnel carries a frame of its input port. -/
def tunnelCarry (s : State) (t brk mab : Nat) (l : List Byte) : State :=
  let s := s.bump Reg.graftTunRxCnt
  let pos := s.fget (Reg.GraftTun.dstPosition t)
  let port := s.fget (Reg.GraftTun.dstPort t)
  if pos = s.grovePos then s.tunnelDeliver port pos t brk mab l else s.sendTunnel pos t 0 brk mab port l

/-- DMX_INPUT_PACKET: the frame enters its tunnel, and the capture when it is a packet of slots. -/
def dmxIn (s : State) (n : Nat) (sc : Byte) (slots : List Byte) (ok : Bool) (brk mab : Nat) : State :=
  if (s.dmxRec? n).isNone || !dmxInput (s.dmxRec n) then s
  else if !ok then s.bump (Reg.dmxRxErr n)
  else
    let s := match s.bridge.tunLive.find? (fun t => s.fget (Reg.GraftTun.srcPort t) == n) with
      | some t => s.tunnelCarry t brk mab (sc :: slots)
      | none => s
    if sc ≠ 0 then s.bump (Reg.dmxRxErr n)
    else if slots.length < 24 ∨ 512 < slots.length then s
    else (s.nextTag.putDmx n { s.dmxSt n with rx := slots, rxAt := s.free, rxLast := some s.free }).bump (Reg.dmxRxFrames n)

/-- TUNNEL_MESSAGE_RECEIVE, once its header holds. -/
def tunnelIn (s : State) (pos tunnel : Nat) (response : Bool) (brk mab : Nat) (l : List Byte) (port : Nat) : State :=
  if response then (if s.bridge.tunLive.contains tunnel then s.tunnelResponse s.grovePos tunnel l else s)
  else s.tunnelDeliver port pos tunnel brk mab l

/-- TUNNEL_FRAME_SEND: on an idle line; a port with leaves sends only in a gap. -/
def tunnelSend (s : State) (n : Nat) : State :=
  let d := s.dmxSt n
  match d.tun with
  | none => s
  | some f =>
    if !s.dmxIdle n || s.dmxBound n && !s.gapHolds n ((f.brk + f.mab + f.data.length * 44) * usRaw) then s
    else ((s.putDmx n { takeLine d s.free f.brk f.mab f.data.length with tun := none, repeating := true }).emit (.tunnel n f.brk f.mab f.data)).bump Reg.graftTunTxCnt

/-- R377: a write of `GRAFT_TUN_t` puts the tunnel in force, or out of force. -/
def tunnelCheck (s : State) (t : Nat) : State :=
  let s := { s with bridge.tunLive := s.bridge.tunLive.filter (· != t) }
  let src := s.fget (Reg.GraftTun.srcPort t)
  let bad := (s.dmxRec? src).isNone || !dmxInput (s.dmxRec src) || s.bridge.tunLive.any (fun u => s.fget (Reg.GraftTun.srcPort u) == src) ||
    s.fget (Reg.GraftTun.dstPosition t) == s.grovePos && !s.dmxOutput (s.fget (Reg.GraftTun.dstPort t))
  if !s.fbit (Reg.GraftTun.enable t) then s
  else if bad then s.tunnelBad
  else { s with bridge.tunLive := s.bridge.tunLive ++ [t] }

end State

/-! ### Meanings -/

/-- DMX_FRAME_START (R243). -/
def execDmxFrameStart (port : Fin 16) (s : State) : Host.Outcome State Fault Refusal :=
  act s fun s => s.dmxStart port

/-- DMX_FRAME_END (R243). -/
def execDmxFrameEnd (port : Fin 16) (s : State) : Host.Outcome State Fault Refusal :=
  act s fun s => s.dmxEnd port

/-- DMX_REPEAT (R243). -/
def execDmxRepeat (port : Fin 16) (s : State) : Host.Outcome State Fault Refusal :=
  act s fun s => s.dmxRepeatOp port

/-- RDM_TRANSACTION_START (R244). -/
def execRdmTransactionStart (port : Fin 16) (s : State) : Host.Outcome State Fault Refusal := act s fun s => s.rdmStart port

/-- RDM_RESPONSE (R244, R366). -/
def execRdmResponse (port : Fin 16) (checksumOk : Bool) (ack : Bool) (data : List Byte) (s : State) : Host.Outcome State Fault Refusal :=
  act s fun s => s.rdmAnswer port checksumOk ack data

/-- RDM_RESPONSE_TIMEOUT (R244). -/
def execRdmResponseTimeout (port : Fin 16) (s : State) : Host.Outcome State Fault Refusal := act s fun s => s.rdmTimeout port

/-- RDM_NO_GAP (R244, R369). -/
def execRdmNoGap (port : Fin 16) (s : State) : Host.Outcome State Fault Refusal := act s fun s => s.rdmNone port

/-- RDM_DISCOVERY (R247). -/
def execRdmDiscovery (port : Fin 16) (s : State) : Host.Outcome State Fault Refusal := act s fun s => s.discoveryStart port

/-- DMX_INPUT_PACKET (R245, R377). -/
def execDmxInputPacket (port : Fin 16) (startCode : Byte) (slots : List Byte) (framingOk : Bool) (breakUs mabUs : Nat) (s : State) :
    Host.Outcome State Fault Refusal :=
  act s fun s => s.dmxIn port startCode slots framingOk breakUs mabUs

/-- TUNNEL_FRAME_SEND (R378). -/
def execTunnelFrameSend (port : Fin 16) (s : State) : Host.Outcome State Fault Refusal := act s fun s => s.tunnelSend port

end Sys2Proof.Machine
end

