-- ==== Sys2Proof/Machine/Code8b.lean ====
section
/-! DEFINITION. The 8b/10b code of a sap line (R249). The spec names IEEE 802.3 Clause 36 and does not print its tables: they are PRESUMED
from that standard (tables 36-1 and 36-2). A code group is ten bits, bit *a*, which is sent first, on the left. -/

namespace Sys2Proof.Machine

/-- The six-bit sub-block `abcdei` of the five low bits of a data character at negative disparity. -/
def sixOf (x : Nat) : Nat :=
  [0b100111, 0b011101, 0b101101, 0b110001, 0b110101, 0b101001, 0b011001, 0b111000,
   0b111001, 0b100101, 0b010101, 0b110100, 0b001101, 0b101100, 0b011100, 0b010111,
   0b011011, 0b100011, 0b010011, 0b110010, 0b001011, 0b101010, 0b011010, 0b111010,
   0b110011, 0b100110, 0b010110, 0b110110, 0b001110, 0b101110, 0b011110, 0b101011].getD x 0

/-- The four-bit sub-block `fghj` of the three high bits of a data character at negative disparity. -/
def fourOf (y : Nat) : Nat := [0b1011, 0b1001, 0b0101, 0b1100, 0b1101, 0b1010, 0b0110, 0b1110].getD y 0

/-- The ones among the low `n` bits of a number. -/
def onesIn : Nat → Nat → Nat
  | 0, _ => 0
  | n + 1, x => x % 2 + onesIn n (x / 2)

/-- The running disparity after a sub-block of `n` bits; `true` is positive. -/
def disparity (n : Nat) (rd : Bool) (x : Nat) : Bool :=
  if n < 2 * onesIn n x then true else if 2 * onesIn n x < n then false else rd

/-- A sub-block at the running disparity: at positive disparity an unbalanced one, and 111000 and 1100, are sent inverted. -/
def atDisparity (n : Nat) (rd : Bool) (x : Nat) : Nat :=
  if rd && (2 * onesIn n x != n || x == 0b111000 && n == 6 || x == 0b1100 && n == 4) then 2 ^ n - 1 - x else x

/-- The code group of a data character, and the running disparity after it. -/
def dataCode (rd : Bool) (b : Byte) : BitVec 10 × Bool :=
  let x := b.toNat % 32
  let y := b.toNat / 32
  let six := atDisparity 6 rd (sixOf x)
  let rd6 := disparity 6 rd six
  let alt := y == 7 && (if rd6 then [11, 13, 14].contains x else [17, 18, 20].contains x)
  let four := if alt then (if rd6 then 0b1000 else 0b0111) else atDisparity 4 rd6 (fourOf y)
  (BitVec.ofNat 10 (six * 16 + four), disparity 4 rd6 four)

/-- The special characters a sap line uses. -/
inductive Special where
  | k28_5 | k27_7 | k29_7
  deriving DecidableEq, Repr

/-- The code group of a special character, and the running disparity after it. -/
def specialCode (rd : Bool) (k : Special) : BitVec 10 × Bool :=
  let x := match k with | .k28_5 => 0b0011111010 | .k27_7 => 0b1101101000 | .k29_7 => 0b1011101000
  (BitVec.ofNat 10 (if rd then 2 ^ 10 - 1 - x else x), disparity 10 rd (if rd then 2 ^ 10 - 1 - x else x))

/-- Data characters one after another. -/
def dataCodes : Bool → List Byte → List (BitVec 10) × Bool
  | rd, [] => ([], rd)
  | rd, b :: l =>
    let c := dataCode rd b
    let r := dataCodes c.2 l
    (c.1 :: r.1, r.2)

/-- R249, R252: an idle ordered set, and a frame between its Comma, Start and End characters. -/
def codeGroups (rd : Bool) (frame : List Byte) : List (BitVec 10) × Bool :=
  let i := specialCode rd .k28_5
  let j := dataCode i.2 0x50
  let c := specialCode j.2 .k28_5
  let b := specialCode c.2 .k27_7
  let d := dataCodes b.2 frame
  let e := specialCode d.2 .k29_7
  ([i.1, j.1, c.1, b.1] ++ d.1 ++ [e.1], e.2)

end Sys2Proof.Machine
end

