-- ==== Sys2Proof/Machine/Sap.lean ====
section
/-! DEFINITION. Sap lines, the root's side: bursts, polls, replies and the diagnostic table (R248 to R271). -/

namespace Sys2Proof.Machine

/-! ### Seed fields (R250) -/

/-- Line rate in units of 100 kbaud. -/
def sapBaud (r : List Byte) : Nat :=
  match u8 (portParams r) 0 with | 0 => 125 | 1 => 250 | 2 => 500 | 3 => 1000 | _ => 2000
def sapNodes (r : List Byte) : Nat := u16 (portParams r) 2
def sapChannels (r : List Byte) : Nat := u8 (portParams r) 4
def sapPwmNom (r : List Byte) : Nat := orDefault (u16 (portParams r) 6) 0 250
def sapTurnNs (r : List Byte) : Nat := orDefault (u16 (portParams r) 8) 0 2000

/-- R250: the target poll interval per node, in 2^-16 ns. -/
def sapPollEvery (r : List Byte) : Nat := orDefault (u16 (portParams r) 10) 0 500 * 1000000 * 65536

/-- The time `n` characters take, in 2^-16 ns, rounded up. -/
def sapChars (r : List Byte) (n : Nat) : Nat := (n * 10 * 10000 * 65536 + sapBaud r - 1) / sapBaud r

/-- R263: a poll, its frame of 14 characters and its whole turnaround window. -/
def sapPollTime (r : List Byte) : Nat := sapChars r (14 + 64) + sapTurnNs r * 65536

/-- The time `n` unit intervals take, in 2^-16 ns, rounded up. -/
def sapUis (r : List Byte) (n : Nat) : Nat := (n * 10000 * 65536 + sapBaud r - 1) / sapBaud r

/-- R252: the `range` field and the following characters of a frame, up to the end of the payload. -/
def sapBody (first last : Nat) (safety turn : Bool) (cmd arg : Nat) (payload : List Byte) : List Byte :=
  beBytes 3 (first * 2 ^ 14 + last * 2 ^ 4 + safety.toNat * 8 + turn.toNat * 4) ++ [BitVec.ofNat 8 cmd, BitVec.ofNat 8 arg] ++
    beBytes 2 payload.length ++ payload

/-- R253: the CRC of a frame body, `first` folded in ahead. -/
def sapCrc (body : List Byte) : Nat := crc16 (beBytes 2 (ofBe (body.take 3) / 2 ^ 14) ++ body)

/-- A frame as sent between its Start and End characters. -/
def sapFrame (first last : Nat) (safety turn : Bool) (cmd arg : Nat) (payload : List Byte) : List Byte :=
  let b := sapBody first last safety turn cmd arg payload
  b ++ beBytes 2 (sapCrc b)

/-- R269: a node record never touched: every channel never measured. -/
def sapNodeRec0 : List Byte := List.replicate 128 0 ++ (List.range 128).map (fun i => if i % 2 = 1 then 0xC0 else 0)

/-- Writes a little-endian field of a record. -/
def putLe (l : List Byte) (o n v : Nat) : List Byte := l.take o ++ leBytes n v ++ l.drop (o + n)

/-- The 2-bit code of channel `c` in a diagnostic map (R235, R264). -/
def diagCode (m : List Byte) (c : Nat) : Nat := u8 m (c / 4) / 2 ^ (6 - 2 * (c % 4)) % 4

/-- R269: a channel's entry after a reply. -/
def diagChan (e code : Nat) : Nat :=
  if code = 3 then e / 2 ^ 14 * 2 ^ 14 + 2 ^ 13 + min (e % 2 ^ 13 + 1) 8191 else code * 2 ^ 14

/-! ### Frames of a burst from their compared form to the line (R255 to R257)

The compared form of a frame is its command, its `safety` bit (1 byte each), then, little-endian, with positions in raw
units of 2^-16 ns:
TIMING: anchor (16), period (8), periods (2), views (1), camera (1), shutter length (8), sequence (4);
DATA: first, last (2 each), argument (1), payload length (2), payload;
PROBE: boundary (4), offset (8);
TAKE: launch (16), sequence (4).
No bytes stand for a frame that arbitration has not resolved: it is left out. -/

/-- R256: raw units of 2^-16 ns as 2^-16 UI, rounded toward minus infinity. -/
def toUi (baud100k : Nat) (raw : Int) : Int := raw * baud100k / 10000

/-- A signed or unsigned 6-byte 32.16 field. -/
def ui6 (x : Int) : List Byte := beBytes 6 (unsigned 48 x)

/-- A signed 16-byte position. -/
def pos16 (d : List Byte) (o : Nat) : Int := signed 128 (ofLe (slice d o 16))

/-- R255 to R257: the frame the root sends when its first character leaves at raw position `start`. -/
def sapWire (baud : Nat) (start : Int) (d : List Byte) : List Byte :=
  let safety := u8 d 1 == 1
  match u8 d 0 with
  | 1 => sapFrame (u16 d 2) (u16 d 4) safety false 1 (u8 d 6) (slice d 9 (u16 d 7))
  | 2 => sapFrame 0 1023 safety false 2 0 (ui6 (toUi baud (pos16 d 2 - start)) ++ ui6 (toUi baud (u64 d 18)) ++ beBytes 2 (u16 d 26) ++
      [BitVec.ofNat 8 (u8 d 28), BitVec.ofNat 8 (u8 d 29)] ++ ui6 (-(toUi baud (-((u64 d 30 : Nat) : Int)))) ++
      beBytes 4 (u32 d 38) ++ List.replicate 6 0)
  | 3 => sapFrame 0 1023 safety false 3 0 (ui6 (toUi baud (pos16 d 2 - start)) ++ beBytes 4 (u32 d 18) ++ List.replicate 2 0)
  | _ => sapFrame 0 1023 safety false 5 0 (beBytes 4 (u32 d 2) ++ ui6 (toUi baud (u64 d 6)) ++ List.replicate 2 0)

/-- Two frames belong to one burst. -/
def sameBurst (f g : OutFrame) : Bool := f.burst == g.burst && f.launch == g.launch && f.safety == g.safety && f.portRec == g.portRec

namespace State

def sapSt (s : State) (n : Nat) : SapSt := s.saps.get {} n
def sapRec? (s : State) (n : Nat) : Option Nat := s.portOf? 5 n
def sapRec (s : State) (n : Nat) : List Byte := match s.sapRec? n with | some i => s.portRec i | none => []
def putSap (s : State) (n : Nat) (d : SapSt) : State := { s with saps := s.saps.set n d }
def nodeRec (s : State) (n node : Nat) : List Byte := s.diag.get sapNodeRec0 (n * 1024 + node)
def putNode (s : State) (n node : Nat) (r : List Byte) : State := { s with diag := s.diag.set (n * 1024 + node) r }

/-- R248: the line's DE pad: low only from 2 UI after the frame that opens a turnaround window until the window ends. -/
def sapDe (s : State) (n : Nat) : Bool :=
  match (s.sapSt n).window with
  | some w => !(decide (w.opens ≤ s.free) && decide (s.free ≤ w.fin))
  | none => true

/-- R253, R406: a check-value engine of the root forms or verifies a frame's CRC. Which of its engines 0 to 5 serves a line is open. -/
def sapCheck (s : State) (n : Nat) (ok : Bool) : State :=
  let b := Reg.chkCfg (Config.unstated 253 n % 6)
  let s := s.bump (b + 0x40)
  if ok then s else (s.bump (b + 0x44)).fset ⟨b + 0x0C, 27, 1⟩ 1

/-- R249, R252: a frame goes out as code groups. -/
def sapSend (s : State) (n cmd : Nat) (w : List Byte) : State :=
  let d := s.sapSt n
  let c := codeGroups d.rd w
  ((s.putSap n { d with rd := c.2 }).sapCheck n true).emit (.sap n cmd c.1)

/-- R52: a burst is dropped, with every frame of it. -/
def dropBurst (s : State) (n : Nat) (f : OutFrame) : State :=
  let d := s.sapSt n
  let s := s.putSap n { d with queue := d.queue.filter (fun g => !sameBurst f g), dropped := some f }
  if d.dropped.any (sameBurst f) then s else (s.bump (Reg.sapTxDrop n)).fset (Reg.SapStatus.drop n) 1

/-- R255: a frame of the burst in progress goes out at `start`; an unresolved one is left out. -/
def sapEmit (s : State) (n : Nat) (b : SapBurst) (start : Int) (f : OutFrame) : State :=
  let d := s.sapSt n
  let rest := d.queue.filter (· != f)
  if f.data.isEmpty then s.putSap n { d with queue := rest, cur := some { b with next := f.part + 1 } }
  else
    let w := sapWire (sapBaud (s.sapRec n)) start f.data
    let s := s.putSap n { d with queue := rest, cur := some { b with next := f.part + 1, start := start, free := start + sapChars (s.sapRec n) (w.length + 5) } }
    let s := if u8 f.data 0 = 5 then s.bump (Reg.sapProbes n) else s
    s.sapSend n (u8 f.data 0) w

/-- R255: the frames of the burst in progress go out as their turns come. A frame that is there before its turn leaves at its turn, one
that arrives after it (`late`) at once. -/
def sapFlow : Nat → State → Nat → Bool → State
  | 0, s, _, _ => s
  | fuel + 1, s, n, late =>
    match (s.sapSt n).cur with
    | none => s
    | some b =>
      match (s.sapSt n).queue.find? (fun f => sameBurst b.head f && f.part == b.next) with
      | none => s
      | some f =>
        let now : Int := match s.basePos f.base with | some p => p | none => b.free
        if now < b.free then s
        else sapFlow fuel (s.sapEmit n b (if late then now else b.free) f) n late

/-- One fabric cycle of the lines: frames whose turn has come go out. -/
def sapTick (s : State) : State :=
  s.saps.foldl (fun s k => if k.2.cur.isSome then sapFlow k.2.queue.length s k.1 false else s) s

/-- R52, R255: a frame of a burst reaches the line; past its limit its burst is dropped, unless it is in progress. -/
def enqueueSap (s : State) (n : Nat) (f : OutFrame) : State :=
  let d := s.sapSt n
  let s' := s.putSap n { d with queue := insertLaunch { f with late := s.lateNow f } d.queue }
  match d.cur with
  | some b =>
    if sameBurst b.head f then sapFlow 1 s' n true
    else if s.pastLimit f || d.dropped.any (sameBurst f) then s.dropBurst n f else s'
  | none => if s.pastLimit f || d.dropped.any (sameBurst f) then s.dropBurst n f else s'

/-- R255: the burst starts with the frame in front of it, on time or at `from_`. -/
def sapBegin (s : State) (n : Nat) (f : OutFrame) (from_ : Option Int) : State :=
  let late := f.late || from_.isSome
  let s := if late then s.bump (Reg.sapTxLate n) else s
  let now : Int := match s.basePos f.base with | some p => (p : Nat) | none => (f.launch * 65536 : Nat)
  let start : Int := from_.getD (if late then max now ((f.launch * 65536 : Nat) : Int) else ((f.launch * 65536 : Nat) : Int))
  let s := (s.putSap n { s.sapSt n with cur := some { head := f, free := start, start := start } }).fsetB (Reg.SapStatus.safety n) f.safety
  let s := sapFlow 1 s n false
  if f.safety then s.safetyLaunched f.portRec else s

/-- R255: what a safety burst leaves of a burst in progress: the character in progress ends, and one idle ordered set follows; answers
where the safety burst's comma begins. -/
def sapAbandon (s : State) (n : Nat) (b : SapBurst) (now : Int) : Int × State :=
  let char : Int := sapChars (s.sapRec n) 1
  let k := max 0 ((now - b.start + char - 1) / char)
  let cut := decide (0 < b.next) && decide (now < b.free - 2 * char)
  let s := if cut then s.emit (.sapCut n k.toNat) else s
  ((if cut then b.start + k * char else now) + 2 * char, ({ s with saps := s.saps.set n { s.sapSt n with cur := none } }).dropBurst n b.head)

/-- R255, R271: bursts whose launch time came while the line was taken or held are late. -/
def sapLate (s : State) (n : Nat) : State :=
  let d := s.sapSt n
  s.putSap n { d with queue := d.queue.map (fun g => if s.due g then { g with late := true } else g) }

/-- R255: the burst in front of the queue starts at its launch time. A safety burst abandons any burst in progress;
nothing starts in an open turnaround window. -/
def sapStart (s : State) (n : Nat) : State :=
  let d := s.sapSt n
  if s.sapHeld n || d.window.isSome then s
  else
    let dueF := d.queue.filter (fun f => f.part == 0 && s.due f)
    match (match dueF.find? (·.safety) with | some f => some f | none => dueF.head?) with
    | none => s
    | some f =>
      match d.cur with
      | some b =>
        if !f.safety then s
        else
          let a := s.sapAbandon n b (match s.basePos f.base with | some p => (p : Nat) | none => b.free)
          a.2.sapBegin n f (some a.1)
      | none => s.sapBegin n f none

/-- R255, R266, R271: the burst whose TAKE has gone out ends; bursts that came due behind it are late. -/
def sapEnd (s : State) (n : Nat) : State :=
  let d := s.sapSt n
  match d.cur with
  | none => s
  | some b =>
    let f := b.head
    let done := b.free - 2 * sapChars (s.sapRec n) 1
    let ended := match s.basePos f.base with | some p => decide (done ≤ (p : Nat)) | none => true
    if b.next < f.parts ∨ !ended then s
    else
      let s := s.bump (Reg.sapTxBursts n)
      let slip := decide (f.takeBy ≠ 0 ∧ (f.takeBy : Int) < done)
      let s := if slip then (s.bump (Reg.sapTakeSlip n)).fset (Reg.SapStatus.takeSlip n) 1 else s
      (s.putSap n { s.sapSt n with cur := none }).sapLate n

/-- R267: the node a poll asks: IDENT the nodes that await one, POLL round robin. -/
def sapNext (s : State) (n : Nat) (ident : Bool) : Option Nat :=
  let d := s.sapSt n
  if ident then d.identQ.head? else if sapNodes (s.sapRec n) = 0 then none else some (d.pollNext % sapNodes (s.sapRec n))

/-- R250, R267: a node is polled once in its poll interval. -/
def pollDue (s : State) (n node : Nat) : Bool :=
  match (s.sapSt n).polledAt.find? node with
  | some t => decide (t + sapPollEvery (s.sapRec n) ≤ s.free)
  | none => true

/-- R263, R267: a POLL or IDENT in the gap, if it and its window end before the next launch time. -/
def sapPollOp (s : State) (n : Nat) (ident : Bool) : State :=
  let d := s.sapSt n
  let r := s.sapRec n
  match s.sapRec? n, s.sapNext n ident with
  | some rec, some node =>
    let t := sapPollTime r
    let fits := match s.nextLaunchOf rec d.queue with
      | none => true
      | some (b, l) => match s.basePos b with | none => true | some p => decide (p + t ≤ l * 65536)
    if s.sapHeld n || d.cur.isSome || d.window.isSome || !fits || !ident && !s.pollDue n node then s
    else
      let d := { d with window := some { node := node, ident := ident, opens := s.free + sapChars r 14 + sapUis r 2, fin := s.free + t } }
      let d := if ident then { d with identQ := d.identQ.drop 1 } else { d with pollNext := (node + 1) % sapNodes r, polledAt := d.polledAt.set node s.free }
      ((s.putSap n d).bump (Reg.sapPolls n)).sapSend n (if ident then 6 else 4) (sapFrame node node false true (if ident then 6 else 4) 0 [])
  | _, _ => s

/-- R268: something of a node's status or codes changes. -/
def sapChanged (s : State) (n : Nat) : State := ((s.flag (Reg.SapStatus.diagChg n) 0).attnLeaf).pendBoth (800 + n)

/-- R267, R268: `missing` of a node is set or cleared. -/
def sapMissing (s : State) (n node : Nat) (on : Bool) : State :=
  let r := s.nodeRec n node
  if getBits (u32 r 0) 30 1 = on.toNat then s
  else
    let s := s.putNode n node (putLe r 0 4 (setBits (u32 r 0) 30 1 on.toNat))
    let c := s.fget (Reg.SapStatus.missing n)
    let s := s.fset (Reg.SapStatus.missing n) (if on then c + 1 else c - 1)
    let s := if on then s else s.putSap n { s.sapSt n with identQ := (s.sapSt n).identQ ++ [node] }
    s.sapChanged n

/-- R253, R268: a reply of the polled node that verifies: its command and payload. -/
def sapReplyOk (node : Nat) (f : List Byte) : Option (Nat × List Byte) :=
  let n := f.length
  let b := f.take (n - 2)
  let rg := ofBe (b.take 3)
  if n < 9 then none
  else if ofBe (f.drop (n - 2)) ≠ sapCrc b then none
  else if rg / 2 ^ 14 ≠ node ∨ rg / 16 % 1024 ≠ node ∨ rg / 4 % 4 ≠ 0 then none
  else if ofBe (slice b 5 2) ≠ n - 9 then none
  else some (u8 b 3, b.drop 7)

/-- R264, R268, R269: a valid STATUS reply. -/
def sapStatusReply (s : State) (n node : Nat) (p : List Byte) : State :=
  let s := s.nextTag
  let temp := signed 16 (ofBe (slice p 2 2))
  let s := { s with nodeTemp := s.nodeTemp.set (n * 1024 + node) (s.addReport (s.nodeTemp.get [] (n * 1024 + node)) temp) }
  let r := s.nodeRec n node
  let st := ofBe (p.take 2)
  let m := slice p 8 16
  let chans := (List.range 64).map fun c =>
    diagChan (u16 r (0x80 + 2 * c)) (if c < sapChannels (s.sapRec n) then diagCode m c else 0)
  let real := sapChannels (s.sapRec n)
  let old := (List.range real).map fun c => u16 r (0x80 + 2 * c) / 2 ^ 14
  let changed := decide (u32 r 0 % 2 ^ 16 ≠ st) || (chans.take real).map (· / 2 ^ 14) != old
  let r := putLe r 0 4 (setBits (setBits (u32 r 0) 31 1 1) 0 16 st)
  let r := putLe r 4 2 (ofBe (slice p 2 2))
  let r := putLe r 6 2 (min 0xFFFF (u16 r 6 + ofBe (slice p 4 2)))
  let r := putLe r 8 4 (s.regN Reg.axisEpochCntLo)
  let r := r.take 128 ++ chans.flatMap (leBytes 2)
  let s := s.putNode n node r
  if changed then s.sapChanged n else s

/-- R264, R267, R269: a valid IDENT reply. A node with another channel count gets `ch_mismatch`, an event whose code is stated nowhere, and
ATTN_LEAF. -/
def sapIdentReply (s : State) (n node : Nat) (p : List Byte) : State :=
  let r := s.nodeRec n node
  let ch := u8 p 6
  let bad := ch != sapChannels (s.sapRec n)
  let was := getBits (u32 r 0) 29 1
  let r := putLe r 0x0C 4 (ofBe (p.take 2) * 65536 + ofBe (slice p 2 2) % 256 * 256 + ch)
  let r := putLe r 8 4 (s.regN Reg.axisEpochCntLo)
  let s := s.putNode n node (putLe r 0 4 (setBits (setBits (u32 r 0) 31 1 1) 29 1 bad.toNat))
  if bad && was == 0 then (s.rootEvent 0xD0000 (Config.unstated 267 n % 2 ^ 16) 0 (leBytes 2 n ++ leBytes 2 node)).attnLeaf else s

/-- R263, R268: a reply has arrived whole. RX is ignored while DE is high (R248), so outside the window it counts as no reply. -/
def sapReplyOp (s : State) (n : Nat) (f : List Byte) : State :=
  match (s.sapSt n).window with
  | none => s
  | some w =>
    if s.sapDe n then s
    else
      let node := w.node
      let err (s : State) : State := (s.bump (Reg.sapReplyErr n)).fset (Reg.SapStatus.replyErr n) 1
      let good (s : State) : State :=
        let s := s.putSap n { s.sapSt n with window := some { w with got := true }, misses := (s.sapSt n).misses.set node 0 }
        s.sapMissing n node false
      let s := s.sapCheck n (f.drop (f.length - 2) == beBytes 2 (sapCrc (f.take (f.length - 2))))
      match sapReplyOk node f with
      | some (cmd, p) =>
        if cmd = 0x84 ∧ !w.ident ∧ p.length = 24 then (good s).sapStatusReply n node p
        else if cmd = 0x86 ∧ w.ident ∧ p.length = 16 then (good s).sapIdentReply n node p
        else err s
      | none => err s

/-- R263, R268: the turnaround window closes; three polls without a valid reply make a node missing. A safety burst that waited for the
window starts late (R255). -/
def sapWindowEnd (s : State) (n : Nat) : State :=
  match (s.sapSt n).window with
  | none => s
  | some w =>
    if s.free < w.fin then s
    else
      let s := (s.putSap n { s.sapSt n with window := none }).sapLate n
      if w.got then s
      else
        let s := (s.bump (Reg.sapNoReply n)).fset (Reg.SapStatus.noReply n) 1
        if w.ident then s
        else
          let k := (s.sapSt n).misses.get 0 w.node + 1
          let s := s.putSap n { s.sapSt n with misses := (s.sapSt n).misses.set w.node k }
          if 3 ≤ k then s.sapMissing n w.node true else s

/-- R271: a write of `hold_off`; bursts that came due while it held are late. -/
def sapHoldWrite (s : State) (n : Nat) (on : Bool) : State :=
  let was := s.fbit (Reg.SapCtrl.holdOff n)
  let s := s.fsetB (Reg.SapCtrl.holdOff n) on
  if was && !on then s.sapLate n else s

end State

/-! ### Meanings -/

/-- SAP_BURST_START (R255). -/
def execSapBurstStart (line : Fin 64) (s : State) : Host.Outcome State Fault Refusal :=
  act s fun s => s.sapStart line

/-- SAP_BURST_END (R255, R271). -/
def execSapBurstEnd (line : Fin 64) (s : State) : Host.Outcome State Fault Refusal :=
  act s fun s => s.sapEnd line

/-- SAP_POLL (R263, R267). -/
def execSapPoll (line : Fin 64) (ident : Bool) (s : State) : Host.Outcome State Fault Refusal :=
  act s fun s => s.sapPollOp line ident

/-- SAP_REPLY (R263, R264, R268, R269). -/
def execSapReply (line : Fin 64) (frame : List Byte) (s : State) : Host.Outcome State Fault Refusal :=
  act s fun s => s.sapReplyOp line frame

/-- SAP_TURNAROUND_END (R263, R268). -/
def execSapTurnaroundEnd (line : Fin 64) (s : State) : Host.Outcome State Fault Refusal :=
  act s fun s => s.sapWindowEnd line

end Sys2Proof.Machine
end

