-- ==== Sys2Proof/Machine/Outputs.lean ====
section
/-! DEFINITION. What a compare unit becomes when it is let out, and the launch of timed frames by PORTS record. -/

namespace Sys2Proof.Machine

namespace State

/-- The port of a PORTS record that is an Ethernet port. -/
def ethOfRec (s : State) (rec : Nat) : Nat := portIndex (portKind (s.portRec rec)) (portNumber (s.portRec rec))

/-- R161: a frame whose epoch capture precedes the alarm and whose launch time is at or after *A* + 1 ms. -/
def underAlarm (s : State) (f : OutFrame) : Bool :=
  s.alarmOn && !f.safety && decide (f.capTag < s.safe.alarmTag) &&
    (match s.safe.alarmLaunch.find? f.base with | some l => decide (l ≤ f.launch) | none => true)

/-- R302, R304: a unit that is let out enters the queue its port code names; the alarm discards what it overtakes
(R161). -/
def letOut (s : State) (t : Trunk) (u : CUnit) : State :=
  let k := u.code / 256
  let n := u.code % 256
  if k ≠ 0x0A ∧ u.timed ∧ s.underAlarm u.out then s
  else if k = 0x0A then s.enqueueLine (s.rastKey t n) u.out.burst u.out.part u.out.data
  else if k = 5 then s.enqueueSap n u.out
  else if k = 6 then s.enqueueDmx n u.out
  else if k = 9 then s.enqueueTimed (s.e131Port u.out.portRec) u.out
  else if u.timed then s.enqueueTimed (portIndex k n) u.out
  else s.enqueueUntimed (portIndex k n) { frame := ethOf u.out.data, at_ := s.free }

/-- A queued frame is the one a unit became. -/
def isOut (u : CUnit) (f : OutFrame) : Bool :=
  f.portRec == u.out.portRec && f.seq == u.out.seq && f.launch == u.out.launch && f.data == u.out.data

/-- The Ethernet ports whose queue holds a unit's frame. -/
def queuedOn (s : State) (u : CUnit) : List Nat :=
  (List.range 58).filter fun n =>
    if u.timed then (s.port n).timed.any (isOut u) else (s.port n).untimed.any (fun x => x.frame == ethOf u.out.data && x.ingress == 58)

/-- R304: a unit of which nothing has left is withdrawn from its queue; none once it has started to leave. -/
def withdraw (s : State) (t : Trunk) (u : CUnit) : Option State :=
  let k := u.code / 256
  let n := u.code % 256
  if k = 0x0A then
    let o := s.rastOut (s.rastKey t n)
    let key := u.out.burst * 65536 + u.out.part
    match o.queue.find? key with
    | some _ => some (s.putRastOut (s.rastKey t n) { o with queue := o.queue.erase key })
    | none => none
  else if k = 5 then
    if (s.sapSt n).queue.any (isOut u) then some (s.putSap n { s.sapSt n with queue := (s.sapSt n).queue.filter (fun f => !isOut u f) }) else none
  else if k = 6 then
    if (s.dmxSt n).queue.any (isOut u) then some (s.putDmx n { s.dmxSt n with queue := (s.dmxSt n).queue.filter (fun f => !isOut u f) }) else none
  else
    match s.queuedOn u with
    | m :: _ =>
      let p := s.port m
      if u.timed then some ((s.putPort m { p with timed := p.timed.filter (fun f => !isOut u f) }).congestion m)
      else some ((s.putPort m { p with untimed := p.untimed.eraseP (fun x => x.frame == ethOf u.out.data && x.ingress == 58) }).congestion m)
    | [] => none

/-- R52: the frame in front of the launch queue of a PORTS record leaves when it is due. -/
def launchRec (s : State) (rec : Nat) : State :=
  let r := s.portRec rec
  match portKind r with
  | 5 => s.sapStart (portNumber r)
  | 6 => s.dmxStart (portNumber r)
  | 9 => s.launchEth (s.e131Port rec)
  | k => if 1 ≤ k ∧ k ≤ 4 then s.launchEth (s.ethOfRec rec) else s

/-- R52, R214, R218, R271: a frame still queued at launch time plus its limit is dropped where its port is held. -/
def expireRec (s : State) (rec : Nat) : State :=
  let r := s.portRec rec
  match portKind r with
  | 5 =>
    let n := portNumber r
    if !s.sapHeld n then s
    else ((s.sapSt n).queue.filter (fun f => f.part == 0 && s.pastLimit f)).foldl (fun s f => s.dropBurst n f) s
  | 6 => s
  | 9 => s.dropExpired (s.e131Port rec)
  | k => if 1 ≤ k ∧ k ≤ 4 then s.dropExpired (s.ethOfRec rec) else s

end State

/-- FRAME_LAUNCH (R52, R162, R166, R213, R218, R243, R255). -/
def execFrameLaunch (port : Nat) (s : State) : Host.Outcome State Fault Refusal := act s fun s => s.launchRec port

/-- LAUNCH_LIMIT_EXPIRY (R52, R214, R218). -/
def execLaunchLimitExpiry (port : Nat) (s : State) : Host.Outcome State Fault Refusal := act s fun s => s.expireRec port

end Sys2Proof.Machine
end

