-- ==== Sys2Proof/Machine/Twin.lean ====
section
/-! DEFINITION. Twin trunks: the compare stage, arbitration, yields, rejoin and fail-back (R296 to R316). -/

namespace Sys2Proof.Machine

/-- A table with the selected keys of `[d, d + n)` replaced by those of `[lo, lo + n)`. -/
def tabCopy {α : Type} (l : Tab α) (lo n d : Nat) (sel : Nat → Bool) : Tab α :=
  (l.filter (fun k => decide (lo ≤ k.1 ∧ k.1 < lo + n) && sel (k.1 - lo))).foldl (fun m k => Tab.set m (k.1 - lo + d) k.2)
    (l.filter (fun k => !(decide (d ≤ k.1 ∧ k.1 < d + n) && sel (k.1 - d))))

/-- R299: the offsets of a trunk's range whose registers are persistent: intensities, crown, raster, interrupt and guest
registers, and the queue blocks' configuration. -/
def persistentOff (o : Nat) : Bool :=
  (0x40000 ≤ o && o < 0xA0000) || (0xB0000 ≤ o && o < 0xC0000 && o % 0x40 == 0) || 0x100000 ≤ o

namespace State

def yieldBit (t : Trunk) : Field := match t with | .a => Reg.CmpStatus.yieldA | .b => Reg.CmpStatus.yieldB
def rejoinedBit (t : Trunk) : Field := match t with | .a => Reg.CmpStatus.rejoinedA | .b => Reg.CmpStatus.rejoinedB
def divergeBit (t : Trunk) : Field := match t with | .a => Reg.CmpStatus.divergeLatchedA | .b => Reg.CmpStatus.divergeLatchedB

/-- R296: a trunk enters a state. -/
def setTrunkState (s : State) (t : Trunk) (v : Nat) : State :=
  match t with
  | .a => s.fset Reg.CmpStatus.stateA v
  | .b => s.fset Reg.CmpStatus.stateB v

/-- R451: what the HEALTH pad shows. -/
def healthy (s : State) : Bool :=
  s.inService .a && s.inService .b && [0, 1].all fun t =>
    s.fget (Reg.BistTrunkHealth.boughFailed t) == 0 && s.fget (Reg.BistTrunkHealth.sparesUp t) != 0 &&
      s.fget (Reg.BistTrunkHealth.sparesDown t) != 0 && s.fget (Reg.BistTrunkHealth.laneErr60s t) == 0

/-- R26, R417, R451: `TREE_MODE`, `TREE_READY` and the HEALTH pad follow the trunks' states; so does what R428 and R429 ask of
them. -/
def refresh (s : State) : State :=
  let a := s.inService .a
  let b := s.inService .b
  let was (f : Field) : Bool := s.fbit f
  let up := if a && !was Reg.TreeReady.trunkA then s.upd.trunkUp.set 0 s.free else s.upd.trunkUp
  let up := if b && !was Reg.TreeReady.trunkB then up.set 1 s.free else up
  let s := { s with upd := { s.upd with trunkUp := up, lastIll := if (a || b) && (was Reg.TreeReady.trunkA || was Reg.TreeReady.trunkB) then s.upd.lastIll else s.free } }
  let s := (s.fsetB Reg.TreeMode.trunkAUp a).fsetB Reg.TreeMode.trunkBUp b
  let s := s.fsetB Reg.TreeMode.compareActive (s.redundancy == 0 && a && b)
  let alone := (a != b) || s.redundancy == 2 && (a || b) && !(s.trunkState .a == 4 && s.trunkState .b == 4)
  let s := s.fsetB Reg.TreeMode.degraded (s.redundancy != 1 && alone)
  let s := (s.setReady Reg.TreeReady.trunkA a).setReady Reg.TreeReady.trunkB b
  let s := s.setReady Reg.TreeReady.seed ((a || b) && (match s.seed with | some d => !d.isSafety | none => false))
  { s with padHealth := s.healthy }

/-! ### Copying a trunk's state (R299, R312) -/

/-- The persistent state of trunk `t` becomes a copy of the other's; its work in hand follows it, so that both hand
over the same units from then on. -/
def mirrorInto (s : State) (t : Trunk) : State :=
  let o := t.other
  let bs := trunkBase o
  let bd := trunkBase t
  let all : Nat → Bool := fun _ => true
  let s := { s with
    regs := tabCopy s.regs bs 0x1000000 bd persistentOff, pend := tabCopy s.pend bs 0x1000000 bd all,
    act := tabCopy s.act bs 0x1000000 bd all, rasters := tabCopy s.rasters (o.idx * 8) 8 (t.idx * 8) all,
    guests := tabCopy s.guests (o.idx * 2) 2 (t.idx * 2) all, icus := tabCopy s.icus o.idx 1 t.idx all,
    scheds := tabCopy s.scheds o.idx 1 t.idx all,
    twin.handed := tabCopy s.twin.handed ((o.idx + 1) * 0x1000000) 0x1000000 ((t.idx + 1) * 0x1000000) all }
  let s := s.memCopy (dramBase o) (dramBase t) (2 ^ 35)
  let s := s.putTrunk t (s.trunk o)
  (s.fset (Reg.CrownCommitStatus.busy t) 0)

/-- R298, R299: a trunk that does not take the other's work over has no work in hand and no canvas frame: it begins with its next epoch. -/
def noWork (s : State) (t : Trunk) : State :=
  s.putTrunk t { s.trunk t with epochs := [], composing := [], frames := [], kept := [], keptLines := [] }

/-! ### Yield, loss and divergence (R308 to R310, R315, R316) -/

/-- R307: the longest hold. -/
def heldSince (s : State) (at_ : Nat) : State := s.regMax Reg.cmpHoldMax ((s.free - at_) / 65536)

/-- R303, R308, R309: the copies of trunk `t` no longer count: units that wait or are arbitrated leave on the other
trunk's copy, or when it comes. -/
def compareAbandon (s : State) (t : Trunk) : State :=
  let o := t.other
  let drop (s : State) (u : CUnit) : State := { s with twin.dropCopies := s.twin.dropCopies ++ [(o.idx, u.code, u.seq)] }
  let w := s.twin.waiting
  let arb := s.twin.arb ++ s.twin.arbWait
  let held := s.twin.etcHeld
  let s := { s with twin.waiting := [], twin.arb := [], twin.arbWait := [], twin.arbDone := [], twin.etcHeld := [],
                    twin.dropCopies := s.twin.dropCopies.filter (fun d => d.1 != t.idx), twin.outbox := s.twin.outbox.set t.idx [] }
  let s := (s.fset Reg.CmpStatus.arbBusy 0).fset Reg.CmpStatus.etcHold 0
  let s := w.foldl (fun s h => if h.from_ = o then (if h.queued then s else (s.letOut o h.unit).heldSince h.at_)
    else if h.queued then drop s h.unit else s) s
  let s := arb.foldl (fun s u =>
    match (match o with | .a => u.copyA | .b => u.copyB) with
    | some c => if u.gone then s else (s.letOut o c).heldSince u.at_
    | none => if u.gone then { s with twin.dropCopies := s.twin.dropCopies ++ [(o.idx, u.code, u.seq)] }
              else { s with twin.dropCopies := s.twin.dropCopies.filter (· != (o.idx, u.code, u.seq)) }) s
  held.foldl (fun s h => if h.1 = o then (s.letOut o h.2.1).heldSince h.2.2 else s) s

/-- R297: the active role moves off a trunk that leaves service. -/
def passRole (s : State) (t : Trunk) : State :=
  let o := t.other
  let name (s : State) : State := s.fsetB Reg.TreeMode.activeTrunk (o == .b)
  if s.redundancy = 2 then (if s.inService o then name s else s)
  else if s.trunkState t ≠ 4 then s
  else if s.trunkState o = 3 then name (s.setTrunkState o 4)
  else if s.trunkState o = 5 then
    let s := name (((s.mirrorInto o).noWork o).setTrunkState o 4)
    { s.fset Reg.CmpResync.phase 0 with twin.startNext := [o.idx] }
  else s

/-- A joining trunk whose source leaves service, or whose bulk phase fails, returns to TEST (R312). -/
def resyncFails (s : State) (t : Trunk) : State :=
  if s.trunkState t = 2 then (s.setTrunkState t 1).fset Reg.CmpResync.phase 0 else s

/-- R315: the fail-over counts towards the latch of fail-back. -/
def countFailover (s : State) : State :=
  let w := s.sd.latchWindow * second
  let l := s.free :: s.twin.foTimes.filter (fun t => s.free ≤ t + w)
  let s := ({ s with twin.foTimes := l }).fset Reg.CmpStatus.foRecent (min 3 l.length)
  if 3 ≤ l.length then s.fset Reg.CmpStatus.failbackLatched 1 else s

/-- A unit has still to be compared or arbitrated. -/
def unitOpen (s : State) (code seq : Nat) : Bool :=
  let is (u : CUnit) : Bool := u.code == code && u.seq == seq
  let w := s.twin
  w.outbox.any (fun o => o.2.any is) || w.waiting.any (fun h => is h.unit) || w.etcHeld.any (fun h => is h.2.1) ||
    (w.arb ++ w.arbWait).any (fun u => u.code == code && u.seq == seq)

/-- R301: a trunk drops what it kept of an epoch or a raster line once every unit of it has been compared or arbitrated. -/
def keptSettle (s : State) : State :=
  [Trunk.a, Trunk.b].foldl (fun s t =>
    let x := s.trunk t
    s.putTrunk t { x with kept := x.kept.filter (fun k => (List.range k.count).any fun i => s.unitOpen k.code (k.first + i)),
                          keptLines := x.keptLines.filter (fun l => s.unitOpen l.code l.seq) }) s

/-- What is left of a trunk that goes out of service: its work in hand is lost. -/
def clearWork (s : State) (t : Trunk) : State :=
  let s := s.noWork t
  let s := if s.twin.holdTrunk = some t then ({ s with twin.holdTrunk := none }).fset Reg.CmpHoldoff.left 0 else s
  { s with twin.ready := s.twin.ready.filter (· != t.idx), twin.tested := s.twin.tested.filter (· != t.idx), twin.adopted := s.twin.adopted.filter (· != t.other.idx) }

/-- R310: a trunk yields or is lost: it leaves service and goes to TEST. -/
def leave (s : State) (t : Trunk) (cause : Nat) : State :=
  if s.trunkState t < 3 then s
  else
    let cmp := s.compareActive
    let s := s.bump Reg.cmpFailoverCnt
    let s := (s.fset Reg.CmpLastCause.trunk t.idx).fset Reg.CmpLastCause.cause cause
    let s := s.flag (yieldBit t) 3
    let s := s.passRole t
    let s := s.setTrunkState t 1
    let s := if cmp then s.compareAbandon t else { s with twin.outbox := s.twin.outbox.set t.idx [] }
    let s := if s.noTrunk then s.resyncFails t.other else s
    let s := (s.clearWork t).countFailover.refresh
    let s := s.attnFailover
    if cause = 4 then s else s.attnFault

/-- R309: a trunk reports an error with `compare_active` 1. The standby yields at once; the active trunk yields as the cycle ends, unless
the standby reports in that cycle too. -/
def yieldOn (s : State) (t : Trunk) (cause : Nat) : State :=
  if !s.compareActive then s
  else if t = s.activeTrunk then { s with cyc.report := some (s.cyc.report.getD cause) }
  else
    let s := s.leave t cause
    { s with cyc.report := none }

/-- R309: the cycle ends: an active trunk that has reported an error yields. -/
def yieldDue (s : State) : State :=
  match s.cyc.report with
  | none => s
  | some c => if s.compareActive then s.leave s.activeTrunk c else s

/-- R312: a trunk enters RESYNC and the bulk phase begins. How much there is to copy is open. -/
def startResync (s : State) (t : Trunk) : State :=
  let d := s.draw 65536
  let s := (d.2.setTrunkState t 2).fset Reg.CmpResync.phase 1
  let s := (s.fset Reg.CmpResync.target t.idx).fset Reg.CmpResync.mibLeft d.1
  { s with twin.resyncAt := s.free }

/-- R316: an input divergence sends the standby to RESYNC; the third within the latch window sends it DOWN. Its event names the unit after
the register's address (DESIGN CHOICE: R436 lays out no more of a status bit's `args`). -/
def diverge (s : State) (t : Trunk) (unit : List Byte) : State :=
  if s.trunkState t ≠ 3 then s
  else
    let w := s.sd.latchWindow * second
    let l := s.free :: (s.twin.divTimes.get [] t.idx).filter (fun x => s.free ≤ x + w)
    let s := (({ s with twin.divTimes := s.twin.divTimes.set t.idx l, upd := { s.upd with lastIll := s.free } }).bump Reg.cmpDivergeCnt).fset Reg.CmpStatus.divergence 1
    let s := s.rootEvent 0x70000 (statusCode Reg.CmpStatus.divergence) 2 (leBytes 4 Reg.CmpStatus.divergence.addr ++ unit)
    let s := s.compareAbandon t
    let s := s.clearWork t
    let s := if 3 ≤ l.length then (s.setTrunkState t 0).fset (divergeBit t) 1 else s.startResync t
    s.refresh.attnFault

/-! ### The compare stage (R302 to R304) -/

def sameUnit (u v : CUnit) : Bool := u.code == v.code && u.seq == v.seq
/-- R304: ETC is in force. -/
def etc (s : State) : Bool := s.fbit Reg.TreeMode.emit
/-- R303: bytes of a trunk's copies that wait. -/
def storeFill (s : State) (t : Trunk) : Nat := (s.twin.waiting.filter (·.from_ == t)).foldl (fun a h => a + h.unit.out.data.length) 0

/-- R306, R308: a mismatch, or a missing copy: the unit joins the round or waits for the next. -/
def mismatch (s : State) (h : HeldCopy) (second : Option CUnit) : State :=
  let s := (s.bump Reg.cmpMismatchCnt).fset Reg.CmpStatus.mismatch 1
  let s := s.fset Reg.CmpLastPort.port h.unit.code
  let s := (s.setRegN Reg.cmpLastSeqLo h.unit.seq).fset Reg.CmpLastSeqHi.value (h.unit.seq / 2 ^ 32)
  let s := match second with
    | some _ => s
    | none => ({ s with twin.dropCopies := s.twin.dropCopies ++ [(h.from_.other.idx, h.unit.code, h.unit.seq)] }).bump Reg.cmpMissingCnt
  let wd : Bool × State := if !h.queued then (false, s) else
    match s.withdraw h.from_ h.unit with
    | some s => (false, s)
    | none => (true, s)
  let s := if wd.2.etc then wd.2.fset Reg.CmpStatus.etcHold 1 else wd.2
  let first := some h.unit
  let u : ArbUnit := { code := h.unit.code, seq := h.unit.seq, copyA := if h.from_ = .a then first else second,
                       copyB := if h.from_ = .b then first else second, at_ := h.at_, asked := s.free, gone := wd.1 }
  let s := s.fset Reg.CmpStatus.arbBusy 1
  if s.twin.arb.length + s.twin.arbDone.length < 64 then { s with twin.arb := s.twin.arb ++ [u] } else { s with twin.arbWait := s.twin.arbWait ++ [u] }

/-- R303, R304: a copy is compared with the one that waits, or waits itself. -/
def compareIn (s : State) (t : Trunk) (u : CUnit) : State :=
  match s.twin.waiting.find? (fun h => h.from_ == t.other && sameUnit h.unit u) with
  | some h =>
    let s := { s with twin.waiting := s.twin.waiting.filter (· != h) }
    if h.unit.crc = u.crc then
      let s := (s.bump64 Reg.cmpAgreeLo Reg.cmpAgreeHi 1).heldSince h.at_
      if h.queued then s else s.letOut h.from_ h.unit
    else s.mismatch h (some u)
  | none =>
    let s := if s.etc then s.letOut t u else s
    { s with twin.waiting := s.twin.waiting ++ [{ from_ := t, unit := u, at_ := s.free, queued := s.etc }] }

/-- R302 to R304: the next unit of trunk `t` arrives at the root. -/
def unitArrives (s : State) (t : Trunk) : State :=
  match s.twin.outbox.get [] t.idx with
  | [] => s
  | u :: r =>
    let pop (s : State) : State := { s with twin.outbox := s.twin.outbox.set t.idx r }
    if !s.inService t then pop s
    else if s.cyc.report.isSome && t == s.activeTrunk then s
    else if !s.compareActive || u.solo then (pop s).letOut t u
    else if s.twin.dropCopies.contains (t.idx, u.code, u.seq) then
      { pop s with twin.dropCopies := s.twin.dropCopies.filter (· != (t.idx, u.code, u.seq)) }
    else if s.fbit Reg.CmpStatus.etcHold then { pop s with twin.etcHeld := s.twin.etcHeld ++ [(t, u, s.free)] }
    else if !s.twin.waiting.any (fun h => h.from_ == t.other && sameUnit h.unit u) && decide (2 ^ 26 < s.storeFill t + u.out.data.length) then s
    else (pop s).compareIn t u

/-- R303, R304, R368: second copies that have not come within `window`; one that the ETC hold keeps has come. -/
def windowExpires (s : State) : State :=
  let w := s.fget Reg.CmpCtrl.window * 65536000
  let late (h : HeldCopy) : Bool := decide (h.at_ + w ≤ s.free) && !s.twin.etcHeld.any (fun e => e.1 == h.from_.other && sameUnit e.2.1 h.unit)
  ((s.twin.waiting.filter late).foldl (fun (s : State) h => s.mismatch h none) { s with twin.waiting := s.twin.waiting.filter (fun h => !late h) }).graftWindow

/-! ### Arbitration (R306 to R308) -/

/-- What arbitration decides of a unit: the copy that leaves, the verdict, and the counter that counts it. -/
structure Verdict where
  out : Option CUnit
  yields : Option (Trunk × Nat)
  counter : Nat

/-- R306: the first row of the outcome table that applies. `act` is the active trunk. -/
def decideUnit (act : Trunk) (u : ArbUnit) : Verdict :=
  let a := u.copyA.map CUnit.crc
  let b := u.copyB.map CUnit.crc
  let ra := u.voteA.join
  let rb := u.voteB.join
  let votes := [a, b, ra, rb].filterMap id
  match votes.find? (fun v => decide (3 ≤ votes.count v)) with
  | some v =>
    let loser := if a ≠ some v then some (Trunk.a, 4) else if b ≠ some v then some (Trunk.b, 4) else none
    ⟨if a = some v then u.copyA else u.copyB, loser, Reg.cmpArb3of4Cnt⟩
  | none =>
    let ca := a.isSome && a == ra
    let cb := b.isSome && b == rb
    if ca && cb then ⟨match act with | .a => u.copyA | .b => u.copyB, some (act.other, 0), 0⟩
    else if ca then ⟨u.copyA, some (.b, 4), Reg.cmpSelfconsCnt⟩
    else if cb then ⟨u.copyB, some (.a, 4), Reg.cmpSelfconsCnt⟩
    else ⟨none, some (act.other, 7), Reg.cmpUnresolvedCnt⟩

/-- R306: a unit with both votes in is decided and released; its verdict waits for the end of the round. -/
def settleUnit (s : State) (u : ArbUnit) : State :=
  let v := decideUnit s.activeTrunk u
  let s := { s with twin.arb := s.twin.arb.filter (· != u), twin.arbDone := s.twin.arbDone ++ [(v.yields, u.code, u.seq)] }
  let s := if v.counter = 0 then s else s.bump v.counter
  let s := if v.counter = Reg.cmpUnresolvedCnt then { s.fset Reg.CmpStatus.unresolved 1 with upd := { s.upd with lastIll := s.free } } else s
  let s := s.heldSince u.at_
  match v.out with
  | some c => if u.gone then s else s.letOut s.activeTrunk c
  | none =>
    match (if u.gone then none else u.copyA.or u.copyB) with
    | some c => if c.code / 256 = 5 then s.letOut s.activeTrunk { c with out := { c.out with data := [] } } else s
    | none => s

/-- R304: when arbitration ends, the units held under ETC are released in arrival order. -/
def etcRelease (s : State) : State :=
  let l := s.twin.etcHeld
  l.foldl (fun s h => if s.fbit Reg.CmpStatus.etcHold then { s with twin.etcHeld := s.twin.etcHeld ++ [h] } else s.compareIn h.1 h.2.1)
    (({ s with twin.etcHeld := [] }).fset Reg.CmpStatus.etcHold 0)

/-- R308: the round is over: the losers leave service, only the standby if both would; waiting units form the next
round. -/
def roundEnds (s : State) : State :=
  let v := s.twin.arbDone.filterMap (·.1)
  let split := s.twin.arbDone.find? (fun d => d.1 == some (s.activeTrunk.other, 0))
  let causeOf (t : Trunk) : Option Nat := (v.find? (fun x => x.1 == t && x.2 != 0)).map (·.2)
  let st := s.activeTrunk.other
  let s := { s with twin.arbDone := [] }
  match causeOf st, causeOf s.activeTrunk with
  | some c, _ => s.leave st c
  | none, some c => s.leave s.activeTrunk c
  | none, none =>
    match split with
    | some d => s.diverge st (leBytes 2 d.2.1 ++ leBytes 6 d.2.2)
    | none =>
      let next := s.twin.arbWait.take 64
      let s := { s with twin.arb := next.map (fun u => { u with asked := s.free }), twin.arbWait := s.twin.arbWait.drop 64 }
      if next.isEmpty then (s.fset Reg.CmpStatus.arbBusy 0).etcRelease else s

/-- Units whose votes are all in are decided; the round ends with the last of them. -/
def settle (s : State) : State :=
  let done := s.twin.arb.filter (fun u => u.voteA.isSome && u.voteB.isSome)
  let s := done.foldl settleUnit s
  if s.twin.arb.isEmpty && !s.twin.arbDone.isEmpty then s.roundEnds else s

/-- R306: a recompute vote returns. -/
def vote (s : State) (t : Trunk) (code seq : Nat) (crc : BitVec 64) : State :=
  let put (u : ArbUnit) : ArbUnit :=
    if u.code ≠ code ∨ u.seq ≠ seq then u
    else match t with
      | .a => if u.voteA.isNone then { u with voteA := some (some crc) } else u
      | .b => if u.voteB.isNone then { u with voteB := some (some crc) } else u
  ({ s with twin.arb := s.twin.arb.map put }).settle

/-- R306: votes that have not returned within 80 µs are missing. -/
def votesLate (s : State) : State :=
  let late (u : ArbUnit) : Bool := decide (u.asked + 80 * 65536000 ≤ s.free)
  let k := s.twin.arb.foldl (fun n u => if late u then n + u.voteA.isNone.toNat + u.voteB.isNone.toNat else n) 0
  let fill (u : ArbUnit) : ArbUnit :=
    if late u then { u with voteA := some (u.voteA.getD none), voteB := some (u.voteB.getD none) } else u
  (({ s with twin.arb := s.twin.arb.map fill }).bumpBy Reg.cmpMissingCnt k).settle

/-! ### Links (R305, R310) -/

def laneSpares (t : Trunk) (up : Bool) : Field :=
  if up then Reg.BistTrunkHealth.sparesUp t.idx else Reg.BistTrunkHealth.sparesDown t.idx

/-- R305: a replay; a lane with 16 replays within 1 ms is replaced, or the trunk is lost. -/
def replay (s : State) (t : Trunk) (up : Bool) (lane : Nat) : State :=
  let k := (t.idx * 2 + up.toNat) * 64 + lane
  let l := s.free :: (s.twin.laneReplays.get [] k).filter (fun x => s.free < x + 1000000 * 65536)
  if l.length < 16 then { s with twin.laneReplays := s.twin.laneReplays.set k l }
  else
    let s := { s with twin.laneReplays := s.twin.laneReplays.erase k }
    let n := s.fget (laneSpares t up)
    if n = 0 then s.leave t 6
    else ((s.fset (laneSpares t up) (n - 1)).rootEvent 0x70000 0x0815 1 [BitVec.ofNat 8 t.idx, BitVec.ofNat 8 lane, 0]).refresh

/-! ### TEST and RESYNC (R296, R311, R312, R415) -/

/-- R415: a trunk that has passed TEST and finished its load is ready; with a source in service it joins by RESYNC. -/
def readyCheck (s : State) (t : Trunk) : State :=
  if s.trunkState t ≠ 1 ∨ !s.twin.tested.contains t.idx then s
  else if s.inService t.other then
    let s := { s with twin.tested := s.twin.tested.filter (· != t.idx) }
    s.startResync t
  else if s.twin.loaded.contains t.idx ∧ !s.twin.ready.contains t.idx then { s with twin.ready := s.twin.ready ++ [t.idx] }
  else s

/-- R296, R311, R450: TEST completes; a trunk with a bough marked failed fails. -/
def testDone (s : State) (t : Trunk) (pass : Bool) : State :=
  if s.trunkState t ≠ 1 ∨ s.twin.retryAt.get 0 t.idx ≠ 0 ∨ s.twin.tested.contains t.idx then s
  else if pass && s.fget (Reg.BistTrunkHealth.boughFailed t.idx) == 0 then
    ({ s with twin.testFails := s.twin.testFails.set t.idx 0, twin.tested := s.twin.tested ++ [t.idx] }).readyCheck t
  else
    let n := s.twin.testFails.get 0 t.idx + 1
    if 3 ≤ n then ({ s with twin.testFails := s.twin.testFails.set t.idx 0 }).setTrunkState t 0
    else { s with twin.testFails := s.twin.testFails.set t.idx n, twin.retryAt := s.twin.retryAt.set t.idx (s.free + 10 * second) }

/-- R296: TEST runs again 10 s after it failed. -/
def testRetry (s : State) (t : Trunk) : State :=
  let r := s.twin.retryAt.get 0 t.idx
  if s.trunkState t = 1 ∧ r ≠ 0 ∧ r ≤ s.free then { s with twin.retryAt := s.twin.retryAt.set t.idx 0 } else s

/-- The trunk in RESYNC. -/
def joining (s : State) : Option Trunk :=
  if s.trunkState .a = 2 then some .a else if s.trunkState .b = 2 then some .b else none

/-- R312: the bulk phase ends. -/
def bulkDone (s : State) : State :=
  if s.joining.isSome ∧ s.fget Reg.CmpResync.phase = 1 then
    { (s.fset Reg.CmpResync.phase 2).fset Reg.CmpResync.mibLeft 0 with twin.resyncAt := s.free }
  else s

/-- R312, R326: the bulk phase has not completed within 10 s. -/
def bulkLate (s : State) : State :=
  match s.joining with
  | some t =>
    if s.fget Reg.CmpResync.phase = 1 ∧ s.twin.resyncAt + 10 * second ≤ s.free then
      (s.resyncFails t).rootEvent 0x70000 0x0815 1 [BitVec.ofNat 8 t.idx, 0, 2]
    else s
  | none => s

/-! ### At a tree epoch (R297, R298, R312 to R314, R415, R447) -/

/-- R447, R450: a park that was asked for: the trunk goes DOWN if the other is in service. -/
def parkOne (s : State) (t : Trunk) (cause : Nat) : State :=
  if s.trunkState t < 3 then s
  else if !s.inService t.other then (if cause = 0 then s.fset Reg.BistStatus.parkRefused 1 else s)
  else
    let cmp := s.compareActive
    let s := s.passRole t
    let s := s.setTrunkState t 0
    let s := if cmp then s.compareAbandon t else { s with twin.outbox := s.twin.outbox.set t.idx [] }
    let s := (s.clearWork t).refresh
    (s.rootEvent 0x70000 0x0861 0 [BitVec.ofNat 8 t.idx, BitVec.ofNat 8 cause]).attnFailover

/-- R132: the KEEP leaves of a half start with residual 0 in the trunk that takes them over. -/
def freshKeep (s : State) (o : Trunk) (half : Trunk) : State :=
  let keep := (List.range s.leafCount).filter (fun i => leafPriority (s.leafRec i) == 0 && leafTrunk (s.leafRec i) == half.idx)
  let x := s.trunk o
  let inLeaf (i k : Nat) : Bool :=
    let r := s.leafRec i
    let slot := k / 32
    decide (leafFirst r ≤ slot ∧ slot < leafFirst r + leafPixels r)
  s.putTrunk o { x with fresh := (x.fresh ++ keep).eraseDups, residuals := x.residuals.filter (fun p => !keep.any (fun i => inLeaf i p.1)) }

/-- R298: the survivor begins to compose the canvases of a half, as the seed gives them (DESIGN CHOICE: the state of the lost trunk is
not at hand). -/
def adoptCanvases (s : State) (o : Trunk) (half : Trunk) : State :=
  let c (c : Nat) : Bool := canvasTrunk (s.canvasRec c) == half.idx
  let x := s.trunk o
  let s := s.putTrunk o { x with frames := x.frames.filter (fun k => !c k.1), composing := x.composing.filter (fun k => !c k.1) }
  s.seedCanvases o c

/-- R298: in SPLIT the survivor takes over the KEEP leaves of a half that is not computed. -/
def adoptHalves (s : State) : State :=
  if s.redundancy ≠ 2 then { s with twin.adopted := [], twin.adoptedLeaves := [] }
  else
    let need (t : Trunk) : Bool := s.trunkState t != 4 && s.trunkState t.other == 4
    let l := ([Trunk.a, Trunk.b].filter need).map Trunk.idx
    let s := [Trunk.a, Trunk.b].foldl (fun s t => if l.contains t.idx && !s.twin.adopted.contains t.idx then (s.freshKeep t.other t).adoptCanvases t.other t else s) s
    { s with twin.adopted := l }

/-- R314: fail-back. -/
def failback (s : State) (t : Trunk) : State :=
  let s := ((s.bump Reg.cmpFailbackCnt).flag Reg.CmpStatus.failback 0).attnFailover
  if s.redundancy = 2 then (((s.mirrorInto t).noWork t).setTrunkState t 4).fset Reg.CmpResync.phase 0
  else
    let s := if s.redundancy = 1 then s.mirrorInto t else s
    let s := (s.setTrunkState t 4).setTrunkState t.other (if s.redundancy = 1 then 5 else 3)
    s.fsetB Reg.TreeMode.activeTrunk (t == .b)

/-- R313, R314: one epoch of hold-off. -/
def holdoffEpoch (s : State) : State :=
  match s.twin.holdTrunk with
  | none => s
  | some t =>
    let n := s.fget Reg.CmpHoldoff.left - 1
    let s := s.fset Reg.CmpHoldoff.left n
    if n ≠ 0 then s
    else
      let s := { s with twin.holdTrunk := none }
      let free := !s.fbit Reg.CmpStatus.failbackLatched && !s.sd.failbackOff
      if free && (s.redundancy == 2 || s.sd.primary == t && s.trunkState t != 4) then s.failback t else s

/-- R368: the trunk that joins counts its cores' graft requests from where the other trunk's counts stand. -/
def pairCounts (s : State) (t : Trunk) : State :=
  { s with bridge.graftCnt := (List.range 8).foldl (fun m i => m.set (t.idx * 8 + i) (m.get 0 (t.other.idx * 8 + i))) s.bridge.graftCnt,
           bridge.graftSolo := s.bridge.graftSolo.filter (fun k => k.1 != t.idx) }

/-- R312: cut-over at the first tree epoch at least 50 µs after the bulk phase. -/
def cutover (s : State) : State :=
  match s.joining with
  | none => s
  | some t =>
    if s.fget Reg.CmpResync.phase ≠ 2 ∨ s.free < s.twin.resyncAt + 50 * 65536000 ∨ !s.inService t.other then s
    else
      let s := (s.mirrorInto t).pairCounts t
      let s := { s with twin.outbox := s.twin.outbox.set t.other.idx ((s.twin.outbox.get [] t.other.idx).map (fun (u : CUnit) => { u with solo := true })) }
      let s := s.setTrunkState t (if s.redundancy = 1 then 5 else 3)
      let s := s.fset Reg.CmpResync.phase (if s.redundancy = 0 then 0 else 3)
      let s := (s.fset (rejoinedBit t) 1).attnFailover
      if s.sd.holdoff = 0 then s
      else ({ s with twin.holdTrunk := some t }).fset Reg.CmpHoldoff.left s.sd.holdoff

/-- R297, R415: trunks that are ready come into service; the first of them becomes active. -/
def comeUp (s : State) : State :=
  if !s.noTrunk then s
  else
    match s.twin.ready.filter (fun i => s.trunkState (if i = 0 then .a else .b) == 1) with
    | [] => s
    | i :: r =>
      let tr (i : Nat) : Trunk := if i = 0 then .a else .b
      let s := (s.setTrunkState (tr i) 4).fsetB Reg.TreeMode.activeTrunk (tr i == .b)
      let s := match r with
        | j :: _ => s.setTrunkState (tr j) (if s.redundancy = 0 then 3 else if s.redundancy = 1 then 5 else 4)
        | [] => s
      { s with twin.ready := [], twin.tested := [], twin.startNext := [] }

/-- R297: the roles exchange at the tree epoch after a swap write. -/
def swapRoles (s : State) : State :=
  let s' := { s with twin.swapReq := false }
  if s.twin.swapReq && s.compareActive then
    let t := s.activeTrunk
    ((s'.setTrunkState t 3).setTrunkState t.other 4).fsetB Reg.TreeMode.activeTrunk (t.other == .b)
  else s'

/-- What a tree epoch does to the trunks' states. -/
def twinEpoch (s : State) : State :=
  let s := { s with twin.startNext := [] }
  let s := s.swapRoles
  let parks := s.twin.parkReq
  let vecs := s.twin.vecPark
  let tr (i : Nat) : Trunk := if i = 0 then .a else .b
  let s := parks.foldl (fun s i => s.parkOne (tr i) 0) { s with twin.parkReq := [], twin.vecPark := [] }
  let s := vecs.foldl (fun s i => s.parkOne (tr i) 1) s
  let back := s.twin.backReq
  let s := back.foldl (fun s i => if s.redundancy = 2 ∧ s.trunkState (tr i) = 3 then s.failback (tr i) else s) { s with twin.backReq := [] }
  let s := s.holdoffEpoch
  let s := (s.cutover.comeUp).adoptHalves
  s.refresh

/-! ### Host requests (R297, R314 to R316) -/

/-- R314, R316: `rejoin` for a trunk. -/
def rejoin (s : State) (t : Trunk) : State :=
  let s := s.fset (divergeBit t) 0
  if s.trunkState t = 0 ∧ s.fbit Reg.TreeReady.firmware then
    let s := { s with twin.testFails := s.twin.testFails.set t.idx 0, twin.retryAt := s.twin.retryAt.set t.idx 0, twin.tested := s.twin.tested.filter (· != t.idx) }
    s.setTrunkState t 1
  else if s.redundancy = 2 ∧ s.trunkState t = 3 ∧ s.twin.holdTrunk ≠ some t then { s with twin.backReq := s.twin.backReq ++ [t.idx] }
  else s

/-- R327: a write of `swap`. -/
def swapWrite (s : State) : State := if s.compareActive then { s with twin.swapReq := true } else s

/-- R447: a write of a park bit, which only SERVICE allows. -/
def parkWrite (s : State) (t : Trunk) : State :=
  if s.fget Reg.LifeState.state = 3 then { s with twin.parkReq := s.twin.parkReq ++ [t.idx] } else s.fset Reg.BistStatus.parkRefused 1

end State

/-- COMPARE_UNIT_ARRIVAL (R302 to R304, R212). -/
def execCompareUnitArrival (t : Trunk) (s : State) : Host.Outcome State Fault Refusal := act s fun s => (s.unitArrives t).keptSettle

/-- COMPARE_WINDOW_EXPIRY (R303, R306, R368). -/
def execCompareWindowExpiry (s : State) : Host.Outcome State Fault Refusal := act s fun s => s.windowExpires.keptSettle

/-- VOTE_TIMEOUT (R306 to R308). -/
def execVoteTimeout (s : State) : Host.Outcome State Fault Refusal := act s fun s => s.votesLate.keptSettle

/-- LINK_REPLAY (R305, R310). -/
def execLinkReplay (t : Trunk) (up : Bool) (lane : Fin 34) (s : State) : Host.Outcome State Fault Refusal :=
  act s fun s => s.replay t up lane

/-- TRUNK_KEEPALIVE_LOSS (R297, R298, R310, R315). -/
def execTrunkKeepaliveLoss (t : Trunk) (s : State) : Host.Outcome State Fault Refusal := act s fun s => s.leave t 5

/-- TRUNK_TEST_DONE (R296, R311, R415). -/
def execTrunkTestDone (t : Trunk) (pass : Bool) (s : State) : Host.Outcome State Fault Refusal := act s fun s => s.testDone t pass

/-- TRUNK_TEST_RETRY (R296). -/
def execTrunkTestRetry (t : Trunk) (s : State) : Host.Outcome State Fault Refusal := act s fun s => s.testRetry t

/-- RESYNC_BULK_DONE (R312). -/
def execResyncBulkDone (s : State) : Host.Outcome State Fault Refusal := act s fun s => s.bulkDone

/-- RESYNC_TIMEOUT (R312). -/
def execResyncTimeout (s : State) : Host.Outcome State Fault Refusal := act s fun s => s.bulkLate

/-- CMP_UNLATCH (R315, R327). -/
def execCmpUnlatch (s : State) : Host.Outcome State Fault Refusal := act s fun s => s.fset Reg.CmpStatus.failbackLatched 0

/-- CMP_SWAP (R297, R327): ignored unless `compare_active` reads 1. -/
def execCmpSwap (s : State) : Host.Outcome State Fault Refusal :=
  act s fun s => s.swapWrite

/-- CMP_REJOIN (R296, R314, R316, R327). -/
def execCmpRejoin (t : Trunk) (s : State) : Host.Outcome State Fault Refusal := act s fun s => s.rejoin t

/-- TRUNK_PARK (R447): outside SERVICE it has no effect but `park_refused`. -/
def execTrunkPark (t : Trunk) (s : State) : Host.Outcome State Fault Refusal :=
  act s fun s => s.parkWrite t

end Sys2Proof.Machine
end

