-- ==== Sys2Proof/Machine/Chk.lean ====
section
/-! DEFINITION. Check-value engines, and ECC errors (R401 to R413). -/

namespace Sys2Proof.Machine

/-- The key of an engine in `State.chk`: of the root by number, of trunk t at 16 * (t + 1) + number. -/
def chkKey : Option Trunk → Nat → Nat
  | none, n => n
  | some t, n => 16 * (t.idx + 1) + n

/-- R412: the base of an engine's registers. -/
def chkBase : Option Trunk → Nat → Nat
  | none, n => Reg.chkCfg n
  | some t, n => Reg.chkTCfg t n

/-- R402: the fixed algorithms. -/
def fixedAlg : Nat → CrcAlg
  | 0 => crc32cAlg
  | 1 => ⟨32, 0x04C11DB7, 0xFFFFFFFF, true, true, 0xFFFFFFFF⟩
  | 2 => crc16Alg
  | _ => crc64Alg

/-- Bytes of a check value of a width (R406). -/
def checkBytes (w : Nat) : Nat := (w + 7) / 8

/-- A fold or check value as bytes in an order: 0 least significant first. -/
def orderBytes (be : Bool) (n v : Nat) : List Byte := if be then beBytes n v else leBytes n v

namespace State

/-- The engine exists (R401). -/
def chkHere (e : Option Trunk) (n : Nat) : Bool := e.isSome || decide (n < 8)

def chkSt (s : State) (e : Option Trunk) (n : Nat) : ChkSt := s.chk.get {} (chkKey e n)
def putChk (s : State) (e : Option Trunk) (n : Nat) (x : ChkSt) : State := { s with chk := s.chk.set (chkKey e n) x }

/-- R412: the `CFG` fields and status bits of an engine. -/
def chkCfgF (s : State) (e : Option Trunk) (n lo len : Nat) : Nat := s.fget ⟨chkBase e n, lo, len⟩
def chkFlag (s : State) (e : Option Trunk) (n bit : Nat) (v : Bool) : State := s.fsetB ⟨chkBase e n + 0x0C, bit, 1⟩ v

/-- A 64-bit register pair of an engine. -/
def chk64 (s : State) (e : Option Trunk) (n off : Nat) : Nat := s.regN (chkBase e n + off) + 2 ^ 32 * s.regN (chkBase e n + off + 4)
def chkPut64 (s : State) (e : Option Trunk) (n off v : Nat) : State := s.setReg64 (chkBase e n + off) (chkBase e n + off + 4) v

/-- R412: `busy` reads 1 in the fabric cycle in which the engine absorbs. -/
def chkBusy (s : State) (e : Option Trunk) (n : Nat) : Bool := decide (s.free < (s.chkSt e n).busyTo)

/-- R402, R403: the algorithm of an engine as it is configured. -/
def chkAlg (s : State) (e : Option Trunk) (n : Nat) : CrcAlg :=
  if s.chkCfgF e n 30 2 = 0 then fixedAlg (s.chkCfgF e n 28 2)
  else ⟨s.chkCfgF e n 21 7, s.chk64 e n 0x10, s.chk64 e n 0x18, s.chkCfgF e n 20 1 == 1, s.chkCfgF e n 19 1 == 1, s.chk64 e n 0x20⟩

/-- R403: why a `start` is refused. -/
def chkBad (s : State) (e : Option Trunk) (n : Nat) : Bool :=
  let mode := s.chkCfgF e n 30 2
  let a := s.chkAlg e n
  let by_ := s.chkCfgF e n 0 3
  (s.chkSt e n).badCfg || decide (2 ≤ mode) || decide (8 < s.chkCfgF e n 15 4) || s.chkCfgF e n 12 2 == 3 || by_ == 0 || decide (4 < by_) ||
    mode == 1 && (decide (a.width < 8) || decide (64 < a.width) || decide (2 ^ a.width ≤ a.poly) || decide (2 ^ a.width ≤ a.init) ||
      decide (2 ^ a.width ≤ a.xorout) || a.poly % 2 == 0)

/-- R404, R406: bytes are absorbed; STRIP holds back as many as a check value has. -/
def chkAbsorb (s : State) (e : Option Trunk) (n : Nat) (l : List Byte) (data : Bool) : State :=
  let a := s.chkAlg e n
  let x := s.chkSt e n
  let hold := if data ∧ s.chkCfgF e n 12 2 = 2 then checkBytes a.width else 0
  let all := if data then x.tail ++ l else l
  let now := all.take (all.length - hold)
  let s := s.chkPut64 e n 0x30 (crcRun a (s.chk64 e n 0x30) now)
  s.putChk e n { x with busyTo := s.free + 163840, tail := if data then all.drop (all.length - hold) else x.tail }

/-- R403 to R405: a write of `start`. -/
def chkStartOp (s : State) (e : Option Trunk) (n : Nat) : State :=
  if !chkHere e n then s
  else if s.chkBad e n then s.chkFlag e n 25 true
  else
    let a := s.chkAlg e n
    let k := s.chkCfgF e n 15 4
    let s := (s.chkPut64 e n 0x30 a.init).putChk e n {}
    s.chkAbsorb e n (orderBytes (s.chkCfgF e n 14 1 == 1) k (s.chk64 e n 0x28)) false

/-- R404: a write to `DATA` absorbs `data_bytes` bytes, bits 7:0 first. -/
def chkDataOp (s : State) (e : Option Trunk) (n : Nat) (v : Word) : State :=
  if !chkHere e n then s else s.chkAbsorb e n (leBytes (s.chkCfgF e n 0 3) v.toNat) true

/-- R404, R406: a write of `finish`. -/
def chkFinishOp (s : State) (e : Option Trunk) (n : Nat) : State :=
  if !chkHere e n then s
  else
    let a := s.chkAlg e n
    let r := crcOut a (s.chk64 e n 0x30)
    let be := s.chkCfgF e n 11 1 == 1
    let k := checkBytes a.width
    let s := ((s.chkPut64 e n 0x38 r).chkFlag e n 28 true).bump (chkBase e n + 0x40)
    match s.chkCfgF e n 12 2 with
    | 1 => s.emit (.check (chkKey e n) (orderBytes be k r))
    | 2 =>
      let t := (s.chkSt e n).tail
      let ok := t.length == k && (if be then ofBe t else ofLe t) == r
      let s := (s.chkFlag e n 29 ok).putChk e n { s.chkSt e n with tail := [] }
      if ok then s else (s.chkFlag e n 27 true).bump (chkBase e n + 0x44)
    | _ => s

/-- R404: a write to half of `STATE`. Bits at or above the width read 0. -/
def chkStateOp (s : State) (e : Option Trunk) (n : Nat) (hi : Bool) (v : Word) : State :=
  if !chkHere e n then s
  else if s.chkBusy e n then s.chkFlag e n 26 true
  else
    let old := s.chk64 e n 0x30
    let x := if hi then old % 2 ^ 32 + 2 ^ 32 * v.toNat else old / 2 ^ 32 * 2 ^ 32 + v.toNat
    s.chkPut64 e n 0x30 (x % 2 ^ (s.chkAlg e n).width)

/-! ### ECC (R408 to R411, R413) -/

/-- R413: the base of a die's ECC registers. -/
def eccBase : Option Trunk → Nat
  | none => Reg.chkEccCorrCnt
  | some t => Reg.chkTEccCorrCnt t

def dieOf : Option Trunk → Nat
  | none => 0
  | some t => t.idx + 1

/-- R413: the first error after `valid` was cleared is captured; an uncorrectable one replaces a correctable one. One that is not captured
is what the registers hold if `valid` is cleared in its cycle. `bit` is the bit corrected, none of an uncorrectable word. -/
def eccCapture (s : State) (e : Option Trunk) (x : EccRead) (bit : Option Nat) (scrub : Bool) : State :=
  let b := eccBase e
  let info := s.regN (b + 8)
  let w := 2 ^ 31 + 2 ^ 30 * bit.isNone.toNat + 2 ^ 29 * scrub.toNat + 2 ^ 25 * x.memory.val + 2 ^ 15 * x.unit.val + bit.getD 0x7F
  let l := [(b + 8, w), (b + 0xC, x.addr), (b + 0x10, if x.memory.val = 0 then x.addr / 2 ^ 32 % 256 else 0)]
  if info / 2 ^ 31 = 1 ∧ !(bit.isNone && info / 2 ^ 30 % 2 == 0) then s.keepAgain (b + 8) l
  else l.foldl (fun s r => s.setRegN r.1 r.2) (s.noteSet ⟨b + 8, 31, 1⟩ 1)

/-- R408, R411: a corrected word. -/
def eccCorrected (s : State) (e : Option Trunk) (x : EccRead) (bit : Nat) (scrub : Bool) : State :=
  let k := dieOf e * 16 + x.memory.val
  let o := s.eccSeen.get (0, none, 0, 0) k
  let s := (s.bump (eccBase e)).eccCapture e x (some bit) scrub
  { s with eccSeen := s.eccSeen.set k (o.1 + 1, o.2.1, x.unit.val, x.addr) }

/-- R411: the event of corrected words, at most once per second per memory kind and die. -/
def eccEvent (s : State) (e : Option Trunk) (m : Nat) : State :=
  let k := dieOf e * 16 + m
  let o := s.eccSeen.get (0, none, 0, 0) k
  let soon := match o.2.1 with | some t => decide (s.free < t + second) | none => false
  if o.1 == 0 || soon then s
  else
    let s := { s with eccSeen := s.eccSeen.set k (0, some s.free, o.2.2.1, o.2.2.2) }
    s.pushEvent { die := dieOf e, block := (match e with | none => 0x120 | some _ => 0xC0), code := 0x0811, cls := 1,
                  args := leBytes 1 m ++ leBytes 2 o.2.2.1 ++ leBytes 4 o.1 ++ leBytes 8 o.2.2.2 }

/-- R480: the event of an uncorrectable word; outcome 0 yield, 1 reloaded, 2 zeroed, 3 discarded, 4 work item failed. -/
def eccUncorrEvent (s : State) (e : Option Trunk) (x : EccRead) (scrub : Bool) (outcome : Nat) : State :=
  (s.pushEvent { die := dieOf e, block := (match e with | none => 0x120 | some _ => 0xC0), code := 0x0812,
                 cls := if outcome = 0 then 3 else 2,
                 args := leBytes 1 x.memory.val ++ leBytes 2 x.unit.val ++ leBytes 1 scrub.toNat ++ leBytes 8 x.addr ++ leBytes 1 outcome }).attnFault

/-- R309: the 64-byte line of a persistent region is reloaded from the seed, or reads 0. -/
def eccLine (s : State) (t : Trunk) (x : EccRead) : State :=
  let bytes := match x.seedLine with | some l => (l ++ List.replicate 64 0).take 64 | none => List.replicate 64 0
  if x.memory.val = 0 then s.memWrite (x.addr / 64 * 64) bytes
  else if x.memory.val = 4 then
    let c := if x.unit.val = 7 then 1 else 0
    let g := s.guest t c
    s.putGuest t c { g with tcm := memPuts g.tcm (x.addr * 8 / 64 * 64) bytes }
  else s

/-- R95: a leaf's work item in a trunk has failed: its oldest job waits for the re-run. -/
def failItem (s : State) (t : Trunk) (i : Nat) : State :=
  let go (a : Bool × List PortJob) (e : PortJob) : Bool × List PortJob :=
    if !a.1 && e.jobs.any (fun j => j.leaf == i && j.codes.isNone) then
      (true, a.2 ++ [{ e with jobs := e.jobs.map (fun j => if j.leaf = i then { j with rerun := true } else j) }])
    else (a.1, a.2 ++ [e])
  let x := s.trunk t
  s.putTrunk t { x with epochs := (x.epochs.foldl go (false, [])).2 }

/-- R326, R411: a TMR disagreement in the control state of a root block is corrected: an event, at most once per second. -/
def tmrEvent (s : State) (block : BitVec 12) : State :=
  let soon := match (s.eccSeen.get (0, none, 0, 0) 15).2.1 with | some t => decide (s.free < t + second) | none => false
  if soon then s
  else { s with eccSeen := s.eccSeen.set 15 (0, some s.free, 0, 0) }.rootEvent 0x120000 0x0814 1 (leBytes 2 block.toNat)

/-- What holds a word of root memory: the units the root keeps. -/
inductive RootItem where
  | timed (port i : Nat)
  | untimed (port i : Nat)
  | ring (port i : Nat)
  | copy (i : Nat)
  | line (out key : Nat)

/-- The frames and units that root memory holds. -/
def rootItems (s : State) : List RootItem :=
  s.ports.flatMap (fun p => (List.range p.2.timed.length).map (RootItem.timed p.1) ++ (List.range p.2.untimed.length).map (RootItem.untimed p.1) ++
    (List.range p.2.ring.length).map (RootItem.ring p.1)) ++ (List.range s.twin.waiting.length).map RootItem.copy ++
  s.rasterOut.flatMap (fun o => o.2.queue.map (fun k => RootItem.line o.1 k.1))

/-- R409: a frame or unit of the root is discarded and counted. A copy at the compare stage that is gone is missing. -/
def dropItem (s : State) : RootItem → State
  | .timed n i => ((s.putPort n { s.port n with timed := (s.port n).timed.eraseIdx i }).bump (Reg.portTxTimedDrop n)).dropBit n
  | .untimed n i => ((s.putPort n { s.port n with untimed := (s.port n).untimed.eraseIdx i }).bump (Reg.portTxUntimedDrop n)).dropBit n
  | .ring n i => (s.putPort n { s.port n with ring := (s.port n).ring.eraseIdx i }).bump (Reg.portRxDrop n)
  | .copy i =>
    match s.twin.waiting[i]? with
    | some h => ({ s with twin.waiting := s.twin.waiting.eraseIdx i, twin.dropCopies := s.twin.dropCopies ++ [(h.from_.other.idx, h.unit.code, h.unit.seq)] }).bump Reg.cmpMissingCnt
    | none => s
  | .line k j =>
    let o := s.rastOut k
    s.putRastOut k { o with queue := o.queue.erase j }

/-- R309, R409: an uncorrectable word of a trunk: the trunk yields, or the line of a persistent region is reloaded, or the work that read the
word fails. -/
def eccTrunk (s : State) (t : Trunk) (x : EccRead) (scrub : Bool) (work : State → State) : State :=
  if s.compareActive && s.inService t then
    let s := if t = s.activeTrunk then (if x.persistent then s.eccLine t x else work s) else s
    (s.yieldOn t 2).eccUncorrEvent (some t) x scrub 0
  else if x.persistent then (s.eccLine t x).eccUncorrEvent (some t) x scrub (if x.seedLine.isSome then 1 else 2)
  else (work s).eccUncorrEvent (some t) x scrub 4

/-- R309, R409: an uncorrectable word. `item` is the leaf whose work read it; which item or unit holds a word that the
scrubber finds is open. -/
def eccUncorr (s : State) (e : Option Trunk) (x : EccRead) (scrub : Bool) (item : Option Nat) : State :=
  let s := (s.bump (eccBase e + 4)).eccCapture e x none scrub
  match e with
  | none =>
    let l := s.rootItems
    let d := s.draw (l.length + 1)
    let s := match l[d.1]? with | some it => d.2.dropItem it | none => d.2
    s.eccUncorrEvent none x scrub 3
  | some t => s.eccTrunk t x scrub fun s =>
    let ls := ((s.trunk t).epochs.flatMap (fun e => (e.jobs.filter (·.codes.isNone)).map Job.leaf)).eraseDups
    let p : Option Nat × State := match item with
      | some i => (some i, s)
      | none => let d := s.draw (ls.length + 1); (ls[d.1]?, d.2)
    match p.1 with | some i => p.2.failItem t i | none => p.2

/-- R410: the patrol scrubber of a die reads a word; a pass is complete when its period has run. -/
def scrubRead (s : State) (e : Option Trunk) (word : Option EccRead) : State :=
  let b := eccBase e
  if s.regN (b + 0x14) / 2 ^ 31 = 0 then s
  else
    let d := dieOf e
    let period := s.regN (b + 0x14) % 2 ^ 17 * second
    let s := if s.scrubAt.get 0 d + period ≤ s.free then
      { s.setRegN (b + 0x18) (s.regN (b + 0x18) + 1) with scrubAt := s.scrubAt.set d s.free } else s
    match word with
    | none => s
    | some x =>
      match s.eccRead x with
      | .clean => s
      | .corrected bit => s.eccCorrected e x bit true
      | .uncorrectable => s.eccUncorr e x true none

end State

/-- CHK_START (R402 to R405). -/
def execChkStart (e : Option Trunk) (n : Fin 16) (s : State) : Host.Outcome State Fault Refusal := act s fun s => s.chkStartOp e n

/-- CHK_DATA (R404). -/
def execChkData (e : Option Trunk) (n : Fin 16) (v : Word) (s : State) : Host.Outcome State Fault Refusal := act s fun s => s.chkDataOp e n v

/-- CHK_FINISH (R402, R404, R406). -/
def execChkFinish (e : Option Trunk) (n : Fin 16) (s : State) : Host.Outcome State Fault Refusal := act s fun s => s.chkFinishOp e n

/-- CHK_STATE_WRITE (R404). -/
def execChkStateWrite (e : Option Trunk) (n : Fin 16) (hi : Bool) (v : Word) (s : State) : Host.Outcome State Fault Refusal :=
  act s fun s => s.chkStateOp e n hi v

/-- PATROL_SCRUB_READ (R309, R408 to R410, R413). -/
def execPatrolScrubRead (e : Option Trunk) (word : Option EccRead) (s : State) : Host.Outcome State Fault Refusal :=
  act s fun s => s.scrubRead e word

/-- ECC_CORR_EVENT (R411): the corrected words of a memory kind, or a TMR disagreement corrected in a block of the root. -/
def execEccCorrEvent (e : Option Trunk) (site : EccSite) (s : State) : Host.Outcome State Fault Refusal :=
  act s fun s => match site.tmr with | some b => s.tmrEvent b | none => s.eccEvent e site.memory

end Sys2Proof.Machine
end

