-- ==== Sys2Proof/Machine/Emit.lean ====
section
/-! DEFINITION. The pack stage (R116 step 6, R133 to R136): Leafcast frames, sap-line bursts, DMX512 frames and E1.31
packets of one epoch of an output, handed over as compare units. -/

namespace Sys2Proof.Machine

/-- A unit before it has its sequence: what the frame holds, its length, and its place in a sap-line burst. -/
structure Packed where
  data : List Byte
  len : Nat
  leaves : List Nat := []
  part : Nat := 0
  parts : Nat := 1
  takeBy : Nat := 0

/-- `l` with bytes placed from offset `o`; what falls beyond its end is left out. -/
def overlay (l : List Byte) (o : Nat) (v : List Byte) : List Byte :=
  l.take o ++ (v.take (l.length - o)) ++ l.drop (o + v.length)

/-- R134: a leaf's codes in their protocol fields, most significant byte first. -/
def fieldBytes (protocol bits : Nat) (codes : List Nat) : List Byte :=
  codes.flatMap fun q => let w := widen protocol bits q; beBytes w.2 w.1

/-! ### Leafcast (R227 to R231, R236) -/

/-- R236: cadence points in 500 ms, at least 1. -/
def pollEvery (d : Seed) (cad : Nat) : Nat :=
  let ax := d.cadAxis cad
  max 1 (if isTimeAxis ax then d.cadNum cad / (2 * max 1 (d.cadDen cad))
    else d.rateNum ax * d.cadDen cad / (2 * max 1 (d.cadNum cad * d.rateDen ax)))

/-- R228: the camera block. -/
def cameraBlock (c : CamShot) : List Byte :=
  let a := c.anchor.toNat
  beBytes 6 (a / second) ++ beBytes 4 (a % second / 65536) ++ beBytes 2 (a % 65536) ++ beBytes 6 c.period ++ beBytes 2 c.periods ++
    beBytes 4 ((c.shutter + 65535) / 65536) ++ List.replicate 8 0

/-- R227, R230: one DATA frame. -/
def lcFrame (safety poll : Bool) (tree seq : Nat) (launch : Nat) (domain view views leaf bits count off : Nat) (cam : Option CamShot)
    (payload : List Byte) : List Byte :=
  let flags := safety.toNat + 2 * cam.isSome.toNat + 4 * poll.toNat
  let h := beBytes 1 0x11 ++ beBytes 1 flags ++ beBytes 2 tree ++ beBytes 4 seq ++ beBytes 6 (launch / 1000000000) ++
    beBytes 4 (launch % 1000000000) ++ beBytes 1 domain ++ beBytes 1 (view + 4 * (views - 1)) ++ beBytes 3 leaf ++
    beBytes 1 (if bits = 8 then 1 else 2) ++ beBytes 2 count ++ beBytes 3 off ++ List.replicate 3 0
  let f := h ++ (match cam with | some c => cameraBlock c | none => []) ++ payload
  f ++ beBytes 4 (crc32c (beBytes 4 leaf ++ f))

/-- R229: the frames of a leaf: every view in chunks of `per` pixels. `codes` holds the codes of each view. -/
def lcLeaf (safety poll : Bool) (tree seq launch domain leaf bits n per : Nat) (cam : Option CamShot) (codes : List (List Nat)) : List (List Byte) :=
  (List.range codes.length).flatMap fun v =>
    let q := codes.getD v []
    let px := q.length / max 1 n
    (List.range ((px + per - 1) / per)).map fun c =>
      let part := (q.drop (c * per * n)).take (per * n)
      lcFrame safety (poll && v == 0 && c == 0) tree seq launch domain v codes.length leaf bits part.length (c * per * n) cam
        (fieldBytes 1 bits part)

/-! ### Sap lines (R251, R255, R266) -/

/-- A signed 16-byte position, little-endian. -/
def putPos (x : Int) : List Byte := leBytes 16 (unsigned 128 x)

/-- R255: a DATA frame's nodes at most. -/
def sapPerFrame (r : List Byte) : Nat := max 1 (4096 / (max 1 (sapChannels r) * 2))

/-- The DATA frames of one view: `vals` holds two bytes for each channel of the line. -/
def sapData (r : List Byte) (safety : Bool) (view views : Nat) (vals : List Byte) : List (List Byte) :=
  let per := sapPerFrame r
  (List.range ((sapNodes r + per - 1) / per)).map fun c =>
    let first := c * per
    let last := min (first + per) (sapNodes r) - 1
    let p := slice vals (first * sapChannels r * 2) ((last + 1 - first) * sapChannels r * 2)
    [1, BitVec.ofNat 8 safety.toNat] ++ leBytes 2 first ++ leBytes 2 last ++ leBytes 1 (view + 4 * (views - 1)) ++ leBytes 2 p.length ++ p

/-- R126: where the shutter of camera frame `j` opens and closes on the line axis, in 2^-32 line, rounded toward minus infinity. -/
def camOpen (c : CamShot) (j : Int) : Int := (j * c.lines * 36000 + (c.lines * c.phase : Nat)) * 2 ^ 32 / 36000
def camClose (c : CamShot) (j : Int) : Int := (j * c.lines * 36000 + (c.lines * (c.phase + c.exposure) : Nat)) * 2 ^ 32 / 36000

/-- R127: PWM period boundary `i` on the line axis, counted from the *open* of the anchor. -/
def camBoundary (c : CamShot) (i : Int) : Int := camOpen c c.frame + i * c.lines * 2 ^ 32 / c.periods

/-- R128: boundary `i` lies outside the open interval (*open*, *close*) of every shutter window. -/
def outside (c : CamShot) (i : Int) : Bool :=
  c.periods == 0 || (let j := c.frame + i / c.periods; camBoundary c i == camOpen c j || decide (camClose c j ≤ camBoundary c i))

namespace State

/-! ### Camera frames on a launch base (R126 to R128) -/

/-- A position of a camera's line axis on `base`, as the capture converts it. -/
def camAt (s : State) (c : CamShot) (base : Nat) (x : Int) : Option Int := (s.convert (x, 1) c.ax base).map QPos.floor

/-- R127, R258: PWM period boundary `i` on `base`. Without camera timing, or where its axis does not convert, the periods count from the
anchor. -/
def boundary (s : State) (c : CamShot) (base : Nat) (i : Int) : Int :=
  match (if c.periods = 0 then none else s.camAt c base (camBoundary c i)) with
  | some x => x
  | none => c.anchor + i * c.period

/-- R128, R260: the first boundary from `i` on that lies at or after `x` outside every shutter window, looking at most at `n`
boundaries. -/
def takeAt : Nat → State → CamShot → Nat → Int → Int → Int
  | 0, _, _, _, _, i => i
  | n + 1, s, c, base, x, i => if decide (x ≤ s.boundary c base i) && outside c i then i else takeAt n s c base x (i + 1)

/-- R260, R266: the first boundary at or after `x` on `base` outside every shutter window. -/
def firstTake (s : State) (c : CamShot) (base : Nat) (x : Int) : Int :=
  match (if c.periods = 0 then none else s.convert (x, 1) base c.ax) with
  | some q => takeAt (c.periods + 3) s c base x ((q.floor - camOpen c c.frame) * c.periods / (c.lines * 2 ^ 32 : Nat))
  | none => if c.period = 0 then 0 else -((c.anchor - x) / (c.period : Int))

/-- R77, R126: a camera group on its line axis, with the lines per frame established at lock. -/
def shotOf (s : State) (cam : List Byte) : CamShot :=
  { ax := camAxis cam, lines := (s.axis (camAxis cam)).nLines, phase := camPhase cam, exposure := camShutter cam, views := camViews cam }

/-- R126, R228: the latest camera frame whose *open* lies at or before `x` on `base`, and that *open*. -/
def openBefore (s : State) (c : CamShot) (base : Nat) (x : Int) : Option (Int × Int) :=
  if c.lines = 0 then none
  else
    match s.convert (x, 1) base c.ax with
    | none => none
    | some q =>
      let j := (q.floor - camOpen c 0) / (c.lines * 2 ^ 32 : Nat)
      [j + 1, j, j - 1].findSome? fun j => (s.camAt c base (camOpen c j)).bind fun a => if a ≤ x then some (j, a) else none

/-- R128: where the shutter of frame `j` closes on `base`. -/
def closeAt (s : State) (c : CamShot) (base : Nat) (j : Int) : Option Int := s.camAt c base (camClose c j)

/-- R266: a pulse in [x, y) overlaps a shutter window of a camera group of the tree. -/
def inShutter (s : State) (base : Nat) (x y : Int) : Bool :=
  s.sd.cameras.any fun cam =>
    match s.openBefore (s.shotOf cam) base (y - 1) with
    | none => false
    | some (j, _) => (s.closeAt (s.shotOf cam) base j).any (fun z => decide (x < z))

/-! ### Codes (R133, R135) -/

/-- The codes a leaf last packed in a view; 0 when it has never been packed. -/
def lastOf (s : State) (t : Trunk) (i v : Nat) : List Nat :=
  let r := s.leafAt i
  (s.trunk t).lastCodes.get (List.replicate (leafPixels r * s.leafEmitters r) 0) (i * 4 + v)

/-- R133: a leaf's codes under the look; HOLD repeats `held`. -/
def lookOf (s : State) (i : Nat) (held : List Nat) : List Nat :=
  let r := s.leafAt i
  let n := s.leafEmitters r
  let sr := safetyRecOf s.sd.safety (s.groveLeaf i)
  (List.range (leafPixels r * n)).map fun j => safetyCode sr (s.leafBits r) (j % n) (held.getD j 0)

/-- The codes held from before the look. -/
def heldOf (s : State) (t : Trunk) (i v : Nat) : List Nat :=
  let r := s.leafAt i
  (s.trunk t).heldCodes.get (List.replicate (leafPixels r * s.leafEmitters r) 0) (i * 4 + v)

/-- R133, R135: the codes that a job's views are packed with. -/
def jobCodes (s : State) (t : Trunk) (e : PortJob) (j : Job) : List (List Nat) :=
  let r := s.leafAt j.leaf
  (List.range (leafViews e r)).map fun v =>
    if e.look then s.lookOf j.leaf (s.heldOf t j.leaf v)
    else match (j.codes.getD []).getD v none with
      | some c => c
      | none => s.lastOf t j.leaf v

/-- The trunk remembers what it packs. -/
def keepCodes (s : State) (t : Trunk) (e : PortJob) : State :=
  e.jobs.foldl (fun s j =>
    let cs := s.jobCodes t e j
    (List.range cs.length).foldl (fun s v =>
      let x := s.trunk t
      let k := j.leaf * 4 + v
      let c := cs.getD v []
      s.putTrunk t { x with lastCodes := x.lastCodes.set k c, heldCodes := if s.alarmOn then x.heldCodes else x.heldCodes.set k c }) s) s

/-! ### Where the units of a record leave -/

/-- R321: the PORTS record of this tree through which a record's units leave: itself, or for the partner's record this
tree's end of the ring. -/
def emitRec (s : State) (rec : Nat) : Option Nat :=
  if rec ∈ s.portIdxs then some rec
  else
    let r := s.portRec rec
    if portKind r = 2 ∧ portRingValid r ∧ 0x80 ≤ portPartner r then s.portOf? 2 (portPartner r - 0x80) else none

/-- R302: the port code of a record. -/
def codeOf (s : State) (rec : Nat) : Nat :=
  match s.emitRec rec with
  | some q => portKind (s.portRec q) * 256 + portNumber (s.portRec q)
  | none => 0

/-- R51, R161: the launch base and time of an epoch's frames. Without a launch time they leave at *A* + 1 ms on FREE. -/
def launchOf (s : State) (e : PortJob) : Nat × Nat := (e.base, e.launch.getD (s.safe.alarmLaunch.get 0 17))

/-! ### Frames by protocol -/

/-- R229: the Leafcast frames of an epoch, leaves in ascending index. -/
def packLeafcast (s : State) (t : Trunk) (e : PortJob) (safety : Bool) : List Packed :=
  match s.emitRec e.portRec with
  | none => []
  | some q =>
    let p := s.portRec q
    e.jobs.flatMap fun j =>
      let r := s.leafAt j.leaf
      let n := s.leafEmitters r
      let bits := s.leafBits r
      let cam := leafCam e r
      let room := min 8192 (portMaxFrame p - 18 - ipHeader p - 8) - 36 - 32 * cam.isSome.toNat
      let per := max 1 (room / (max 1 n * (if bits = 8 then 1 else 2)))
      let poll := !safety && (e.k + j.leaf % foreignLeaf) % pollEvery s.sd (portCadence (s.portRec e.portRec)) == 0
      (lcLeaf (safety || e.look) poll (s.sd.treeId (s.leafPos j.leaf)) e.k (e.launch.getD 0) (u8 (leafAddress r) 4) (j.leaf % foreignLeaf) bits n per cam
        (s.jobCodes t e j)).map fun d =>
          let f := s.leafFrame (portIndex (portKind p) (portNumber p)) p (leafAddress r) 0 d
          { data := f, len := f.length + 4, leaves := [j.leaf] }

/-- The leaves bound to a record, whoever computes them. -/
def boundLeaves (s : State) (rec : Nat) : List Nat :=
  (List.range s.leafCount).filter fun i => leafPort (s.leafRec i) == rec && leafWorks (s.leafRec i)

/-- The codes of a bound leaf in a view of an epoch: its job's, or what it last packed. -/
def boundCodes (s : State) (t : Trunk) (e : PortJob) (i v : Nat) : List Nat :=
  match e.jobs.find? (fun j => j.leaf == i) with
  | some j => (s.jobCodes t e j).getD v (s.lastOf t i v)
  | none => s.lastOf t i v

/-- R134: the field bytes of a bound leaf. -/
def boundBytes (s : State) (t : Trunk) (e : PortJob) (i v : Nat) : List Byte :=
  let r := s.leafAt i
  fieldBytes (leafProtocol r) (s.leafBits r) (s.boundCodes t e i v)

/-- R240, R242: the slots of a universe or DMX512 port that the leaves with slots at `at_` fill. -/
def slotsOf (s : State) (t : Trunk) (e : PortJob) (n : Nat) (ls : List Nat) (at_ : Nat) : List Byte :=
  ls.foldl (fun l i => overlay l (u16 (leafAddress (s.leafAt i)) at_ - 1) (s.boundBytes t e i 0)) (List.replicate n 0)

/-- R242: the frame of a DMX512 port. -/
def packDmx (s : State) (t : Trunk) (e : PortJob) : List Packed :=
  let ls := s.boundLeaves e.portRec
  let d := (0x00 : Byte) :: s.slotsOf t e (dmxSlots (s.portRec e.portRec)) ls 0
  [{ data := d, len := d.length, leaves := ls }]

/-- R240: the burst of a source group: a packet for each universe, then the synchronisation packet. -/
def packE131 (s : State) (t : Trunk) (e : PortJob) (safety : Bool) : List Packed :=
  let r := s.portRec e.portRec
  let look := safety || e.look
  let ls := s.boundLeaves e.portRec
  let us := ((ls.map fun i => u16 (leafAddress (s.leafAt i)) 0).eraseDups).mergeSort (fun a b => a ≤ b)
  let sync := if e131Sync r && !look then e131SyncUniv r else 0
  let pk (d : List Byte) (l : List Nat) : Packed := let f := s.e131Frame e.portRec d; { data := f, len := f.length + 4, leaves := l }
  (us.map fun u =>
    let lu := ls.filter fun i => u16 (leafAddress (s.leafAt i)) 0 == u
    pk (e131Data (e131Cid r) (slice s.sd.profile 0x20 32) (if look then 200 else e131Priority r) sync u (s.slotsOf t e 512 lu 2)) lu) ++
  (if e131Sync r && !look && !us.isEmpty then [pk (e131SyncPacket (e131Cid r) (e131SyncUniv r)) []] else [])

/-! ### A sap-line burst -/

/-- R251: a line's camera timing: that of its leaves' group, or none. -/
def lineCam (s : State) (e : PortJob) : Option CamShot :=
  match (s.boundLeaves e.portRec).head? with
  | some i => leafCam e (s.leafAt i)
  | none => none

/-- R256: the timing a burst carries: the group's, or the epoch and *P*nom. -/
def lineTiming (s : State) (e : PortJob) : CamShot :=
  match s.lineCam e with
  | some c => c
  | none =>
    let r := s.portRec e.portRec
    let a : Int := match (s.withCap e.cap).convert (((e.pos : Nat) : Int), 1) e.ax e.base with | some q => q.floor | none => 0
    { anchor := a, period := sapPwmNom r * 65536000 }

/-- R251, R255: two bytes for each channel of the line in a view; a channel no leaf covers is 0. -/
def lineVals (s : State) (t : Trunk) (e : PortJob) (v : Nat) : List Byte :=
  let r := s.portRec e.portRec
  (s.boundLeaves e.portRec).foldl (fun l i =>
    let a := leafAddress (s.leafAt i)
    overlay l ((u16 a 0 * sapChannels r + u8 a 2) * 2) (s.boundBytes t e i v)) (List.replicate (sapNodes r * sapChannels r * 2) 0)

/-- R266, R271: a probe's boundary, if this burst carries one; whether the line goes on waiting for a gap; and whether this is a probe
epoch that found none. -/
def probeOf (s : State) (t : Trunk) (e : PortJob) (c : CamShot) (b0 : Int) : Option Int × Bool × Bool :=
  let r := s.portRec e.portRec
  let due := (e.k + portNumber r) % 64 == 0
  let waits := (s.trunk t).probeWait.contains e.portRec
  match s.sd.probe with
  | 0 => (none, false, false)
  | 2 => (if due then some (b0 + 1) else none, false, false)
  | _ =>
    if s.sd.cameraPhase ≠ 1 then (if due then some (b0 + 1) else none, false, false)
    else if !(due || waits) then (none, false, false)
    else
      let us : Int := 65536 * 500
      let fit := ((List.range (max 1 c.periods)).map (fun (i : Nat) => b0 + 1 + (i : Int))).find? fun b =>
        !s.inShutter e.base (s.boundary c e.base b + 3 * us) (s.boundary c e.base b + 6 * us)
      match fit with
      | some b => (some b, false, false)
      | none => (none, true, due)

/-- R255 to R257, R266: the frames of a burst; answers whether its probe waits and whether it was skipped. -/
def packBurst (s : State) (t : Trunk) (e : PortJob) (safety : Bool) : List Packed × Bool × Bool :=
  let r := s.portRec e.portRec
  let look := safety || e.look
  let c := s.lineTiming e
  let cam := (s.lineCam e).isSome
  let views := c.views
  let sf : Byte := BitVec.ofNat 8 look.toNat
  let (_, l) := s.launchOf e
  let launch : Int := l * 65536
  let timing : List Byte := [2, sf] ++ putPos c.anchor ++ leBytes 8 c.period ++ leBytes 2 c.periods ++
    leBytes 1 (views - 1) ++ leBytes 1 cam.toNat ++ leBytes 8 c.shutter ++ leBytes 4 e.k
  let data := (List.range views).flatMap fun v => sapData r look v views (s.lineVals t e v)
  let chars := 46 + 26 + data.foldl (fun a d => a + (d.length - 9) + 14) 0
  let endAt (extra : Nat) : Int := launch + sapChars r (chars - 2 + extra)
  let sc := s.withCap e.cap
  let b0 := sc.firstTake c e.base (max launch (endAt 0))
  let b1 := sc.firstTake c e.base (max launch (endAt 26))
  let p := if look then (none, (s.trunk t).probeWait.contains e.portRec, false) else sc.probeOf t e c b1
  let probe := match p.1 with
    | some b => [[5, sf] ++ leBytes 4 (unsigned 32 b) ++ leBytes 8 (65536 * 1500)]
    | none => []
  let take : List Byte := [3, sf] ++ putPos launch ++ leBytes 4 e.k
  let all := timing :: (data ++ probe ++ [take])
  let ls := s.boundLeaves e.portRec
  (all.mapIdx fun i d => { data := d, len := d.length, leaves := ls, part := i, parts := all.length,
                           takeBy := if look then 0 else (sc.boundary c e.base (if p.1.isSome then b1 else b0)).toNat }, p.2)

/-! ### Handing over (R136, R302) -/

/-- R302: packed units are handed over in order, each with its port's next sequence. -/
def handAll (s : State) (t : Trunk) (e : PortJob) (safety : Bool) (l : List Packed) : State :=
  let code := s.codeOf e.portRec
  let (base, launch) := s.launchOf e
  l.foldl (fun s p =>
    let q := s.unitSeq t code
    q.2.handOver t { code := code, seq := q.1, out := { portRec := e.portRec, seq := q.1, launch := launch, base := base, safety := safety || e.look,
                                                        capTag := e.cap.tag, len := p.len, data := p.data, leaves := p.leaves,
                                                        burst := e.k % 2 ^ 32, part := p.part, parts := p.parts, takeBy := p.takeBy } }) s

/-- R133 to R136: the units of one epoch of an output, with the outcome of a burst's probe. -/
def packUnits (s : State) (t : Trunk) (e : PortJob) (safety : Bool) : List Packed × Bool × Bool :=
  match portKind (s.portRec e.portRec) with
  | 5 => s.packBurst t e safety
  | 6 => (s.packDmx t e, false, false)
  | 9 => (s.packE131 t e safety, false, false)
  | _ => (s.packLeafcast t e safety, false, false)

/-- R301: what the trunk keeps of an epoch whose `n` units it hands over next. -/
def keepEpoch (s : State) (t : Trunk) (e : PortJob) (safety : Bool) (n : Nat) : State :=
  let x := s.trunk t
  let code := s.codeOf e.portRec
  s.putTrunk t { x with kept := x.kept ++ [{ code := code, first := (s.unitSeq t code).1, count := n, job := e, safety := safety, lastCodes := x.lastCodes,
                                             heldCodes := x.heldCodes, probeWait := x.probeWait, fresh := x.fresh }] }

/-- R266, R271: a line's probe waits on or not, and a probe epoch that found no gap is counted, once for the tree. -/
def probeAfter (s : State) (t : Trunk) (rec : Nat) (waits skipped : Bool) : State :=
  let x := s.trunk t
  let s := s.putTrunk t { x with probeWait := if waits then (rec :: x.probeWait).eraseDups else x.probeWait.filter (· != rec) }
  if skipped && (s.activeTrunk == t || s.redundancy == 2) then s.bump (Reg.sapProbeSkip (portNumber (s.portRec rec))) else s

/-- R133 to R136: the pack stage of one epoch of an output; `safety` are the first frames under an alarm (R161). -/
def packPort (s : State) (t : Trunk) (e : PortJob) (safety : Bool) : State :=
  let b := s.packUnits t e safety
  (((s.keepEpoch t e safety b.1.length).probeAfter t e.portRec b.2.1 b.2.2).handAll t e safety b.1).keepCodes t e

end State

end Sys2Proof.Machine
end

