-- ==== Sys2Proof/Machine/Residue.lean ====
section
/-! DEFINITION. Residue checking of the lanes: residues modulo 7 beside every value, what an operation predicts from those of its
operands, and the checker (R92, R94). -/

namespace Sys2Proof.Machine

/-- R94: the residue of a two's-complement word. -/
def residue7 (x : Int) : Nat := (x % 7).toNat

/-- R94: data enters a lane register: its residue is generated there. -/
def laneLoad (x : Int) : LaneVal := ⟨x, residue7 x⟩

/-- R92: the code of an operation, as `TWIG_LAST_ERR` reports it. -/
def laneCode : LaneOp → Nat
  | .add .. => 0
  | .sub .. => 1
  | .mul .. => 2
  | .mac .. => 3
  | .rnd .. => 4
  | .rcp .. => 5
  | .sqrt .. => 6
  | .cvt16 .. => 7
  | .minOp .. | .maxOp .. | .cmp .. => 8
  | .avg .. => 9

/-- R92: what a sound lane computes. -/
def laneRun : LaneOp → LaneResult
  | .add x y => let v := x.word + y.word; ⟨v, 0, sat32 v⟩
  | .sub x y => let v := x.word - y.word; ⟨v, 0, sat32 v⟩
  | .mul x y => let p := x.word * y.word; ⟨rnd p 28, (p + 2 ^ 27) % 2 ^ 28, sat32 (rnd p 28)⟩
  | .mac a x y => let v := a.word + x.word * y.word; ⟨v, 0, sat64 v⟩
  | .rnd a => ⟨rnd a.word 28, (a.word + 2 ^ 27) % 2 ^ 28, sat32 (rnd a.word 28)⟩
  | .rcp x => let q := (2 ^ 57 + x.word) / (2 * x.word); ⟨q, 2 ^ 56 + x.word / 2 - q * x.word, min q 0x7FFFFFFF⟩
  | .sqrt x => let r := twSqrt x.word; ⟨r, x.word * 2 ^ 28 - r * r, r⟩
  | .cvt16 h => let v := (cvt16 h.toNat).1; ⟨v, 0, v⟩
  | .minOp x y => let v := min x.word y.word; ⟨v, 0, v⟩
  | .maxOp x y => let v := max x.word y.word; ⟨v, 0, v⟩
  | .cmp x y => let v : Int := if x.word < y.word then 1 else 0; ⟨v, 0, v⟩
  | .avg t m => let q := avg t.word m; ⟨q, 2 * t.word + m - q * (2 * m), q⟩

/-- R94: the residue a lane predicts from those of the operands, with the dropped bits, the rounding bias and any remainder; and the
residue of the value it stands against. A division's quotient and a root stand in a product, so that the prediction is of it. The
selections, the comparison and CVT16 have duplicates and predict no residue. -/
def lanePredicts (op : LaneOp) (r : LaneResult) : Nat × Nat :=
  let e := residue7 r.exact
  let d := residue7 r.side
  match op with
  | .add x y => (x.res + y.res, e)
  | .sub x y => (x.res, e + y.res)
  | .mul x y => (x.res * y.res + 2 ^ 27, 2 ^ 28 * e + d)
  | .mac a x y => (a.res + x.res * y.res, e)
  | .rnd a => (a.res + 2 ^ 27, 2 ^ 28 * e + d)
  | .rcp x => (2 ^ 56 + residue7 (x.word / 2), e * x.res + d)
  | .sqrt x => (x.res * 2 ^ 28, e * e + d)
  | .avg t m => (2 * t.res + m, e * (2 * m) + d)
  | .cvt16 _ | .minOp .. | .maxOp .. | .cmp .. => (0, 0)

/-- R94: the duplicate comparator confirms the choice of the limit, and a duplicate unit a selection, a flag or a conversion. -/
def laneLimit (op : LaneOp) (r : LaneResult) : Int :=
  match op with
  | .add .. | .sub .. | .mul .. | .rnd .. => sat32 r.exact
  | .mac .. => sat64 r.exact
  | .rcp .. => min r.exact 0x7FFFFFFF
  | .sqrt .. | .avg .. => r.exact
  | .cvt16 .. | .minOp .. | .maxOp .. | .cmp .. => (laneRun op).word

/-- R94: the checker of a lane passes a result. -/
def laneOk (op : LaneOp) (r : LaneResult) : Bool :=
  let p := lanePredicts op r
  p.1 % 7 == p.2 % 7 && r.word == laneLimit op r

end Sys2Proof.Machine
end

