-- ==== Sys2Proof/Machine/Work.lean ====
section
/-! DEFINITION. The work of the trunks on the leaves: what an epoch of an output asks for, stages 3 to 7 of a leaf, failed
work items, and Leafcast RETURN frames (R95, R106, R107, R114, R116, R235 to R238, R348). -/

namespace Sys2Proof.Machine

/-- What the locate and sample stages give a pixel: its value, or clipped, and whether it lay off the canvas. -/
structure Sampled where
  rgb : Rgb := {}
  clip : Bool := false
  off : Bool := false

namespace State

/-! ### An epoch of an output (R46, R51, R107, R123, R128) -/

/-- R24, R298, R321: trunk `t` packs the frames of a record. -/
def packsPort (s : State) (t : Trunk) (rec : Nat) : Bool :=
  let p := portTrunk (s.portRec rec)
  s.redundancy != 2 || p == 2 || p == t.idx || s.twin.adopted.contains t.other.idx || !(s.portIdxs.contains rec)

/-- The leaves trunk `t` computes for a record: its own, and those it has taken over (R298, R321). -/
def jobLeaves (s : State) (t : Trunk) (rec : Nat) : List Nat :=
  if rec ∈ s.portIdxs then
    (s.boundLeaves rec).filter fun i =>
      let r := s.leafRec i
      s.redundancy != 2 || leafTrunk r == t.idx || leafTrunk r == 2 || s.twin.adopted.contains t.other.idx && s.twin.adoptedLeaves.contains i
  else
    (s.grove.takenLeaves.map (· + foreignLeaf)).filter fun i =>
      leafPort (s.leafAt i) == rec &&
        (s.redundancy != 2 || leafTrunk (s.leafAt i) == t.idx || leafTrunk (s.leafAt i) == 2 || s.twin.adopted.contains t.other.idx)

/-- R128, R228: the camera timing of a group for frames that launch at `l` ns on `base`; none while it is not valid. Where no *open*
converts to the base, the anchor is open. -/
def camShot (s : State) (t : Trunk) (g base l : Nat) : Option CamShot :=
  match s.camRec g with
  | none => none
  | some cam =>
    if !s.fbit (Reg.TrkCamStatus.valid t g) then none
    else
      let c := { s.shotOf cam with period := s.regN (Reg.trkCamPeriodLo t g) + 2 ^ 32 * (s.regN (Reg.trkCamPeriodHi t g) % 65536),
                                   periods := s.fget (Reg.TrkCamStatus.periods t g) }
      match s.openBefore c base ((l * 65536 : Nat) : Int) with
      | none => some { c with anchor := Config.unstated 228 l }
      | some (j, a) => some { c with frame := j, anchor := a, shutter := ((s.closeAt c base j).getD a - a).toNat }

/-- R123: a field as it stood when the fabric cycle began. -/
def oldGet (s : State) (f : Field) : Nat := getBits ((s.cyc.old.find? f.addr).getD (s.reg f.addr)).toNat f.lo f.len

/-- R123: the intensity of a leaf's patch. A partner's patch has no entry of its own here: its intensity is open. -/
def patchInt (s : State) (t : Trunk) (i : Nat) : Nat :=
  let p := leafPatch (s.leafAt i)
  if foreignLeaf ≤ i then Config.unstated 123 p % 0x8001
  else
    let k := p - (s.sd.patchRange s.grovePos).1
    if 1048576 ≤ k then 0x8000
    else if k % 2 = 0 then s.oldGet (Reg.TrkPint.levelEven t (k / 2)) else s.oldGet (Reg.TrkPint.levelOdd t (k / 2))

/-- R125: the reports of a leaf: its own, or those of the sap-line node that carries its first channel. -/
def leafReports (s : State) (i : Nat) : List (Int × Nat × Nat) :=
  let r := s.leafAt i
  if leafProtocol r = 2 then s.nodeTemp.get [] (portNumber (s.portRec (leafPort r)) * 1024 + u16 (leafAddress r) 0)
  else s.leafTemp.get [] i

/-- The work of one leaf for an epoch. -/
def newJob (s : State) (t : Trunk) (i : Nat) : Job :=
  { leaf := i, master := s.oldGet (Reg.TrkMasterInt.level t), pint := s.patchInt t i,
    temp := reportFor s.capture (s.leafReports i), shed := s.shedLeaves.contains i }

/-- R161, R165: an epoch's frames are packed under the look. -/
def packsLook (s : State) : Bool := s.alarmOn && decide (s.safe.alarmTag ≤ s.capture.tag)

/-- R163: while only the safety seed runs and no alarm is in force, no leaf receives frames; a tree that has returned
emits from the hand-back epoch (R322). -/
def packsNow (s : State) : Bool := (!s.sd.isSafety || s.alarmOn) && !s.grove.returning

/-- The work of trunk `t` for epoch `k` of a record at raw position `pos`. -/
def portJob (s : State) (t : Trunk) (rec k pos : Nat) : PortJob :=
  let r := s.portRec rec
  let l := s.launchNs (portCadence r) k (portBase r)
  let look := s.packsLook || s.sd.isSafety
  { portRec := rec, k := k, pos := pos, ax := s.sd.cadAxis (portCadence r), launch := l, base := portBase r, cap := s.capture, look := look,
    cams := (List.range 8).map fun g => s.camShot t g (portBase r) (l.getD 0),
    jobs := (s.jobLeaves t rec).map (s.newJob t) }

/-- R135: shed leaves, and every leaf under the safety seed, have no stages 1 to 4 to run. -/
def settleJobs (s : State) (e : PortJob) : PortJob :=
  { e with jobs := e.jobs.map fun j =>
      if j.shed || s.sd.isSafety then { j with codes := some (List.replicate (leafViews e (s.leafAt j.leaf)) none) } else j }

/-- Every leaf of an epoch has been worked on. -/
def jobsDone (e : PortJob) : Bool := e.jobs.all (·.codes.isSome)

/-- The oldest epochs of a trunk whose work is done are packed, in order for each record. Sap-line bursts are packed by
work of their own. -/
def packDone : Nat → State → Trunk → State
  | 0, s, _ => s
  | fuel + 1, s, t =>
    let es := (s.trunk t).epochs
    let first (e : PortJob) : Bool := (es.find? (fun f => f.portRec == e.portRec)) == some e
    match es.find? (fun e => portKind (s.portRec e.portRec) != 5 && jobsDone e && first e) with
    | none => s
    | some e =>
      let x := s.trunk t
      packDone fuel ((s.putTrunk t { x with epochs := x.epochs.erase e }).packPort t e false) t

/-- An epoch of an output asks trunk `t` for its frames. -/
def portEpoch (s : State) (t : Trunk) (rec k pos : Nat) : State :=
  let e := s.settleJobs (s.portJob t rec k pos)
  let idle := e.jobs.isEmpty && (portKind (s.portRec rec) ≤ 4 || s.twin.adopted.contains t.other.idx && portTrunk (s.portRec rec) == t.other.idx)
  if !s.packsPort t rec || !s.packsNow || e.launch.isNone || idle then s
  else
    let x := s.trunk t
    let s := s.putTrunk t { x with epochs := x.epochs ++ [e] }
    packDone ((s.trunk t).epochs.length) s t

/-! ### Stages 3 to 6 of a leaf -/

/-- R97 to R112: one pixel of a view. -/
def samplePixel (s : State) (e : PortJob) (i v w : Nat) (f : CanvasFrame) : Sampled :=
  let r := s.leafAt i
  let p := s.patchRec (leafPatch r)
  let cv := recAt s.sd.canvases (s.viewCanvas e r v)
  let cw := canvasWidth cv
  let ch := canvasHeight cv
  match locate r p (dataRef s.sd.patchData p 0x10) cw ch w with
  | none => { clip := true }
  | some (x, y) =>
    { rgb := sample f (patchFilter p) (patchEdge p) (patchFootprint p) x y, off := offCanvas cw ch (x, y) }

/-- R117, R119, R121: the drives of a sampled pixel. -/
def colourOf (s : State) (e : PortJob) (r : List Byte) (v : Nat) (c : Rgb) : Solved :=
  let m := s.modelRec (leafModel r)
  let n := modelEmitters m
  let solver := orDefault (modelSolver m) 0xFF s.sd.solver
  if solver = 1 ∧ 4 ≤ n then solve m (recAt s.sd.canvases (s.viewCanvas e r v)) c
  else { drives := matrixDrives (dataRef s.sd.modelData m 0x0C) n c }

/-- R125: the temperature a leaf's derate uses; none when it has never reported. -/
def derateOf (s : State) (r : List Byte) (j : Job) : Int :=
  match j.temp with
  | none => full
  | some (t, _) => derate (s.modelRec (leafModel r)) (t + calTemp (calBlock r s.sd.leafData))

/-- R132: an emitter's residual. -/
def residualOf (s : State) (t : Trunk) (i slot el v : Nat) : Nat :=
  let x := s.trunk t
  let fresh := decide (foreignLeaf ≤ i) || x.fresh.contains i
  let d := if fresh then 0 else residual0 (s.ditherOf (s.patchRec (leafPatch (s.leafAt i)))) slot el v
  x.residuals.get d ((slot * 8 + el) * 4 + v)

/-- R122 to R124, R131: the drives of a pixel become codes, and its residuals move on. -/
def quantPixel (s : State) (t : Trunk) (j : Job) (v w : Nat) (der : Int) (d : List Int) : List Nat × State :=
  let r := s.leafAt j.leaf
  let p := s.patchRec (leafPatch r)
  let dither := s.ditherOf p
  let kk := intensity j.master j.pint der
  let d := (gainStep (calBlock r s.sd.leafData) d).map (twMul · kk)
  let slot := s.slotOf j.leaf + w
  d.zipIdx.foldl (fun (a : List Nat × State) x =>
    let q := quantise dither (patchBits p) x.1 (a.2.residualOf t j.leaf slot x.2 v)
    let s := if dither = 0 then a.2 else
      a.2.putTrunk t { a.2.trunk t with residuals := (a.2.trunk t).residuals.set ((slot * 8 + x.2) * 4 + v) q.2 }
    (a.1 ++ [q.1], s)) ([], s)

/-- R106, R114, R116, R137: one view of a leaf: its codes; counters count pixel-frames. -/
def leafView (s : State) (t : Trunk) (e : PortJob) (j : Job) (v : Nat) (der : Int) (f : CanvasFrame) : List Nat × State :=
  let r := s.leafAt j.leaf
  (List.range (leafPixels r)).foldl (fun (a : List Nat × State) w =>
    let s := a.2
    let px := s.samplePixel e j.leaf v w f
    let s := if px.clip then s.bump (Reg.twigClipCnt t) else if px.off then s.bump (Reg.twigOffCnt t) else s
    let s := if px.rgb.nan = 0 then s else s.bumpBy (Reg.twigNanCnt t) px.rgb.nan
    let c := s.colourOf e r v px.rgb
    let s := if c.gamut then s.bump (Reg.trkGamutCnt t) else s
    let s := if c.neg then s.bump (Reg.trkSolveNegCnt t) else s
    let s := if c.fail then s.bump (Reg.trkSolveFailCnt t) else s
    let q := s.quantPixel t j v w der c.drives
    (a.1 ++ q.1, q.2)) ([], s)

/-- R107: each view's canvas frame, if it has one; none while one of them is still being composed. -/
def viewFrames (s : State) (t : Trunk) (e : PortJob) (j : Job) : Option (List (Option CanvasFrame)) :=
  let l := (List.range (leafViews e (s.leafAt j.leaf))).map fun v => s.viewFrame t e j.leaf v
  let waits := (List.range l.length).any fun v =>
    match l.getD v none with
    | none => false
    | some f => ((s.trunk t).composing.get [] (s.leafCanvas j.leaf (s.viewCanvas e (s.leafAt j.leaf) v))).any (fun g => g.id == f.id)
  if waits then none else some l

/-- R116: stages 3 to 6 of a leaf for an epoch. A view without a canvas frame is held (R107, R135). -/
def runJob (s : State) (t : Trunk) (e : PortJob) (j : Job) (fs : List (Option CanvasFrame)) : List (Option (List Nat)) × State :=
  let r := s.leafAt j.leaf
  let der := s.derateOf r j
  let works := fs.any Option.isSome
  let s := if works && decide (der < full) then s.bump (Reg.trkDerateCnt t) else s
  let s := if works && (match j.temp with | some x => x.2 | none => false) then s.bump (Reg.trkTempStaleCnt t) else s
  (List.range fs.length).foldl (fun (a : List (Option (List Nat)) × State) v =>
    match fs.getD v none with
    | some f => let q := a.2.leafView t e j v der f; (a.1 ++ [some q.1], q.2)
    | none => (a.1 ++ [none], a.2)) ([], s)

/-- The oldest epoch with unfinished work on a leaf. -/
def jobOf (s : State) (t : Trunk) (i : Nat) : Option (PortJob × Job) :=
  (s.trunk t).epochs.findSome? fun e => (e.jobs.find? (fun j => j.leaf == i && j.codes.isNone)).map fun j => (e, j)

/-- The work `j` on a leaf for an epoch has become `j'`, which has its codes. -/
def putCodes (s : State) (t : Trunk) (e : PortJob) (j j' : Job) : State :=
  let x := s.trunk t
  let e' := { e with jobs := e.jobs.map fun g => if g = j then { j' with rerun := false } else g }
  let s := s.putTrunk t { x with epochs := x.epochs.map fun g => if g = e then e' else g }
  packDone ((s.trunk t).epochs.length) s t

/-- R12: stages 3 to 6 of a leaf complete; they wait for the canvas frame (R107), and a failed item for its re-run. -/
def leafDone (s : State) (t : Trunk) (i : Nat) (rerun : Bool) : State :=
  match s.jobOf t i with
  | none => s
  | some (e, j) =>
    if j.rerun != rerun then s
    else
      match s.viewFrames t e j with
      | none => s
      | some fs =>
        let r := s.runJob t e j fs
        r.2.putCodes t e j { j with codes := some r.1, frames := fs, began := (s.trunk t).residuals }

/-- R255: the burst of the oldest epoch of a sap line is packed once its leaves are done; a leaf whose re-run has not passed
by then is held (R95). -/
def burstDone (s : State) (t : Trunk) (rec : Nat) : State :=
  match (s.trunk t).epochs.find? (fun e => e.portRec == rec) with
  | none => s
  | some e =>
    let hold := { e with jobs := e.jobs.map fun j => if j.rerun then { j with codes := some (List.replicate (leafViews e (s.leafAt j.leaf)) none), rerun := false } else j }
    if portKind (s.portRec rec) ≠ 5 ∨ !jobsDone hold then s
    else
      let x := s.trunk t
      (s.putTrunk t { x with epochs := x.epochs.erase e }).packPort t hold false

/-! ### Failed work items (R95, R115) -/

/-- R115: the first residue error after `valid` was cleared is captured; one that is not is what the register holds if `valid` is cleared
in its cycle. -/
def residueCapture (s : State) (t : Trunk) (c : LaneCheck) : State :=
  let p := c.place
  let w := 2 ^ 31 + 2 ^ 27 * laneCode c.op + 2 ^ 21 * p.bough.val + 2 ^ 18 * p.branch.val + 2 ^ 14 * p.twig.val + 2 ^ 12 * p.lane.val
  if s.fbit (Reg.TwigLastErr.valid t) then s.keepAgain (Reg.twigLastErr t) [(Reg.twigLastErr t, w)]
  else (s.noteSet (Reg.TwigLastErr.valid t) 1).setRegN (Reg.twigLastErr t) w

/-- R95: a residue error is counted and captured; its event is written and ATTN_FAULT raised. -/
def residueReport (s : State) (t : Trunk) (c : LaneCheck) : State :=
  let p := c.place
  ((s.bump (Reg.twigResErrCnt t)).residueCapture t c).trunkEvent t 0x30000 0x0810 (if s.compareActive then 3 else 2)
    [BitVec.ofNat 8 p.bough.val, BitVec.ofNat 8 p.branch.val, BitVec.ofNat 8 p.twig.val, BitVec.ofNat 8 p.lane.val, BitVec.ofNat 8 (laneCode c.op)] |>.attnFault

/-- R95, R309: a residue check fails on a leaf's work. -/
def residueFails (s : State) (t : Trunk) (i : Nat) (c : LaneCheck) : State :=
  let s := s.residueReport t c
  (if s.compareActive && t != s.activeTrunk then s else s.failItem t i).yieldOn t 1

/-- R94, R95: a lane operation of a leaf's work is checked: a result that passes is used. -/
def laneChecked (s : State) (t : Trunk) (i : Nat) (c : LaneCheck) : State := if laneOk c.op c.got then s.leafDone t i false else s.residueFails t i c

/-- R408, R409: a word of a leaf's work is read on demand. -/
def eccDemand (s : State) (t : Trunk) (i : Nat) (x : EccRead) : State :=
  match s.eccRead x with
  | .clean => s.leafDone t i false
  | .corrected bit => (s.eccCorrected (some t) x bit false).leafDone t i false
  | .uncorrectable => s.eccUncorr (some t) x false (some i)

/-- R95: the re-run of a failed item: its result is used, or, where a check fails again, the leaf holds its last value for that
frame. -/
def rerunDone (s : State) (t : Trunk) (i : Nat) (c : Option LaneCheck) : State :=
  match c with
  | none => s.leafDone t i true
  | some c =>
    if laneOk c.op c.got then s.leafDone t i true
    else
      match s.jobOf t i with
      | none => s
      | some (e, j) =>
        if !j.rerun then s
        else if s.compareActive then (s.residueReport t c).yieldOn t 1
        else (s.residueReport t c).putCodes t e j { j with codes := some (List.replicate (leafViews e (s.leafAt i)) none) }

/-- What a completing task has done. -/
def doWork (s : State) (t : Trunk) : Work → State
  | .none => s
  | .leaf i => s.leafDone t i false
  | .residue i c => s.laneChecked t i c
  | .ecc i x => s.eccDemand t i x
  | .burst rec => s.burstDone t rec

/-- R348: a task in service completes with the work it has done. -/
def taskDone (s : State) (t : Trunk) (slot : Nat) (free : Bool) (w : Work) : State :=
  if ((s.sched t).task slot).state = 3 then (s.doWork t w).complete t slot free else s

/-! ### RETURN frames (R235, R237, R238) -/

/-- R237: the leaf that a RETURN frame names, as a job index: of this tree, or after a takeover of its partner. -/
def returnLeaf (s : State) (tree leaf : Nat) : Option Nat :=
  if tree = s.sd.treeId s.grovePos ∧ leaf < s.leafCount then some leaf
  else if s.grove.takenLeaves ≠ [] ∧ s.partnerPos ≠ 0xFF ∧ tree = s.sd.treeId s.partnerPos ∧ leaf < (s.sd.leafRange s.partnerPos).2 then some (leaf + foreignLeaf)
  else none

/-- R237: a channel's code changes. -/
def diagCodeTo (s : State) (i c code : Nat) : State :=
  let o := s.leafStatus.get (0, []) i
  let old := o.2.getD c 0
  if old = code then s
  else
    let l := (o.2 ++ List.replicate (c + 1 - o.2.length) 0).set c code
    (({ s with leafStatus := s.leafStatus.set i (o.1, l) }).rootEvent 0xB0000 0x0821 0
      (leBytes 4 (i % foreignLeaf) ++ leBytes 4 c ++ leBytes 1 old ++ leBytes 1 code)).attnLeaf

/-- R237: a RETURN frame, as its UDP payload. -/
def lcReturn (s : State) (f : List Byte) : State :=
  let n := f.length
  let leaf := ofBe (slice f 0x14 3)
  let count := ofBe (slice f 0x18 2)
  let bad : Bool := decide (n < 36) || ofBe (f.drop (n - 4)) != crc32c (beBytes 4 leaf ++ f.take (n - 4)) ||
    u8 f 0 != 0x12 || u8 f 0x17 != 0x10 || n != 32 + 16 + (count + 3) / 4 + 4
  if bad then s.bump Reg.rootLcRetCrcErr
  else
    match s.returnLeaf (ofBe (slice f 2 2)) leaf with
    | none => s.bump Reg.rootLcRetForeign
    | some i =>
      let s := s.nextTag.bump Reg.rootLcRetOk
      let st := ofBe (slice f 0x20 2)
      let temp := ofBe (slice f 0x22 2)
      let s := { s with leafTemp := s.leafTemp.set i (s.addReport (s.leafTemp.get [] i) (signed 16 temp)) }
      let o := s.leafStatus.get (0, []) i
      let s := if o.1 = st then s else
        (({ s with leafStatus := s.leafStatus.set i (st, o.2) }).rootEvent 0xB0000 0x0820 0
          (leBytes 4 leaf ++ leBytes 2 o.1 ++ leBytes 2 st ++ leBytes 2 temp)).attnLeaf
      let off := ofBe (slice f 0x1A 3)
      (List.range count).foldl (fun s c => s.diagCodeTo i (off + c) (diagCode (f.drop 0x30) c)) s

end State

/-- TASK_COMPLETION (R95, R97 to R136, R255, R266, R302, R309, R348, R351, R409). -/
def execTaskCompletion (t : Trunk) (slot : Fin 4096) (free : Bool) (work : Work) (s : State) : Host.Outcome State Fault Refusal :=
  act s fun s => s.taskDone t slot free work

/-- WORK_ITEM_RERUN (R95). -/
def execWorkItemRerun (t : Trunk) (leaf : Nat) (check : Option LaneCheck) (s : State) : Host.Outcome State Fault Refusal :=
  act s fun s => s.rerunDone t leaf check

/-- LEAFCAST_RETURN_RECEIVE (R125, R230, R235, R237, R238, R246). -/
def execLeafcastReturnReceive (payload : List Byte) (s : State) : Host.Outcome State Fault Refusal :=
  act s fun s => s.lcReturn payload

end Sys2Proof.Machine
end

