-- ==== Sys2Proof/Machine/Fetch.lean ====
section
/-! DEFINITION. What the crown reads for a frame: words of surfaces under the SECDED code, and blocks of the heartwood store under their
CRC-32C; and the completion of a frame (R107, R141, R155, R157, R409). -/

namespace Sys2Proof.Machine

/-! ### The heartwood store (R157) -/

/-- R60, R157: the check value of a block: its address is folded in ahead of its 4,096 bytes. -/
def hwCrc (b : Nat) (data : List Byte) : Nat := crc32c (leBytes 8 (4096 * b) ++ data)

/-- A block as it stands in the store: its bytes, then its check value. -/
def hwStored (b : Nat) (data : List Byte) : Nat := ofLe data + 2 ^ 32768 * hwCrc b data

/-- R157: a block passes its check as it is read. -/
def hwPasses (b stored : Nat) : Bool := stored / 2 ^ 32768 == hwCrc b (leBytes 4096 stored)

/-- A stored block with some of its bits changed. -/
def hwFlip (flips : List (Fin 32800)) (x : Nat) : Nat := flips.foldl (fun x i => x ^^^ 2 ^ i.val) x

namespace State

/-- The 4,096 bytes of a block of a content. -/
def hwBlockData (s : State) (t : Trunk) (p : Nat × Nat × Nat) : List Byte :=
  (slice (s.hwContent t p.1 p.2.1) (4096 * p.2.2) 4096 ++ List.replicate 4096 0).take 4096

/-- R157: the content and block of a store block that fails its check as it is read. -/
def hwFailed (s : State) (t : Trunk) (r : HwRead) : Option (Nat × Nat × Nat) :=
  (s.hwBlockAt t r.block.val).filter fun p => !hwPasses r.block.val (hwFlip r.flips (hwStored r.block.val (s.hwBlockData t p)))

/-- R157: a failed block is reported and reloaded with the content it should hold; the trunk yields while frames are compared. -/
def hwReport (s : State) (t : Trunk) (b : Nat) (p : Nat × Nat × Nat) (inForce : Bool) : State :=
  let copy := (s.hwCopy.find? (p.1 * 2 + p.2.1)).isSome
  let s := (s.bump (Reg.crownHwErrCnt t)).trunkEvent t 0x50000 0x0813 (if s.compareActive then 3 else 2)
    ([BitVec.ofNat 8 p.1, BitVec.ofNat 8 p.2.1, BitVec.ofNat 8 inForce.toNat, BitVec.ofNat 8 copy.toNat] ++ leBytes 4 b)
  s.attnFault.yieldOn t 3

/-- R157: the scrubber finds that a block fails: its pixels are black in the frame to come, if its content is in force. -/
def hwBlockFails (s : State) (t : Trunk) (b : Nat) (p : Nat × Nat × Nat) : State :=
  let inForce := p.2.1 == s.alarmOn.toNat
  let x := s.trunk t
  let s := if inForce then s.putTrunk t { x with hwBlack := (p :: x.hwBlack).eraseDups } else s
  s.hwReport t b p inForce

/-- R157: the scrubber reads a block. -/
def hwScrub (s : State) (t : Trunk) (r : HwRead) : State :=
  match s.hwFailed t r with
  | none => s
  | some p => s.hwBlockFails t r.block.val p

/-- R157: blocks of one content are read for a frame: the blocks of it that fail, whose pixels are black in that frame. -/
def hwReads (s : State) (t : Trunk) (c which : Nat) (l : List HwRead) : State × List Nat :=
  l.foldl (fun a r =>
    match a.1.hwFailed t r with
    | none => a
    | some p => if p.1 = c ∧ p.2.1 = which then (a.1.hwReport t r.block.val p true, p.2.2 :: a.2) else a) (s, [])

/-! ### Surface fetches (R155, R409) -/

/-- R408, R409: a word that a surface fetch reads; the layer fails where the word is uncorrectable and its trunk goes on. -/
def fetchWord (s : State) (t : Trunk) (n : Nat) (x : EccRead) : State × List Nat :=
  match s.eccRead x with
  | .clean => (s, [])
  | .corrected bit => (s.eccCorrected (some t) x bit false, [])
  | .uncorrectable =>
    let goes := s.compareActive && s.inService t || x.persistent
    (((s.bump (eccBase (some t) + 4)).eccCapture (some t) x none false).eccTrunk t x false id, if goes then [] else [n])

/-- R107, R141, R155, R157: composition of the oldest frame of a canvas in hand completes, with what its reads have met. -/
def canvasComplete (s : State) (t : Trunk) (c : Nat) (words : List (Fin 32 × EccRead)) (blocks : List HwRead) : State :=
  match (s.trunk t).composing.get [] c with
  | [] => s
  | f :: _ =>
    let a := words.foldl (fun a w => let r := a.1.fetchWord t w.1.val w.2; (r.1, a.2 ++ r.2)) (s, [])
    let b := a.1.hwReads t c f.safety.toNat blocks
    b.1.frameDone t c a.2 b.2

/-- R157, R161, R188: a generator reads its next line, with the heartwood blocks read for it. -/
def rastReadLine (s : State) (t : Trunk) (g : Nat) (blocks : List HwRead) : State :=
  let r := s.hwReads t (s.ownCanvas (rasterCanvas (s.rastRec t g))) 1 blocks
  r.1.rastRead t g r.2

end State

/-! ### Meanings -/

/-- RASTER_LINE_READ (R157, R161, R188 to R191, R195 to R199). -/
def execRasterLineRead (t : Trunk) (l : LineRead) (s : State) : Host.Outcome State Fault Refusal :=
  act s fun s => s.rastReadLine t l.gen l.blocks

/-- CANVAS_FRAME_COMPLETE (R107, R141, R155, R157). -/
def execCanvasFrameComplete (t : Trunk) (f : FrameRead) (s : State) : Host.Outcome State Fault Refusal :=
  act s fun s => s.canvasComplete t f.canvas f.words f.blocks

/-- HEARTWOOD_SCRUB (R157): a block that passes its check changes nothing. -/
def execHeartwoodScrub (t : Trunk) (block : Fin 2048) (flips : List (Fin 32800)) (s : State) : Host.Outcome State Fault Refusal :=
  act s fun s => if s.mirrored t then s.hwScrub t ⟨block, flips⟩ else s

end Sys2Proof.Machine
end

