-- ==== Sys2Proof/Machine/Alarm.lean ====
section
/-! DEFINITION. Signed heartwood writes, the safety loops, the alarm and its release (R158 to R168). -/

namespace Sys2Proof.Machine

/-- R469: the class of a loop by its resistance in ohms: 0 NORMAL, 1 ALARM, 2 OPEN, 3 SHORT (R168). -/
def loopClass (ohms : Nat) : Nat :=
  if ohms < 2000 then 3 else if ohms < 7000 then 0 else if ohms < 16000 then 1 else 2

/-- R160: the alarm condition of two accepted loop states. -/
def alarmYes (a b : Nat) : Bool := a == 1 || b == 1 || decide (2 ≤ a) && decide (2 ≤ b)

/-- R160: a line fault. -/
def lineFault (a b : Nat) : Bool := decide (2 ≤ a) || decide (2 ≤ b)

/-- R159: a sample joins the run of those that agree. -/
def loopRunNext (run : Nat × Nat) (c : Nat) : Nat × Nat := if run.1 = c then (c, min 4 (run.2 + 1)) else (c, 1)

namespace State

/-! ### Signed heartwood writes (R158) -/

/-- R158: a trunk's current generation of a canvas. A canvas's is the larger of the trunks' (a trunk that does not compose it has 0). -/
def hwGen (s : State) (t : Trunk) (c : Nat) : Nat := s.regN (Reg.crownCanvasHwGenLo t c) + 2 ^ 32 * s.regN (Reg.crownCanvasHwGenHi t c)

/-- R158: the outcome of a heartwood write: its code. The tests run in the order of the codes; a malformed object does not
verify. -/
def hwCheck (s : State) (o : List Byte) : Nat :=
  let n := o.length - 128
  let pre := o.take 64
  let c := u8 pre 4
  let area := canvasHw (s.canvasRec c)
  let key := (s.setting 0x0100).getD []
  let formed := decide (128 ≤ o.length) && pre.take 4 == [0x44, 0x47, 0x48, 0x57] && decide (c < 8) && decide (u8 pre 5 ≤ 1) &&
    u16 pre 6 == 0 && ofLe (slice pre 0x30 16) == 0
  if !formed || !edVerify key (sha256 (o.take (64 + n))) (o.drop (64 + n)) then 0x0510
  else if u64 pre 0x18 ≤ max (s.hwGen .a c) (s.hwGen .b c) then 0x0511
  else if s.canvasCount ≤ c ∨ (u16 pre 0x28, u16 pre 0x2A, u16 pre 0x2C, u16 pre 0x2E) ≠ area ∨ u64 pre 0x20 ≠ n ∨
      n ≠ (area.2.2.1 - area.1) * (area.2.2.2 - area.2.1) * 8 ∨ n = 0 then 0x0512
  else if slice pre 8 16 ≠ s.sd.seedId ∨ s.seed.isNone then 0x0513
  else 0

/-- R158: an accepted write: both trunks hold the content pending under one arrival tag, and the root keeps a copy. -/
def hwAccept (s : State) (o : List Byte) : State :=
  let c := u8 o 4
  let k := c * 2 + u8 o 5
  let body := (o.drop 64).take (o.length - 128)
  let s := { s.nextTag with hwCopy := s.hwCopy.set k body }
  s.onTrunks (fun s t => s.mirrored t && s.canvasIn t c) fun t s =>
    let x := s.trunk t
    (s.putTrunk t { x with hwPend := x.hwPend.set k body }).setReg64 (Reg.crownCanvasHwGenLo t c) (Reg.crownCanvasHwGenHi t c) (u64 o 0x18)

/-- R158: a whole heartwood write has arrived. -/
def hwTake (s : State) (h : StemHdr) (o : List Byte) : State :=
  let code := s.hwCheck o
  let s := if code = 0 then s.hwAccept o else s
  let s := (((s.rootEvent 0 code 5 []).attnSafety).pendBoth 963)
  s.done h 0x40 code

/-! ### The alarm comes into force (R161) -/

/-- *A* + 1 ms on each time base that has a position, in whole ns rounded up. -/
def alarmBases (s : State) : Tab Nat :=
  [0, 1, 2, 3, 17].foldl (fun m b => match s.basePos b with | some p => m.set b ((p + 65535) / 65536 + 1000000) | none => m) []

/-- The PORTS records with a leaf that is packed. -/
def leafOutputs (s : State) : List Nat :=
  s.portIdxs.filter fun p => (List.range s.leafCount).any fun i => leafPort (s.leafRec i) == p && leafWorks (s.leafRec i)

/-- A code of `a` bits as one of `b` bits, to the nearest. -/
def rebit (a b c : Nat) : Nat := (c * (2 ^ b - 1) + (2 ^ a - 1) / 2) / (2 ^ a - 1)

/-- R163: the codes of a leaf of the running seed from before the look, as the active trunk packed them, else the other. -/
def heldAny (s : State) (k : Nat) : Option (List Nat) :=
  match (s.trunk s.activeTrunk).heldCodes.find? k with
  | some c => some c
  | none => (s.trunk s.activeTrunk.other).heldCodes.find? k

/-- R163: the leaf of the running seed that leaf `i` of the safety seed is: the same protocol, port and address (DESIGN CHOICE). -/
def sameLeaf (s q : State) (i : Nat) : Option Nat :=
  let r := q.leafRec i
  let p := q.portRec (leafPort r)
  (List.range s.leafCount).find? fun j =>
    let x := s.leafRec j
    let y := s.portRec (leafPort x)
    leafProtocol x == leafProtocol r && leafAddress x == leafAddress r && portKind y == portKind p && portNumber y == portNumber p

/-- R163: what HOLD repeats under the safety seed: the codes each of its leaves last had under the running seed, at its own bits. -/
def safetyHeld (s : State) : Tab (List Nat) :=
  let q : State := { s with seed := s.safetySeed }
  (List.range q.leafCount).foldl (fun m i =>
    match s.sameLeaf q i with
    | none => m
    | some j =>
      match s.heldAny (4 * j) with
      | none => m
      | some c => m.set (4 * i) (c.map (rebit (s.leafBits (s.leafRec j)) (q.leafBits (q.leafRec i))))) []

/-- R163: the state as the root's own packer sees it: under the ring record's safety seed. -/
def underSafetySeed (s : State) : State := { s with seed := s.safetySeed, trunks := [(0, { heldCodes := s.safetyHeld })] }

/-- The record of the seed in use for a port that the safety seed names. -/
def mapRec (s : State) (rec : Nat) : Option Nat :=
  let r := s.underSafetySeed.portRec rec
  s.portOf? (portKind r) (portNumber r)

/-- R161, step 1: frames the alarm overtakes leave the launch queues. -/
def purge (s : State) : State :=
  let keep (f : OutFrame) : Bool := !s.underAlarm f
  let s := (List.range 58).foldl (fun s n =>
    if (s.port n).timed.all keep then s else (s.putPort n { s.port n with timed := (s.port n).timed.filter keep }).congestion n) s
  let s := { s with dmx := s.dmx.map (fun (k : Nat × DmxSt) => (k.1, { k.2 with queue := k.2.queue.filter keep })) }
  { s with saps := s.saps.map (fun (k : Nat × SapSt) => (k.1, { k.2 with queue := k.2.queue.filter keep })) }

/-- R163: the trunks do not pack (none is in service, or the firmware switches), and the root's packer does. -/
def rootPacks (s : State) : Bool := s.alarmOn && (s.noTrunk || s.fwSwitch) && s.safetySeed.isSome

/-- R161: the alarm comes into force in this cycle. -/
def alarmForce (s : State) : State :=
  let s := s.fset Reg.TreeSafeStatus.alarm 1
  let f := Reg.TreeSafeStatus.accepted
  let s := (s.fset f 1).pushEvent { die := 0, block := 0, code := statusCode f, cls := 5, args := leBytes 4 f.addr, trig := true }
  let s := (s.bump Reg.treeSafeEvtCnt).attnSafety.nextTag
  let outs := if s.rootPacks then s.underSafetySeed.leafOutputs.filterMap s.mapRec else s.leafOutputs
  let s := { s with safe.alarmAt := s.free, safe.alarmTag := s.tag, safe.alarmLaunch := s.alarmBases, safe.packerNext := s.free + 1000000 * 65536, safe.safetySeq := 0,
                    safe.ackWait := if outs.isEmpty then none else some outs,
                    trunks := s.trunks.map (fun (x : Nat × TrunkSt) => (x.1, { x.2 with safePacked := false })) }
  let s := (s.srcEdge .a 962 true).srcEdge .b 962 true
  s.purge

/-- R165: release of the alarm. -/
def alarmRelease (s : State) : State :=
  let s := ((s.fset Reg.TreeSafeStatus.alarm 0).fset Reg.TreeSafeStatus.ack 0).flag Reg.TreeSafeStatus.released 5
  let s := s.attnSafety.nextTag
  let s := { s with padSafeAck := false, safe.ackWait := none, safe.releasedAt := s.free, safe.releasedTag := s.tag }
  (s.srcEdge .a 962 false).srcEdge .b 962 false

/-- R165: a write of `release`; one while the evaluation reads Yes is ignored. -/
def releaseWrite (s : State) : State := if s.alarmOn && !s.fbit Reg.TreeSafeStatus.evaluation then s.alarmRelease else s

/-- R160: an event of a loop or an evaluation that sets no status bit; its code is stated nowhere. -/
def loopEvent (s : State) (what : Nat) : State := s.rootEvent 0 (Config.unstated 160 what % 2 ^ 16) 5 []

/-- R160: the two accepted loop states are evaluated. -/
def evaluate (s : State) (a b : Nat) : State :=
  let ev := s.fbit Reg.TreeSafeStatus.evaluation
  let yes := alarmYes a b
  if yes = ev then s
  else
    let s := s.fsetB Reg.TreeSafeStatus.evaluation yes
    if !yes then ({ s with safe.evalNoSince := s.free }.loopEvent 4).attnSafety
    else if s.alarmOn then (s.loopEvent 5).attnSafety
    else s.alarmForce

/-- R159, R160: a loop's accepted state changes. -/
def acceptLoop (s : State) (f : Field) (c : Nat) : State :=
  if s.fget f = c then s
  else
    let s := s.fset f c
    (if 2 ≤ c then s.flag Reg.TreeSafeStatus.lineFault 5 else s.loopEvent c).attnSafety

/-- R159: one sample of both loops. -/
def loopSample (s : State) (ohmsA ohmsB : Nat) : State :=
  let ra := loopRunNext (s.safe.loopRun.getD 0 (0, 0)) (loopClass ohmsA)
  let rb := loopRunNext (s.safe.loopRun.getD 1 (0, 0)) (loopClass ohmsB)
  let s := { s with safe.loopRun := [ra, rb] }
  let s := if ra.2 = 4 then s.acceptLoop Reg.TreeSafeStatus.lineA ra.1 else s
  let s := if rb.2 = 4 then s.acceptLoop Reg.TreeSafeStatus.lineB rb.1 else s
  s.evaluate (s.fget Reg.TreeSafeStatus.lineA) (s.fget Reg.TreeSafeStatus.lineB)

/-! ### The safety frames (R161, R163) -/

/-- R161, step 2: the frame of one output under the look, with launch time *A* + 1 ms on its base. Its sequence is the last
epoch's, and so is the cadence point a burst without camera timing counts from (R130; DESIGN CHOICE). -/
def safetyJob (s : State) (t : Trunk) (rec : Nat) : PortJob :=
  let c := portCadence (s.portRec rec)
  let k := s.cadence.get 0 (epochKey (.port rec))
  let l := s.safe.alarmLaunch.find? (portBase (s.portRec rec))
  let base := if l.isSome then portBase (s.portRec rec) else 17
  let e : PortJob := { portRec := rec, k := k, pos := s.sd.cadPos c k, ax := s.sd.cadAxis c, launch := l, base := base,
                       cap := s.capture, look := true, cams := (List.range 8).map fun g => s.camShot t g base (l.getD (s.safe.alarmLaunch.get 0 17)),
                       jobs := (s.jobLeaves t rec).map (s.newJob t) }
  { e with jobs := e.jobs.map fun j => { j with codes := some (List.replicate (leafViews e (s.leafAt j.leaf)) none) } }

/-- R161: a trunk finishes packing the safety frames of every output it computes. -/
def safetyPack (s : State) (t : Trunk) : State :=
  if !s.alarmOn || !s.computes t || (s.trunk t).safePacked then s
  else
    let s := s.leafOutputs.foldl (fun s p => if s.packsPort t p then s.packPort t (s.safetyJob t p) true else s) s
    s.putTrunk t { s.trunk t with safePacked := true }

/-- R163: the root's packer sends the frames of one record of the safety seed, as record `rec` of the seed in use, at its own time on
FREE, which is the anchor of a burst too: there is no epoch (DESIGN CHOICE). -/
def rootPackRec (s : State) (p rec : Nat) : State :=
  let q := s.underSafetySeed
  let e0 : PortJob := { portRec := p, k := s.safe.safetySeq, pos := s.safe.packerNext, ax := 17, launch := some (s.safe.packerNext / 65536), look := true, jobs := (q.boundLeaves p).map (fun i => { leaf := i, codes := some [none] }) }
  let l : List Packed := match portKind (q.portRec p) with
    | 5 => (q.packBurst .a e0 true).1
    | 6 => q.packDmx .a e0
    | 9 => q.packE131 .a e0 true
    | _ => q.packLeafcast .a e0 true
  let code := portKind (q.portRec p) * 256 + portNumber (q.portRec p)
  l.foldl (fun s (d : Packed) => s.letOut .a { code := code, seq := s.safe.safetySeq, out :=
    { portRec := rec, seq := s.safe.safetySeq, launch := s.safe.packerNext / 65536, base := 17, safety := true, capTag := s.safe.alarmTag, len := d.len, data := d.data,
      leaves := d.leaves, burst := s.safe.safetySeq % 2 ^ 32, part := d.part, parts := d.parts, takeBy := d.takeBy } }) s

/-- R163: at *A* + 1 ms and then every 25 ms while neither trunk is in service. -/
def rootPack (s : State) : State :=
  if !s.rootPacks || decide (s.free < s.safe.packerNext) then s
  else
    let s := s.underSafetySeed.leafOutputs.foldl (fun s p => match s.mapRec p with | some rec => s.rootPackRec p rec | none => s) s
    let step := 25000000 * 65536
    { s with safe.packerNext := s.safe.packerNext + ((s.free - s.safe.packerNext) / step + 1) * step, safe.safetySeq := s.safe.safetySeq + 1 }

end State

/-! ### Meanings -/

/-- HEARTWOOD_WRITE (R158, R395). -/
def execHeartwoodWrite (h : StemHdr) (c : Chunk) (s : State) : Host.Outcome State Fault Refusal :=
  act s fun s => s.stemCmd h 0x40 c.data.length false (.heartwoodWrite h c) fun s => s.chunkIn h 0x40 c fun o s => s.hwTake h o

/-- SAFETY_LOOP_SAMPLE (R159 to R161, R469). -/
def execSafetyLoopSample (ohmsA ohmsB : Nat) (s : State) : Host.Outcome State Fault Refusal := act s fun s => s.loopSample ohmsA ohmsB

/-- SAFETY_PACK (R161, R162). -/
def execSafetyPack (t : Trunk) (s : State) : Host.Outcome State Fault Refusal := act s fun s => s.safetyPack t

/-- ROOT_SAFETY_PACKER_TICK (R163). -/
def execRootSafetyPackerTick (s : State) : Host.Outcome State Fault Refusal := act s fun s => s.rootPack

/-- SAFE_RELEASE (R165): a `release` while the evaluation reads Yes is ignored. -/
def execSafeRelease (s : State) : Host.Outcome State Fault Refusal :=
  act s fun s => s.releaseWrite

/-- SAFE_AUTO_RELEASE (R165): the evaluation has read No for 1 s. -/
def execSafeAutoRelease (s : State) : Host.Outcome State Fault Refusal :=
  act s fun s =>
    if s.fbit Reg.TreeSafeCtrl.autoRelease && s.alarmOn && !s.fbit Reg.TreeSafeStatus.evaluation && decide (s.safe.evalNoSince + second ≤ s.free)
    then s.alarmRelease else s

end Sys2Proof.Machine
end

