-- ==== Sys2Proof/Machine/Load.lean ====
section
/-! DEFINITION. The load a seed puts on a tree against the rate budgets, and the leaves that are shed (R16 to R23, R28). -/

namespace Sys2Proof.Machine

/-- The frame rate of a cadence as a fraction of frames per second. -/
def Seed.cadRate (d : Seed) (c : Nat) : Nat × Nat :=
  let a := d.cadAxis c
  if isTimeAxis a then (d.cadNum c, d.cadDen c) else (d.rateNum a * d.cadDen c, d.rateDen a * d.cadNum c)

/-- A common denominator of the cadences' rates. -/
def Seed.rateScale (d : Seed) : Nat := (List.range d.cadences.length).foldl (fun m c => Nat.lcm m (max 1 (d.cadRate c).2)) 1

/-- A cadence's rate in units of one over the common denominator. -/
def Seed.rateUnits (d : Seed) (scale c : Nat) : Nat := (d.cadRate c).1 * (scale / max 1 (d.cadRate c).2)

/-- R20: the views a leaf counts with. -/
def Seed.leafViewCount (d : Seed) (r : List Byte) : Nat :=
  match d.cameras.find? (fun c => u8 c 0 == leafCamera r) with
  | some c => if leafCamera r < 8 then State.camViews c else 1
  | none => 1

/-- R16: pixel updates and emitter values per second of a leaf record, in units of one over the common denominator. -/
def Seed.leafLoad (d : Seed) (scale : Nat) (r : List Byte) : Nat × Nat :=
  if d.isSafety || !State.leafWorks r then (0, 0)
  else
    let u := leafPixels r * d.leafViewCount r * d.rateUnits scale (patchCadence (recAt d.patches (leafPatch r)))
    (u, u * modelEmitters (recAt d.models (leafModel r)))

/-- R16, R17, R21: the two budgets, full and throttled. -/
def Seed.budget (d : Seed) (throttled : Bool) : Nat × Nat :=
  let k := (if d.redundancy = 2 then 2 else 1) * (if throttled then 3 else 4)
  (2013265920 / 4 * k, 4026531840 / 4 * k)

/-- Two loads fit a budget. -/
def fitsBudget (scale : Nat) (b l : Nat × Nat) : Bool := decide (l.1 ≤ b.1 * scale) && decide (l.2 ≤ b.2 * scale)

def addLoad (a b : Nat × Nat) : Nat × Nat := (a.1 + b.1, a.2 + b.2)
def subLoad (a b : Nat × Nat) : Nat × Nat := (a.1 - b.1, a.2 - b.2)

/-- R22: leaves are shed in order until the rest fits. -/
def shedUntil (scale : Nat) (b : Nat × Nat) : List (Nat × Nat × Nat) → Nat × Nat → List Nat
  | [], _ => []
  | (i, l) :: r, t => if fitsBudget scale b t then [] else i :: shedUntil scale b r (subLoad t l)

/-- R28: leaves are taken in order while they fit. -/
def takeWhileFits (scale : Nat) (b : Nat × Nat) : List (Nat × Nat × Nat) → Nat × Nat → List Nat
  | [], _ => []
  | (i, l) :: r, t => if fitsBudget scale b (addLoad t l) then i :: takeWhileFits scale b r (addLoad t l) else []

namespace State

/-- R25, R298: in SPLIT, the half whose trunk is lost and whose KEEP leaves the other trunk adds. -/
def lostHalf (s : State) : Option Trunk :=
  if s.redundancy ≠ 2 then none else if s.twin.adopted.contains 0 then some .a else if s.twin.adopted.contains 1 then some .b else none

/-- R21, R25: the budgets of the trunks that run: those of R21, and the survivor's own alone when a half of SPLIT is lost. -/
def runBudget (s : State) : Nat × Nat :=
  let b := s.sd.budget (s.fbit Reg.TreeMode.throttled)
  if s.lostHalf.isSome then (b.1 / 2, b.2 / 2) else b

/-- The leaves of this tree whose own trunk runs. -/
def ownLeaves (s : State) : List Nat :=
  (List.range s.leafCount).filter fun i => match s.lostHalf with | none => true | some h => leafTrunk (s.leafRec i) != h.idx

/-- The leaves this tree has taken over from its partner, as job indexes. -/
def takenJobs (s : State) : List Nat := s.grove.takenLeaves.map (· + foreignLeaf)

def loadOf (s : State) (scale i : Nat) : Nat × Nat := s.sd.leafLoad scale (s.leafAt i)

/-- The load of some leaves. -/
def loadSum (s : State) (scale : Nat) (l : List Nat) : Nat × Nat := l.foldl (fun a i => addLoad a (s.loadOf scale i)) (0, 0)

/-- R28: those of the leaves taken over that fit what this tree's own leaves leave of the budget. -/
def takenFit (s : State) : List Nat :=
  if s.lostHalf.isNone then s.takenJobs
  else
    let d := s.sd.rateScale
    takeWhileFits d s.runBudget (s.takenJobs.map fun i => (i, s.loadOf d i)) (s.loadSum d s.ownLeaves)

/-- R22, R28: the leaves shed: while throttled, SHED before NORMAL before KEEP, the highest index first, until the rest fits; and
leaves taken over that no longer fit beside a survivor's own half. -/
def shedSet (s : State) : List Nat :=
  let fit := s.takenFit
  let out := s.takenJobs.filter (fun i => !fit.contains i)
  if !s.fbit Reg.TreeMode.throttled then out
  else
    let d := s.sd.rateScale
    let all := (s.ownLeaves ++ fit).reverse.map fun i => (i, s.loadOf d i)
    let total := all.foldl (fun a x => addLoad a x.2) (0, 0)
    let cls (p : Nat) : List (Nat × Nat × Nat) := all.filter fun x => leafPriority (s.leafAt x.1) == p
    shedUntil d s.runBudget (cls 2 ++ cls 1 ++ cls 0) total ++ out

/-- The leaves that run beside a lost half: the survivor's own and those taken over, but for the shed ones. -/
def runLeaves (s : State) (shed : List Nat) : List Nat := (s.ownLeaves ++ s.takenJobs).filter (fun i => !shed.contains i)

/-- R25: the KEEP leaves of a lost half that fill what remains of the survivor's budget, lowest leaf index first. -/
def adoptSet (s : State) (shed : List Nat) : List Nat :=
  match s.lostHalf with
  | none => []
  | some h =>
    let d := s.sd.rateScale
    let keep := (List.range s.leafCount).filter fun i => leafPriority (s.leafRec i) == 0 && leafTrunk (s.leafRec i) == h.idx
    takeWhileFits d s.runBudget (keep.map fun i => (i, s.loadOf d i)) (s.loadSum d (s.runLeaves shed))

/-- R23: the thinning factor of a trunk that composes the canvases `l`. -/
def thinFactor (s : State) (l : List Nat) : Nat :=
  if !s.fbit Reg.TreeMode.throttled then 1
  else
    let d := s.sd.rateScale
    let load := l.foldl (fun a c => let r := s.canvasRec c; a + canvasWidth r * canvasHeight r * s.sd.rateUnits d (canvasCadence r)) 0
    max 1 ((load + 6039797760 * d - 1) / (6039797760 * d))

/-- R28, R321: the partner's KEEP leaves that a takeover adds to what runs, lowest index first, as the partner's tree leaf indexes;
`reach` are those its rings reach. -/
def takeSet (s : State) (reach : List Nat) : List Nat :=
  let d := s.sd.rateScale
  let own := s.loadSum d (s.ownLeaves.filter (fun i => !s.shedLeaves.contains i) ++ s.twin.adoptedLeaves)
  (takeWhileFits d s.runBudget (reach.map fun i => (i, s.loadOf d i)) own).map (· - foreignLeaf)

end State

end Sys2Proof.Machine
end

