-- ==== Sys2Proof/Machine/Grove.lean ====
section
/-! DEFINITION. Grove pairs: heartbeats, takeover, hand-back, and RING messages (R28, R320 to R325). -/

namespace Sys2Proof.Machine

namespace State

/-- R320, R324: a trunk in service and a seed running. -/
def treeServing (s : State) : Bool := !s.noTrunk && s.seed.isSome

/-- R323: a grove link frame of type `type` is for this tree. -/
def groveOk (s : State) (h : GroveHdr) (type : Nat) : Bool :=
  h.checkOk && h.groveId == s.sd.groveId && (h.dst == s.grovePos || h.dst == 0xFF) && h.type == type

/-- R323: a frame of type `type` is discarded and counted, or `f` takes it. -/
def groveIn (s : State) (h : GroveHdr) (type : Nat) (f : State → State) : State :=
  if s.groveOk h type then f s else s.bump Reg.cmpGroveRxErr

/-- The frame comes from the partner. -/
def fromPartner (s : State) (h : GroveHdr) : Bool := s.fbit Reg.CmpGroveStatus.paired && h.src == s.fget Reg.CmpGroveStatus.partner

/-- R48, R324: the cadence index of the latest tree epoch. -/
def latestK (s : State) : Nat := s.cadence.get 0 99

/-! ### Takeover (R28, R321) -/

/-- R321: the partner's leaves join the work of the epoch in progress of one of its records, unless that epoch is past its
lateness limit; then the next epoch is their first. -/
def takeRecord (s : State) (rec : Nat) : State :=
  let r := s.portRec rec
  let c := portCadence r
  match s.basePos (s.sd.cadAxis c) with
  | none => s
  | some p =>
    match s.sd.cadIndex c p with
    | none => { s with cadence := s.cadence.set (100 + rec) 0 }
    | some k =>
      let s := { s with cadence := s.cadence.set (100 + rec) k }
      match s.launchNs c k (portBase r), s.basePos (portBase r) with
      | some l, some b =>
        if (l + portLateLimit r) * 65536 ≤ b then s
        else s.onTrunks (fun s t => s.computes t) fun t s => s.portEpoch t rec k (s.sd.cadPos c k)
      | _, _ => s

/-- R28, R321: the survivor takes over the partner's KEEP leaves that its rings reach; their residuals start at 0. -/
def takeover (s : State) : State :=
  let keep := s.partnerKeep
  let reach := keep.filter fun i => (s.emitRec (leafPort (s.leafAt i))).isSome
  let taken := s.takeSet reach
  let s := (s.fset Reg.CmpGroveStatus.takeover 1).setRegN Reg.cmpTakeoverUnreach (keep.length - reach.length)
  let s := { s with grove.takenLeaves := taken }
  let mine (k : Nat) : Bool := (taken.map (· + foreignLeaf)).any fun i =>
    let a := s.slotOf i
    decide (a ≤ k / 32) && decide (k / 32 < a + leafPixels (s.leafAt i))
  let s := { s with trunks := s.trunks.map fun (x : Nat × TrunkSt) => (x.1, { x.2 with residuals := x.2.residuals.filter (fun p => !mine p.1) }) }
  let recs := ((taken.map fun i => leafPort (s.leafAt (i + foreignLeaf))).eraseDups).mergeSort (fun a b => a ≤ b)
  recs.foldl takeRecord s

/-- R320: the partner is lost. A loss during hand-back ends it. -/
def losePartner (s : State) : State :=
  if s.grove.partnerGone then s
  else
    let s := ((s.fset Reg.CmpGroveStatus.partnerServing 0).flag Reg.CmpGroveStatus.partnerLost 0).attnFailover
    let s := { s.fset Reg.CmpGroveStatus.handbackPending 0 with grove.partnerGone := true, grove.backK := none, grove.returning := false }
    if s.treeServing && !s.fbit Reg.CmpGroveStatus.takeover then s.takeover else s

/-! ### Heartbeats (R320, R324) -/

/-- R324: the HEARTBEAT payload. -/
def heartbeat (s : State) : List Byte :=
  let st := s.treeServing.toNat * 128 + s.alarmOn.toNat * 64 + s.trunkState .b * 8 + s.trunkState .a
  [BitVec.ofNat 8 st, BitVec.ofNat 8 (s.fget Reg.CmpGroveStatus.takeover)] ++ List.replicate 6 0 ++ (s.sd.seedId ++ List.replicate 16 0).take 16 ++
    beBytes 8 s.latestK ++ List.replicate 8 0

/-- Some grove link is up. -/
def groveUp (s : State) : Bool := s.linkUp 48 || s.linkUp 49

/-- R320: every 100 µs. A module with a faulted compare stage or switch core sends none, so its partner takes over (R326, R411). -/
def heartbeatOut (s : State) : State :=
  if !s.sd.isGrove || decide (s.free < s.grove.hbNext) then s
  else
    let s := if s.fbit Reg.CmpGroveStatus.paired && !s.grove.hbSeen then s.bump Reg.cmpHbMissCnt else s
    let s := { s with grove.hbSeen := false, grove.hbNext := s.free + 100 * 65536000 }
    if s.groveUp && !s.life.moduleFault then s.sendGrove 1 0xFF s.heartbeat else s

/-- R320 to R322: a HEARTBEAT of the partner. -/
def heartbeatIn (s : State) (h : GroveHdr) (serving takeover : Bool) (seedId : Nat) : State :=
  if !s.fromPartner h then s
  else
    let s := { s with grove.hbLast := s.free, grove.hbSeen := true, grove.hbSeed := seedId }
    if !serving then s.losePartner
    else
      let s := { s.fset Reg.CmpGroveStatus.partnerServing 1 with grove.partnerGone := false }
      if takeover && s.treeServing && seedId == ofBe s.sd.seedId then
        if s.grove.returning || s.fbit Reg.CmpGroveStatus.takeover then s else { s with grove.returning := true, grove.returnLeft := s.sd.holdoff, grove.backK := none }
      else if !takeover && s.grove.returning && !s.fbit Reg.CmpGroveStatus.handbackPending then { s with grove.returning := false, grove.backK := none }
      else s

/-- R320: no HEARTBEAT of the partner for 500 µs. -/
def heartbeatLate (s : State) : State :=
  if s.fbit Reg.CmpGroveStatus.paired && decide (s.grove.hbLast + 500 * 65536000 ≤ s.free) then s.losePartner else s

/-! ### Hand-back (R322) -/

/-- R322, R324: the TAKEOVER payload: RETURN (1) or ACCEPT (2), and the hand-back epoch. -/
def takeoverBytes (action k : Nat) : List Byte := [BitVec.ofNat 8 action] ++ List.replicate 7 0 ++ beBytes 8 k

def takeoverMsg (s : State) (action k : Nat) : State := s.sendGrove 2 (s.fget Reg.CmpGroveStatus.partner) (takeoverBytes action k)

/-- R322: the returning tree proposes a hand-back epoch at least 2 ahead; how far ahead is open. -/
def returnSend (s : State) : State :=
  if !s.grove.returning || s.grove.returnLeft != 0 || s.grove.backK.isSome then s
  else
    let d := s.draw 65536
    let k := s.latestK + 2 + d.1
    { d.2.takeoverMsg 1 k with grove.backK := some k }

/-- R322: RETURN is answered, ACCEPT agrees. -/
def takeoverIn (s : State) (h : GroveHdr) (accept : Bool) (k : Nat) : State :=
  if !s.fromPartner h then s
  else if accept then (if s.grove.returning && s.grove.backK == some k then s.fset Reg.CmpGroveStatus.handbackPending 1 else s)
  else if s.fbit Reg.CmpGroveStatus.takeover && s.grove.hbSeed == ofBe s.sd.seedId then
    { (s.takeoverMsg 2 k).fset Reg.CmpGroveStatus.handbackPending 1 with grove.backK := some k }
  else s

/-- R322: what a tree epoch does to the hand-back; a partner lost while this tree did not serve is taken over now. -/
def groveEpoch (s : State) : State :=
  let s := { s with grove.returnLeft := s.grove.returnLeft - 1 }
  let s := match s.grove.backK with
    | none => s
    | some k =>
      if s.fbit Reg.CmpGroveStatus.handbackPending then
        if s.latestK < k then s
        else
          let s := { s.fset Reg.CmpGroveStatus.handbackPending 0 with grove.backK := none }
          if s.grove.returning then { s with grove.returning := false }
          else ({ s.fset Reg.CmpGroveStatus.takeover 0 with grove.takenLeaves := [] }).flag Reg.CmpGroveStatus.partnerReturned 0
      else if k ≤ s.latestK + 1 then { s with grove.backK := none } else s
  if s.grove.partnerGone && s.treeServing && !s.fbit Reg.CmpGroveStatus.takeover then s.takeover else s

/-! ### RING messages (R324, R325) -/

/-- R325: a frame of the partner enters the egress queue of its fixture-trunk port. -/
def ringQueue (s : State) (port len launch : Nat) (data : List Byte) : State :=
  let n := 16 + port
  s.enqueueEth n { portRec := (s.ethRec? n).getD 0, seq := ofBe (slice (udpPayload data) 4 4), launch := launch, base := portBase (s.ethRec n),
                   safety := u8 (udpPayload data) 1 % 2 == 1, capTag := s.tag, ringMoved := true, len := len + 4, data := data }

/-- R324, R325: a RING message; a reserved `part` and a port that PORTS lacks are ignored. -/
def ringIn (s : State) (src port part len launch : Nat) (data : List Byte) : State :=
  if 32 ≤ port ∨ (s.ethRec? (16 + port)).isNone then s
  else if part = 0 then s.ringQueue port len launch data
  else if part ≤ 2 then
    let second := part == 2
    let same (x : RingPart) : Bool := x.src == src && x.port == port && x.len == len && x.launch == launch && x.second != second
    match s.grove.ringParts.find? same with
    | some x =>
      let s := { s with grove.ringParts := s.grove.ringParts.filter (· != x) }
      s.ringQueue port len launch (if second then x.data ++ data else data ++ x.data)
    | none => { s with grove.ringParts := s.grove.ringParts ++ [{ src := src, port := port, len := len, launch := launch, second := second, data := data, at_ := s.free }] }
  else s

/-- R325: parts whose other part has not come within 1 ms. -/
def ringLate (s : State) : State :=
  let late (x : RingPart) : Bool := decide (x.at_ + 1000000 * 65536 ≤ s.free)
  ({ s with grove.ringParts := s.grove.ringParts.filter (fun x => !late x) }).bumpBy Reg.cmpGroveRxErr (s.grove.ringParts.filter late).length

end State

/-! ### Meanings -/

/-- HEARTBEAT_SEND (R320, R324). -/
def execHeartbeatSend (s : State) : Host.Outcome State Fault Refusal := act s fun s => s.heartbeatOut

/-- HEARTBEAT_RECEIVE (R320 to R324). -/
def execHeartbeatReceive (h : GroveHdr) (serving _ takeover : Bool) (seedId _ : Nat) (s : State) : Host.Outcome State Fault Refusal :=
  act s fun s => s.groveIn h 1 fun s => s.heartbeatIn h serving takeover seedId

/-- PARTNER_HEARTBEAT_TIMEOUT (R320, R321). -/
def execPartnerHeartbeatTimeout (s : State) : Host.Outcome State Fault Refusal := act s fun s => s.heartbeatLate

/-- TAKEOVER_RETURN_SEND (R322). -/
def execTakeoverReturnSend (s : State) : Host.Outcome State Fault Refusal := act s fun s => s.returnSend

/-- TAKEOVER_MESSAGE_RECEIVE (R322, R324). -/
def execTakeoverMessageReceive (h : GroveHdr) (accept : Bool) (epochIndex : Nat) (s : State) : Host.Outcome State Fault Refusal :=
  act s fun s => s.groveIn h 2 fun s => s.takeoverIn h accept epochIndex

/-- RING_MESSAGE_RECEIVE (R324, R325). -/
def execRingMessageReceive (h : GroveHdr) (port part frameLen launch _ : Nat) (data : List Byte) (s : State) : Host.Outcome State Fault Refusal :=
  act s fun s => s.groveIn h 3 fun s => s.ringIn h.src port part frameLen launch data

/-- RING_PART_TIMEOUT (R325). -/
def execRingPartTimeout (s : State) : Host.Outcome State Fault Refusal := act s fun s => s.ringLate

/-- GROVE_FRAME_DISCARD (R323): a frame that R323 does not discard is no such frame. -/
def execGroveFrameDiscard (h : GroveHdr) (s : State) : Host.Outcome State Fault Refusal :=
  act s fun s => if s.groveOk h h.type && [1, 2, 3, 0x10, 0x11, 0x20].contains h.type then s else s.bump Reg.cmpGroveRxErr

end Sys2Proof.Machine
end

