-- ==== Sys2Proof/Machine/RegAcc.lean ====
section
/-! DEFINITION. Plain register accesses: what a write or a read of a word does to its fields by their access codes, ahead of
any behaviour of the register's own (R3 to R6). -/

namespace Sys2Proof.Machine

/-- R6: a value of a field that is a reserved encoding. -/
def Fld.bars (f : Fld) (v : Nat) : Bool := f.bad.any (fun b => decide (b.1 ≤ v) && decide (v ≤ b.2))

/-- The field's value in a word. -/
def Fld.of (f : Fld) (w : Nat) : Nat := getBits w f.lo (f.hi + 1 - f.lo)

/-- R3, R5, R6: the word a field leaves after a write of `v` over `w`. -/
def Fld.write (f : Fld) (w v : Nat) : Nat :=
  let n := f.hi + 1 - f.lo
  match f.acc with
  | .rw | .rws => if f.bars (f.of v) then w else setBits w f.lo n (f.of v)
  | .w1c => setBits w f.lo n (f.of w - (f.of w &&& f.of v))
  | .w1s => setBits w f.lo n (f.of w ||| f.of v)
  | .ro | .rc | .wo => w

/-- R3: the word a field leaves after a read of `w`: a read-clear field returns to its reset value. -/
def Fld.clear (f : Fld) (w : Nat) : Nat := match f.acc with | .rc => setBits w f.lo (f.hi + 1 - f.lo) f.rst | _ => w

/-- The word of a register after a write. -/
def RegRow.write (r : RegRow) (w v : Nat) : Nat := r.flds.foldl (fun w f => f.write w v) w

/-- The word of a register after a read. -/
def RegRow.clear (r : RegRow) (w : Nat) : Nat := r.flds.foldl (fun w f => f.clear w) w

/-- The bits of a register that a write of 1 clears. -/
def RegRow.w1cMask (r : RegRow) : Nat := r.flds.foldl (fun m f => if f.acc == .w1c then setBits m f.lo (f.hi + 1 - f.lo) (2 ^ 32 - 1) else m) 0

/-- A register that a read clears. -/
def RegRow.hasRc (r : RegRow) : Bool := r.flds.any (fun f => f.acc == .rc)

namespace State

/-- R3, R381: a plain write of the word at tree address `a`; an address without a register ignores it. -/
def plainWrite (s : State) (a v : Nat) : State :=
  match regRow a with
  | none => s
  | some r => let w := s.regN a; let w' := r.write w v; if w' = w then s else s.setRegN a w'

/-- R4, R381: a plain read of the word at tree address `a`. -/
def plainRead (s : State) (a : Nat) : Nat × State :=
  match regRow a with
  | none => (0, s)
  | some r => let w := s.regN a; (w, if r.hasRc then s.setRegN a (r.clear w) else s)

end State

end Sys2Proof.Machine
end

