-- ==== Sys2Proof/Machine/Epoch.lean ====
section
/-! DEFINITION. The tree epoch with its capture, and the epochs of canvases, outputs and raster generators (R9, R22, R23, R45 to
R50, R126 to R130, R198, R331 to R337). -/

namespace Sys2Proof.Machine

/-- R127: the largest multiple of `k` in `k` to `n`, of those at most, for which a shutter spans whole periods. -/
def wholePeriods (shutter k : Nat) : Nat → Option Nat
  | 0 => none
  | m + 1 => if shutter * ((m + 1) * k) % 36000 = 0 then some ((m + 1) * k) else wholePeriods shutter k m

/-- R127: the PWM periods of a camera frame, and `partial`. -/
def choosePeriods (shutter k nmax : Nat) : Nat × Bool :=
  let nmax := max nmax k
  match wholePeriods shutter k (nmax / k) with
  | some n => (n, false)
  | none => (nmax / k * k, true)

/-- The nominal PWM period of an output in µs; none where its protocol has none. -/
def pwmNom (r : List Byte) : Option Nat :=
  match portKind r with
  | 1 => some (orDefault (u16 (ipParams r) 4) 0 250)
  | 2 => some (orDefault (u16 (ipParams r) 4) 0 250)
  | 5 => some (sapPwmNom r)
  | _ => none

namespace State

/-! ### Cadence points (R45, R46) -/

/-- R46: a follower passes the points up to `k`; those beyond one are skipped, and counted once for a cadence. -/
def passPoint (s : State) (key c k : Nat) : State :=
  let p := match s.cadence.find? key with | some l => k - l | none => 1
  let n := s.frameCnt.get 0 key
  let s := { s with cadence := s.cadence.set key k, frameCnt := s.frameCnt.set key (n + 1), epochLate := s.epochLate.set key (decide (1 < p)) }
  if 1 < p ∧ (s.skipSeen.find? c).all (fun l => decide (l < k)) then
    ({ s with skipSeen := s.skipSeen.set c k }).bumpBy (Reg.axisSkipCnt (s.sd.cadAxis c)) (p - 1)
  else s

/-! ### Relations and the capture (R49, R50) -/

/-- R50: a TRACKED relation is fitted: how the ratio is corrected is open (a positive ratio), the offset follows from the latest snap. -/
def fitOne (s : State) (n : Nat) : State :=
  if s.sd.relKind n ≠ 2 ∨ !s.hasPos n ∨ !s.hasPos (s.sd.relSource n) then s
  else
    let a := s.draw (2 ^ 64 - 1)
    let d := a.2.draw (2 ^ 64 - 1)
    let num : Int := a.1 + 1
    let den : Int := d.1 + 1
    let b : Int := s.axisPos n - (s.axisPos (s.sd.relSource n) : Int) * num / den
    { d.2 with rels := s.rels.set n (num, den, b) }

/-- R245: what the DMX512 inputs give the capture; a packet since the last one is an edge in both trunks. -/
def dmxCapture (s : State) : State :=
  (List.range 16).foldl (fun s n =>
    let d := s.dmxSt n
    if d.rxAt = 0 then s
    else
      let s := { s.putDmx n { d with rxAt := 0 } with capDmx := s.capDmx.set n d.rx }
      (s.pendSource .a (864 + n)).pendSource .b (864 + n)) s

/-- R49: every bound axis and every relation in one cycle, under one arrival tag. -/
def takeCapture (s : State) : State :=
  let s := (List.range 18).foldl fitOne s.nextTag
  let s := s.e131Capture.dmxCapture
  { s with capture := { tag := s.tag, epoch := s.regN Reg.axisEpochCntLo + 2 ^ 32 * s.regN Reg.axisEpochCntHi,
                        pos := (List.range 18).map s.axisPos, adv := (List.range 18).map (fun n => if s.hasPos n then (s.axis n).adv else 0),
                        rate := (List.range 18).map (fun n => signed 32 (s.regN (Reg.axisRate n))),
                        rel := (List.range 18).map (fun n => s.relOf n), state := (List.range 18).map s.axisState } }

/-! ### What follows the tree epoch -/

/-- R9: the spare role moves at every 4,096th tree epoch, or at the first after an arbitration in progress. -/
def moveSpare (s : State) : State :=
  if s.capture.epoch % 4096 ≠ 0 ∧ !s.twin.sparePend then s
  else if s.fbit Reg.CmpStatus.arbBusy then { s with twin.sparePend := true }
  else
    let next (f : Field) (s : State) : State := s.fset f (s.fget f + 1)
    { next Reg.TreeMode.spareBoughA (next Reg.TreeMode.spareBoughB s) with twin.sparePend := false }

/-- R22, R23, R25: the shed set, the adopted leaves and the thinning factors of this epoch. R23 leaves open whether *m* is one for the
tree: each trunk has the *m* of its own canvas load (DESIGN CHOICE). -/
def shedDecision (s : State) : State :=
  let cs (t : Trunk) : List Nat := (List.range s.canvasCount).filter (fun c => s.canvasIn t c)
  let shed := s.shedSet
  { s with shedLeaves := shed, twin.adoptedLeaves := s.adoptSet shed, thin := [s.thinFactor (cs .a), s.thinFactor (cs .b)] }

/-- R127: the smallest nominal PWM period of a group's outputs, in µs. -/
def groupPwm (s : State) (g : Nat) : Nat :=
  let l := ((List.range s.leafCount).filter (fun i => leafCamera (s.leafRec i) == g)).map (fun i => leafPort (s.leafRec i))
  (l.eraseDups.filterMap (fun p => pwmNom (s.portRec p))).min?.getD 250

/-- R126, R127, R130: a trunk's choice for one camera group. *T*c is `num` / `den`: the lines per frame over the nominal line rate as the
captured `AXIS_n_RATE` corrects it. -/
def chooseCamera (s : State) (t : Trunk) (g : Nat) : State :=
  match s.camRec g with
  | none => s
  | some cam =>
    let l := camAxis cam
    let k := camViews cam
    let n := (s.axis l).nLines
    let num := n * s.sd.rateDen l * second * 2 ^ 32
    let den := s.sd.rateNum l * (2 ^ 32 + s.capture.rate.getD l 0).toNat
    let s := ((s.fset (Reg.TrkCamStatus.viewsM1 t g) (k - 1)).fsetB (Reg.TrkCamStatus.viewOverlap t g) (decide (36000 < camShutter cam * k)))
    if !s.fbit Reg.TreeMode.cameraLock || !s.hasPos l || n == 0 || den == 0 then
      (((s.fset (Reg.TrkCamStatus.valid t g) 0).fset (Reg.TrkCamStatus.partial t g) 0).fset (Reg.TrkCamStatus.periods t g) 0).setReg64
        (Reg.trkCamPeriodLo t g) (Reg.trkCamPeriodHi t g) 0
    else
      let c := choosePeriods (camShutter cam) k (num / (den * s.groupPwm g * 65536000))
      let s := ((s.fset (Reg.TrkCamStatus.valid t g) 1).fsetB (Reg.TrkCamStatus.partial t g) c.2).fset (Reg.TrkCamStatus.periods t g) c.1
      s.setReg64 (Reg.trkCamPeriodLo t g) (Reg.trkCamPeriodHi t g) (num / (den * c.1) % 2 ^ 48)

/-- R198: the raster event set of a trunk. -/
def rasterSet (s : State) (t : Trunk) : State :=
  let n := ((List.range 8).filter (fun g => s.rastActive t g)).length
  let counter := s.sd.rasterEvents == 1 || decide (4 < n)
  let s := s.fsetB (match t with | .a => Reg.TreeMode.rastCounterA | .b => Reg.TreeMode.rastCounterB) counter
  (List.range 8).foldl (fun s g => if (s.rastRec? t g).isSome then s.fsetB (Reg.RastStatus.counterMode t g) counter else s) s

/-! ### Guest cores at the capture (R331 to R337, R345) -/

/-- A register of layer `n` in trunk `t` at offset `o` of its block takes no write (R150, R153, R167). -/
def layerShut (s : State) (t : Trunk) (n o : Nat) : Bool :=
  decide (n < s.layerCount) &&
    (s.redundancy == 2 && !s.canvasIn t (s.ownCanvas (layerCanvas (s.layerRec n))) || s.layerInput n && decide (0x0C ≤ o) && decide (o ≤ 0x24))

/-- R151, R155, R167: a write to a `CROWN_` register. A graphic layer's tap counts read 0. -/
def crownWrite (s : State) (t : Trunk) (off v : Nat) : State :=
  let a := trunkBase t + off
  let n := (off - 0x51000) / 0x40
  let o := off % 0x40
  if off = 0x50000 then s.commitWrite t (v % 256)
  else if 0x51000 ≤ off ∧ off < 0x51800 then
    if s.layerShut t n o then s
    else if o = 0x28 then (if v % 2 = 1 then s.layerReadyOp t n else s)
    else
      let s := s.plainWrite a v
      if o = 0 ∧ n < s.layerCount ∧ layerGraphic (s.layerRec n) then (s.fset (Reg.CrownLayerCtrl.vTaps t n) 0).fset (Reg.CrownLayerCtrl.hTaps t n) 0 else s
  else s.plainWrite a v

/-- R194, R203: a write to a `RAST_` register. Under SPLIT a generator's block exists in its trunk only. -/
def rastWrite (s : State) (t : Trunk) (off v : Nat) : State :=
  let g := (off - 0x60000) / 0x100
  if s.redundancy = 2 ∧ s.rastRec? t g = none then s
  else if off < 0x60800 ∧ off % 0x100 = 0 then (if v % 2 = 1 then s.rastCommitWrite t g else s)
  else s.plainWrite (trunkBase t + off) v

/-- R337, R345: a write to a register of guest core `c` other than its control register. -/
def sendWrite (s : State) (t : Trunk) (c off v : Nat) : State :=
  let s := s.plainWrite (trunkBase t + off) v
  if off = 0x90010 + c * 0x40 ∧ v / 2 ^ 31 % 2 = 1 then
    let g := s.guest t c
    let s := if g.send then s.fset (Reg.TrkGuestStatus.sendLost t c) 1 else s
    s.putGuest t c { g with send := true }
  else s

/-- R123: the masters and patch intensities of a trunk, whose new value acts at the next epoch; the value that the cycle began with
is kept. -/
def keepOld (s : State) (t : Trunk) (off : Nat) : State :=
  let a := trunkBase t + off
  if (a = Reg.trkMasterInt t ∨ 0x100000 ≤ off ∧ off < 0x300000) ∧ (s.cyc.old.find? a).isNone then { s with cyc.old := s.cyc.old.set a (s.reg a) } else s

/-- R331: one posted write takes effect. -/
def applyPosted (s : State) (t : Trunk) (c off v : Nat) : State :=
  let s := s.keepOld t off
  if off / 0x10000 = 5 then s.crownWrite t off v
  else if off / 0x10000 = 6 then s.rastWrite t off v
  else s.sendWrite t c off v

/-- R331: the posted writes of a core, in issue order. -/
def applyAll (s : State) (t : Trunk) (c : Nat) : State :=
  let g := s.guest t c
  g.posted.foldl (fun s p => s.applyPosted t c p.1 p.2.toNat) (s.putGuest t c { g with posted := [] })

/-- R334: a core that has not re-entered WFI overruns. -/
def overrun (s : State) (t : Trunk) (c : Nat) : State :=
  let g := s.guest t c
  let p := guestPart s c
  let s := (s.putGuest t c { g with posted := [], send := false, tcm := [] }).memClear (dramBase t + p.1) p.2
  { ((s.setGuestState t c 4).flag (Reg.TrkGuestStatus.overrunSeen t c) 0).attnFault with upd := { s.upd with lastIll := s.free } }

/-- R331: the registers of a trunk that differ from their reset word, by offset. -/
def trunkRegs (s : State) (t : Trunk) : Tab Word :=
  (s.regs.filter fun p => p.1 / 0x1000000 * 0x1000000 == trunkBase t).map fun p => (p.1 - trunkBase t, p.2)

/-- R331, R332, R334: a batch reaches a core. -/
def deliver (s : State) (t : Trunk) (c : Nat) : State :=
  let s := s.putGuest t c { s.guest t c with epoch := s.capture.epoch, inBatch := 0, seen := s.trunkRegs t }
  (s.setRegN (Reg.trkGuestEpoch t c) (s.capture.epoch % 2 ^ 32)).setGuestState t c 1

/-- R334, R345: the actions asked for, then the batch. `restart` comes before `halt`, and `halt` before `resume` (DESIGN
CHOICE). -/
def guestTurn (s : State) (t : Trunk) (c : Nat) : State :=
  let g := s.guest t c
  let s := s.putGuest t c { g with restartReq := false, haltReq := false, resumeReq := false }
  let st := s.guestState t c
  if g.restartReq then (s.guestLoad t c).deliver t c
  else if g.haltReq ∧ (st = 1 ∨ st = 2) then s.setGuestState t c 3
  else if g.resumeReq ∧ st = 3 then s.deliver t c
  else if st = 2 then s.deliver t c
  else s

/-- The guest cores of the trunks that compute at a capture: overruns in either, posted writes and frames, the batch of the controller,
and its delivery. -/
def guestEpoch (s : State) : State :=
  let busy := [0, 1].filter fun c => [Trunk.a, Trunk.b].any fun t => s.computes t && s.guestState t c == 1
  [Trunk.a, Trunk.b].foldl (fun s t =>
    if !s.computes t then s
    else
      let s := busy.foldl (fun s c => if s.guestState t c = 0 then s else s.overrun t c) s
      let s := [0, 1].foldl (fun s c => s.applyAll t c) s
      let s := [0, 1].foldl (fun s c => s.guestFrame t c) s
      let s := s.icuCapture t
      [0, 1].foldl (fun s c => if (guestRec? s c).isSome then s.guestTurn t c else s) s) s

/-- R298, R312: a trunk that is IDLE, or holds off in SPLIT, holds the mirrored state of the one that computes. -/
def mirrorIdle (s : State) : State :=
  s.onTrunks (fun s t => s.mirrored t && !s.computes t && s.computes t.other) fun t s => (s.mirrorInto t).noWork t

/-! ### The tree epoch (R48) -/

/-- R48, R49: the epoch axis passes a PROFILE cadence point. -/
def treeEpoch (s : State) : State :=
  if s.seed.isNone || s.twin.loaded.isEmpty then s
  else
    match s.pointDue 99 s.sd.epochCadence with
    | none => s
    | some k =>
      let s := s.passPoint 99 s.sd.epochCadence k
      let s := s.setReg64 Reg.axisEpochCntLo Reg.axisEpochCntHi ((s.regN Reg.axisEpochCntLo + 2 ^ 32 * s.regN Reg.axisEpochCntHi + 1) % 2 ^ 64)
      let s := s.takeCapture.twinEpoch.moveSpare.shedDecision
      let s := s.onTrunks mirrored fun t s => (List.range 8).foldl (fun s g => s.chooseCamera t g) s
      let s := s.onTrunks mirrored fun t s => s.rasterSet t
      let s := s.guestEpoch
      let s := s.onTrunks mirrored fun t s => s.schedEpoch t
      s.mirrorIdle.groveEpoch

/-! ### Epochs of canvases, outputs and generators (R46) -/

/-- R23: the epoch is one that the trunk's canvas is not composed at. -/
def thinned (s : State) (t : Trunk) (k : Nat) : Bool := !s.alarmOn && k % max 1 (s.thin.getD t.idx 1) != 0

/-- R46: an epoch of a canvas, an output record or a raster generator. -/
def epochOf (s : State) (e : EpochOf) : State :=
  let key := epochKey e
  let c := s.cadenceOf key
  let there := match e with
    | .canvas c => decide (c.val < s.canvasCount)
    | .port r => (s.portIdxs.contains r || s.grove.takenLeaves.any (fun i => leafPort (s.leafAt (i + foreignLeaf)) == r)) && portCadence (s.portRec r) != 0xFF
    | .raster t g => s.rastActive t g
  if s.seed.isNone || s.twin.loaded.isEmpty || !there then s
  else
    match s.pointDue key c with
    | none => s
    | some k =>
      let s := s.passPoint key c k
      let pos := s.sd.cadPos c k
      match e with
      | .canvas c => s.onTrunks (fun s t => s.computes t && s.canvasIn t c) fun t s => s.canvasEpoch t c k pos (s.thinned t k)
      | .port r => s.onTrunks (fun s t => s.computes t) fun t s => s.portEpoch t r k pos
      | .raster t g => if s.computes t then s.rastEpoch t g k else s

end State

/-! ### Meanings -/

/-- TREE_EPOCH (R9, R22, R23, R48 to R50, R127, R198, R297, R312 to R314, R322, R331 to R337, R447). -/
def execTreeEpoch (s : State) : Host.Outcome State Fault Refusal := act s fun s => s.treeEpoch

/-- EPOCH (R46, R51, R143, R152, R154, R165). -/
def execEpoch (of : EpochOf) (s : State) : Host.Outcome State Fault Refusal := act s fun s => s.epochOf of

end Sys2Proof.Machine
end

