-- ==== Sys2Proof/Machine/Activate.lean ====
section
/-! DEFINITION. Seed activation: what a seed sets at each level, and what starts again with it (R48, R89, R123, R132, R167, R203,
R336, R346, R360, R362). -/

namespace Sys2Proof.Machine

/-- R360: blocks of a bough, by identifier less 1: entry bytes and default units. -/
def boughBlock (k : Nat) : Nat × Nat := ([(8, 1), (64, 2), (8, 1), (64, 0), (64, 0)] : List (Nat × Nat)).getD k (8, 0)

/-- R67, R360: units of a bough's block: allotted, or the default. -/
def Seed.blockUnits (d : Seed) (b k : Nat) : Nat :=
  match d.allot.find? (fun a => u16 a 0 == k + 1 && u8 a 2 == b) with
  | some a => u8 a 3
  | none => (boughBlock k).2

/-- R89: the registers of a trunk that a seed sets or that count from its activation, by offset in the trunk's range. Registers
that a write of 1 or a read clears stand. -/
def seedOffset (o : Nat) : Bool :=
  decide (0x100000 ≤ o) || decide (0x40100 ≤ o ∧ o < 0x40200) || o == 0x50008 ||
    decide (0x50800 ≤ o ∧ o < 0x51000 ∧ o % 0x20 ≠ 8) || decide (0x51000 ≤ o ∧ o < 0x52000 ∧ o % 0x40 < 0x30) ||
    decide (0x60000 ≤ o ∧ o < 0x61000 ∧ (8 ≤ o % 0x100 ∧ o % 0x100 < 0x30 ∨ 0x34 ≤ o % 0x100 ∧ o % 0x100 < 0x48 ∨ 0x50 ≤ o % 0x100)) ||
    decide (0xA0200 ≤ o ∧ o < 0xB0000)

namespace State

/-- Registers return to their reset words, in every copy. -/
def dropRegs (s : State) (p : Nat → Bool) : State :=
  { s with regs := s.regs.filter (fun k => !p k.1), pend := s.pend.filter (fun k => !p k.1), act := s.act.filter (fun k => !p k.1) }

/-! ### What the old seed leaves -/

/-- The record of the new seed for a port of the old one. -/
def newRec (s old : State) (rec : Nat) : Option Nat := s.portOf? (portKind (old.portRec rec)) (portNumber (old.portRec rec))

/-- A frame in hand belongs to the port it was packed for, if the new seed uses that port. -/
def newFrame (s old : State) (f : OutFrame) : Option OutFrame := (s.newRec old f.portRec).map fun r => { f with portRec := r }

/-- Units that the trunks have handed over leave as the old seed's: the standby's copies no longer count (DESIGN CHOICE). -/
def settleUnits (s : State) : State :=
  let s := if s.compareActive then s.compareAbandon s.activeTrunk.other else s
  let keep (k : Nat) (u : CUnit) : Bool := !s.twin.dropCopies.contains (k, u.code, u.seq)
  { s with twin.outbox := s.twin.outbox.map (fun (k : Nat × List CUnit) => (k.1, (k.2.filter (keep k.1)).map fun u => { u with solo := true })),
           twin.dropCopies := [], twin.handed := s.twin.handed.filter (fun k => decide (k.1 < 0x1000000)) }

/-- R89: frames queued and on the line keep their port; ports that the new seed lacks lose all they hold. -/
def keepFrames (s old : State) : State :=
  let fs (l : List OutFrame) : List OutFrame := l.filterMap (s.newFrame old)
  let s := { s with
    twin.outbox := s.twin.outbox.map (fun (k : Nat × List CUnit) => (k.1, k.2.filterMap fun u => (s.newFrame old u.out).map fun f => { u with out := f })),
    safe.ackWait := s.safe.ackWait.map (fun l => l.filterMap (s.newRec old)),
    inputs := s.inputs.foldl (fun m k => match s.newRec old k.1 with | some r => m.set r k.2 | none => m) [],
    dmx := s.dmx.filterMap (fun (k : Nat × DmxSt) => if (s.dmxRec? k.1).isSome then some (k.1, { k.2 with queue := fs k.2.queue, cur := k.2.cur.bind (s.newFrame old) }) else none),
    saps := (List.range 64).filterMap fun n => if (s.sapRec? n).isSome then
      let d := s.sapSt n
      some (n, { d with queue := fs d.queue, cur := d.cur.bind (fun b => (s.newFrame old b.head).map fun f => { b with head := f }), dropped := none,
                        identQ := List.range (sapNodes (s.sapRec n)), polledAt := [], misses := [] }) else none }
  (List.range 58).foldl (fun s n =>
    let p := s.port n
    (s.putPort n (if (s.ethRec? n).isSome then { p with timed := fs p.timed } else { phys := p.phys })).congestion n) s

/-! ### Levels -/

/-- R24, R26, R88: the modes and the identity of the running seed. -/
def seedModes (s : State) (d : Seed) : State :=
  let s := (List.range 4).foldl (fun s k => s.setRegN (Reg.treeSeedId k) (u32 d.seedId (4 * k))) s
  let s := s.fsetB Reg.TreeSeedResult.safetyRunning d.isSafety
  let s := ((s.fset Reg.TreeMode.scalerFit d.scalerShort).fset Reg.TreeMode.probe d.probe).fset Reg.TreeMode.cameraLock d.cameraPhase
  let s := ((s.fset Reg.TreeMode.dither d.dither).fset Reg.TreeMode.solver d.solver).fset Reg.TreeMode.emit d.emit
  let s := (s.fset Reg.TreeMode.redundancy d.redundancy).setReg64 Reg.axisEpochCntLo Reg.axisEpochCntHi 0
  { (s.fset Reg.TreeMode.spareBoughA 0).fset Reg.TreeMode.spareBoughB 0 with twin.sparePend := false }

/-- R35, R36, R55: an axis takes its source and hold mode from the seed; one whose source changes seeks anew. -/
def bindAxis (s : State) (n : Nat) : State :=
  let src := if n = 17 then 0x70 else s.sd.axisSource n
  let old := s.fget (Reg.AxisCtrl.source n)
  let s := (s.fset (Reg.AxisCtrl.source n) src).fset (Reg.AxisCtrl.holdMode n) (s.sd.axisHold n)
  if n = 17 ∨ src = old then s else (s.setAxis n {}).setAxisState n (if src = 0 then 0 else 1)

/-- R46, R48: followers count from where their axes stand; on the axis of the tree epoch at which the seed comes in, from the
position before it. -/
def startCadences (s : State) (at_ : Option (Nat × Nat)) : State :=
  let s := { s with cadence := [], skipSeen := [], epochLate := [], frameCnt := [], rels := [] }
  s.followers.foldl (fun s key =>
    let n := s.sd.cadAxis (s.cadenceOf key)
    match at_ with
    | some (a, p) => if n = a then (if p = 0 then s else s.countFrom key (p - 1)) else if s.hasPos n then s.countFrom key (s.axisPos n) else s
    | none => if s.hasPos n then s.countFrom key (s.axisPos n) else s) s

/-- R360, R362: a queue block gets its size, limits and emptiness; depth 0 is an absent block. -/
def setQb (s : State) (k depth : Nat) (wide : Bool) (thr stale : Nat) : State :=
  let b := qbBase k
  let s := { s with qbs := s.qbs.erase k, regs := s.regs.filter (fun r => !(decide (b ≤ r.1) && decide (r.1 < b + 0x40))) }
  if depth = 0 then s
  else
    let s := ((s.fset (qbThreshold k) thr).fset (qbStaleUs k) stale).fset (qbGeomDepth k) depth
    (((s.fsetB (qbGeomWide k) wide).fset (qbGeomBits k) (indexBits depth)).fset (qbStatusBit k 30) 1)

/-- R360: the blocks of an Ethernet port, and the frames they hold. -/
def portBlocks (s : State) (n : Nat) : State :=
  let r := s.ethRec n
  let u := portQueueSize r - portMaxFrame r
  let there := (s.ethRec? n).isSome
  let s := s.setQb n (if there then (u + 7) / 8 + (u + 63) / 64 else 0) false 0 65535
  let s := s.setQb (64 + n) (if there then (portRingSize r + 255) / 256 else 0) false 0 10000
  let p := s.port n
  (s.qbFollow n [] (p.untimed.map fun u => egressEntries u.frame)).qbFollow (64 + n) [] (p.ring.map ringEntries)

/-- R70 to R73, R205, R210, R220: ports. -/
def seedPorts (s : State) : State :=
  let s := { s with swTable := [], diag := [] }.fset Reg.SwStatus.entries 0
  let s := (List.range 58).foldl (fun s n =>
    let s := s.portBlocks n
    if (s.ethRec? n).isSome then ((s.fset (Reg.PortStatus.phyMode n) (ethPhy (s.ethRec n))).fset (Reg.PortCtrl.disable n) 0).linkApply n
    else s.dropRegs (fun a => decide (Reg.portCtrl n ≤ a) && decide (a < Reg.portCtrl n + 0x100))) s
  let s := (List.range 16).foldl (fun s n =>
    if (s.dmxRec? n).isSome then s.fset (Reg.DmxCtrl.holdOff n) 0
    else s.dropRegs (fun a => decide (Reg.dmxCtrl n ≤ a) && decide (a < Reg.dmxCtrl n + 0x40))) s
  let s := (List.range 64).foldl (fun s n =>
    if (s.sapRec? n).isSome then (s.fset (Reg.SapCtrl.holdOff n) 0).fset (Reg.SapStatus.missing n) 0
    else s.dropRegs (fun a => decide (Reg.sapCtrl n ≤ a) && decide (a < Reg.sapCtrl n + 0x100))) s
  let s := { s with e131rx := s.e131rx.filter (fun u => s.e131Joined u.1), capE131 := s.capE131.filter (fun u => s.e131Joined u.1) }
  let s := (List.range 16).foldl tunnelCheck s
  s.setReady Reg.TreeReady.portsAll s.portsAll

/-- R185, R203: a generator's three copies from its record. Which sample of the record `enable` comes from is stated nowhere:
it starts at its reset value (DESIGN CHOICE). -/
def seedRaster (s : State) (t : Trunk) (g : Nat) (r : List Byte) : State :=
  let m := rasterTiming r
  let buf := (rasterCanvas r == 0xFF).toNat
  let s := s.setShadow (Reg.rastCtrl t g) (buf * 2 ^ 30 + u8 m 0x0A * 2 ^ 24 + rasterCadence r * 2 ^ 16 + u8 m 0x0B * 2 ^ 8 + u8 m 0x0C)
  let s := s.setShadow (Reg.rastTimingH t g) (u16 m 2 + u16 m 0 * 65536)
  let s := s.setShadow (Reg.rastTimingV t g) (u16 m 6 + u16 m 4 * 65536)
  let s := s.setShadow (Reg.rastTimingVs t g) (u16 m 8)
  let s := s.setShadow (Reg.rastRegion t g) (u16 r 8 + u16 r 0x0A * 65536)
  s.setRegN (Reg.rastLineMatch t g) (u16 m 0x12)

/-- R89, R336: a guest core is loaded and waits for its first batch. -/
def seedGuest (s : State) (t : Trunk) (c : Nat) : State :=
  if (guestRec? s c).isSome then ((s.putGuest t c {}).guestLoad t c).setGuestState t c 2 else (s.putGuest t c {}).setGuestState t c 0

/-- R71, R89: the leaf records, calibration blocks and models in the trunk's DRAM, and the patches of the seven working boughs: how they are
spread is open. -/
def placeRecords (s : State) (x : TrunkSt) : TrunkSt :=
  let l := (List.range s.leafCount).map s.leafRec
  let r := s.sd.patchRange s.grovePos
  { x with leafRecs := l, models := s.sd.models.map (fun m => (m, dataRef s.sd.modelData m 0x0C)),
           cals := l.map (fun r => if leafCal r = 0xFFFFFFFF then [] else slice s.sd.leafData (leafCal r) 32),
           workLists := (List.range 7).map fun b => ((List.range r.2).map (· + r.1)).filter fun p => Config.unstated 89 p % 7 == b }

/-- R89: the trunk level: registers that a seed sets or that count from its activation, and the work in hand. -/
def seedTrunkRegs (s : State) (t : Trunk) : State :=
  let s := s.dropRegs (fun a => decide (trunkBase t ≤ a) && decide (a < trunkBase t + 0x1000000) && seedOffset (a - trunkBase t))
  let s := s.fset (Reg.CrownCommitStatus.code t) 0
  let s := ((s.fset (Reg.CrownCommitStatus.pendingMask t) 0).fset (Reg.CrownCommitStatus.fitActive t) 0).fset (Reg.CrownCommitStatus.busy t) 0
  let s := (List.range 8).foldl (fun s g => s.setReg (Reg.rastStatus t g) (s.reg (Reg.rastStatus t g) &&& 0xBC0)) s
  s.putTrunk t (s.placeRecords { nextId := (s.trunk t).nextId })

/-- R89: the raster generators of a trunk that RASTERS names. -/
def seedRasters (s : State) (t : Trunk) : State :=
  (List.range 8).foldl (fun s g => match s.rastRec? t g with | some r => s.seedRaster t g r | none => s) s

/-- R89: the canvases, layers and raster generators of a trunk. -/
def seedPictures (s : State) (t : Trunk) : State := ((s.seedCanvases t (s.canvasIn t)).seedPool t).seedRasters t

/-- R67, R360: the queue blocks of a trunk's boughs. -/
def seedBlocks (s : State) (t : Trunk) : State :=
  (List.range 64).foldl (fun s q =>
    let k := q % 8
    if 5 ≤ k then s
    else s.setQb (1000 * (t.idx + 1) + q) (s.sd.blockUnits (q / 8) k * 65536 / (boughBlock k).1) ((boughBlock k).1 == 64) 0 50000) s

/-- R89: the trunk level. -/
def seedTrunk (s : State) (t : Trunk) : State :=
  let s := (s.seedTrunkRegs t).seedPictures t
  let s := s.putSched t { tasks := firmwareTasks, epochAt := s.free }
  let s := [0, 1].foldl (fun s c => s.seedGuest t c) s
  s.seedBlocks t

/-- R26, R296: the trunks' states under the seed's redundancy. -/
def seedTwin (s : State) : State :=
  let o := s.activeTrunk.other
  let st := if s.redundancy = 0 then 3 else if s.redundancy = 1 then 5 else 4
  let s := if s.noTrunk || s.trunkState o < 3 then s else s.setTrunkState o st
  { s with cyc.old := s.cyc.old.filter (fun k => k.1 % 0x1000000 == 0x40000), twin.adopted := [], twin.adoptedLeaves := [], twin.startNext := [], thin := [1, 1], shedLeaves := [], leafTemp := [], nodeTemp := [], leafStatus := [],
           hwCopy := [], rasters := [], rasterOut := [], bridge.prefetch := [], bridge.attrWrong := [],
           bridge.graftCnt := [], bridge.graftCopies := [], bridge.graftSolo := [] }

/-- R83, R320: the grove level. -/
def seedGrove (s : State) : State :=
  let p := s.partnerPos
  let paired := s.sd.isGrove && p != 0xFF
  let s := (s.fsetB Reg.CmpGroveStatus.paired paired).fset Reg.CmpGroveStatus.partner (if paired then p else 0)
  let s := ((s.fset Reg.CmpGroveStatus.partnerServing 0).fset Reg.CmpGroveStatus.takeover 0).fset Reg.CmpGroveStatus.handbackPending 0
  { s with grove := { hbLast := s.free, hbNext := s.free } }

/-- R89: the seed becomes the running seed; `at_` is the axis and the position of the tree epoch at which it comes in. -/
def activateSeed (s : State) (d : Seed) (at_ : Option (Nat × Nat)) : State :=
  let old := s.e131Terminate.settleUnits
  let s := ({ old with seed := some d }).keepFrames old
  let s := (s.seedModes d).seedTwin
  let s := (List.range 18).foldl bindAxis s
  let s := s.seedPorts
  let s := (s.seedTrunk .a).seedTrunk .b
  let s := s.seedGrove
  (s.startCadences at_).refresh

end State

end Sys2Proof.Machine
end

