-- ==== Sys2Proof/Machine/SeedCheck.lean ====
section
/-! DEFINITION. Validation of a seed image: every check of R87 in code order, with the section type and record index it names
(R58 to R88, and the checks that other rules name). -/

namespace Sys2Proof.Machine

/-- What validation reads beside the image: the running firmware, the owner key, whether the life-cycle state admits a
seed, and the tree's grove position. -/
structure SeedEnv where
  firmware : Nat := 0
  key : Option (List Byte) := none
  lifeOk : Bool := true
  pos : Nat := 0

/-- Where a check fails: section type and record index. -/
abbrev Place := Option (Nat × Nat)

/-- No record (R88). -/
def noRec : Nat := 0xFFFFFFFF

/-- A check that concerns section `t` as a whole. -/
def whole (t : Nat) (bad : Bool) : Place := if bad then some (t, noRec) else none

/-- A check that concerns the one record of PROFILE, its allotments included. -/
def inProfile (bad : Bool) : Place := if bad then some (1, 0) else none

/-- The first record of `l` that is bad. -/
def firstRec (t : Nat) (l : List (List Byte)) (bad : Nat → List Byte → Bool) : Place :=
  (((List.range l.length).zip l).find? (fun x => bad x.1 x.2)).map (fun x => (t, x.1))

/-- The first of the checks, in order, that fails. -/
def orElse (l : List Place) : Place := (l.find? (·.isSome)).join

/-- Bytes of `r` that must be 0. -/
def zeros (r : List Byte) (l : List (Nat × Nat)) : Bool := l.all fun p => (slice r p.1 p.2).all (· == 0)

/-- A one-byte field holds one of the listed codes. -/
def among (r : List Byte) (o : Nat) (l : List Nat) : Bool := l.contains (u8 r o)

/-- A number lies in a range. -/
def within (lo hi v : Nat) : Bool := decide (lo ≤ v) && decide (v ≤ hi)

/-! ### Image, header and table (R58 to R63) -/

def hdrCount (img : List Byte) : Nat := u32 img 0x1C
def hdrSafety (img : List Byte) : Bool := u32 img 0x0C / 2 % 2 == 1
def hdrGrove (img : List Byte) : Bool := u32 img 0x0C % 2 == 1

def entType (e : List Byte) : Nat := u16 e 0
def entMinor (e : List Byte) : Nat := u8 e 2
def entMajor (e : List Byte) : Nat := u8 e 3
def entOff (e : List Byte) : Nat := u64 e 8
def entLen (e : List Byte) : Nat := u64 e 16

def roundUp (a m : Nat) : Nat := (a + m - 1) / m * m

/-- The section table runs past the image. -/
def tablePast (img : List Byte) : Bool := decide (img.length < 256 + hdrCount img * 32)

/-- R60: a CRC over bytes at offset `off`. -/
def seedCrc (off : Nat) (l : List Byte) : Nat := crc32c (leBytes 8 off ++ l)

/-- R60: a section as its CRC covers it. -/
def crcBody (img e : List Byte) : List Byte :=
  let b := sectionBody img e
  if entType e = 14 then b.take (32 + 40) ++ List.replicate 64 0 ++ b.drop (32 + 104) else b

/-- R63: the layout of the table and the sections. R63 names only the bytes between sections: those between the table and the first
section must be 0 too (DESIGN CHOICE). An absent SIGNATURE is a missing section (R62). -/
def badLayout (img : List Byte) : Place :=
  let n := hdrCount img
  if !within 3 16 n || tablePast img then some (0, noRec)
  else
    let t := sectionTable img
    let step (a : Nat × Nat × Place) (e : List Byte) : Nat × Nat × Place :=
      if a.2.2.isSome then a
      else
        let at_ := a.1
        let bad := decide (entType e < a.2.1) || entOff e % 64 != 0 || decide (entOff e < at_) || decide (at_ + 64 ≤ entOff e) ||
          decide (img.length < entOff e + entLen e) || !(slice img at_ (entOff e - at_)).all (· == 0)
        (entOff e + entLen e, entType e, if bad then some (entType e, noRec) else none)
    let r := t.foldl step (256 + n * 32, 0, none)
    if r.2.2.isSome then r.2.2
    else whole 14 ((t.any fun e => entType e == 14) && (match t.getLast? with
      | some e => entType e != 14 || entOff e + entLen e != img.length
      | none => false))

/-- R62: the sections that must be present. -/
def requiredSections (d : Seed) (img : List Byte) : List Nat :=
  [1, 2, 3, 4] ++ (if hdrSafety img then [] else [5, 6]) ++ (if d.patches.isEmpty then [] else [7]) ++
  (if d.cameraPhase = 1 then [10] else []) ++ [12] ++ (if hdrGrove img then [13] else []) ++ [14]

/-- R62: the record size of a section type. -/
def recordSize (t : Nat) : Nat := if t = 1 ∨ t = 6 ∨ t = 14 then 128 else if t = 10 ∨ t = 12 then 32 else 64

def knownType (t : Nat) : Bool := within 1 14 t

/-- R66: version and record size. -/
def badVersion (img e : List Byte) : Bool :=
  let b := sectionBody img e
  knownType (entType e) && (entMajor e != 1 ||
    (if entMinor e = 0 then u32 b 4 != recordSize (entType e) else decide (u32 b 4 < recordSize (entType e))))

/-- A known section too short for its body header (R64). -/
def shortBody (e : List Byte) : Bool := knownType (entType e) && decide (entLen e < 32)

def firstEntry (img : List Byte) (bad : List Byte → Bool) : Place := ((sectionTable img).find? bad).map fun e => (entType e, noRec)

/-! ### Signature (R81) -/

def sigSection (img : List Byte) : List Byte := (bodyRecords (sectionOf img 14)).headD []
def sigOffset (img : List Byte) : Nat := match (sectionTable img).find? (fun e => entType e == 14) with | some e => entOff e | none => 0
/-- R81: the digest of a seed. -/
def seedDigest (img : List Byte) : List Byte := sha256 (img.take (sigOffset img))

/-! ### Bodies and data references (R64, R118) -/

/-- R64: a body header. -/
def badBody (e b : List Byte) : Bool :=
  knownType (entType e) && (u32 b 8 != roundUp (32 + u32 b 0 * u32 b 4) 64 || entLen e != u32 b 8 + u32 b 12)

/-- R64: a data reference at offset `o` of a record, into a data area of `n` bytes. -/
def refOk (n : Nat) (r : List Byte) (o : Nat) : Bool :=
  let off := u32 r o
  let len := u32 r (o + 4)
  if len = 0 then off == 0 else off % 8 == 0 && decide (off + len ≤ n)

/-- The directories of SAFETY (R79). -/
def safetyDirs (d : Seed) : List (List Byte) := records (if d.isGrove then d.groves.length else 1) 256 d.safetyData

/-- R71, R80: the leaf is no parameter-only leaf and of no safety seed, so its references are references. -/
def refLeaf (d : Seed) (r : List Byte) : Bool := !d.isSafety && leafType r != 5

/-- The data references of a section, and the tables of its data area. -/
def badRefs (d : Seed) (t : Nat) : Place :=
  match t with
  | 1 => whole 1 (d.profile.length != 0 && d.allot.length * 8 != (bodyData (sectionOf d.image 1)).length)
  | 2 => whole 2 (d.cadences.length * 32 != (bodyData (sectionOf d.image 2)).length)
  | 4 => firstRec 4 d.leaves fun _ r => refLeaf d r && leafCal r != 0xFFFFFFFF && !(leafCal r % 8 == 0 && decide (leafCal r + 32 ≤ d.leafData.length))
  | 5 => firstRec 5 d.patches fun _ r => !refOk d.patchData.length r 0x10
  | 6 => firstRec 6 d.models fun _ r => !refOk d.modelData.length r 0x0C
  | 7 => firstRec 7 d.canvases fun _ r => !refOk d.canvasData.length r 0x18
  | 8 => firstRec 8 d.layers fun _ r => !refOk d.layerData.length r 0x14
  | 11 => firstRec 11 d.guests fun _ r => !refOk d.guestData.length r 8 || !refOk d.guestData.length r 0x10
  | 12 => whole 12 ((safetyDirs d).any fun x => (List.range 8).any (fun i => !refOk d.safetyData.length x (i * 24 + 8) || !refOk d.safetyData.length x (i * 24 + 16)) ||
      !refOk d.safetyData.length x 192)
  | _ => none

/-- R64, R86: each section's body header and then its references, in table order. The directories that R79 makes absent stop the references
of SAFETY with its code. -/
def bodyChecks (d : Seed) (img : List Byte) : List (Nat × (Unit → Place)) :=
  (sectionTable img).flatMap fun e =>
    [ (0x0420, fun _ => whole (entType e) (badBody e (sectionBody img e))),
      (0x0460, fun _ => whole 12 (entType e == 12 && decide (d.safetyData.length < 256 * (if d.isGrove then d.groves.length else 1)))),
      (0x0420, fun _ => badRefs d (entType e)) ]

/-! ### Reserved fields and encodings (R65) -/

/-- The reserved bytes and bits of a PORTS record hold 0. -/
def portZeros (r : List Byte) : Bool :=
  let k := portParams r
  zeros r [(0x20, 8)] && decide (u8 r 6 < 4) &&
  match portKind r with
  | 1 => zeros k [(3, 1), (10, 2)]
  | 2 => zeros k [(3, 1), (10, 2)]
  | 3 => zeros k [(3, 1), (10, 2), (0x12, 6)]
  | 4 => zeros k [(3, 1), (10, 2), (0x12, 6)]
  | 5 => zeros r [(0x0C, 20)] && zeros k [(5, 1), (12, 12)]
  | 6 => zeros r [(0x0C, 20)] && zeros k [(10, 14)]
  | 9 => zeros r [(0x0C, 20)] && decide (u8 k 0x11 < 8) && zeros k [(0x16, 2)] && (u8 k 0x11 % 2 == 0 || zeros k [(4, 12), (0x10, 1), (0x14, 2)])
  | _ => zeros r [(0x0C, 20)]

/-- The enumerated fields of a PORTS record hold listed codes. -/
def portCodes (r : List Byte) : Bool :=
  let k := portParams r
  within 1 9 (portKind r) && among r 2 [0, 1, 2] && (u8 r 6 / 2 % 2 == 0 || decide (u8 r 7 < 0x20) || within 0x80 0x9F (u8 r 7)) &&
  (if portKind r ≤ 4 then within 1 7 (u8 r 5) && among k 0 [0, 1, 2] && among k 2 [0, 1] && (2 < portKind r || among k 0x14 [0, 1])
   else if portKind r = 5 then among k 0 [0, 1, 2, 3, 4] && among k 1 [0, 1]
   else if portKind r = 6 then among k 0 [0, 1] && among k 1 [0, 1] && decide (u8 r 5 < 8) else decide (u8 r 5 < 8))

/-- The reserved bytes of a leaf's address and placement hold 0. -/
def leafZeros (d : Seed) (r : List Byte) : Bool :=
  let a := leafAddress r
  let p := patchProjection (recAt d.patches (leafPatch r))
  zeros r [(0x16, 2), (0x24, 4)] && decide (leafFlags r < 4) &&
  (match leafProtocol r with
    | 1 => zeros a [(5, 1)]
    | 2 => zeros a [(3, 5)]
    | 3 => zeros a [(2, 6)]
    | _ => zeros a [(4, 4)]) &&
  (!refLeaf d r || decide (d.patches.length ≤ leafPatch r) || (if p ≤ 1 then zeros (leafPlacement r) [(0x16, 2)] else p == 2 || zeros (leafPlacement r) [(4, 20)]))

def patchZeros (r : List Byte) : Bool :=
  let p := patchParams r
  zeros r [(6, 2), (12, 4)] && zeros p [(0x26, 2)] &&
  match patchProjection r with
  | 0 => true
  | 1 => zeros p [(0x10, 20)]
  | 2 => zeros p [(0x1C, 8)]
  | _ => zeros p [(0, 36)]

/-- R360: the identifiers of queue blocks. -/
def qbIdTrunk (i : Nat) : Bool := within 1 5 i
def qbIdRoot (i : Nat) : Bool := within 0x8000 0x8039 i || within 0x8100 0x8139 i

/-- R68: the source codes of `AXIS_n_CTRL`. -/
def sourceListed (v : Nat) : Bool :=
  within 0 4 v || within 0x10 0x17 v || within 0x20 0x31 v || v == 0x40 || v == 0x50 || v == 0x51 || v == 0x58 || within 0x60 0x68 v || v == 0x70

/-- R65: the reserved bytes and bits of a record of section `t` hold 0; of PROFILE with its allotments, of a leaf with its calibration block. -/
def zerosOk (d : Seed) (t : Nat) (r : List Byte) : Bool :=
  match t with
  | 1 => zeros r [(0x1A, 2), (0x40, 64)] && d.allot.all fun a => zeros a [(4, 4)]
  | 2 => zeros r [(0x34, 12)] && decide (u8 r 3 < 4)
  | 3 => portZeros r
  | 4 => leafZeros d r && !(refLeaf d r && leafCal r != 0xFFFFFFFF && !zeros (slice d.leafData (leafCal r) 32) [(0x12, 14)])
  | 5 => patchZeros r
  | 6 => zeros r [(2, 2), (10, 2), (0x14, 12)] && (List.range 8).all fun e => zeros r [(0x20 + e * 12 + 8, 4)]
  | 7 => zeros r [(7, 1), (0x28, 24)]
  | 8 => zeros r [(0x24, 28)]
  | 9 => zeros r [(0x30, 16), (0x21, 1), (0x2B, 1)] && decide (rasterFlags r < 2)
  | 10 => zeros r [(3, 1), (16, 16)]
  | 11 => zeros r [(1, 3), (0x1C, 36)]
  | 12 => zeros r [(9, 1), (28, 4)]
  | 13 => zeros r [(3, 1), (0x24, 28)] && decide (u8 r 2 < 2)
  | _ => zeros r [(4, 4), (0x68, 24)]

/-- R65: the enumerated fields of a record of section `t` hold listed codes. -/
def codesOk (d : Seed) (t : Nat) (r : List Byte) : Bool :=
  match t with
  | 1 => among r 0 [0, 1, 2, 255] && among r 1 [0, 1, 255] && among r 2 [0, 1, 255] && among r 3 [0, 1, 2, 255] && among r 4 [0, 1, 255] && among r 5 [0, 1, 2, 255] &&
      among r 6 [0, 1, 255] && among r 7 [0, 1, 255] && among r 0x18 [0, 1] && among r 0x19 [0, 1] && d.allot.all fun a => qbIdTrunk (u16 a 0) || qbIdRoot (u16 a 0)
  | 2 => sourceListed (u8 r 1) && among r 2 [0, 1, 255] && among r 0x10 [0, 1, 2]
  | 3 => portCodes r
  | 4 => within 1 5 (leafType r) && among r 1 [0, 1, 2] && among r 3 [0, 1, 2] && within 1 4 (leafProtocol r)
  | 5 => among r 0 [0, 1, 2, 3, 4] && among r 1 [0, 1, 2] && among r 4 [0, 1, 2, 255] && decide (patchEdge r ≤ 2)
  | 6 => among r 1 [0, 1, 255]
  | 7 => among r 4 [0, 1, 2] && among r 6 [0, 1, 2]
  | 8 => among r 1 [0, 1] && fmtDefined (layerFormat r)
  | 9 => let x := rasterTiming r
      among r 1 [0, 1, 2] && among r 2 [0, 1, 2, 3] && among x 0x0A [0, 1, 2, 3, 4] && among x 0x0B [0, 1, 2, 3] && among x 0x0C [0, 1]
  | 11 => among r 0 [6, 7]
  | 12 => among r 8 [0, 1, 2]
  | _ => true

/-- The records of a section, by type. -/
def Seed.recordsOf (d : Seed) (t : Nat) : List (List Byte) :=
  match t with
  | 1 => [d.profile] | 2 => d.axes | 3 => d.ports | 4 => d.leaves | 5 => d.patches | 6 => d.models | 7 => d.canvases | 8 => d.layers | 9 => d.rasters
  | 10 => d.cameras | 11 => d.guests | 12 => d.safety | 13 => d.groves | _ => [sigSection d.image]

/-- R65: reserved bytes of the tables in a section's data area. -/
def tablesOk (d : Seed) (t : Nat) : Bool :=
  match t with
  | 2 => d.cadences.all fun c => zeros c [(1, 3), (12, 4), (28, 4)]
  | 12 => (safetyDirs d).all fun x => zeros x [(200, 56)] && (List.range 8).all fun i => zeros x [(i * 24 + 2, 6)]
  | _ => true

/-- R65, R66: a section's body header, its records in ascending index, and its tables. At a higher minor version reserved fields are ignored. -/
def reservedIn (d : Seed) (e : List Byte) : Place :=
  let t := entType e
  let known := entMinor e == 0
  orElse [whole t (known && !zeros (sectionOf d.image t) [(16, 16)]),
    firstRec t (d.recordsOf t) fun _ r => known && !zerosOk d t r || !codesOk d t r,
    whole t (known && !tablesOk d t)]

/-- R65: the header, then each table entry and its section in table order. -/
def badReserved (d : Seed) (img : List Byte) : Place :=
  orElse (whole 0 (!(decide (u32 img 0x0C < 4) && decide (u32 img 0x3C < 65536) && zeros img [(0x64, 152)])) ::
    (sectionTable img).map fun e => orElse [whole (entType e) (!(decide (u32 e 4 < 2) && zeros e [(0x1C, 4)])),
      if knownType (entType e) then reservedIn d e else none])

/-! ### References (SEED_INDEX) -/

/-- An input port record: SDI, ST 2110-20, a DMX512 input, or an E1.31 receiver group. -/
def portIsInput (r : List Byte) : Bool :=
  portKind r == 7 || portKind r == 8 || portKind r == 6 && u8 (portParams r) 0 == 1 || portKind r == 9 && u8 (portParams r) 0x11 % 2 == 1

def axisOk (n : Nat) : Bool := decide (n < 18)

/-- The tree ranges of a seed, by grove position; one tree outside a grove. -/
def Seed.trees (d : Seed) : List Nat := if d.isGrove then d.groves.map (fun g => u8 g 0) else [0]

def badIndex (d : Seed) : Place :=
  let cad (c : Nat) : Bool := decide (c < d.cadences.length)
  let port (p : Nat) : Bool := decide (p < d.ports.length)
  let canvas (c : Nat) : Bool := decide (c < d.canvases.length)
  orElse [
    inProfile (!(axisOk d.epochAxis && cad d.epochCadence && d.cadAxis d.epochCadence == d.epochAxis)),
    firstRec 2 d.axes fun _ r => u8 r 0x10 != 0 && !axisOk (u8 r 0x11) || u8 r 3 % 2 == 1 && decide (3 < u8 r 0x12),
    whole 2 (d.cadences.any fun c => !axisOk (u8 c 0)),
    firstRec 3 d.ports fun _ r => !(portCadence r == 0xFF || cad (portCadence r)) ||
      u8 r 6 / 2 % 2 == 1 && decide (u8 r 7 < 0x20) && !d.ports.any (fun q => portKind q == 2 && portNumber q == u8 r 7) ||
      portKind r == 9 && !port (u16 (portParams r) 0x12),
    firstRec 4 d.leaves fun _ r => !port (leafPort r) || portIsInput (recAt d.ports (leafPort r)) ||
      refLeaf d r && !(decide (leafPatch r < d.patches.length) && decide (leafModel r < d.models.length)),
    firstRec 5 d.patches fun _ r => !(canvas (patchCanvas r) && cad (patchCadence r)),
    firstRec 7 d.canvases fun _ r => !cad (canvasCadence r),
    firstRec 8 d.layers fun _ r => !canvas (layerCanvas r) || layerSource r != 0xFF && !(port (layerSource r) && (portKind (recAt d.ports (layerSource r)) == 7 || portKind (recAt d.ports (layerSource r)) == 8)),
    firstRec 9 d.rasters fun _ r => !cad (rasterCadence r) || rasterCanvas r != 0xFF && !canvas (rasterCanvas r) ||
      rasterTransport r == 3 && !(port (u16 (rasterTiming r) 0x0E) && portKind (recAt d.ports (u16 (rasterTiming r) 0x0E)) == 1),
    firstRec 10 d.cameras fun _ r => (List.range (u8 r 2)).any fun v => u8 r (12 + v) != 0xFF && !canvas (u8 r (12 + v))]

/-! ### Counts (SEED_COUNT) -/

def badCount (d : Seed) : Place :=
  orElse [
    whole 1 ((bodyRecords (sectionOf d.image 1)).length != 1),
    whole 2 (d.axes.length != 18 || !within 1 64 d.cadences.length),
    whole 7 (d.trees.any fun p => decide (8 < (inRange d.canvases (d.canvasRange p)).length)),
    whole 8 (d.trees.any fun p => let l := inRange d.layers (d.layerRange p)
      decide (16 < (l.filter layerGraphic).length) || decide (16 < (l.filter fun r => !layerGraphic r).length)),
    whole 9 (d.trees.any fun p => decide (8 < (inRange d.rasters (d.rasterRange p)).length)),
    whole 10 (decide (8 < d.cameras.length) || d.cameras.isEmpty && (sectionTable d.image).any (fun e => entType e == 10)),
    whole 11 (d.trees.any fun p => decide (2 < (inRange d.guests (d.guestRange p)).length)),
    whole 14 ((bodyRecords (sectionOf d.image 14)).length != 1)]

/-! ### Ranges (SEED_RANGE) -/

/-- A value at its marker 0, or in a range. -/
def zeroOr (lo hi v : Nat) : Bool := v == 0 || within lo hi v

/-- R67, R360: PROFILE and its allotments. -/
def profileRange (d : Seed) : Bool :=
  zeroOr 10 3600 (u32 d.profile 0x10) && (!d.isGrove || u16 d.profile 0x0A == 0) && (d.isGrove || u32 d.profile 0x1C == 0) &&
  d.allot.all (fun a => decide (u8 a 2 < 8) && within 1 64 (u8 a 3) && !qbIdRoot (u16 a 0)) &&
  !(List.range d.allot.length).any fun i => (d.allot.drop (i + 1)).any fun b => slice b 0 3 == slice (recAt d.allot i) 0 3

/-- R68: an AXES record. -/
def axisRange (i : Nat) (r : List Byte) : Bool :=
  let bound := i == 17 || u8 r 1 != 0
  let count := !isTimeAxis i
  u8 r 0 == i && (u8 r 3 % 2 == 0 || within 4 11 i) && (u8 r 3 / 2 % 2 == 0 || (i == 15 || i == 16) && (u8 r 0x13 == 30 || u8 r 0x13 == 60)) &&
  (if bound && count then decide (1 ≤ u32 r 12) else u32 r 8 == 0 && u32 r 12 == 0) &&
  (if bound && (i == 15 || i == 16) then among r 0x13 [24, 25, 30, 48, 50, 60] else u8 r 0x13 == 0) &&
  (bound || zeros r [(3, 1), (8, 44)])

/-- R70, R206: port numbers and `phy_mode` codes by kind. -/
def portNumberOk (r : List Byte) : Bool :=
  match portKind r with
  | 1 => decide (portNumber r < 16) | 2 => decide (portNumber r < 32) | 3 => decide (portNumber r < 2) | 4 => decide (portNumber r < 8)
  | 5 => decide (portNumber r < 64) | 6 => decide (portNumber r < 16) | 7 => decide (portNumber r < 8) | 8 => decide (portNumber r < 16)
  | _ => true

def phyOk (r : List Byte) : Bool :=
  let m := u8 r 5
  match portKind r with
  | 1 => m == 2 || m == 1 && portNumber r % 4 == 0
  | 2 => within 3 6 m
  | 3 => m == 1
  | 4 => m == 7
  | _ => m == 0

/-- R204: the FEC settings a port type allows. -/
def fecOk (r : List Byte) : Bool :=
  let f := u8 (portParams r) 0
  if u8 r 5 = 1 then f == 0 || f == 2 else u8 r 5 == 2 || f == 0

/-- The tree that a record range of a section puts a record in. -/
def sameTree (d : Seed) (rng : Nat → Nat × Nat) (i j : Nat) : Bool :=
  d.trees.any fun p => let x := rng p; within x.1 (x.1 + x.2 - 1) i && within x.1 (x.1 + x.2 - 1) j

/-- R208, R209, R224: the Ethernet fields of a PORTS record. -/
def ethRange (d : Seed) (i : Nat) (r : List Byte) : Bool :=
  let k := portParams r
  let ip := slice k 0x12 6
  fecOk r && (decide (u8 k 1 < 16) || u8 k 1 == 0xFF) && (portKind r != 4 || u8 r 6 % 2 == 0 && u8 k 2 == 0) &&
  (zeroOr 1 10000 (u16 k 6) || u16 k 6 == 0xFFFF) && zeroOr 64 9216 (u16 k 8) && (2 < portKind r || (decide (u8 ip 3 < 64) || u8 ip 3 == 0xFF) && zeroOr 20 10000 (u16 ip 4)) &&
  decide (portQueueSize r ≤ 4194304) && decide (portRingSize r ≤ 16777216) && decide (1518 ≤ portMaxFrame r) &&
  !(u8 r 5 == 1 && portKind r == 1 && (List.range d.ports.length).any fun j =>
    let q := recAt d.ports j; portKind q == 1 && within (portNumber r + 1) (portNumber r + 3) (portNumber q) && sameTree d d.portRange i j)

/-- The tree whose PORTS range holds a record. -/
def treeOfPort (d : Seed) (i : Nat) : Option Nat := d.trees.find? fun p => let x := d.portRange p; decide (x.1 ≤ i) && decide (i < x.1 + x.2)

/-- R317: ring partners name each other. -/
def ringOk (d : Seed) (i : Nat) (r : List Byte) : Bool :=
  if portKind r ≠ 2 ∨ u8 r 6 / 2 % 2 = 0 then true
  else
    let names (q : List Byte) (v : Nat) : Bool := u8 q 6 / 2 % 2 == 1 && u8 q 7 == v
    match treeOfPort d i with
    | none => false
    | some p =>
      let at_ (pos n : Nat) : Option (List Byte) := (inRange d.ports (d.portRange pos)).find? fun q => portKind q == 2 && portNumber q == n
      if u8 r 7 < 0x20 then (match at_ p (u8 r 7) with | some q => names q (portNumber r) | none => false)
      else
        let partner := u8 (d.groveRec p) 1
        d.isGrove && partner != 0xFF && (match at_ partner (u8 r 7 - 0x80) with | some q => names q (0x80 + portNumber r) | none => false)

/-- R239: an E1.31 group. -/
def e131Range (d : Seed) (r : List Byte) : Bool :=
  let k := portParams r
  let e := recAt d.ports (u16 k 0x12)
  let univ (u : Nat) : Bool := within 1 63999 u
  (portKind e == 1 || portKind e == 2) &&
  (if u8 k 0x11 % 2 = 1 then within 1 1024 (u16 k 2) && univ (u16 k 0) && univ (u16 k 0 + u16 k 2 - 1)
   else (decide (u8 k 0x10 ≤ 200) || u8 k 0x10 == 0xFF) && (u8 k 0x11 / 4 % 2 == 0 || univ (u16 k 0x14)))

/-- R250: a sap line. -/
def sapRange (r : List Byte) : Bool :=
  let k := portParams r
  (u8 k 1 == 0 || decide (u8 k 0 ≤ 2)) && within 1 1024 (u16 k 2) && within 1 64 (u8 k 4) && zeroOr 20 10000 (u16 k 6) && zeroOr 200 20000 (u16 k 8) && zeroOr 50 10000 (u16 k 10)

/-- R242: a DMX512 port. -/
def dmxRange (r : List Byte) : Bool :=
  let k := portParams r
  !(u8 k 0 == 1 && u8 k 1 == 1) && zeroOr 92 1000 (u16 k 2) && zeroOr 12 1000 (u16 k 4) && zeroOr 24 512 (u16 k 6) && (zeroOr 1 1000 (u16 k 8) || u16 k 8 == 0xFFFF)

def portRange (d : Seed) (i : Nat) (r : List Byte) : Bool :=
  portNumberOk r && phyOk r && (decide (portBase r < 4) || portBase r == 17) && zeroOr 1000 100000000 (u32 r 8) && (d.redundancy != 2 || !portIsInput r || u8 r 2 == 2) && ringOk d i r &&
  !(List.range i).any (fun j => let q := recAt d.ports j; portKind q == portKind r && portNumber q == portNumber r && sameTree d d.portRange i j) &&
  match portKind r with
  | 5 => sapRange r
  | 6 => dmxRange r
  | 9 => e131Range d r
  | k => decide (4 < k) || ethRange d i r

/-- A leaf's emitters, in a seed. -/
def Seed.emittersOf (d : Seed) (r : List Byte) : Nat := if d.isSafety then leafModel r else modelEmitters (recAt d.models (leafModel r))

/-- A leaf's code width, in a seed. -/
def Seed.bitsOf (d : Seed) (r : List Byte) : Nat := if d.isSafety then (if leafProtocol r ≤ 2 then 16 else 8) else patchBits (recAt d.patches (leafPatch r))

/-- The slots (DMX512, E1.31) or channels (sap line) that a leaf's codes occupy. -/
def Seed.leafSpan (d : Seed) (r : List Byte) : Nat :=
  leafPixels r * d.emittersOf r * (if leafProtocol r = 2 ∨ d.bitsOf r = 8 then 1 else 2)

/-- R98, R101: the positions of a leaf's pixels fit their format, and no pre-scale saturates. -/
def leafPlaced (d : Seed) (r : List Byte) : Bool :=
  let p := recAt d.patches (leafPatch r)
  let pp := patchParams p
  let sh := patchShift p
  let pl := leafPlacement r
  let fits (x : Int) : Bool := decide (sat32 x = x)
  let scales (x : Int) (f : Nat) : Bool :=
    let k : Int := 28 - f - sh
    fits (if 0 ≤ k then x * 2 ^ k.toNat else rnd x (-k).toNat)
  let table := dataRef d.patchData p 0x10
  (List.range (leafPixels r)).all fun w =>
    let g := (gridPos r w).1
    match patchProjection p with
    | 2 => [0, 4, 8].all fun o => fits (i32 pl o + g * i32 pl (o + 12)) && scales (i32 pl o + g * i32 pl (o + 12) - i32 pp o) 16
    | 3 => decide ((u32 pl 0 + g) * 8 + 8 ≤ table.length)
    | 4 => decide (64 + (u32 pl 0 + g) * 12 + 12 ≤ table.length) && [0, 4, 8].all fun o => scales (i32 table (64 + (u32 pl 0 + g) * 12 + o)) 0
    | _ => let q := gridXY r w; fits q.1 && fits q.2 && scales q.1 16 && scales q.2 16

/-- R71, R96, R225, R226, R239, R242, R250, R251: a LEAVES record. Of a parameter-only leaf in a safety seed R71 wants `model` 0 and R80 1 to 8: the
model keeps to R71 (DESIGN CHOICE). -/
def leafRange (d : Seed) (i : Nat) (r : List Byte) : Bool :=
  let q := recAt d.ports (leafPort r)
  let a := leafAddress r
  let last (o : Nat) : Nat := u16 a o + d.leafSpan r
  let proj := patchProjection (recAt d.patches (leafPatch r))
  (decide (leafCamera r < 8) || leafCamera r == 0xFF) && decide (leafFirst r < 2 ^ 24) &&
  (if leafType r = 5 then leafPixels r == 0 && leafFirst r == 0 && leafPatch r == 0 && leafModel r == 0 && leafCal r == 0xFFFFFFFF && leafCamera r == 0xFF
   else leafProtocol r == leafType r && decide (1 ≤ leafPixels r) &&
    (if d.isSafety then leafPatch r == 0 && leafCal r == 0xFFFFFFFF && within 1 8 (leafModel r)
     else (leafFlags r / 2 % 2 == 0 || decide (proj ≤ 1)) && leafPlaced d r &&
      (leafCal r == 0xFFFFFFFF || zeros (slice d.leafData (leafCal r) 16) [(2 * d.emittersOf r, 16)])) &&
    (match leafProtocol r with
      | 1 => (portKind q == 1 || portKind q == 2) && decide (portBase q < 4)
      | 2 => portKind q == 5 && decide (u16 a 0 < u16 (portParams q) 2) && decide (u8 a 2 < u8 (portParams q) 4) &&
          decide (u16 a 0 * u8 (portParams q) 4 + u8 a 2 + d.leafSpan r ≤ u16 (portParams q) 2 * u8 (portParams q) 4) &&
          !(d.leaves.take i).any (fun o => leafProtocol o == 2 && leafPort o == leafPort r &&
            let c (x : List Byte) : Nat := u16 (leafAddress x) 0 * u8 (portParams q) 4 + u8 (leafAddress x) 2
            decide (c o < c r + d.leafSpan r) && decide (c r < c o + d.leafSpan o))
      | 3 => portKind q == 6 && decide (1 ≤ u16 a 0) && decide (last 0 ≤ orDefault (u16 (portParams q) 6) 0 512 + 1)
      | _ => portKind q == 9 && within 1 63999 (u16 a 0) && within 1 512 (u16 a 2) && decide (last 2 ≤ 513)))

/-- R72, R99, R100: a PATCHES record. -/
def patchRange (d : Seed) (r : List Byte) : Bool :=
  let t := dataRef d.patchData r 0x10
  (patchBits r == 8 || patchBits r == 12 || patchBits r == 16) && decide (patchShift r ≤ 31) && (patchProjection r != 3 || patchShift r == 0) &&
  (patchProjection r != 1 || patchEdge r == 2) &&
  (patchProjection r != 3 || (List.range (t.length / 8)).all fun e => u32 t (e * 8) == 0xFFFFFFFF || decide (u32 t (e * 8) < 2 ^ 31) && decide (u32 t (e * 8 + 4) < 2 ^ 31))

/-- A Q3.28 coefficient fits its word. -/
def fitsQ (f : Flt) : Bool := let x := q328 f; decide (sat32 x = x)

/-- R73, R117, R120: a MODELS record. -/
def modelRange (d : Seed) (r : List Byte) : Bool :=
  let n := modelEmitters r
  let solve := orDefault (modelSolver r) 0xFF d.solver == 1 && decide (4 ≤ n)
  within 1 8 n && !(modelSolver r == 1 && decide (n < 4)) && zeros r [(0x20 + n * 12, (8 - n) * 12)] &&
  (if solve then (List.range n).all fun e => decide (0 < u16 r (0x20 + e * 12 + 2)) && decide (0 < u32 r (0x20 + e * 12 + 4)) &&
      [0, 1, 2].all fun row => let x := solveA r n row e; decide (sat32 x = x)
   else u32 r 0x10 == 12 * n)

/-- R144, R146: a LUT has its length and finite entries; the unread ones of a post-blend LUT are 0. -/
def lutOk (t : List Byte) (post : Bool) : Bool :=
  t.isEmpty || t.length == 24576 && (List.range 12288).all fun e => u16 t (e * 2) / 1024 % 32 != 31 && (!post || decide (e % 4096 < 3969) || u16 t (e * 2) == 0)

/-- R74, R120, R146: a CANVASES record. -/
def canvasRange (d : Seed) (r : List Byte) : Bool :=
  within 1 16384 (canvasWidth r) && within 1 16384 (canvasHeight r) &&
  (canvasSpace r != 2 || [10, 14, 18, 22].all (fun o => decide (0 < u16 r o)) && (match canvasKF r with | some l => l.all fitsQ | none => false)) &&
  lutOk (dataRef d.canvasData r 0x18) true

/-- R75, R142, R144, R170, R171: a LAYERS record. -/
def layerRange (d : Seed) (i : Nat) (r : List Byte) : Bool :=
  let sw := u16 r 8
  let sh := u16 r 10
  let dw := u16 r 0x10
  let dh := u16 r 0x12
  let scale (a b : Nat) : Bool := decide (a ≤ 8 * b) && decide (b ≤ 16 * a)
  let bin := layerFormat r == 0x81 || layerFormat r == 0xD0
  let t := dataRef d.layerData r 0x14
  within 1 16384 sw && within 1 16384 sh &&
  (if layerGraphic r then layerVTaps r == 0 && layerHTaps r == 0 && dw == sw && dh == sh
   else within 2 8 (layerVTaps r) && within 2 8 (layerHTaps r) && scale sw dw && scale sh dh && fmtVideo (layerFormat r)) &&
  (layerSource r == 0xFF || fmtInput (layerFormat r)) && (!bin || t.isEmpty) && lutOk t false &&
  !(d.layers.take i).any fun q => layerCanvas q == layerCanvas r && layerZ q == layerZ r

/-- R202: the bits per second of an ST 2110 output, as a fraction: the Ethernet frames of its packets with their headers and FCS: 66 bytes
beside the pixel groups. -/
def st2110Load (d : Seed) (r : List Byte) : Nat × Nat :=
  let t := rasterTiming r
  let g := pixelGroup (u8 t 0x0A)
  let line := (u16 t 2 + g.2.1 - 1) / g.2.1 * (g.1 * g.2.2 / 8) + packetsPer (u8 t 0x0A) (u16 t 2) * 66
  let q := d.cadRate (rasterCadence r)
  (line * u16 t 6 * 8 * q.1, max 1 q.2)

/-- R76, R185, R186, R202: a RASTERS record. -/
def rasterRange (d : Seed) (i : Nat) (r : List Byte) : Bool :=
  let t := rasterTiming r
  let ip := rasterTransport r == 3
  let cv := recAt d.canvases (rasterCanvas r)
  let peers := (List.range i).filter (sameTree d d.rasterRange i)
  let load := (d.rasters.filter fun q => rasterTransport q == 3 && u16 (rasterTiming q) 0x0E == u16 t 0x0E).foldl (fun a q => a + (st2110Load d q).1 / (st2110Load d q).2) 0
  decide (rasterGen r < 8) && zeroOr 2 1000 (u16 r 6) && (decide (rasterLaunchBase r < 4) || rasterLaunchBase r == 17 && !ip) &&
  State.timingOk (rasterTransport r) (u16 t 2) (u16 t 6) (u16 t 0) (u16 t 4) (u16 t 8) (u8 t 0x0A) (d.cadRate (rasterCadence r)) && decide (u16 t 0x12 < u16 t 4) &&
  (rasterCanvas r == 0xFF || decide (u16 r 8 + u16 t 2 ≤ canvasWidth cv) && decide (u16 r 10 + u16 t 6 ≤ canvasHeight cv)) &&
  (if ip then u8 t 0x10 == 0xFF && within 96 127 (u8 t 0x1A) && decide (load ≤ 90000000000)
   else decide (u8 t 0x10 < 8) && u16 t 0x0E == 0xFFFF && zeros t [(0x14, 12)]) &&
  !peers.any fun j => let q := recAt d.rasters j
    rasterGen q == rasterGen r && (rasterTrunk q == rasterTrunk r || rasterTrunk q == 2 || rasterTrunk r == 2) || !ip && rasterTransport q != 3 && u8 (rasterTiming q) 0x10 == u8 t 0x10

/-- R77: a CAMERAS record. -/
def cameraRange (d : Seed) (i : Nat) (r : List Byte) : Bool :=
  decide (u8 r 0 < 8) && within 4 11 (u8 r 1) && within 1 4 (u8 r 2) && within 1 36000 (u32 r 4) && decide (u32 r 8 ≤ 35999) &&
  (List.range 4).all (fun v => decide (v < u8 r 2) || u8 r (12 + v) == 0xFF) && !(d.cameras.take i).any fun q => u8 q 0 == u8 r 0

/-- R82: a GROVE record. -/
def groveRange (r : List Byte) : Bool :=
  decide (u8 r 0 < 16) && (decide (u8 r 1 < 16) || u8 r 1 == 0xFF) && within 1 1048576 (u32 r 8) && decide (u8 r 0x1D ≤ 8) && decide (u8 r 0x1F ≤ 8) && decide (u8 r 0x21 ≤ 2)

/-- R239: universes sent and received by one tree. -/
def universesOk (d : Seed) (p : Nat) : Bool :=
  let ls := (inRange d.leaves (d.leafRange p)).filter fun r => leafProtocol r == 4 && State.leafWorks r
  let sent := (ls.map fun r => (leafPort r, u16 (leafAddress r) 0)).eraseDups.length
  let rcv := ((inRange d.ports (d.portRange p)).filter fun r => portKind r == 9 && u8 (portParams r) 0x11 % 2 == 1).foldl (fun a r => a + u16 (portParams r) 2) 0
  decide (sent ≤ 4096) && decide (rcv ≤ 1024)

/-- R270: the characters of a line's burst with PROBE: TIMING, TAKE and PROBE, and a DATA frame of at most 4,096 bytes for every
node range its codes fill; whether its time stays within 90 % of the cadence period. -/
def sapBurstOk (d : Seed) (r : List Byte) : Bool :=
  let k := portParams r
  let ui := [80, 40, 20, 10, 5].getD (u8 k 0) 80
  let perNode := 2 * u8 k 4
  let nodesPer := max 1 (4096 / max 1 perNode)
  let views := if d.cameraPhase = 1 then (d.leaves.filter fun l => leafProtocol l == 2 && recAt d.ports (leafPort l) == r).foldl (fun a l => max a (d.leafViewCount l)) 1 else 1
  let frames := (u16 k 2 + nodesPer - 1) / nodesPer * views
  let chars := 46 + 26 + 26 + (perNode * u16 k 2 * views + frames * 14)
  let q := d.cadRate (portCadence r)
  portCadence r == 0xFF || decide (chars * 10 * ui * q.1 * 10 ≤ 9 * 1000000000 * q.2)

/-- Every range check, section by section. The fixed header fields `table_offset` and `format_minor` have no code of their own in R87: another value
is SEED_RANGE (DEDUCED). -/
def badRange (d : Seed) : Place :=
  orElse [
    whole 0 (u32 d.image 0x18 != 256 || u16 d.image 6 != 0),
    inProfile (!profileRange d),
    firstRec 2 d.axes fun i r => !axisRange i r,
    firstRec 3 d.ports fun i r => !portRange d i r || portKind r == 5 && !sapBurstOk d r,
    whole 3 (d.trees.any fun p => !universesOk d p),
    firstRec 4 d.leaves fun i r => !leafRange d i r,
    firstRec 5 d.patches fun _ r => !patchRange d r,
    firstRec 6 d.models fun _ r => !modelRange d r,
    firstRec 7 d.canvases fun _ r => !canvasRange d r,
    firstRec 8 d.layers fun i r => !layerRange d i r,
    firstRec 9 d.rasters fun i r => !rasterRange d i r,
    firstRec 10 d.cameras fun i r => !cameraRange d i r,
    firstRec 11 d.guests fun _ r => decide (524288 ≤ u32 r 4),
    firstRec 13 d.groves fun _ r => !groveRange r]

/-! ### Axes and cadences -/

/-- R29: the sources an axis may be bound to. -/
def sourceOk (n v : Nat) : Bool :=
  v == 0 || (if n < 4 then v == n + 1 else if n < 12 then within 0x10 0x17 v || within 0x20 0x31 v else if n = 12 then v == 0x40
    else if n < 15 then v == 0x50 || v == 0x51 || v == 0x58 else if n < 17 then within 0x60 0x68 v else v == 0x70)

def badSource (d : Seed) : Place :=
  firstRec 2 d.axes fun i r => !sourceOk i (u8 r 1) || u8 r 1 != 0 && (d.axes.take i).any fun q => u8 q 1 == u8 r 1

/-- The cadence indexes in use. -/
def Seed.usedCadences (d : Seed) : List Nat :=
  (d.epochCadence :: (d.ports.map portCadence).filter (· != 0xFF) ++ d.patches.map patchCadence ++ d.canvases.map canvasCadence ++ d.rasters.map rasterCadence).eraseDups

def badUnbound (d : Seed) : Place :=
  let ub (n : Nat) : Bool := !d.axisBound n
  orElse [
    firstRec 2 d.axes fun _ r => u8 r 0x10 != 0 && ub (u8 r 0x11),
    whole 2 (d.cadences.any fun c => ub (u8 c 0)),
    firstRec 3 d.ports fun _ r => ub (portBase r),
    firstRec 9 d.rasters fun _ r => ub (rasterLaunchBase r),
    firstRec 10 d.cameras fun _ r => ub (u8 r 1)]

def badHalt (d : Seed) : Place :=
  orElse [inProfile (d.axisHold d.epochAxis == 1 && d.epochAxis != 17), firstRec 9 d.rasters fun _ r => let n := d.cadAxis (rasterCadence r); d.axisHold n == 1 && n != 17]

/-- R50: an axis and the axes it follows; more than three when the chain is too deep or goes round. -/
def Seed.chain (d : Seed) : Nat → Nat → List Nat
  | 0, n => [n]
  | k + 1, n => if d.relKind n = 0 then [n] else n :: Seed.chain d k (d.relSource n)

/-- R129: the canvases that a camera group's views name. -/
def viewCanvases (c : List Byte) : List Nat := ((List.range (u8 c 2)).map fun v => u8 c (12 + v)).filter (· != 0xFF)

def Seed.related (d : Seed) (a b : Nat) : Bool := (d.chain 3 a).any (d.chain 3 b).contains

def badRelation (d : Seed) : Place :=
  orElse [
    firstRec 2 d.axes fun i r => decide (3 < (d.chain 3 i).length) || u8 r 0x10 != 0 && u64 r 0x1C == 0,
    firstRec 3 d.ports fun _ r => portCadence r != 0xFF && !d.related (d.cadAxis (portCadence r)) (portBase r),
    firstRec 5 d.patches fun _ r => !d.related (d.cadAxis (patchCadence r)) (d.cadAxis (canvasCadence (recAt d.canvases (patchCanvas r)))),
    firstRec 9 d.rasters fun _ r => !d.related (d.cadAxis (rasterCadence r)) (rasterLaunchBase r) ||
      rasterCanvas r != 0xFF && !d.related (d.cadAxis (rasterCadence r)) (d.cadAxis (canvasCadence (recAt d.canvases (rasterCanvas r)))),
    firstRec 10 d.cameras fun _ c => d.leaves.any fun r => leafCamera r == u8 c 0 && (!d.related (u8 c 1) (portBase (recAt d.ports (leafPort r))) ||
      (viewCanvases c).any fun v => !d.related (d.cadAxis (patchCadence (recAt d.patches (leafPatch r)))) (d.cadAxis (canvasCadence (recAt d.canvases v))))]

def badRate (d : Seed) : Place :=
  whole 2 (d.usedCadences.any fun c => let q := d.cadRate c
    q.2 == 0 || !(decide (24000 * q.2 ≤ 1001 * q.1) && decide (q.1 ≤ 240 * q.2)))

/-- Two cadence entries are the same cadence (R87). -/
def Seed.sameCadence (d : Seed) (a b : Nat) : Bool :=
  d.cadAxis a == d.cadAxis b && d.cadAnchor a == d.cadAnchor b && d.cadNum a * d.cadDen b == d.cadNum b * d.cadDen a

def badCadence (d : Seed) : Place :=
  firstRec 4 d.leaves fun _ r => refLeaf d r && !(portCadence (recAt d.ports (leafPort r)) != 0xFF &&
    d.sameCadence (patchCadence (recAt d.patches (leafPatch r))) (portCadence (recAt d.ports (leafPort r))))

def badCamera (d : Seed) : Place :=
  orElse [
    firstRec 4 d.leaves fun _ r => leafCamera r != 0xFF && (d.cameraPhase == 0 || !d.cameras.any (fun c => u8 c 0 == leafCamera r) || decide (3 ≤ leafProtocol r)) ||
      leafProtocol r == 2 && leafType r != 5 && d.leaves.any fun q => leafProtocol q == 2 && leafType q != 5 && leafPort q == leafPort r && leafCamera q != leafCamera r,
    whole 10 (d.cameraPhase == 0 && !d.cameras.isEmpty || d.cameraPhase == 1 && d.cameras.isEmpty)]

/-- R87, R188: `lead` against the longest compute path; the cost table that estimates it is no part of the seed. For a raster output the path
includes the composition of its canvas and the read lead of 500 µs. -/
def badLead (d : Seed) : Place :=
  let c := crc32c d.image
  let path := d.rasters.zipIdx.foldl (fun a r => if rasterCanvas r.1 = 0xFF then max a 500000 else max a (Config.unstated 188 (c + r.2 * 2 ^ 32) + 500000)) (Config.unstated 87 c)
  inProfile (!within 500000 50000000 d.lead || decide (d.lead < path + 250000))

/-! ### Memory and budgets -/

def eth (r : List Byte) : Bool := decide (portKind r ≤ 4)

/-- R10, R360: the units a bough's allotments take, defaults included. -/
def boughUnits (d : Seed) (b : Nat) : Nat :=
  let units (id dflt : Nat) : Nat := match d.allot.find? (fun a => u16 a 0 == id && u8 a 2 == b) with | some a => u8 a 3 | none => dflt
  units 1 1 + units 2 2 + units 3 1 + units 4 0 + units 5 0

/-- The trunks of a mode: one content outside SPLIT. -/
def Seed.halves (d : Seed) : List Nat := if d.redundancy = 2 then [0, 1] else [2]
/-- A record with trunk field `f` belongs to the half. -/
def inHalf (h f : Nat) : Bool := h == 2 || f == h || f == 2

/-- R87: the line buffers of a trunk's video layers, in bytes, at the seed's taps or at `cap`. -/
def lineBuf (d : Seed) (p h cap : Nat) : Nat :=
  ((inRange d.layers (d.layerRange p)).filter fun r => !layerGraphic r && inHalf h (canvasTrunk (recAt d.canvases (layerCanvas r)))).foldl
    (fun a r => a + min cap (layerVTaps r) * u16 r 8 * 4) 0

def badLineBuf (d : Seed) : Place :=
  whole 8 (d.trees.any fun p => d.halves.any fun h => decide (2097152 < lineBuf d p h (if d.scalerShort = 0 then 8 else 2)))

def badGuest (d : Seed) : Place :=
  firstRec 11 d.guests fun i r => decide (524288 < u32 r 0x0C) || decide (u32 r 0x18 < u32 r 0x14) || u32 r 0x18 % 1048576 != 0 ||
    decide (268435456 < u32 r 0x18) || (List.range i).any fun j => sameTree d d.guestRange i j && u8 (recAt d.guests j) 0 == u8 r 0

/-- The leaves that count at a tree: its own, and its partner's KEEP leaves (R84). -/
def ownLeaves (d : Seed) (p : Nat) : List (List Byte) := inRange d.leaves (d.leafRange p)
def partnerKeeps (d : Seed) (p : Nat) : List (List Byte) :=
  let q := if d.isGrove then u8 (d.groveRec p) 1 else 0xFF
  if q = 0xFF then [] else (ownLeaves d q).filter fun r => leafPriority r == 0
def leafEnd (r : List Byte) : Nat := if State.leafWorks r then leafFirst r + leafPixels r else 0

def badPixels (d : Seed) : Place :=
  orElse [
    firstRec 4 d.leaves fun i r => State.leafWorks r && (List.range i).any fun j => let q := recAt d.leaves j
      sameTree d d.leafRange i j && State.leafWorks q && decide (leafFirst q < leafEnd r) && decide (leafFirst r < leafEnd q),
    whole 4 (d.trees.any fun p => decide (16777216 < (ownLeaves d p).foldl (fun a r => max a (leafEnd r)) 0 + (partnerKeeps d p).foldl (fun a r => a + leafPixels r) 0))]

def badEmitters (d : Seed) : Place :=
  whole 4 (d.trees.any fun p => decide (67108864 < (ownLeaves d p ++ partnerKeeps d p).foldl (fun a r => a + (if State.leafWorks r then leafPixels r * d.emittersOf r else 0)) 0))

def overBudget (d : Seed) (emitters : Bool) : Bool :=
  d.trees.any fun p =>
    let k := d.rateScale
    let l := (ownLeaves d p).foldl (fun a r => addLoad a (d.leafLoad k r)) (0, 0)
    let b := d.budget false
    if emitters then decide (b.2 * k < l.2) else decide (b.1 * k < l.1)

/-- R19: the canvases a trunk composes, and their area and load. -/
def canvasesOf (d : Seed) (p h : Nat) : List (List Byte) := (inRange d.canvases (d.canvasRange p)).filter fun r => inHalf h (canvasTrunk r)
def overCanvas (d : Seed) (rate : Bool) : Bool :=
  d.trees.any fun p => d.halves.any fun h =>
    let k := d.rateScale
    let area (r : List Byte) : Nat := canvasWidth r * canvasHeight r
    if rate then decide (8053063680 * k < (canvasesOf d p h).foldl (fun a r => a + area r * d.rateUnits k (canvasCadence r)) 0)
    else decide (2 ^ 27 < (canvasesOf d p h).foldl (fun a r => a + area r) 0)

/-- R72, R129: the canvases that a leaf reads: its patch's, and those of its camera group's views. -/
def Seed.leafReads (d : Seed) (r : List Byte) : List Nat :=
  patchCanvas (recAt d.patches (leafPatch r)) :: (match d.cameras.find? (fun c => u8 c 0 == leafCamera r) with
    | some c => if leafCamera r < 8 then viewCanvases c else []
    | none => [])

/-- R24, R70: `trunk` fields. -/
def badSplit (d : Seed) : Place :=
  let split := d.redundancy == 2
  let reads (t c : Nat) : Bool := c == 2 || c == t
  orElse [
    firstRec 3 d.ports fun _ r => !split && u8 r 2 != 2,
    firstRec 4 d.leaves fun _ r => if split then leafTrunk r == 2 || refLeaf d r && (d.leafReads r).any fun c => !reads (leafTrunk r) (canvasTrunk (recAt d.canvases c))
      else leafTrunk r != 2,
    firstRec 7 d.canvases fun _ r => !split && canvasTrunk r != 2,
    firstRec 9 d.rasters fun _ r => if split then rasterTrunk r == 2 || rasterCanvas r != 0xFF && !reads (rasterTrunk r) (canvasTrunk (recAt d.canvases (rasterCanvas r)))
      else rasterTrunk r != 2]

/-! ### Safety and groves -/

/-- R74: width and height of a canvas's heartwood area; it lies inside the canvas. -/
def hwArea (r : List Byte) : Nat := let h := canvasHw r; (h.2.2.1 - h.1) * (h.2.2.2 - h.2.1)
def hwInside (r : List Byte) : Bool :=
  let h := canvasHw r
  h.1 == h.2.2.1 || decide (h.1 < h.2.2.1) && decide (h.2.1 < h.2.2.2) && decide (h.2.2.1 ≤ canvasWidth r) && decide (h.2.2.2 ≤ canvasHeight r)

def badSafety (d : Seed) : Place :=
  orElse [
    firstRec 7 d.canvases fun _ r => !hwInside r,
    whole 7 (d.trees.any fun p => d.halves.any fun h => decide (524288 < (canvasesOf d p h).foldl (fun a r => a + hwArea r) 0)),
    whole 12 d.safety.isEmpty,
    firstRec 12 d.safety fun i r => if i = 0 then u32 r 0 != 0 || u32 r 4 != 0
      else u32 r 4 == 0 || ((d.safety.take i).drop 1).any fun q => decide (u32 q 0 < u32 r 0 + u32 r 4) && decide (u32 r 0 < u32 q 0 + u32 q 4),
    whole 12 (((List.range (safetyDirs d).length).zip (safetyDirs d)).any fun x =>
      let cs := inRange d.canvases (d.canvasRange (d.trees.getD x.1 0))
      (List.range 8).any fun i =>
        let e := slice x.2 (i * 24) 24
        let n := hwArea (recAt cs i) * 8
        if n = 0 then !e.all (· == 0) else u8 e 0 != i || u8 e 1 != 0x81 || u32 e 12 != n || u32 e 20 != n)]

/-- The embedded safety seeds that the directories name (R79). -/
def embeddedSeeds (d : Seed) : List (List Byte) := ((safetyDirs d).map fun x => dataRef d.safetyData x 192).filter (!·.isEmpty)

/-- R82, R87. A GROVE section in a seed whose header bit `grove` is 0 has no code: the seed passes and the section sets nothing (DESIGN CHOICE). -/
def badGroveShape (d : Seed) : Place :=
  if !d.isGrove then none
  else
    orElse [
      whole 13 (!within 1 16 d.groves.length),
      firstRec 13 d.groves fun i g => decide (0 < i) && decide (u8 g 0 ≤ u8 (recAt d.groves (i - 1)) 0),
      whole 13 ((d.groves.filter fun g => u8 g 2 % 2 == 1).length != 1)]

/-- Ranges of a section of `n` records that overlap or run past it. An empty range holds no record. -/
def rangesClash (n : Nat) (l : List (Nat × Nat)) : Bool :=
  let l := l.filter (fun a => a.2 != 0)
  (List.range l.length).any fun i => let a := l.getD i (0, 0)
    decide (n < a.1 + a.2) || (l.drop (i + 1)).any fun b => decide (a.1 < b.1 + b.2) && decide (b.1 < a.1 + a.2)

/-- R83, R87. Only LEAVES must be covered: that a PATCHES, LAYERS or RASTERS record in no tree's range refers to no canvas of its tree, and so is
refused here too, is the model's reading (DESIGN CHOICE). -/
def badPartition (d : Seed) : Place :=
  if !d.isGrove then none
  else
    let r (f : Nat → Nat × Nat) : List (Nat × Nat) := d.trees.map f
    let own (i : Nat) (rng : Nat → Nat × Nat) (j : Nat) (rngTo : Nat → Nat × Nat) : Bool :=
      d.trees.any fun p => let a := rng p; let b := rngTo p; decide (a.1 ≤ i) && decide (i < a.1 + a.2) && decide (b.1 ≤ j) && decide (j < b.1 + b.2)
    orElse [
      firstRec 4 d.leaves fun i x => !own i d.leafRange (leafPort x) d.portRange || refLeaf d x && !own i d.leafRange (leafPatch x) d.patchRange,
      firstRec 5 d.patches fun i x => !own i d.patchRange (patchCanvas x) d.canvasRange,
      firstRec 8 d.layers fun i x => !own i d.layerRange (layerCanvas x) d.canvasRange,
      firstRec 9 d.rasters fun i x => rasterCanvas x != 0xFF && !own i d.rasterRange (rasterCanvas x) d.canvasRange,
      whole 13 (rangesClash d.leaves.length (r d.leafRange) || rangesClash d.patches.length (r d.patchRange) || rangesClash d.ports.length (r d.portRange) ||
        rangesClash d.layers.length (r d.layerRange) || rangesClash d.canvases.length (r d.canvasRange) || rangesClash d.rasters.length (r d.rasterRange) ||
        rangesClash d.guests.length (r d.guestRange)),
      whole 13 ((r d.leafRange).foldl (fun a x => a + x.2) 0 != d.leaves.length)]

def badPair (d : Seed) : Place :=
  if !d.isGrove then none else firstRec 13 d.groves fun _ g => u8 g 1 != 0xFF && (u8 g 1 == u8 g 0 || u8 (d.groveRec (u8 g 1)) 1 != u8 g 0 || (d.groveRec (u8 g 1)).isEmpty)

/-- R85: the axes of a grove's epochs and launches. -/
def groveAxis (d : Seed) (launch : Bool) (n : Nat) : Bool :=
  decide (n < 4) || within 4 11 n && d.axisFlags n % 2 == 1 || !launch && (n == 15 || n == 16)

def badGroveTime (d : Seed) : Place :=
  if !d.isGrove then none
  else orElse [
    inProfile (!groveAxis d false d.epochAxis),
    whole 2 (d.usedCadences.any fun c => !groveAxis d false (d.cadAxis c)),
    firstRec 3 d.ports fun _ r => !groveAxis d true (portBase r),
    firstRec 9 d.rasters fun _ r => !groveAxis d true (rasterLaunchBase r)]

/-! ### All checks in code order (R86, R87) -/

/-- The checks, each with its code. `inner` validates an embedded safety seed. R86 stops at a section too short for its body header before the
record size is checked: any such section is reported before the version of any section (DESIGN CHOICE). -/
def seedChecks (env : SeedEnv) (img : List Byte) (inner : List Byte → Bool) : List (Nat × (Unit → Place)) :=
  let d := parseSeed img
  let hdr (b : Bool) : Place := whole 0 b
  [ (0x0401, fun _ => hdr (u64 img 0x10 != img.length || !within 4096 201326592 img.length)),
    (0x0402, fun _ => hdr (slice img 0 4 != [0x44, 0x47, 0x53, 0x44] || u32 img 8 != 256)),
    (0x0403, fun _ => hdr (u16 img 4 != 1)),
    (0x0404, fun _ => hdr (seedCrc 0 (img.take 252) != u32 img 0xFC)),
    (0x0407, fun _ => hdr (tablePast img)),
    (0x0405, fun _ => hdr (seedCrc 256 (slice img 256 (hdrCount img * 32)) != u32 img 0x60)),
    (0x0406, fun _ => hdr (u16 img 0x3C != 0x0416 || decide (env.firmware < u32 img 0x38))),
    (0x0407, fun _ => badLayout img),
    (0x0408, fun _ => ((requiredSections d img).find? fun t => !(sectionTable img).any fun e => entType e == t).map fun t => (t, noRec)),
    (0x0409, fun _ => let ts := (sectionTable img).map entType; ((ts.zip (ts.drop 1)).find? fun x => x.1 == x.2).map fun x => (x.1, noRec)),
    (0x040A, fun _ => firstEntry img fun e => !knownType (entType e) && u32 e 4 % 2 == 0),
    (0x0420, fun _ => firstEntry img shortBody),
    (0x040B, fun _ => firstEntry img (badVersion img)),
    (0x040C, fun _ => firstEntry img fun e => seedCrc (entOff e) (crcBody img e) != u32 e 0x18),
    (0x0410, fun _ => hdr (!env.lifeOk || env.key.isNone)),
    (0x0411, fun _ => orElse [hdr (slice img 0x40 32 != sha256 (env.key.getD [])),
      some (14, 0) |>.filter fun _ => slice (sigSection img) 8 32 != sha256 (env.key.getD []) || u32 (sigSection img) 0 != 1]),
    (0x0412, fun _ => some (14, 0) |>.filter fun _ => !edVerify (env.key.getD []) (seedDigest img) (slice (sigSection img) 40 64)) ] ++
  bodyChecks d img ++
  [ (0x0421, fun _ => badReserved d img),
    (0x0422, fun _ => badIndex d),
    (0x0423, fun _ => badCount d),
    (0x0424, fun _ => badRange d),
    (0x0425, fun _ => whole 2 (d.cadences.any fun c => !canonical (u8 c 0) (ofLe (slice c 16 12)))),
    (0x0430, fun _ => badSource d),
    (0x0431, fun _ => badUnbound d),
    (0x0432, fun _ => badHalt d),
    (0x0433, fun _ => badRelation d),
    (0x0434, fun _ => badRate d),
    (0x0435, fun _ => badCadence d),
    (0x0436, fun _ => badCamera d),
    (0x0437, fun _ => badLead d),
    (0x0440, fun _ => firstRec 3 d.ports fun _ r => eth r && decide ((if portKind r = 4 then 1522 else 9216) < portMaxFrame r)),
    (0x0441, fun _ => firstRec 3 d.ports fun _ r => eth r && (decide (portQueueSize r < 16384) || decide (portQueueSize r < 2 * portMaxFrame r))),
    (0x0442, fun _ => firstRec 3 d.ports fun _ r => eth r && (decide (u32 r 0x10 ≤ u32 r 0x14) || decide (portQueueSize r - portMaxFrame r < u32 r 0x10))),
    (0x0443, fun _ => firstRec 3 d.ports fun _ r => eth r && decide (portRingSize r < portMaxFrame r)),
    (0x0444, fun _ => whole 3 (d.trees.any fun p => decide (25165824 < ((inRange d.ports (d.portRange p)).filter eth).foldl (fun a r => a + portQueueSize r) 0))),
    (0x0445, fun _ => inProfile ((List.range 8).any fun b => decide (64 < boughUnits d b))),
    (0x0446, fun _ => badLineBuf d),
    (0x0447, fun _ => badGuest d),
    (0x0450, fun _ => whole 4 (d.trees.any fun p => decide (1048576 < (ownLeaves d p).length + (partnerKeeps d p).length))),
    (0x0451, fun _ => badPixels d),
    (0x0452, fun _ => badEmitters d),
    (0x0453, fun _ => whole 4 (overBudget d false)),
    (0x0454, fun _ => whole 4 (overBudget d true)),
    (0x0455, fun _ => whole 7 (overCanvas d false)),
    (0x0456, fun _ => whole 7 (overCanvas d true)),
    (0x0457, fun _ => badSplit d),
    (0x0460, fun _ => badSafety d),
    (0x0461, fun _ => whole 12 ((embeddedSeeds d).any fun e => !inner e)),
    (0x0470, fun _ => badGroveShape d),
    (0x0471, fun _ => badPartition d),
    (0x0472, fun _ => badPair d),
    (0x0473, fun _ => whole 13 (d.isGrove && (d.groveRec env.pos).isEmpty)),
    (0x0474, fun _ => badGroveTime d) ]

/-- The first check that fails: code, section type and record index. -/
def firstFail : List (Nat × (Unit → Place)) → Option (Nat × Nat × Nat)
  | [] => none
  | c :: r => match c.2 () with | some p => some (c.1, p.1, p.2) | none => firstFail r

/-- R80: what only a safety seed must keep to. -/
def safetyRules (img : List Byte) : Place :=
  let d := parseSeed img
  if 2097152 < img.length ∨ !hdrSafety img then some (0, noRec)
  else orElse [
    firstEntry img fun e => ! [1, 2, 3, 4, 12, 14].contains (entType e),
    inProfile (!(d.redundancy == 0 && d.emit == 0 && d.solver == 0 && d.dither == 0 && d.cameraPhase == 0 && d.probe == 1 && d.rasterEvents == 0 && d.scalerShort == 0)),
    whole 12 (!(embeddedSeeds d).isEmpty)]

/-- R80, R416: validation of a safety seed: every check of R87, and R80. A breach of R80 alone has the code 0x0461. -/
def validateSafety (env : SeedEnv) (img : List Byte) : Option (Nat × Nat × Nat) :=
  match firstFail (seedChecks env img fun _ => true) with
  | some f => some f
  | none => (safetyRules img).map fun p => (0x0461, p.1, p.2)

/-- R86: validation of a seed. -/
def validateSeed (env : SeedEnv) (img : List Byte) : Option (Nat × Nat × Nat) :=
  firstFail (seedChecks env img fun e => (validateSafety env e).isNone)

end Sys2Proof.Machine
end

