-- ==== Sys2Proof/Machine/Ptp.lean ====
section
/-! DEFINITION. PTP instances, their servo and time bases, the grandmaster, and the pulse and 10 MHz references (R272 to R289,
R295). The best master clock algorithm and its states are those of IEEE 1588-2019 clause 9 (PRESUMED in what R276 leaves to
it). -/

namespace Sys2Proof.Machine

/-- A field of a configuration word in effect. -/
def PtpSt.cfgF (x : PtpSt) (f : Field) : Nat := getBits x.cfg.toNat f.lo f.len

/-- R275: a log interval: the field, or the profile's default. -/
def PtpSt.logOf (x : PtpSt) (lo : Nat) (dflt smpte : Int) : Int :=
  let v := getBits x.intv.toNat lo 8
  if v = 0x7F then (if x.cfgF (Reg.TimePtpCfg.profile 0) = 1 then smpte else dflt) else signed 8 v

/-- A log2 interval in 2^-16 ns. -/
def logRaw (l : Int) : Nat := if 0 ≤ l then second * 2 ^ l.toNat else second / 2 ^ (-l).toNat

def PtpSt.annRaw (x : PtpSt) : Nat := logRaw (x.logOf 24 1 (-2))
def PtpSt.syncRaw (x : PtpSt) : Nat := logRaw (x.logOf 16 0 (-3))
def PtpSt.delayRaw (x : PtpSt) : Nat := logRaw (x.logOf 8 0 (-3))
def PtpSt.role (x : PtpSt) : Nat := x.cfgF (Reg.TimePtpCfg.role 0)
def PtpSt.port (x : PtpSt) : Nat := x.cfgF (Reg.TimePtpCfg.port 0)
def PtpSt.p2p (x : PtpSt) : Bool := x.cfgF (Reg.TimePtpCfg.delay 0) == 1
def PtpSt.gmPps (x : PtpSt) : Bool := x.cfgF (Reg.TimePtpCfg.gmPps 0) == 1

/-- R272: the advance of a time base per fabric cycle, in 2^-32 raw units. -/
def PtpSt.adv (x : PtpSt) : Nat := (163840 * 2 ^ 32 + 640 * x.r).toNat

/-- R280: the mean of *r* over the last 16 s in SLAVE. -/
def PtpSt.meanR (x : PtpSt) (now : Nat) : Int :=
  let from_ := now - 16 * second
  let step (a : Int × Int × Nat) (e : Nat × Int) : Int × Int × Nat :=
    let b := max e.1 from_
    if a.2.2 ≤ b then (a.1, a.2.1, min a.2.2 b) else (a.1 + e.2 * ((a.2.2 - b : Nat) : Int), a.2.1 + ((a.2.2 - b : Nat) : Int), b)
  let m := x.rLog.foldl step (0, 0, now)
  if m.2.1 = 0 then x.r else m.1 / m.2.1

/-- IEEE 1588-2019 clause 9.3.4: one data set is better than another. -/
def betterData (a b : PtpAnnounce) : Bool :=
  if a.gmId = b.gmId then decide (a.stepsRemoved < b.stepsRemoved)
  else
    let key (x : PtpAnnounce) : Nat :=
      ((((x.priority1 * 256 + x.clockClass) * 256 + x.accuracy) * 65536 + x.variance) * 256 + x.priority2) * 2 ^ 64 + x.gmId
    decide (key a < key b)

namespace State

def ptp (s : State) (i : Nat) : PtpSt := s.ptps.get {} i
def putPtp (s : State) (i : Nat) (x : PtpSt) : State := { s with ptps := s.ptps.set i x }
/-- IEEE 1588 portState. -/
def ptpState (s : State) (i : Nat) : Nat := s.fget (Reg.TimePtpStatus.portState i)
def ppsOk (s : State) : Bool := s.fbit Reg.TimeStatus.ppsValid

/-- Axis *i* is bound to instance *i* (R277). -/
def ptpBound (s : State) (i : Nat) : Bool := s.axisState i != 0

/-- R295: the instance enters a port state. -/
def setPtp (s : State) (i v : Nat) : State :=
  let o := s.ptpState i
  if o = v then s
  else
    let s := (s.fset (Reg.TimePtpStatus.portState i) v).fsetB (Reg.TimePtpStatus.gmSelf i) (v == 6)
    (s.rootEvent 0x60000 0x0840 0 [BitVec.ofNat 8 i, BitVec.ofNat 8 o, BitVec.ofNat 8 v]).attnTime

/-- R283: the clockClass, clockAccuracy and timeSource a grandmaster announces. -/
def gmQuality (s : State) (x : PtpSt) : Nat × Nat × Nat :=
  let src := getBits x.prio.toNat 8 8
  if x.gmPps && getBits x.prio.toNat 7 1 == 1 then
    if s.ppsOk then (6, 0x21, src)
    else match s.ppsLostAt with
      | some t => if s.free < t + 100 * second then (7, 0x22, src) else (187, 0xFE, src)
      | none => (248, 0xFE, 0xA0)
  else (248, 0xFE, 0xA0)

/-- The clock identity of a port: its MAC address with FFFE in the middle (clause 7.5.2.2.2). -/
def portClock (s : State) (n : Nat) : Nat := let m := s.portMac n; m / 2 ^ 24 * 2 ^ 40 + 0xFFFE * 2 ^ 24 + m % 2 ^ 24

/-- The clock identity of an instance. -/
def clockId (s : State) (x : PtpSt) : Nat := s.portClock x.port

/-- The data set of the instance's own clock; its variance is stated nowhere. -/
def ownData (s : State) (i : Nat) : PtpAnnounce :=
  let x := s.ptp i
  let q := s.gmQuality x
  { gmId := s.clockId x, priority1 := getBits x.prio.toNat 24 8, clockClass := if x.role = 1 then 255 else q.1, accuracy := q.2.1,
    variance := Config.unstated 283 i % 65536, priority2 := getBits x.prio.toNat 16 8, stepsRemoved := 0,
    utcOffset := s.fget Reg.TimeGmUtc.utcOffset, utcValid := s.fbit Reg.TimeGmUtc.utcValid }

/-- R294, R295: the grandmaster in use; a change of it counts and is reported. -/
def useGm (s : State) (i : Nat) (a : PtpAnnounce) : State :=
  let x := s.ptp i
  let chg := x.gm.any (· != a.gmId)
  let s := s.putPtp i { x with gm := some a.gmId }
  let s := s.setReg64 (Reg.timePtpGmidLo i) (Reg.timePtpGmidHi i) a.gmId
  let s := (s.fset (Reg.TimePtpStatus.clockClass i) a.clockClass).fsetB (Reg.TimePtpStatus.utcValid i) a.utcValid
  let s := s.fset (Reg.TimePtpStatus.utcOffset i) a.utcOffset
  if chg then ((s.bump (Reg.timePtpMasterChg i)).flag (Reg.TimePtpStatus.masterChg i) 0).attnTime else s

/-- R280, R281: the instance enters holdover: the rate and the integral take the mean, and a LOCKED axis loses its instance. -/
def ptpHoldover (s : State) (i : Nat) : State :=
  let x := s.ptp i
  let m := x.meanR s.free
  let x := { x with r := m, integ := m, good := 0, rLog := [] }
  let s := (s.putPtp i x).setRegN (Reg.timePtpRate i) (unsigned 32 m)
  if s.axisState i = 2 then (s.setRate i x.adv).loseAxis i else s

/-- R281: a grandmaster's axis locks from SEEKING. -/
def masterLock (s : State) (i : Nat) : State :=
  let x := s.ptp i
  if s.ptpState i = 6 ∧ x.tod ∧ (!x.gmPps || s.ppsOk) ∧ s.axisState i = 1 then s.lockAxis i x.base.toNat x.adv else s

/-! ### The best master clock algorithm (R276, R281) -/

/-- The instance follows a master: a new one sends it to UNCALIBRATED and resets the path delay. -/
def follow (s : State) (i : Nat) (a : PtpAnnounce) : State :=
  let x := s.ptp i
  if (s.ptpState i = 8 ∨ s.ptpState i = 9) ∧ x.parent.any (·.gmId == a.gmId) then (s.putPtp i { x with parent := some a }).useGm i a
  else
    let s := s.ptpHoldover i
    let s := s.putPtp i { s.ptp i with parent := some a, d := none, diff := none, two := none, req := none, good := 0, rLog := [], lastSync := s.free }
    (s.setPtp i 8).useGm i a

/-- The instance becomes master. -/
def lead (s : State) (i : Nat) : State :=
  let s := if s.ptpState i = 8 ∨ s.ptpState i = 9 then s.ptpHoldover i else s
  let s := s.putPtp i { s.ptp i with parent := none, annNext := s.free, syncNext := s.free }
  ((s.setPtp i 6).useGm i (s.ownData i)).masterLock i

/-- The instance goes PASSIVE. -/
def standAside (s : State) (i : Nat) (a : PtpAnnounce) : State :=
  let s := if s.ptpState i = 8 ∨ s.ptpState i = 9 then s.ptpHoldover i else s
  ((s.putPtp i { s.ptp i with parent := some a }).setPtp i 7).useGm i a

/-- The best of the masters that have announced twice within four intervals. -/
def bestForeign (s : State) (i : Nat) : Option PtpAnnounce :=
  let x := s.ptp i
  let l := x.foreign.filter fun f => decide (2 ≤ f.2.2) && decide (s.free ≤ f.2.1 + 4 * x.annRaw) && decide (f.1.stepsRemoved < 255)
  l.foldl (fun b f => match b with | none => some f.1 | some c => if betterData f.1 c then some f.1 else b) none

/-- R276: the state decision on the best master. -/
def bmca (s : State) (i : Nat) : State :=
  let x := s.ptp i
  match s.bestForeign i with
  | none => s
  | some a =>
    let own := s.ownData i
    if x.role = 1 then s.follow i a
    else if betterData own a then (if s.ptpState i = 6 then s else s.lead i)
    else if x.role = 2 ∨ own.clockClass < 128 then s.standAside i a
    else s.follow i a

/-- PTP_ANNOUNCE_RECEIVE. -/
def announceIn (s : State) (i : Nat) (a : PtpAnnounce) : State :=
  let st := s.ptpState i
  if st < 4 then s
  else
    let x := s.ptp i
    let n := match x.foreign.find? (·.1.gmId == a.gmId) with
      | some f => if s.free ≤ f.2.1 + 4 * x.annRaw then f.2.2 + 1 else 1
      | none => 1
    let x := { x with foreign := (a, s.free, n) :: x.foreign.filter (·.1.gmId != a.gmId),
                      lastAnn := if x.parent.all (·.gmId == a.gmId) then s.free else x.lastAnn }
    (s.putPtp i x).bmca i

/-- R281: `announceReceiptTimeout` expires. -/
def announceLate (s : State) (i : Nat) : State :=
  let st := s.ptpState i
  let x := s.ptp i
  if !(st == 4 || 7 ≤ st) || decide (s.free < x.lastAnn + 3 * x.annRaw) then s
  else
    let s := (s.bump (Reg.timePtpAnnTimeout i)).fset (Reg.TimePtpStatus.annTimeout i) 1
    let s := if 8 ≤ st then s.ptpHoldover i else s
    let gone (f : PtpAnnounce × Nat × Nat) : Bool := (s.ptp i).parent.any (·.gmId == f.1.gmId)
    let s := s.putPtp i { s.ptp i with foreign := (s.ptp i).foreign.filter (fun f => !gone f), lastAnn := s.free }
    match s.bestForeign i with
    | some _ => s.bmca i
    | none =>
      if x.role = 1 then (s.putPtp i { s.ptp i with parent := none }).setPtp i 4 else s.lead i

/-- R281: no usable Sync in three announce intervals. -/
def syncLate (s : State) (i : Nat) : State :=
  let x := s.ptp i
  if 8 ≤ s.ptpState i ∧ (s.axisState i = 2 ∨ x.rLog ≠ []) ∧ x.lastSync + 3 * x.annRaw ≤ s.free then s.ptpHoldover i else s

/-! ### Offset, delay and the servo (R278, R279) -/

/-- R279: the servo takes an offset sample. -/
def servo (s : State) (i : Nat) (o t : Int) : State :=
  let x := s.ptp i
  let su := s.fget (Reg.TimePtpThresh.stepUs i)
  let s := s.setRegN (Reg.timePtpOffset i) (unsigned 32 (min (max (o / 4096) (-(2 ^ 31))) (2 ^ 31 - 1)))
  if su ≠ 0 ∧ ((su * 65536000 : Nat) : Int) ≤ o.natAbs then
    let x := { x with base := x.base - o, good := 0 }
    let s := ((s.putPtp i x).bump (Reg.timePtpStepCnt i)).fset (Reg.TimePtpStatus.step i) 1
    s.stepAxis i x.base.toNat
  else
    let lim : Int := 109951163
    let cl (v : Int) : Int := min (max v (-lim)) lim
    let integ := cl (x.integ - (s.fget (Reg.TimePtpServo.ki i) : Int) * o * 2 ^ 24 / t)
    let r := cl (integ - (s.fget (Reg.TimePtpServo.kp i) : Int) * o * 2 ^ 24 / t)
    let good := if o.natAbs < s.fget (Reg.TimePtpThresh.lockNs i) * 65536 then x.good + 1 else 0
    let x := { x with integ := integ, r := r, good := good, rLog := if s.ptpState i = 9 then (s.free, r) :: x.rLog.take 4096 else x.rLog }
    let s := (s.putPtp i x).setRegN (Reg.timePtpRate i) (unsigned 32 r)
    if s.axisState i = 2 then s.setRate i x.adv else s

/-- R278, R281: a whole Sync: it gives an offset sample once a path delay exists. -/
def syncSample (s : State) (i : Nat) (t1 t2 c : Int) : State :=
  let x := s.ptp i
  let s := s.putPtp i { x with diff := some (t2 - t1 - c), two := none }
  match x.d with
  | none => s
  | some d =>
    let s := (s.putPtp i { s.ptp i with lastSync := s.free }).bump (Reg.timePtpSyncRx i)
    let s := if s.ptpState i = 8 then s.setPtp i 9 else s
    let s := s.servo i (t2 - t1 - d - c) x.syncRaw
    let y := s.ptp i
    if 8 ≤ y.good ∧ (s.axisState i = 1 ∨ s.axisState i = 3) then s.lockAxis i y.base.toNat y.adv else s

/-- R278: the filtered path delay takes a sample. -/
def delaySample (s : State) (i : Nat) (m : Int) : State :=
  let x := s.ptp i
  let d := match x.d with | none => m | some d => d + (m - d) / 16
  (s.putPtp i { x with d := some d }).setRegN (Reg.timePtpPath i) (unsigned 32 (d / 4096))

/-- R287: the stamp on the instance's time base of a message whose first bit comes `sub` (2^-16 ns) into this cycle, corrected by the
port's calibrated latency. -/
def ingressTime (s : State) (i sub : Nat) : Int :=
  (s.ptp i).base + sub - ((s.regN (Reg.calPortIngress (s.ptp i).port) * 65536 / 1000 : Nat) : Int)

/-- PTP_SYNC_RECEIVE. -/
def syncIn (s : State) (i : Nat) (m : PtpEvent) (sub : Nat) : State :=
  if s.ptpState i < 8 then s
  else if m.twoStep then s.putPtp i { s.ptp i with two := some (m.seq, s.ingressTime i sub, m.corr) }
  else s.syncSample i m.origin (s.ingressTime i sub) m.corr

/-- PTP_FOLLOW_UP_RECEIVE. -/
def followIn (s : State) (i : Nat) (m : PtpEvent) : State :=
  match (s.ptp i).two with
  | some (q, t2, c) => if 8 ≤ s.ptpState i ∧ q = m.seq then s.syncSample i m.origin t2 (c + m.corr) else s
  | none => s

/-- PTP_DELAY_RESP_RECEIVE. -/
def delayRespIn (s : State) (i seq : Nat) (t4 corr : Int) : State :=
  let x := s.ptp i
  match x.req, x.diff with
  | some (q, t3), some df =>
    if 8 ≤ s.ptpState i ∧ q = seq ∧ !x.p2p then (s.putPtp i { x with req := none }).delaySample i ((df + (t4 - t3 - corr)) / 2) else s
  | _, _ => s

/-! ### Messages (IEEE 1588-2019 clause 13, PRESUMED) -/

/-- A message of type `kind`: the common header and its body. `flags` are the two flag octets. -/
def ptpMessage (s : State) (n domain kind seq flags : Nat) (log : Int) (body : List Byte) : List Byte :=
  let ctl := match kind with | 0 => 0 | 1 => 1 | 8 => 2 | 9 => 3 | _ => 5
  beBytes 1 kind ++ [0x12] ++ beBytes 2 (34 + body.length) ++ beBytes 1 domain ++ [0] ++ beBytes 2 flags ++ List.replicate 12 0 ++
    beBytes 8 (s.portClock n) ++ beBytes 2 1 ++ beBytes 2 seq ++ beBytes 1 ctl ++ beBytes 1 (unsigned 8 log) ++ body

/-- R276: a message as a frame of port `n`, to its multicast address over UDP/IPv4 or over Ethernet. -/
def ptpFrame (s : State) (n : Nat) (udp : Bool) (kind : Nat) (msg : List Byte) : List Byte :=
  let peer := kind == 2 || kind == 3
  let p := if kind < 8 then 319 else 320
  if udp then s.udpFrame n false (if peer then 0xE000006B else 0xE0000181) p p (Config.unstated 276 n % 64) msg
  else etherFrame (if peer then 0x0180C200000E else 0x011B19000000) (s.portMac n) 0x88F7 msg

/-- R276: a message of an instance as a frame of its port, in its domain and over its transport. -/
def ptpOut (s : State) (i kind seq flags : Nat) (log : Int) (body : List Byte) : List Byte :=
  let x := s.ptp i
  s.ptpFrame x.port (x.cfgF (Reg.TimePtpCfg.transport 0) == 1) kind
    (s.ptpMessage x.port (x.cfgF (Reg.TimePtpCfg.domain 0)) kind (seq % 65536) flags log body)

/-- R212, R276: an instance sends a message through its port. -/
def ptpSend (s : State) (i kind seq flags : Nat) (log : Int) (body : List Byte) (stamp : Bool) : State :=
  s.sendFrame (s.ptp i).port (s.ptpOut i kind seq flags log body) (if stamp then some (i, kind, seq % 65536) else none)

/-- R286: a Pdelay message of the switch's own on a port. Its domain and transport are stated nowhere: 0, over Ethernet. -/
def pdelayOut (s : State) (n kind seq : Nat) (body : List Byte) : List Byte :=
  s.ptpFrame n false kind (s.ptpMessage n 0 kind (seq % 65536) 0 0x7F body)

/-- R286: the switch sends a Pdelay message of its own on a port. -/
def pdelaySend (s : State) (n kind seq : Nat) (body : List Byte) : State :=
  s.sendFrame n (s.pdelayOut n kind seq body) (some (4 + n, kind, seq % 65536))

/-- PTP_PDELAY_RECEIVE: a request is answered in one step, a response gives the port's peer delay. -/
def pdelayIn (s : State) (port : Nat) (request : Bool) (src seq : Nat) (m : Int) : State :=
  let runs (i : Nat) : Bool := (s.ptp i).running && (s.ptp i).p2p && (s.ptp i).port == port
  if !(s.fget Reg.TimeTcCtrl.tcMode == 2 || [0, 1, 2, 3].any runs) then s
  else if request then
    match [0, 1, 2, 3].find? runs with
    | some i => s.ptpSend i 3 seq 0 0x7F (List.replicate 10 0 ++ beBytes 10 src) true
    | none => s.pdelaySend port 3 seq (List.replicate 10 0 ++ beBytes 10 src)
  else
    [0, 1, 2, 3].foldl (fun s i => if runs i && decide (8 ≤ s.ptpState i) then s.delaySample i m else s)
      { s with peerDelay := s.peerDelay.set port m }

/-! ### What an instance sends (R276, R278, R283) -/

/-- R283: the flag octets and the body of an Announce. -/
def announceFlags (s : State) : Nat := 8 + s.fget Reg.TimeGmUtc.leap61 + s.fget Reg.TimeGmUtc.leap59 * 2 + s.fget Reg.TimeGmUtc.utcValid * 4
def announceBody (s : State) (i : Nat) : List Byte :=
  let a := s.ownData i
  ptpStamp (s.ptp i).base ++ beBytes 2 a.utcOffset ++ [0] ++ beBytes 1 a.priority1 ++ beBytes 1 a.clockClass ++ beBytes 1 a.accuracy ++
    beBytes 2 a.variance ++ beBytes 1 a.priority2 ++ beBytes 8 a.gmId ++ beBytes 2 0 ++ beBytes 1 (s.gmQuality (s.ptp i)).2.2

/-- PTP_ANNOUNCE_SEND. -/
def announceOut (s : State) (i : Nat) : State :=
  let x := s.ptp i
  if s.ptpState i ≠ 6 ∨ s.free < x.annNext then s
  else
    (s.putPtp i { x with annSeq := x.annSeq + 1, annNext := s.free + x.annRaw }).ptpSend i 0xB x.annSeq s.announceFlags (x.logOf 24 1 (-2))
      (s.announceBody i) false

/-- PTP_SYNC_SEND: one-step, or two-step, whose Follow_Up is sent as it leaves. -/
def syncOut (s : State) (i : Nat) : State :=
  let x := s.ptp i
  if s.ptpState i ≠ 6 ∨ s.free < x.syncNext then s
  else
    (s.putPtp i { x with syncSeq := x.syncSeq + 1, syncNext := s.free + x.syncRaw }).ptpSend i 0 x.syncSeq
      (x.cfgF (Reg.TimePtpCfg.twoStep i) * 512) (x.logOf 16 0 (-3)) (List.replicate 10 0) true

/-- PTP_DELAY_REQ_SEND. -/
def delayReqOut (s : State) (i : Nat) : State :=
  let x := s.ptp i
  if s.ptpState i < 8 ∨ s.free < x.reqNext then s
  else
    (s.putPtp i { x with reqSeq := x.reqSeq + 1, reqNext := s.free + x.delayRaw }).ptpSend i (if x.p2p then 2 else 1) x.reqSeq 0 0x7F
      (List.replicate (if x.p2p then 20 else 10) 0) true

/-- PTP_DELAY_REQ_RECEIVE: a master answers with the time stamp of the request. -/
def delayRespOut (s : State) (i src seq sub : Nat) : State :=
  let x := s.ptp i
  if s.ptpState i = 6 ∧ !x.p2p then s.ptpSend i 9 seq 0 (x.logOf 8 0 (-3)) (ptpStamp (s.ingressTime i sub) ++ beBytes 10 src) false else s

/-- R286: in P2P mode the switch measures the peer delay of every port that carries PTP, at `log_pdelay`. -/
def pdelayTick (s : State) : State :=
  if s.fget Reg.TimeTcCtrl.tcMode ≠ 2 ∨ s.free < s.pdelayNext then s
  else
    ((List.range 50).filter s.linkUp).foldl (fun s n => s.pdelaySend n 2 s.pdelaySeq (List.replicate 20 0))
      { s with pdelayNext := s.free + logRaw (signed 8 (s.fget Reg.TimeTcCtrl.logPdelay)), pdelaySeq := (s.pdelaySeq + 1) % 65536 }

/-! ### Enable (R272, R275, R277, R281) -/

/-- R277: `enable` changes from 0 to 1, or falls. -/
def ptpEnable (s : State) (i : Nat) (on : Bool) : State :=
  let x := s.ptp i
  let s := s.fsetB (Reg.TimePtpCfg.enable i) on
  if on = x.running then s
  else if !on then
    let s := (s.putPtp i { x with running := false, parent := none, foreign := [], good := 0, d := none, two := none, req := none }).setPtp i 3
    if s.axisState i = 2 ∨ s.axisState i = 3 then s.relockAxis i else s
  else
    let y : PtpSt := { running := true, cfg := s.reg (Reg.timePtpCfg i), intv := s.reg (Reg.timePtpIntv i), prio := s.reg (Reg.timePtpPrio i),
                       started := true, base := if x.started then x.base else 0, acc := x.acc, r := x.r, integ := x.integ, gm := x.gm,
                       tod := x.tod, lastAnn := s.free, lastSync := s.free, annSeq := x.annSeq, syncSeq := x.syncSeq, reqSeq := x.reqSeq }
    let clash := [0, 1, 2, 3].any fun j => j != i && (s.ptp j).running && (s.ptp j).port == y.port &&
      (s.ptp j).cfgF (Reg.TimePtpCfg.domain 0) == y.cfgF (Reg.TimePtpCfg.domain 0)
    let s := (s.putPtp i y).setPtp i 1
    s.setPtp i (if clash then 2 else 4)

/-- R276: a message is discarded. -/
def ptpDiscard (s : State) (i : Nat) : State := (s.bump (Reg.timePtpMsgErr i)).fset (Reg.TimePtpStatus.msgErr i) 1

/-! ### Pulse and 10 MHz references (R274, R282, R284, R289) -/

/-- R295: an event of `ten_m_lock` or `pps_valid` as they now read. -/
def refEvent (s : State) : State :=
  (s.rootEvent 0x60000 0x0841 0 [BitVec.ofNat 8 (s.fget Reg.TimeStatus.tenMLock + 2 * s.fget Reg.TimeStatus.ppsValid)]).attnTime

/-- R284: an instance's time base takes a time of day. -/
def setTime (s : State) (i sec : Nat) : State :=
  let b : Int := (sec * second : Nat)
  let s := s.putPtp i { s.ptp i with base := b, acc := 0, tod := true, todAt := none, good := 0 }
  (s.stepAxis i b.toNat).masterLock i

/-- PPS_IN_EDGE: the input is valid after three edges 1 s apart, and from then on an edge 1 s after another is valid; a valid edge sets a
pending time of day and feeds each grandmaster that follows the pulse. -/
def ppsIn (s : State) : State :=
  let gap := s.free - s.ppsLast
  let near : Bool := decide (s.ppsRun ≠ 0 ∧ second ≤ gap + 65536000 ∧ gap ≤ second + 65536000)
  let s := { s with ppsLast := s.free, ppsRun := if near then s.ppsRun + 1 else 1 }
  if !near || !s.ppsOk && decide (s.ppsRun < 3) then s
  else
    let s := if s.ppsOk then s else (s.fset Reg.TimeStatus.ppsValid 1).refEvent
    let s := { s with ppsLostAt := none, ppsGood := s.free }
    [0, 1, 2, 3].foldl (fun s i =>
      let x := s.ptp i
      let s := match x.todAt with | some t => s.setTime i t | none => s
      let x := s.ptp i
      if s.ptpState i = 6 ∧ x.gmPps then
        let edge := x.base - signed 32 (s.regN Reg.calTbPhase) * 65536 / 1000
        let whole := (edge + (second / 2 : Nat)) / (second : Int) * (second : Int)
        (s.servo i (edge - whole) second).masterLock i
      else s) s

/-- PPS_LOST: 2 s without a valid edge. -/
def ppsLose (s : State) : State :=
  if !s.ppsOk || decide (s.free < s.ppsGood + 2 * second) then s
  else
    let s := { s.fset Reg.TimeStatus.ppsValid 0 with ppsRun := 0, ppsLostAt := some s.free }
    let s := (s.flag Reg.TimeStatus.ppsLost 0).attnTime
    [0, 1, 2, 3].foldl (fun s i => if s.ptpState i = 6 ∧ (s.ptp i).gmPps then s.ptpHoldover i else s) s

/-- SET_TOD (R284). -/
def setTod (s : State) (i : Nat) (atPps : Bool) : State :=
  let st := s.ptpState i
  if !(st == 6 || st == 7) || atPps && !s.ppsOk then s.fset Reg.TimeStatus.gmRefused 1
  else
    let sec := s.regN Reg.timeGmSecLo + 2 ^ 32 * s.fget Reg.TimeGmSecHi.sec
    if atPps then s.putPtp i { s.ptp i with todAt := some sec } else s.setTime i sec

/-- PPS_OUT_EDGE (R288, R289): the output rises within 8 ns of a whole second. -/
def ppsOutEdge (s : State) : State :=
  let c := s.fget Reg.TimeCtrl.ppsOutSrc
  let n := if c = 4 then 17 else c
  if c ≤ 4 ∧ s.hasPos n ∧ s.axisPos n % second ≤ 524288 ∧ s.ppsOut ≠ some (s.axisPos n / second) then
    { s with ppsOut := some (s.axisPos n / second) }.emit .pps
  else s

/-- R274: the reference locks to REF_10M_IN. -/
def tenMLocks (s : State) : State :=
  if s.fbit Reg.TimeCtrl.tenMInEn && !s.fbit Reg.TimeStatus.tenMLock then (s.fset Reg.TimeStatus.tenMLock 1).refEvent else s

/-- R274: REF_10M_IN is lost. -/
def tenMLoses (s : State) : State :=
  if !s.fbit Reg.TimeCtrl.tenMInEn then s
  else
    let was := s.fbit Reg.TimeStatus.tenMLock
    let s := (s.fset Reg.TimeStatus.tenMLock 0).flag Reg.TimeStatus.tenMLost 0
    if was then s.attnTime else s

end State

/-- R272, R273: one fabric cycle of a time base; its LOCKED axis holds the same position. -/
def ptpTick (s : State) (i : Nat) : State :=
  let x := s.ptp i
  if !x.started then s
  else
    let sum := x.acc + x.adv
    let b := x.base + (sum / 2 ^ 32 : Nat)
    let s := s.putPtp i { x with base := b, acc := sum % 2 ^ 32 }
    if s.axisState i = 2 then s.setAxis i { s.axis i with pos := b.toNat, acc := sum % 2 ^ 32 } else s

/-! ### Meanings -/

/-- PTP_ENABLE (R272, R275, R277, R281). -/
def execPtpEnable (i : Fin 4) (on : Bool) (s : State) : Host.Outcome State Fault Refusal := act s fun s => s.ptpEnable i on

/-- PTP_ANNOUNCE_RECEIVE (R276, R280, R281, R295). -/
def execPtpAnnounceReceive (i : Fin 4) (a : PtpAnnounce) (s : State) : Host.Outcome State Fault Refusal := act s fun s => s.announceIn i a

/-- PTP_SYNC_RECEIVE (R278, R279, R281, R287). -/
def execPtpSyncReceive (i : Fin 4) (m : PtpEvent) (sub : Nat) (s : State) : Host.Outcome State Fault Refusal :=
  act s fun s => s.syncIn i m sub

/-- PTP_FOLLOW_UP_RECEIVE (R278). -/
def execPtpFollowUpReceive (i : Fin 4) (m : PtpEvent) (s : State) : Host.Outcome State Fault Refusal := act s fun s => s.followIn i m

/-- PTP_DELAY_RESP_RECEIVE (R278). -/
def execPtpDelayRespReceive (i : Fin 4) (seq : Nat) (t4 corr : Int) (s : State) : Host.Outcome State Fault Refusal :=
  act s fun s => s.delayRespIn i seq t4 corr

/-- PTP_DELAY_REQ_RECEIVE (R276, R287): a master answers with the time stamp of the request. -/
def execPtpDelayReqReceive (i : Fin 4) (src : PtpSource) (sub : Nat) (s : State) : Host.Outcome State Fault Refusal :=
  act s fun s => s.delayRespOut i src.id src.seq sub

/-- PTP_PDELAY_RECEIVE (R278, R286). -/
def execPtpPdelayReceive (port : Fin 50) (request : Bool) (src : PtpSource) (sample : Int) (s : State) : Host.Outcome State Fault Refusal :=
  act s fun s => s.pdelayIn port request src.id src.seq sample

/-- PTP_MESSAGE_DISCARD (R276). -/
def execPtpMessageDiscard (i : Fin 4) (s : State) : Host.Outcome State Fault Refusal := act s fun s => s.ptpDiscard i

/-- PTP_ANNOUNCE_SEND (R283). -/
def execPtpAnnounceSend (i : Fin 4) (s : State) : Host.Outcome State Fault Refusal := act s fun s => s.announceOut i

/-- PTP_SYNC_SEND (R276). -/
def execPtpSyncSend (i : Fin 4) (s : State) : Host.Outcome State Fault Refusal := act s fun s => s.syncOut i

/-- PTP_DELAY_REQ_SEND (R278). -/
def execPtpDelayReqSend (i : Fin 4) (s : State) : Host.Outcome State Fault Refusal := act s fun s => s.delayReqOut i

/-- PTP_ANNOUNCE_TIMEOUT (R280, R281). -/
def execPtpAnnounceTimeout (i : Fin 4) (s : State) : Host.Outcome State Fault Refusal := act s fun s => s.announceLate i

/-- PTP_SYNC_TIMEOUT (R280, R281). -/
def execPtpSyncTimeout (i : Fin 4) (s : State) : Host.Outcome State Fault Refusal := act s fun s => s.syncLate i

/-- PPS_IN_EDGE (R279, R282, R284). -/
def execPpsInEdge (s : State) : Host.Outcome State Fault Refusal := act s fun s => s.ppsIn

/-- PPS_LOST (R281, R282, R295). -/
def execPpsLost (s : State) : Host.Outcome State Fault Refusal := act s fun s => s.ppsLose

/-- SET_TOD (R284, R285). -/
def execSetTod (i : Fin 4) (atPps : Bool) (s : State) : Host.Outcome State Fault Refusal := act s fun s => s.setTod i atPps

/-- PPS_OUT_EDGE (R289). -/
def execPpsOutEdge (s : State) : Host.Outcome State Fault Refusal := act s fun s => s.ppsOutEdge

/-- OCXO_READY (R274). -/
def execOcxoReady (s : State) : Host.Outcome State Fault Refusal := act s fun s => s.fset Reg.TimeStatus.ocxoReady 1

/-- TEN_M_LOCK (R274, R295). -/
def execTenMLock (s : State) : Host.Outcome State Fault Refusal := act s fun s => s.tenMLocks

/-- TEN_M_LOSS (R274, R295). -/
def execTenMLoss (s : State) : Host.Outcome State Fault Refusal := act s fun s => s.tenMLoses

end Sys2Proof.Machine
end

