-- ==== Sys2Proof/Machine/Read.lean ====
section
/-! DEFINITION. What a read of a register returns, apart from what the read does (R3, R54, R381, R383). -/

namespace Sys2Proof.Machine

/-- The address is at `base + i * stride` for some `i < n`. -/
def atIdx (base stride n a : Nat) : Bool := decide (base ≤ a) && (a - base) % stride == 0 && decide ((a - base) / stride < n)

/-- The upper words that a read of the root register at `a` latches (R54, R221, R294, R327, R362, R412, R441, R442). -/
def latchRoot (a : Nat) : Nat :=
  if atIdx (Reg.axisPosLo 0) 0x40 18 a || atIdx (Reg.lifeUpdActLo 0) 0x10 3 a then 2
  else if a == Reg.axisEpochCntLo || a == Reg.cmpLastSeqLo || a == Reg.cmpAgreeLo || a == Reg.recSetGenLo || a == Reg.chkEccLastLo ||
    atIdx (Reg.timePtpGmidLo 0) 0x100 4 a || atIdx 0x100020 0x100 58 a || atIdx 0x100028 0x100 58 a ||
    atIdx 0x120030 0x80 8 a || atIdx 0x120038 0x80 8 a || atIdx 0x90010 0x40 128 a then 1
  else 0

/-- The upper words that a read of a trunk register latches, by its offset (R54, R138, R167, R203, R362, R412). -/
def latchTrunk (o : Nat) : Nat :=
  if atIdx 0x6003C 0x100 8 o then 2
  else if atIdx 0x40104 0x10 8 o || atIdx 0x5080C 0x20 8 o || atIdx 0xB0010 0x40 64 o || atIdx 0xC0030 0x80 16 o || atIdx 0xC0038 0x80 16 o || o == 0xC100C then 1
  else 0

/-- The upper words that a read of `a` latches. -/
def latchSpan (a : Nat) : Nat := if a < 0x1000000 then latchRoot a else if a < 0x3000000 then latchTrunk (a % 0x1000000) else 0

/-- An upper word returns what its `_LO` word's read latched. -/
def isLatched (a : Nat) : Bool := decide (1 ≤ latchSpan (a - 4)) || latchSpan (a - 8) == 2

/-- The trunk of a trunk register address. -/
def trunkOf (a : Nat) : Trunk := if a < 0x2000000 then .a else .b

/-- The number of the queue block whose registers begin at a block base, by its place. -/
def qbAt (a : Nat) : Nat := if a < 0x1000000 then (a - 0x90000) / 0x40 else 1000 * (a / 0x1000000) + (a % 0x1000000 - 0xB0000) / 0x40

namespace State

/-- R53: an axis governs a canvas or an output, or is the epoch axis. -/
def governing (s : State) (n : Nat) : Bool :=
  s.seed.isSome &&
    (n == s.sd.epochAxis || (List.range s.canvasCount).any (fun c => s.sd.cadAxis (canvasCadence (s.canvasRec c)) == n) ||
      s.portIdxs.any (fun i => portCadence (s.portRec i) != 0xFF && s.sd.cadAxis (portCadence (s.portRec i)) == n) || s.governsRaster n)

/-- R441: seconds of a confirm window left, rounded up. -/
def windowLeft (s : State) (cls : Nat) : Nat := match s.upd.confirmEnd.find? cls with | some e => (e - s.free + second - 1) / second | none => 0

/-- A word with one field replaced. -/
def withField (w : Nat) (f : Field) (v : Nat) : Nat := setBits w f.lo f.len v

/-- R223, R247, R271: the block of an Ethernet port, a DMX512 port or a sap line that `PORTS` does not name. -/
def portAbsent (s : State) (a : Nat) : Bool :=
  if 0x100000 ≤ a ∧ a < 0x100000 + 58 * 0x100 then (s.ethRec? ((a - 0x100000) / 0x100)).isNone
  else if a / 0x10000 = 0xC then (s.dmxRec? (a % 0x10000 / 0x40)).isNone
  else if a / 0x10000 = 0xD then (s.sapRec? (a % 0x10000 / 0x100)).isNone
  else false

/-- R150, R153, R167: a register of a layer that reads 0: that of an input-fed layer's surface, or of a canvas of the other trunk. -/
def layerBlind (s : State) (t : Trunk) (off : Nat) : Bool :=
  let n := (off - 0x51000) / 0x40
  decide (n < s.layerCount) &&
    (s.redundancy == 2 && !s.canvasIn t (s.ownCanvas (layerCanvas (s.layerRec n))) ||
      s.layerInput n && decide (0x10 ≤ off % 0x40) && decide (off % 0x40 ≤ 0x24))

/-- The root register at `a` as it stands now: some follow what they report. -/
def liveRoot (s : State) (a : Nat) : Nat :=
  let w := s.regN a
  if s.portAbsent a then 0
  else if a < 0x10000 then (if a = Reg.treeSafeStatus then withField w Reg.TreeSafeStatus.rootPacker s.rootPacks.toNat else w)
  else if a < 0x50000 then
    if 0x40100 ≤ a ∧ a < 0x40100 + 18 * 0x40 then
      let n := (a - 0x40100) / 0x40
      let o := (a - 0x40100) % 0x40
      if o = 4 then withField w (Reg.AxisStatus.governing n) (s.governing n).toNat
      else if 8 ≤ o ∧ o ≤ 0x10 then s.posWords n / 2 ^ (32 * ((o - 8) / 4)) % 2 ^ 32
      else w
    else w
  else if a < 0x90000 then
    if a = Reg.cmpStatus then
      let t := s.sd.latchWindow * second
      withField w Reg.CmpStatus.foRecent (min 3 (s.twin.foTimes.filter (fun x => decide (s.free ≤ x + t))).length)
    else w
  else if a < 0xA0000 then (if a % 0x40 = 0x14 then (s.qb (qbAt a)).ptrR else w)
  else if a < 0x120000 then
    if atIdx (Reg.dmxStatus 0) 0x40 16 a then
      let n := (a - Reg.dmxStatus 0) / 0x40
      withField w (Reg.DmxStatus.rxValid n) (match (s.dmxSt n).rxLast with | some t => (decide (s.free ≤ t + 1250000000 * 65536)).toNat | none => 0)
    else w
  else if a < 0x130000 then
    if atIdx 0x12000C 0x80 8 a then setBits w 30 1 (s.chkBusy none ((a - 0x12000C) / 0x80)).toNat else w
  else if a = Reg.lifeUpdWindow then s.windowLeft 2 * 65536 + s.windowLeft 1
  else if a = Reg.psuPin then Config.unstated 479 (a + s.free * 2 ^ 32) % 2 ^ 16
  else if a = Reg.psuAux then Config.unstated 479 (a + s.free * 2 ^ 32) % 2 ^ 32
  else w

/-- The trunk register at `a` as it stands now. -/
def liveTrunk (s : State) (a : Nat) : Nat :=
  let w := s.regN a
  let t := trunkOf a
  let o := a % 0x1000000
  if 0x58000 ≤ o ∧ o < 0x60000 then
    let c (k : Nat) : Nat := unsigned 16 (scalerCoef ((o - 0x58000) / 0x400 + 2) ((o - 0x58000) % 0x400 / 0x10) k)
    c (o % 0x10 / 4 * 2) + 65536 * c (o % 0x10 / 4 * 2 + 1)
  else if 0x51000 ≤ o ∧ o < 0x51800 then (if s.layerBlind t o then 0 else w)
  else if 0x60000 ≤ o ∧ o < 0x60800 then (if s.redundancy = 2 ∧ (s.rastRec? t ((o - 0x60000) / 0x100)).isNone then 0 else w)
  else if atIdx 0x80080 4 32 o || atIdx 0x80180 4 32 o then s.regN (a - 0x80)
  else if 0xB0000 ≤ o ∧ o < 0xC0000 then (if o % 0x40 = 0x14 then (s.qb (qbAt a)).ptrR else w)
  else if atIdx 0xC000C 0x80 16 o then setBits w 30 1 (s.chkBusy (some t) ((o - 0xC000C) / 0x80)).toNat
  else w

/-- R383: an address in a trunk's own range or the twin alias, as the registers it reaches for a read: none where a closed
trunk or no trunk answers. -/
def readAddr (s : State) (a : Nat) : Option Nat :=
  if a < 0x1000000 then some a
  else if a < 0x3000000 then (if s.trunkClosed (trunkOf a) then none else some a)
  else if a < 0x4000000 then (if s.noTrunk then none else some (trunkBase s.activeTrunk + a % 0x1000000))
  else none

/-- The register at its own address as a read returns it. -/
def liveValue (s : State) (a : Nat) : Nat :=
  if (regRow a).isNone then 0 else if a < 0x1000000 then s.liveRoot a else s.liveTrunk a

/-- R3, R54, R381, R383: what a read of the register at `a` returns. -/
def regValue (s : State) (a : Nat) : Nat :=
  match s.readAddr a with
  | none => 0
  | some b => if isLatched b then (s.latch.get 0 b).toNat else s.liveValue b

end State

end Sys2Proof.Machine
end

