-- ==== Sys2Proof/Machine/Record.lean ====
section
/-! DEFINITION. The ring record: events, freeze slots and snapshots, and the memory its window shows (R435 to R439, R442,
R480). -/

namespace Sys2Proof.Machine

/-- The addresses of a register kind: every index of its ranges. -/
def rowAddrs : List (Nat × Nat) → Nat → List Nat
  | [], a => [a]
  | (cnt, stride) :: r, a => (List.range cnt).flatMap fun i => rowAddrs r (a + i * stride)

/-- Every occupied register of the root and of both trunk ranges, in ascending order (R438). -/
def occupied : List Nat :=
  let asc (l : List Nat) : List Nat := l.mergeSort (fun a b => a ≤ b)
  let rows (f : Nat → List RegRow) (base : Nat) : List Nat := (List.range 256).flatMap fun b => asc ((f b).flatMap fun r => rowAddrs r.dims (base + r.off))
  let trunk (base : Nat) : List Nat := asc (rows trunkRows base ++ rowAddrs trkPintRow.dims (base + trkPintRow.off))
  rows rootRows 0 ++ trunk 0x1000000 ++ trunk 0x2000000

/-- R436: an event record, `flags` given; `crc` folds the event's byte offset in the ring record. -/
def eventBytes (index flags : Nat) (e : Event) : List Byte :=
  let b := leBytes 4 index ++ leBytes 2 (e.die % 16 * 4096 + e.block % 4096) ++ leBytes 2 e.code ++ leBytes 8 e.freeNs ++
    [BitVec.ofNat 8 e.axis, BitVec.ofNat 8 e.cls] ++ leBytes 2 flags ++ leBytes 12 e.pos ++ (e.args ++ List.replicate 28 0).take 28
  b ++ leBytes 4 (crc32c (leBytes 8 (index % 131072 * 64) ++ b))

namespace State

/-- R442: bit `k` of `frozen`. -/
def slotFrozen (s : State) (k : Nat) : Bool := getBits (s.fget Reg.RecStatus.frozen) k 1 == 1

/-- The segment of slot `k`: its first and last index. -/
def segment (s : State) (k : Nat) : Nat × Nat := (s.ring.segStart.get 0 k, s.regN (Reg.recSlotEnd k))

/-- The slots of events of a segment. -/
def inSegment (p : Nat × Nat) (i : Nat) : Bool := decide ((i + 131072 - p.1 % 131072) % 131072 ≤ p.2 - p.1)

/-- R439: the next index past every frozen segment. Four segments leave half the ring. -/
def skipFrozen : Nat → State → Nat → Nat
  | 0, _, i => i
  | n + 1, s, i =>
    match (List.range 4).find? (fun k => s.slotFrozen k && inSegment (s.segment k) (i % 131072)) with
    | some k => skipFrozen n s (i + ((s.segment k).2 - (s.segment k).1) + 1 - (i + 131072 - (s.segment k).1 % 131072) % 131072)
    | none => i

/-- R438: an event that triggers a freeze. -/
def triggers (e : Event) : Bool := e.cls == 3 || e.cls == 4 || e.trig || e.code == 0x0220

/-- R438: the snapshot: address and value of every occupied register, up to 1 MiB. -/
def snapshot (s : State) : List Byte := (occupied.take 131072).flatMap fun a => leBytes 4 a ++ leBytes 4 (s.regValue a)

/-- R438: the first index of a segment triggered at `t`. -/
def segFrom (s : State) (t : Nat) : Nat :=
  let ends := (List.range 4).filter (fun k => s.slotFrozen k && decide ((s.segment k).2 < t))
  ends.foldl (fun a k => max a ((s.segment k).2 + 1)) (t - 12287)

/-- R438: a trigger at index `t` opens a free slot. -/
def openSlot (s : State) (k t : Nat) : State :=
  let s := (s.fset Reg.RecStatus.openF 1).fset Reg.RecStatus.openSlot k
  let s := (s.setRegN (Reg.recSlotTrig k) t).setRegN (Reg.recSlotEnd k) (t + 4096)
  { s with ring.segStart := s.ring.segStart.set k (s.segFrom t), ring.snaps := s.ring.snaps.set k s.snapshot }

/-- R438: the open segment freezes at its end. -/
def freezeOpen (s : State) : State :=
  let k := s.fget Reg.RecStatus.openSlot
  let s := (s.fset Reg.RecStatus.openF 0).fset Reg.RecStatus.frozen (setBits (s.fget Reg.RecStatus.frozen) k 1 1)
  (s.fset Reg.RecStatus.freezeDone 1).attnRecord

/-- R436 to R439: the oldest event of the queue is written. -/
def recordNext (s : State) : State :=
  match s.events with
  | [] => s
  | e :: r =>
    if !s.fbit Reg.TreeReady.record then s
    else
      let i := skipFrozen 4 s (s.regN Reg.recHead)
      let open_ := s.fbit Reg.RecStatus.openF
      let free := (List.range 4).find? (fun k => !s.slotFrozen k && !(open_ && s.fget Reg.RecStatus.openSlot == k))
      let trig := triggers e
      let opens := trig && !open_ && free.isSome
      let flags := opens.toNat + 2 * (trig && open_).toNat + 4 * e.host.toNat + 8 * s.ring.lost.toNat
      let s := { s with events := r, ring.lost := false, ring.events := s.ring.events.set (i % 131072) (eventBytes i flags e) }
      let s := s.setRegN Reg.recHead (i + 1)
      let s := match opens, free with
        | true, some k => s.openSlot k i
        | _, _ => if trig && !open_ then (s.bump Reg.recMissedCnt).fset Reg.RecStatus.missed 1 else s
      if s.fbit Reg.RecStatus.openF && decide (s.regN (Reg.recSlotEnd (s.fget Reg.RecStatus.openSlot)) ≤ i) then s.freezeOpen else s

/-- R438: a write of `freeze`. The code of its event is stated nowhere. -/
def recFreeze (s : State) : State :=
  s.pushEvent { die := 0, block := 0x160, code := Config.unstated 438 0 % 2 ^ 16, host := true, trig := true }

/-- R439: a write of `thaw` for slot `k`. -/
def recThaw (s : State) (k : Nat) : State :=
  if !s.slotFrozen k then s
  else { s.fset Reg.RecStatus.frozen (setBits (s.fget Reg.RecStatus.frozen) k 1 0) with ring.snaps := s.ring.snaps.erase k }

/-- R435: the byte at an offset of the ring record. -/
def ringByte (s : State) (o : Nat) : Byte :=
  if o < 0x800000 then (s.ring.events.get [] (o / 64)).getD (o % 64) 0
  else if o < 0xC00000 then (s.ring.snaps.get [] ((o - 0x800000) / 0x100000)).getD (o % 0x100000) 0
  else if o < 0xE00000 then (s.ring.setSlots.get [] ((o - 0xC00000) / 0x100000)).getD (o % 0x100000) 0
  else s.ring.safetyImage.getD (o - 0xE00000) 0

/-- `n` bytes of the ring record from an offset. -/
def ringRead (s : State) (o n : Nat) : List Byte := (List.range n).map fun i => s.ringByte (o + i)

end State

/-- EVENT_RECORD_WRITE (R436 to R439, R480). -/
def execEventRecordWrite (s : State) : Host.Outcome State Fault Refusal := act s fun s => s.recordNext

/-- REC_FREEZE (R438, R442). -/
def execRecFreeze (s : State) : Host.Outcome State Fault Refusal := act s fun s => s.recFreeze

/-- REC_THAW (R439, R442). -/
def execRecThaw (k : Fin 4) (s : State) : Host.Outcome State Fault Refusal := act s fun s => s.recThaw k

end Sys2Proof.Machine
end

