-- ==== Sys2Proof/Machine/Settings.lean ====
section
/-! DEFINITION. Settings generations in the ring record, what they hold, and their loading (R277, R294, R432 to R434, R441). -/

namespace Sys2Proof.Machine

/-- R433: the records of a body as (type, critical, value); none when one overruns it. -/
def settingsList : Nat → List Byte → Option (List (Nat × Bool × List Byte))
  | 0, l => if l.isEmpty then some [] else none
  | fuel + 1, l =>
    if l.isEmpty then some []
    else
      let n := u32 l 4
      if l.length < 8 ∨ l.length < 8 + (n + 7) / 8 * 8 then none
      else (settingsList fuel (l.drop (8 + (n + 7) / 8 * 8))).map ((u16 l 0, u8 l 2 % 2 == 1, slice l 8 n) :: ·)

/-- R433: the values of the owner-key records of a body. -/
def ownerKeys (b : List Byte) : List (List Byte) := (((settingsList b.length b).getD []).filter (fun r => r.1 == 0x100)).map (·.2.2)

/-- R433: a record as it stands in a body. -/
def settingBytes (type : Nat) (critical : Bool) (v : List Byte) : List Byte :=
  leBytes 2 type ++ [BitVec.ofNat 8 critical.toNat, 0] ++ leBytes 4 v.length ++ v ++ List.replicate ((8 - v.length % 8) % 8) 0

/-- R433, R446: a body with its owner key replaced, or taken out. -/
def withOwnerKey (b : List Byte) (key : Option (List Byte)) : List Byte :=
  let l := ((settingsList b.length b).getD []).filter (fun r => r.1 != 0x100)
  l.flatMap (fun r => settingBytes r.1 r.2.1 r.2.2) ++ (match key with | some k => settingBytes 0x100 true k | none => [])

/-- R432: a generation header and body for slot `k`; `state` is 1 SHADOW or 2 LIVE. -/
def generation (k gen state fw : Nat) (body : List Byte) : List Byte :=
  let h := [0x44, 0x47, 0x53, 0x54] ++ leBytes 2 1 ++ leBytes 2 0 ++ leBytes 8 gen ++ leBytes 4 body.length ++ [BitVec.ofNat 8 state, 0, 0, 0] ++
    leBytes 4 fw ++ List.replicate 32 0
  h ++ leBytes 4 (crc32c (leBytes 8 (0xC00000 + k * 0x100000) ++ h ++ body)) ++ body

/-- R432: the body of a slot's generation. -/
def genBody (g : List Byte) : List Byte := slice g 64 (u32 g 0x10)

/-- R432: the generation of slot `k` is valid. -/
def genValid (k : Nat) (g : List Byte) : Bool :=
  g.take 4 == [0x44, 0x47, 0x53, 0x54] && (u8 g 0x14 == 1 || u8 g 0x14 == 2) && decide (u32 g 0x10 ≤ 1048512) && decide (64 + u32 g 0x10 ≤ g.length) &&
    crc32c (leBytes 8 (0xC00000 + k * 0x100000) ++ g.take 0x3C ++ genBody g) == u32 g 0x3C

/-- R434: a generation that this firmware cannot read. -/
def genUnreadable (g : List Byte) : Bool :=
  decide (1 < u16 g 4) ||
    (((settingsList (genBody g).length (genBody g)).getD []).any fun r => r.2.1 && !(decide (1 ≤ r.1) && decide (r.1 ≤ 11) || r.1 == 0x100 && r.2.2.length == 32))

namespace State

def slotOf? (s : State) (k : Nat) : List Byte := s.ring.setSlots.get [] k

/-- R432: the valid slots of a state (1 SHADOW, 2 LIVE). -/
def slotsIn (s : State) (state : Nat) : List Nat := [0, 1].filter fun k => genValid k (s.slotOf? k) && u8 (s.slotOf? k) 0x14 == state

/-- R432: the slot of the live generation. -/
def liveSlot (s : State) : Option Nat :=
  match s.slotsIn 2 with
  | [k] => some k
  | [_, _] => some (if u64 (s.slotOf? 0) 8 < u64 (s.slotOf? 1) 8 then 1 else 0)
  | _ => none

/-- R428, R432: the running firmware awaits confirmation. -/
def fwConfirming (s : State) : Bool := !(s.upd.store.get ({} : ImgSlots) 1).confirmed

/-- R432: the slot of the generation in use: firmware awaiting confirmation reads its own shadow first. -/
def usedSlot (s : State) : Option Nat :=
  match (if s.fwConfirming then s.slotsIn 1 else []) with
  | k :: _ => some k
  | [] => s.liveSlot

/-- R432, R442: the generation in use becomes the settings in use. -/
def useSettings (s : State) : State :=
  let set (s : State) (body : List Byte) (gen : Nat) : State :=
    { s.setReg64 Reg.recSetGenLo Reg.recSetGenHi gen with settingsBody := body }
  let s := (s.fset Reg.RecSetStatus.liveSlot (s.liveSlot.getD 0)).fsetB Reg.RecSetStatus.defaults s.usedSlot.isNone
  match s.usedSlot with
  | some k => (set s (genBody (s.slotOf? k)) (u64 (s.slotOf? k) 8)).fsetB Reg.RecSetStatus.shadow (u8 (s.slotOf? k) 0x14 == 1)
  | none => (set s [] 0).fset Reg.RecSetStatus.shadow 0

/-- R432: a new generation of a state is written in the slot that is not live. -/
def writeGen (s : State) (state : Nat) (body : List Byte) : State :=
  let live := s.liveSlot
  let gen := match live with | some k => u64 (s.slotOf? k) 8 + 1 | none => 1
  let k := match live with | some k => 1 - k | none => 0
  let g := generation k gen state (s.regN Reg.lifeUpdFwVersion) body
  ({ s with ring.setSlots := s.ring.setSlots.set k g }).useSettings

/-- R432: a new body is written: LIVE by confirmed firmware, SHADOW by firmware awaiting confirmation. -/
def writeSettings (s : State) (body : List Byte) : State := s.writeGen (if s.fwConfirming then 1 else 2) body

/-- R430, R432, R446: the shadow generation becomes live, with a new owner key in the same write where there is one. -/
def shadowLive (s : State) (key : Option (List Byte)) : State :=
  let keyed (b : List Byte) : List Byte := match key with | some k => withOwnerKey b (some k) | none => b
  match s.slotsIn 1 with
  | k :: _ =>
    let g := s.slotOf? k
    ({ s with ring.setSlots := s.ring.setSlots.set k (generation k (u64 g 8) 2 (u32 g 0x18) (keyed (genBody g))) }).useSettings
  | [] => if key.isSome then s.writeGen 2 (keyed s.settingsBody) else s.useSettings

/-- R431, R432: the shadow generation is discarded. -/
def shadowDrop (s : State) : State := ({ s with ring.setSlots := (s.slotsIn 1).foldl (fun m k => m.erase k) s.ring.setSlots }).useSettings

/-- R446: the owner key of the settings in use. -/
def ownerKey (s : State) : Option (List Byte) := s.setting 0x100

/-! ### Loading (R433, R441) -/

/-- Registers take a register image, in ascending address order. -/
def loadImage (s : State) (addrs : List Nat) (v : List Byte) : State :=
  addrs.zipIdx.foldl (fun s x => match regRow x.1 with | some r => s.setRegN x.1 (r.write (s.regN x.1) (u32 v (4 * x.2))) | none => s) s

/-- R433: what a settings record loads at cold reset. -/
def loadRecord (s : State) (r : Nat × Bool × List Byte) : State :=
  match r.1 with
  | 4 => s.loadImage ((List.range 4).flatMap fun i => (List.range 5).map fun k => Reg.timePtpCfg i + 4 * k) r.2.2
  | 5 => s.loadImage [Reg.timeCtrl, Reg.timeTcCtrl, Reg.timeGmUtc, Reg.timeRefCtrl] r.2.2
  | 6 => s.loadImage [Reg.stemCtrl] r.2.2
  | 7 => s.loadImage ([Reg.graftCtrl] ++ (List.range 16).map Reg.graftAttr ++ (List.range 16).map Reg.graftTun) r.2.2
  | 10 =>
    let n := u16 r.2.2 0
    let s := if 30 ≤ n ∧ n ≤ 3600 then s.fset Reg.LifeUpdCtrl.fwConfirmS n else s
    s.fset Reg.LifeUpdCtrl.confirmHost (u8 r.2.2 2 % 2)
  | 11 => s.loadImage [Reg.treeSafeCtrl] r.2.2
  | _ => s

/-- R83, R433: the grove position in the settings. -/
def ownPosition (s : State) : Nat := match s.setting 1 with | some v => u8 v 0 | none => 0xFF

/-- R277, R294, R433, R441: settings are read at start; at a cold reset the registers they name take their values. -/
def loadSettings (s : State) (cold : Bool) : State :=
  let s := s.useSettings
  let s := { s with grovePos := s.ownPosition }
  if cold then ((settingsList s.settingsBody.length s.settingsBody).getD []).foldl loadRecord s else s

/-- R443, R446, R456: `LIFE_STATE` follows the fuses, SERVICE and the keys. -/
def lifeRefresh (s : State) : State :=
  let st := if s.life.fuse = 2 ∧ s.life.service then 3 else s.life.fuse
  let s := (s.fset Reg.LifeState.state st).fsetB Reg.LifeState.ownerKey (s.ownerKey.isSome && st != 4)
  (s.fsetB Reg.LifeState.keyPending s.life.pendKey.isSome).fsetB Reg.LifeState.tapFull (st != 2)

/-- R443: the life-cycle state in force. -/
def lifeState (s : State) : Nat := if s.life.fuse = 2 ∧ s.life.service then 3 else s.life.fuse

/-- R433: why a settings body is refused. -/
def settingsCode (s : State) (b : List Byte) : Nat :=
  if 1048512 < b.length ∨ (settingsList b.length b).isNone then 0x0221
  else if ownerKeys b ≠ ownerKeys s.settingsBody then 0x0222
  else 0

end State

/-- SETTINGS_READ (R422, R432): a `length` below the body is out of range. -/
def execSettingsRead (h : StemHdr) (length : Nat) (s : State) : Host.Outcome State Fault Refusal :=
  act s fun s => s.stemCmd h 0x110 length true (.settingsRead h length) fun s =>
    if length < s.settingsBody.length then s.done h 0x110 0x0104
    else s.reply h.chan h.tag 0x110 0 [] s.settingsBody false

/-- SETTINGS_WRITE (R395, R422, R432, R433). -/
def execSettingsWrite (h : StemHdr) (c : Chunk) (s : State) : Host.Outcome State Fault Refusal :=
  act s fun s => s.stemCmd h 0x111 c.data.length false (.settingsWrite h c) fun s =>
    s.chunkIn h 0x111 c fun b s =>
      let code := s.settingsCode b
      (if code = 0 then s.writeSettings b else s).done h 0x111 code

end Sys2Proof.Machine
end

