-- ==== Sys2Proof/Machine/Update.lean ====
section
/-! DEFINITION. The image store: staging, activation, confirmation and fallback of loaders, firmware and seeds, alone and in a grove
(R86, R88, R418 to R431, R434, R440, R441). -/

namespace Sys2Proof.Machine

/-! ### Images (R419) -/

/-- R419: a loader or firmware image with its signature taken as zeros. -/
def unsigned0 (img : List Byte) : List Byte := img.take 0x80 ++ List.replicate 64 0 ++ img.drop 0xC0

/-- R81, R419: the digest of an image of a class. -/
def imageDigest (cls : Nat) (img : List Byte) : List Byte := if cls = 2 then seedDigest img else sha256 (unsigned0 img)

/-- The Ouvanug key of R419; the spec gives no value. -/
def romKey : List Byte := leBytes 32 (Config.unstated 419 0)

/-- R419: the version of a loader or firmware; of the factory's own image, no bytes of which are given, an unstated one. -/
def imageVersion (cls : Nat) (img : List Byte) : Nat := if img = [] then Config.unstated 441 cls % 2 ^ 32 else u32 img 8

/-- R419: the envelope of a loader or firmware image holds. -/
def envelopeOk (cls : Nat) (img : List Byte) : Bool :=
  decide (256 ≤ img.length) && img.take 4 == (if cls = 0 then [0x44, 0x47, 0x4C, 0x44] else [0x44, 0x47, 0x46, 0x57]) && u8 img 4 == cls &&
    ofLe (slice img 5 3) == 0 && (cls == 1 || u32 img 0x0C == 0) && u64 img 0x10 == img.length && decide (4096 ≤ img.length) &&
    decide (img.length ≤ (if cls = 0 then 33554432 else 268435456)) && u32 img 0x1C == 0x416 && ofLe (slice img 0x20 96) == 0 && ofLe (slice img 0xC0 64) == 0

/-- R419: the signature of a loader or firmware image verifies. -/
def signatureOk (img : List Byte) : Bool := edVerify romKey (sha256 (unsigned0 img)) (slice img 0x80 64)

/-- R426: the UPDATE payload. -/
def updPayload (op cls code axis : Nat) (fallback : Bool) (pos : Nat) (digest : List Byte) : List Byte :=
  [BitVec.ofNat 8 op, BitVec.ofNat 8 cls] ++ beBytes 2 code ++ [BitVec.ofNat 8 axis, BitVec.ofNat 8 fallback.toNat, 0, 0] ++ beBytes 12 pos ++ [0, 0, 0, 0] ++
    (digest ++ List.replicate 32 0).take 32

namespace State

/-! ### The store and its registers (R418, R441) -/

def slots (s : State) (cls : Nat) : ImgSlots := s.upd.store.get {} cls

/-- R441: stage and run codes of a class. -/
def stageCode (s : State) (cls : Nat) : Nat :=
  match s.upd.armed.find? cls with
  | some a => if a.prepared then 3 else 2
  | none => (s.slots cls).lock.toNat
def runCode (s : State) (cls : Nat) : Nat :=
  if (s.upd.armed.find? cls).any (·.fallback) then 3
  else if !(s.slots cls).confirmed then 2
  else if cls = 2 ∧ (s.slots cls).run = [] then 0 else 1

/-- R441: the words of a digest. -/
def setDigest (s : State) (base : Nat) (d : List Byte) : State := (List.range 8).foldl (fun s w => s.setRegN (base + 4 * w) (u32 d (4 * w))) s

/-- R441: the registers follow the store and the armed activations. -/
def updRegs (s : State) : State :=
  let s := [0, 1, 2].foldl (fun s c =>
    let x := s.slots c
    let a := s.upd.armed.find? c
    let s := (s.setDigest (Reg.lifeUpdStaged c 0) (if x.lock then x.stagedDig else [])).setDigest (Reg.lifeUpdRun c 0) x.runDig
    let s := s.setReg96 (Reg.lifeUpdActLo c) (Reg.lifeUpdActMid c) (Reg.lifeUpdActHi c) (match a with | some a => a.pos | none => 0)
    s.fset (Reg.LifeUpdActAxis.axis c) (match a with | some a => a.axis | none => 0)) s
  let s := ((s.fset Reg.LifeUpdStatus.seedStage (s.stageCode 2)).fset Reg.LifeUpdStatus.seedRun (s.runCode 2)).fset Reg.LifeUpdStatus.fwStage (s.stageCode 1)
  let s := (s.fset Reg.LifeUpdStatus.fwRun (s.runCode 1)).fset Reg.LifeUpdStatus.loaderStage (s.stageCode 0)
  (s.setRegN Reg.lifeUpdFwVersion (imageVersion 1 (s.slots 1).run)).setRegN Reg.lifeUpdLoaderVersion (imageVersion 0 (s.slots 0).run)

def putSlots (s : State) (cls : Nat) (x : ImgSlots) : State := ({ s with upd.store := s.upd.store.set cls x }).updRegs
def putArmed (s : State) (cls : Nat) (a : Armed) : State := ({ s with upd.armed := s.upd.armed.set cls a }).updRegs
def disarm (s : State) (cls : Nat) : State := ({ s with upd.armed := s.upd.armed.erase cls }).updRegs

/-! ### Staging (R86, R88, R423) -/

/-- What a seed is validated against: the owner key in force, or the pending one that the header names (R446). -/
def seedEnv (s : State) (img : List Byte) : SeedEnv :=
  { firmware := s.regN Reg.lifeUpdFwVersion, lifeOk := s.lifeState == 2 || s.lifeState == 3, pos := s.grovePos,
    key := match s.life.pendKey with
      | some k => if slice img 0x40 32 = sha256 k then some k else s.ownerKey
      | none => s.ownerKey }

/-- R86: a seed is refused: result registers, event and ATTN_UPDATE. The event of an embedded seed carries what its own check
found (R80). -/
def seedRefused (s : State) (img : List Byte) (f : Nat × Nat × Nat) : State :=
  let g := if f.1 = 0x0461 then ((embeddedSeeds (parseSeed img)).findSome? (fun e => validateSafety (s.seedEnv e) e)).getD f else f
  let s := (s.fset Reg.TreeSeedResult.code f.1).fset Reg.TreeSeedSect.sect f.2.1
  let s := (s.setRegN Reg.treeSeedRec f.2.2).fset Reg.TreeSeedResult.done 1
  (s.rootEvent 0 f.1 0 (leBytes 2 g.1 ++ leBytes 2 g.2.1 ++ leBytes 4 g.2.2)).attnUpdate

/-- R419, R423: the code a loader or firmware image is refused with; 0 passes. -/
def imageCode (s : State) (cls : Nat) (img : List Byte) : Nat :=
  if !envelopeOk cls img then 0x0203
  else if !signatureOk img then 0x0204
  else if s.regN Reg.lifeUpdLoaderVersion < u32 img 0x18 then 0x0205
  else if cls = 1 ∧ s.seed.any (fun d => decide (u32 img 8 < u32 d.image 0x38)) then 0x0205
  else 0

/-- R423: an image that passed takes its slot and the lock. -/
def stageImage (s : State) (h : StemHdr) (cls : Nat) (img : List Byte) : State :=
  let x := s.slots cls
  if x.lock then s.reply h.chan h.tag 0x100 0x0201 (x.stagedDig.take 16) [] false
  else (s.putSlots cls { x with staged := img, stagedDig := imageDigest cls img, lock := true }).done h 0x100 0

/-- R423: the last byte of an image has arrived. -/
def stageTake (s : State) (h : StemHdr) (cls : Nat) (img : List Byte) : State :=
  if cls = 2 then
    match validateSeed (s.seedEnv img) img with
    | some f => (s.seedRefused img f).done h 0x100 f.1
    | none => ((s.fset Reg.TreeSeedResult.code 0).fset Reg.TreeSeedResult.done 1).stageImage h cls img
  else
    let code := s.imageCode cls img
    if code = 0 then s.stageImage h cls img else s.done h 0x100 code

/-! ### The grove (R426, R427) -/

/-- R83: the grove position of the seed master, and whether this tree is the master. -/
def masterPos (s : State) : Nat := match s.sd.groves.find? (fun g => u8 g 2 % 2 == 1) with | some g => u8 g 0 | none => 0xFF
def isMaster (s : State) : Bool := s.masterPos == s.grovePos
/-- The running seed is a grove seed. -/
def inGrove (s : State) : Bool := s.seed.isSome && s.sd.isGrove
/-- R427: every tree of the grove is in a list. -/
def allTrees (s : State) (l : List Nat) : Bool := s.sd.groves.all fun g => l.contains (u8 g 0)

/-- R426: an UPDATE message about an armed activation. -/
def sendUpd (s : State) (dst op cls code : Nat) (a : Armed) : State := s.sendGrove 0x20 dst (updPayload op cls code a.axis a.fallback a.pos a.digest)

/-- The command that armed an activation is answered, if it still waits. -/
def answerAct (s : State) (a : Armed) (code : Nat) : State :=
  match a.replyTo with
  | some (c, tag) => if s.stem.flights.any (fun f => f.chan == c && f.tag == tag) then s.reply c tag 0x101 code [] [] false else s
  | none => s

/-- Raw units that an axis takes for some time in 2^-16 ns, and for some ms. -/
def unitsFor (s : State) (n d : Nat) : Nat := if isTimeAxis n then d else (s.axis n).adv * (d / 163840) / 2 ^ 32
def msUnits (s : State) (n ms : Nat) : Nat := s.unitsFor n (ms * 1000000 * 65536)

/-- R427: the position less 100 ms is still to come, or just here. -/
def goInTime (s : State) (a : Armed) : Bool := decide (s.axisPos a.axis + s.msUnits a.axis 100 ≤ posRaw a.axis a.pos)

/-- R427: GO as soon as every tree has acknowledged. -/
def checkGo (s : State) (cls : Nat) : State :=
  match s.upd.armed.find? cls with
  | some a => if s.isMaster && !a.go && s.goInTime a && s.allTrees a.acks then (s.putArmed cls { a with go := true }).sendUpd 0xFF 4 cls 0 a else s
  | none => s

/-- R427: a tree has prepared, or the master has: it acknowledges. -/
def acknowledge (s : State) (cls : Nat) : State :=
  match s.upd.armed.find? cls with
  | some a =>
    if s.isMaster then (s.putArmed cls { a with acks := s.grovePos :: a.acks, acked := true }).checkGo cls
    else (s.putArmed cls { a with acked := true }).sendUpd s.masterPos 2 cls 0 a
  | none => s

/-! ### Arming (R420, R424) -/

/-- R424: axis and position of an activation; in a grove an axis that may carry the epochs. -/
def actPosition (s : State) (axis pos : Nat) : Bool :=
  decide (axis < 18) && s.sd.axisBound axis && canonical axis pos && (!s.inGrove || groveAxis s.sd false axis)

/-- R424: the code that refuses an activation of class 1 or 2; 0 passes. -/
def actCode (s : State) (cls axis pos : Nat) : Nat :=
  if (s.upd.armed.find? cls).isSome then 0x0209
  else if !(s.slots cls).confirmed then 0x020A
  else if !s.actPosition axis pos then 0x0208
  else 0

/-- R420, R421: the staged image is written at once: a loader over the alternate slot, firmware to a free slot. -/
def writeNow (s : State) (cls : Nat) : State :=
  let x := s.slots cls
  let y : ImgSlots := { x with staged := [], stagedDig := [], lock := false }
  s.putSlots cls (if cls = 0 then { y with prev := x.staged, prevDig := x.stagedDig }
    else { y with prev := x.run, prevDig := x.runDig, run := x.staged, runDig := x.stagedDig, confirmed := false })

/-- R420 to R427: IMAGE_ACTIVATE. -/
def activateCmd (s : State) (h : StemHdr) (cls axis pos : Nat) (digest : List Byte) : State :=
  let x := s.slots cls
  if 2 < cls then s.done h 0x101 0x0202
  else if s.fbit Reg.TreeReady.recovery && cls == 2 then s.done h 0x101 0x0210
  else if s.inGrove && !s.isMaster then s.done h 0x101 0x020C
  else if !x.lock then s.done h 0x101 0x0207
  else if digest.take 16 ≠ x.stagedDig.take 16 then s.attnUpdate.done h 0x101 0x0206
  else if s.fbit Reg.TreeReady.recovery || cls == 0 then (s.writeNow cls).done h 0x101 0
  else
    let code := s.actCode cls axis pos
    if code ≠ 0 then s.done h 0x101 code
    else
      let a : Armed := { axis := axis, pos := pos, digest := x.stagedDig, replyTo := some (h.chan.val, h.tag) }
      let s := s.putArmed cls a
      if s.inGrove then s.sendUpd 0xFF 1 cls 0 a else s

/-- R424: preparation completes. -/
def prepared (s : State) (cls : Nat) : State :=
  match s.upd.armed.find? cls with
  | none => s
  | some a => if a.prepared then s else
    let s := s.putArmed cls { a with prepared := true }
    if s.inGrove && !(a.fallback && a.go) then s.acknowledge cls else s

/-- An armed activation ends without a switch. -/
def actFails (s : State) (cls code : Nat) : State :=
  match s.upd.armed.find? cls with
  | none => s
  | some a => (s.disarm cls).answerAct a code

/-! ### The switch (R89, R425, R428, R429, R431) -/

/-- R425, R431: the slots after a switch: the staged image runs and awaits confirmation, or the previous one runs again. The image
that falls back stands in the staged slot, unless firmware staged since then holds it. -/
def switchSlots (s : State) (cls : Nat) (fallback : Bool) : State :=
  let x := s.slots cls
  let s := { s with upd.fellBack := s.upd.fellBack.filter (· != cls) }
  let y : ImgSlots := { x with run := x.prev, runDig := x.prevDig, prev := [], prevDig := [], confirmed := true }
  s.putSlots cls (if fallback then (if cls = 1 ∧ x.lock then y else { y with staged := x.run, stagedDig := x.runDig, lock := false })
    else { run := x.staged, runDig := x.stagedDig, prev := x.run, prevDig := x.runDig, confirmed := false })

/-- The image an activation switches to. -/
def nextImage (s : State) (cls : Nat) (a : Armed) : List Byte := if a.fallback then (s.slots cls).prev else (s.slots cls).staged

/-- R89, R415, R416: a seed comes in with both trunks loaded. -/
def seedIn (s : State) (d : Seed) (at_ : Option (Nat × Nat)) : State :=
  let s := s.activateSeed d at_
  (({ s with twin.loaded := [0, 1], upd.lastIll := s.free, upd.groveWell := [], upd.healthSent := false, upd.hostOk := s.upd.hostOk.filter (· != 2) }).readyCheck .a).readyCheck .b

/-- The tree epoch that is due: its axis and position. -/
def epochDue (s : State) : Option (Nat × Nat) :=
  if s.seed.isNone || s.twin.loaded.isEmpty then none
  else (s.pointDue 99 s.sd.epochCadence).map fun k => (s.epochAxis, s.sd.cadPos s.sd.epochCadence k)

/-- R89, R425, R429: the switch to a seed; a digest that differs from the staged one's refuses it with SEED_STORE (R86). -/
def switchSeed (s : State) (a : Armed) : State :=
  let img := s.nextImage 2 a
  if seedDigest img ≠ a.digest then s.actFails 2 0x0413
  else
    let d := parseSeed img
    let at_ := s.epochDue
    let s := ((s.disarm 2).switchSlots 2 a.fallback).seedIn d at_
    let s := { s with upd.confirmEnd := if a.fallback then s.upd.confirmEnd.erase 2 else s.upd.confirmEnd.set 2 (s.inSeconds d.confirmS) }
    s.answerAct a 0

/-- R425: the cores halt; guest cores resume with the next batch. -/
def switchFirmware (s : State) (a : Armed) : State :=
  let old := u32 (s.slots 1).run 0x0C
  let s := (s.disarm 1).switchSlots 1 a.fallback
  let s := { s with fwSwitch := true, upd.fwFormatOld := old, upd.fwFormat := u32 (s.slots 1).run 0x0C, upd.confirmEnd := s.upd.confirmEnd.erase 1, upd.hostOk := s.upd.hostOk.filter (· != 1) }
  let s := s.setReady Reg.TreeReady.firmware false
  let s := [Trunk.a, Trunk.b].foldl (fun s t => [0, 1].foldl (fun s c => if s.guestState t c = 1 then s.setGuestState t c 2 else s) s) s
  s.answerAct a 0

/-- R425: frames of the activation epoch are packed. -/
def packedAll (s : State) : Bool := [Trunk.a, Trunk.b].all fun t => !s.computes t || (s.trunk t).epochs.isEmpty

/-- R424: the first tree epoch at or after the position is here. A seed comes in at an epoch that is due, firmware after one was
taken; without a running seed the position alone counts. -/
def actReached (s : State) (cls : Nat) (a : Armed) : Bool :=
  let p := posRaw a.axis a.pos
  if s.seed.isNone || s.noTrunk then s.hasPos a.axis && decide (p ≤ s.axisPos a.axis)
  else if cls = 2 then s.hasPos a.axis && s.epochDue.any fun e => decide (p ≤ (if e.1 = a.axis then e.2 else s.axisPos a.axis))
  else decide (p ≤ s.capture.pos.getD a.axis 0) && s.packedAll

/-- R425 to R427: IMAGE_ACTIVATION. In a grove a tree without GO does not activate. -/
def imageActivation (s : State) (cls : Nat) : State :=
  match s.upd.armed.find? cls with
  | none => s
  | some a =>
    if !s.actReached cls a then s
    else if !a.prepared then s.actFails cls 0x020B
    else if s.inGrove && !a.go then s
    else if cls = 2 then s.switchSeed a
    else s.switchFirmware a

/-! ### Confirmation (R428 to R430) -/

/-- R428, R429: a host has confirmed, where the settings ask for it. -/
def hostConfirms (s : State) (cls : Nat) : Bool := !s.fbit Reg.LifeUpdCtrl.confirmHost || s.upd.hostOk.contains cls

/-- The confirm window of a class still runs (R40). -/
def inWindow (s : State) (cls : Nat) : Bool := !(s.slots cls).confirmed && (s.upd.confirmEnd.find? cls).any (fun e => decide (s.free < e))

/-- R434: the settings in use are readable by this firmware. -/
def settingsReadable (s : State) : Bool := match s.usedSlot with | some k => !genUnreadable (s.slotOf? k) | none => true

/-- R428: firmware has proved itself. -/
def fwHealthy (s : State) : Bool :=
  s.settingsReadable && s.fbit Reg.TreeReady.firmware && s.hostConfirms 1 &&
    [Trunk.a, Trunk.b].any (fun t => s.inService t && (s.upd.trunkUp.find? t.idx).any (fun u => decide (u + 10 * second ≤ s.free)))

/-- R429: the seed's health has held long enough. -/
def seedHealthy (s : State) : Bool :=
  !s.noTrunk && s.seed.isSome && s.hostConfirms 2 && decide (s.upd.lastIll + min (60 * second) (s.sd.confirmS * second / 2) ≤ s.free)

/-- R80: this tree's embedded safety seed. -/
def ownEmbedded (s : State) (d : Seed) : List Byte := dataRef d.safetyData d.safetyData (s.hwDir + 192)

/-- R80, R416: an image becomes the ring record's safety seed. -/
def storeSafety (s : State) (img : List Byte) : State :=
  { (s.fset Reg.RecStatus.safetyValid 1).setReady Reg.TreeReady.safetySeed true with ring.safetyImage := img, safetySeed := some (parseSeed img) }

/-- R430, R446: the effects of a confirmation. A seed signed under the pending key makes it the owner key. -/
def confirm (s : State) (cls : Nat) : State :=
  let x := s.slots cls
  let s := s.putSlots cls { x with confirmed := true }
  let s := { s with upd.confirmEnd := s.upd.confirmEnd.erase cls, upd.hostOk := s.upd.hostOk.filter (· != cls) }
  let key := if cls = 2 then s.life.pendKey.filter (fun k => slice x.run 0x40 32 == sha256 k) else none
  let s := { s.shadowLive key with life.pendKey := if key.isSome then none else s.life.pendKey }.lifeRefresh
  let s := if cls ≠ 2 then s
    else
      let e := s.ownEmbedded s.sd
      if e.isEmpty then s else s.storeSafety e
  (s.flag Reg.LifeUpdStatus.confirmed 0).attnUpdate.updRegs

/-- R429: this tree's own health holds: it reports it, and the master confirms when every tree has. -/
def reportHealth (s : State) : State :=
  let a : Armed := { digest := (s.slots 2).runDig }
  let s := { s with upd.healthSent := true }
  if !s.isMaster then s.sendUpd s.masterPos 6 2 0 a
  else
    let s := { s with upd.groveWell := s.grovePos :: s.upd.groveWell }
    if s.allTrees s.upd.groveWell then (s.sendUpd 0xFF 7 2 0 a).confirm 2 else s

/-- R428, R429: IMAGE_CONFIRMATION. -/
def imageConfirmation (s : State) (cls : Nat) : State :=
  if !s.inWindow cls then s
  else if cls = 1 then (if s.fwHealthy then s.confirm 1 else s)
  else if !s.seedHealthy || s.upd.healthSent then s
  else if s.inGrove then s.reportHealth
  else s.confirm 2

/-- R430: IMAGE_CONFIRM. Where a seed's health asks for it (R429), health begins with it. -/
def confirmCmd (s : State) (h : StemHdr) (cls : Nat) (digest : List Byte) : State :=
  let x := s.slots cls
  if cls ≠ 1 ∧ cls ≠ 2 then s.done h 0x102 0x0202
  else if x.confirmed ∨ digest.take 16 ≠ x.runDig.take 16 then s.done h 0x102 0x020F
  else
    let late := cls = 2 ∧ s.fbit Reg.LifeUpdCtrl.confirmHost ∧ !s.upd.hostOk.contains 2
    { s with upd.hostOk := cls :: s.upd.hostOk, upd.lastIll := if late then s.free else s.upd.lastIll }.done h 0x102 0

/-! ### Fallback (R431, R434) -/

/-- R431: what every fallback does, once for an image of a class. -/
def fallbackEffects (s : State) (cls : Nat) : State :=
  if s.upd.fellBack.contains cls then s else
  let s := { s with upd.fellBack := cls :: s.upd.fellBack }
  let f := Reg.LifeUpdStatus.fallback
  let s := ((s.bump Reg.lifeUpdFallbackCnt).fset f 1).shadowDrop
  (s.pushEvent { die := 0, block := f.addr / 0x10000 * 16, code := statusCode f, args := leBytes 4 f.addr, trig := true }).attnUpdate

/-- R431: the previous image is armed for the next tree epoch; an image that has none before it stays. -/
def armFallback (s : State) (cls axis pos : Nat) (go : Bool) : State :=
  let x := s.slots cls
  if cls = 2 ∧ x.prev = [] then { s with upd.confirmEnd := s.upd.confirmEnd.erase cls }
  else s.putArmed cls { axis := axis, pos := pos, digest := x.prevDig, fallback := true, prepared := cls == 1, go := go }

/-- The axis of the tree epochs, or FREE, and its position at a later time of FREE. -/
def fallbackAt (s : State) (at_ : Nat) : Nat × Nat :=
  let n := if s.hasPos s.epochAxis then s.epochAxis else 17
  (n, posForm n (s.axisPos n + s.unitsFor n (at_ - s.free)))

/-- R431: IMAGE_FALLBACK: the window of a class has ended without confirmation. In a grove the master sends a fallback. -/
def imageFallback (s : State) (cls : Nat) : State :=
  let spent := (s.upd.confirmEnd.find? cls).any (fun e => decide (e ≤ s.free))
  if (s.slots cls).confirmed || !spent || (s.upd.armed.find? cls).isSome then s
  else if cls = 2 ∧ s.inGrove then
    if !s.isMaster then s
    else
      let at_ := s.fallbackAt (s.upd.confirmEnd.get s.free 2 + 5 * second)
      let s := (s.fallbackEffects 2).armFallback 2 at_.1 at_.2 false
      match s.upd.armed.find? 2 with
      | some a => s.sendUpd 0xFF 1 2 0 a
      | none => s
  else
    let at_ := s.fallbackAt 0
    (s.fallbackEffects cls).armFallback cls at_.1 at_.2 true

/-- R431: GROVE_FALLBACK_ALONE. -/
def fallbackAlone (s : State) (cls : Nat) : State :=
  let spent := (s.upd.confirmEnd.find? cls).any (fun e => decide (e + 10 * second ≤ s.free))
  if cls ≠ 2 || !s.inGrove || (s.slots cls).confirmed || !spent || (s.upd.armed.find? cls).any (·.go) then s
  else
    let at_ := s.fallbackAt 0
    ((s.fallbackEffects cls).disarm cls).armFallback cls at_.1 at_.2 true

/-- R434: firmware cannot read the settings: event and flag, and the previous firmware comes back at once. -/
def settingsCheck (s : State) : State :=
  if s.settingsReadable then s
  else
    let s := (s.rootEvent 0x160000 0x0220 0 []).fset Reg.RecSetStatus.unreadable 1
    if (s.slots 1).confirmed then s
    else (s.fallbackEffects 1).switchFirmware { fallback := true }

/-! ### Starting the show (R415, R416) and a firmware switch (R425) -/

/-- R416: the seed selected at start: the running image of the store, or else the safety seed. -/
def selectedSeed (s : State) : Option Seed := if (s.slots 2).run = [] then s.safetySeed else some (parseSeed (s.slots 2).run)

/-- R277, R415, R474: with firmware running, PTP instances that are enabled start, both trunks leave DOWN for TEST and the selected
seed comes in; its load follows. Trunks that a thermal shutdown holds off stay DOWN. -/
def startShow (s : State) : State :=
  if s.twin.started || s.fbit Reg.PsuStatus.trunksOff || !s.settingsReadable then s
  else
    let s := [0, 1, 2, 3].foldl (fun s i => if s.fbit (Reg.TimePtpCfg.enable i) then s.ptpEnable i true else s) s
    let s := ({ s with twin.started := true }.setTrunkState .a 1).setTrunkState .b 1
    (match s.selectedSeed with | some d => s.activateSeed d none | none => s).refresh

/-- R415, R425: the trunks load the seed as at start. -/
def reloadTrunks (s : State) : State :=
  let s := [Trunk.a, Trunk.b].foldl (fun s t => if s.trunkState t = 0 then s else (s.clearWork t).setTrunkState t 1) s
  let s := { s with twin.tested := [], twin.loaded := [], twin.ready := [], twin.waiting := [], twin.arb := [], twin.arbWait := [], twin.arbDone := [],
                    twin.outbox := [], twin.etcHeld := [], twin.dropCopies := [], twin.retryAt := [] }
  let s := ((s.fset Reg.CmpStatus.arbBusy 0).fset Reg.CmpStatus.etcHold 0).fset Reg.CmpResync.phase 0
  (match s.seed with | some d => s.activateSeed d none | none => s).refresh

/-- R425, R428, R434: FIRMWARE_RESTART. -/
def firmwareRestart (s : State) : State :=
  if !s.fwSwitch then s
  else
    let s := ({ s with fwSwitch := false }).setReady Reg.TreeReady.firmware true
    let s := if (s.slots 1).confirmed then s else { s with upd.confirmEnd := s.upd.confirmEnd.set 1 (s.inSeconds (s.fget Reg.LifeUpdCtrl.fwConfirmS)) }
    let s := if s.upd.fwFormat = s.upd.fwFormatOld then s else s.reloadTrunks
    let s := s.updRegs.useSettings.settingsCheck
    if s.fwSwitch then s else s.startShow

/-! ### Discarding (R422, R423) -/

/-- R422, R423, R427: IMAGE_DISCARD. A fallback is no activation of a host and stays armed. -/
def discardCmd (s : State) (h : StemHdr) (cls : Nat) : State :=
  if 2 < cls then s.done h 0x103 0x0202
  else
    let s := match s.upd.armed.find? cls with
      | some a =>
        if a.fallback then s
        else
          let s := if s.inGrove then (if s.isMaster then s.sendUpd 0xFF 5 cls 0 a else s.sendUpd s.masterPos 3 cls 0x020D a) else s
          s.actFails cls 0x020D
      | none => s
    (s.putSlots cls { s.slots cls with staged := [], stagedDig := [], lock := false }).done h 0x103 0

/-! ### UPDATE messages (R426, R427, R429, R431) -/

/-- A message of the seed master about class 1 or 2. -/
def fromMaster (s : State) (h : GroveHdr) (m : UpdMsg) : Bool := s.inGrove && h.src == s.masterPos && (m.cls == 1 || m.cls == 2)

/-- R427: a tree checks its own image and prepares, or refuses. -/
def updActivate (s : State) (h : GroveHdr) (m : UpdMsg) : State :=
  if !s.fromMaster h m || s.isMaster then s
  else
    let x := s.slots m.cls
    let a : Armed := { axis := m.axis, pos := m.position, digest := m.digest, fallback := m.fallback }
    let have_ := if m.fallback then (if m.cls = 2 ∧ x.prev = [] then none else some x.prevDig) else if x.lock then some x.stagedDig else none
    let code := if have_ ≠ some m.digest then 0x0206 else if m.fallback then (if s.actPosition m.axis m.position then 0 else 0x0208) else s.actCode m.cls m.axis m.position
    if code ≠ 0 then
      let s := if code = 0x0206 then s.attnUpdate else s
      (s.fset Reg.LifeUpdStatus.refused 1).sendUpd s.masterPos 3 m.cls code a
    else (if m.fallback then s.fallbackEffects m.cls else s).putArmed m.cls a

/-- R427: the master takes an ACK or a REFUSE. -/
def updAck (s : State) (h : GroveHdr) (refuse : Bool) (m : UpdMsg) : State :=
  if !s.inGrove || !s.isMaster then s
  else if refuse then s.fset Reg.LifeUpdStatus.refused 1
  else
    match s.upd.armed.find? m.cls with
    | some a => if a.digest = m.digest then (s.putArmed m.cls { a with acks := h.src :: a.acks }).checkGo m.cls else s
    | none => s

/-- R427: a tree takes GO or CANCEL. -/
def updGo (s : State) (h : GroveHdr) (cancel : Bool) (m : UpdMsg) : State :=
  if !s.fromMaster h m then s
  else
    match s.upd.armed.find? m.cls with
    | some a =>
      if a.digest ≠ m.digest then s
      else if cancel then (s.disarm m.cls).fset Reg.LifeUpdStatus.refused 1
      else s.putArmed m.cls { a with go := true }
    | none => s

/-- R427: the master has not had every acknowledgement 100 ms before the position. -/
def goDeadline (s : State) (cls : Nat) : State :=
  match s.upd.armed.find? cls with
  | some a =>
    if !s.inGrove || !s.isMaster || a.go || decide (s.axisPos a.axis + s.msUnits a.axis 100 < posRaw a.axis a.pos) then s
    else ((s.sendUpd 0xFF 5 cls 0 a).actFails cls 0x020D).fset Reg.LifeUpdStatus.refused 1
  | none => s

/-- R427: a tree that has acknowledged holds neither GO nor CANCEL at the position. -/
def noGo (s : State) (cls : Nat) : State :=
  match s.upd.armed.find? cls with
  | some a =>
    if !s.inGrove || s.isMaster || !a.acked || a.go || decide (s.axisPos a.axis < posRaw a.axis a.pos) then s
    else
      let s := ((s.rootEvent 0x130000 0x020E 0 []).attnUpdate).fset Reg.LifeUpdStatus.refused 1
      (s.disarm cls).sendUpd s.masterPos 3 cls 0x020E a
  | none => s

/-- R429: the master takes a tree's HEALTH. -/
def updHealth (s : State) (h : GroveHdr) (m : UpdMsg) : State :=
  if !s.inGrove || !s.isMaster || m.cls != 2 then s
  else
    let s := { s with upd.groveWell := if m.code = 0 then h.src :: s.upd.groveWell else s.upd.groveWell.filter (· != h.src) }
    if s.inWindow 2 && s.allTrees s.upd.groveWell then (s.sendUpd 0xFF 7 2 0 { digest := (s.slots 2).runDig }).confirm 2 else s

/-- R429: a tree confirms. -/
def updConfirm (s : State) (h : GroveHdr) (m : UpdMsg) : State :=
  if s.fromMaster h m && m.cls == 2 && !(s.slots 2).confirmed && m.digest == (s.slots 2).runDig then s.confirm 2 else s

end State

/-! ### Meanings -/

/-- IMAGE_STAGE (R86 to R88, R395, R422, R423): a class that is not defined, or not allowed in recovery mode, is refused at once. -/
def execImageStage (h : StemHdr) (cls : Nat) (c : Chunk) (s : State) : Host.Outcome State Fault Refusal :=
  act s fun s => s.stemCmd h 0x100 c.data.length false (.imageStage h cls c) fun s =>
    if 2 < cls then s.done h 0x100 0x0202
    else if s.fbit Reg.TreeReady.recovery && cls == 2 then s.done h 0x100 0x0210
    else s.chunkIn h 0x100 c fun img s => s.stageTake h cls img

/-- IMAGE_ACTIVATE (R420, R421, R424, R426, R427). -/
def execImageActivate (h : StemHdr) (cls axis position : Nat) (digest : List Byte) (s : State) : Host.Outcome State Fault Refusal :=
  act s fun s => s.stemCmd h 0x101 0 false (.imageActivate h cls axis position digest) fun s => s.activateCmd h cls axis position digest

/-- IMAGE_PREPARED (R424, R427). -/
def execImagePrepared (cls : Nat) (s : State) : Host.Outcome State Fault Refusal := act s fun s => s.prepared cls

/-- IMAGE_ACTIVATION (R86, R89, R424, R425, R427). -/
def execImageActivation (cls : Nat) (s : State) : Host.Outcome State Fault Refusal := act s fun s => s.imageActivation cls

/-- FIRMWARE_RESTART (R425, R428, R434). -/
def execFirmwareRestart (s : State) : Host.Outcome State Fault Refusal := act s fun s => s.firmwareRestart

/-- IMAGE_CONFIRM (R422, R430). -/
def execImageConfirm (h : StemHdr) (cls : Nat) (digest : List Byte) (s : State) : Host.Outcome State Fault Refusal :=
  act s fun s => s.stemCmd h 0x102 0 false (.imageConfirm h cls digest) fun s => s.confirmCmd h cls digest

/-- IMAGE_CONFIRMATION (R428 to R430). -/
def execImageConfirmation (cls : Nat) (s : State) : Host.Outcome State Fault Refusal := act s fun s => s.imageConfirmation cls

/-- IMAGE_FALLBACK (R431). -/
def execImageFallback (cls : Nat) (s : State) : Host.Outcome State Fault Refusal := act s fun s => s.imageFallback cls

/-- IMAGE_DISCARD (R422, R423). -/
def execImageDiscard (h : StemHdr) (cls : Nat) (s : State) : Host.Outcome State Fault Refusal :=
  act s fun s => s.stemCmd h 0x103 0 false (.imageDiscard h cls) fun s => s.discardCmd h cls

/-- UPDATE_ACTIVATE_RECEIVE (R427, R431). -/
def execUpdateActivateReceive (h : GroveHdr) (m : UpdMsg) (s : State) : Host.Outcome State Fault Refusal :=
  act s fun s => s.groveIn h 0x20 fun s => s.updActivate h m

/-- UPDATE_ACK_RECEIVE (R427). -/
def execUpdateAckReceive (h : GroveHdr) (refuse : Bool) (m : UpdMsg) (s : State) : Host.Outcome State Fault Refusal :=
  act s fun s => s.groveIn h 0x20 fun s => s.updAck h refuse m

/-- UPDATE_GO_RECEIVE (R427). -/
def execUpdateGoReceive (h : GroveHdr) (cancel : Bool) (m : UpdMsg) (s : State) : Host.Outcome State Fault Refusal :=
  act s fun s => s.groveIn h 0x20 fun s => s.updGo h cancel m

/-- UPDATE_HEALTH_RECEIVE (R429). -/
def execUpdateHealthReceive (h : GroveHdr) (m : UpdMsg) (s : State) : Host.Outcome State Fault Refusal :=
  act s fun s => s.groveIn h 0x20 fun s => s.updHealth h m

/-- UPDATE_CONFIRM_RECEIVE (R429). -/
def execUpdateConfirmReceive (h : GroveHdr) (m : UpdMsg) (s : State) : Host.Outcome State Fault Refusal :=
  act s fun s => s.groveIn h 0x20 fun s => s.updConfirm h m

/-- GROVE_GO_DEADLINE (R427). -/
def execGroveGoDeadline (cls : Nat) (s : State) : Host.Outcome State Fault Refusal := act s fun s => s.goDeadline cls

/-- UPDATE_NO_GO (R427). -/
def execUpdateNoGo (cls : Nat) (s : State) : Host.Outcome State Fault Refusal := act s fun s => s.noGo cls

/-- GROVE_FALLBACK_ALONE (R431). -/
def execGroveFallbackAlone (cls : Nat) (s : State) : Host.Outcome State Fault Refusal := act s fun s => s.fallbackAlone cls

end Sys2Proof.Machine
end

