-- ==== Sys2Proof/Machine/Boot.lean ====
section
/-! DEFINITION. Power, reset and bring-up: what a reset keeps, the ROM boot, firmware and seed load, and the wind-down (R54, R115, R305,
R387, R414 to R417, R420, R421, R443, R445, R449, R454, R459 to R465, R470). -/

namespace Sys2Proof.Machine

/-! ### What a reset keeps -/

/-- The bits of a field. -/
def Field.mask (f : Field) : Nat := setBits 0 f.lo f.len (2 ^ f.len - 1)

/-- R3: the bits of a register that its RWS fields hold. -/
def rwsMask (a : Nat) : Nat :=
  match regRow a with
  | some r => r.flds.foldl (fun m f => if f.acc = .rws then setBits m f.lo (f.hi + 1 - f.lo) (2 ^ (f.hi + 1 - f.lo) - 1) else m) 0
  | none => 0

/-- R420, R435: bits that show what is stored in the ring record and the image store: every reset keeps them. -/
def storeMask (a : Nat) : Nat :=
  if a = Reg.recHead ∨ Reg.recSlotTrig 0 ≤ a ∧ a < Reg.recSlotTrig 4 then 0xFFFFFFFF
  else if a = Reg.recStatus then Reg.RecStatus.openF.mask + Reg.RecStatus.openSlot.mask + Reg.RecStatus.frozen.mask
  else if a = Reg.lifeUpdStatus then Reg.LifeUpdStatus.loaderSlot.mask
  else 0

/-- R35, R115, R274, R305, R315, R412, R413, R445, R454, R479: further bits that a warm reset keeps. -/
def warmMask (a : Nat) : Nat :=
  if 0x150000 ≤ a ∧ a < 0x160000 ∨ a = Reg.twigLastErr .a ∨ a = Reg.twigLastErr .b ∨ 0x121008 ≤ a ∧ a ≤ 0x121010 ∨ a = Reg.chkScrubPassCnt ∨
      0x1000000 ≤ a ∧ (0xC1008 ≤ a % 0x1000000 ∧ a % 0x1000000 ≤ 0xC1010 ∨ a % 0x1000000 = 0xC1018) ∨ Reg.lifeNonce 0 ≤ a ∧ a < Reg.lifeNonce 4 ∨
      Reg.psuVin ≤ a ∧ a ≤ Reg.psuTempRoot then 0xFFFFFFFF
  else if a = (Reg.AxisStatus.state 17).addr then (Reg.AxisStatus.state 17).mask
  else if a = Reg.timeStatus then Reg.TimeStatus.ocxoReady.mask
  else if a = Reg.cmpStatus then Reg.CmpStatus.failbackLatched.mask
  else if a = Reg.bistTrunkHealth 0 ∨ a = Reg.bistTrunkHealth 1 then (Reg.BistTrunkHealth.sparesUp 0).mask + (Reg.BistTrunkHealth.sparesDown 0).mask
  else if a = Reg.psuStatus then 2 ^ 31 + 2 ^ 30 + Reg.PsuStatus.thermalWarn.mask + Reg.PsuStatus.trunksOff.mask
  else rwsMask a

namespace State

/-- The registers that a reset leaves off their reset words. -/
def keptRegs (s : State) (cold : Bool) : Tab Word :=
  s.regs.filterMap fun (k : Nat × Word) =>
    let m := BitVec.ofNat 32 (if cold then storeMask k.1 else storeMask k.1 ||| warmMask k.1)
    let w := (k.2 &&& m) ||| (resetWord k.1 &&& ~~~m)
    if w = resetWord k.1 then none else some (k.1, w)

/-- R3, R54, R387, R443, R449, R465: a reset. The image store, the ring record, the fuses and what has left the module stand; a warm
reset also keeps FREE, SERVICE, memory and the events that wait. -/
def wiped (s : State) (cold : Bool) : State :=
  let l : LifeSt := if cold then {} else { service := s.life.service, calTemp := s.life.calTemp, coolSince := s.life.coolSince, diesCool := s.life.diesCool, auxOffAt := s.life.auxOffAt }
  { State.reset with
    pending := s.pending, regs := s.keptRegs cold, free := if cold then 0 else s.free, freeCtr := s.freeCtr, rdata := s.rdata, tag := s.tag, sent := s.sent,
    events := if cold then [] else s.events, mem := if cold then [] else s.mem, padPwrGood := s.padPwrGood, stem := { replies := s.stem.replies },
    upd := { store := s.upd.store }, ring := { s.ring with lost := !cold && s.ring.lost }, life := { l with fuse := s.life.fuse, resetLow := s.life.resetLow } }

/-- R470: FAULT_N is low after a fault of class MODULE and during a thermal shutdown. -/
def faultPad (s : State) : State := { s with padFaultN := !(s.life.moduleFault || s.fbit Reg.PsuStatus.trunksOff) }

/-! ### ROM boot (R414 to R421) -/

/-- R445: a fresh nonce. -/
def freshNonce (s : State) : State :=
  (List.range 4).foldl (fun s k => let d := s.draw (2 ^ 32); d.2.setRegN (Reg.lifeNonce k) d.1) s

/-- R454: calibration values from the fuses; the spec gives none. SDI outputs have no ingress value. -/
def calFuses (s : State) : State :=
  let v (a : Nat) : Nat := Config.unstated 454 a % 2 ^ 32
  let s := s.setRegN Reg.calTbPhase (v Reg.calTbPhase)
  (List.range 72).foldl (fun s n =>
    let s := s.setRegN (Reg.calPortEgress n) (v (Reg.calPortEgress n))
    if n < 64 then s.setRegN (Reg.calPortIngress n) (v (Reg.calPortIngress n)) else s) s

/-- R419, R420: a loader that the ROM may boot; the factory's own has no bytes here. -/
def loaderOk (img : List Byte) : Bool := img.isEmpty || envelopeOk 0 img && signatureOk img

/-- R420: the ROM boots the valid loader with the higher version; the other slot is kept. -/
def bootLoader (s : State) : State :=
  let x := s.slots 0
  if !x.prev.isEmpty && loaderOk x.prev && (!loaderOk x.run || decide (imageVersion 0 x.run < imageVersion 0 x.prev)) then
    (s.fset Reg.LifeUpdStatus.loaderSlot (1 - s.fget Reg.LifeUpdStatus.loaderSlot)).putSlots 0 { x with run := x.prev, runDig := x.prevDig, prev := x.run, prevDig := x.runDig }
  else s

/-- R416: the confirmed seed whose digest reads back runs, else the previous one under the same check, else none. What does not run
goes to the staged slot, unless a staged image holds it. -/
def bootSeed (s : State) : State :=
  let x := s.slots 2
  let good (img dig : List Byte) : Bool := !img.isEmpty && seedDigest img == dig
  if x.confirmed && good x.run x.runDig then s
  else
    let y := if x.lock || x.run.isEmpty then x else { x with staged := x.run, stagedDig := x.runDig }
    s.putSlots 2 (if good x.prev x.prevDig then { y with run := x.prev, runDig := x.prevDig, prev := [], prevDig := [], confirmed := true }
      else { y with run := [], runDig := [], prev := [], prevDig := [], confirmed := true })

/-- R416, R480: the event of a safety seed that fails its check. -/
def safetySeedEvent (s : State) (f : Nat × Nat × Nat) (repaired : Bool) : State :=
  s.rootEvent 0 0x0830 5 (leBytes 2 f.1 ++ leBytes 2 f.2.1 ++ leBytes 4 f.2.2 ++ [BitVec.ofNat 8 repaired.toNat])

/-- R416: the safety seed of the ring record is validated, or repaired from the selected seed's embedded one. -/
def safetySeedCheck (s : State) : State :=
  let img := s.ring.safetyImage
  match validateSafety (s.seedEnv img) img with
  | none => s.storeSafety img
  | some f =>
    let r := (s.slots 2).run
    let e := if r.isEmpty then [] else ({ s with seed := some (parseSeed r) } : State).ownEmbedded (parseSeed r)
    if !e.isEmpty && (validateSafety (s.seedEnv e) e).isNone then ((s.storeSafety e).fset Reg.RecStatus.safetyRepaired 1).safetySeedEvent f true
    else s.safetySeedEvent f false

/-- R438: a segment found open at start freezes with the events it holds. -/
def closeSegment (s : State) : State :=
  if s.fbit Reg.RecStatus.openF then (s.setRegN (Reg.recSlotEnd (s.fget Reg.RecStatus.openSlot)) (s.regN Reg.recHead - 1)).freezeOpen else s

/-- R414 to R417, R420, R421: the ROM boots, and everything that needs no firmware comes up. FREE is LOCKED from here on; R35 leaves
open whether that is a change of state, and the model sets no `state_chg` and writes no event for it (DESIGN CHOICE). -/
def romBoot (s : State) (cold : Bool) : State :=
  let s := { s with held := false }
  let s := (s.fset (Reg.AxisStatus.state 17) 2).setAxis 17 { adv := 163840 * 2 ^ 32 }
  let s := if cold then s.calFuses.freshNonce else s
  let s := (s.loadSettings cold).bootLoader
  let s := s.lifeRefresh.faultPad
  let rec_ := s.fbit Reg.LifeUpdCtrl.forceRecovery || !loaderOk (s.slots 0).run
  let s := s.fsetB Reg.LifeUpdStatus.recovery rec_
  let s := ((s.setReady Reg.TreeReady.rootRom (!rec_)).setReady Reg.TreeReady.recovery rec_).setReady Reg.TreeReady.pcie true
  let s := (s.closeSegment.bootSeed.safetySeedCheck.updRegs).setReady Reg.TreeReady.safety true
  (s.setReady Reg.TreeReady.dmx true).setReady Reg.TreeReady.record true

/-- R465: a warm reset. -/
def warmReset (s : State) : State := (s.wiped false).romBoot false

/-! ### Power (R459, R462 to R464) -/

/-- R463: PWR_GOOD rises: a cold reset. A module that is too hot stays off (R474). -/
def powerUp (s : State) : State :=
  if s.padPwrGood || s.life.tooHot then s
  else
    let s := { s.wiped true with padPwrGood := true }
    let s := (s.fset Reg.PsuStatus.pfcOk 1).fset Reg.PsuStatus.auxOn 1
    if s.life.resetLow then s else s.romBoot true

/-- R464: PWR_GOOD falls: launching stops, frames in transmission end, lines fall to mark or idle, and the event queue flushes. -/
def powerDown (s : State) : State :=
  let s := if s.held then s else
    let s := s.flag Reg.PsuStatus.pwrFail 0
    (List.range s.events.length).foldl (fun s _ => s.recordNext) s
  let s := ((s.fset Reg.PsuStatus.holdUp 1).fset Reg.PsuStatus.pfcOk 0).fset Reg.PsuStatus.auxOn 0
  { s with held := true, padPwrGood := false, padSafeAck := false, padHealth := false, padFaultN := true, dmx := [], saps := [],
           ports := s.ports.map fun (k : Nat × PortSt) => (k.1, { k.2 with tx := none, timed := [], untimed := [] }) }

/-- R459: an interruption that was ridden through. -/
def dip (s : State) : State := (s.bump Reg.psuDipCnt).fset Reg.PsuStatus.dip 1

/-- R459, R464: the input leaves its range. Whether hold-up beyond 20 ms is enough is open. -/
def mainsOut (s : State) (us : Nat) (overVolt : Bool) : State :=
  let s := if overVolt then s.fset Reg.PsuStatus.overVoltage 1 else s
  if us < 20000 then s.dip
  else
    let d := s.draw 2
    if d.1 = 0 then d.2.dip else d.2.powerDown

/-- R462: AUX_12V has been in limit for 10 ms. -/
def auxTrip (s : State) (us : Nat) : State :=
  if us < 10000 || s.life.auxOffAt.isSome then s
  else ({ (s.bump Reg.psuAuxTripCnt).fset Reg.PsuStatus.auxOn 0 with life.auxOffAt := some s.free }.flag Reg.PsuStatus.auxFault 0).attnFault

/-- R462: AUX_12V restarts after 1 s. -/
def auxBack (s : State) : State :=
  match s.life.auxOffAt with
  | some t => if t + second ≤ s.free then { s.fset Reg.PsuStatus.auxOn 1 with life.auxOffAt := none } else s
  | none => s

/-! ### RESET_N (R465) -/

/-- RESET_N is held low: the pads are in their reset state. -/
def resetAssert (s : State) (ns : Nat) : State :=
  if ns < 1000 || s.life.resetLow then s
  else
    let s := { s with life.resetLow := true }
    if s.padPwrGood then (s.wiped false).faultPad else s

/-- RESET_N rises: the ROM boots, for the first time since PWR_GOOD or again. -/
def resetRelease (s : State) : State :=
  if !s.life.resetLow then s
  else
    let s := { s with life.resetLow := false }
    if s.padPwrGood then s.romBoot (s.axisState 17 != 2) else s

/-! ### Firmware and seed load (R415, R428, R434, R468) -/

/-- R415: firmware runs on every vendor core. Whether a carrier identity EEPROM answers is open here (R468). -/
def firmwareUp (s : State) : State :=
  if !s.fbit Reg.TreeReady.rootRom || s.fbit Reg.TreeReady.firmware || s.fwSwitch then s
  else
    let s := s.setReady Reg.TreeReady.firmware true
    let d := s.draw 2
    let s := if d.1 = 0 then d.2.rootEvent 0 0x0871 0 [] else d.2
    let s := { s with upd.fwFormat := u32 (s.slots 1).run 0x0C }
    let s := if (s.slots 1).confirmed then s else { s with upd.confirmEnd := s.upd.confirmEnd.set 1 (s.inSeconds (s.fget Reg.LifeUpdCtrl.fwConfirmS)) }
    let s := s.settingsCheck
    if s.fwSwitch then s else s.startShow

/-- R415: a trunk has loaded the selected seed; epochs count from the first. -/
def seedLoaded (s : State) (t : Trunk) : State :=
  if s.seed.isNone || !s.fbit Reg.TreeReady.firmware || s.twin.loaded.contains t.idx then s
  else
    let first := s.twin.loaded.isEmpty
    let s := { s with twin.loaded := s.twin.loaded ++ [t.idx] }
    (if first then s.startCadences none else s).readyCheck t

end State

/-! ### Meanings -/

/-- PWR_GOOD_RISE (R414, R416, R420, R421, R463). -/
def execPwrGoodRise (s : State) : Host.Outcome State Fault Refusal := .next s.powerUp

/-- PWR_GOOD_FALL (R464). -/
def execPwrGoodFall (s : State) : Host.Outcome State Fault Refusal := .next (if s.padPwrGood then s.powerDown else s)

/-- MAINS_INTERRUPTION (R39, R459, R464). -/
def execMainsInterruption (durationUs : Nat) (overVoltage : Bool) (s : State) : Host.Outcome State Fault Refusal := act s fun s => s.mainsOut durationUs overVoltage

/-- BROWNOUT (R459). -/
def execBrownout (s : State) : Host.Outcome State Fault Refusal := act s fun s => (s.flag Reg.PsuStatus.brownout 0).attnFault

/-- RESET_N_ASSERT (R465, R471). -/
def execResetNAssert (durationNs : Nat) (s : State) : Host.Outcome State Fault Refusal := .next (s.resetAssert durationNs)

/-- RESET_N_RELEASE (R414, R416, R420, R421, R465). -/
def execResetNRelease (s : State) : Host.Outcome State Fault Refusal := .next s.resetRelease

/-- AUX_CURRENT_LIMIT (R462). -/
def execAuxCurrentLimit (heldUs : Nat) (s : State) : Host.Outcome State Fault Refusal := act s fun s => s.auxTrip heldUs

/-- AUX_RESTART (R462). -/
def execAuxRestart (s : State) : Host.Outcome State Fault Refusal := act s fun s => s.auxBack

/-- FIRMWARE_READY (R277, R415, R416, R428, R434, R468). -/
def execFirmwareReady (s : State) : Host.Outcome State Fault Refusal := act s fun s => s.firmwareUp

/-- SEED_LOAD_DONE (R415). -/
def execSeedLoadDone (t : Trunk) (s : State) : Host.Outcome State Fault Refusal := act s fun s => s.seedLoaded t

/-- RESET (R392, R465): the reply, then a warm reset. -/
def execReset (h : StemHdr) (confirm : BitVec 16) (s : State) : Host.Outcome State Fault Refusal :=
  act s fun s => s.stemCmd h 4 0 false (.reset h confirm) fun s =>
    if confirm = 0x0416 then (s.done h 4 0).sessionFlush.warmReset else s.done h 4 0x0102

end Sys2Proof.Machine
end

