-- ==== Sys2Proof/Machine/Bridge.lean ====
section
/-! DEFINITION. The commands of the graft bridge: requests, answers, timers and grove link messages (R363 to R379). -/

namespace Sys2Proof.Machine

namespace State

/-- Two copies of a request agree (R368). -/
def graftSame (a b : GraftTx) : Bool :=
  a.write == b.write && a.leaf == b.leaf && a.offset == b.offset && a.length == b.length && a.data == b.data && a.remote == b.remote

/-- R368: a core's copy of a request: the first waits for the second, and the pair is issued once. -/
def graftPair (s : State) (t : Trunk) (x : GraftTx) : State :=
  let key := t.idx * 8 + x.init
  let n := s.bridge.graftCnt.get 0 key + 1
  let s := { s with bridge.graftCnt := s.bridge.graftCnt.set key n }
  if s.redundancy ≠ 0 ∨ !(s.inService .a && s.inService .b) then s.graftSubmit x
  else if s.bridge.graftSolo.contains (t.idx, x.init, n) then { s with bridge.graftSolo := s.bridge.graftSolo.erase (t.idx, x.init, n) }
  else
    match s.bridge.graftCopies.find? (fun c => c.trunk != t.idx && c.tx.init == x.init && c.count == n) with
    | none => { s with bridge.graftCopies := s.bridge.graftCopies ++ [{ trunk := t.idx, count := n, at_ := s.free, tx := x }] }
    | some c =>
      let s := { s with bridge.graftCopies := s.bridge.graftCopies.filter (fun d => !(d.trunk == c.trunk && d.tx.init == x.init && d.count == n)) }
      if graftSame x c.tx then s.graftSubmit { x with tables := [0, 1] }
      else
        let y := if t = s.activeTrunk then x else c.tx
        (s.graftSubmit { y with tables := [0, 1] }).diverge (if s.activeTrunk = .a then .b else .a) []

/-- GRAFT_REQUEST: Stem and the RDMnet client are the root's own; a vendor core asks through its trunk. -/
def graftRequest (s : State) (i : Nat) (core : Option Trunk) (x : GraftTx) : State :=
  let x := { x with init := i, remote := s.graftRemote i }
  match core with
  | some t => if i < 2 then s.graftSubmit { x with tables := [2] } else s.graftPair t { x with tables := [t.idx] }
  | none => s.graftSubmit { x with tables := [2] }

/-- GRAFT_RESPONSE_RECEIVE: an answer that fails its check is discarded and counted. -/
def graftAnswer (s : State) (tag : Nat) (a : GraftAnswer) : State :=
  match s.bridge.grafts.find? (fun x => x.tag == tag && x.phase == 1 && x.remote.isNone && !s.graftRdm x.leaf) with
  | none => s.bump Reg.graftRspErr
  | some x =>
    let n := (x.fetch.getD (x.offset, x.length)).2
    if !a.checks || !a.nack && !x.write && a.data.length != n then s.bump Reg.graftRspErr
    else if a.nack then s.graftDone x 0x0603 a.reason [] false
    else if x.write then s.graftDone x 0 0 [] false
    else s.graftRead x a.data a.sideEffect

/-- GRAFT_REPEAT: 20 ms without an answer, at most 3 copies. -/
def graftAgain (s : State) (tag : Nat) : State :=
  match s.graftOf tag with
  | none => s
  | some x =>
    if x.phase ≠ 1 ∨ x.remote.isSome ∨ 3 ≤ x.copies ∨ s.free < x.sentAt + 20 * 1000000 * 65536 then s
    else
      match s.graftPath x.leaf with
      | .leafcast port _ => (s.putGraft { x with sentAt := s.free, copies := x.copies + 1 }).graftSend port x.leaf (s.graftFrame x true)
      | _ => s

/-- GRAFT_TIMEOUT. -/
def graftLate (s : State) (tag : Nat) : State :=
  match s.graftOf tag with
  | none => s
  | some x => if x.phase ≠ 0 ∧ x.issuedAt + s.fget Reg.GraftCtrl.timeoutMs * 1000000 * 65536 ≤ s.free then s.graftDone x 0x0601 0 [] false else s

/-- R376: an outbound request is aborted; its delay is 1 to 16 µs. -/
def graftAbort (s : State) (x : GraftTx) : State :=
  let (d, s) := s.draw 16
  let s := s.putGraft { x with phase := 2, aborts := x.aborts + 1, againAt := s.free + (1 + d) * 65536000 }
  let s := s.sendGraft (x.remote.getD 0) 6 0 x.tag x.leaf x.offset x.length []
  (s.fset Reg.GraftStatus.crossing 1).bump Reg.graftRetryCnt

/-- R375, R376: an inbound request; the bridge with the higher grove position yields at a crossing. -/
def graftInbound (s : State) (pos : Nat) (m : GraftMsg) : State :=
  let mine := s.bridge.grafts.filter (fun x => x.remote == some pos && x.phase == 1 && !x.accepted)
  let s := if pos < s.grovePos then mine.foldl graftAbort s else s
  s.graftSubmit { init := 8, tables := [2], replyTo := .tree pos m.tag, write := m.op == 2, leaf := m.leaf, offset := m.offset % 0x40000, length := m.length, data := m.data }

/-- GRAFT_MESSAGE_RECEIVE, once its header holds. -/
def graftMessage (s : State) (pos : Nat) (m : GraftMsg) : State :=
  let out := s.bridge.grafts.find? (fun x => x.tag == m.tag && x.remote == some pos && x.phase == 1)
  match m.op with
  | 1 => s.graftInbound pos m
  | 2 => s.graftInbound pos m
  | 5 => match out with | some x => s.putGraft { x with accepted := true } | none => s
  | 6 => s.putGrafts (s.bridge.grafts.filter fun x => !(x.replyTo == .tree pos m.tag && x.phase == 0))
  | _ =>
    if m.op = 3 ∨ m.op = 4 then
      match out with
      | some x => if (m.op == 4) == x.write then s.graftDone x m.status 0 m.data false else s
      | none => s
    else s.bump Reg.cmpGroveRxErr

/-- GRAFT_REISSUE. -/
def graftReissue (s : State) (tag : Nat) : State :=
  match s.graftOf tag with
  | none => s
  | some x =>
    if x.phase ≠ 2 ∨ s.free < x.againAt then s
    else if s.fget Reg.GraftCtrl.retryMax ≤ x.aborts then s.graftDone x 0x0605 0 [] false
    else (s.putGraft { x with phase := 0 }).graftGo

/-- GRAFT_ATTR_WRITE: prefetch is allowed again for every leaf (R373). -/
def graftAttr (s : State) (r : Nat) (v : Word) : State := { s.plainWrite (Reg.graftAttr r) v.toNat with bridge.attrWrong := [] }

end State

/-! ### Meanings -/

/-- GRAFT_REQUEST (R363 to R369). -/
def execGraftRequest (i : Fin 8) (core : Option Trunk) (write : Bool) (leaf offset length : Nat) (data : List Byte) (s : State) :
    Host.Outcome State Fault Refusal :=
  act s fun s => s.graftRequest i core { write := write, leaf := leaf, offset := offset, length := length, data := data }

/-- GRAFT_RESPONSE_RECEIVE (R366, R369 to R373). -/
def execGraftResponseReceive (tag : Nat) (a : GraftAnswer) (s : State) : Host.Outcome State Fault Refusal := act s fun s => s.graftAnswer tag a

/-- GRAFT_REPEAT (R371). -/
def execGraftRepeat (tag : Nat) (s : State) : Host.Outcome State Fault Refusal := act s fun s => s.graftAgain tag

/-- GRAFT_TIMEOUT (R369). -/
def execGraftTimeout (tag : Nat) (s : State) : Host.Outcome State Fault Refusal := act s fun s => s.graftLate tag

/-- GRAFT_MESSAGE_RECEIVE (R323, R375, R376). -/
def execGraftMessageReceive (h : GroveHdr) (m : GraftMsg) (s : State) : Host.Outcome State Fault Refusal :=
  act s fun s => s.groveIn h 0x10 fun s => s.graftMessage h.src m

/-- GRAFT_REISSUE (R376). -/
def execGraftReissue (tag : Nat) (s : State) : Host.Outcome State Fault Refusal := act s fun s => s.graftReissue tag

/-- PREFETCH_EXPIRY (R372, R374). -/
def execPrefetchExpiry (s : State) : Host.Outcome State Fault Refusal := act s fun s => s.prefetchAge

/-- WINDFALL_EXPIRY (R374). -/
def execWindfallExpiry (s : State) : Host.Outcome State Fault Refusal := act s fun s => s.windfallAge

/-- GRAFT_ATTR_WRITE (R373, R379). -/
def execGraftAttrWrite (r : Fin 16) (v : Word) (s : State) : Host.Outcome State Fault Refusal := act s fun s => s.graftAttr r v

/-- TUNNEL_MESSAGE_RECEIVE (R323, R377, R378). -/
def execTunnelMessageReceive (h : GroveHdr) (tunnel : Nat) (response : Bool) (breakUs mabUs : Nat) (startCode : Byte) (dstPort : Nat)
    (slots : List Byte) (s : State) : Host.Outcome State Fault Refusal :=
  act s fun s => s.groveIn h 0x11 fun s => s.tunnelIn h.src tunnel response breakUs mabUs (startCode :: slots) dstPort

end Sys2Proof.Machine
end

