-- ==== Sys2Proof/Machine/Thermal.lean ====
section
/-! DEFINITION. Temperatures, throttling, trunk thermal shutdown and module faults (R21, R26, R326, R411, R454, R470, R473, R474). -/

namespace Sys2Proof.Machine

namespace State

/-- R454, R456: the quality register of a calibration item, by item * 256 + index. -/
def calQual (k : Nat) : Nat := if k < 256 then Reg.calTbQual else if k < 512 then Reg.calPortQual (k % 256) else Reg.calSap (k % 256)

/-- R454: items that the baseplate has moved more than 10 °C away from become stale. -/
def calStale (s : State) : State :=
  let now := signed 16 (s.fget Reg.PsuTempBase.temp)
  s.life.calTemp.foldl (fun s (k : Nat × Int) =>
    let f : Field := ⟨calQual k.1, 30, 1⟩
    if (now - k.2).natAbs ≤ 1000 ∨ s.fbit f then s
    else ((s.fset f 1).rootEvent 0x150000 0x0870 0 ([BitVec.ofNat 8 (k.1 / 256), BitVec.ofNat 8 (k.1 % 256)] ++ leBytes 2 (unsigned 16 k.2) ++ leBytes 2 (unsigned 16 now))).attnTime) s

/-- R474: both trunks and their DRAM are switched off. -/
def trunksOff (s : State) : State :=
  let s := [Trunk.a, Trunk.b].foldl (fun s t => ((s.clearWork t).setTrunkState t 0).memClear (dramBase t) (2 ^ 35)) s
  let s := { s with twin := { holdTrunk := none, handed := s.twin.handed, foTimes := s.twin.foTimes, started := s.twin.started } }
  let s := ((s.fset Reg.CmpStatus.arbBusy 0).fset Reg.CmpStatus.etcHold 0).fset Reg.CmpResync.phase 0
  let s := ((s.fset Reg.PsuStatus.trunksOff 1).flag Reg.PsuStatus.thermalOff 4).faultPad
  s.refresh.attnThermal

/-- R479: the temperature registers; the highest baseplate temperature counts as a signed number. -/
def tempRegs (s : State) (base dieA dieB dieRoot : Int) : State :=
  let s := (s.fset Reg.PsuTempBase.temp (unsigned 16 base)).fset Reg.PsuTempA.temp (unsigned 16 dieA)
  let s := (s.fset Reg.PsuTempB.temp (unsigned 16 dieB)).fset Reg.PsuTempRoot.temp (unsigned 16 dieRoot)
  if signed 16 (s.fget Reg.PsuTempMax.temp) < base then s.fset Reg.PsuTempMax.temp (unsigned 16 base) else s

/-- R21, R454, R473, R474: a measurement, in 0.01 °C. -/
def thermalSample (s : State) (base dieA dieB dieRoot : Int) : State :=
  let s := s.tempRegs base dieA dieB dieRoot
  let warm := decide (9000 ≤ base)
  let rises := warm && !s.fbit Reg.PsuStatus.thermalWarn
  let s := (s.fsetB Reg.PsuStatus.thermalWarn warm).fsetB Reg.TreeMode.thermalWarn warm
  let s := if rises then s.attnThermal else s
  let since (c : Bool) (o : Option Nat) : Option Nat := if c then some (o.getD s.free) else none
  let cool := since (decide (base < 9500)) s.life.coolSince
  let dies := since (decide (base < 9500) && decide (dieA < 10000) && decide (dieB < 10000) && decide (dieRoot < 10000)) s.life.diesCool
  let rested := !s.fbit Reg.PsuStatus.throttled && s.waited cool 10
  let s := { s with life.coolSince := cool, life.diesCool := dies, life.hot := decide (10000 ≤ base) || s.life.hot && !rested }
  let s := s.calStale
  if 12000 ≤ base then { s with life.tooHot := true }.powerDown
  else if (11000 ≤ base ∨ 12500 ≤ dieA ∨ 12500 ≤ dieB ∨ 12500 ≤ dieRoot) ∧ !s.fbit Reg.PsuStatus.trunksOff then s.trunksOff
  else s

/-- R21, R26: the twig clock is at 300 MHz, or at 400 MHz again. -/
def throttle (s : State) (on : Bool) : State := (s.fsetB Reg.PsuStatus.throttled on).fsetB Reg.TreeMode.throttled on

/-- R21: the next frame epoch after the baseplate has reached 100 °C. -/
def throttleOn (s : State) : State := if s.life.hot then s.throttle true else s

/-- R21: the first frame epoch after 10 s below 95 °C. -/
def throttleOff (s : State) : State :=
  if s.waited s.life.coolSince 10 then { s.throttle false with life.hot := false } else s

/-- R474: 60 s below 95 °C with every die below 100 °C: the trunks restart through TEST and load the seed again. -/
def thermalBack (s : State) : State :=
  if !s.fbit Reg.PsuStatus.trunksOff || !s.waited s.life.diesCool 60 then s
  else
    let s := (s.fset Reg.PsuStatus.trunksOff 0).faultPad
    if !s.twin.started then (if s.fbit Reg.TreeReady.firmware then s.startShow else s)
    else ((s.setTrunkState .a 1).setTrunkState .b 1).reloadTrunks

/-- R326, R411: check codes find a fault in the compare stage or the switch core. The code of the event is stated nowhere. -/
def moduleFault (s : State) (switchCore : Bool) : State :=
  let s := s.rootEvent (if switchCore then 0x80000 else 0x70000) (Config.unstated 326 switchCore.toNat % 2 ^ 16) 4 []
  ({ s with life.moduleFault := true }.faultPad).attnFault

end State

/-- THERMAL_SAMPLE (R21, R454, R473, R474): a module that was too hot may power up again below 80 °C. -/
def execThermalSample (base dieA dieB dieRoot : Int) (s : State) : Host.Outcome State Fault Refusal :=
  if s.held then .next (if base < 8000 then { s with life.tooHot := false } else s)
  else .next (s.thermalSample base dieA dieB dieRoot)

/-- THROTTLE_ENGAGE (R21, R26). -/
def execThrottleEngage (s : State) : Host.Outcome State Fault Refusal := act s fun s => s.throttleOn

/-- THROTTLE_RELEASE (R21, R26). -/
def execThrottleRelease (s : State) : Host.Outcome State Fault Refusal := act s fun s => s.throttleOff

/-- THERMAL_RECOVERY (R470, R474). -/
def execThermalRecovery (s : State) : Host.Outcome State Fault Refusal := act s fun s => s.thermalBack

/-- ROOT_CHECK_CODE_FAULT (R326, R411, R470). -/
def execRootCheckCodeFault (switchCore : Bool) (s : State) : Host.Outcome State Fault Refusal := act s fun s => s.moduleFault switchCore

end Sys2Proof.Machine
end

