-- ==== Sys2Proof/Machine/Life.lean ====
section
/-! DEFINITION. Life-cycle, self-test, online tests and calibration (R443 to R455). -/

namespace Sys2Proof.Machine

/-- The first of the widest runs of equal good phases among 256: start and length (R453). -/
def widestRun (bad : List Nat) : Nat → Nat → Nat × Nat → Nat × Nat
  | 0, _, best => best
  | n + 1, len, best =>
    let p := 255 - n
    if bad.contains p then widestRun bad n 0 best
    else widestRun bad n (len + 1) (if best.2 < len + 1 then (p - len, len + 1) else best)

namespace State

/-! ### Life-cycle commands (R444 to R446) -/

/-- R444, R480: a life-cycle command replies: an event, and ATTN_FAULT or ATTN_READY. No rule gives a success its code. -/
def lifeDone (s : State) (h : StemHdr) (op code : Nat) : State :=
  let s := s.rootEvent 0x130000 (if code = 0 then Config.unstated 444 op % 2 ^ 16 else code) 0 []
  (if code = 0 then s.attnReady else s.attnFault).done h op code

/-- R445: a signed payload is checked; 0 passes. -/
def lifeAuth (s : State) (op : Nat) (p : List Byte) : Nat :=
  let nonce := (List.range 4).flatMap fun k => leBytes 4 (s.regN (Reg.lifeNonce k))
  let ok := match s.ownerKey with
    | some k => edVerify k (sha256 (p.take 64)) (slice p 64 64)
    | none => false
  if p.length ≠ 128 ∨ p.take 4 ≠ [0x44, 0x47, 0x4C, 0x43] ∨ u16 p 4 ≠ op ∨ u16 p 6 ≠ 0 ∨ u64 p 0x38 ≠ 0 ∨ !ok then 0x0701
  else if slice p 8 16 ≠ nonce then 0x0702
  else 0

/-- R445: a signed command: the check, then a fresh nonce whatever the outcome. -/
def signedCmd (s : State) (h : StemHdr) (op : Nat) (p : List Byte) (f : State → State) : State :=
  let code := s.lifeAuth op p
  let s := s.freshNonce
  if code = 0 then f s else s.lifeDone h op code

/-- R446: LIFE_PROVISION. -/
def lifeProvision (s : State) (h : StemHdr) (key : List Byte) : State :=
  if s.lifeState ≠ 1 then s.lifeDone h 0x200 0x010C
  else if key.length ≠ 32 then s.lifeDone h 0x200 0x0104
  else if s.ownerKey.isSome then s.lifeDone h 0x200 0x0703
  else
    let s := s.writeGen 2 (withOwnerKey s.settingsBody (some key))
    ({ s with life.fuse := 2 }.lifeRefresh).lifeDone h 0x200 0

/-- R446: LIFE_REKEY. -/
def lifeRekey (s : State) (h : StemHdr) (p : List Byte) : State :=
  if s.lifeState ≠ 2 ∧ s.lifeState ≠ 3 then s.freshNonce.lifeDone h 0x201 0x010C
  else s.signedCmd h 0x201 p fun s => ({ s with life.pendKey := some (slice p 0x18 32) }.lifeRefresh).lifeDone h 0x201 0

/-- R446: LIFE_SERVICE. -/
def lifeService (s : State) (h : StemHdr) (leave : Bool) (p : List Byte) : State :=
  if s.lifeState ≠ (if leave then 3 else 2) then (if leave then s else s.freshNonce).lifeDone h 0x202 0x010C
  else if leave then ({ s with life.service := false }.lifeRefresh).lifeDone h 0x202 0
  else s.signedCmd h 0x202 p fun s => ({ s with life.service := true }.lifeRefresh).lifeDone h 0x202 0

/-- R446: what SCRAP erases. -/
def scrap (s : State) (h : StemHdr) : State :=
  let s := { s with ring.setSlots := [], ring.safetyImage := [], upd.store := s.upd.store.erase 2, life.fuse := 4, life.service := false }
  (s.lifeDone h 0x203 0).sessionFlush.warmReset

/-- R446: LIFE_SCRAP. -/
def lifeScrap (s : State) (h : StemHdr) (p : List Byte) : State :=
  if s.lifeState = 4 then s.lifeDone h 0x203 0x010C
  else if s.lifeState = 2 ∨ s.lifeState = 3 then s.signedCmd h 0x203 p fun s => s.scrap h
  else s.scrap h

/-! ### Built-in self-test (R448, R449) -/

/-- R448, R472: every port of a bank is absent, disabled or held off. -/
def bankIdle (s : State) (b : Nat) : Bool :=
  let sap (n : Nat) : Bool := (s.sapRec? n).isNone || s.fbit (Reg.SapCtrl.holdOff n)
  (bankPorts b).all (fun n => (s.ethRec? n).isNone || s.fbit (Reg.PortCtrl.disable n)) &&
    (b != 5 || (List.range 8).all fun n => (s.portOf? 7 n).isNone) &&
    (b != 7 || (List.range 32).all sap) && (b != 8 || (List.range 32).all fun n => sap (n + 32)) &&
    (b != 9 || (List.range 16).all fun n => (s.dmxRec? n).isNone || s.fbit (Reg.DmxCtrl.holdOff n)) &&
    (b != 12 || s.lifeState == 0 || s.lifeState == 1 || s.lifeState == 4)

/-- R448: the region is idle. -/
def regionIdle (s : State) (kind trunk index : Nat) : Bool :=
  let t := if trunk = 0 then Trunk.a else Trunk.b
  let down (t : Trunk) : Bool := s.trunkState t == 0
  match kind with
  | 0 => down t
  | 1 => down .a && down .b || (down .a || down .b) && s.joining.isNone
  | 2 => down t
  | _ => s.bankIdle index

/-- R448: BIST_RUN. A region held disabled, and any region while a test runs, is not idle. -/
def bistRun (s : State) (h : StemHdr) (kind trunk index pattern ms : Nat) : State :=
  let top := ([68, 8, 16, 14] : List Nat).getD kind 0
  if s.lifeState = 2 then s.done h 0x210 0x010C
  else if top ≤ index ∨ 1 < trunk ∨ 1 < pattern ∨ (pattern = 1 ∧ kind ≠ 3) ∨ ms = 0 ∨ 60000 < ms then s.done h 0x210 0x0713
  else if s.life.bist.isSome ∨ s.life.bistHeld.contains (kind, trunk, index) ∨ !s.regionIdle kind trunk index then s.done h 0x210 0x0710
  else
    let r : BistRun := { kind := kind, trunk := trunk, index := index, chan := h.chan, tag := h.tag, endAt := s.free + ms * 1000000 * 65536 }
    { s.fset Reg.BistStatus.busy 1 with life.bist := some r }

/-- R449: a test ends: its region is restored, or held disabled. A channel that has ended gets no reply. -/
def bistEnd (s : State) (errors bits eye : Nat) (restored : Bool) : State :=
  match s.life.bist with
  | none => s
  | some r =>
    if s.free < r.endAt then s
    else
      let s := { s.fset Reg.BistStatus.busy 0 with life.bist := none }
      let s := if restored then s else
        ({ s.fset Reg.BistStatus.restoreFail 1 with life.bistHeld := s.life.bistHeld ++ [(r.kind, r.trunk, r.index)] }.rootEvent 0x140000 0x0712 0 []).attnFault
      let code := if !restored then 0x0712 else if errors = 0 then 0 else 0x0711
      let res := leBytes 4 errors ++ leBytes 8 bits ++ leBytes 2 (if r.kind = 3 then 0 else eye) ++ [0, 0]
      if s.stem.flights.any (fun f => f.chan == r.chan && f.tag == r.tag) then s.reply r.chan r.tag 0x210 code res [] false else s

/-! ### Online tests (R450, R451) -/

/-- R450: the spare bough of a trunk completes a pass of its vectors. -/
def vectorPass (s : State) (t : Trunk) (pass : Bool) : State :=
  if !s.inService t then s
  else
    let b := s.fget (match t with | .a => Reg.TreeMode.spareBoughA | .b => Reg.TreeMode.spareBoughB)
    let k := t.idx * 8 + b
    if pass then { s with life.vecFails := s.life.vecFails.erase k }
    else
      let n := s.life.vecFails.get 0 k + 1
      let s := { s with life.vecFails := s.life.vecFails.set k n }.bump (Reg.bistTrunkVecFail t.idx)
      let s := s.rootEvent 0x140000 0x0860 2 [BitVec.ofNat 8 t.idx, BitVec.ofNat 8 b, BitVec.ofNat 8 n]
      if n < 2 then s
      else
        let f := Reg.BistTrunkHealth.boughFailed t.idx
        let s := s.fset f (s.fget f ||| 2 ^ b)
        ({ s with twin.vecPark := s.twin.vecPark ++ [t.idx] }.refresh).attnFault

/-- R450, R451: bit errors of an online lane test. -/
def laneError (s : State) (t : Trunk) (bits : Nat) : State :=
  let s := (s.bumpBy (Reg.bistTrunkLaneErr t.idx) bits).fset (Reg.BistTrunkHealth.laneErr60s t.idx) 1
  { s with life.laneErrAt := s.life.laneErrAt.set t.idx s.free }.refresh

/-- R451: 60 s without one. -/
def laneQuiet (s : State) (t : Trunk) : State :=
  match s.life.laneErrAt.find? t.idx with
  | some a => if a + 60 * second ≤ s.free then ({ s with life.laneErrAt := s.life.laneErrAt.erase t.idx }.fset (Reg.BistTrunkHealth.laneErr60s t.idx) 0).refresh else s
  | none => s

/-! ### Calibration (R452 to R454) -/

/-- The registers that hold the values of an item. -/
def calRegs (c : CalRun) : Nat × Nat :=
  match c.item with
  | 0 => (Reg.calTbPhase, Reg.calTbPhase)
  | 1 => (Reg.calPortEgress c.index, Reg.calPortIngress c.index)
  | _ => (Reg.calSap c.index, Reg.calSap c.index)

/-- R452: the first of the waiting runs starts, if the references are there; one that cannot start replies, and the next takes its
turn. -/
def calBegin : Nat → State → State
  | 0, s => s
  | n + 1, s =>
    match s.life.cals with
    | [] => s
    | c :: r =>
      if s.fbit Reg.TimeStatus.tenMLock && s.fbit Reg.TimeStatus.ppsValid then
        { s with life.cals := { c with start := s.free, oldE := s.regN (calRegs c).1, oldI := s.regN (calRegs c).2 } :: r }
      else calBegin n ({ s with life.cals := r }.reply c.chan c.tag 0x222 0x0720 [] [] false)

/-- R452: CAL_RUN. A run that is asked for while another is in progress waits for it. -/
def calRun (s : State) (h : StemHdr) (item index : Nat) (skew : Int) : State :=
  let ok := match item with
    | 0 => index == 0
    | 1 => decide (index < 58) || decide (64 ≤ index) && decide (index < 72)
    | 2 => decide (index < 64)
    | _ => false
  if s.lifeState ≠ 2 ∧ s.lifeState ≠ 3 then s.done h 0x222 0x010C
  else if !ok then s.done h 0x222 0x0102
  else
    let c : CalRun := { item := item, index := index, skew := skew, chan := h.chan, tag := h.tag, start := s.free }
    let idle := s.life.cals.isEmpty
    let s := { s with life.cals := s.life.cals ++ [c] }
    if idle then calBegin 1 s else s

/-- A run ends with a code, and the next starts. A channel that has ended gets no reply. -/
def calEnd (s : State) (c : CalRun) (code : Nat) : State :=
  let s := { s.setReg Reg.calTemp (BitVec.ofInt 32 (signed 16 (s.fget Reg.PsuTempBase.temp))) with life.cals := s.life.cals.drop 1 }
  let s := if s.stem.flights.any (fun f => f.chan == c.chan && f.tag == c.tag) then s.reply c.chan c.tag 0x222 code [] [] false else s
  calBegin s.life.cals.length s

/-- R453, R454: an item has its correction and its residual. -/
def calPass (s : State) (c : CalRun) (resE resI : Int) : State :=
  let q := calQual (c.item * 256 + c.index)
  let s := (s.fset ⟨q, 31, 1⟩ 1).fset ⟨q, 30, 1⟩ 0
  let s := if c.item = 2 then s else s.fset ⟨q, 16, 13⟩ (unsigned 13 resE)
  let s := if c.item = 1 then s.fset ⟨q, 0, 13⟩ (unsigned 13 resI) else s
  { s with life.calTemp := s.life.calTemp.set (c.item * 256 + c.index) (signed 16 (s.fget Reg.PsuTempBase.temp)) }.calEnd c 0

/-- R453: a sap line's sampling phase: the centre of the widest run without errors, rounded down. The eye's field holds 255 at most. -/
def calPhase (s : State) (c : CalRun) : State :=
  let w := widestRun c.phases 256 0 (0, 0)
  if w.2 < 64 then s.calEnd c 0x0721
  else (s.fset (Reg.CalSap.phase c.index) (w.1 + (w.2 - 1) / 2)).fset (Reg.CalSap.eye c.index) (satTo 255 w.2)

/-- R453: a sample: 1,024 for the correction, then 256 under it for the residual. Means round down (DESIGN CHOICE). -/
def calSample (s : State) (egress ingress : Int) (errors : Nat) : State :=
  match s.life.cals with
  | [] => s
  | c :: r =>
    let sdi := c.item == 1 && decide (64 ≤ c.index)
    let phase := c.n % 256
    let c := { c with n := c.n + 1, sumE := c.sumE + egress - (if c.item = 0 then c.skew else 0), sumI := c.sumI + (if sdi then 0 else ingress),
                      phases := if c.item = 2 ∧ 0 < errors ∧ c.n < 1024 then phase :: c.phases else c.phases }
    let keep (s : State) (c : CalRun) : State := { s with life.cals := c :: r }
    if c.n = 1024 then
      if c.item = 2 then (keep s c).calPhase c
      else
        let s := s.setRegN (calRegs c).1 (unsigned 32 (c.sumE / 1024))
        let s := if c.item = 1 ∧ !sdi then s.setRegN (calRegs c).2 (unsigned 32 (c.sumI / 1024)) else s
        keep s { c with sumE := 0, sumI := 0 }
    else if c.n = 1280 then
      let e := c.sumE / 256
      let i := c.sumI / 256
      if c.item ≠ 2 ∧ (500 < e.natAbs ∨ c.item = 1 ∧ 500 < i.natAbs) then ((keep s c).setRegN (calRegs c).1 c.oldE |>.setRegN (calRegs c).2 c.oldI).calEnd c 0x0721
      else (keep s c).calPass c e i
    else keep s c

/-- R453: the samples have not come within 60 s. -/
def calLate (s : State) : State :=
  match s.life.cals with
  | c :: _ => if c.start + 60 * second ≤ s.free then s.calEnd c 0x0722 else s
  | [] => s

end State

/-! ### Meanings -/

/-- LIFE_PROVISION (R443, R444, R446). -/
def execLifeProvision (h : StemHdr) (key : List Byte) (s : State) : Host.Outcome State Fault Refusal :=
  act s fun s => s.stemCmd h 0x200 key.length false (.lifeProvision h key) fun s => s.lifeProvision h key

/-- LIFE_REKEY (R444 to R446). -/
def execLifeRekey (h : StemHdr) (payload : List Byte) (s : State) : Host.Outcome State Fault Refusal :=
  act s fun s => s.stemCmd h 0x201 payload.length false (.lifeRekey h payload) fun s => s.lifeRekey h payload

/-- LIFE_SERVICE (R443 to R446). -/
def execLifeService (h : StemHdr) (leave : Bool) (payload : List Byte) (s : State) : Host.Outcome State Fault Refusal :=
  act s fun s => s.stemCmd h 0x202 payload.length false (.lifeService h leave payload) fun s => s.lifeService h leave payload

/-- LIFE_SCRAP (R443 to R446). -/
def execLifeScrap (h : StemHdr) (payload : List Byte) (s : State) : Host.Outcome State Fault Refusal :=
  act s fun s => s.stemCmd h 0x203 payload.length false (.lifeScrap h payload) fun s => s.lifeScrap h payload

/-- BIST_RUN (R448). -/
def execBistRun (h : StemHdr) (kind trunk index pattern durationMs : Nat) (s : State) : Host.Outcome State Fault Refusal :=
  act s fun s => s.stemCmd h 0x210 0 false (.bistRun h kind trunk index pattern durationMs) fun s => s.bistRun h kind trunk index pattern durationMs

/-- BIST_DONE (R449). -/
def execBistDone (errors bits eye : Nat) (restored : Bool) (s : State) : Host.Outcome State Fault Refusal := act s fun s => s.bistEnd errors bits eye restored

/-- SPARE_VECTOR_PASS (R450). -/
def execSpareVectorPass (t : Trunk) (pass : Bool) (s : State) : Host.Outcome State Fault Refusal := act s fun s => s.vectorPass t pass

/-- ONLINE_LANE_ERROR (R450, R451). -/
def execOnlineLaneError (t : Trunk) (bits : Nat) (s : State) : Host.Outcome State Fault Refusal := act s fun s => s.laneError t bits

/-- LANE_ERROR_WINDOW_EXPIRY (R451). -/
def execLaneErrorWindowExpiry (t : Trunk) (s : State) : Host.Outcome State Fault Refusal := act s fun s => s.laneQuiet t

/-- CAL_RUN (R452). -/
def execCalRun (h : StemHdr) (item index : Nat) (skewPs : Int) (s : State) : Host.Outcome State Fault Refusal :=
  act s fun s => s.stemCmd h 0x222 0 false (.calRun h item index skewPs) fun s => s.calRun h item index skewPs

/-- CAL_SAMPLE (R453, R454). -/
def execCalSample (egressPs ingressPs : Int) (phaseErrors : Nat) (s : State) : Host.Outcome State Fault Refusal := act s fun s => s.calSample egressPs ingressPs phaseErrors

/-- CAL_NO_GAP (R453). -/
def execCalNoGap (s : State) : Host.Outcome State Fault Refusal := act s fun s => s.calLate

end Sys2Proof.Machine
end

