-- ==== Sys2Proof/Machine/Bus.lean ====
section
/-! DEFINITION. Register and memory accesses from outside: what a write or a read of an address does, by the register's own
behaviour, and the commands that make them (R3 to R6, R54, R57, R380 to R394). -/

namespace Sys2Proof.Machine

namespace State

/-! ### Writes of the root's registers -/

/-- R53, R55, R56: a write to an axis or to an event slot. -/
def axisWrite (s : State) (a : Nat) (v : Word) : State :=
  if a = Reg.axisSnapCmd then (if v.getLsbD 0 then s.snapAll else s)
  else if 0x40100 ≤ a ∧ a < 0x40100 + 18 * 0x40 ∧ a % 0x40 = 0 then
    let n := (a - 0x40100) / 0x40
    let s := if v.getLsbD 0 then s.snapAxis n else s
    let s := s.writeHoldMode n (v.getLsbD 5)
    if v.getLsbD 4 then s.relockAxis n else s
  else if 0x41000 ≤ a ∧ a < 0x43000 then
    let m := (a - 0x41000) / 0x20
    let armed := s.evtState m == 1
    if a % 0x20 = 0x1C then s.plainWrite a v.toNat
    else if a % 0x20 = 0x18 then
      if v.getLsbD 10 && v.getLsbD 11 then s.evtBothOp m
      else if armed then (if v.getLsbD 11 then s.evtDisarmOp m else s.fset (Reg.AxisEvtStatus.wrIgnored m) 1)
      else
        let s := s.plainWrite a v.toNat
        if v.getLsbD 10 then s.evtArmOp m else s
    else if armed && (regRow a).isSome then s.fset (Reg.AxisEvtStatus.wrIgnored m) 1
    else s.plainWrite a v.toNat
  else s.plainWrite a v.toNat

/-- R387: a write to `STEM_RING_r_CFG`. -/
def ringCfg (s : State) (r : Nat) (v : Word) : State :=
  let on := s.fbit (Reg.StemRingCfg.enable r)
  let s := if on then s else s.fset (Reg.StemRingCfg.entries r) v.toNat
  if v.getLsbD 31 then s.ringOn r else if on then s.ringOff r else s

/-- R385, R387, R397: a write to the Stem block. -/
def stemWrite (s : State) (a : Nat) (v : Word) : State :=
  if 0x50044 ≤ a ∧ a ≤ 0x5004C then s.winWrite ((a - 0x50040) / 4) v
  else if 0x50100 ≤ a ∧ a < 0x50300 then
    let r := (a - 0x50100) / 0x20
    if a % 0x20 < 0x10 then (if s.fbit (Reg.StemRingCfg.enable r) then s else s.plainWrite a v.toNat)
    else if a % 0x20 = 0x10 then s.ringCfg r v
    else s.plainWrite a v.toNat
  else if 0x50400 ≤ a ∧ a < 0x50450 then s.attnClear ((a - 0x50400) / 4) (v.toNat / 65536)
  else s.plainWrite a v.toNat

/-- A log2 interval takes a value in its range, or 0x7F (R6). -/
def logWrite (s : State) (f : Field) (v : Nat) (lo hi : Int) : State :=
  let x := getBits v f.lo f.len
  if x = 0x7F ∨ (lo ≤ signed 8 x ∧ signed 8 x ≤ hi) then s.fset f x else s

/-- R276, R294: a write to `TIME_PTP_i_INTV`; the profile gives the ranges. -/
def intvWrite (s : State) (i v : Nat) : State :=
  if s.fbit (Reg.TimePtpCfg.profile i) then
    let s := (s.logWrite (Reg.TimePtpIntv.logAnnounce i) v (-3) 1).logWrite (Reg.TimePtpIntv.logSync i) v (-7) (-1)
    let x := s.fget (Reg.TimePtpIntv.logSync i)
    let sync : Int := if x = 0x7F then -3 else signed 8 x
    s.logWrite (Reg.TimePtpIntv.logDelay i) v sync (sync + 5)
  else
    let s := (s.logWrite (Reg.TimePtpIntv.logAnnounce i) v 0 4).logWrite (Reg.TimePtpIntv.logSync i) v (-1) 1
    s.logWrite (Reg.TimePtpIntv.logDelay i) v 0 5

/-- R274, R277, R284: a write to the time block. -/
def timeWrite (s : State) (a : Nat) (v : Word) : State :=
  if a = Reg.timeCtrl then
    let s := s.plainWrite a v.toNat
    if !s.fbit Reg.TimeCtrl.tenMInEn && s.fbit Reg.TimeStatus.tenMLock then (s.fset Reg.TimeStatus.tenMLock 0).refEvent else s
  else if a = Reg.timeGmCmd then (if v.getLsbD 4 then s.setTod (v.toNat % 4) (v.getLsbD 5) else s)
  else if 0x60100 ≤ a ∧ a < 0x60500 then
    let i := (a - 0x60100) / 0x100
    if a % 0x100 = 0 then (s.plainWrite a v.toNat).ptpEnable i (v.getLsbD 31)
    else if a % 0x100 = 4 then s.intvWrite i v.toNat
    else s.plainWrite a v.toNat
  else s.plainWrite a v.toNat

/-- R327: a write to `CMP_CTRL`. -/
def cmpWrite (s : State) (v : Word) : State :=
  let s := s.plainWrite Reg.cmpCtrl v.toNat
  let s := if v.getLsbD 31 then s.fset Reg.CmpStatus.failbackLatched 0 else s
  let s := if v.getLsbD 30 then s.swapWrite else s
  let s := if v.getLsbD 28 then s.rejoin .a else s
  if v.getLsbD 29 then s.rejoin .b else s

/-- R401, R404: a host write to check-value engine `n` of the root. -/
def chkWrite (s : State) (a n : Nat) (v : Word) : State :=
  let o := a % 0x80
  if n < 6 then (if (regRow a).isSome then s.chkFlag none n 26 true else s)
  else if o = 4 then
    let s := if v.getLsbD 31 then s.chkStartOp none n else s
    if v.getLsbD 30 then s.chkFinishOp none n else s
  else if o = 8 then s.chkDataOp none n v
  else if o = 0x30 ∨ o = 0x34 then s.chkStateOp none n (o == 0x34) v
  else if (o = 0 ∨ 0x10 ≤ o ∧ o ≤ 0x2C) ∧ s.chkBusy none n then s.chkFlag none n 26 true
  else if o = 0 then (s.plainWrite a v.toNat).putChk none n { s.chkSt none n with badCfg := (regRow a).any fun r => r.flds.any fun f => f.bars (f.of v.toNat) }
  else s.plainWrite a v.toNat

/-- R454, R456: the calibration item a register belongs to, by item * 256 + index. -/
def calItemAt (a : Nat) : Option Nat :=
  let o := a % 0x10000
  if o = 0 ∨ o = 4 then some 0
  else if 0x100 ≤ o ∧ o < 0x100 + 72 * 0x10 then some (256 + (o - 0x100) / 0x10)
  else if 0x800 ≤ o ∧ o < 0x900 then some (512 + (o - 0x800) / 4)
  else none

/-- R454: a host write to a calibration item. A value restored as valid counts as calibrated at the present temperature. -/
def calWrite (s : State) (a : Nat) (v : Word) : State :=
  match calItemAt a with
  | none => s.plainWrite a v.toNat
  | some k =>
    let busy := match s.life.cals with | c :: _ => c.item * 256 + c.index == k | [] => false
    if busy then s.fset ⟨calQual k, 29, 1⟩ 1
    else if 256 + 64 ≤ k ∧ k < 512 ∧ a % 0x10 = 4 then s
    else
      let s := s.plainWrite a v.toNat
      if a = calQual k ∧ v.getLsbD 31 then
        { s.fset ⟨a, 30, 1⟩ 0 with life.calTemp := s.life.calTemp.set k (signed 16 (s.fget Reg.PsuTempBase.temp)) }
      else s

/-- A write of a register of the root: the registers with a behaviour of their own, and every other one by its access codes. -/
def rootWrite (s : State) (a : Nat) (v : Word) : State :=
  let n := v.toNat
  if s.portAbsent a then s
  else match a / 0x10000 with
  | 0x00 =>
    let s := s.plainWrite a n
    if a = Reg.treeSafeCtrl ∧ v.getLsbD 0 then s.releaseWrite else s
  | 0x04 => s.axisWrite a v
  | 0x05 => s.stemWrite a v
  | 0x06 => s.timeWrite a v
  | 0x07 => if a = Reg.cmpCtrl then s.cmpWrite v else s.plainWrite a n
  | 0x08 =>
    let s := s.plainWrite a n
    if a = Reg.swCtrl ∧ v.getLsbD 31 then s.swFlush else s
  | 0x09 => if s.qbPresent (qbAt a) then s.plainWrite a n else s
  | 0x0C =>
    let s := s.plainWrite a n
    if a % 0x40 = 0 ∧ v.getLsbD 1 then s.discoveryStart (a % 0x10000 / 0x40) else s
  | 0x0D => if a % 0x100 = 0 then s.sapHoldWrite (a % 0x10000 / 0x100) (v.getLsbD 0) else s.plainWrite a n
  | 0x0E =>
    if 0xE0200 ≤ a ∧ a < 0xE0240 then s.graftAttr ((a - 0xE0200) / 4) v
    else if 0xE0300 ≤ a ∧ a < 0xE0340 then (s.plainWrite a n).tunnelCheck ((a - 0xE0300) / 4)
    else s.plainWrite a n
  | 0x10 | 0x11 =>
    let p := (a - 0x100000) / 0x100
    if a % 0x100 = 0 then
      let s := s.disableWrite p (v.getLsbD 0)
      if v.getLsbD 1 then s.rearmWrite p else s
    else s.plainWrite a n
  | 0x12 => if a < 0x120400 then s.chkWrite a ((a - 0x120000) / 0x80) v else s.plainWrite a n
  | 0x13 =>
    if a = Reg.lifeCtrl then
      let s := if v.getLsbD 0 then s.parkWrite .a else s
      if v.getLsbD 1 then s.parkWrite .b else s
    else s.plainWrite a n
  | 0x15 => s.calWrite a v
  | 0x16 =>
    if a = Reg.recCtrl then
      let s := (List.range 4).foldl (fun s k => if v.getLsbD k then s.recThaw k else s) s
      if v.getLsbD 31 then s.recFreeze else s
    else s.plainWrite a n
  | _ => s.plainWrite a n

/-! ### Writes of a trunk's registers -/

/-- R339 to R344: a write from outside to the interrupt controller of a trunk. -/
def icuWrite (s : State) (t : Trunk) (off : Nat) (v : Word) : State :=
  let o := off % 0x10000
  let w := o % 0x80 / 4
  if o < 0x80 then s.maskWrite t true none w v
  else if o < 0x100 then s.maskWrite t false none w v
  else if o < 0x180 then s.pendSetWrite t none w v
  else if o < 0x200 then s.pendClrWrite t none w v
  else if 0x400 ≤ o ∧ o < 0x500 ∧ o % 0x20 = 4 then s.completeSrc t ((o - 0x400) / 0x20) (v.toNat % 1024)
  else if 0x800 ≤ o ∧ o < 0x1000 then s.routeWrite t none ((o - 0x800) / 4) v
  else s.plainWrite (trunkBase t + off) v.toNat

/-- R337, R345: a host write to the registers of guest core `c`; the SEND registers ignore it. -/
def guestWrite (s : State) (t : Trunk) (c off : Nat) (v : Word) : State :=
  if off % 0x40 = 0 then
    let s := if v.getLsbD 31 then s.guestAct t c (fun g => { g with haltReq := true }) else s
    let s := if v.getLsbD 30 then s.guestAct t c (fun g => { g with resumeReq := true }) else s
    let s := if v.getLsbD 29 then s.guestAct t c (fun g => { g with restartReq := true }) else s
    if v.getLsbD 28 then s.guestBell t c else s
  else if off % 0x40 = 4 then s.plainWrite (trunkBase t + off) v.toNat
  else s

/-- A write of the register at offset `off` of a trunk's own range. -/
def trunkWrite (s : State) (t : Trunk) (off : Nat) (v : Word) : State :=
  let a := trunkBase t + off
  match off / 0x10000 with
  | 0x05 => s.crownWrite t off v.toNat
  | 0x06 => s.rastWrite t off v.toNat
  | 0x08 => s.icuWrite t off v
  | 0x09 => if off < 0x90080 then s.guestWrite t ((off - 0x90000) / 0x40) off v else s.plainWrite a v.toNat
  | 0x0B => if s.qbPresent (qbAt a) then s.plainWrite a v.toNat else s
  | 0x0C => if off < 0xC0800 ∧ (regRow a).isSome then s.chkFlag (some t) ((off - 0xC0000) / 0x80) 26 true else s.plainWrite a v.toNat
  | _ => s.plainWrite a v.toNat

/-- A trunk's own range takes a write: not while it is DOWN, in TEST (R383), or joining (R312). -/
def trunkTakes (s : State) (t : Trunk) : Bool := !s.trunkClosed t && s.trunkState t != 2

/-- R4, R115, R413: after a write of the register at `a` in state `s0`, the write-1-to-clear bits that the hardware set in the same cycle
stand, and a `valid` bit that was cleared takes this cycle's error. -/
def keepSet (s0 s : State) (a : Nat) : State :=
  match regRow a with
  | none => s
  | some r =>
    let m := r.w1cMask &&& s0.cyc.sets.get 0 a &&& s0.regN a
    let s := if m = 0 then s else s.setRegN a (s.regN a ||| m)
    let l := s0.cyc.again.get [] a
    if l.isEmpty ∨ s.regN a / 2 ^ 31 = 1 then s else l.foldl (fun s r => s.setRegN r.1 r.2) { s with cyc.again := s.cyc.again.erase a }

/-- A write of the register at `a` of the root, or at offset `off` of a trunk, by its behaviour, with R4. -/
def rootStore (s : State) (a : Nat) (v : Word) : State := keepSet s (s.rootWrite a v) a
def trunkStore (s : State) (t : Trunk) (off : Nat) (v : Word) : State := keepSet s ((s.keepOld t off).trunkWrite t off v) (trunkBase t + off)

/-- R381, R383: a write of one register word at a tree address. -/
def wordWrite (s : State) (a : Nat) (v : Word) : State :=
  let off := a % 0x1000000
  if a % 4 ≠ 0 then s
  else if a < 0x1000000 then s.rootStore a v
  else if a < 0x3000000 then (if s.trunkTakes (trunkOf a) then s.trunkStore (trunkOf a) off v else s)
  else if a < 0x4000000 ∧ !s.noTrunk then s.onTrunks mirrored (fun t s => s.trunkStore t off v)
  else s

/-- R13, R386: a write of one register word as an input of its own. -/
def busWrite (s : State) (a : Nat) (v : Word) : State := s.nextTag.wordWrite a v

/-! ### Reads -/

/-- R4, R221: a read of `b` clears what is read-clear there: of a 64-bit counter both words, of an upper word nothing. -/
def readClear (s : State) (b : Nat) : State :=
  if isLatched b then s
  else
    let s := (s.plainRead b).2
    if latchSpan b = 1 then (s.plainRead (b + 4)).2 else s

/-- R54: a read of `b` latches the upper words of its set. -/
def readLatch (s : State) (b : Nat) : State :=
  { s with latch := (List.range (latchSpan b)).foldl (fun l i => l.set (b + 4 * (i + 1)) (BitVec.ofNat 32 (s.liveValue (b + 4 * (i + 1))))) s.latch }

/-- R341: the core whose `ICU_CLAIM` register this is. -/
def claimAt (b : Nat) : Option Nat :=
  let o := b % 0x1000000
  if 0x1000000 ≤ b ∧ atIdx 0x80400 0x20 8 o then some ((o - 0x80400) / 0x20) else none

/-- R137: what a read through `a` does to the register at `b` that answers it; under TWIN an alias read does it in the other trunk as
well, so that the counters of both stay equal. -/
def clearTwin (s : State) (f : State → Nat → State) (a b : Nat) : State :=
  let s := f s b
  let u := (trunkOf b).other
  if 0x3000000 ≤ a ∧ s.redundancy = 0 ∧ s.mirrored u then f s (trunkBase u + b % 0x1000000) else s

/-- R3, R4, R54, R341, R381, R383: a read of one register word at a tree address: what it returns stands in `rdata`. -/
def wordRead (s : State) (a : Nat) : State :=
  match s.readAddr a with
  | none => { s with rdata := [0] }
  | some b =>
    match claimAt b with
    | some c => s.claim (trunkOf b) c
    | none => { (s.readLatch b).clearTwin readClear a b with rdata := [BitVec.ofNat 32 (s.regValue a)] }

/-- R4: events that arrive in the cycle of a read of `a` count after its clear: what they leave in each read-clear field. -/
def eventsAt (v : Word) (s : State) (b : Nat) : State :=
  match regRow b with
  | none => s
  | some r =>
    s.setRegN b (r.flds.foldl (fun w f => if f.acc == .rc ∧ f.of v.toNat ≠ 0 then setBits w f.lo (f.hi + 1 - f.lo) (f.of v.toNat) else w) (s.regN b))

/-- The events of the cycle of a read of `a`. -/
def eventsAfter (s : State) (a : Nat) (v : Word) : State := match s.readAddr a with | none => s | some b => s.clearTwin (eventsAt v) a b

/-! ### Scheduled writes and BAR0 -/

/-- A byte of the ring record, of DRAM, or of the sap diagnostic table in root DRAM (R269). -/
def byteAt (s : State) (a : Nat) : Byte :=
  if a < 0x5000000 then s.ringByte (a - 0x4000000)
  else if 0x20FF000000 ≤ a then
    let o := a - 0x20FF000000
    (s.nodeRec (o / 0x40000) (o % 0x40000 / 0x100)).getD (o % 0x100) 0
  else memGet s.mem a

/-- R57: the next scheduled writes are issued, at most four in a fabric cycle. -/
def issueWrites (s : State) : State :=
  let n := min (4 - s.cyc.issued) s.schedQ.length
  (s.schedQ.take n).foldl (fun s w => s.busWrite w.1 w.2) { s with schedQ := s.schedQ.drop n, cyc.issued := s.cyc.issued + n }

/-- R385: the tree address that an offset of BAR0 maps, if its window maps one. -/
def bar0Map (s : State) (off : Nat) : Option Nat :=
  let k := off / 2 ^ 22
  if k = 0 then some off
  else if k < 4 ∧ s.fbit (Reg.StemWin.enable k) then some (s.fget (Reg.StemWin.base k) * 2 ^ 22 + off % 2 ^ 22)
  else none

/-- R385: a write to BAR0. -/
def barWrite (s : State) (off : Nat) (v : Word) : State :=
  match s.bar0Map off with
  | none => s
  | some a => if a < 0x4000000 then s.busWrite a v else s.bump Reg.stemBarWrDrop

/-- R385: what a read of a memory window of BAR0 returns. -/
def barMemory (s : State) (a : Nat) : Word := BitVec.ofNat 32 (ofLe ((List.range 4).map fun i => s.byteAt (a + i)))

/-- R4, R54, R385: a read of a tree address, or of an offset of BAR0; `events` arrive in its cycle. -/
def hostRead (s : State) (bar : Bool) (addr : Nat) (events : Word) : State :=
  match (if bar then s.bar0Map addr else some addr) with
  | none => { s with rdata := [0] }
  | some a => if bar && decide (0x4000000 ≤ a) then { s with rdata := [s.barMemory a] } else (s.wordRead a).eventsAfter a events

/-! ### Register commands (R381, R383, R392) -/

/-- What stops a register command: an address outside the register ranges, one not aligned or a length out of range, or a closed
trunk. -/
def regCode (s : State) (addr len : Nat) : Nat :=
  if 0x4000000 ≤ addr then 0x0103
  else if addr % 4 ≠ 0 ∨ len % 4 ≠ 0 ∨ len < 4 ∨ 256 < len then 0x0104
  else if 0x4000000 < addr + len then 0x0103
  else if [Trunk.a, Trunk.b].any (fun t => s.trunkClosed t && decide (addr < trunkBase t + 0x1000000) && decide (trunkBase t < addr + len)) then 0x0107
  else 0

/-- R421, R446: the blocks that READ_REG reaches in recovery mode and in SCRAP. -/
def blocksOnly (l : List Nat) (addr len : Nat) : Bool := l.contains (addr / 0x10000) && (addr + len - 1) / 0x10000 == addr / 0x10000

/-- READ_REG. -/
def readReg (s : State) (h : StemHdr) (addr len : Nat) : State :=
  if s.fbit Reg.TreeReady.recovery && !blocksOnly [0x00, 0x13] addr len then s.done h 0x10 0x0210
  else if s.fget Reg.LifeState.state = 4 ∧ !blocksOnly [0x00, 0x13, 0x14] addr len then s.done h 0x10 0x010C
  else
    let code := s.regCode addr len
    if code ≠ 0 then s.done h 0x10 code
    else
      let r := (List.range (len / 4)).foldl (fun (x : List Word × State) i => let s := x.2.wordRead (addr + 4 * i); (x.1 ++ s.rdata, s)) ([], s)
      let l := r.1.flatMap fun w => leBytes 4 w.toNat
      let s := { r.2 with rdata := r.1 }
      if len ≤ 8 then s.reply h.chan h.tag 0x10 0 l [] false else s.reply h.chan h.tag 0x10 0 [] l false

/-- WRITE_REG: the accesses of one command share one arrival tag (R391). -/
def writeReg (s : State) (h : StemHdr) (addr : Nat) (data : List Word) : State :=
  let code := s.regCode addr (4 * data.length)
  if code ≠ 0 then s.done h 0x11 code
  else ((data.zipIdx.foldl (fun s (p : Word × Nat) => s.wordWrite (addr + 4 * p.2) p.1) s.nextTag)).done h 0x11 0

/-! ### Memory commands (R363, R380, R392 to R394) -/

/-- The area lies in one range of the address map. -/
def within (a n lo hi : Nat) : Bool := decide (lo ≤ a) && decide (a + n ≤ hi)

/-- R380: the memory ranges that READ_MEM reaches, but for the graft window. -/
def readable (a n : Nat) : Bool :=
  within a n 0x4000000 0x5000000 || within a n 0x1000000000 0x1800000000 || within a n 0x1800000000 0x2000000000 || within a n 0x2000000000 0x2100000000

/-- R363, R393: a graft transaction of Stem; its reply is held. -/
def graftMem (s : State) (h : StemHdr) (write : Bool) (addr len : Nat) (data : List Byte) : State :=
  let w := addr - 0x4000000000
  s.graftSubmit { tables := [2], replyTo := .stem h.chan h.tag (if write then 0x21 else 0x20), write := write, leaf := w / 0x40000, offset := w % 0x40000,
                  length := len, data := data, remote := s.graftRemote 0 }

/-- The graft window begins at an address. -/
def inGraft (a : Nat) : Bool := decide (0x4000000000 ≤ a) && decide (a < 0x8000000000)

/-- READ_MEM. -/
def readMem (s : State) (h : StemHdr) (addr len : Nat) : State :=
  if inGraft addr then s.graftMem h false addr len []
  else if len = 0 then s.done h 0x20 0x0104
  else if !readable addr len then s.done h 0x20 0x0103
  else s.reply h.chan h.tag 0x20 0 [] ((List.range len).map fun i => s.byteAt (addr + i)) false

/-- R394: the trunk whose DRAM holds the area. -/
def dramOf (a n : Nat) : Option Trunk :=
  if within a n (dramBase .a) (dramBase .a + 2 ^ 35) then some .a
  else if within a n (dramBase .b) (dramBase .b + 2 ^ 35) then some .b
  else none

/-- WRITE_MEM. -/
def writeMem (s : State) (h : StemHdr) (addr : Nat) (data : List Byte) : State :=
  if inGraft addr then (if h.twin then s.done h 0x21 0x0103 else s.graftMem h true addr data.length data)
  else if data.isEmpty then s.done h 0x21 0x0104
  else
    match dramOf addr data.length with
    | none => s.done h 0x21 0x0103
    | some t =>
      if h.twin then
        if t ≠ .a then s.done h 0x21 0x0103
        else (s.nextTag.onTrunks mirrored (fun t s => s.memWrite (addr - dramBase .a + dramBase t) data)).done h 0x21 0
      else if s.compareActive ∨ s.redundancy ≠ 2 then s.done h 0x21 0x0108
      else (if s.trunkTakes t then s.nextTag.memWrite addr data else s).done h 0x21 0

end State

/-! ### Meanings -/

/-- REGISTER_WRITE (R3, R5, R6, R381, R383). -/
def execRegisterWrite (addr : Nat) (value : Word) (s : State) : Host.Outcome State Fault Refusal := act s fun s => s.busWrite addr value

/-- READ_CLEAR (R4) of a tree address, or through BAR0 (R385): `events` arrive in the cycle of the read. -/
def execReadClear (addr : BusAddr) (events : Word) (s : State) : Host.Outcome State Fault Refusal :=
  act s fun s => s.hostRead addr.bar addr.addr events

/-- LO_WORD_READ (R54) of a tree address, or through BAR0 (R385). -/
def execLoWordRead (addr : BusAddr) (s : State) : Host.Outcome State Fault Refusal := act s fun s => s.hostRead addr.bar addr.addr 0

/-- SCHEDULED_WRITE (R57). -/
def execScheduledWrite (s : State) : Host.Outcome State Fault Refusal := act s fun s => s.issueWrites

/-- BAR0_WRITE (R385, R386). -/
def execBar0Write (off : Nat) (v : Word) (s : State) : Host.Outcome State Fault Refusal := act s fun s => s.barWrite off v

/-- READ_REG (R381, R383, R392, R421, R446). -/
def execReadReg (h : StemHdr) (addr length : Nat) (s : State) : Host.Outcome State Fault Refusal :=
  act s fun s => s.stemCmd h 0x10 length true (.readReg h addr length) fun s => s.readReg h addr length

/-- WRITE_REG (R381, R383, R386, R391, R392). -/
def execWriteReg (h : StemHdr) (addr : Nat) (data : List Word) (s : State) : Host.Outcome State Fault Refusal :=
  act s fun s => s.stemCmd h 0x11 (4 * data.length) false (.writeReg h addr data) fun s => s.writeReg h addr data

/-- READ_MEM (R363, R381, R392, R393). -/
def execReadMem (h : StemHdr) (addr length : Nat) (s : State) : Host.Outcome State Fault Refusal :=
  act s fun s => s.stemCmd h 0x20 length true (.readMem h addr length) fun s => s.readMem h addr length

/-- WRITE_MEM (R363, R381, R392 to R394). -/
def execWriteMem (h : StemHdr) (addr : Nat) (data : List Byte) (s : State) : Host.Outcome State Fault Refusal :=
  act s fun s => s.stemCmd h 0x21 data.length false (.writeMem h addr data) fun s => s.writeMem h addr data

end Sys2Proof.Machine
end

