-- ==== Sys2Proof/Machine/Recompute.lean ====
section
/-! DEFINITION. The recompute of a compare unit from what its trunk keeps of the epoch, and the votes of arbitration (R301, R306). -/

namespace Sys2Proof.Machine

namespace State

/-- R301, R306: a leaf's work of a kept epoch, run again from the canvas frames and residuals it began with. A leaf that was held or shed
has no work to run again. -/
def againJob (s : State) (t : Trunk) (k : EpochKept) (j : Job) : Job :=
  if j.frames.isEmpty then j
  else { j with codes := some ((s.putTrunk t { s.trunk t with residuals := j.began, fresh := k.fresh }).runJob t k.job j j.frames).1 }

/-- R306: the content of a kept epoch's units, computed again. -/
def againUnits (s : State) (t : Trunk) (k : EpochKept) : List (List Byte) :=
  let e := { k.job with jobs := k.job.jobs.map (s.againJob t k) }
  let s := s.putTrunk t { s.trunk t with lastCodes := k.lastCodes, heldCodes := k.heldCodes, probeWait := k.probeWait }
  (s.packUnits t e k.safety).1.map Packed.data

/-- R306: the content that trunk `t` recomputes for a unit from what it keeps. Of a frame that guest firmware sent it keeps none. -/
def recompute (s : State) (t : Trunk) (code seq : Nat) : Option (List Byte) :=
  match (s.trunk t).keptLines.find? (fun l => l.code == code && l.seq == seq) with
  | some l => some (lineCodes l)
  | none =>
    match (s.trunk t).kept.find? (fun k => k.code == code && decide (k.first ≤ seq) && decide (seq < k.first + k.count)) with
    | some k => (s.againUnits t k)[seq - k.first]?
    | none => none

/-- R306: the CRC-64 that trunk `t` returns for a unit: of its recompute, in which a fault has inverted the bits of `wrong`. Where the
trunk keeps nothing of the unit, what it returns is `wrong` itself. -/
def voteOf (s : State) (t : Trunk) (code seq : Nat) (wrong : BitVec 64) : BitVec 64 :=
  match s.recompute t code seq with
  | some d => CUnit.crc { code := code, seq := seq, out := { data := d } } ^^^ wrong
  | none => wrong

end State

/-- ARBITRATION_VOTE (R301, R306 to R308, R310, R315, R316). -/
def execArbitrationVote (t : Trunk) (port seq : Nat) (wrong : BitVec 64) (s : State) : Host.Outcome State Fault Refusal :=
  act s fun s => (s.vote t port seq (s.voteOf t port seq wrong)).keptSettle

end Sys2Proof.Machine
end

