-- ==== Sys2Proof/Machine/TimeRef.lean ====
section
/-! DEFINITION. References of the count axes: video, ST 2110-20, AES67, word clock and timecode (R32 to R35, R290 to R293). -/

namespace Sys2Proof.Machine

/-- `x` and `y` differ by at most 100 ppm of `y`. -/
def within100ppm (x y : Nat) : Bool := decide (x * 1000000 ≤ y * 1000100) && decide (y * 999900 ≤ x * 1000000)

namespace State

/-- R290: the reference inputs that `ref_offset` compensates. -/
def refOffsetRaw (s : State) (src : Nat) : Int :=
  if src = 0x30 ∨ src = 0x31 then signed 16 (s.fget Reg.TimeRefCtrl.refOffset) * 65536 else 0

/-- R290: the position at this cycle of a reference whose edge lay `off` (2^-16 ns) earlier at count `c`. -/
def countAt (c adv : Nat) (off : Int) : Nat := ((c * 2 ^ 32 : Nat) + off * adv / (163840 * 2 ^ 32 : Nat)).toNat

/-- A reference gives count `c` and rate `adv`: a LOCKED axis follows it, and one that meets its criterion locks
(R35, R37). -/
def countRef (s : State) (n : Nat) (ready : Bool) (p adv : Nat) : State :=
  if s.axisState n = 2 then (s.takePos n p (s.stepThr n false)).setRate n adv
  else if ready then s.lockAxis n p adv
  else s

/-! ### Video references (R33, R290, R291) -/

/-- R290: lines per frame of REF_FSYNC: the nominal rate times the period, rounded; none when it lies more than 0.01 line off. -/
def fsyncLines (s : State) (n period : Nat) : Option Nat :=
  let a := s.sd.rateNum n * period
  let b := s.sd.rateDen n * second
  let k := roundDiv a b
  if 100 * ((a : Int) - (k * b : Nat)).natAbs ≤ b then some k else none

/-- R33: the frame number at a frame start of an aligned reference of `k` lines: frames of the nominal rate since the PTP epoch. -/
def alignedFrame (s : State) (n k : Nat) : Nat :=
  roundDiv (s.axisPos (s.sd.alignPtp n) * s.sd.rateNum n) (second * s.sd.rateDen n * max 1 k)

/-- R35: the frames of LINE*n* that passed in `gap`, at the line rate and lines per frame established. -/
def framesIn (s : State) (n gap : Nat) : Nat :=
  if (s.axis n).nLines = 0 then 1 else max 1 (roundDiv (countsIn (s.axis n).adv gap) (s.axis n).nLines)

/-- R33, R35, R126, R290: a frame start of LINE*n* with `k` lines per frame received. A LOCKED axis keeps the lines per frame of its lock, and
frame starts that stayed away count as frames. An aligned axis has a position while its PTP instance has one (DESIGN CHOICE). -/
def frameStart (s : State) (n at_ k : Nat) (off : Int) : State :=
  let a := s.axis n
  let gap := at_ - a.lastAt
  let locked := s.axisState n = 2
  let k := if locked then a.nLines else k
  let m := if s.axisState n = 1 then 1 else s.framesIn n gap
  let period := if locked then gap / m else gap
  let same := decide (a.lastPeriod ≠ 0) && a.lines == k && within100ppm period a.lastPeriod
  let aligned := s.sd.axisFlags n % 2 == 1
  let there := !aligned || s.hasPos (s.sd.alignPtp n)
  let count := if aligned && there then s.alignedFrame n k else if s.axisState n = 1 then 0 else a.count + m
  let good := if same then a.good + 1 else 1
  let s := s.setAxis n { a with lastAt := at_, lastPeriod := period, lines := k, count := count, lastRef := 0, good := good }
  let adv := advOf k period
  s.countRef n (there && decide (2 ≤ good)) (countAt (count * k) adv off) adv

/-- VIDEO_REF_EDGE. A frame start measures the frame; another line's edge follows the line. -/
def videoEdge (s : State) (n : Nat) (start : Bool) (lines : Nat) : State :=
  let src := s.sd.axisSource n
  let sdi := 0x10 ≤ src ∧ src ≤ 0x17
  if s.axisState n = 0 ∨ !(sdi ∨ src = 0x30 ∨ src = 0x31) then s
  else
    let a := s.axis n
    let off := s.refOffsetRaw src
    let at_ := ((s.free : Int) - off).toNat
    if start then
      if a.lastAt = 0 then s.setAxis n { a with lastAt := at_, lastRef := 0 }
      else if src = 0x31 then
        match (if s.axisState n = 2 then some a.nLines else s.fsyncLines n (at_ - a.lastAt)) with
        | some k => s.frameStart n at_ k off
        | none => (s.setAxis n { a with lastAt := at_, lastPeriod := 0, good := 0 }).fset (Reg.AxisStatus.rangeErr n) 1
      else s.frameStart n at_ (if sdi then lines else a.lastRef + 1) off
    else
      let s := s.setAxis n { a with lastRef := a.lastRef + 1 }
      if s.axisState n = 2 ∧ src ≠ 0x31 then
        s.takePos n (countAt (a.count * a.nLines + a.lastRef + 1) a.adv off) (s.stepThr n false)
      else s

/-- ST2110_FRAME_RECEIVE: the frame start is the time stamp as 90 kHz counts of the instance since the PTP epoch. -/
def st2110In (s : State) (n rtp k : Nat) : State :=
  let src := s.sd.axisSource n
  let i := s.sd.alignPtp n
  if s.axisState n = 0 ∨ src < 0x20 ∨ 0x2F < src ∨ !s.hasPos i then s
  else
    let a := s.axis n
    let k := if s.axisState n = 2 then a.nLines else k
    let now := s.axisPos i
    let ticks := nearest (now * 90000 / second) (2 ^ 32) rtp
    let f := roundDiv (ticks * s.sd.rateNum n) (90000 * s.sd.rateDen n * max 1 k)
    let start : Int := (ticks * second / 90000 : Nat)
    let good := decide (f = a.lastRef + 1) && a.lines == k
    let s := s.setAxis n { a with lastAt := s.free, lines := k, count := f, lastRef := f, good := if good then a.good + 1 else 0 }
    let adv := s.nominalAdv n
    s.countRef n good (countAt (f * k) adv ((now : Int) - start)) adv

/-! ### Audio references (R292) -/

/-- The PTP instance of an AES67 slot; the settings name it (R433 type 0x0008), and the layout of that record is
stated nowhere. -/
def aesInstance (slot : Nat) : Nat := Config.unstated 292 slot % 4

/-- AES67_PACKET_RECEIVE: an AUDIO axis on the slot counts media clock samples since the PTP epoch. -/
def aesAxis (s : State) (slot rtp n : Nat) : State :=
  let i := aesInstance slot
  if s.axisState n = 0 ∨ s.sd.axisSource n ≠ 0x50 + slot ∨ !s.hasPos i then s
  else
    let num := s.axisPos i * s.sd.rateNum n * 2 ^ 32 / (s.sd.rateDen n * second)
    let s := s.setAxis n { s.axis n with lastAt := s.free }
    let s := s.setRegN (Reg.timeAesOffset slot) (unsigned 32 ((rtp : Int) - (num / 2 ^ 32 : Nat)))
    s.countRef n true num (s.nominalAdv n)

/-- AES67_PACKET_RECEIVE: both AUDIO axes. -/
def aesIn (s : State) (slot rtp : Nat) : State := (s.aesAxis slot rtp 13).aesAxis slot rtp 14

/-- R35, R292: rates that WCLK_IN may have [Hz]. -/
def wclkRates : List Nat := [32000, 44100, 48000, 88200, 96000, 176400, 192000]

/-- WCLK_EDGE: 1,024 edges within 100 ppm of the declared rate lock the axis; each edge is a sample, and so is one that a LOCKED or
HOLDOVER axis missed. A missed edge begins the run of an axis that is not LOCKED again. -/
def wclkIn (s : State) (n : Nat) : State :=
  let a := s.axis n
  let num := s.sd.rateNum n
  let den := s.sd.rateDen n
  if s.axisState n = 0 ∨ s.sd.axisSource n ≠ 0x58 then s
  else if a.lastAt = 0 then s.setAxis n { a with lastAt := s.free, lastRef := s.free, good := 0 }
  else
    let k := max 1 (roundDiv ((s.free - a.lastAt) * num) (second * den))
    let count := if s.axisState n = 1 then 0 else a.count + k
    let again := s.axisState n ≠ 2 ∧ k ≠ 1
    let full := decide (1024 ≤ a.good + k) && !again
    let run := s.free - a.lastRef
    let ok := full && wclkRates.any (fun r => r * den == num) && within100ppm (run * num) ((a.good + k) * second * den)
    let adv := if ok then advOf (a.good + k) run else a.adv
    let s := s.setAxis n { a with lastAt := s.free, count := count, good := if full ∨ again then 0 else a.good + k, lastRef := if full ∨ again then s.free else a.lastRef }
    s.countRef n ok (count * 2 ^ 32) adv

/-! ### Timecode (R34, R293) -/

/-- R34: frames of one day at nominal rate *r*. -/
def tcDay (r : Nat) (drop : Bool) : Nat := 86400 * r - (if drop then 2 * r / 30 * 1296 else 0)

/-- R34: the frame of the day of a label; none where no label reads so. -/
def tcFrame (r : Nat) (drop : Bool) (hh mm ss ff : Nat) : Option Nat :=
  if 24 ≤ hh ∨ 60 ≤ mm ∨ 60 ≤ ss ∨ r ≤ ff then none
  else
    let m := hh * 60 + mm
    let d := 2 * r / 30
    if drop then
      let ff := if ss = 0 ∧ mm % 10 ≠ 0 then max ff d else ff
      some ((m * 60 + ss) * r + ff - d * (m - m / 10))
    else some ((m * 60 + ss) * r + ff)

/-- LTC_FRAME: a frame that is due. On a LOCKED axis the frames expected since the last one are counted on, over midnight too (R34),
whether or not their labels were read; a label that is not the one expected is invalid (R293), and three frames missed or invalid lose
the source. Two valid frames with consecutive labels lock. The spec leaves open how midnights count over a gap: out of HOLDOVER the day is
the one that lies nearest to the position held, and a jump of the labels leaves the day as it is (DESIGN CHOICE). -/
def ltcIn (s : State) (n hh mm ss ff : Nat) (readable : Bool) : State :=
  if s.axisState n = 0 then s
  else
    let a := s.axis n
    let r := s.sd.tcRate n
    let drop := s.sd.axisFlags n / 2 % 2 == 1
    let day := tcDay r drop
    let gap := s.free - a.lastAt
    let locked := s.axisState n = 2
    let fresh := a.lastAt = 0
    let k := if locked ∧ !fresh then max 1 (roundDiv (gap * r) second) else 1
    let want := (a.lastRef + k) % day
    let days := a.count + (a.lastRef + k) / day
    let inTime := s.sd.axisSource n ≠ 0x60 ∨ (10 * gap * r ≤ 11 * k * second ∧ 9 * k * second ≤ 10 * gap * r)
    let miss (a : AxisSt) : State :=
      let s := s.setAxis n { a with lastAt := s.free, bad := a.bad + k }
      if 3 ≤ a.bad + k then s.loseAxis n else s
    let take (days f good : Nat) (ready : Bool) : State :=
      let s := s.setAxis n { a with lastAt := s.free, lastRef := f, bad := 0, good := good, count := days }
      s.countRef n ready ((days * day + f) * 2 ^ 32) (if ready && !fresh then advOf k gap else s.nominalAdv n)
    match (if readable then tcFrame r drop hh mm ss ff else none) with
    | none => miss (if locked then { a with lastRef := want, count := days, good := 0 } else { a with good := 0 })
    | some f =>
      let held := nearest ((s.axis n).pos / 2 ^ 32) day f / day
      if locked ∧ fresh then take held f 1 true
      else if f = want ∧ inTime ∧ !fresh then
        if locked then take days f (a.good + 1) true
        else if a.good = 0 then take 0 f 1 false
        else take (if s.axisState n = 3 then held else 0) f (a.good + 1) true
      else if locked then miss { a with lastRef := f, good := 1 }
      else take 0 f 1 false

end State

/-! ### Meanings -/

/-- VIDEO_REF_EDGE (R33, R35, R290). -/
def execVideoRefEdge (line : Fin 8) (frameStart : Bool) (lines : Nat) (s : State) : Host.Outcome State Fault Refusal :=
  act s fun s => s.videoEdge (4 + line.val) frameStart lines

/-- ST2110_FRAME_RECEIVE (R33, R35, R291). -/
def execSt2110FrameReceive (line : Fin 8) (rtp : Word) (lines : Nat) (s : State) : Host.Outcome State Fault Refusal :=
  act s fun s => s.st2110In (4 + line.val) rtp.toNat lines

/-- AES67_PACKET_RECEIVE (R35, R292). -/
def execAes67PacketReceive (slot : Fin 2) (rtp : Word) (s : State) : Host.Outcome State Fault Refusal :=
  act s fun s => s.aesIn slot rtp.toNat

/-- WCLK_EDGE (R35, R292). -/
def execWclkEdge (slot : Fin 2) (s : State) : Host.Outcome State Fault Refusal :=
  act s fun s => s.wclkIn (13 + slot.val)

/-- LTC_FRAME (R34, R35, R293). -/
def execLtcFrame (tc : Fin 2) (hh mm ss ff : Nat) (readable : Bool) (s : State) : Host.Outcome State Fault Refusal :=
  act s fun s => s.ltcIn (15 + tc.val) hh mm ss ff readable

end Sys2Proof.Machine
end

