-- ==== Sys2Proof/Machine/Dispatch.lean ====
section
/-! DEFINITION. The dispatch: one arm per command, each a call of its meaning. -/

namespace Sys2Proof.Machine

def exec (i : Instr) (s : State) : Host.Outcome State Fault Refusal :=
  match i with
  | .registerWrite addr value => Sys2Proof.Machine.execRegisterWrite addr value s
  | .readClear addr events => Sys2Proof.Machine.execReadClear addr events s
  | .loWordRead addr => Sys2Proof.Machine.execLoWordRead addr s
  | .treeEpoch => Sys2Proof.Machine.execTreeEpoch s
  | .epoch of => Sys2Proof.Machine.execEpoch of s
  | .canvasFrameComplete t f => Sys2Proof.Machine.execCanvasFrameComplete t f s
  | .taskPost t slot flag => Sys2Proof.Machine.execTaskPost t slot flag s
  | .taskDispatch t => Sys2Proof.Machine.execTaskDispatch t s
  | .taskCompletion t slot free work => Sys2Proof.Machine.execTaskCompletion t slot free work s
  | .workItemRerun t leaf pass => Sys2Proof.Machine.execWorkItemRerun t leaf pass s
  | .taskAged t slot => Sys2Proof.Machine.execTaskAged t slot s
  | .qbWrite q data sop eop err => Sys2Proof.Machine.execQbWrite q data sop eop err s
  | .qbRead q => Sys2Proof.Machine.execQbRead q s
  | .qbStale q => Sys2Proof.Machine.execQbStale q s
  | .axisLock n pos rate => Sys2Proof.Machine.execAxisLock n pos rate s
  | .axisSourceLoss n => Sys2Proof.Machine.execAxisSourceLoss n s
  | .axisStep n pos => Sys2Proof.Machine.execAxisStep n pos s
  | .axisRelock n => Sys2Proof.Machine.execAxisRelock n s
  | .axisHoldModeWrite n halt => Sys2Proof.Machine.execAxisHoldModeWrite n halt s
  | .axisSnap n => Sys2Proof.Machine.execAxisSnap n s
  | .axisSnapAll => Sys2Proof.Machine.execAxisSnapAll s
  | .mainsZeroCrossing volts => Sys2Proof.Machine.execMainsZeroCrossing volts s
  | .videoRefEdge line frameStart lines => Sys2Proof.Machine.execVideoRefEdge line frameStart lines s
  | .st2110FrameReceive line rtp lines => Sys2Proof.Machine.execSt2110FrameReceive line rtp lines s
  | .aes67PacketReceive slot rtp => Sys2Proof.Machine.execAes67PacketReceive slot rtp s
  | .wclkEdge slot => Sys2Proof.Machine.execWclkEdge slot s
  | .ltcFrame tc hh mm ss ff readable => Sys2Proof.Machine.execLtcFrame tc hh mm ss ff readable s
  | .evtArm m => Sys2Proof.Machine.execEvtArm m s
  | .evtDisarm m => Sys2Proof.Machine.execEvtDisarm m s
  | .evtArmDisarmBoth m => Sys2Proof.Machine.execEvtArmDisarmBoth m s
  | .axisEventFire m => Sys2Proof.Machine.execAxisEventFire m s
  | .scheduledWrite => Sys2Proof.Machine.execScheduledWrite s
  | .thermalSample base dieA dieB dieRoot => Sys2Proof.Machine.execThermalSample base dieA dieB dieRoot s
  | .throttleEngage => Sys2Proof.Machine.execThrottleEngage s
  | .throttleRelease => Sys2Proof.Machine.execThrottleRelease s
  | .thermalRecovery => Sys2Proof.Machine.execThermalRecovery s
  | .frameLaunch port => Sys2Proof.Machine.execFrameLaunch port s
  | .launchLimitExpiry port => Sys2Proof.Machine.execLaunchLimitExpiry port s
  | .frameTxEnd port => Sys2Proof.Machine.execFrameTxEnd port s
  | .untimedTransmit port => Sys2Proof.Machine.execUntimedTransmit port s
  | .crownCommit t mask => Sys2Proof.Machine.execCrownCommit t mask s
  | .crownCommitCheckDone t => Sys2Proof.Machine.execCrownCommitCheckDone t s
  | .layerReady t n => Sys2Proof.Machine.execLayerReady t n s
  | .heartwoodScrub t block flips => Sys2Proof.Machine.execHeartwoodScrub t block flips s
  | .heartwoodWrite h c => Sys2Proof.Machine.execHeartwoodWrite h c s
  | .safetyLoopSample ohmsA ohmsB => Sys2Proof.Machine.execSafetyLoopSample ohmsA ohmsB s
  | .safetyPack t => Sys2Proof.Machine.execSafetyPack t s
  | .rootSafetyPackerTick => Sys2Proof.Machine.execRootSafetyPackerTick s
  | .safeRelease => Sys2Proof.Machine.execSafeRelease s
  | .safeAutoRelease => Sys2Proof.Machine.execSafeAutoRelease s
  | .rasterLineRead t l => Sys2Proof.Machine.execRasterLineRead t l s
  | .rasterLineStart t g tap => Sys2Proof.Machine.execRasterLineStart t g tap s
  | .rastCommit t g => Sys2Proof.Machine.execRastCommit t g s
  | .rastCommitCheckDone t g => Sys2Proof.Machine.execRastCommitCheckDone t g s
  | .frameReceive port f => Sys2Proof.Machine.execFrameReceive port f s
  | .cutThroughStart ingress egress f => Sys2Proof.Machine.execCutThroughStart ingress egress f s
  | .pauseReceive port time => Sys2Proof.Machine.execPauseReceive port time s
  | .pauseTimerExpiry port => Sys2Proof.Machine.execPauseTimerExpiry port s
  | .pauseWatchdogTrip port => Sys2Proof.Machine.execPauseWatchdogTrip port s
  | .pauseRearm port => Sys2Proof.Machine.execPauseRearm port s
  | .pauseTxRepeat port => Sys2Proof.Machine.execPauseTxRepeat port s
  | .t1sCollision seg bit => Sys2Proof.Machine.execT1sCollision seg bit s
  | .t1sBackoffExpiry seg => Sys2Proof.Machine.execT1sBackoffExpiry seg s
  | .t1sCarrierFall seg => Sys2Proof.Machine.execT1sCarrierFall seg s
  | .linkChange port up => Sys2Proof.Machine.execLinkChange port up s
  | .ringReturn port => Sys2Proof.Machine.execRingReturn port s
  | .portDisable port disable => Sys2Proof.Machine.execPortDisable port disable s
  | .swFlush => Sys2Proof.Machine.execSwFlush s
  | .addressAgeout group addr => Sys2Proof.Machine.execAddressAgeout group addr s
  | .leafcastReturnReceive payload => Sys2Proof.Machine.execLeafcastReturnReceive payload s
  | .e131PacketReceive univ cid h slots checks => Sys2Proof.Machine.execE131PacketReceive univ cid h slots checks s
  | .e131SourceLost univ cid => Sys2Proof.Machine.execE131SourceLost univ cid s
  | .e131Repeat univ => Sys2Proof.Machine.execE131Repeat univ s
  | .dmxFrameStart port => Sys2Proof.Machine.execDmxFrameStart port s
  | .dmxFrameEnd port => Sys2Proof.Machine.execDmxFrameEnd port s
  | .dmxRepeat port => Sys2Proof.Machine.execDmxRepeat port s
  | .rdmTransactionStart port => Sys2Proof.Machine.execRdmTransactionStart port s
  | .rdmResponse port checksumOk ack data => Sys2Proof.Machine.execRdmResponse port checksumOk ack data s
  | .rdmResponseTimeout port => Sys2Proof.Machine.execRdmResponseTimeout port s
  | .rdmNoGap port => Sys2Proof.Machine.execRdmNoGap port s
  | .rdmDiscovery port => Sys2Proof.Machine.execRdmDiscovery port s
  | .dmxInputPacket port startCode slots framingOk breakUs mabUs => Sys2Proof.Machine.execDmxInputPacket port startCode slots framingOk breakUs mabUs s
  | .sapBurstStart line => Sys2Proof.Machine.execSapBurstStart line s
  | .sapBurstEnd line => Sys2Proof.Machine.execSapBurstEnd line s
  | .sapPoll line ident => Sys2Proof.Machine.execSapPoll line ident s
  | .sapReply line frame => Sys2Proof.Machine.execSapReply line frame s
  | .sapTurnaroundEnd line => Sys2Proof.Machine.execSapTurnaroundEnd line s
  | .ptpEnable k on => Sys2Proof.Machine.execPtpEnable k on s
  | .ptpAnnounceReceive k a => Sys2Proof.Machine.execPtpAnnounceReceive k a s
  | .ptpSyncReceive k m sub => Sys2Proof.Machine.execPtpSyncReceive k m sub s
  | .ptpFollowUpReceive k m => Sys2Proof.Machine.execPtpFollowUpReceive k m s
  | .ptpDelayRespReceive k seq t4 corr => Sys2Proof.Machine.execPtpDelayRespReceive k seq t4 corr s
  | .ptpDelayReqReceive k src sub => Sys2Proof.Machine.execPtpDelayReqReceive k src sub s
  | .ptpPdelayReceive port request src sample => Sys2Proof.Machine.execPtpPdelayReceive port request src sample s
  | .ptpMessageDiscard k => Sys2Proof.Machine.execPtpMessageDiscard k s
  | .ptpAnnounceSend k => Sys2Proof.Machine.execPtpAnnounceSend k s
  | .ptpSyncSend k => Sys2Proof.Machine.execPtpSyncSend k s
  | .ptpDelayReqSend k => Sys2Proof.Machine.execPtpDelayReqSend k s
  | .ptpAnnounceTimeout k => Sys2Proof.Machine.execPtpAnnounceTimeout k s
  | .ptpSyncTimeout k => Sys2Proof.Machine.execPtpSyncTimeout k s
  | .ppsInEdge => Sys2Proof.Machine.execPpsInEdge s
  | .ppsLost => Sys2Proof.Machine.execPpsLost s
  | .setTod k atPps => Sys2Proof.Machine.execSetTod k atPps s
  | .ppsOutEdge => Sys2Proof.Machine.execPpsOutEdge s
  | .ocxoReady => Sys2Proof.Machine.execOcxoReady s
  | .tenMLock => Sys2Proof.Machine.execTenMLock s
  | .tenMLoss => Sys2Proof.Machine.execTenMLoss s
  | .compareUnitArrival t => Sys2Proof.Machine.execCompareUnitArrival t s
  | .compareWindowExpiry => Sys2Proof.Machine.execCompareWindowExpiry s
  | .arbitrationVote t port seq wrong => Sys2Proof.Machine.execArbitrationVote t port seq wrong s
  | .voteTimeout => Sys2Proof.Machine.execVoteTimeout s
  | .linkReplay t up lane => Sys2Proof.Machine.execLinkReplay t up lane s
  | .trunkKeepaliveLoss t => Sys2Proof.Machine.execTrunkKeepaliveLoss t s
  | .trunkTestDone t pass => Sys2Proof.Machine.execTrunkTestDone t pass s
  | .trunkTestRetry t => Sys2Proof.Machine.execTrunkTestRetry t s
  | .resyncBulkDone => Sys2Proof.Machine.execResyncBulkDone s
  | .resyncTimeout => Sys2Proof.Machine.execResyncTimeout s
  | .cmpUnlatch => Sys2Proof.Machine.execCmpUnlatch s
  | .cmpSwap => Sys2Proof.Machine.execCmpSwap s
  | .cmpRejoin t => Sys2Proof.Machine.execCmpRejoin t s
  | .heartbeatSend => Sys2Proof.Machine.execHeartbeatSend s
  | .heartbeatReceive h serving alarm takeover seedId epochIndex => Sys2Proof.Machine.execHeartbeatReceive h serving alarm takeover seedId epochIndex s
  | .partnerHeartbeatTimeout => Sys2Proof.Machine.execPartnerHeartbeatTimeout s
  | .takeoverReturnSend => Sys2Proof.Machine.execTakeoverReturnSend s
  | .takeoverMessageReceive h accept epochIndex => Sys2Proof.Machine.execTakeoverMessageReceive h accept epochIndex s
  | .ringMessageReceive h port part frameLen launch off data => Sys2Proof.Machine.execRingMessageReceive h port part frameLen launch off data s
  | .ringPartTimeout => Sys2Proof.Machine.execRingPartTimeout s
  | .groveFrameDiscard h => Sys2Proof.Machine.execGroveFrameDiscard h s
  | .guestWfi t core => Sys2Proof.Machine.execGuestWfi t core s
  | .guestAccessFault t core addr write => Sys2Proof.Machine.execGuestAccessFault t core addr write s
  | .guestRegisterWrite t core off value => Sys2Proof.Machine.execGuestRegisterWrite t core off value s
  | .gcmpInterrupt t g => Sys2Proof.Machine.execGcmpInterrupt t g s
  | .interruptSourceEdge t src level => Sys2Proof.Machine.execInterruptSourceEdge t src level s
  | .icuClaim t core => Sys2Proof.Machine.execIcuClaim t core s
  | .icuComplete t core src => Sys2Proof.Machine.execIcuComplete t core src s
  | .icuMaskSet t w v => Sys2Proof.Machine.execIcuMaskSet t w v s
  | .icuMaskClr t w v => Sys2Proof.Machine.execIcuMaskClr t w v s
  | .icuPendSet t w v => Sys2Proof.Machine.execIcuPendSet t w v s
  | .icuPendClr t w v => Sys2Proof.Machine.execIcuPendClr t w v s
  | .icuRouteWrite t src v => Sys2Proof.Machine.execIcuRouteWrite t src v s
  | .moderationExpiry t core group => Sys2Proof.Machine.execModerationExpiry t core group s
  | .guestHalt t core => Sys2Proof.Machine.execGuestHalt t core s
  | .guestResume t core => Sys2Proof.Machine.execGuestResume t core s
  | .guestRestart t core => Sys2Proof.Machine.execGuestRestart t core s
  | .guestDoorbell t core => Sys2Proof.Machine.execGuestDoorbell t core s
  | .guestSendGo t core addr length port => Sys2Proof.Machine.execGuestSendGo t core addr length port s
  | .graftRequest init core write leaf offset length data => Sys2Proof.Machine.execGraftRequest init core write leaf offset length data s
  | .graftResponseReceive tag a => Sys2Proof.Machine.execGraftResponseReceive tag a s
  | .graftRepeat tag => Sys2Proof.Machine.execGraftRepeat tag s
  | .graftTimeout tag => Sys2Proof.Machine.execGraftTimeout tag s
  | .graftMessageReceive h m => Sys2Proof.Machine.execGraftMessageReceive h m s
  | .graftReissue tag => Sys2Proof.Machine.execGraftReissue tag s
  | .prefetchExpiry => Sys2Proof.Machine.execPrefetchExpiry s
  | .windfallExpiry => Sys2Proof.Machine.execWindfallExpiry s
  | .graftAttrWrite r v => Sys2Proof.Machine.execGraftAttrWrite r v s
  | .tunnelMessageReceive h tunnel response breakUs mabUs startCode dstPort slots => Sys2Proof.Machine.execTunnelMessageReceive h tunnel response breakUs mabUs startCode dstPort slots s
  | .tunnelFrameSend port => Sys2Proof.Machine.execTunnelFrameSend port s
  | .ringEnable r => Sys2Proof.Machine.execRingEnable r s
  | .ringDoorbell r d => Sys2Proof.Machine.execRingDoorbell r d s
  | .stemUdpDatagram peer srcPort tag csumZero lengthOk => Sys2Proof.Machine.execStemUdpDatagram peer srcPort tag csumZero lengthOk s
  | .stemSessionTimeout session => Sys2Proof.Machine.execStemSessionTimeout session s
  | .stemWinWrite k v => Sys2Proof.Machine.execStemWinWrite k v s
  | .bar0Write off v => Sys2Proof.Machine.execBar0Write off v s
  | .nop h => Sys2Proof.Machine.execNop h s
  | .watch h mask expected timeoutMs => Sys2Proof.Machine.execWatch h mask expected timeoutMs s
  | .watchExpired c => Sys2Proof.Machine.execWatchExpired c s
  | .attnAck h mask => Sys2Proof.Machine.execAttnAck h mask s
  | .reset h confirm => Sys2Proof.Machine.execReset h confirm s
  | .readReg h addr length => Sys2Proof.Machine.execReadReg h addr length s
  | .writeReg h addr data => Sys2Proof.Machine.execWriteReg h addr data s
  | .readMem h addr length => Sys2Proof.Machine.execReadMem h addr length s
  | .writeMem h addr data => Sys2Proof.Machine.execWriteMem h addr data s
  | .stemOpcode h opcode => Sys2Proof.Machine.execStemOpcode h opcode s
  | .imageStage h cls c => Sys2Proof.Machine.execImageStage h cls c s
  | .imageActivate h cls axis position digest => Sys2Proof.Machine.execImageActivate h cls axis position digest s
  | .imagePrepared cls => Sys2Proof.Machine.execImagePrepared cls s
  | .imageActivation cls => Sys2Proof.Machine.execImageActivation cls s
  | .firmwareRestart => Sys2Proof.Machine.execFirmwareRestart s
  | .imageConfirm h cls digest => Sys2Proof.Machine.execImageConfirm h cls digest s
  | .imageConfirmation cls => Sys2Proof.Machine.execImageConfirmation cls s
  | .imageFallback cls => Sys2Proof.Machine.execImageFallback cls s
  | .imageDiscard h cls => Sys2Proof.Machine.execImageDiscard h cls s
  | .settingsRead h length => Sys2Proof.Machine.execSettingsRead h length s
  | .settingsWrite h c => Sys2Proof.Machine.execSettingsWrite h c s
  | .updateActivateReceive h m => Sys2Proof.Machine.execUpdateActivateReceive h m s
  | .updateAckReceive h refuse m => Sys2Proof.Machine.execUpdateAckReceive h refuse m s
  | .updateGoReceive h cancel m => Sys2Proof.Machine.execUpdateGoReceive h cancel m s
  | .updateHealthReceive h m => Sys2Proof.Machine.execUpdateHealthReceive h m s
  | .updateConfirmReceive h m => Sys2Proof.Machine.execUpdateConfirmReceive h m s
  | .groveGoDeadline cls => Sys2Proof.Machine.execGroveGoDeadline cls s
  | .updateNoGo cls => Sys2Proof.Machine.execUpdateNoGo cls s
  | .groveFallbackAlone cls => Sys2Proof.Machine.execGroveFallbackAlone cls s
  | .lifeProvision h key => Sys2Proof.Machine.execLifeProvision h key s
  | .lifeRekey h payload => Sys2Proof.Machine.execLifeRekey h payload s
  | .lifeService h leave payload => Sys2Proof.Machine.execLifeService h leave payload s
  | .lifeScrap h payload => Sys2Proof.Machine.execLifeScrap h payload s
  | .trunkPark t => Sys2Proof.Machine.execTrunkPark t s
  | .bistRun h kind trunk index pattern durationMs => Sys2Proof.Machine.execBistRun h kind trunk index pattern durationMs s
  | .bistDone errors bits eye restored => Sys2Proof.Machine.execBistDone errors bits eye restored s
  | .spareVectorPass t pass => Sys2Proof.Machine.execSpareVectorPass t pass s
  | .calRun h item index skewPs => Sys2Proof.Machine.execCalRun h item index skewPs s
  | .calSample egressPs ingressPs phaseErrors => Sys2Proof.Machine.execCalSample egressPs ingressPs phaseErrors s
  | .calNoGap => Sys2Proof.Machine.execCalNoGap s
  | .chkStart e n => Sys2Proof.Machine.execChkStart e n s
  | .chkData e n v => Sys2Proof.Machine.execChkData e n v s
  | .chkFinish e n => Sys2Proof.Machine.execChkFinish e n s
  | .chkStateWrite e n hi v => Sys2Proof.Machine.execChkStateWrite e n hi v s
  | .patrolScrubRead e err => Sys2Proof.Machine.execPatrolScrubRead e err s
  | .eccCorrEvent e site => Sys2Proof.Machine.execEccCorrEvent e site s
  | .eventRecordWrite => Sys2Proof.Machine.execEventRecordWrite s
  | .recFreeze => Sys2Proof.Machine.execRecFreeze s
  | .recThaw k => Sys2Proof.Machine.execRecThaw k s
  | .pwrGoodRise => Sys2Proof.Machine.execPwrGoodRise s
  | .firmwareReady => Sys2Proof.Machine.execFirmwareReady s
  | .seedLoadDone t => Sys2Proof.Machine.execSeedLoadDone t s
  | .mainsInterruption durationUs overVoltage => Sys2Proof.Machine.execMainsInterruption durationUs overVoltage s
  | .brownout => Sys2Proof.Machine.execBrownout s
  | .pwrGoodFall => Sys2Proof.Machine.execPwrGoodFall s
  | .resetNAssert durationNs => Sys2Proof.Machine.execResetNAssert durationNs s
  | .resetNRelease => Sys2Proof.Machine.execResetNRelease s
  | .auxCurrentLimit heldUs => Sys2Proof.Machine.execAuxCurrentLimit heldUs s
  | .auxRestart => Sys2Proof.Machine.execAuxRestart s
  | .inputFrameComplete portRec width height form whole data => Sys2Proof.Machine.execInputFrameComplete portRec width height form whole data s
  | .portDatapathFault port => Sys2Proof.Machine.execPortDatapathFault port s
  | .rootCheckCodeFault switchCore => Sys2Proof.Machine.execRootCheckCodeFault switchCore s
  | .onlineLaneError t bits => Sys2Proof.Machine.execOnlineLaneError t bits s
  | .laneErrorWindowExpiry t => Sys2Proof.Machine.execLaneErrorWindowExpiry t s

end Sys2Proof.Machine
end

