-- ==== Sys2Proof/Machine/Tick.lean ====
section
/-! DEFINITION. The passing of one fabric cycle (2.5 ns at 400 MHz). -/

namespace Sys2Proof.Machine

/-- One fabric cycle in 2^-16 ns. -/
def cycleUnits : Nat := 163840

/-- R41: one axis moves by one cycle of its measured rate; SEEKING and OFF axes have no position, and a HALT axis in
HOLDOVER stays (R36). -/
def axisTick (s : State) (n : Nat) : State :=
  if s.axisState n = 2 ∨ (s.axisState n = 3 ∧ !s.fbit (Reg.AxisCtrl.holdMode n)) then
    let a := s.axis n
    let sum := a.acc + a.adv
    s.setAxis n { a with pos := a.pos + sum / 2 ^ 32, acc := sum % 2 ^ 32 }
  else s

/-- R349, R356: a stalled write completes where there is space; a cycle with a held post, or with a stalled producer, counts. -/
def stallTick (s : State) : State :=
  let s := s.onTrunks (fun s t => !(s.scheds.get ({} : SchedSt) t.idx).held.isEmpty) (fun t s => s.bump (Reg.schedBpCycles t))
  s.qbs.foldl (fun s kq =>
    if kq.2.held.isEmpty then s
    else
      let s := s.qbUnstall kq.1
      if (s.qb kq.1).held.isEmpty then s else s.bump (qbBase kq.1 + 0x20)) s

/-- One fabric cycle passes: FREE, every moving axis and every PTP time base advance, and Stem commands that waited may start.
A held module does nothing, but FREE counts on through a warm reset (R465). -/
def tick (s : State) : State :=
  if s.held then (if s.life.resetLow && s.axisState 17 == 2 then { s with free := s.free + cycleUnits } else s)
  else
    let s := s.yieldDue.stopTick
    let s := (List.range 17).foldl axisTick { s with free := s.free + cycleUnits, cyc := {} }
    (([0, 1, 2, 3].foldl State.sessionOut) (stallTick ([0, 1, 2, 3].foldl ptpTick s))).pdelayTick.sapTick.stemTick

end Sys2Proof.Machine
end

