-- ==== Sys2Proof/WellFormed.lean ====
section
/-! DEFINITION. Which commands are well formed: every operand fits the field the spec gives it. A register number, a trunk
or a channel that does not exist cannot be written at all, since its operand's type has no such value. -/

namespace Sys2Proof

/-- A tree address is 40 bits wide (R380, R389). -/
def treeAddrOk (a : Nat) : Bool := decide (a < 2 ^ 40)

/-- A register is one aligned word (R381). -/
def wordAddrOk (a : Nat) : Bool := treeAddrOk a && decide (a % 4 = 0)

/-- A position is 96 bits wide (R30). -/
def posOk (p : Nat) : Bool := decide (p < 2 ^ 96)

/-- The tag of a Stem command is 32 bits wide (R389). -/
def StemHdr.ok (h : StemHdr) : Bool := decide (h.tag < 2 ^ 32)

/-- A Stem command carries at most 65,536 bytes (R389). -/
def payloadOk (l : List Byte) : Bool := decide (l.length ≤ 65536)

/-- A chunk: 64-bit object length and offset, and a payload of one command (R389, R395). -/
def Chunk.ok (c : Chunk) : Bool := decide (c.objLen < 2 ^ 64) && decide (c.off < 2 ^ 64) && payloadOk c.data

/-- The fields of a grove link header (R323). -/
def GroveHdr.ok (h : GroveHdr) : Bool :=
  decide (h.type < 256) && decide (h.groveId < 2 ^ 32) && decide (h.src < 256) && decide (h.dst < 256) && decide (h.sequence < 2 ^ 32)

/-- 48-bit addresses, a 16-bit EtherType and at most two tags (R204, R209). -/
def EthFrame.ok (f : EthFrame) : Bool :=
  decide (f.dst < 2 ^ 48) && decide (f.src < 2 ^ 48) && decide (f.etype < 2 ^ 16) && decide (f.tags ≤ 2)

/-- The fields of a GRAFT message (R375). -/
def GraftMsg.ok (m : GraftMsg) : Bool :=
  decide (m.op < 256) && decide (m.status < 256) && decide (m.tag < 2 ^ 32) && decide (m.leaf < 2 ^ 24) && decide (m.offset < 2 ^ 32)

/-- The fields of an UPDATE message (R426). -/
def UpdMsg.ok (m : UpdMsg) : Bool := decide (m.cls < 256) && decide (m.axis < 256) && posOk m.position && decide (m.digest.length ≤ 32)

/-- An Announce carries 64-bit identities and octets (R276). -/
def PtpAnnounce.ok (a : PtpAnnounce) : Bool :=
  decide (a.gmId < 2 ^ 64) && decide (a.priority1 < 256) && decide (a.clockClass < 256) && decide (a.accuracy < 256) &&
    decide (a.variance < 2 ^ 16) && decide (a.priority2 < 256) && decide (a.stepsRemoved < 2 ^ 16)

/-- A PTP sequence is 16 bits wide (R278). -/
def ptpSeqOk (n : Nat) : Bool := decide (n < 2 ^ 16)

/-- At most 512 slots (R240, R242). -/
def slotsOk (l : List Byte) : Bool := decide (l.length ≤ 512)

/-- A residue has 3 bits (R94), and a mean is of at least one tap (R92). -/
def LaneVal.ok (v : LaneVal) : Bool := decide (v.res < 8)
def LaneOp.ok : LaneOp → Bool
  | .add x y | .sub x y | .mul x y | .minOp x y | .maxOp x y | .cmp x y => x.ok && y.ok
  | .mac a x y => a.ok && x.ok && y.ok
  | .rnd x | .rcp x | .sqrt x => x.ok
  | .cvt16 _ => true
  | .avg s m => s.ok && decide (0 < m)

/-- A word of a memory lies at a tree address, or is a word of an array (R407). -/
def EccRead.ok (x : EccRead) : Bool := treeAddrOk x.addr && treeAddrOk x.wrote

/-- What a task has done names leaves of a tree, of which there are at most 2^24 (R75). -/
def Work.ok : Work → Bool
  | .none => true
  | .leaf i => decide (i < 2 ^ 25)
  | .residue i c => decide (i < 2 ^ 25) && c.op.ok
  | .ecc i x => decide (i < 2 ^ 25) && x.ok
  | .burst r => decide (r < 2 ^ 16)

/-- A canvas, a PORTS record or a raster generator (R45). -/
def EpochOf.ok : EpochOf → Bool
  | .canvas _ => true
  | .port r => decide (r < 2 ^ 16)
  | .raster _ _ => true

/-- Image classes: 0 loader, 1 firmware, 2 seed, 3 safety seed or settings object (R418); one octet. -/
def clsOk (n : Nat) : Bool := decide (n < 256)

/-- Every operand of a command fits its field. -/
def Instr.wf : Instr → Bool
  | .registerWrite a _ => wordAddrOk a
  | .readClear ⟨bar, a⟩ _ | .loWordRead ⟨bar, a⟩ => wordAddrOk a && (!bar || decide (a < 2 ^ 24))
  | .treeEpoch | .axisSnapAll | .scheduledWrite | .throttleEngage | .throttleRelease | .thermalRecovery
  | .rootSafetyPackerTick | .safeRelease | .safeAutoRelease | .swFlush | .ppsInEdge | .ppsLost | .ppsOutEdge | .ocxoReady
  | .tenMLock | .tenMLoss | .compareWindowExpiry | .voteTimeout | .resyncBulkDone | .resyncTimeout | .cmpUnlatch
  | .cmpSwap | .heartbeatSend | .partnerHeartbeatTimeout | .takeoverReturnSend | .ringPartTimeout | .prefetchExpiry
  | .windfallExpiry | .firmwareRestart | .calNoGap | .eventRecordWrite | .recFreeze | .pwrGoodRise | .firmwareReady
  | .brownout | .pwrGoodFall | .resetNRelease | .auxRestart => true
  | .epoch o => o.ok
  | .canvasFrameComplete _ f => f.words.all (fun w => w.2.ok)
  | .taskDispatch _ | .taskAged _ _ | .taskPost _ _ _ => true
  | .taskCompletion _ _ _ w => w.ok
  | .workItemRerun _ leaf c => decide (leaf < 2 ^ 25) && (match c with | none => true | some c => c.op.ok)
  | .qbWrite _ d _ _ _ => payloadOk d
  | .qbRead _ | .qbStale _ => true
  | .axisLock _ p _ | .axisStep _ p => posOk p
  | .axisSourceLoss _ | .axisRelock _ | .axisHoldModeWrite _ _ | .axisSnap _ => true
  | .mainsZeroCrossing v => decide (v < 2 ^ 16)
  | .videoRefEdge _ _ l => decide (l < 2 ^ 16)
  | .st2110FrameReceive _ _ l => decide (l < 2 ^ 16)
  | .aes67PacketReceive _ _ | .wclkEdge _ => true
  | .ltcFrame _ hh mm ss ff r => !r || decide (hh < 46) && decide (mm < 86) && decide (ss < 86) && decide (ff < 46)
  | .evtArm _ | .evtDisarm _ | .evtArmDisarmBoth _ | .axisEventFire _ => true
  | .thermalSample _ _ _ _ => true
  | .frameLaunch r | .launchLimitExpiry r => decide (r < 2 ^ 16)
  | .frameTxEnd _ | .untimedTransmit _ | .crownCommit _ _ | .crownCommitCheckDone _ | .layerReady _ _
  | .heartwoodScrub _ _ _ => true
  | .heartwoodWrite h c => h.ok && c.ok
  | .safetyLoopSample _ _ | .safetyPack _ | .rasterLineRead _ _ | .rasterLineStart _ _ _ | .rastCommit _ _
  | .rastCommitCheckDone _ _ => true
  | .frameReceive _ f => f.ok
  | .cutThroughStart _ _ ⟨f, n⟩ => f.ok && decide (n < 2 ^ 14)
  | .pauseReceive _ _ | .pauseTimerExpiry _ | .pauseWatchdogTrip _ | .pauseRearm _ | .pauseTxRepeat _ => true
  | .t1sCollision _ b => decide (b < 2 ^ 20)
  | .t1sBackoffExpiry _ | .t1sCarrierFall _ | .linkChange _ _ | .ringReturn _ | .portDisable _ _ => true
  | .addressAgeout _ a => decide (a < 2 ^ 48)
  | .leafcastReturnReceive p => payloadOk p
  | .e131PacketReceive u c ⟨p, y⟩ l _ => decide (u < 2 ^ 16) && decide (c < 2 ^ 128) && decide (p < 256) && decide (y < 2 ^ 16) && l.all slotsOk
  | .e131SourceLost u c => decide (u < 2 ^ 16) && decide (c < 2 ^ 128)
  | .e131Repeat u => decide (u < 2 ^ 16)
  | .dmxFrameStart _ | .dmxFrameEnd _ | .dmxRepeat _ | .rdmTransactionStart _ => true
  | .rdmResponse _ _ _ d => payloadOk d
  | .rdmResponseTimeout _ | .rdmNoGap _ | .rdmDiscovery _ => true
  | .dmxInputPacket _ _ l _ _ _ => slotsOk l
  | .sapBurstStart _ | .sapBurstEnd _ | .sapPoll _ _ | .sapTurnaroundEnd _ => true
  | .sapReply _ f => payloadOk f
  | .ptpEnable _ _ => true
  | .ptpAnnounceReceive _ a => a.ok
  | .ptpSyncReceive _ m p => ptpSeqOk m.seq && decide (p < 163840)
  | .ptpFollowUpReceive _ m => ptpSeqOk m.seq
  | .ptpDelayRespReceive _ q _ _ => ptpSeqOk q
  | .ptpDelayReqReceive _ ⟨p, q⟩ r => decide (p < 2 ^ 80) && ptpSeqOk q && decide (r < 163840)
  | .ptpPdelayReceive _ _ ⟨p, q⟩ _ => decide (p < 2 ^ 80) && ptpSeqOk q
  | .ptpMessageDiscard _ | .ptpAnnounceSend _ | .ptpSyncSend _ | .ptpDelayReqSend _ | .ptpAnnounceTimeout _
  | .ptpSyncTimeout _ | .setTod _ _ => true
  | .compareUnitArrival _ => true
  | .arbitrationVote _ p q _ => decide (p < 2 ^ 16) && decide (q < 2 ^ 48)
  | .linkReplay _ _ _ | .trunkKeepaliveLoss _ | .trunkTestDone _ _ | .trunkTestRetry _ | .cmpRejoin _ => true
  | .heartbeatReceive h _ _ _ i e => h.ok && decide (i < 2 ^ 128) && decide (e < 2 ^ 64)
  | .takeoverMessageReceive h _ e => h.ok && decide (e < 2 ^ 64)
  | .ringMessageReceive h p _ n l o d => h.ok && decide (p < 256) && decide (n < 2 ^ 16) && decide (l < 2 ^ 80) && decide (o < 2 ^ 16) && payloadOk d
  | .groveFrameDiscard h => h.ok
  | .guestWfi _ _ => true
  | .guestAccessFault _ _ a _ => decide (a < 2 ^ 32)
  | .guestRegisterWrite _ _ o _ => decide (o < 2 ^ 32) && decide (o % 4 = 0)
  | .gcmpInterrupt _ _ | .interruptSourceEdge _ _ _ | .icuClaim _ _ | .icuComplete _ _ _ | .icuMaskSet _ _ _
  | .icuMaskClr _ _ _ | .icuPendSet _ _ _ | .icuPendClr _ _ _ | .icuRouteWrite _ _ _ | .moderationExpiry _ _ _
  | .guestHalt _ _ | .guestResume _ _ | .guestRestart _ _ | .guestDoorbell _ _ => true
  | .guestSendGo _ _ a n p => decide (a < 2 ^ 32) && decide (n < 2 ^ 16) && decide (p < 256)
  | .graftRequest _ _ _ leaf o n d => decide (leaf < 2 ^ 24) && decide (o < 2 ^ 32) && decide (n ≤ 65536) && payloadOk d
  | .graftResponseReceive t a => decide (t < 2 ^ 32) && payloadOk a.data
  | .graftRepeat t | .graftTimeout t | .graftReissue t => decide (t < 2 ^ 32)
  | .graftMessageReceive h m => h.ok && m.ok
  | .graftAttrWrite _ _ => true
  | .tunnelMessageReceive h t _ _ _ _ p l => h.ok && decide (t < 256) && decide (p < 256) && slotsOk l
  | .tunnelFrameSend _ | .ringEnable _ | .ringDoorbell _ _ => true
  | .stemUdpDatagram ⟨_, p⟩ q t _ _ => decide (p < 2 ^ 128) && decide (q < 2 ^ 16) && decide (t < 2 ^ 32)
  | .stemSessionTimeout _ | .stemWinWrite _ _ => true
  | .bar0Write o _ => wordAddrOk o
  | .nop h => h.ok
  | .watch h _ _ ms => h.ok && decide (ms < 2 ^ 32)
  | .watchExpired _ => true
  | .attnAck h _ | .reset h _ | .stemOpcode h _ => h.ok
  | .readReg h a n | .readMem h a n => h.ok && treeAddrOk a && decide (n < 2 ^ 32)
  | .writeReg h a d => h.ok && treeAddrOk a && decide (d.length ≤ 16384)
  | .writeMem h a d => h.ok && treeAddrOk a && payloadOk d
  | .imageStage h c k => h.ok && clsOk c && k.ok
  | .imageActivate h c ax p d => h.ok && clsOk c && decide (ax < 256) && posOk p && decide (d.length = 16)
  | .imagePrepared c | .imageActivation c | .imageConfirmation c | .imageFallback c | .groveGoDeadline c | .updateNoGo c
  | .groveFallbackAlone c => clsOk c
  | .imageConfirm h c d => h.ok && clsOk c && decide (d.length ≤ 32)
  | .imageDiscard h c => h.ok && clsOk c
  | .settingsRead h n => h.ok && decide (n < 2 ^ 32)
  | .settingsWrite h c => h.ok && c.ok
  | .updateActivateReceive h m | .updateAckReceive h _ m | .updateGoReceive h _ m | .updateHealthReceive h m
  | .updateConfirmReceive h m => h.ok && m.ok
  | .lifeProvision h k => h.ok && payloadOk k
  | .lifeRekey h p | .lifeService h _ p | .lifeScrap h p => h.ok && payloadOk p
  | .trunkPark _ => true
  | .bistRun h k t i p d => h.ok && decide (k < 256) && decide (t < 256) && decide (i < 2 ^ 16) && decide (p < 256) && decide (d < 2 ^ 32)
  | .bistDone _ _ _ _ => true
  | .spareVectorPass _ _ => true
  | .calRun h i x _ => h.ok && decide (i < 256) && decide (x < 2 ^ 16)
  | .calSample _ _ _ => true
  | .eccCorrEvent e ⟨_, tmr⟩ => e.isNone || tmr.isNone
  | .chkStart _ _ | .chkData _ _ _ | .chkFinish _ _ | .chkStateWrite _ _ _ _ | .recThaw _
  | .seedLoadDone _ | .portDatapathFault _ | .rootCheckCodeFault _ | .laneErrorWindowExpiry _ => true
  | .patrolScrubRead _ e => match e with | none => true | some x => x.ok
  | .mainsInterruption _ _ | .resetNAssert _ | .auxCurrentLimit _ => true
  | .inputFrameComplete r w h _ _ d => decide (r < 2 ^ 16) && decide (w < 2 ^ 16) && decide (h < 2 ^ 16) && d.all (fun x => decide (x < 2 ^ 16))
  | .onlineLaneError _ _ => true

end Sys2Proof
end

