-- ==== Sys2Proof/Safety.lean ====
section
/-! DEFINITION. What counts as a safe run of the module, in the terms the statements use. -/

namespace Sys2Proof.Safety

open Sys2Proof.Machine

/-- What every state of a run keeps: memory stands in its canonical form, so that equal memories are equal data. -/
abbrev Inv (s : State) : Prop := s.memOk

/-- A step goes on: it neither faults nor refuses. -/
def goesOn (s : State) : Prop := ∃ t, step s = .next t

/-- A run of `n` steps goes on and keeps the invariant at every state it passes. -/
def safeRun : Nat → State → Prop
  | 0, s => Inv s
  | n + 1, s => Inv s ∧ ∃ t, step s = .next t ∧ safeRun n t

/-- What a Stem command needs of the state to run at once, on its own account (R388, R391, R392, R396, R421, R446): the module runs, the
channel is live and has room, no command of it waits, the tag is no repeat, no reserved field is set, neither recovery nor SCRAP is
in force, `len` bytes of payload or of read data are within bounds, and no PCIe error meets its transfer or its reply. -/
def stemRuns (s : State) (h : StemHdr) (len : Nat) (read : Bool) : Prop :=
  s.held = false ∧ s.chanLive h.chan = true ∧ s.tagSeen h.chan h.tag = false ∧ s.stem.stemWait.any (fun w => w.1 == h.chan.val) = false ∧
  s.mayStart h.chan h.fence = true ∧ h.rsvd = false ∧ s.fbit Reg.TreeReady.recovery = false ∧ s.fget Reg.LifeState.state ≠ 4 ∧
  len ≤ 65536 ∧ (16 ≤ h.chan.val → len ≤ 8192 ∧ (read = true → len ≤ s.udpRoom h.chan)) ∧
  h.bufferErr = false ∧ h.replyErr = false ∧ ∀ f ∈ s.stem.flights, f.chan = h.chan.val → f.tag = h.tag → f.replyErr = false

/-- A command has been answered: its reply, with `code`, is the newest of those between two states (R390). -/
def answered (s t : State) (h : StemHdr) (op code : Nat) : Prop :=
  ∃ l r, t.stem.replies = s.stem.replies ++ l ++ [r] ∧ r.chan = h.chan.val ∧ r.tag = h.tag ∧ r.opcode = op ∧ r.status % 65536 = code

/-- The parts of the state that the frames name; the queue of commands has a statement of its own. -/
inductive Part where
  /-- The memory. -/
  | mem
  /-- FREE. -/
  | clock
  /-- The count of free values drawn. -/
  | draws
  /-- The registers, and what the cycle has set of them. -/
  | regs
  /-- The show axes. -/
  | axes
  /-- The cadence points passed. -/
  | cadence
  /-- The PTP instances and the pulse. -/
  | ptp
  /-- The schedulers. -/
  | scheds
  /-- The guest cores. -/
  | guests
  /-- The interrupt controllers. -/
  | icus
  /-- The queue blocks. -/
  | qbs
  /-- The check-value engines. -/
  | chk
  /-- What the ECC units have seen. -/
  | ecc
  /-- The trunks' canvases and work. -/
  | trunks
  /-- The raster generators. -/
  | rasters
  /-- The raster outputs. -/
  | rasterOut
  /-- Shadow and active register copies. -/
  | shadow
  /-- The positions captured for leaves. -/
  | rels
  /-- The capture of the tree epoch. -/
  | capture
  /-- The input frames. -/
  | inputs
  /-- The heartwood copies. -/
  | heartwood
  /-- The reports of the leaves. -/
  | leaves
  /-- The reports of the driver nodes. -/
  | nodes
  /-- The Ethernet ports. -/
  | ports
  /-- The address table and transparent clock. -/
  | switch
  /-- The DMX512 lines. -/
  | dmx
  /-- The Sap lines. -/
  | saps
  /-- The E1.31 streams. -/
  | e131
  /-- The twin trunks and the compare stage. -/
  | twin
  /-- The graft bridge. -/
  | bridge
  /-- The grove partner. -/
  | grove
  /-- The alarm. -/
  | safe
  /-- The Stem channels. -/
  | stem
  /-- Images and updates. -/
  | upd
  /-- Life cycle, tests and power. -/
  | life
  /-- The ring record and the events that wait. -/
  | record
  /-- The seeds in force and the settings. -/
  | seed
  /-- The pads and `held`. -/
  | pads
  /-- Bus latches, read data and scheduled writes. -/
  | bus
  /-- The arrival tags. -/
  | tags
  /-- What has left the module. -/
  | sent
  deriving DecidableEq, Repr

/-- A part stands in two states alike. -/
def Part.same (p : Part) (s t : State) : Prop :=
  match p with
  | .mem => t.mem = s.mem
  | .clock => t.free = s.free
  | .draws => t.freeCtr = s.freeCtr
  | .regs => t.regs = s.regs ∧ t.cyc = s.cyc
  | .axes => t.axes = s.axes
  | .cadence => t.cadence = s.cadence ∧ t.skipSeen = s.skipSeen ∧ t.epochLate = s.epochLate ∧ t.frameCnt = s.frameCnt
  | .ptp => t.ptps = s.ptps ∧ t.peerDelay = s.peerDelay ∧ t.pdelayNext = s.pdelayNext ∧ t.pdelaySeq = s.pdelaySeq ∧ t.ppsLast = s.ppsLast ∧
    t.ppsGood = s.ppsGood ∧ t.ppsRun = s.ppsRun ∧ t.ppsLostAt = s.ppsLostAt ∧ t.ppsOut = s.ppsOut
  | .scheds => t.scheds = s.scheds
  | .guests => t.guests = s.guests
  | .icus => t.icus = s.icus
  | .qbs => t.qbs = s.qbs
  | .chk => t.chk = s.chk
  | .ecc => t.eccSeen = s.eccSeen ∧ t.scrubAt = s.scrubAt
  | .trunks => t.trunks = s.trunks
  | .rasters => t.rasters = s.rasters
  | .rasterOut => t.rasterOut = s.rasterOut
  | .shadow => t.act = s.act ∧ t.pend = s.pend
  | .rels => t.rels = s.rels
  | .capture => t.capture = s.capture ∧ t.capE131 = s.capE131 ∧ t.capDmx = s.capDmx
  | .inputs => t.inputs = s.inputs
  | .heartwood => t.hwCopy = s.hwCopy
  | .leaves => t.leafTemp = s.leafTemp ∧ t.leafStatus = s.leafStatus ∧ t.thin = s.thin ∧ t.shedLeaves = s.shedLeaves
  | .nodes => t.nodeTemp = s.nodeTemp ∧ t.diag = s.diag
  | .ports => t.ports = s.ports
  | .switch => t.swTable = s.swTable ∧ t.tcSync = s.tcSync
  | .dmx => t.dmx = s.dmx
  | .saps => t.saps = s.saps
  | .e131 => t.e131rx = s.e131rx ∧ t.e131tx = s.e131tx
  | .twin => t.twin = s.twin
  | .bridge => t.bridge = s.bridge
  | .grove => t.grove = s.grove
  | .safe => t.safe = s.safe
  | .stem => t.stem = s.stem
  | .upd => t.upd = s.upd ∧ t.fwSwitch = s.fwSwitch
  | .life => t.life = s.life
  | .record => t.ring = s.ring ∧ t.events = s.events
  | .seed => t.seed = s.seed ∧ t.safetySeed = s.safetySeed ∧ t.settingsBody = s.settingsBody ∧ t.grovePos = s.grovePos
  | .pads => t.held = s.held ∧ t.padSafeAck = s.padSafeAck ∧ t.padHealth = s.padHealth ∧ t.padFaultN = s.padFaultN ∧ t.padPwrGood = s.padPwrGood
  | .bus => t.schedQ = s.schedQ ∧ t.latch = s.latch ∧ t.rdata = s.rdata
  | .tags => t.tag = s.tag
  | .sent => t.sent = s.sent

/-- A reset may reach every part. -/
def allParts : List Part :=
  [.mem, .clock, .draws, .regs, .axes, .cadence, .ptp, .scheds, .guests, .icus, .qbs, .chk, .ecc, .trunks, .rasters, .rasterOut, .shadow,
    .rels, .capture, .inputs, .heartwood, .leaves, .nodes, .ports, .switch, .dmx, .saps, .e131, .twin, .bridge, .grove, .safe, .stem,
    .upd, .life, .record, .seed, .pads, .bus, .tags, .sent]

/-- THE FRAME OF EVERY COMMAND: the parts of the state that a command may reach, by itself and by what the rules make follow from it
(a mismatch that its unit shows, a trunk that leaves service, an activation that is due). What is not listed stands as it was. -/
def touches : Instr → List Part
    | .registerWrite .. | .bar0Write .. | .writeReg .. =>
    [.regs, .axes, .cadence, .ptp, .guests, .icus, .qbs, .chk, .trunks, .rasters, .ports, .switch, .dmx, .saps, .twin, .bridge, .safe, .stem,
      .life, .record, .pads, .tags, .sent]
    | .readClear .. | .loWordRead .. | .icuClaim .. => [.draws, .regs, .icus, .bus]
    | .treeEpoch .. =>
    [.mem, .draws, .regs, .cadence, .scheds, .guests, .icus, .qbs, .trunks, .rasters, .rasterOut, .shadow, .rels, .capture, .leaves, .ports, .dmx,
      .saps, .twin, .bridge, .grove, .stem, .upd, .record, .pads, .tags, .sent]
    | .epoch .. => [.regs, .cadence, .icus, .trunks, .rasters, .shadow, .twin]
    | .canvasFrameComplete .. =>
    [.mem, .regs, .scheds, .guests, .icus, .qbs, .ecc, .trunks, .rasters, .rasterOut, .shadow, .ports, .dmx, .saps, .twin, .stem, .upd, .record,
      .pads, .sent]
    | .taskPost .. | .taskDispatch .. | .taskAged .. | .guestWfi .. => [.regs, .scheds]
    | .taskCompletion .. | .patrolScrubRead .. =>
    [.mem, .draws, .regs, .scheds, .guests, .icus, .qbs, .ecc, .trunks, .rasters, .rasterOut, .shadow, .ports, .dmx, .saps, .twin, .stem, .upd,
      .record, .pads, .sent]
    | .workItemRerun .. | .heartwoodScrub .. | .linkReplay .. | .trunkKeepaliveLoss .. =>
    [.mem, .regs, .scheds, .guests, .icus, .qbs, .trunks, .rasters, .rasterOut, .shadow, .ports, .dmx, .saps, .twin, .stem, .upd, .record, .pads,
      .sent]
    | .qbWrite .. => [.regs, .qbs]
    | .qbRead .. => [.regs, .qbs, .ports, .bus, .tags]
    | .qbStale .. => [.regs, .icus, .record, .tags]
    | .axisLock .. | .axisStep .. | .mainsZeroCrossing .. | .videoRefEdge .. | .st2110FrameReceive .. | .aes67PacketReceive .. | .wclkEdge .. |
      .ltcFrame .. => [.regs, .axes, .cadence, .rasters, .stem, .record]
    | .axisSourceLoss .. => [.regs, .axes, .cadence, .stem, .record]
    | .axisRelock .. => [.regs, .axes, .stem, .record]
    | .axisHoldModeWrite .. | .resyncTimeout .. | .recFreeze .. | .recThaw .. => [.regs, .record]
    | .axisSnap .. | .axisSnapAll .. | .evtArm .. | .evtDisarm .. | .evtArmDisarmBoth .. | .throttleEngage .. | .pauseRearm .. | .ptpMessageDiscard ..
      | .ocxoReady .. | .cmpUnlatch .. | .groveFrameDiscard .. | .stemWinWrite .. | .chkStateWrite .. => [.regs]
    | .axisEventFire .. => [.regs, .icus, .record, .bus, .tags]
    | .scheduledWrite .. =>
    [.regs, .axes, .cadence, .ptp, .guests, .icus, .qbs, .chk, .trunks, .rasters, .ports, .switch, .dmx, .saps, .twin, .bridge, .safe, .stem,
      .life, .record, .pads, .bus, .tags, .sent]
    | .thermalSample .. => [.mem, .regs, .trunks, .ports, .dmx, .saps, .twin, .stem, .upd, .life, .record, .pads]
    | .throttleRelease .. | .auxRestart .. => [.regs, .life]
    | .thermalRecovery .. | .firmwareRestart .. =>
    [.mem, .regs, .axes, .cadence, .ptp, .scheds, .guests, .icus, .qbs, .trunks, .rasters, .rasterOut, .shadow, .rels, .capture, .inputs,
      .heartwood, .leaves, .nodes, .ports, .switch, .dmx, .saps, .e131, .twin, .bridge, .grove, .safe, .stem, .upd, .record, .seed, .pads, .tags,
      .sent]
    | .frameLaunch .. => [.regs, .qbs, .ports, .dmx, .saps, .e131, .twin, .bridge, .safe, .stem, .record, .pads, .tags, .sent]
    | .launchLimitExpiry .. => [.regs, .qbs, .ports, .saps, .sent]
    | .frameTxEnd .. | .frameReceive .. | .pauseReceive .. | .pauseTimerExpiry .. | .t1sBackoffExpiry .. | .t1sCarrierFall .. =>
    [.regs, .ptp, .qbs, .ports, .switch, .e131, .safe, .pads, .sent]
    | .untimedTransmit .. => [.regs, .ptp, .qbs, .ports, .switch, .sent]
    | .crownCommit .. => [.regs, .trunks]
    | .crownCommitCheckDone .. => [.regs, .icus, .trunks, .shadow, .record]
    | .layerReady .. => [.trunks]
    | .heartwoodWrite .. => [.regs, .icus, .trunks, .heartwood, .stem, .record, .tags]
    | .safetyLoopSample .. => [.regs, .icus, .qbs, .trunks, .ports, .dmx, .saps, .safe, .stem, .record, .seed, .tags, .sent]
    | .safetyPack .. => [.regs, .trunks, .twin]
    | .rootSafetyPackerTick .. => [.regs, .qbs, .trunks, .rasterOut, .ports, .dmx, .saps, .twin, .safe, .seed, .sent]
    | .safeRelease .. | .safeAutoRelease .. => [.regs, .icus, .safe, .stem, .record, .pads, .tags]
    | .rasterLineRead .. =>
    [.mem, .regs, .cadence, .scheds, .guests, .icus, .qbs, .trunks, .rasters, .rasterOut, .shadow, .ports, .dmx, .saps, .twin, .stem, .upd,
      .record, .pads, .tags, .sent]
    | .rasterLineStart .. => [.regs, .icus, .rasterOut, .stem, .record, .tags, .sent]
    | .rastCommit .. => [.regs, .rasters]
    | .rastCommitCheckDone .. => [.regs, .cadence, .rasters, .shadow, .record]
    | .cutThroughStart .. => [.regs, .qbs, .ports, .switch, .sent]
    | .pauseWatchdogTrip .. => [.regs, .ptp, .qbs, .ports, .switch, .e131, .safe, .stem, .record, .pads, .sent]
    | .pauseTxRepeat .. | .ptpDelayReqReceive .. => [.regs, .qbs, .ports, .sent]
    | .t1sCollision .. => [.draws, .regs, .qbs, .ports, .sent]
    | .linkChange .. | .portDisable .. | .portDatapathFault .. => [.regs, .icus, .qbs, .ports, .switch, .twin, .stem, .record, .tags, .sent]
    | .ringReturn .. => [.regs, .qbs, .ports]
    | .swFlush .. | .addressAgeout .. => [.regs, .switch]
    | .leafcastReturnReceive .. => [.regs, .leaves, .stem, .record, .tags]
    | .e131PacketReceive .. | .e131SourceLost .. => [.regs, .e131]
    | .e131Repeat .. => [.regs, .qbs, .ports, .e131, .sent]
    | .dmxFrameStart .. => [.regs, .qbs, .ports, .dmx, .twin, .bridge, .safe, .stem, .record, .pads, .tags, .sent]
    | .dmxFrameEnd .. | .rdmDiscovery .. => [.regs, .dmx]
    | .dmxRepeat .. | .rdmTransactionStart .. | .tunnelFrameSend .. => [.regs, .dmx, .sent]
    | .rdmResponse .. | .rdmResponseTimeout .. | .rdmNoGap .. | .graftResponseReceive .. | .graftTimeout .. | .graftReissue .. | .readMem .. =>
    [.regs, .qbs, .ports, .dmx, .twin, .bridge, .stem, .record, .tags, .sent]
    | .dmxInputPacket .. => [.regs, .qbs, .ports, .dmx, .twin, .stem, .record, .tags, .sent]
    | .sapBurstStart .. => [.regs, .saps, .safe, .pads, .sent]
    | .sapBurstEnd .. => [.regs, .saps]
    | .sapPoll .. => [.regs, .saps, .sent]
    | .sapReply .. | .sapTurnaroundEnd .. => [.regs, .icus, .nodes, .saps, .stem, .record, .tags]
    | .ptpEnable .. => [.regs, .axes, .ptp, .stem, .record]
    | .ptpAnnounceReceive .. | .ptpSyncReceive .. | .ptpFollowUpReceive .. | .ptpAnnounceTimeout .. | .ppsInEdge .. | .setTod .. =>
    [.regs, .axes, .cadence, .ptp, .rasters, .stem, .record]
    | .ptpDelayRespReceive .. => [.regs, .ptp]
    | .ptpPdelayReceive .. | .ptpAnnounceSend .. | .ptpSyncSend .. | .ptpDelayReqSend .. => [.regs, .ptp, .qbs, .ports, .sent]
    | .ptpSyncTimeout .. | .ppsLost .. => [.regs, .axes, .cadence, .ptp, .stem, .record]
    | .ppsOutEdge .. => [.ptp, .sent]
    | .tenMLock .. | .tenMLoss .. | .nop .. | .watch .. | .attnAck .. | .stemOpcode .. | .settingsRead .. | .eventRecordWrite .. | .brownout .. =>
    [.regs, .stem, .record]
    | .compareUnitArrival .. => [.regs, .qbs, .trunks, .rasterOut, .ports, .dmx, .saps, .twin, .sent]
    | .compareWindowExpiry .. => [.regs, .qbs, .trunks, .rasterOut, .ports, .dmx, .saps, .twin, .bridge, .stem, .record, .tags, .sent]
    | .arbitrationVote .. | .voteTimeout .. =>
    [.mem, .draws, .regs, .scheds, .guests, .icus, .qbs, .trunks, .rasters, .rasterOut, .shadow, .ports, .dmx, .saps, .twin, .stem, .upd, .record,
      .pads, .sent]
    | .trunkTestDone .. => [.draws, .regs, .twin]
    | .trunkTestRetry .. | .cmpSwap .. => [.twin]
    | .resyncBulkDone .. | .cmpRejoin .. | .trunkPark .. => [.regs, .twin]
    | .heartbeatSend .. | .takeoverMessageReceive .. => [.regs, .qbs, .ports, .twin, .grove, .sent]
    | .heartbeatReceive .. | .partnerHeartbeatTimeout .. => [.regs, .cadence, .trunks, .twin, .grove, .stem, .record]
    | .takeoverReturnSend .. => [.draws, .regs, .qbs, .ports, .twin, .grove, .sent]
    | .ringMessageReceive .. => [.regs, .qbs, .ports, .grove, .sent]
    | .ringPartTimeout .. => [.regs, .grove]
    | .guestAccessFault .. | .guestRegisterWrite .. | .guestSendGo .. => [.regs, .guests]
    | .gcmpInterrupt .. => [.regs, .guests, .icus]
    | .interruptSourceEdge .. | .icuComplete .. | .icuMaskSet .. | .icuMaskClr .. | .icuPendSet .. | .icuPendClr .. | .icuRouteWrite .. |
      .moderationExpiry .. | .guestDoorbell .. => [.regs, .icus]
    | .guestHalt .. | .guestResume .. | .guestRestart .. => [.guests]
    | .graftRequest .. => [.draws, .regs, .qbs, .trunks, .rasterOut, .ports, .dmx, .saps, .twin, .bridge, .stem, .upd, .record, .pads, .tags, .sent]
    | .graftRepeat .. => [.regs, .qbs, .ports, .bridge, .sent]
    | .graftMessageReceive .. => [.draws, .regs, .qbs, .ports, .dmx, .twin, .bridge, .stem, .record, .tags, .sent]
    | .prefetchExpiry .. | .windfallExpiry .. => [.regs, .bridge, .record]
    | .graftAttrWrite .. => [.regs, .bridge]
    | .tunnelMessageReceive .. => [.regs, .qbs, .ports, .dmx, .twin, .stem, .record, .sent]
    | .ringEnable .. | .ringDoorbell .. | .stemUdpDatagram .. | .stemSessionTimeout .. | .watchExpired .. => [.regs, .stem]
    | .reset .. | .lifeScrap .. | .pwrGoodRise .. | .resetNAssert .. => allParts
    | .readReg .. => [.draws, .regs, .icus, .stem, .record, .bus]
    | .writeMem .. => [.mem, .regs, .qbs, .ports, .dmx, .twin, .bridge, .stem, .record, .tags, .sent]
    | .imageStage .. | .imageConfirm .. => [.regs, .stem, .upd, .record]
    | .imageActivate .. | .imageDiscard .. | .updateNoGo .. => [.regs, .qbs, .ports, .twin, .stem, .upd, .record, .sent]
    | .imagePrepared .. | .updateAckReceive .. => [.regs, .qbs, .ports, .twin, .upd, .sent]
    | .imageActivation .. =>
    [.mem, .draws, .regs, .axes, .cadence, .scheds, .guests, .icus, .qbs, .trunks, .rasters, .rasterOut, .shadow, .rels, .capture, .inputs,
      .heartwood, .leaves, .nodes, .ports, .switch, .dmx, .saps, .e131, .twin, .bridge, .grove, .safe, .stem, .upd, .record, .seed, .pads, .tags,
      .sent]
    | .imageConfirmation .. | .updateHealthReceive .. => [.regs, .qbs, .ports, .twin, .stem, .upd, .life, .record, .seed, .sent]
    | .imageFallback .. | .updateActivateReceive .. => [.regs, .qbs, .ports, .twin, .stem, .upd, .record, .seed, .sent]
    | .settingsWrite .. => [.regs, .stem, .record, .seed]
    | .updateGoReceive .. => [.regs, .upd]
    | .updateConfirmReceive .. => [.regs, .stem, .upd, .life, .record, .seed]
    | .groveGoDeadline .. => [.regs, .qbs, .ports, .twin, .stem, .upd, .sent]
    | .groveFallbackAlone .. => [.regs, .stem, .upd, .record, .seed]
    | .lifeProvision .. => [.regs, .stem, .life, .record, .seed]
    | .lifeRekey .. | .lifeService .. => [.draws, .regs, .stem, .life, .record]
    | .bistRun .. | .bistDone .. | .calRun .. | .auxCurrentLimit .. => [.regs, .stem, .life, .record]
    | .spareVectorPass .. => [.regs, .twin, .stem, .upd, .life, .record, .pads]
    | .calSample .. | .calNoGap .. => [.regs, .stem, .life]
    | .chkStart .. | .chkData .. => [.regs, .chk]
    | .chkFinish .. => [.regs, .chk, .sent]
    | .eccCorrEvent .. => [.regs, .ecc, .record]
    | .firmwareReady .. =>
    [.mem, .draws, .regs, .axes, .cadence, .ptp, .scheds, .guests, .icus, .qbs, .trunks, .rasters, .rasterOut, .shadow, .rels, .capture, .inputs,
      .heartwood, .leaves, .nodes, .ports, .switch, .dmx, .saps, .e131, .twin, .bridge, .grove, .safe, .stem, .upd, .record, .seed, .pads, .tags,
      .sent]
    | .seedLoadDone .. => [.draws, .regs, .cadence, .rels, .twin]
    | .mainsInterruption .. => [.draws, .regs, .ports, .dmx, .saps, .stem, .record, .pads]
    | .pwrGoodFall .. => [.regs, .ports, .dmx, .saps, .stem, .record, .pads]
    | .resetNRelease .. => [.draws, .regs, .axes, .stem, .upd, .life, .record, .seed, .pads]
    | .inputFrameComplete .. => [.regs, .inputs, .tags]
    | .rootCheckCodeFault .. => [.regs, .stem, .life, .record, .pads]
    | .onlineLaneError .. | .laneErrorWindowExpiry .. => [.regs, .stem, .upd, .life, .pads]

/-- The block of 64 KiB that a register address lies in; a block of a trunk has one number for both trunks, from 0x100 on (R382). -/
def blockOf (a : Nat) : Nat := if a < 0x1000000 then a / 0x10000 else 0x100 + a % 0x1000000 / 0x10000

/-- THE REGISTER FRAME of the commands whose registers lie in few blocks: a command changes no register of another block. Of the
others the table says nothing. -/
def regBlocks : Instr → Option (List Nat)
  | .axisSnap .. | .axisSnapAll .. | .evtArm .. | .evtDisarm .. | .evtArmDisarmBoth .. => some [0x4]
  | .axisHoldModeWrite .. => some [0x4, 0x16]
  | .axisLock .. | .axisSourceLoss .. | .axisStep .. | .axisRelock .. | .wclkEdge .. | .ltcFrame .. | .st2110FrameReceive .. => some [0x4, 0x5, 0x16]
  | .watchExpired .. | .ringEnable .. | .ringDoorbell .. | .stemSessionTimeout .. | .stemWinWrite .. | .stemUdpDatagram .. => some [0x5]
  | .nop .. | .watch .. | .attnAck .. | .stemOpcode .. | .settingsRead .. | .calRun .. | .imageConfirm .. | .settingsWrite .. |
      .rootCheckCodeFault .. => some [0x5, 0x16]
  | .bistRun .. | .bistDone .. => some [0x5, 0x14, 0x16]
  | .calNoGap .. => some [0x5, 0x15]
  | .brownout .. | .auxCurrentLimit .. => some [0x5, 0x16, 0x17]
  | .auxRestart .. => some [0x17]
  | .throttleEngage .. | .throttleRelease .. => some [0x0, 0x17]
  | .ocxoReady .. | .ptpDelayRespReceive .. | .ptpMessageDiscard .. => some [0x6]
  | .tenMLock .. | .tenMLoss .. => some [0x5, 0x6, 0x16]
  | .cmpUnlatch .. | .cmpRejoin .. | .resyncBulkDone .. | .trunkTestDone .. | .seedLoadDone .. | .groveFrameDiscard .. |
      .ringPartTimeout .. => some [0x7]
  | .resyncTimeout .. => some [0x7, 0x16]
  | .swFlush .. | .addressAgeout .. => some [0x8]
  | .qbWrite .. => some [0x9, 0x10B]
  | .qbRead .. => some [0x8, 0x9, 0x10, 0x10B]
  | .e131PacketReceive .. | .e131SourceLost .. => some [0xB]
  | .dmxFrameEnd .. | .dmxRepeat .. | .rdmDiscovery .. | .rdmTransactionStart .. => some [0xC]
  | .sapPoll .. => some [0xD, 0x12]
  | .sapBurstEnd .. => some [0xD]
  | .graftAttrWrite .. => some [0xE]
  | .pauseRearm .. => some [0x10]
  | .chkStart .. | .chkData .. | .chkFinish .. | .chkStateWrite .. => some [0x12, 0x10C]
  | .trunkPark .. => some [0x14]
  | .recFreeze .. | .recThaw .. | .eccCorrEvent .. => some [0x16]
  | .crownCommit .. => some [0x105]
  | .rastCommit .. => some [0x106]
  | .rastCommitCheckDone .. => some [0x16, 0x106]
  | .interruptSourceEdge .. | .icuClaim .. | .icuComplete .. | .icuMaskSet .. | .icuMaskClr .. | .icuPendSet .. | .icuPendClr .. |
      .icuRouteWrite .. | .moderationExpiry .. | .guestDoorbell .. | .gcmpInterrupt .. => some [0x108]
  | .guestAccessFault .. | .guestRegisterWrite .. | .guestSendGo .. => some [0x109]
  | _ => none

/-- R212: egress queue `n` admits an untimed frame of `len` bytes. -/
def admits (s : State) (n len : Nat) : Prop :=
  s.linkUp n = true ∧ State.queueFill (s.port n) + len ≤ portQueueSize (s.ethRec n) - portMaxFrame (s.ethRec n)

/-- A frame of the root's, as bytes, has entered egress queue `n` untimed, with the time stamp that it asks for. -/
def queued (s t : State) (n : Nat) (l : List Byte) (stamp : Option (Nat × Nat × Nat)) : Prop :=
  (t.port n).untimed = (s.port n).untimed ++ [{ frame := ethOf l, at_ := s.free, stamp := stamp }]

/-- A frame that finds room in egress queue `n` has entered it. -/
def sends (s t : State) (n : Nat) (l : List Byte) : Prop := admits s n (ethOf l).len → queued s t n l none

/-- R212, R319, R323: a grove link message with its type's next sequence has entered the queues of its links. -/
def sendsGrove (s t : State) (type dst : Nat) (data : List Byte) : Prop :=
  ∀ n ∈ s.groveLinks type, sends s t n (s.groveFrame n type dst (s.twin.handed.get 0 (0x10000 + type) % 2 ^ 32) data)

/-- R381: an aligned address whose register takes a write by its access codes alone: of the root, or at its offset of a trunk. -/
def plainRoot (a : Nat) : Prop :=
  a % 4 = 0 ∧ a / 0x10000 ∈ [0x00, 0x07, 0x08, 0x0B, 0x13, 0x14, 0x16, 0x17] ∧ a ∉ [Reg.treeSafeCtrl, Reg.cmpCtrl, Reg.swCtrl, Reg.lifeCtrl, Reg.recCtrl]
def plainTrunk (off : Nat) : Prop := off % 4 = 0 ∧ off / 0x10000 ∈ [0x03, 0x04, 0x0A]

/-- R3 to R6: the register at `a` has taken `v` by its access codes; the write-1-to-clear bits that the hardware set in the same cycle
stand. An address without a register has none to take it. -/
def stores (s t : State) (a : Nat) (v : Word) : Prop :=
  ∀ r, regRow a = some r → t.regN a = r.write (s.regN a) v.toNat % 2 ^ 32 ||| (r.w1cMask &&& s.cyc.sets.get 0 a &&& s.regN a)

/-- R385: what an access from outside names: a tree address, or through an offset of BAR0 one of a register. -/
def names (s : State) (bar : Bool) (addr a : Nat) : Prop :=
  (if bar then s.bar0Map addr else some addr) = some a ∧ (bar = true → a < 0x4000000)

/-- R370: a graft frame to a Leafcast leaf has entered the queue of the leaf's port. -/
def sendsGraft (s t : State) (port leaf : Nat) (l : List Byte) : Prop :=
  sends s t port (s.leafFrame port (s.portRec (leafPort (s.leafRec leaf))) (leafAddress (s.leafRec leaf)) 1 l)

end Sys2Proof.Safety
end

