-- ==== Sys2Proof/Certificates/Slice0/Obligations.lean ====
section
/-! DEFINITION. The statements for the provers. Log entries 1, 2 and 6 name the choices that a few of them rest on. -/

open Sys2Proof Sys2Proof.Machine

/-- A STEP TAKES THE COMMAND IN FRONT: with `c` at the front of the queue, a step is `exec c` on the state with the queue's rest. -/
def Obligations.StepRunsFrontCommand : Prop :=
  ∀ (c : Instr) (r : List Instr) (s : State), s.pending = c :: r → step s = exec c { s with pending := r }

/-- AN EMPTY QUEUE LETS A FABRIC CYCLE PASS (the model's choice: log entry 1; R41 and R272 give the clock and FREE): FREE of a running
module moves by 2.5 ns, and memory stays where the cycle brings no report of an error of the active trunk (R309). -/
def Obligations.IdleStep : Prop :=
  ∀ s : State, s.pending = [] → s.held = false →
    ∃ t, step s = .next t ∧ t.free = s.free + 163840 ∧ (s.cyc.report = none → t.mem = s.mem)

/-- NO WORD SPELLS A COMMAND: the table gives no row any bits. -/
def Obligations.NoWordSpellsACommand : Prop :=
  ∀ (nbits w : Nat) (s : State), decodeTableWord nbits w = none ∧ s.withFetchWord nbits w = s

/-- RESET: the module before power (log entry 2) is held, no command waits, nothing is listed in memory, and each register stands at its
reset word, among them the interrupt masks, all set, and no source pending (R344), and the lateness limits of the event slots (R53); both
trunks are DOWN (R296). -/
def Obligations.ResetState : Prop :=
  State.reset.pending = [] ∧ State.reset.held = true ∧ State.reset.free = 0 ∧ State.reset.mem = [] ∧ State.reset.seed = none ∧
  (∀ a, State.reset.reg a = resetWord a) ∧ (∀ (k : Trunk) (w : Fin 32), State.reset.reg (Reg.icuMaskSet k w) = 0xFFFFFFFF) ∧
  (∀ (k : Trunk) (w : Fin 32), State.reset.reg (Reg.icuPendSet k w) = 0) ∧
  (∀ m : Fin 256, State.reset.reg (Reg.axisEvtLimit m) = 0xFFFFFFFF) ∧ (∀ k : Trunk, State.reset.trunkState k = 0) ∧
  State.reset.padPwrGood = false ∧ State.reset.padHealth = false ∧ State.reset.padSafeAck = false

/-- THE INVARIANT HOLDS AT RESET. -/
def Obligations.ResetKeepsInvariant : Prop := Safety.Inv State.reset

/-- EVERY STEP KEEPS THE INVARIANT: a step from a state whose memory stands in its canonical form (addresses strictly rising, no entry
equal to what an unlisted address reads as) leaves a state whose memory does. -/
def Obligations.StepKeepsMemoryCanonical : Prop :=
  ∀ s t : State, Safety.Inv s → step s = .next t → Safety.Inv t

/-- EVERY COMMAND ANSWERS, in every state, and leaves the queue of waiting commands as it was. -/
def Obligations.EveryCommandAnswers : Prop :=
  ∀ (c : Instr) (s : State), ∃ t, exec c s = .next t ∧ t.pending = s.pending

/-- A HELD MODULE TAKES NO COMMAND (R414, R465, R471): but for the pads of power and reset, and the measurements that end a thermal shutdown,
a command to a module that is off or in reset changes nothing. -/
def Obligations.HeldModuleIgnores : Prop :=
  ∀ (c : Instr) (s : State), s.held = true → c ≠ .pwrGoodRise → c ≠ .pwrGoodFall → (∀ ns, c ≠ .resetNAssert ns) → c ≠ .resetNRelease →
    (∀ b x y z, c ≠ .thermalSample b x y z) → exec c s = .next s

/-- FRAME, MEMORY AND FREE: a command that stores nothing leaves memory, and so every byte of it, as it was; no command but power and
reset moves FREE. The commands that reach the memory are WRITE_MEM, those that clear or copy a trunk's DRAM, and reset. -/
def Obligations.FrameMemoryAndClock : Prop :=
  ∀ (c : Instr) (s t : State), exec c s = .next t →
    (Safety.Part.mem ∉ Safety.touches c → t.mem = s.mem ∧ ∀ a, memGet t.mem a = memGet s.mem a) ∧
    (Safety.Part.clock ∉ Safety.touches c → t.free = s.free)

/-- FRAME, AXES AND TIME: the axes, the cadence points passed, and the PTP instances and pulse change by no command but those that the
table `Safety.touches` gives them. -/
def Obligations.FrameAxesAndTime : Prop :=
  ∀ (c : Instr) (s t : State), exec c s = .next t → ∀ p ∈ [Safety.Part.axes, .cadence, .ptp], p ∉ Safety.touches c → p.same s t

/-- FRAME, COMPUTATION: the schedulers, guest cores, interrupt controllers, queue blocks, check-value engines and ECC records. -/
def Obligations.FrameComputation : Prop :=
  ∀ (c : Instr) (s t : State), exec c s = .next t → ∀ p ∈ [Safety.Part.scheds, .guests, .icus, .qbs, .chk, .ecc], p ∉ Safety.touches c →
    p.same s t

/-- FRAME, PICTURES: the trunks' canvases and work, raster generators and outputs, shadow registers, captures, inputs and heartwood. -/
def Obligations.FramePictures : Prop :=
  ∀ (c : Instr) (s t : State), exec c s = .next t →
    ∀ p ∈ [Safety.Part.trunks, .rasters, .rasterOut, .shadow, .rels, .capture, .inputs, .heartwood], p ∉ Safety.touches c → p.same s t

/-- FRAME, LINES: the Ethernet ports and switch, DMX512 and sap lines, E1.31 streams, and the reports of leaves and nodes. -/
def Obligations.FrameLines : Prop :=
  ∀ (c : Instr) (s t : State), exec c s = .next t →
    ∀ p ∈ [Safety.Part.leaves, .nodes, .ports, .switch, .dmx, .saps, .e131], p ∉ Safety.touches c → p.same s t

/-- FRAME, TRUNKS AND GROVE: the compare stage and the trunks' states, the graft bridge, the grove partner and the alarm. -/
def Obligations.FrameTwinAndGrove : Prop :=
  ∀ (c : Instr) (s t : State), exec c s = .next t →
    ∀ p ∈ [Safety.Part.twin, .bridge, .grove, .safe], p ∉ Safety.touches c → p.same s t

/-- FRAME, HOST: Stem channels, images, life cycle, ring record, seeds, pads, bus latches, arrival tags, and what has left the module. -/
def Obligations.FrameHost : Prop :=
  ∀ (c : Instr) (s t : State), exec c s = .next t →
    ∀ p ∈ [Safety.Part.stem, .upd, .life, .record, .seed, .pads, .bus, .tags, .sent, .draws], p ∉ Safety.touches c → p.same s t

/-- FRAME, REGISTERS: a command that reaches no register leaves them all, and one whose registers lie in the blocks that
`Safety.regBlocks` lists changes no register of another block. -/
def Obligations.FrameRegisters : Prop :=
  ∀ (c : Instr) (s t : State), exec c s = .next t → (Safety.Part.regs ∉ Safety.touches c → t.regs = s.regs) ∧
    ∀ l, Safety.regBlocks c = some l → ∀ a, Safety.blockOf a ∉ l → t.reg a = s.reg a

/-- AXES (R35 to R37, R53, R55): what the commands of an axis do. A bound axis locks, loses its source, takes a step, starts
to seek again and takes its hold mode, and a snap holds the position of the axis, or of all of them. FREE is LOCKED from ROM
boot and takes no loss, step or re-lock. -/
def Obligations.AxisCommandsComplete : Prop :=
  (∀ (n : Fin 18) (pos : Nat) (rate : Int) (s : State), s.held = false → s.axisState n = 1 → n.val ≠ 12 →
    ∃ t, exec (.axisLock n pos rate) s = .next t ∧ t.axisState n = 2 ∧ (t.axis n).pos = pos) ∧
  (∀ (n : Fin 18) (pos : Nat) (rate : Int) (s : State), s.held = false → s.axisState n = 3 →
    ∃ t, exec (.axisLock n pos rate) s = .next t ∧ t.axisState n = 2) ∧
  (∀ (n : Fin 18) (s : State), s.held = false → n.val ≠ 17 → s.axisState n = 2 →
    ∃ t, exec (.axisSourceLoss n) s = .next t ∧ t.axisState n = 3 ∧
      (n.val < 4 ∨ s.fbit (Reg.AxisCtrl.holdMode n) = false → (t.axis n).pos = (s.axis n).pos) ∧
      (4 ≤ n.val → s.fbit (Reg.AxisCtrl.holdMode n) = true → (t.axis n).pos = (s.axis n).rxPos)) ∧
  (∀ (n : Fin 18) (pos : Nat) (s : State), s.held = false → n.val ≠ 17 → s.axisState n = 2 →
    ∃ t, exec (.axisStep n pos) s = .next t ∧ (t.axis n).pos = pos ∧ t.axisState n = 2) ∧
  (∀ (n : Fin 18) (s : State), s.held = false → n.val ≠ 17 → s.axisState n ≠ 0 →
    ∃ t, exec (.axisRelock n) s = .next t ∧ t.axisState n = 1) ∧
  (∀ (n : Fin 18) (halt : Bool) (s : State), s.held = false → ¬ (halt = true ∧ (n.val = s.epochAxis ∨ s.governsRaster n = true)) →
    ∃ t, exec (.axisHoldModeWrite n halt) s = .next t ∧ t.fbit (Reg.AxisCtrl.holdMode n) = halt) ∧
  (∀ (n : Fin 18) (s : State), s.held = false → ∃ t, exec (.axisSnap n) s = .next t ∧
    t.reg96 (Reg.axisSnapLo n) (Reg.axisSnapMid n) (Reg.axisSnapHi n) = s.posWords n % 2 ^ 96) ∧
  (∀ (s : State), s.held = false → ∃ t, exec .axisSnapAll s = .next t ∧
    ∀ n : Fin 18, t.reg96 (Reg.axisSnapLo n) (Reg.axisSnapMid n) (Reg.axisSnapHi n) = s.posWords n % 2 ^ 96)

/-- REFERENCES (R34, R35, R39, R290 to R293): what a reference of an axis does. The eighth good crossing locks MAINS; a frame
start of an SDI input that meets the criterion locks LINE at its lines per frame, and a line of a LOCKED one is followed; frames of ST 2110-20,
packets of AES67, edges of a word clock and labels of a timecode are taken at the time they come. -/
def Obligations.AxisReferencesComplete : Prop :=
  (∀ (volts : Nat) (s : State), s.held = false → s.axisState 12 = 1 ∨ s.axisState 12 = 3 → (s.axis 12).lastAt ≠ 0 →
    7 ≤ (s.axis 12).good → State.crossingGood volts (s.free - (s.axis 12).lastAt) (s.axis 12).lastPeriod = true →
    ∃ t, exec (.mainsZeroCrossing volts) s = .next t ∧ t.axisState 12 = 2) ∧
  (∀ (line : Fin 8) (lines : Nat) (s : State), s.held = false → s.axisState (4 + line.val) = 1 →
    0x10 ≤ s.sd.axisSource (4 + line.val) → s.sd.axisSource (4 + line.val) ≤ 0x17 →
    (s.axis (4 + line.val)).lastAt ≠ 0 → (s.axis (4 + line.val)).lastPeriod ≠ 0 → (s.axis (4 + line.val)).lines = lines →
    1 ≤ (s.axis (4 + line.val)).good →
    within100ppm (s.free - (s.axis (4 + line.val)).lastAt) (s.axis (4 + line.val)).lastPeriod = true →
    (s.sd.axisFlags (4 + line.val) % 2 = 1 → s.hasPos (s.sd.alignPtp (4 + line.val)) = true) →
    ∃ t, exec (.videoRefEdge line true lines) s = .next t ∧ t.axisState (4 + line.val) = 2 ∧ (t.axis (4 + line.val)).nLines = lines) ∧
  (∀ (line : Fin 8) (lines : Nat) (s : State), s.held = false → s.axisState (4 + line.val) = 2 →
    (0x10 ≤ s.sd.axisSource (4 + line.val) ∧ s.sd.axisSource (4 + line.val) ≤ 0x17) ∨ s.sd.axisSource (4 + line.val) = 0x30 →
    (let a := s.axis (4 + line.val)
     ∃ t, exec (.videoRefEdge line false lines) s = .next t ∧ (t.axis (4 + line.val)).lastRef = a.lastRef + 1 ∧
       (t.axis (4 + line.val)).pos = State.countAt (a.count * a.nLines + a.lastRef + 1) a.adv (s.refOffsetRaw (s.sd.axisSource (4 + line.val))))) ∧
  (∀ (line : Fin 8) (rtp : Word) (lines : Nat) (s : State), s.held = false → s.axisState (4 + line.val) ≠ 0 →
    0x20 ≤ s.sd.axisSource (4 + line.val) → s.sd.axisSource (4 + line.val) ≤ 0x2F →
    s.hasPos (s.sd.alignPtp (4 + line.val)) = true →
    ∃ t, exec (.st2110FrameReceive line rtp lines) s = .next t ∧ (t.axis (4 + line.val)).lastAt = s.free ∧
      (t.axis (4 + line.val)).lines = (if s.axisState (4 + line.val) = 2 then (s.axis (4 + line.val)).nLines else lines)) ∧
  (∀ (slot : Fin 2) (rtp : Word) (s : State), s.held = false → s.axisState 13 = 1 ∨ s.axisState 13 = 2 →
    s.sd.axisSource 13 = 0x50 + slot.val → s.hasPos (State.aesInstance slot) = true →
    ∃ t, exec (.aes67PacketReceive slot rtp) s = .next t ∧ t.axisState 13 = 2 ∧ (t.axis 13).lastAt = s.free) ∧
  (∀ (slot : Fin 2) (s : State), s.held = false → s.axisState (13 + slot.val) ≠ 0 →
    s.sd.axisSource (13 + slot.val) = 0x58 →
    ∃ t, exec (.wclkEdge slot) s = .next t ∧ (t.axis (13 + slot.val)).lastAt = s.free) ∧
  (∀ (tc : Fin 2) (hh mm ss ff f : Nat) (s : State), s.held = false → s.axisState (15 + tc.val) ≠ 0 →
    State.tcFrame (s.sd.tcRate (15 + tc.val)) (s.sd.axisFlags (15 + tc.val) / 2 % 2 == 1) hh mm ss ff = some f →
    ∃ t, exec (.ltcFrame tc hh mm ss ff true) s = .next t ∧ (t.axis (15 + tc.val)).lastRef = f ∧
      (t.axis (15 + tc.val)).lastAt = s.free)

/-- EVENT SLOTS (R41, R42, R55, R56): a slot that is not ARMED and that arming does not refuse is ARMED; an ARMED slot is
disarmed, but not in the cycle in which it is due; both at once are ignored, and marked; a due slot that no due epoch of the seed and
no due slot comes before fires, and is FIRED where it is not late. -/
def Obligations.EventSlotsComplete : Prop :=
  (∀ (m : Fin 256) (s : State), s.held = false → s.evtState m ≠ 1 → s.evtRefused m = false →
    ∃ t, exec (.evtArm m) s = .next t ∧ t.evtState m = 1) ∧
  (∀ (m : Fin 256) (s : State), s.held = false → s.evtState m = 1 →
    (s.evtDue m = false → ∃ t, exec (.evtDisarm m) s = .next t ∧ t.evtState m = 0) ∧
    (s.evtDue m = true → ∃ t, exec (.evtDisarm m) s = .next t ∧ t.evtState m = 1)) ∧
  (∀ (m : Fin 256) (s : State), s.held = false → s.evtState m = 1 →
    ∃ t, exec (.evtArmDisarmBoth m) s = .next t ∧ t.evtState m = 1 ∧ t.fbit (Reg.AxisEvtStatus.wrIgnored m) = true) ∧
  (∀ (m : Fin 256) (s : State), s.held = false → s.evtDue m = true → s.internalDue (s.evtAxis m) = false →
    (∀ j < 256, s.evtBefore m j = false) → s.evtLate m = false →
    ∃ t, exec (.axisEventFire m) s = .next t ∧ t.evtState m = 2)

/-- INTERRUPT CONTROLLER (R338 to R343): an edge pends its source and a level follows its line; a claim takes the lowest
deliverable source into service; a completion ends it; masks and pending bits take what a writer that reaches them writes, but for what a
set of the same cycle holds, and masks of a guest core's sources wait for its capture; routes take what is written, one from a guest core at
the capture, and a guest core changes none; a moderation hold ends after its interval. -/
def Obligations.InterruptCommandsComplete : Prop :=
  (∀ (k : Trunk) (i : Fin 1024) (s : State), s.held = false → srcReserved i = false → srcLevel i = false →
    ∃ t, exec (.interruptSourceEdge k i true) s = .next t ∧ t.srcPending k i = true) ∧
  (∀ (k : Trunk) (i : Fin 1024) (level : Bool) (s : State), s.held = false → srcReserved i = false → srcLevel i = true →
    ∃ t, exec (.interruptSourceEdge k i level) s = .next t ∧ t.levelOf k i = level ∧
      (level = true → s.serving k i = false → i.val < 512 ∨ s.srcCore k i < 6 → t.srcPending k i = true)) ∧
  (∀ (k : Trunk) (c : Fin 8) (i : Nat) (s : State), s.held = false → (∀ j < 1024, s.lateMasked k c j = false) → i < 1024 →
    s.deliverable k c i = true → (∀ j < i, s.deliverable k c j = false) →
    ∃ t w, exec (.icuClaim k c) s = .next t ∧ (t.icu k).serving = (s.icu k).serving ++ [(i, c.val)] ∧ t.srcPending k i = false ∧
      t.rdata = [w] ∧ w.toNat % 1024 = i) ∧
  (∀ (k : Trunk) (c : Fin 8) (i : Fin 1024) (s : State), s.held = false → (s.icu k).serving.contains (i.val, c.val) = true →
    ∃ t, exec (.icuComplete k c i) s = .next t ∧ (t.icu k).serving = (s.icu k).serving.filter (· != (i.val, c.val))) ∧
  (∀ (k : Trunk) (x : Option (Fin 8)) (w : Fin 32) (v : Word) (s : State), s.held = false →
    (let g := if State.isGuest x then 0 else s.guestBits k w
     ∃ t, exec (.icuMaskSet k w ⟨x, v⟩) s = .next t ∧
       t.reg (Reg.icuMaskSet k w) = s.reg (Reg.icuMaskSet k w) ||| (v &&& s.reach k x w &&& ~~~g))) ∧
  (∀ (k : Trunk) (x : Option (Fin 8)) (w : Fin 32) (v : Word) (s : State), s.held = false →
    (let g := if State.isGuest x then 0 else s.guestBits k w
     let sets := BitVec.ofNat 32 (s.cyc.sets.get 0 (Reg.icuMaskSet k w))
     ∃ t, exec (.icuMaskClr k w ⟨x, v⟩) s = .next t ∧
       t.reg (Reg.icuMaskSet k w) = s.reg (Reg.icuMaskSet k w) &&& ~~~(v &&& s.reach k x w &&& ~~~sets &&& ~~~g))) ∧
  (∀ (k : Trunk) (x : Option (Fin 8)) (w : Fin 32) (v : Word) (s : State), s.held = false →
    ∃ t, exec (.icuPendSet k w ⟨x, v⟩) s = .next t ∧ ∀ b < 32, (v &&& s.reach k x w).getLsbD b = true →
      srcReserved (32 * w.val + b) = false → srcLevel (32 * w.val + b) = false → t.srcPending k (32 * w.val + b) = true) ∧
  (∀ (k : Trunk) (x : Option (Fin 8)) (w : Fin 32) (v : Word) (s : State), s.held = false →
    (let sets := BitVec.ofNat 32 (s.cyc.sets.get 0 (Reg.icuPendSet k w))
     ∃ t, exec (.icuPendClr k w ⟨x, v⟩) s = .next t ∧
       t.reg (Reg.icuPendSet k w) = s.reg (Reg.icuPendSet k w) &&& ~~~(v &&& s.reach k x w &&& ~~~sets))) ∧
  (∀ (k : Trunk) (x : Option (Fin 8)) (j : Fin 512) (v : Word) (s : State), s.held = false →
    (State.isGuest x = true → exec (.icuRouteWrite k j ⟨x, v⟩) s = .next s) ∧
    (State.isGuest x = false → v.toNat % 8 < 6 → j.val ≠ 448 → j.val ≠ 449 →
      ∃ t, exec (.icuRouteWrite k j ⟨x, v⟩) s = .next t ∧ t.fget (Reg.IcuRoute.group k j) = v.toNat / 16 % 16 ∧
        (s.srcCore k (512 + j.val) < 6 → t.fget (Reg.IcuRoute.target k j) = v.toNat % 8) ∧
        (6 ≤ s.srcCore k (512 + j.val) → t.fget (Reg.IcuRoute.target k j) = s.fget (Reg.IcuRoute.target k j) ∧
          (t.icu k).routes = (s.icu k).routes ++ [(j.val, v.toNat % 8)]))) ∧
  (∀ (k : Trunk) (c : Fin 8) (g : Fin 16) (e : Nat) (s : State), s.held = false →
    (s.icu k).holds.find? (c.val * 16 + g.val) = some e → e ≤ s.free →
    ∃ t, exec (.moderationExpiry k c g) s = .next t ∧ (t.icu k).holds.find? (c.val * 16 + g.val) = none)

/-- GUEST CORES (R329 to R331, R334, R335, R337, R345): what the commands of a guest core do. A core in RUN waits; an access
outside its partition traps; a permitted register write is posted, and so are the two of a send request; GCMP raises the
timer's level; the actions of TRK_GUEST_CTRL are asked for, and the doorbell pends its source, at a core the seed has a record
of. -/
def Obligations.GuestCommandsComplete : Prop :=
  (∀ (k : Trunk) (c : Fin 2) (s : State), s.held = false → s.guestState k c = 1 →
    ∃ t, exec (.guestWfi k c) s = .next t ∧ t.guestState k c = 2 ∧ t.fbit (Reg.IcuCoreStatus.wfi k (6 + c.val)) = true) ∧
  (∀ (k : Trunk) (c : Fin 2) (a : Nat) (w : Bool) (s : State), s.held = false → s.guestState k c = 1 →
    guestMayAccess (guestPart s c).2 c a w = false →
    ∃ t, exec (.guestAccessFault k c a w) s = .next t ∧ t.guest k c = State.guestTrap (s.guest k c) (if w then 7 else 5) a ∧
      t.fbit (Reg.TrkGuestStatus.accessFault k c) = true) ∧
  (∀ (k : Trunk) (c : Fin 2) (off : Nat) (v : Word) (s : State), s.held = false → s.guestState k c = 1 → guestMayWrite c off = true →
    ∃ t, exec (.guestRegisterWrite k c off v) s = .next t ∧ (t.guest k c).posted = (s.guest k c).posted ++ [(off, v)]) ∧
  (∀ (k : Trunk) (c : Fin 8) (g : BitVec 64) (s : State), s.held = false →
    (c.val < 6 ∨ s.guestState k (c.val - 6) = 1 ∧ g.toNat ≤ (s.guest k (c.val - 6)).epoch * 2 ^ 24 + (2 ^ 24 - 1)) →
    ∃ t, exec (.gcmpInterrupt k ⟨c, g⟩) s = .next t ∧ t.levelOf k (c.val * 64 + 1) = true ∧
      (s.serving k (c.val * 64 + 1) = false → t.srcPending k (c.val * 64 + 1) = true) ∧
      (6 ≤ c.val → (t.guest k (c.val - 6)).gcmp = g.toNat)) ∧
  (∀ (k : Trunk) (c : Fin 2) (s : State), s.held = false → (guestRec? s c).isSome = true →
    (∃ t, exec (.guestHalt k c) s = .next t ∧ (t.guest k c).haltReq = true) ∧
    (∃ t, exec (.guestResume k c) s = .next t ∧ (t.guest k c).resumeReq = true) ∧
    (∃ t, exec (.guestRestart k c) s = .next t ∧ (t.guest k c).restartReq = true) ∧
    (∃ t, exec (.guestDoorbell k c) s = .next t ∧ t.srcPending k (960 + c.val) = true)) ∧
  (∀ (k : Trunk) (c : Fin 2) (a n p : Nat) (s : State), s.held = false → s.guestState k c = 1 →
    ∃ t, exec (.guestSendGo k c a n p) s = .next t ∧ (t.guest k c).posted = (s.guest k c).posted ++
      [(Reg.trkGuestSendAddr k c - trunkBase k, BitVec.ofNat 32 a),
       (Reg.trkGuestSendCtrl k c - trunkBase k, BitVec.ofNat 32 (2 ^ 31 + n % 2 ^ 14 * 2 ^ 16 + p % 64))])

/-- QUEUE BLOCKS (R355 to R359): a write with space in the block, now and as the cycle began, is its last entry, and without space waits; a
read of a visible packet that stood there as the cycle began returns its tag and takes the entry; the stale-tail timer marks the block. -/
def Obligations.QueueBlockCommandsComplete : Prop :=
  (∀ (q : QbId) (d : List Byte) (sop eop err : Bool) (s : State), s.held = false → s.qbPresent (qbKey q) = true →
    (s.qb (qbKey q)).held = [] → (s.qb (qbKey q)).entries.length < s.fget (qbGeomDepth (qbKey q)) →
    s.qbFillAt (qbKey q) < s.fget (qbGeomDepth (qbKey q)) →
    ∃ t, exec (.qbWrite q d sop eop err) s = .next t ∧ (t.qb (qbKey q)).entries = (s.qb (qbKey q)).entries ++
      [{ data := d.take (if s.fbit (qbGeomWide (qbKey q)) then 64 else 8), sop := sop, eop := eop, err := err }]) ∧
  (∀ (q : QbId) (d : List Byte) (sop eop err : Bool) (s : State), s.held = false → s.qbPresent (qbKey q) = true →
    s.fget (qbGeomDepth (qbKey q)) ≤ (s.qb (qbKey q)).entries.length →
    ∃ t, exec (.qbWrite q d sop eop err) s = .next t ∧ (t.qb (qbKey q)).entries = (s.qb (qbKey q)).entries ∧
      (t.qb (qbKey q)).held.length = (s.qb (qbKey q)).held.length + 1 ∧ t.fbit (qbStatusBit (qbKey q) 1) = true) ∧
  (∀ (q : QbId) (e : QbEntry) (r : List QbEntry) (s : State), s.held = false → (s.qb (qbKey q)).entries = e :: r →
    s.qbFillAt (qbKey q) ≠ 0 → (s.qb (qbKey q)).started = true ∨ qbVisible (s.fget (qbThreshold (qbKey q))) 0 (e :: r) = true →
    ∃ t, exec (.qbRead q) s = .next t ∧ (t.qb (qbKey q)).entries = r ∧ t.rdata.head? = some (BitVec.ofNat 32 (qbTag e)) ∧
      (t.qb (qbKey q)).started = !e.eop) ∧
  (∀ (q : QbId) (since : Nat) (s : State), s.held = false → (s.qb (qbKey q)).since = some since →
    s.fget (qbStaleUs (qbKey q)) ≠ 0 → since + s.fget (qbStaleUs (qbKey q)) * 65536000 ≤ s.free →
    s.fbit (qbStatusBit (qbKey q) 29) = false →
    ∃ t, exec (.qbStale q) s = .next t ∧ t.fbit (qbStatusBit (qbKey q) 29) = true ∧ t.fbit (qbStatusBit (qbKey q) 2) = true)

/-- SCHEDULER (R347 to R350, R353): a post that meets a waiting task's condition makes it READY; the only ready task goes into
service at its core in a later cycle; a BRANCH task that has waited 65,536 cycles is aged. -/
def Obligations.SchedulerCommandsComplete : Prop :=
  (∀ (k : Trunk) (slot : Fin 4096) (flag : Fin 64) (s : State), s.held = false →
    ((s.sched k).task slot).state = 1 → (s.sched k).ready.length < 1024 →
    Task.holds { (s.sched k).task slot with flags := ((s.sched k).task slot).flags ||| BitVec.ofNat 64 (2 ^ flag.val) } = true →
    ∃ t, exec (.taskPost k slot flag) s = .next t ∧ ((t.sched k).task slot).state = 2 ∧ ((t.sched k).task slot).readyAt = s.free ∧
      slot.val ∈ (t.sched k).ready) ∧
  (∀ (k : Trunk) (slot : Nat) (s : State), s.held = false → (s.sched k).ready = [slot] → (s.sched k).held = [] →
    2 ≤ ((s.sched k).task slot).target → (s.sched k).items (64 + (((s.sched k).task slot).target - 2)) < 4 →
    (s.sched k).flowBusy s.free ((s.sched k).task slot).flow = false → (s.sched k).inService < 256 →
    ((s.sched k).now s.free).used = [] → ((s.sched k).task slot).readyAt ≠ s.free →
    ∃ t, exec (.taskDispatch k) s = .next t ∧ (t.sched k).ready = [] ∧ ((t.sched k).task slot).state = 3 ∧
      ((t.sched k).task slot).place = 64 + (((s.sched k).task slot).target - 2)) ∧
  (∀ (k : Trunk) (slot : Fin 4096) (s : State), s.held = false → ((s.sched k).task slot).state = 2 →
    ((s.sched k).task slot).target = 0 → ((s.sched k).task slot).aged = false →
    ((s.sched k).task slot).readyAt + 65536 * 163840 ≤ s.free →
    ∃ t, exec (.taskAged k slot) s = .next t ∧ ((t.sched k).task slot).aged = true ∧ t.fbit (Reg.SchedStatus.aged k) = true)

/-- CHECK-VALUE ENGINES AND ECC (R402 to R413): `start` loads the initial value and absorbs the preamble, `DATA` absorbs its
bytes, `finish` gives the check value, a write of `STATE` is taken where the engine is not busy; a corrected word that the
scrubber reads is counted, and its event is written, as is one of a TMR disagreement corrected in the root. -/
def Obligations.CheckCommandsComplete : Prop :=
  (∀ (e : Option Trunk) (n : Fin 16) (s : State), s.held = false → State.chkHere e n = true → s.chkBad e n = false →
    ∃ t, exec (.chkStart e n) s = .next t ∧ t.chk64 e n 0x30 = crcRun (s.chkAlg e n) ((s.chkAlg e n).init % 2 ^ 64)
      (orderBytes (s.chkCfgF e n 14 1 == 1) (s.chkCfgF e n 15 4) (s.chk64 e n 0x28)) % 2 ^ 64) ∧
  (∀ (e : Option Trunk) (n : Fin 16) (v : Word) (s : State), s.held = false → State.chkHere e n = true → s.chkCfgF e n 12 2 ≠ 2 →
    (s.chkSt e n).tail = [] →
    ∃ t, exec (.chkData e n v) s = .next t ∧
      t.chk64 e n 0x30 = crcRun (s.chkAlg e n) (s.chk64 e n 0x30) (leBytes (s.chkCfgF e n 0 3) v.toNat) % 2 ^ 64) ∧
  (∀ (e : Option Trunk) (n : Fin 16) (s : State), s.held = false → State.chkHere e n = true → s.chkCfgF e n 12 2 ≠ 2 →
    ∃ t, exec (.chkFinish e n) s = .next t ∧ t.chk64 e n 0x38 = crcOut (s.chkAlg e n) (s.chk64 e n 0x30) % 2 ^ 64 ∧
      t.fbit ⟨chkBase e n + 0x0C, 28, 1⟩ = true) ∧
  (∀ (e : Option Trunk) (n : Fin 16) (v : Word) (s : State), s.held = false → State.chkHere e n = true → s.chkBusy e n = false →
    (s.chkAlg e n).width = 64 →
    ∃ t, exec (.chkStateWrite e n true v) s = .next t ∧ t.regN (chkBase e n + 0x34) = v.toNat ∧
      t.regN (chkBase e n + 0x30) = s.regN (chkBase e n + 0x30)) ∧
  (∀ (e : Option Trunk) (x : EccRead) (b : Nat) (s : State), s.held = false → s.regN (State.eccBase e + 0x14) / 2 ^ 31 ≠ 0 →
    s.eccRead x = .corrected b →
    ∃ t, exec (.patrolScrubRead e (some x)) s = .next t ∧ t.regN (State.eccBase e) = min 0xFFFFFFFF (s.regN (State.eccBase e) + 1)) ∧
  (∀ (e : Option Trunk) (m : Fin 16) (n unit addr : Nat) (s : State), s.held = false → s.events.length < 4096 →
    s.eccSeen.get (0, none, 0, 0) (State.dieOf e * 16 + m.val) = (n + 1, none, unit, addr) →
    ∃ t, exec (.eccCorrEvent e ⟨m, none⟩) s = .next t ∧ t.events.length = s.events.length + 1 ∧
      t.eccSeen.get (0, none, 0, 0) (State.dieOf e * 16 + m.val) = (0, some s.free, unit, addr)) ∧
  (∀ (e : Option Trunk) (m : Fin 16) (b : BitVec 12) (s : State), s.held = false → s.events.length < 4096 →
    (s.eccSeen.get (0, none, 0, 0) 15).2.1 = none →
    ∃ t, exec (.eccCorrEvent e ⟨m, some b⟩) s = .next t ∧ t.events.length = s.events.length + 1 ∧
      (t.eccSeen.get (0, none, 0, 0) 15).2.1 = some s.free)

/-- TWIN TRUNKS (R296, R302 to R306, R311, R312, R315, R327, R447): the compare stage keeps the first copy of a unit, counts a
copy that does not come, and takes the votes that the trunks recompute; a unit whose votes do not come is unresolved; a trunk without a partner is lost to TEST; TEST passes or runs again; the bulk phase
of a resynchronisation ends or fails; the host's requests are taken. -/
def Obligations.TwinCommandsComplete : Prop :=
  (∀ (k : Trunk) (u : CUnit) (r : List CUnit) (s : State), s.held = false → s.twin.outbox.get [] k.idx = u :: r →
    s.inService k = true → s.compareActive = true → u.solo = false → s.twin.dropCopies = [] → s.fbit Reg.CmpStatus.etcHold = false →
    s.twin.waiting = [] → s.etc = false → u.out.data.length ≤ 2 ^ 26 → s.cyc.report = none →
    ∃ t, exec (.compareUnitArrival k) s = .next t ∧ t.twin.waiting = [{ from_ := k, unit := u, at_ := s.free, queued := false }] ∧
      t.twin.outbox.get [] k.idx = r) ∧
  (∀ (h : HeldCopy) (s : State), s.held = false → s.twin.waiting = [h] → h.queued = false → s.twin.arb = [] → s.twin.arbDone = [] →
    s.twin.etcHeld = [] → s.bridge.graftCopies = [] → h.at_ + s.fget Reg.CmpCtrl.window * 65536000 ≤ s.free →
    ∃ t, exec .compareWindowExpiry s = .next t ∧ t.twin.waiting = [] ∧ t.twin.arb.length = 1 ∧
      t.regN Reg.cmpMissingCnt = min 0xFFFFFFFF (s.regN Reg.cmpMissingCnt + 1)) ∧
  (∀ (u : ArbUnit) (x : BitVec 64) (s : State), s.held = false → s.twin.arb = [u] → u.voteA = none → u.voteB = none →
    (∃ t, exec (.arbitrationVote .a u.code u.seq x) s = .next t ∧
      t.twin.arb = [{ u with voteA := some (some (s.voteOf .a u.code u.seq x)) }]) ∧
    (∃ t, exec (.arbitrationVote .b u.code u.seq x) s = .next t ∧
      t.twin.arb = [{ u with voteB := some (some (s.voteOf .b u.code u.seq x)) }])) ∧
  (∀ (u : ArbUnit) (s : State), s.held = false → s.twin.arb = [u] → u.voteA = none → u.voteB = none →
    u.asked + 80 * 65536000 ≤ s.free →
    ∃ t, exec .voteTimeout s = .next t ∧ t.twin.arb = [] ∧ t.regN Reg.cmpMissingCnt = min 0xFFFFFFFF (s.regN Reg.cmpMissingCnt + 2) ∧
      t.regN Reg.cmpUnresolvedCnt = min 0xFFFFFFFF (s.regN Reg.cmpUnresolvedCnt + 1) ∧
      (3 ≤ s.trunkState s.activeTrunk.other → t.trunkState s.activeTrunk.other = 1)) ∧
  (∀ (k : Trunk) (up : Bool) (lane : Fin 34) (s : State), s.held = false →
    ((s.twin.laneReplays.get [] ((k.idx * 2 + up.toNat) * 64 + lane.val)).filter (fun x => s.free < x + 1000000 * 65536)).length < 15 →
    ∃ t, exec (.linkReplay k up lane) s = .next t ∧ t.twin.laneReplays.get [] ((k.idx * 2 + up.toNat) * 64 + lane.val) =
      s.free :: (s.twin.laneReplays.get [] ((k.idx * 2 + up.toNat) * 64 + lane.val)).filter (fun x => s.free < x + 1000000 * 65536)) ∧
  (∀ (k : Trunk) (s : State), s.held = false → 3 ≤ s.trunkState k → s.trunkState k.other = 0 → s.redundancy = 1 → s.compareActive = false →
    ∃ t, exec (.trunkKeepaliveLoss k) s = .next t ∧ t.trunkState k = 1 ∧ t.fget Reg.CmpLastCause.cause = 5) ∧
  (∀ (k : Trunk) (s : State), s.held = false → s.trunkState k = 1 → s.twin.retryAt.get 0 k.idx = 0 → s.twin.tested.contains k.idx = false →
    s.twin.testFails.get 0 k.idx < 2 →
    ∃ t, exec (.trunkTestDone k false) s = .next t ∧ t.twin.testFails.get 0 k.idx = s.twin.testFails.get 0 k.idx + 1 ∧
      t.twin.retryAt.get 0 k.idx = s.free + 10 * second) ∧
  (∀ (k : Trunk) (s : State), s.held = false → s.trunkState k = 1 → s.twin.retryAt.get 0 k.idx = 0 → s.twin.tested.contains k.idx = false →
    s.fget (Reg.BistTrunkHealth.boughFailed k.idx) = 0 → s.inService k.other = false → s.twin.loaded.contains k.idx = false →
    ∃ t, exec (.trunkTestDone k true) s = .next t ∧ t.twin.tested = s.twin.tested ++ [k.idx]) ∧
  (∀ (k : Trunk) (s : State), s.held = false → s.trunkState k = 1 → s.twin.retryAt.get 0 k.idx ≠ 0 → s.twin.retryAt.get 0 k.idx ≤ s.free →
    ∃ t, exec (.trunkTestRetry k) s = .next t ∧ t.twin.retryAt.get 0 k.idx = 0) ∧
  (∀ (s : State), s.held = false → s.joining.isSome = true → s.fget Reg.CmpResync.phase = 1 →
    ∃ t, exec .resyncBulkDone s = .next t ∧ t.fget Reg.CmpResync.phase = 2 ∧ t.twin.resyncAt = s.free) ∧
  (∀ (k : Trunk) (s : State), s.held = false → s.joining = some k → s.fget Reg.CmpResync.phase = 1 → s.twin.resyncAt + 10 * second ≤ s.free →
    ∃ t, exec .resyncTimeout s = .next t ∧ t.trunkState k = 1 ∧ t.fget Reg.CmpResync.phase = 0) ∧
  (∀ (s : State), s.held = false → ∃ t, exec .cmpUnlatch s = .next t ∧ t.fget Reg.CmpStatus.failbackLatched = 0) ∧
  (∀ (s : State), s.held = false → s.compareActive = true → ∃ t, exec .cmpSwap s = .next t ∧ t.twin.swapReq = true) ∧
  (∀ (k : Trunk) (s : State), s.held = false → s.trunkState k = 0 → s.fbit Reg.TreeReady.firmware = true →
    ∃ t, exec (.cmpRejoin k) s = .next t ∧ t.trunkState k = 1) ∧
  (∀ (k : Trunk) (s : State), s.held = false → s.fget Reg.LifeState.state = 3 →
    ∃ t, exec (.trunkPark k) s = .next t ∧ t.twin.parkReq = s.twin.parkReq ++ [k.idx])

/-- PORT FABRIC, TRANSMISSION (R52, R211, R213 to R218): the timed frame in front leaves when it is due on a free line, past its
limit it is dropped from a held port, and an untimed frame leaves where the launch guard admits it; a frame ends; PAUSE holds a
port and lets it go; a collision is counted. -/
def Obligations.PortTransmitCommandsComplete : Prop :=
  (∀ (rec : Nat) (f : OutFrame) (r : List OutFrame) (s : State), s.held = false → 1 ≤ portKind (s.portRec rec) → portKind (s.portRec rec) ≤ 4 →
    (s.port (s.ethOfRec rec)).timed = f :: r → s.due f = true → s.lineFree (s.ethOfRec rec) = true →
    ∃ t, exec (.frameLaunch rec) s = .next t ∧ (t.port (s.ethOfRec rec)).timed = r ∧
      (t.port (s.ethOfRec rec)).tx = some { timed := true, out := { f with late := f.late || decide (50 ≤ s.ethOfRec rec) && s.lateNow f },
                                            len := f.len, startedAt := s.free }) ∧
  (∀ (rec : Nat) (s : State), s.held = false → 1 ≤ portKind (s.portRec rec) → portKind (s.portRec rec) ≤ 4 →
    s.txBlocked (s.ethOfRec rec) = true →
    ∃ t, exec (.launchLimitExpiry rec) s = .next t ∧
      (t.port (s.ethOfRec rec)).timed = (s.port (s.ethOfRec rec)).timed.filter (fun f => !s.pastLimit f)) ∧
  (∀ (n : Fin 58) (x : TxSt) (s : State), s.held = false → (s.port n).tx = some x → (s.port n).timed = [] → (s.port n).untimed = [] →
    (s.port n).pauseOut = [] → s.stillIn n x = false → ∃ t, exec (.frameTxEnd n) s = .next t ∧ (t.port n).tx = none) ∧
  (∀ (n : Fin 58) (u : Untimed) (r : List Untimed) (s : State), s.held = false → s.lineFree n = true → (s.port n).pauseOut = [] →
    (s.port n).untimed = u :: r → s.guardOk n u.frame.len = true → ptpAt u.frame = none → u.stamp = none →
    ∃ t, exec (.untimedTransmit n) s = .next t ∧ (t.port n).untimed = r ∧
      (t.port n).tx = some { frame := some u.frame, ingress := u.ingress, len := u.frame.len, startedAt := s.free }) ∧
  (∀ (i e : Fin 58) (f : EthFrame) (got : Nat) (s : State), s.held = false → s.cutOk i e f got = true →
    ∃ t x, exec (.cutThroughStart i e ⟨f, got⟩) s = .next t ∧ (t.port e).tx = some x ∧ x.ingress = i.val ∧ x.startedAt = s.free) ∧
  (∀ (n : Fin 58) (time : BitVec 16) (s : State), s.held = false → s.ethRec? n ≠ none → s.linkUp n = true →
    portPauseHonoured (s.ethRec n) = true → s.fbit (Reg.PortStatus.pauseIgnored n) = false → time.toNat ≠ 0 →
    ∃ t, exec (.pauseReceive n time) s = .next t ∧ (t.port n).pauseEnd = s.free + bitsRaw (s.rateOf n) (time.toNat * 512)) ∧
  (∀ (n : Fin 58) (s : State), s.held = false → (s.port n).pauseEnd ≠ 0 → (s.port n).pauseEnd ≤ s.free → (s.port n).timed = [] →
    (s.port n).untimed = [] → (s.port n).pauseOut = [] →
    ∃ t, exec (.pauseTimerExpiry n) s = .next t ∧ (t.port n).pauseEnd = 0 ∧ (t.port n).heldFrom = 0) ∧
  (∀ (n : Fin 58) (s : State), s.held = false → (s.port n).pauseEnd ≠ 0 → ethPauseWd (s.ethRec n) ≠ 0xFFFF →
    (s.port n).heldFrom + ethPauseWd (s.ethRec n) * 1000000 * 65536 ≤ s.free → (s.port n).timed = [] →
    (s.port n).untimed = [] → (s.port n).pauseOut = [] →
    ∃ t, exec (.pauseWatchdogTrip n) s = .next t ∧ (t.port n).pauseEnd = 0 ∧ t.fbit (Reg.PortStatus.pauseIgnored n) = true ∧
      t.fbit (Reg.PortStatus.pauseWd n) = true) ∧
  (∀ (n : Fin 58) (s : State), s.held = false → s.ethRec? n ≠ none →
    ∃ t, exec (.pauseRearm n) s = .next t ∧ t.fget (Reg.PortStatus.pauseIgnored n) = 0) ∧
  (∀ (n : Fin 58) (s : State), s.held = false → (s.port n).pausing ≠ [] → (s.port n).pauseNext ≤ s.free →
    ∃ t, exec (.pauseTxRepeat n) s = .next t ∧ (t.port n).pauseNext = s.free + s.pauseHalf n) ∧
  (∀ (g : Fin 8) (bit : Nat) (x : TxSt) (s : State), s.held = false → (s.port (50 + g.val)).tx = some x →
    (∃ t, exec (.t1sCollision g bit) s = .next t ∧ (t.port (50 + g.val)).tx = none ∧ (t.port (50 + g.val)).carrier = true) ∧
    (bit < 512 → (s.port (50 + g.val)).attempts + 1 < 16 →
      ∃ t, exec (.t1sCollision g bit) s = .next t ∧ (t.port (50 + g.val)).attempts = (s.port (50 + g.val)).attempts + 1)) ∧
  (∀ (g : Fin 8) (s : State), s.held = false → (s.port (50 + g.val)).backoffEnd ≤ s.free → (s.port (50 + g.val)).timed = [] →
    (s.port (50 + g.val)).untimed = [] → (s.port (50 + g.val)).pauseOut = [] →
    ∃ t, exec (.t1sBackoffExpiry g) s = .next t ∧ (t.port (50 + g.val)).backoffEnd = 0) ∧
  (∀ (g : Fin 8) (s : State), s.held = false → (s.port (50 + g.val)).timed = [] → (s.port (50 + g.val)).untimed = [] →
    (s.port (50 + g.val)).pauseOut = [] →
    ∃ t, exec (.t1sCarrierFall g) s = .next t ∧ (t.port (50 + g.val)).carrier = false)

/-- PORT FABRIC, RECEPTION AND THE SWITCH (R209, R210, R219, R220, R222, R318): a good frame for the port's own address enters
the receive ring, links follow their pads, a port that fell back returns, and the address table is emptied and ages. -/
def Obligations.PortReceiveCommandsComplete : Prop :=
  (∀ (n : Fin 58) (f : EthFrame) (s : State), s.held = false → s.ethRec? n ≠ none → s.linkUp n = true → 64 ≤ f.len →
    f.len ≤ portMaxFrame (s.ethRec n) → f.fcsOk = true → udpBad f = false → f.etype ≠ 0x8808 → (n.val < 16 ∨ 50 ≤ n.val) → f.dst = s.portMac n →
    State.ringBuffers (s.port n) + (f.len + 255) / 256 ≤ (portRingSize (s.ethRec n) + 255) / 256 →
    ∃ t, exec (.frameReceive n f) s = .next t ∧ (t.port n).ring = (s.port n).ring ++
      [{ frame := { f with fecCorr := 0, fecUncorr := 0 }, at_ := s.free, bufs := (f.len + 255) / 256 }]) ∧
  (∀ (n : Fin 58) (up : Bool) (s : State), s.held = false → s.ethRec? n ≠ none →
    ∃ t, exec (.linkChange n up) s = .next t ∧ (t.port n).phys = up ∧
      t.linkUp n = (up && !s.fbit (Reg.PortCtrl.disable n) && !(s.port n).faulted && !s.ethHeld n)) ∧
  (∀ (n : Fin 58) (s : State), s.held = false → (s.port n).fallback = true → s.linkUp n = true → (s.port n).upSince + second ≤ s.free →
    ∃ t, exec (.ringReturn n) s = .next t ∧ (t.port n).fallback = false) ∧
  (∀ (n : Fin 58) (off : Bool) (s : State), s.held = false → s.ethRec? n ≠ none →
    ∃ t, exec (.portDisable n off) s = .next t ∧ t.fbit (Reg.PortCtrl.disable n) = off) ∧
  (∀ (s : State), s.held = false → ∃ t, exec .swFlush s = .next t ∧ t.swTable = [] ∧ t.fget Reg.SwStatus.entries = 0) ∧
  (∀ (g : Fin 16) (a : Nat) (s : State), s.held = false → s.fget Reg.SwCtrl.ageTime ≠ 0 →
    ∃ t, exec (.addressAgeout g a) s = .next t ∧ t.swTable = s.swTable.filter (fun e =>
      !(e.group == g.val && e.addr == a && decide (e.at_ + s.fget Reg.SwCtrl.ageTime * second ≤ s.free)))) ∧
  (∀ (n : Fin 58) (s : State), s.held = false → s.ethRec? n ≠ none →
    ∃ t, exec (.portDatapathFault n) s = .next t ∧ (t.port n).faulted = true ∧ t.linkUp n = false)

/-- DMX512, RDM AND E1.31 (R240, R241, R243 to R245, R247, R378): a due frame starts, ends once its time has run, and repeats; an RDM
request goes out, is answered, and is asked once more; discovery starts; input packets, tunnelled frames and E1.31 packets are taken, one
of a synchronised source with its synchronisation packet; a universe's last packet is queued again with its next sequence. -/
def Obligations.DmxCommandsComplete : Prop :=
  (∀ (n : Fin 16) (f : OutFrame) (s : State), s.held = false → s.dmxHeld n = false → (s.dmxSt n).queue = [f] →
    s.due f = true → (s.dmxSt n).cur = none → (s.dmxSt n).rdm = none →
    ∃ t, exec (.dmxFrameStart n) s = .next t ∧ (t.dmxSt n).cur = some f ∧ (t.dmxSt n).queue = [] ∧ (t.dmxSt n).last = f.data ∧
      t.sent = s.sent ++ [.dmx n false (dmxBreak (s.dmxRec n)) (dmxMab (s.dmxRec n)) f.data]) ∧
  (∀ (n : Fin 16) (s : State), s.held = false → (s.dmxSt n).endsAt ≤ s.free →
    ∃ t, exec (.dmxFrameEnd n) s = .next t ∧ (t.dmxSt n).cur = none ∧ (t.dmxSt n).repeating = false) ∧
  (∀ (n : Fin 16) (s : State), s.held = false → s.dmxHeld n = false → (s.dmxSt n).cur = none → (s.dmxSt n).rdm = none →
    (s.dmxSt n).repeating = false → (s.dmxSt n).last ≠ [] → (∀ f ∈ (s.dmxSt n).queue, s.due f = false) → dmxRepeatMs (s.dmxRec n) ≠ 0xFFFF →
    (s.dmxSt n).lastStart + dmxRepeatMs (s.dmxRec n) * 1000 * usRaw ≤ s.free →
    ∃ t, exec (.dmxRepeat n) s = .next t ∧ (t.dmxSt n).lastStart = s.free ∧
      t.sent = s.sent ++ [.dmx n false (dmxBreak (s.dmxRec n)) (dmxMab (s.dmxRec n)) (s.dmxSt n).last]) ∧
  (∀ (n : Fin 16) (q : RdmReq) (r : List RdmReq) (s : State), s.held = false → (s.dmxSt n).rdmQ = q :: r → q.step ≠ 1 → s.dmxIdle n = true →
    (s.dmxBound n = true → (s.dmxSt n).ended = true) →
    s.gapHolds n (State.rdmWait (s.dmxRec n) q.data.length (State.rdmDisc q) + 257 * 44 * usRaw) = true →
    ∃ t, exec (.rdmTransactionStart n) s = .next t ∧ (t.dmxSt n).rdm = some q ∧ (t.dmxSt n).rdmQ = r ∧
      t.sent = s.sent ++ [.dmx n true (dmxBreak (s.dmxRec n)) (dmxMab (s.dmxRec n)) q.data]) ∧
  (∀ (n : Fin 16) (q : RdmReq) (ack : Bool) (d : List Byte) (s : State), s.held = false → (s.dmxSt n).rdm = some q → q.origin = 4 →
    q.lo = s.grovePos → q.tag < 16 →
    ∃ t, exec (.rdmResponse n true ack d) s = .next t ∧ (t.dmxSt n).rdm = none ∧
      (let m := s.fget (Reg.GraftTun.srcPort q.tag)
       t.sent = s.sent ++ [.dmx m true (dmxBreak (s.dmxRec m)) (dmxMab (s.dmxRec m)) d]) ∧
      t.regN (Reg.dmxRdmOk n) = min 0xFFFFFFFF (s.regN (Reg.dmxRdmOk n) + 1)) ∧
  (∀ (n : Fin 16) (q : RdmReq) (s : State), s.held = false → (s.dmxSt n).rdm = some q → q.retried = false →
    (s.dmxSt n).rdmAt + State.rdmWait (s.dmxRec n) q.data.length (State.rdmDisc q) ≤ s.free →
    ∃ t, exec (.rdmResponseTimeout n) s = .next t ∧ (t.dmxSt n).rdm = none ∧
      (t.dmxSt n).rdmQ = { q with retried := true, asked := s.free } :: (s.dmxSt n).rdmQ) ∧
  (∀ (n : Fin 16) (q : RdmReq) (r : List RdmReq) (s : State), s.held = false → (s.dmxSt n).rdmQ = q :: r → q.asked + second ≤ s.free →
    q.origin = 4 →
    ∃ t, exec (.rdmNoGap n) s = .next t ∧ (t.dmxSt n).rdmQ = r ∧
      t.regN (Reg.dmxRdmTimeout n) = min 0xFFFFFFFF (s.regN (Reg.dmxRdmTimeout n) + 1)) ∧
  (∀ (n : Fin 16) (s : State), s.held = false → dmxRdm (s.dmxRec n) = true → s.fbit (Reg.DmxStatus.discBusy n) = false →
    ∃ t, exec (.rdmDiscovery n) s = .next t ∧ t.fbit (Reg.DmxStatus.discBusy n) = true ∧
      (t.dmxSt n).rdmQ.length = (s.dmxSt n).rdmQ.length + 1) ∧
  (∀ (n : Fin 16) (l : List Byte) (b m : Nat) (s : State), s.held = false → (s.dmxRec? n).isSome = true → dmxInput (s.dmxRec n) = true →
    s.bridge.tunLive = [] → 24 ≤ l.length → l.length ≤ 512 →
    ∃ t, exec (.dmxInputPacket n 0 l true b m) s = .next t ∧ (t.dmxSt n).rx = l ∧ (t.dmxSt n).rxAt = s.free) ∧
  (∀ (n : Fin 16) (f : TunFrame) (s : State), s.held = false → (s.dmxSt n).tun = some f → s.dmxIdle n = true →
    (s.dmxBound n = true → s.gapHolds n ((f.brk + f.mab + f.data.length * 44) * usRaw) = true) →
    ∃ t, exec (.tunnelFrameSend n) s = .next t ∧ (t.dmxSt n).tun = none ∧ t.sent = s.sent ++ [.tunnel n f.brk f.mab f.data]) ∧
  (∀ (u c p sy : Nat) (l : List Byte) (s : State), s.held = false → s.e131Joined u = true →
    ((s.e131rx.get [] u).find? (fun x => x.cid == c) = none →
      ∃ t, exec (.e131PacketReceive u c ⟨p, sy⟩ (some l) true) s = .next t ∧ t.e131rx.get [] u =
        { cid := c, priority := p, slots := l, lastAt := s.free, sync := sy } :: (s.e131rx.get [] u).filter (fun x => x.cid != c)) ∧
    ∀ x : E131Src, (s.e131rx.get [] u).find? (fun x => x.cid == c) = some x → x.sync = sy →
      ∃ t, exec (.e131PacketReceive u c ⟨p, sy⟩ (some l) true) s = .next t ∧ t.e131rx.get [] u =
        (if s.e131Synced x then { x with priority := p, lastAt := s.free, held := some l }
         else { x with priority := p, lastAt := s.free, slots := l, held := none }) :: (s.e131rx.get [] u).filter (fun x => x.cid != c)) ∧
  (∀ (u c p sy : Nat) (s : State), s.held = false →
    ∃ t, exec (.e131PacketReceive u c ⟨p, sy⟩ none true) s = .next t ∧ ∀ v, t.e131rx.get [] v = (s.e131rx.get [] v).map (fun x =>
      if x.cid = c ∧ x.sync = u then { x with slots := x.held.getD x.slots, held := none, syncAt := some s.free } else x)) ∧
  (∀ (u c : Nat) (x : E131Src) (s : State), s.held = false → (s.e131rx.get [] u).find? (fun x => x.cid == c) = some x →
    x.lastAt + 5 * second / 2 ≤ s.free →
    ∃ t, exec (.e131SourceLost u c) s = .next t ∧ t.e131rx.get [] u = (s.e131rx.get [] u).filter (fun y => y.cid != c)) ∧
  (∀ (u : Nat) (s : State), s.held = false → (s.e131tx.get ({} : E131Tx) u).packet ≠ [] →
    (s.e131tx.get ({} : E131Tx) u).lastAt + second ≤ s.free →
    (let x := s.e131tx.get ({} : E131Tx) u
     let k := (e131Key x.packet).2
     let m := s.e131Port x.group
     let f := ethOf (s.e131Frame x.group (e131WithSeq x.packet (s.e131tx.get ({} : E131Tx) k).seq))
     s.linkUp m = true → State.queueFill (s.port m) + f.len ≤ portQueueSize (s.ethRec m) - portMaxFrame (s.ethRec m) →
     ∃ t, exec (.e131Repeat u) s = .next t ∧ (t.port m).untimed = (s.port m).untimed ++ [{ frame := f, at_ := s.free }] ∧
       (t.e131tx.get ({} : E131Tx) k).seq = ((s.e131tx.get ({} : E131Tx) k).seq + 1) % 256))

/-- SAP LINES (R255, R263, R267, R268): a due burst starts with its first frame and ends once its last has gone out, a poll opens its
window, a valid reply within the window is taken, and the window closes. -/
def Obligations.SapCommandsComplete : Prop :=
  (∀ (n : Fin 64) (f : OutFrame) (s : State), s.held = false → s.sapHeld n = false → (s.sapSt n).window = none →
    (s.sapSt n).cur = none → (s.sapSt n).queue = [f] → f.part = 0 → s.due f = true →
    ∃ t b, exec (.sapBurstStart n) s = .next t ∧ (t.sapSt n).cur = some b ∧ b.head = f ∧ b.next = 1 ∧ (t.sapSt n).queue = []) ∧
  (∀ (n : Fin 64) (b : SapBurst) (s : State), s.held = false → (s.sapSt n).cur = some b → b.head.parts ≤ b.next →
    (∀ p ∈ s.basePos b.head.base, b.free - 2 * sapChars (s.sapRec n) 1 ≤ (p : Int)) →
    ∃ t, exec (.sapBurstEnd n) s = .next t ∧ (t.sapSt n).cur = none ∧
      t.regN (Reg.sapTxBursts n) = min 0xFFFFFFFF (s.regN (Reg.sapTxBursts n) + 1)) ∧
  (∀ (n : Fin 64) (rec : Nat) (s : State), s.held = false → s.sapRec? n = some rec → sapNodes (s.sapRec n) ≠ 0 →
    s.sapHeld n = false → (s.sapSt n).cur = none → (s.sapSt n).window = none → s.nextLaunchOf rec (s.sapSt n).queue = none →
    (let node := (s.sapSt n).pollNext % sapNodes (s.sapRec n)
     s.pollDue n node = true →
     ∃ t, exec (.sapPoll n false) s = .next t ∧ (t.sapSt n).window =
       some { node := node, opens := s.free + sapChars (s.sapRec n) 14 + sapUis (s.sapRec n) 2, fin := s.free + sapPollTime (s.sapRec n) })) ∧
  (∀ (n : Fin 64) (w : SapWindow) (f p : List Byte) (s : State), s.held = false → (s.sapSt n).window = some w → w.opens ≤ s.free →
    s.free ≤ w.fin →
    (w.ident = false ∧ State.sapReplyOk w.node f = some (0x84, p) ∧ p.length = 24 ∨
      w.ident = true ∧ State.sapReplyOk w.node f = some (0x86, p) ∧ p.length = 16) →
    ∃ t, exec (.sapReply n f) s = .next t ∧ (t.sapSt n).window = some { w with got := true }) ∧
  (∀ (n : Fin 64) (w : SapWindow) (s : State), s.held = false → (s.sapSt n).window = some w → w.fin ≤ s.free →
    ∃ t, exec (.sapTurnaroundEnd n) s = .next t ∧ (t.sapSt n).window = none)

/-- PTP INSTANCES (R275 to R278, R281, R283, R286): what the commands of an instance do. `enable` starts it in LISTENING and stops
it; a first Announce is kept; Sync, Follow_Up and Delay_Resp give the difference and the path delay; requests are answered, and what is
sent enters the egress queue of its port; a discarded message is counted; a master and a slave send when their time comes; the two
timeouts act. -/
def Obligations.PtpCommandsComplete : Prop :=
  (∀ (i : Fin 4) (s : State), s.held = false → (∀ j < 4, (s.ptp j).running = false) →
    ∃ t, exec (.ptpEnable i true) s = .next t ∧ (t.ptp i).running = true ∧ t.ptpState i = 4 ∧ t.fbit (Reg.TimePtpCfg.enable i) = true) ∧
  (∀ (i : Fin 4) (s : State), s.held = false → (s.ptp i).running = true →
    ∃ t, exec (.ptpEnable i false) s = .next t ∧ (t.ptp i).running = false ∧ t.ptpState i = 3) ∧
  (∀ (i : Fin 4) (a : PtpAnnounce) (s : State), s.held = false → 4 ≤ s.ptpState i → (s.ptp i).foreign = [] →
    ∃ t, exec (.ptpAnnounceReceive i a) s = .next t ∧ (t.ptp i).foreign = [(a, s.free, 1)]) ∧
  (∀ (i : Fin 4) (m : PtpEvent) (sub : Nat) (s : State), s.held = false → 8 ≤ s.ptpState i → m.twoStep = true →
    ∃ t, exec (.ptpSyncReceive i m sub) s = .next t ∧ (t.ptp i).two = some (m.seq, s.ingressTime i sub, m.corr)) ∧
  (∀ (i : Fin 4) (m : PtpEvent) (sub : Nat) (s : State), s.held = false → 8 ≤ s.ptpState i → m.twoStep = false →
    ∃ t, exec (.ptpSyncReceive i m sub) s = .next t ∧ (t.ptp i).diff = some (s.ingressTime i sub - m.origin - m.corr) ∧
      ((s.ptp i).d.isSome = true → (t.ptp i).lastSync = s.free ∧
        t.regN (Reg.timePtpSyncRx i) = min 0xFFFFFFFF (s.regN (Reg.timePtpSyncRx i) + 1))) ∧
  (∀ (i : Fin 4) (m : PtpEvent) (t2 c : Int) (s : State), s.held = false → 8 ≤ s.ptpState i → (s.ptp i).d = none →
    (s.ptp i).two = some (m.seq, t2, c) →
    ∃ t, exec (.ptpFollowUpReceive i m) s = .next t ∧ (t.ptp i).diff = some (t2 - m.origin - (c + m.corr)) ∧ (t.ptp i).two = none) ∧
  (∀ (i : Fin 4) (seq : Nat) (t4 corr t3 df : Int) (s : State), s.held = false → 8 ≤ s.ptpState i → (s.ptp i).d = none →
    (s.ptp i).p2p = false → (s.ptp i).req = some (seq, t3) → (s.ptp i).diff = some df →
    ∃ t, exec (.ptpDelayRespReceive i seq t4 corr) s = .next t ∧ (t.ptp i).d = some ((df + (t4 - t3 - corr)) / 2) ∧ (t.ptp i).req = none) ∧
  (∀ (i : Fin 4) (src seq sub : Nat) (s : State), s.held = false → s.ptpState i = 6 → (s.ptp i).p2p = false →
    (let l := s.ptpOut i 9 seq 0 ((s.ptp i).logOf 8 0 (-3)) (ptpStamp (s.ingressTime i sub) ++ beBytes 10 src)
     Safety.admits s (s.ptp i).port (ethOf l).len →
     ∃ t, exec (.ptpDelayReqReceive i ⟨src, seq⟩ sub) s = .next t ∧ Safety.queued s t (s.ptp i).port l none)) ∧
  (∀ (port : Fin 50) (src seq : Nat) (m : Int) (s : State), s.held = false → s.fget Reg.TimeTcCtrl.tcMode = 2 →
    (∀ j < 4, (s.ptp j).running = false) →
    (let l := s.pdelayOut port 3 seq (List.replicate 10 0 ++ beBytes 10 src)
     Safety.admits s port (ethOf l).len →
     ∃ t, exec (.ptpPdelayReceive port true ⟨src, seq⟩ m) s = .next t ∧ Safety.queued s t port l (some (4 + port.val, 3, seq % 65536))) ∧
    ∃ t, exec (.ptpPdelayReceive port false ⟨src, seq⟩ m) s = .next t ∧ t.peerDelay.get 0 port = m) ∧
  (∀ (i : Fin 4) (s : State), s.held = false → ∃ t, exec (.ptpMessageDiscard i) s = .next t ∧
    t.regN (Reg.timePtpMsgErr i) = min 0xFFFFFFFF (s.regN (Reg.timePtpMsgErr i) + 1) ∧ t.fget (Reg.TimePtpStatus.msgErr i) = 1) ∧
  (∀ (i : Fin 4) (s : State), s.held = false → s.ptpState i = 6 → (s.ptp i).annNext ≤ s.free →
    (let l := s.ptpOut i 0xB (s.ptp i).annSeq s.announceFlags ((s.ptp i).logOf 24 1 (-2)) (s.announceBody i)
     Safety.admits s (s.ptp i).port (ethOf l).len →
     ∃ t, exec (.ptpAnnounceSend i) s = .next t ∧ (t.ptp i).annSeq = (s.ptp i).annSeq + 1 ∧
       (t.ptp i).annNext = s.free + (s.ptp i).annRaw ∧ Safety.queued s t (s.ptp i).port l none)) ∧
  (∀ (i : Fin 4) (s : State), s.held = false → s.ptpState i = 6 → (s.ptp i).syncNext ≤ s.free →
    (let q := (s.ptp i).syncSeq
     let l := s.ptpOut i 0 q ((s.ptp i).cfgF (Reg.TimePtpCfg.twoStep i) * 512) ((s.ptp i).logOf 16 0 (-3)) (List.replicate 10 0)
     Safety.admits s (s.ptp i).port (ethOf l).len →
     ∃ t, exec (.ptpSyncSend i) s = .next t ∧ (t.ptp i).syncNext = s.free + (s.ptp i).syncRaw ∧
       Safety.queued s t (s.ptp i).port l (some (i.val, 0, q % 65536)))) ∧
  (∀ (i : Fin 4) (s : State), s.held = false → 8 ≤ s.ptpState i → (s.ptp i).reqNext ≤ s.free →
    (let q := (s.ptp i).reqSeq
     let kind := if (s.ptp i).p2p then 2 else 1
     let l := s.ptpOut i kind q 0 0x7F (List.replicate (if (s.ptp i).p2p then 20 else 10) 0)
     Safety.admits s (s.ptp i).port (ethOf l).len →
     ∃ t, exec (.ptpDelayReqSend i) s = .next t ∧ (t.ptp i).reqNext = s.free + (s.ptp i).delayRaw ∧
       Safety.queued s t (s.ptp i).port l (some (i.val, kind, q % 65536)))) ∧
  (∀ (i : Fin 4) (s : State), s.held = false → s.ptpState i = 4 → (s.ptp i).role = 1 → (s.ptp i).foreign = [] →
    (s.ptp i).lastAnn + 3 * (s.ptp i).annRaw ≤ s.free →
    ∃ t, exec (.ptpAnnounceTimeout i) s = .next t ∧ (t.ptp i).lastAnn = s.free ∧
      t.regN (Reg.timePtpAnnTimeout i) = min 0xFFFFFFFF (s.regN (Reg.timePtpAnnTimeout i) + 1)) ∧
  (∀ (i : Fin 4) (s : State), s.held = false → 8 ≤ s.ptpState i → s.axisState i = 2 → (s.ptp i).lastSync + 3 * (s.ptp i).annRaw ≤ s.free →
    ∃ t, exec (.ptpSyncTimeout i) s = .next t ∧ t.axisState i = 3)

/-- THE PULSE, THE TIME OF DAY AND THE 10 MHZ REFERENCE (R274, R282, R284, R289): the third edge 1 s after the one before makes the
pulse valid, and 2 s without a valid one invalid; a grandmaster takes its time of day at once or waits for an edge, and an instance that
is none is refused; PPS_OUT gives its edge at a whole second of FREE; the OCXO is ready, and REF_10M_IN locks and is lost. -/
def Obligations.PulseCommandsComplete : Prop :=
  (∀ s : State, s.held = false → 2 ≤ s.ppsRun → second ≤ (s.free - s.ppsLast) + 65536000 → s.free - s.ppsLast ≤ second + 65536000 →
    (∀ i < 4, (s.ptp i).todAt = none ∧ s.ptpState i ≠ 6) →
    ∃ t, exec .ppsInEdge s = .next t ∧ t.ppsOk = true ∧ t.ppsLast = s.free ∧ t.ppsRun = s.ppsRun + 1) ∧
  (∀ s : State, s.held = false → s.ppsOk = true → s.ppsGood + 2 * second ≤ s.free → (∀ i < 4, s.ptpState i ≠ 6) →
    ∃ t, exec .ppsLost s = .next t ∧ t.ppsOk = false ∧ t.ppsLostAt = some s.free) ∧
  (∀ (i : Fin 4) (s : State), s.held = false → s.ptpState i = 6 ∨ s.ptpState i = 7 →
    (∃ t, exec (.setTod i false) s = .next t ∧ (t.ptp i).tod = true ∧
      (t.ptp i).base = (((s.regN Reg.timeGmSecLo + 2 ^ 32 * s.fget Reg.TimeGmSecHi.sec) * second : Nat) : Int)) ∧
    (s.ppsOk = true → ∃ t, exec (.setTod i true) s = .next t ∧
      (t.ptp i).todAt = some (s.regN Reg.timeGmSecLo + 2 ^ 32 * s.fget Reg.TimeGmSecHi.sec))) ∧
  (∀ (i : Fin 4) (p : Bool) (s : State), s.held = false → s.ptpState i ≠ 6 → s.ptpState i ≠ 7 →
    ∃ t, exec (.setTod i p) s = .next t ∧ t.fget Reg.TimeStatus.gmRefused = 1 ∧ t.ptps = s.ptps) ∧
  (∀ s : State, s.held = false → s.fget Reg.TimeCtrl.ppsOutSrc = 4 → s.hasPos 17 = true → s.axisPos 17 % second ≤ 524288 →
    s.ppsOut ≠ some (s.axisPos 17 / second) →
    ∃ t, exec .ppsOutEdge s = .next t ∧ t.sent = s.sent ++ [.pps] ∧ t.ppsOut = some (s.axisPos 17 / second)) ∧
  (∀ s : State, s.held = false → ∃ t, exec .ocxoReady s = .next t ∧ t.fget Reg.TimeStatus.ocxoReady = 1) ∧
  (∀ s : State, s.held = false → s.fbit Reg.TimeCtrl.tenMInEn = true → s.fbit Reg.TimeStatus.tenMLock = false →
    ∃ t, exec .tenMLock s = .next t ∧ t.fbit Reg.TimeStatus.tenMLock = true) ∧
  (∀ s : State, s.held = false → s.fbit Reg.TimeCtrl.tenMInEn = true →
    ∃ t, exec .tenMLoss s = .next t ∧ t.fbit Reg.TimeStatus.tenMLock = false ∧ t.fbit Reg.TimeStatus.tenMLost = true)

/-- CROWN (R141, R149 to R151, R154, R155, R157): a frame composed is the newest complete one, without what failed to be read for it; a commit of some canvas makes the crown
busy, and one while it is busy is lost; the check ends with the code of R151; `ready` releases a waiting change; a whole frame that
a layer takes is the input's newest, and one that none takes is not stored. -/
def Obligations.CrownCommandsComplete : Prop :=
  (∀ (k : Trunk) (c : Fin 8) (f : CanvasFrame) (r : List CanvasFrame) (s : State), s.held = false → (s.trunk k).composing.get [] c = f :: r →
    ∃ t, exec (.canvasFrameComplete k ⟨c, [], []⟩) s = .next t ∧ (t.trunk k).composing.get [] c = r ∧
      (t.trunk k).frames.get [] c = s.composed c [] [] f :: (s.trunk k).frames.get [] c) ∧
  (∀ (k : Trunk) (c : Fin 8) (ws : List (Fin 32 × EccRead)) (bs : List HwRead) (f : CanvasFrame) (r : List CanvasFrame) (s : State),
    s.held = false → (s.trunk k).composing.get [] c = f :: r → s.compareActive = false →
    ∃ t failed bad, exec (.canvasFrameComplete k ⟨c, ws, bs⟩) s = .next t ∧ (t.trunk k).composing.get [] c = r ∧
      (t.trunk k).frames.get [] c = s.composed c failed bad f :: (s.trunk k).frames.get [] c ∧
      ((∀ w ∈ ws, s.eccRead w.2 ≠ .uncorrectable) → failed = []) ∧ (bs = [] → bad = [])) ∧
  (∀ (k : Trunk) (mask : BitVec 8) (s : State), s.held = false → s.mirrored k = true → s.fbit (Reg.CrownCommitStatus.busy k) = false →
    mask ≠ 0 → ∃ t, exec (.crownCommit k mask) s = .next t ∧ t.fbit (Reg.CrownCommitStatus.busy k) = true ∧
      (t.trunk k).commitMask = mask.toNat) ∧
  (∀ (k : Trunk) (mask : BitVec 8) (s : State), s.held = false → s.mirrored k = true → s.fbit (Reg.CrownCommitStatus.busy k) = true →
    ∃ t, exec (.crownCommit k mask) s = .next t ∧ t.fbit (Reg.CrownCommitStatus.lost k) = true ∧
      (t.trunk k).commitMask = (s.trunk k).commitMask) ∧
  (∀ (k : Trunk) (s : State), s.held = false → s.fbit (Reg.CrownCommitStatus.busy k) = true →
    ∃ t, exec (.crownCommitCheckDone k) s = .next t ∧ t.fbit (Reg.CrownCommitStatus.busy k) = false ∧
      t.fget (Reg.CrownCommitStatus.code k) = (s.commitSplit k (s.trunk k).commitMask).1 % 65536) ∧
  (∀ (k : Trunk) (n : Fin 32) (s : State), s.held = false → s.mirrored k = true → (s.layerSt k n).awaiting = true →
    ∃ t, exec (.layerReady k n) s = .next t ∧ (t.layerSt k n).released = true) ∧
  (∀ (rec w h : Nat) (f : InputForm) (data : List Nat) (s : State), s.held = false →
    ((∃ n < s.layerCount, layerSource (s.layerRec n) = rec ∧ s.layerTakes n w h f = true) →
      ∃ t i, exec (.inputFrameComplete rec w h f true data) s = .next t ∧ (t.inputs.get [] rec).head? = some i ∧
        i.data = data ∧ i.width = w ∧ i.height = h ∧ i.form = f ∧ i.at_ = s.free ∧ i.tag = s.tag + 1) ∧
    ((∀ n < s.layerCount, layerSource (s.layerRec n) = rec → s.layerTakes n w h f = false) →
      ∃ t, exec (.inputFrameComplete rec w h f true data) s = .next t ∧ t.inputs = s.inputs))

/-- RASTER OUTPUTS (R188, R192 to R194): a commit of a generator the seed binds makes it busy, and its check ends with the code of
R194; a generator reads the next line of the frame in hand once it is due, and hands an active one over; the next line of the frame at
the pad leaves once it is due. -/
def Obligations.RasterCommandsComplete : Prop :=
  (∀ (k : Trunk) (g : Fin 8) (s : State), s.held = false → s.mirrored k = true → s.rastRec? k g ≠ none →
    s.fbit (Reg.RastStatus.busy k g) = false →
    ∃ t, exec (.rastCommit k g) s = .next t ∧ t.fbit (Reg.RastStatus.busy k g) = true) ∧
  (∀ (k : Trunk) (g : Fin 8) (s : State), s.held = false → s.fbit (Reg.RastStatus.busy k g) = true →
    ∃ t, exec (.rastCommitCheckDone k g) s = .next t ∧ t.fbit (Reg.RastStatus.busy k g) = false ∧
      t.fget (Reg.RastStatus.code k g) = s.rastCheck k g % 65536) ∧
  (∀ (k : Trunk) (g : Fin 8) (bs : List HwRead) (f : RastFrame) (s : State), s.held = false → s.computes k = true → s.rastActive k g = true →
    s.compareActive = false ∨ bs = [] → (s.rastSt k g).cur = some f → s.readDue f (s.rastSt k g).line = true → s.rastReady k f = true →
    (s.rastSt k g).line + 1 < f.vTotal → (s.rastSt k g).line < f.vStart →
    ∃ t, exec (.rasterLineRead k ⟨g, bs⟩) s = .next t ∧ (t.rastSt k g).cur = some f ∧ (t.rastSt k g).line = (s.rastSt k g).line + 1) ∧
  (∀ (k : Trunk) (g : Fin 8) (bs : List HwRead) (f : RastFrame) (s : State), s.held = false → s.computes k = true → s.rastActive k g = true →
    s.compareActive = false ∨ bs = [] → (s.rastSt k g).cur = some f → s.readDue f (s.rastSt k g).line = true → s.rastReady k f = true →
    (s.rastSt k g).line + 1 < f.vTotal → f.vStart ≤ (s.rastSt k g).line →
    (s.rastSt k g).line < f.vStart + f.vActive →
    ∃ t u, exec (.rasterLineRead k ⟨g, bs⟩) s = .next t ∧ (t.rastSt k g).line = (s.rastSt k g).line + 1 ∧
      t.twin.outbox.get [] k.idx = s.twin.outbox.get [] k.idx ++ [u] ∧ u.code = 0x0A00 + g.val ∧
      u.seq = f.n * f.vTotal + (s.rastSt k g).line) ∧
  (∀ (k : Trunk) (g : Fin 8) (tap : Option (List (BitVec 16))) (f : RastFrame) (src : Option Nat) (s : State), s.held = false →
    s.noTrunk = false → s.padFrame (s.padTrunk k) g = some (f, src) →
    (let j := (s.rastOut (s.rastKey k g)).line
     s.padDue f j = true → j + 1 < f.vTotal →
     ∃ t, exec (.rasterLineStart k g tap) s = .next t ∧ (t.rastOut (s.rastKey k g)).line = j + 1 ∧
       (t.rastOut (s.rastKey k g)).frame = (s.rastOut (s.rastKey k g)).frame ∧
       (State.isSdi (s.rastRec (s.padTrunk k) g) = true → ∃ b out, t.sent = s.sent ++ [.raster (s.padTrunk k) g j b out])))

/-- THE ALARM (R157 to R165): a heartwood block that fails its check is counted, and one that passes, as one that has not changed does, changes nothing; a heartwood
object in pieces is taken piece by piece; a sample of the loops is taken, and the fourth that agrees on ALARM brings the alarm into
force; the safety frames are packed once; the root's own packer goes on to its next period; `release` ends the alarm. -/
def Obligations.AlarmCommandsComplete : Prop :=
  (∀ (k : Trunk) (r : HwRead) (s : State), s.held = false → r.flips = [] ∨ s.hwFailed k r = none →
    exec (.heartwoodScrub k r.block r.flips) s = .next s) ∧
  (∀ (k : Trunk) (r : HwRead) (p : Nat × Nat × Nat) (s : State), s.held = false → s.mirrored k = true → s.hwFailed k r = some p →
    s.compareActive = false →
    ∃ t, exec (.heartwoodScrub k r.block r.flips) s = .next t ∧ t.regN (Reg.crownHwErrCnt k) = min 0xFFFFFFFF (s.regN (Reg.crownHwErrCnt k) + 1) ∧
      (p.2.1 = s.alarmOn.toNat → p ∈ (t.trunk k).hwBlack)) ∧
  (∀ (h : StemHdr) (c : Chunk) (s : State), Safety.stemRuns s h c.data.length false → s.stem.chunks.find? 0x40 = none → c.off = 0 →
    c.data.length < c.objLen →
    ∃ t, exec (.heartwoodWrite h c) s = .next t ∧ Safety.answered s t h 0x40 0 ∧
      t.stem.chunks.find? 0x40 = some { chan := h.chan.val, objLen := c.objLen, data := c.data }) ∧
  (∀ (h : StemHdr) (c : Chunk) (s : State), Safety.stemRuns s h c.data.length false → s.stem.chunks.find? 0x40 = none → c.off = 0 →
    c.data.length = c.objLen →
    ∃ t, exec (.heartwoodWrite h c) s = .next t ∧ Safety.answered s t h 0x40 (s.hwCheck c.data)) ∧
  (∀ (a b : Nat) (s : State), s.held = false → ∃ t, exec (.safetyLoopSample a b) s = .next t ∧
    t.safe.loopRun = [loopRunNext (s.safe.loopRun.getD 0 (0, 0)) (loopClass a), loopRunNext (s.safe.loopRun.getD 1 (0, 0)) (loopClass b)]) ∧
  (∀ (a b : Nat) (s : State), s.held = false → loopRunNext (s.safe.loopRun.getD 0 (0, 0)) (loopClass a) = (1, 4) →
    s.fbit Reg.TreeSafeStatus.evaluation = false → s.alarmOn = false →
    ∃ t, exec (.safetyLoopSample a b) s = .next t ∧ t.alarmOn = true ∧ t.safe.alarmAt = s.free ∧ t.fget Reg.TreeSafeStatus.lineA = 1) ∧
  (∀ (k : Trunk) (s : State), s.held = false → s.alarmOn = true → s.computes k = true → (s.trunk k).safePacked = false →
    ∃ t, exec (.safetyPack k) s = .next t ∧ (t.trunk k).safePacked = true) ∧
  (∀ s : State, s.held = false → s.rootPacks = true → s.safe.packerNext ≤ s.free →
    ∃ t, exec .rootSafetyPackerTick s = .next t ∧ t.safe.safetySeq = s.safe.safetySeq + 1 ∧ s.free < t.safe.packerNext) ∧
  (∀ s : State, s.held = false → s.alarmOn = true → s.fbit Reg.TreeSafeStatus.evaluation = false →
    (∃ t, exec .safeRelease s = .next t ∧ t.alarmOn = false ∧ t.safe.releasedAt = s.free ∧ t.padSafeAck = false) ∧
    (s.fbit Reg.TreeSafeCtrl.autoRelease = true → s.safe.evalNoSince + second ≤ s.free →
      ∃ t, exec .safeAutoRelease s = .next t ∧ t.alarmOn = false ∧ t.safe.releasedAt = s.free))

/-- TEMPERATURE AND MODULE FAULTS (R21, R326, R470, R473, R474): a measurement stands in the registers, and warns from 90 °C; a
module that is off cools; the twigs are throttled and released; trunks that a shutdown switched off come back; a fault of the
module is one. -/
def Obligations.ThermalCommandsComplete : Prop :=
  (∀ (b x y z : Int) (s : State), s.held = false → b < 11000 → x < 12500 → y < 12500 → z < 12500 →
    ∃ t, exec (.thermalSample b x y z) s = .next t ∧ t.fget Reg.PsuTempBase.temp = unsigned 16 b ∧ t.fget Reg.PsuTempA.temp = unsigned 16 x ∧
      t.fget Reg.PsuTempB.temp = unsigned 16 y ∧ t.fget Reg.PsuTempRoot.temp = unsigned 16 z ∧
      t.fbit Reg.PsuStatus.thermalWarn = decide (9000 ≤ b)) ∧
  (∀ (b x y z : Int) (s : State), s.held = true →
    exec (.thermalSample b x y z) s = .next (if b < 8000 then { s with life.tooHot := false } else s)) ∧
  (∀ s : State, s.held = false → s.life.hot = true → ∃ t, exec .throttleEngage s = .next t ∧ t.fbit Reg.PsuStatus.throttled = true ∧
    t.fbit Reg.TreeMode.throttled = true) ∧
  (∀ s : State, s.held = false → s.waited s.life.coolSince 10 = true →
    ∃ t, exec .throttleRelease s = .next t ∧ t.fbit Reg.PsuStatus.throttled = false ∧ t.life.hot = false) ∧
  (∀ s : State, s.held = false → s.fbit Reg.PsuStatus.trunksOff = true → s.waited s.life.diesCool 60 = true → s.twin.started = true →
    s.seed = none → ∃ t, exec .thermalRecovery s = .next t ∧ t.fbit Reg.PsuStatus.trunksOff = false ∧ t.trunkState .a = 1 ∧ t.trunkState .b = 1) ∧
  (∀ (c : Bool) (s : State), s.held = false → ∃ t, exec (.rootCheckCodeFault c) s = .next t ∧ t.life.moduleFault = true ∧ t.padFaultN = false)

/-- GROVE PAIRS (R320 to R325): a heartbeat leaves every 100 µs; a partner's heartbeat is taken, and one that does not serve, or the
lack of any for 500 µs, loses the partner; hand-back is proposed, agreed to and accepted; RING messages enter the port, whole or in
parts; what R323 discards is counted. -/
def Obligations.GroveCommandsComplete : Prop :=
  (∀ s : State, s.held = false → s.sd.isGrove = true → s.grove.hbNext ≤ s.free →
    ∃ t, exec .heartbeatSend s = .next t ∧ t.grove.hbNext = s.free + 100 * 65536000 ∧ t.grove.hbSeen = false ∧
      (s.life.moduleFault = false → Safety.sendsGrove s t 1 0xFF s.heartbeat)) ∧
  (∀ (h : GroveHdr) (al tk : Bool) (id k : Nat) (s : State), s.held = false → s.groveOk h 1 = true → s.fromPartner h = true →
    ∃ t, exec (.heartbeatReceive h true al tk id k) s = .next t ∧ t.grove.hbLast = s.free ∧ t.grove.partnerGone = false ∧
      t.grove.hbSeed = id ∧ t.fbit Reg.CmpGroveStatus.partnerServing = true) ∧
  (∀ (h : GroveHdr) (al tk : Bool) (id k : Nat) (s : State), s.held = false → s.groveOk h 1 = true → s.fromPartner h = true →
    ∃ t, exec (.heartbeatReceive h false al tk id k) s = .next t ∧ t.grove.hbLast = s.free ∧
      (s.grove.partnerGone = false → t.grove.partnerGone = true)) ∧
  (∀ s : State, s.held = false → s.fbit Reg.CmpGroveStatus.paired = true → s.grove.hbLast + 500 * 65536000 ≤ s.free → s.grove.partnerGone = false →
    ∃ t, exec .partnerHeartbeatTimeout s = .next t ∧ t.grove.partnerGone = true ∧ (s.treeServing = true → t.fbit Reg.CmpGroveStatus.takeover = true)) ∧
  (∀ s : State, s.held = false → s.grove.returning = true → s.grove.returnLeft = 0 → s.grove.backK = none →
    ∃ t k, exec .takeoverReturnSend s = .next t ∧ t.grove.backK = some k ∧ s.latestK + 2 ≤ k ∧
      Safety.sendsGrove s t 2 (s.fget Reg.CmpGroveStatus.partner) (State.takeoverBytes 1 k)) ∧
  (∀ (h : GroveHdr) (k : Nat) (s : State), s.held = false → s.groveOk h 2 = true → s.fromPartner h = true →
    (s.grove.returning = true → s.grove.backK = some k →
      ∃ t, exec (.takeoverMessageReceive h true k) s = .next t ∧ t.fbit Reg.CmpGroveStatus.handbackPending = true) ∧
    (s.fbit Reg.CmpGroveStatus.takeover = true → s.grove.hbSeed = ofBe s.sd.seedId →
      ∃ t, exec (.takeoverMessageReceive h false k) s = .next t ∧ t.fbit Reg.CmpGroveStatus.handbackPending = true ∧ t.grove.backK = some k ∧
        Safety.sendsGrove s t 2 (s.fget Reg.CmpGroveStatus.partner) (State.takeoverBytes 2 k))) ∧
  (∀ (h : GroveHdr) (port len launch off : Nat) (d : List Byte) (s : State), s.held = false → s.groveOk h 3 = true → port < 32 →
    (s.ethRec? (16 + port)).isSome = true →
    (s.pastLimit { portRec := (s.ethRec? (16 + port)).getD 0, launch := launch, base := portBase (s.ethRec (16 + port)) } = false →
      State.queueFill (s.port (16 + port)) + (len + 4) ≤ portQueueSize (s.ethRec (16 + port)) →
      ∃ t f, exec (.ringMessageReceive h port 0 len launch off d) s = .next t ∧ f.launch = launch ∧ f.data = d ∧ f.len = len + 4 ∧
        f.ringMoved = true ∧ (t.port (16 + port)).timed = insertLaunch f (s.port (16 + port)).timed) ∧
    (s.grove.ringParts = [] → ∀ part, part = 1 ∨ part = 2 → ∃ t, exec (.ringMessageReceive h port part len launch off d) s = .next t ∧
      t.grove.ringParts = [{ src := h.src, port := port, len := len, launch := launch, second := part == 2, data := d, at_ := s.free }])) ∧
  (∀ s : State, s.held = false → ∃ t, exec .ringPartTimeout s = .next t ∧
    t.grove.ringParts = s.grove.ringParts.filter (fun x => !decide (x.at_ + 1000000 * 65536 ≤ s.free)) ∧ t.regN Reg.cmpGroveRxErr =
      min 0xFFFFFFFF (s.regN Reg.cmpGroveRxErr + (s.grove.ringParts.filter fun x => decide (x.at_ + 1000000 * 65536 ≤ s.free)).length)) ∧
  (∀ (h : GroveHdr) (s : State), s.held = false → s.groveOk h h.type = false ∨ h.type ∉ [1, 2, 3, 0x10, 0x11, 0x20] →
    ∃ t, exec (.groveFrameDiscard h) s = .next t ∧ t.regN Reg.cmpGroveRxErr = min 0xFFFFFFFF (s.regN Reg.cmpGroveRxErr + 1))

/-- THE GRAFT BRIDGE (R363 to R379): a request of a leaf with a Leafcast path is issued; a core's copy waits for the other trunk's; an
answer, a repeat, a timeout, a grove message and a re-issue move the transaction on; what has expired leaves its buffer; a write of
`GRAFT_ATTR` allows prefetch again; a tunnelled frame reaches its port. -/
def Obligations.GraftCommandsComplete : Prop :=
  (∀ (i : Fin 8) (w : Bool) (leaf off len : Nat) (d : List Byte) (port dest : Nat) (s : State), s.held = false → s.graftRemote i = none →
    s.graftPath leaf = .leafcast port dest → 1 ≤ len → len ≤ 256 → off + len ≤ 0x40000 → s.bridge.grafts = [] →
    s.bridge.prefetch = [] → s.bridge.windfalls = [] →
    ∃ t x, exec (.graftRequest i none w leaf off len d) s = .next t ∧ t.bridge.grafts = [x] ∧ x.phase = 1 ∧ x.init = i.val ∧ x.write = w ∧
      x.leaf = leaf ∧ x.offset = off ∧ x.length = len ∧ x.data = d ∧ Safety.sendsGraft s t port leaf (State.graftFrame s x false)) ∧
  (∀ (i : Fin 8) (k : Trunk) (w : Bool) (leaf off len : Nat) (d : List Byte) (s : State), s.held = false → 2 ≤ i.val → s.redundancy = 0 →
    s.inService .a = true → s.inService .b = true → s.bridge.graftSolo = [] → s.bridge.graftCopies = [] →
    ∃ t c, exec (.graftRequest i (some k) w leaf off len d) s = .next t ∧ t.bridge.graftCopies = [c] ∧ c.trunk = k.idx ∧ c.at_ = s.free) ∧
  (∀ (x : GraftTx) (a : GraftAnswer) (s : State), s.held = false → s.bridge.grafts = [x] → x.phase = 1 → x.remote = none →
    s.graftRdm x.leaf = false → x.replyTo = .init → x.write = true → a.checks = true → a.nack = false →
    ∃ t, exec (.graftResponseReceive x.tag a) s = .next t ∧ t.bridge.grafts = [] ∧
      t.bridge.graftOut = s.bridge.graftOut ++ [{ init := x.init, tables := x.tables, code := 0, data := [], windfall := false }]) ∧
  (∀ (x : GraftTx) (port dest : Nat) (s : State), s.held = false → s.bridge.grafts = [x] → x.phase = 1 → x.remote = none → x.copies < 3 →
    x.sentAt + 20 * 1000000 * 65536 ≤ s.free → s.graftPath x.leaf = .leafcast port dest →
    ∃ t, exec (.graftRepeat x.tag) s = .next t ∧ t.bridge.grafts = [{ x with sentAt := s.free, copies := x.copies + 1 }] ∧
      Safety.sendsGraft s t port x.leaf (s.graftFrame x true)) ∧
  (∀ (x : GraftTx) (s : State), s.held = false → s.bridge.grafts = [x] → x.phase ≠ 0 → x.replyTo = .init →
    x.issuedAt + s.fget Reg.GraftCtrl.timeoutMs * 1000000 * 65536 ≤ s.free →
    ∃ t, exec (.graftTimeout x.tag) s = .next t ∧ t.bridge.grafts = [] ∧
      t.bridge.graftOut = s.bridge.graftOut ++ [{ init := x.init, tables := x.tables, code := 0x0601, data := [], windfall := false }]) ∧
  (∀ (h : GroveHdr) (m : GraftMsg) (x : GraftTx) (s : State), s.held = false → s.groveOk h 0x10 = true → s.bridge.grafts = [x] →
    x.tag = m.tag → x.remote = some h.src → x.phase = 1 →
    (m.op = 5 → ∃ t, exec (.graftMessageReceive h m) s = .next t ∧ t.bridge.grafts = [{ x with accepted := true }]) ∧
    (m.op = (if x.write then 4 else 3) → ∃ t, exec (.graftMessageReceive h m) s = .next t ∧ t.bridge.grafts = [])) ∧
  (∀ (h : GroveHdr) (m : GraftMsg) (port dest : Nat) (s : State), s.held = false → s.groveOk h 0x10 = true → s.bridge.grafts = [] →
    s.bridge.prefetch = [] → s.bridge.windfalls = [] → m.op = 1 ∨ m.op = 2 → s.graftPath m.leaf = .leafcast port dest → 1 ≤ m.length →
    m.length ≤ 256 → m.offset + m.length ≤ 0x40000 →
    ∃ t x, exec (.graftMessageReceive h m) s = .next t ∧ t.bridge.grafts = [x] ∧ x.phase = 1 ∧ x.replyTo = .tree h.src m.tag ∧ x.leaf = m.leaf) ∧
  (∀ (x : GraftTx) (p : Nat) (s : State), s.held = false → s.bridge.grafts = [x] → x.phase = 2 → x.remote = some p → x.againAt ≤ s.free →
    x.aborts < s.fget Reg.GraftCtrl.retryMax →
    ∃ t y, exec (.graftReissue x.tag) s = .next t ∧ t.bridge.grafts = [y] ∧ y.phase = 1 ∧ y.tag = x.tag ∧ y.aborts = x.aborts) ∧
  (∀ s : State, s.held = false → ∃ t, exec .prefetchExpiry s = .next t ∧
    t.bridge.prefetch = s.bridge.prefetch.filter (fun e => !decide (e.expires ≤ s.free))) ∧
  (∀ s : State, s.held = false → ∃ t, exec .windfallExpiry s = .next t ∧
    t.bridge.windfalls = s.bridge.windfalls.filter (fun e => !decide (e.expires ≤ s.free))) ∧
  (∀ (r : Fin 16) (v : Word) (s : State), s.held = false → ∃ t, exec (.graftAttrWrite r v) s = .next t ∧ t.bridge.attrWrong = [] ∧
    t.fbit (Reg.GraftAttr.enable r) = v.getLsbD 31 ∧ t.fget (Reg.GraftAttr.first r) = v.toNat / 65536 % 4096) ∧
  (∀ (h : GroveHdr) (tun brk mab : Nat) (sc : Byte) (port : Fin 16) (l : List Byte) (s : State), s.held = false → s.groveOk h 0x11 = true →
    s.dmxOutput port = true →
    (sc ≠ 0xCC → ∃ t, exec (.tunnelMessageReceive h tun false brk mab sc port l) s = .next t ∧
      (t.dmxSt port).tun = some { brk := max 92 brk, mab := max 12 mab, data := sc :: l }) ∧
    (sc = 0xCC → dmxRdm (s.dmxRec port) = true → ∃ t, exec (.tunnelMessageReceive h tun false brk mab sc port l) s = .next t ∧
      (t.dmxSt port).rdmQ = (s.dmxSt port).rdmQ ++ [{ origin := 4, tag := tun, lo := h.src, data := sc :: l, asked := s.free }]))

/-- STEM (R385 to R400): a command that may run is answered, as its opcode says; a WATCH is held until it is met or ends; attention is
acknowledged, but for what was raised in the same cycle; rings are enabled and take doorbells; a PCIe error stops its ring, at a fetch,
a payload or a reply; a datagram opens a session, and a session without one ends; a window register takes a base that may be named. -/
def Obligations.StemCommandsComplete : Prop :=
  (∀ (h : StemHdr) (s : State), Safety.stemRuns s h 0 false → ∃ t, exec (.nop h) s = .next t ∧ Safety.answered s t h 1 0) ∧
  (∀ (h : StemHdr) (op : BitVec 16) (s : State), Safety.stemRuns s h 0 false →
    ∃ t, exec (.stemOpcode h op) s = .next t ∧ Safety.answered s t h op.toNat 0x0101) ∧
  (∀ (h : StemHdr) (m e : BitVec 16) (ms : Nat) (s : State), Safety.stemRuns s h 0 false → s.stem.watches.find? h.chan = none →
    s.attnWord h.chan &&& m.toNat = e.toNat → ms ≠ 0 → ms ≤ 60000 →
    ∃ t, exec (.watch h m e ms) s = .next t ∧ t.stem.replies = s.stem.replies ∧ t.stem.watches.find? h.chan =
      some { tag := h.tag, mask := m.toNat, expected := e.toNat, start := s.attnWord h.chan, deadline := s.free + ms * 1000000 * 65536 }) ∧
  (∀ (h : StemHdr) (m e : BitVec 16) (ms : Nat) (s : State), Safety.stemRuns s h 0 false → s.stem.watches.find? h.chan = none →
    ms ≤ 60000 → (s.attnWord h.chan &&& m.toNat ≠ e.toNat → ∃ t, exec (.watch h m e ms) s = .next t ∧ Safety.answered s t h 2 0) ∧
    (s.attnWord h.chan &&& m.toNat = e.toNat → ms = 0 → ∃ t, exec (.watch h m e ms) s = .next t ∧ Safety.answered s t h 2 1)) ∧
  (∀ (c : Fin 20) (w : Watch) (s : State), s.held = false → s.stem.watches.find? c = some w → w.deadline ≤ s.free →
    (∀ f ∈ s.stem.flights, f.chan = c.val → f.tag = w.tag → f.replyErr = false) →
    ∃ t r, exec (.watchExpired c) s = .next t ∧ t.stem.watches.find? c = none ∧ t.stem.replies = s.stem.replies ++ [r] ∧ r.tag = w.tag ∧
      r.status % 65536 = 1) ∧
  (∀ (h : StemHdr) (m : BitVec 16) (s : State), Safety.stemRuns s h 0 false →
    ∃ t, exec (.attnAck h m) s = .next t ∧ Safety.answered s t h 3 0 ∧
      t.attnWord h.chan = s.attnWord h.chan - (s.attnWord h.chan &&& m.toNat - (s.attnWord h.chan &&& m.toNat &&&
        s.cyc.sets.get 0 (Reg.stemAttn h.chan) / 65536))) ∧
  (∀ (h : StemHdr) (s : State), Safety.stemRuns s h 0 false →
    (∃ t, exec (.reset h 0x0416) s = .next t ∧ Safety.answered s t h 4 0 ∧ t.held = false ∧ t.free = s.free ∧ t.mem = s.mem) ∧
    ∀ c : BitVec 16, c ≠ 0x0416 → ∃ t, exec (.reset h c) s = .next t ∧ Safety.answered s t h 4 0x0102) ∧
  (∀ (r : Fin 16) (s : State), s.held = false → s.fbit (Reg.StemRingCfg.enable r) = false → s.ringCheck r = true →
    ∃ t, exec (.ringEnable r) s = .next t ∧ t.fbit (Reg.StemRingCfg.enable r) = true ∧ t.fbit (Reg.StemRingStatus.running r) = true ∧
      t.attnWord r = 0) ∧
  (∀ (r : Fin 16) (c : BitVec 16) (err : Bool) (s : State), s.held = false → s.fbit (Reg.StemRingStatus.running r) = true →
    let n := (c.toNat + 65536 - s.fget (Reg.StemRingHead.head r)) % 65536
    (n ≤ s.fget (Reg.StemRingCfg.entries r) → err = false ∨ n = 0 →
      ∃ t, exec (.ringDoorbell r ⟨c, err⟩) s = .next t ∧ t.fget (Reg.StemRingHead.head r) = c.toNat) ∧
    (n ≤ s.fget (Reg.StemRingCfg.entries r) → err = true → n ≠ 0 →
      ∃ t, exec (.ringDoorbell r ⟨c, err⟩) s = .next t ∧ t.fbit (Reg.StemRingStatus.running r) = false ∧ t.fbit (Reg.StemRingStatus.dmaErr r) = true) ∧
    (s.fget (Reg.StemRingCfg.entries r) < n →
      ∃ t, exec (.ringDoorbell r ⟨c, err⟩) s = .next t ∧ t.fbit (Reg.StemRingStatus.running r) = false ∧
        t.fbit (Reg.StemRingStatus.doorbellErr r) = true)) ∧
  (∀ (h : StemHdr) (s : State), Safety.stemRuns s { h with replyErr := false } 0 false → h.replyErr = true → h.chan.val < 16 →
    (∀ f ∈ s.stem.flights, f.chan = h.chan.val → f.tag ≠ h.tag) →
    ∃ t, exec (.nop h) s = .next t ∧ t.stem.replies = s.stem.replies ∧ t.fbit (Reg.StemRingStatus.running h.chan) = false ∧
      t.fbit (Reg.StemRingStatus.dmaErr h.chan) = true) ∧
  (∀ (h : StemHdr) (a : Nat) (l : List Word) (s : State), Safety.stemRuns s { h with bufferErr := false } (4 * l.length) false →
    h.bufferErr = true → h.chan.val < 16 → 2 < l.length →
    ∃ t, exec (.writeReg h a l) s = .next t ∧ Safety.answered s t h 0x11 0x0106 ∧ t.fbit (Reg.StemRingStatus.running h.chan) = false ∧
      t.fbit (Reg.StemRingStatus.dmaErr h.chan) = true) ∧
  (∀ (port : Fin 48) (peer src tag : Nat) (s : State), s.held = false → s.fbit Reg.StemCtrl.udpEn = true → s.fbit Reg.TreeReady.recovery = false →
    peer ∈ s.stemPeers → (∀ k < 4, (s.stem.sessions.get ({} : Session) k).openS = false) →
    ∃ t, exec (.stemUdpDatagram ⟨port, peer⟩ src tag false true) s = .next t ∧ t.stem.sessions.get ({} : Session) 0 =
      { peer := peer, port := src, openS := true, last := s.free, via := port.val } ∧ t.fget Reg.StemStatus.sessions = 1) ∧
  (∀ (k : Fin 4) (s : State), s.held = false → (s.stem.sessions.get ({} : Session) k).openS = true →
    (s.stem.sessions.get ({} : Session) k).last + 60 * second ≤ s.free →
    ∃ t, exec (.stemSessionTimeout k) s = .next t ∧ (t.stem.sessions.get ({} : Session) k).openS = false) ∧
  (∀ (k : Fin 3) (v : Word) (s : State), s.held = false →
    (v.toNat % 2 ^ 18 * 2 ^ 22 < 0x5000000 ∨ 0x1000000000 ≤ v.toNat % 2 ^ 18 * 2 ^ 22 ∧ v.toNat % 2 ^ 18 * 2 ^ 22 < 0x2100000000) →
    ∃ t, exec (.stemWinWrite k v) s = .next t ∧ t.fget (Reg.StemWin.base (k.val + 1)) = v.toNat % 2 ^ 18 ∧
      t.fbit (Reg.StemWin.enable (k.val + 1)) = v.getLsbD 31)

/-- REGISTER ACCESSES (R3, R4, R54, R57, R137, R381, R383, R385): a register without a behaviour of its own takes a write by its access
codes, and nothing else changes; through the twin alias it does in both trunks; a trunk that takes no write ignores it. A read returns
the register, latches its upper words and clears what is read-clear, and what arrives in its cycle stays. Scheduled writes, at most
four a cycle, and writes to BAR0 are register writes; READ_REG and WRITE_REG are answered with the code of what stops them, or 0. -/
def Obligations.RegisterCommandsComplete : Prop :=
  (∀ (a : Nat) (v : Word) (s : State), s.held = false → Safety.plainRoot a → s.cyc.again.get [] a = [] →
    ∃ t, exec (.registerWrite a v) s = .next t ∧ Safety.stores s t a v ∧ ∀ b, b ≠ a → t.reg b = s.reg b) ∧
  (∀ (k : Trunk) (off : Nat) (v : Word) (s : State), s.held = false → off < 0x1000000 →
    (Safety.plainTrunk off → s.trunkTakes k = true → s.cyc.again.get [] (trunkBase k + off) = [] →
      ∃ t, exec (.registerWrite (trunkBase k + off) v) s = .next t ∧ Safety.stores s t (trunkBase k + off) v ∧
        ∀ b, b ≠ trunkBase k + off → t.reg b = s.reg b) ∧
    (s.trunkTakes k = false → exec (.registerWrite (trunkBase k + off) v) s = .next { s with tag := s.tag + 1 })) ∧
  (∀ (off : Nat) (v : Word) (s : State), s.held = false → Safety.plainTrunk off → s.mirrored .a = true → s.mirrored .b = true →
    s.noTrunk = false → s.cyc.again.get [] (trunkBase .a + off) = [] → s.cyc.again.get [] (trunkBase .b + off) = [] →
    ∃ t, exec (.registerWrite (0x3000000 + off) v) s = .next t ∧ ∀ k : Trunk, Safety.stores s t (trunkBase k + off) v) ∧
  (∀ (bar : Bool) (addr a : Nat) (ev : Word) (s : State), s.held = false → Safety.names s bar addr a → s.readAddr a = none →
    exec (.readClear ⟨bar, addr⟩ ev) s = .next { s with rdata := [0] } ∧ exec (.loWordRead ⟨bar, addr⟩) s = .next { s with rdata := [0] }) ∧
  (∀ (addr a : Nat) (ev : Word) (s : State), s.held = false → s.bar0Map addr = some a → 0x4000000 ≤ a →
    exec (.readClear ⟨true, addr⟩ ev) s = .next { s with rdata := [s.barMemory a] } ∧
    exec (.loWordRead ⟨true, addr⟩) s = .next { s with rdata := [s.barMemory a] }) ∧
  (∀ (bar : Bool) (addr a b : Nat) (ev : Word) (r : RegRow) (s : State), s.held = false → Safety.names s bar addr a → s.readAddr a = some b →
    State.claimAt b = none → isLatched b = false → regRow b = some r →
    (∃ t, exec (.readClear ⟨bar, addr⟩ 0) s = .next t ∧ t.rdata = [BitVec.ofNat 32 (s.regValue a)] ∧ t.regN b = r.clear (s.regN b) % 2 ^ 32) ∧
    ∃ t, exec (.readClear ⟨bar, addr⟩ ev) s = .next t ∧ t.rdata = [BitVec.ofNat 32 (s.regValue a)] ∧
      ∀ f ∈ r.flds, f.acc = .rc → f.of ev.toNat ≠ 0 → f.of (t.regN b) = f.of ev.toNat) ∧
  (∀ (bar : Bool) (addr a b i : Nat) (s : State), s.held = false → Safety.names s bar addr a → s.readAddr a = some b →
    State.claimAt b = none → i < latchSpan b →
    ∃ t, exec (.loWordRead ⟨bar, addr⟩) s = .next t ∧ t.rdata = [BitVec.ofNat 32 (s.regValue a)] ∧
      t.latch.get 0 (b + 4 * (i + 1)) = BitVec.ofNat 32 (s.liveValue (b + 4 * (i + 1)))) ∧
  (∀ (a : Nat) (v : Word) (s : State), s.held = false →
    (s.schedQ = [(a, v)] → s.cyc.issued < 4 → Safety.plainRoot a → s.cyc.again.get [] a = [] →
      ∃ t, exec .scheduledWrite s = .next t ∧ t.schedQ = [] ∧ t.cyc.issued = s.cyc.issued + 1 ∧ Safety.stores s t a v) ∧
    (s.cyc.issued = 4 → exec .scheduledWrite s = .next s)) ∧
  (∀ (off a : Nat) (v : Word) (s : State), s.held = false → s.bar0Map off = some a →
    (Safety.plainRoot a → s.cyc.again.get [] a = [] → ∃ t, exec (.bar0Write off v) s = .next t ∧ Safety.stores s t a v) ∧
    (0x4000000 ≤ a → ∃ t, exec (.bar0Write off v) s = .next t ∧ t.mem = s.mem ∧
      t.regN Reg.stemBarWrDrop = min 0xFFFFFFFF (s.regN Reg.stemBarWrDrop + 1))) ∧
  (∀ (h : StemHdr) (a n : Nat) (s : State), Safety.stemRuns s h n true →
    (∃ t, exec (.readReg h a n) s = .next t ∧ Safety.answered s t h 0x10 (s.regCode a n)) ∧
    (n = 4 → s.regCode a n = 0 → a / 0x10000 ≠ 5 → ∀ b, s.readAddr a = some b → State.claimAt b = none →
      ∃ t l r, exec (.readReg h a n) s = .next t ∧ t.stem.replies = s.stem.replies ++ l ++ [r] ∧ r.tag = h.tag ∧
        r.result = leBytes 4 (s.regValue a % 2 ^ 32))) ∧
  (∀ (h : StemHdr) (a : Nat) (l : List Word) (s : State), Safety.stemRuns s h (4 * l.length) false →
    (∃ t, exec (.writeReg h a l) s = .next t ∧ Safety.answered s t h 0x11 (s.regCode a (4 * l.length))) ∧
    ∀ v, l = [v] → Safety.plainRoot a → s.cyc.again.get [] a = [] →
      ∃ t, exec (.writeReg h a l) s = .next t ∧ Safety.stores s t a v)

/-- MEMORY COMMANDS (R392 to R394): READ_MEM of DRAM answers with the bytes that stand there, and changes none; WRITE_MEM under SPLIT
stores its bytes at the address it names, and with `twin` in both trunks at that offset, and leaves every other byte as it was. -/
def Obligations.MemoryCommandsComplete : Prop :=
  (∀ (h : StemHdr) (a n : Nat) (s : State), Safety.stemRuns s h n true → 1 ≤ n → 0x1000000000 ≤ a → a + n ≤ 0x1800000000 →
    ∃ t r, exec (.readMem h a n) s = .next t ∧ t.stem.replies = s.stem.replies ++ [r] ∧ r.tag = h.tag ∧ r.opcode = 0x20 ∧
      r.status % 65536 = 0 ∧ r.data = (List.range n).map (fun i => memGet s.mem (a + i)) ∧ t.mem = s.mem) ∧
  (∀ (h : StemHdr) (k : Trunk) (o : Nat) (d : List Byte) (s : State), Safety.Inv s → Safety.stemRuns s h d.length false →
    h.twin = false → 1 ≤ d.length →
    o + d.length ≤ 2 ^ 35 → s.redundancy = 2 → s.compareActive = false → s.trunkTakes k = true →
    ∃ t, exec (.writeMem h (dramBase k + o) d) s = .next t ∧ Safety.answered s t h 0x21 0 ∧
      (∀ i, ∀ hi : i < d.length, memGet t.mem (dramBase k + o + i) = d[i]) ∧
      ∀ a, (a < dramBase k + o ∨ dramBase k + o + d.length ≤ a) → memGet t.mem a = memGet s.mem a) ∧
  (∀ (h : StemHdr) (o : Nat) (d : List Byte) (s : State), Safety.Inv s → Safety.stemRuns s h d.length false → h.twin = true → 1 ≤ d.length →
    o + d.length ≤ 2 ^ 35 → s.mirrored .a = true → s.mirrored .b = true →
    ∃ t, exec (.writeMem h (dramBase .a + o) d) s = .next t ∧ Safety.answered s t h 0x21 0 ∧
      (∀ (k : Trunk) (i : Nat), ∀ hi : i < d.length, memGet t.mem (dramBase k + o + i) = d[i]) ∧
      ∀ a, (∀ k : Trunk, a < dramBase k + o ∨ dramBase k + o + d.length ≤ a) → memGet t.mem a = memGet s.mem a)

/-- IMAGES AND SETTINGS BY COMMAND (R423, R424, R430, R432): an object in pieces is taken piece by piece; an activation is armed, or for
a loader written at once; a running image is confirmed; a staged one is discarded; settings are read and written. -/
def Obligations.ImageCommandsComplete : Prop :=
  (∀ (h : StemHdr) (cls : Nat) (c : Chunk) (s : State), Safety.stemRuns s h c.data.length false → cls ≤ 2 → s.stem.chunks.find? 0x100 = none →
    c.off = 0 → c.data.length < c.objLen →
    ∃ t, exec (.imageStage h cls c) s = .next t ∧ Safety.answered s t h 0x100 0 ∧
      t.stem.chunks.find? 0x100 = some { chan := h.chan.val, objLen := c.objLen, data := c.data }) ∧
  (∀ (h : StemHdr) (cls : Nat) (c : Chunk) (s : State), Safety.stemRuns s h c.data.length false → cls ≤ 1 → s.stem.chunks.find? 0x100 = none →
    c.off = 0 → c.data.length = c.objLen → (s.slots cls).lock = false →
    ∃ t, exec (.imageStage h cls c) s = .next t ∧ Safety.answered s t h 0x100 (s.imageCode cls c.data) ∧ (s.imageCode cls c.data = 0 →
      t.slots cls = { s.slots cls with staged := c.data, stagedDig := imageDigest cls c.data, lock := true })) ∧
  (∀ (h : StemHdr) (axis pos : Nat) (d : List Byte) (s : State), Safety.stemRuns s h 0 false → s.inGrove = false → (s.slots 0).lock = true →
    d.take 16 = (s.slots 0).stagedDig.take 16 →
    ∃ t, exec (.imageActivate h 0 axis pos d) s = .next t ∧ Safety.answered s t h 0x101 0 ∧ (t.slots 0).prev = (s.slots 0).staged ∧
      (t.slots 0).run = (s.slots 0).run ∧ (t.slots 0).lock = false) ∧
  (∀ (h : StemHdr) (cls axis pos : Nat) (d : List Byte) (s : State), Safety.stemRuns s h 0 false → s.inGrove = false → cls = 1 ∨ cls = 2 →
    (s.slots cls).lock = true → d.take 16 = (s.slots cls).stagedDig.take 16 → s.actCode cls axis pos = 0 →
    ∃ t, exec (.imageActivate h cls axis pos d) s = .next t ∧ t.upd.armed.find? cls =
      some { axis := axis, pos := pos, digest := (s.slots cls).stagedDig, replyTo := some (h.chan.val, h.tag) }) ∧
  (∀ (h : StemHdr) (cls : Nat) (d : List Byte) (s : State), Safety.stemRuns s h 0 false → cls = 1 ∨ cls = 2 → (s.slots cls).confirmed = false →
    d.take 16 = (s.slots cls).runDig.take 16 →
    ∃ t, exec (.imageConfirm h cls d) s = .next t ∧ Safety.answered s t h 0x102 0 ∧ cls ∈ t.upd.hostOk) ∧
  (∀ (h : StemHdr) (cls : Nat) (s : State), Safety.stemRuns s h 0 false → cls ≤ 2 → s.upd.armed.find? cls = none →
    ∃ t, exec (.imageDiscard h cls) s = .next t ∧ Safety.answered s t h 0x103 0 ∧
      t.slots cls = { s.slots cls with staged := [], stagedDig := [], lock := false }) ∧
  (∀ (h : StemHdr) (n : Nat) (s : State), Safety.stemRuns s h n true → s.settingsBody.length ≤ n →
    ∃ t r, exec (.settingsRead h n) s = .next t ∧ t.stem.replies = s.stem.replies ++ [r] ∧ r.tag = h.tag ∧ r.opcode = 0x110 ∧
      r.status % 65536 = 0 ∧ r.data = s.settingsBody) ∧
  (∀ (h : StemHdr) (c : Chunk) (s : State), Safety.stemRuns s h c.data.length false → s.stem.chunks.find? 0x111 = none → c.off = 0 →
    c.data.length = c.objLen →
    ∃ t, exec (.settingsWrite h c) s = .next t ∧ Safety.answered s t h 0x111 (s.settingsCode c.data))

/-- ACTIVATION, CONFIRMATION AND FALLBACK (R424 to R431): preparation completes; at its point a prepared firmware runs and its cores
restart, and a prepared seed is switched to; a healthy image in its window is confirmed; past the window it falls back. -/
def Obligations.ActivationCommandsComplete : Prop :=
  (∀ (cls : Nat) (a : Armed) (s : State), s.held = false → s.upd.armed.find? cls = some a → a.prepared = false → s.inGrove = false →
    ∃ t, exec (.imagePrepared cls) s = .next t ∧ t.upd.armed.find? cls = some { a with prepared := true }) ∧
  (∀ (a : Armed) (s : State), s.held = false → s.upd.armed.find? 1 = some a → s.actReached 1 a = true → a.prepared = true → s.inGrove = false →
    a.fallback = false →
    ∃ t, exec (.imageActivation 1) s = .next t ∧ t.fwSwitch = true ∧ t.upd.armed.find? 1 = none ∧
      t.slots 1 = { run := (s.slots 1).staged, runDig := (s.slots 1).stagedDig, prev := (s.slots 1).run, prevDig := (s.slots 1).runDig, confirmed := false }) ∧
  (∀ (a : Armed) (s : State), s.held = false → s.upd.armed.find? 2 = some a → s.actReached 2 a = true → a.prepared = true → s.inGrove = false →
    (seedDigest (s.nextImage 2 a) = a.digest →
      ∃ t, exec (.imageActivation 2) s = .next t ∧ t.upd.armed.find? 2 = none ∧ (t.slots 2).run = s.nextImage 2 a ∧
        t.seed = some (parseSeed (s.nextImage 2 a)) ∧ (t.slots 2).confirmed = a.fallback) ∧
    (seedDigest (s.nextImage 2 a) ≠ a.digest →
      ∃ t, exec (.imageActivation 2) s = .next t ∧ t.upd.armed.find? 2 = none ∧ t.slots 2 = s.slots 2 ∧ t.seed = s.seed)) ∧
  (∀ s : State, s.held = false → s.fwSwitch = true → (s.slots 1).confirmed = true → s.upd.fwFormat = s.upd.fwFormatOld →
    s.settingsReadable = true → s.twin.started = true →
    ∃ t, exec .firmwareRestart s = .next t ∧ t.fwSwitch = false ∧ t.fbit Reg.TreeReady.firmware = true) ∧
  (∀ s : State, s.held = false → s.inWindow 1 = true → s.fwHealthy = true →
    ∃ t, exec (.imageConfirmation 1) s = .next t ∧ (t.slots 1).confirmed = true ∧ t.upd.confirmEnd.find? 1 = none) ∧
  (∀ s : State, s.held = false → s.inWindow 2 = true → s.seedHealthy = true → s.upd.healthSent = false → s.inGrove = false →
    ∃ t, exec (.imageConfirmation 2) s = .next t ∧ (t.slots 2).confirmed = true) ∧
  (∀ (e : Nat) (s : State), s.held = false → (s.slots 1).confirmed = false → s.upd.confirmEnd.find? 1 = some e → e ≤ s.free →
    s.upd.armed.find? 1 = none → s.upd.fellBack.contains 1 = false →
    ∃ t a, exec (.imageFallback 1) s = .next t ∧ t.upd.armed.find? 1 = some a ∧ a.fallback = true ∧ a.prepared = true ∧
      a.digest = (s.slots 1).prevDig ∧ t.regN Reg.lifeUpdFallbackCnt = min 0xFFFFFFFF (s.regN Reg.lifeUpdFallbackCnt + 1))

/-- UPDATE IN A GROVE (R426, R427, R429, R431): a tree arms what the master asks for, takes GO or CANCEL, and confirms with it; the master
takes acknowledgements, refusals and health; what has not come in time ends the activation, or falls back alone. -/
def Obligations.UpdateCommandsComplete : Prop :=
  (∀ (h : GroveHdr) (m : UpdMsg) (s : State), s.held = false → s.groveOk h 0x20 = true → s.fromMaster h m = true → s.isMaster = false →
    m.fallback = false → (s.slots m.cls).lock = true → (s.slots m.cls).stagedDig = m.digest → s.actCode m.cls m.axis m.position = 0 →
    ∃ t, exec (.updateActivateReceive h m) s = .next t ∧ t.upd.armed.find? m.cls = some { axis := m.axis, pos := m.position, digest := m.digest }) ∧
  (∀ (h : GroveHdr) (m : UpdMsg) (s : State), s.held = false → s.groveOk h 0x20 = true → s.inGrove = true → s.isMaster = true →
    (∃ t, exec (.updateAckReceive h true m) s = .next t ∧ t.fbit Reg.LifeUpdStatus.refused = true) ∧
    ∀ a : Armed, s.upd.armed.find? m.cls = some a → a.digest = m.digest → s.allTrees (h.src :: a.acks) = false →
      ∃ t, exec (.updateAckReceive h false m) s = .next t ∧ t.upd.armed.find? m.cls = some { a with acks := h.src :: a.acks }) ∧
  (∀ (h : GroveHdr) (m : UpdMsg) (a : Armed) (s : State), s.held = false → s.groveOk h 0x20 = true → s.fromMaster h m = true →
    s.upd.armed.find? m.cls = some a → a.digest = m.digest →
    (∃ t, exec (.updateGoReceive h false m) s = .next t ∧ t.upd.armed.find? m.cls = some { a with go := true }) ∧
    ∃ t, exec (.updateGoReceive h true m) s = .next t ∧ t.upd.armed.find? m.cls = none ∧ t.fbit Reg.LifeUpdStatus.refused = true) ∧
  (∀ (h : GroveHdr) (m : UpdMsg) (s : State), s.held = false → s.groveOk h 0x20 = true → s.inGrove = true → s.isMaster = true → m.cls = 2 →
    m.code = 0 → s.allTrees (h.src :: s.upd.groveWell) = false →
    ∃ t, exec (.updateHealthReceive h m) s = .next t ∧ t.upd.groveWell = h.src :: s.upd.groveWell) ∧
  (∀ (h : GroveHdr) (m : UpdMsg) (s : State), s.held = false → s.groveOk h 0x20 = true → s.fromMaster h m = true → m.cls = 2 →
    (s.slots 2).confirmed = false → m.digest = (s.slots 2).runDig →
    ∃ t, exec (.updateConfirmReceive h m) s = .next t ∧ (t.slots 2).confirmed = true) ∧
  (∀ (cls : Nat) (a : Armed) (s : State), s.held = false → s.upd.armed.find? cls = some a → s.inGrove = true → s.isMaster = true →
    a.go = false → posRaw a.axis a.pos ≤ s.axisPos a.axis + s.msUnits a.axis 100 →
    ∃ t, exec (.groveGoDeadline cls) s = .next t ∧ t.upd.armed.find? cls = none ∧ t.fbit Reg.LifeUpdStatus.refused = true) ∧
  (∀ (cls : Nat) (a : Armed) (s : State), s.held = false → s.upd.armed.find? cls = some a → s.inGrove = true → s.isMaster = false →
    a.acked = true → a.go = false → posRaw a.axis a.pos ≤ s.axisPos a.axis →
    ∃ t, exec (.updateNoGo cls) s = .next t ∧ t.upd.armed.find? cls = none ∧ t.fbit Reg.LifeUpdStatus.refused = true) ∧
  (∀ (e : Nat) (s : State), s.held = false → s.inGrove = true → (s.slots 2).confirmed = false → s.upd.confirmEnd.find? 2 = some e →
    e + 10 * second ≤ s.free → s.upd.armed.find? 2 = none → (s.slots 2).prev ≠ [] →
    ∃ t a, exec (.groveFallbackAlone 2) s = .next t ∧ t.upd.armed.find? 2 = some a ∧ a.fallback = true ∧ a.go = true ∧
      a.digest = (s.slots 2).prevDig)

/-- LIFE-CYCLE COMMANDS (R443 to R446): MAKE is provisioned with a key; an order that the owner signed re-keys or enters SERVICE, and
SERVICE is left without one; a module of the factory is scrapped without an order. -/
def Obligations.LifeCommandsComplete : Prop :=
  (∀ (h : StemHdr) (key : List Byte) (s : State), Safety.stemRuns s h key.length false → s.lifeState = 1 → key.length = 32 → s.ownerKey = none →
    ∃ t, exec (.lifeProvision h key) s = .next t ∧ Safety.answered s t h 0x200 0 ∧ t.life.fuse = 2) ∧
  (∀ (h : StemHdr) (p : List Byte) (s : State), Safety.stemRuns s h p.length false → s.lifeState = 2 ∨ s.lifeState = 3 →
    ∃ t, exec (.lifeRekey h p) s = .next t ∧ Safety.answered s t h 0x201 (s.lifeAuth 0x201 p) ∧
      (s.lifeAuth 0x201 p = 0 → t.life.pendKey = some (slice p 0x18 32))) ∧
  (∀ (h : StemHdr) (p : List Byte) (s : State), Safety.stemRuns s h p.length false → s.lifeState = 2 →
    ∃ t, exec (.lifeService h false p) s = .next t ∧ Safety.answered s t h 0x202 (s.lifeAuth 0x202 p) ∧
      (s.lifeAuth 0x202 p = 0 → t.life.service = true)) ∧
  (∀ (h : StemHdr) (p : List Byte) (s : State), Safety.stemRuns s h p.length false → s.lifeState = 3 →
    ∃ t, exec (.lifeService h true p) s = .next t ∧ Safety.answered s t h 0x202 0 ∧ t.life.service = false) ∧
  (∀ (h : StemHdr) (p : List Byte) (s : State), Safety.stemRuns s h p.length false → s.lifeState = 0 ∨ s.lifeState = 1 →
    ∃ t, exec (.lifeScrap h p) s = .next t ∧ Safety.answered s t h 0x203 0 ∧ t.life.fuse = 4) ∧
  (∀ (h : StemHdr) (p : List Byte) (s : State), Safety.stemRuns s h p.length false → s.lifeState = 2 ∨ s.lifeState = 3 →
    ∃ t, exec (.lifeScrap h p) s = .next t ∧ Safety.answered s t h 0x203 (s.lifeAuth 0x203 p) ∧ (s.lifeAuth 0x203 p = 0 → t.life.fuse = 4))

/-- SELF-TEST, ONLINE TESTS AND CALIBRATION (R448 to R454): an idle region is tested, and the test ends; a pass of the spare bough's
vectors clears its failures or counts one; lane errors are counted and their window ends; a calibration starts, takes its samples,
and ends without them. -/
def Obligations.TestCommandsComplete : Prop :=
  (∀ (h : StemHdr) (kind trunk index pattern ms : Nat) (s : State), Safety.stemRuns s h 0 false → s.lifeState ≠ 2 →
    index < ([68, 8, 16, 14] : List Nat).getD kind 0 → trunk ≤ 1 → pattern ≤ 1 → (pattern = 1 → kind = 3) → 1 ≤ ms → ms ≤ 60000 →
    s.life.bist = none → s.life.bistHeld = [] → s.regionIdle kind trunk index = true →
    ∃ t, exec (.bistRun h kind trunk index pattern ms) s = .next t ∧ t.fbit Reg.BistStatus.busy = true ∧ t.life.bist =
      some { kind := kind, trunk := trunk, index := index, chan := h.chan, tag := h.tag, endAt := s.free + ms * 1000000 * 65536 }) ∧
  (∀ (e b y : Nat) (ok : Bool) (r : BistRun) (s : State), s.held = false → s.life.bist = some r → r.endAt ≤ s.free →
    ∃ t, exec (.bistDone e b y ok) s = .next t ∧ t.life.bist = none ∧ t.fbit Reg.BistStatus.busy = false ∧
      (ok = false → t.fbit Reg.BistStatus.restoreFail = true)) ∧
  (∀ (s : State), s.held = false → s.inService .a = true →
    (∃ t, exec (.spareVectorPass .a true) s = .next t ∧ t.life.vecFails.find? (s.fget Reg.TreeMode.spareBoughA) = none) ∧
    (∃ t, exec (.spareVectorPass .a false) s = .next t ∧
      t.life.vecFails.get 0 (s.fget Reg.TreeMode.spareBoughA) = s.life.vecFails.get 0 (s.fget Reg.TreeMode.spareBoughA) + 1)) ∧
  (∀ (s : State), s.held = false → s.inService .b = true →
    (∃ t, exec (.spareVectorPass .b true) s = .next t ∧ t.life.vecFails.find? (8 + s.fget Reg.TreeMode.spareBoughB) = none) ∧
    (∃ t, exec (.spareVectorPass .b false) s = .next t ∧
      t.life.vecFails.get 0 (8 + s.fget Reg.TreeMode.spareBoughB) = s.life.vecFails.get 0 (8 + s.fget Reg.TreeMode.spareBoughB) + 1)) ∧
  (∀ (k : Trunk) (n : Nat) (s : State), s.held = false → ∃ t, exec (.onlineLaneError k n) s = .next t ∧
    t.regN (Reg.bistTrunkLaneErr k.idx) = min 0xFFFFFFFF (s.regN (Reg.bistTrunkLaneErr k.idx) + n) ∧
    t.fget (Reg.BistTrunkHealth.laneErr60s k.idx) = 1 ∧ t.life.laneErrAt.find? k.idx = some s.free) ∧
  (∀ (k : Trunk) (a : Nat) (s : State), s.held = false → s.life.laneErrAt.find? k.idx = some a → a + 60 * second ≤ s.free →
    ∃ t, exec (.laneErrorWindowExpiry k) s = .next t ∧ t.fget (Reg.BistTrunkHealth.laneErr60s k.idx) = 0 ∧ t.life.laneErrAt.find? k.idx = none) ∧
  (∀ (h : StemHdr) (item index : Nat) (skew : Int) (s : State), Safety.stemRuns s h 0 false → s.lifeState = 2 ∨ s.lifeState = 3 →
    (item = 0 ∧ index = 0 ∨ item = 1 ∧ (index < 58 ∨ 64 ≤ index ∧ index < 72) ∨ item = 2 ∧ index < 64) → s.life.cals = [] →
    s.fbit Reg.TimeStatus.tenMLock = true → s.fbit Reg.TimeStatus.ppsValid = true →
    ∃ t c, exec (.calRun h item index skew) s = .next t ∧ t.life.cals = [c] ∧ c.item = item ∧ c.index = index ∧ c.skew = skew ∧
      c.start = s.free ∧ c.n = 0 ∧ c.tag = h.tag) ∧
  (∀ (x y : Int) (n : Nat) (c : CalRun) (r : List CalRun) (s : State), s.held = false → s.life.cals = c :: r → c.n + 1 ≠ 1024 → c.n + 1 ≠ 1280 →
    ∃ t d, exec (.calSample x y n) s = .next t ∧ t.life.cals = d :: r ∧ d.n = c.n + 1) ∧
  (∀ (x y : Int) (n : Nat) (c : CalRun) (r : List CalRun) (s : State), s.held = false → s.life.cals = c :: r → c.item = 0 → c.n + 1 = 1024 →
    ∃ t d, exec (.calSample x y n) s = .next t ∧ t.life.cals = d :: r ∧ d.n = 1024 ∧ d.sumE = 0 ∧
      t.regN Reg.calTbPhase = unsigned 32 ((c.sumE + x - c.skew) / 1024)) ∧
  (∀ (c : CalRun) (s : State), s.held = false → s.life.cals = [c] → c.start + 60 * second ≤ s.free →
    ∃ t, exec .calNoGap s = .next t ∧ t.life.cals = [])

/-- POWER, RESET AND BRING-UP (R414, R415, R459 to R465): what the commands of power and reset do: PWR_GOOD boots the ROM, RESET_N
holds the module and lets it boot; firmware is ready; a trunk has loaded the seed; interruptions count; AUX_12V trips and comes back. -/
def Obligations.PowerCommandsComplete : Prop :=
  (∀ s : State, s.padPwrGood = false → s.life.tooHot = false → s.life.resetLow = false →
    ∃ t, exec .pwrGoodRise s = .next t ∧ t.held = false ∧ t.padPwrGood = true ∧ t.free = 0 ∧ t.mem = [] ∧ t.axisState 17 = 2) ∧
  (∀ s : State, s.padPwrGood = true → ∃ t, exec .pwrGoodFall s = .next t ∧ t.held = true ∧ t.padPwrGood = false) ∧
  (∀ (ns : Nat) (s : State), 1000 ≤ ns → s.life.resetLow = false → s.padPwrGood = true →
    ∃ t, exec (.resetNAssert ns) s = .next t ∧ t.life.resetLow = true ∧ t.held = true ∧ t.free = s.free) ∧
  (∀ s : State, s.life.resetLow = true → s.padPwrGood = true → ∃ t, exec .resetNRelease s = .next t ∧ t.held = false ∧ t.life.resetLow = false) ∧
  (∀ s : State, s.held = false → s.fbit Reg.TreeReady.rootRom = true → s.fbit Reg.TreeReady.firmware = false → s.fwSwitch = false →
    s.settingsReadable = true → ∃ t, exec .firmwareReady s = .next t ∧ t.fbit Reg.TreeReady.firmware = true ∧ t.fwSwitch = false) ∧
  (∀ (k : Trunk) (s : State), s.held = false → s.seed.isSome = true → s.fbit Reg.TreeReady.firmware = true → s.twin.loaded.contains k.idx = false →
    ∃ t, exec (.seedLoadDone k) s = .next t ∧ t.twin.loaded = s.twin.loaded ++ [k.idx]) ∧
  (∀ (us : Nat) (ov : Bool) (s : State), s.held = false → us < 20000 →
    ∃ t, exec (.mainsInterruption us ov) s = .next t ∧ t.regN Reg.psuDipCnt = min 0xFFFFFFFF (s.regN Reg.psuDipCnt + 1) ∧
      t.fbit Reg.PsuStatus.dip = true ∧ (ov = true → t.fbit Reg.PsuStatus.overVoltage = true)) ∧
  (∀ s : State, s.held = false → ∃ t, exec .brownout s = .next t ∧ t.fbit Reg.PsuStatus.brownout = true) ∧
  (∀ (us : Nat) (s : State), s.held = false → 10000 ≤ us → s.life.auxOffAt = none →
    ∃ t, exec (.auxCurrentLimit us) s = .next t ∧ t.life.auxOffAt = some s.free ∧ t.fbit Reg.PsuStatus.auxOn = false ∧
      t.regN Reg.psuAuxTripCnt = min 0xFFFFFFFF (s.regN Reg.psuAuxTripCnt + 1)) ∧
  (∀ (a : Nat) (s : State), s.held = false → s.life.auxOffAt = some a → a + second ≤ s.free →
    ∃ t, exec .auxRestart s = .next t ∧ t.life.auxOffAt = none ∧ t.fbit Reg.PsuStatus.auxOn = true)

/-- THE RING RECORD (R436 to R439): the oldest waiting event is written at HEAD; `freeze` is an event of the host that triggers; `thaw`
frees a slot and its snapshot. -/
def Obligations.RecordCommandsComplete : Prop :=
  (∀ (e : Event) (r : List Event) (s : State), s.held = false → s.events = e :: r → s.fbit Reg.TreeReady.record = true →
    s.fget Reg.RecStatus.frozen = 0 → s.fbit Reg.RecStatus.openF = false → State.triggers e = false →
    ∃ t, exec .eventRecordWrite s = .next t ∧ t.events = r ∧ t.regN Reg.recHead = (s.regN Reg.recHead + 1) % 2 ^ 32 ∧
      t.ring.events.get [] (s.regN Reg.recHead % 131072) = eventBytes (s.regN Reg.recHead) (4 * e.host.toNat + 8 * s.ring.lost.toNat) e) ∧
  (∀ s : State, s.held = false → s.events.length < 4096 →
    ∃ t e, exec .recFreeze s = .next t ∧ t.events = s.events ++ [e] ∧ e.host = true ∧ State.triggers e = true) ∧
  (∀ (k : Fin 4) (s : State), s.held = false → s.slotFrozen k = true →
    ∃ t, exec (.recThaw k) s = .next t ∧ t.slotFrozen k = false ∧ t.ring.snaps.find? k = none)

/-- EPOCHS AND THE WORK THEY ASK FOR (R46, R48, R49, R95, R237, R348): a cadence point that is due is passed, and at a tree epoch the
capture is taken; a task in service completes, a leaf's work with its codes; an error of a lane counts; a re-run gives its codes, or
leaves the leaf held where it fails too; a RETURN frame is taken or counted. -/
def Obligations.EpochCommandsComplete : Prop :=
  (∀ (k : Nat) (s : State), s.held = false → s.seed.isSome = true → s.twin.loaded ≠ [] → s.pointDue 99 s.sd.epochCadence = some k →
    ∃ t, exec .treeEpoch s = .next t ∧
      t.capture.epoch = (s.regN Reg.axisEpochCntLo + 2 ^ 32 * s.regN Reg.axisEpochCntHi + 1) % 2 ^ 64) ∧
  (∀ (c : Fin 8) (k : Nat) (s : State), s.held = false → s.seed.isSome = true → s.twin.loaded ≠ [] → c.val < s.canvasCount →
    s.pointDue (State.epochKey (.canvas c)) (s.cadenceOf (State.epochKey (.canvas c))) = some k →
    ∃ t, exec (.epoch (.canvas c)) s = .next t ∧ t.cadence.find? (State.epochKey (.canvas c)) = some k) ∧
  (∀ (p k : Nat) (s : State), s.held = false → s.seed.isSome = true → s.twin.loaded ≠ [] → s.portIdxs.contains p = true →
    portCadence (s.portRec p) ≠ 0xFF → s.pointDue (State.epochKey (.port p)) (s.cadenceOf (State.epochKey (.port p))) = some k →
    ∃ t, exec (.epoch (.port p)) s = .next t ∧ t.cadence.find? (State.epochKey (.port p)) = some k) ∧
  (∀ (x : Trunk) (g : Fin 8) (k : Nat) (s : State), s.held = false → s.seed.isSome = true → s.twin.loaded ≠ [] → s.rastActive x g = true →
    s.pointDue (State.epochKey (.raster x g)) (s.cadenceOf (State.epochKey (.raster x g))) = some k →
    ∃ t, exec (.epoch (.raster x g)) s = .next t ∧ t.cadence.find? (State.epochKey (.raster x g)) = some k) ∧
  (∀ (k : Trunk) (slot : Fin 4096) (f : Bool) (w : Work) (s : State), s.held = false → ((s.sched k).task slot).state = 3 →
    (∃ t, exec (.taskCompletion k slot true w) s = .next t ∧ ((t.sched k).task slot).state = 0) ∧
    (∀ leaf c, w = .residue leaf c → laneOk c.op c.got = false →
      ∃ t, exec (.taskCompletion k slot f w) s = .next t ∧ t.regN (Reg.twigResErrCnt k) = min 0xFFFFFFFF (s.regN (Reg.twigResErrCnt k) + 1)) ∧
    ∀ leaf e j j2 fs, w = .leaf leaf → (s.trunk k).epochs = [e] → e.jobs = [j, j2] → j.leaf = leaf → j.codes = none → j.rerun = false →
      j2.leaf ≠ leaf → j2.codes = none → s.viewFrames k e j = some fs →
      ∃ t, exec (.taskCompletion k slot f w) s = .next t ∧ (t.trunk k).epochs = [{ e with jobs :=
        [{ j with codes := some (s.runJob k e j fs).1, frames := fs, began := (s.trunk k).residuals }, j2] }]) ∧
  (∀ (k : Trunk) (leaf : Nat) (e : PortJob) (j j2 : Job) (fs : List (Option CanvasFrame)) (s : State), s.held = false →
    (s.trunk k).epochs = [e] → e.jobs = [j, j2] → j.leaf = leaf → j.codes = none → j.rerun = true → j2.leaf ≠ leaf → j2.codes = none →
    (s.viewFrames k e j = some fs →
      ∃ t, exec (.workItemRerun k leaf none) s = .next t ∧ (t.trunk k).epochs = [{ e with jobs :=
        [{ j with codes := some (s.runJob k e j fs).1, frames := fs, began := (s.trunk k).residuals, rerun := false }, j2] }]) ∧
    ∀ c : LaneCheck, laneOk c.op c.got = false → s.compareActive = false →
      ∃ t, exec (.workItemRerun k leaf (some c)) s = .next t ∧ t.regN (Reg.twigResErrCnt k) = min 0xFFFFFFFF (s.regN (Reg.twigResErrCnt k) + 1) ∧
        (t.trunk k).epochs = [{ e with jobs :=
          [{ j with codes := some (List.replicate (State.leafViews e (s.leafAt leaf)) none), rerun := false }, j2] }]) ∧
  (∀ (f : List Byte) (s : State), s.held = false → f.length < 36 → ∃ t, exec (.leafcastReturnReceive f) s = .next t ∧
    t.regN Reg.rootLcRetCrcErr = min 0xFFFFFFFF (s.regN Reg.rootLcRetCrcErr + 1)) ∧
  (∀ (f : List Byte) (i : Nat) (s : State), s.held = false → 36 ≤ f.length →
    ofBe (f.drop (f.length - 4)) = crc32c (beBytes 4 (ofBe (slice f 0x14 3)) ++ f.take (f.length - 4)) → u8 f 0 = 0x12 → u8 f 0x17 = 0x10 →
    f.length = 32 + 16 + (ofBe (slice f 0x18 2) + 3) / 4 + 4 → s.returnLeaf (ofBe (slice f 2 2)) (ofBe (slice f 0x14 3)) = some i →
    ∃ t, exec (.leafcastReturnReceive f) s = .next t ∧ t.regN Reg.rootLcRetOk = min 0xFFFFFFFF (s.regN Reg.rootLcRetOk + 1) ∧
      (t.leafTemp.get [] i).head? = some (signed 16 (ofBe (slice f 0x22 2)), s.tag + 1, s.free))

/-- R6, RESERVED ENCODINGS: a plain write over any word, to any register of the module, leaves a writable field that it gives a reserved
encoding at its previous value, and every other writable field of the same write takes its value. The write that a register takes
stands in the register at once. -/
def Obligations.ReservedEncodingKeepsField : Prop :=
  (∀ (a w v : Nat) (r : RegRow) (f : Fld), w < 2 ^ 32 → v < 2 ^ 32 → regRow a = some r → f ∈ r.flds → f.acc = .rw ∨ f.acc = .rws →
    f.of (r.write w v) = if f.bars (f.of v) = true then f.of w else f.of v) ∧
  (∀ (a v : Nat) (r : RegRow) (s : State), v < 2 ^ 32 → regRow a = some r → (s.plainWrite a v).regN a = r.write (s.regN a) v)

/-- R381, AN ADDRESS WITHOUT A REGISTER reads 0 and ignores writes: a write takes an arrival tag and changes nothing else, and a read
returns 0 and changes nothing else. -/
def Obligations.UnoccupiedAddress : Prop :=
  ∀ (a : Nat) (v ev : Word) (s : State), s.held = false → a < 0x3000000 → regRow a = none →
    exec (.registerWrite a v) s = .next { s with tag := s.tag + 1 } ∧ exec (.readClear ⟨false, a⟩ ev) s = .next { s with rdata := [0] }

/-- R103, R110, R122, THE PIXEL PATH: CYLINDER gives the non-negative remainder S by 2^28, and T, and clips where a step saturates; POINT reads one tap at
the integer pixel; step 2 multiplies each drive by its calibration gain and stops at 1.0. -/
def Obligations.PixelPathSteps : Prop :=
  (∀ (pp : List Byte) (a b : Int),
    let exact := twMul (i32 pp 0) a = rnd (i32 pp 0 * a) 28 ∧ twMul (i32 pp 8) b = rnd (i32 pp 8 * b) 28 ∧
      twAdd (twMul (i32 pp 0) a) (i32 pp 4) = twMul (i32 pp 0) a + i32 pp 4 ∧
      twAdd (twMul (i32 pp 8) b) (i32 pp 12) = twMul (i32 pp 8) b + i32 pp 12
    (exact → ∃ x y, cylinder pp a b = some (x, y) ∧ y = twAdd (twMul (i32 pp 8) b) (i32 pp 12) ∧ 0 ≤ x ∧ x < 2 ^ 28 ∧
      (x - twAdd (twMul (i32 pp 0) a) (i32 pp 4)) % 2 ^ 28 = 0) ∧ (¬ exact → cylinder pp a b = none)) ∧
  (∀ (f : CanvasFrame) (edge fp : Nat) (u v : Int), sample f 0 edge fp u v = tap f edge (u >>> 16) (v >>> 16)) ∧
  (∀ (cal : Option (List Byte)) (d : List Int) (e : Nat) (he : e < d.length),
    (gainStep cal d)[e]? = some (min (twMul d[e] (calGain cal e * 8192)) (2 ^ 28)))

/-- R131, DITHER AND QUANTISE: the code and the residual of a drive in both modes; the code never exceeds the full code, the residual
fits 16 bits, and a drive of 0 gives code 0 and one of 1.0 the full code. -/
def Obligations.QuantiseCodes : Prop :=
  (∀ (b r : Nat) (d : Int), 0 ≤ d → quantise 0 b d r = ((rnd (d * (2 ^ b - 1)) 28).toNat, r)) ∧
  (∀ (m b r : Nat) (d : Int), m ≠ 0 → 0 ≤ d →
    ((quantise m b d r).1 : Int) = (d * (2 ^ b - 1) + r * 4096) >>> 28 ∧
    ((quantise m b d r).2 : Int) = ((d * (2 ^ b - 1) + r * 4096) - ((quantise m b d r).1 : Int) * 2 ^ 28) >>> 12) ∧
  (∀ (m b r : Nat) (d : Int), 0 ≤ d → d ≤ 2 ^ 28 → r < 65536 → (quantise m b d r).1 ≤ 2 ^ b - 1 ∧ (quantise m b d r).2 < 65536) ∧
  (∀ (m b r : Nat), r < 65536 → (quantise m b 0 r).1 = 0 ∧ (quantise m b (2 ^ 28) r).1 = 2 ^ b - 1)

/-- R148, THE SCALERS: the coefficients of every phase of every set sum to 1,024, whatever the values the spec leaves open, and
`CROWN_COEF` reads them two a word. -/
def Obligations.ScalerCoefficientsSum : Prop :=
  (∀ t phase : Nat, 2 ≤ t → t ≤ 8 → phase < 64 → (List.range t).foldl (fun a k => a + scalerCoef t phase k) 0 = 1024) ∧
  ∀ (k : Trunk) (t phase w : Nat) (s : State), s.trunkClosed k = false → 2 ≤ t → t ≤ 8 → phase < 64 → w < 4 →
    s.regValue (Reg.crownCoef k (t - 2) phase w) =
      unsigned 16 (scalerCoef t phase (2 * w)) + 65536 * unsigned 16 (scalerCoef t phase (2 * w + 1))

/-- R159, R160, THE LOOPS: after every sample the evaluation is what the table gives for the two accepted states (0 NORMAL, 1 ALARM, 2 OPEN,
3 SHORT); each change of a loop's state or of the evaluation raises ATTN_SAFETY in every channel and, while the queue of events has
room, writes an event; a loop that comes to be OPEN or SHORT sets `line_fault`. -/
def Obligations.AlarmEvaluation : Prop :=
  ∀ (x y : Nat) (s t : State), s.held = false → exec (.safetyLoopSample x y) s = .next t →
    let a := t.fget Reg.TreeSafeStatus.lineA
    let b := t.fget Reg.TreeSafeStatus.lineB
    let changes := (decide (a ≠ s.fget Reg.TreeSafeStatus.lineA)).toNat + (decide (b ≠ s.fget Reg.TreeSafeStatus.lineB)).toNat +
      (t.fbit Reg.TreeSafeStatus.evaluation != s.fbit Reg.TreeSafeStatus.evaluation).toNat
    t.fbit Reg.TreeSafeStatus.evaluation =
      (match a, b with
       | 0, 0 => false
       | 1, _ => true
       | _, 1 => true
       | 0, _ => false
       | _, 0 => false
       | _, _ => true) ∧
    (0 < changes → ∀ c < 20, (t.attnWord c).testBit 2 = true) ∧
    (s.events.length + changes ≤ 4096 → s.events.length + changes ≤ t.events.length) ∧
    (2 ≤ a ∧ a ≠ s.fget Reg.TreeSafeStatus.lineA ∨ 2 ≤ b ∧ b ≠ s.fget Reg.TreeSafeStatus.lineB → t.fbit Reg.TreeSafeStatus.lineFault = true)

/-- R364, R375, THE TREE OF AN INITIATOR: with `remote` 0, or with its own position selected, an initiator addresses its own tree; else the
tree at the position, and the request of a transaction leaves over a grove link. -/
def Obligations.GraftInitiatorTree : Prop :=
  ∀ (i : Fin 8) (w : Bool) (leaf off len : Nat) (d : List Byte) (s : State), s.held = false → 1 ≤ len → len ≤ 256 → off + len ≤ 0x40000 →
    s.bridge.grafts = [] → s.bridge.prefetch = [] → s.bridge.windfalls = [] →
    ((s.fbit (Reg.GraftSel.remote i) = false ∨ s.fget (Reg.GraftSel.position i) = s.grovePos) →
      ∀ port dest, s.graftPath leaf = .leafcast port dest →
        ∃ t x, exec (.graftRequest i none w leaf off len d) s = .next t ∧ t.bridge.grafts = [x] ∧ x.remote = none ∧
          Safety.sendsGraft s t port leaf (s.graftFrame x false)) ∧
    (s.fbit (Reg.GraftSel.remote i) = true → s.fget (Reg.GraftSel.position i) ≠ s.grovePos → s.sd.isGrove = true →
      s.sd.groveRec (s.fget (Reg.GraftSel.position i)) ≠ [] →
        ∃ t x, exec (.graftRequest i none w leaf off len d) s = .next t ∧ t.bridge.grafts = [x] ∧
          x.remote = some (s.fget (Reg.GraftSel.position i)) ∧
          Safety.sendsGrove s t 0x10 (s.fget (Reg.GraftSel.position i))
            (State.graftBytes (if w then 2 else 1) 0 x.tag leaf off len (if w then d else [])))

/-- R451, THE HEALTH PAD: when the pad follows the trunks' states it shows whether every trunk is in service, no bough is failed, every
link direction keeps a spare lane and no lane test has logged an error in the last 60 s; a lane error drops it, and the end of its 60 s
shows the conditions again. -/
def Obligations.HealthPad : Prop :=
  let good (t : State) : Prop := ∀ k : Trunk, t.inService k = true ∧ t.fget (Reg.BistTrunkHealth.boughFailed k.idx) = 0 ∧
    t.fget (Reg.BistTrunkHealth.sparesUp k.idx) ≠ 0 ∧ t.fget (Reg.BistTrunkHealth.sparesDown k.idx) ≠ 0 ∧
    t.fget (Reg.BistTrunkHealth.laneErr60s k.idx) = 0
  (∀ s : State, s.refresh.padHealth = true ↔ good s.refresh) ∧
  (∀ (k : Trunk) (n : Nat) (s t : State), s.held = false → exec (.onlineLaneError k n) s = .next t → t.padHealth = false) ∧
  (∀ (k : Trunk) (a : Nat) (s t : State), s.held = false → s.life.laneErrAt.find? k.idx = some a → a + 60 * second ≤ s.free →
    exec (.laneErrorWindowExpiry k) s = .next t → (t.padHealth = true ↔ good t))

/-- R306, ARBITRATION: the outcome of the four votes A, B, a and b, by the first row of the table that applies. -/
def Obligations.ArbitrationOutcomes : Prop :=
  ∀ (act : Trunk) (u : ArbUnit),
    let a := u.copyA.map CUnit.crc
    let b := u.copyB.map CUnit.crc
    let ra := u.voteA.join
    let rb := u.voteB.join
    let three (v : BitVec 64) : Prop := 3 ≤ ([a, b, ra, rb].filter (· == some v)).length
    let v := State.decideUnit act u
    (∀ x, three x → v.out.map CUnit.crc = some x ∧ v.counter = Reg.cmpArb3of4Cnt ∧
      v.yields = (if a ≠ some x then some (Trunk.a, 4) else if b ≠ some x then some (Trunk.b, 4) else none)) ∧
    ((∀ x, ¬ three x) → a.isSome = true → b.isSome = true → a = ra → b = rb →
      v.out = (match act with | .a => u.copyA | .b => u.copyB) ∧ v.yields = some (act.other, 0)) ∧
    ((∀ x, ¬ three x) → a.isSome = true → a = ra → ¬ (b.isSome = true ∧ b = rb) →
      v.out = u.copyA ∧ v.yields = some (.b, 4) ∧ v.counter = Reg.cmpSelfconsCnt) ∧
    ((∀ x, ¬ three x) → b.isSome = true → b = rb → ¬ (a.isSome = true ∧ a = ra) →
      v.out = u.copyB ∧ v.yields = some (.a, 4) ∧ v.counter = Reg.cmpSelfconsCnt) ∧
    ((∀ x, ¬ three x) → ¬ (a.isSome = true ∧ a = ra) → ¬ (b.isSome = true ∧ b = rb) →
      v.out = none ∧ v.yields = some (act.other, 7) ∧ v.counter = Reg.cmpUnresolvedCnt)

/-- R341, R342, THE CLAIM: the record of the lowest deliverable source shows it valid, its number, its mask, and, for a level source of a
control core, its level; with none deliverable it reads 0. -/
def Obligations.ClaimRecord : Prop :=
  ∀ (k : Trunk) (c : Fin 8) (s : State), s.held = false → (∀ j < 1024, s.lateMasked k c j = false) →
    ((∀ j < 1024, s.deliverable k c j = false) →
      ∃ t, exec (.icuClaim k c) s = .next t ∧ t.rdata = [0] ∧ (t.icu k).serving = (s.icu k).serving) ∧
    ∀ i < 1024, s.deliverable k c i = true → (∀ j < i, s.deliverable k c j = false) →
      ∃ t w, exec (.icuClaim k c) s = .next t ∧ t.rdata = [w] ∧ w.getLsbD 31 = true ∧ w.toNat % 2 ^ 27 = i ∧ w.getLsbD 29 = s.masked k i ∧
        (c.val < 6 → w.getLsbD 30 = (srcLevel i && s.levelOf k i) ∧ w.getLsbD 27 = false) ∧
        w.getLsbD 28 = decide (1 < (s.icu k).edges.get 0 i)

/-- R8, R9, THE SPARE ROLE: at a tree epoch whose count is a multiple of 4,096 the role moves to the next bough, modulo 8, in both trunks;
an arbitration in progress puts it off, and the next epoch without one moves it; at any other epoch it stays. -/
def Obligations.SpareRoleMoves : Prop :=
  ∀ s : State,
    (s.capture.epoch % 4096 = 0 ∨ s.twin.sparePend = true → s.fbit Reg.CmpStatus.arbBusy = false →
      s.moveSpare.fget Reg.TreeMode.spareBoughA = (s.fget Reg.TreeMode.spareBoughA + 1) % 8 ∧
      s.moveSpare.fget Reg.TreeMode.spareBoughB = (s.fget Reg.TreeMode.spareBoughB + 1) % 8 ∧ s.moveSpare.twin.sparePend = false) ∧
    (s.capture.epoch % 4096 = 0 ∨ s.twin.sparePend = true → s.fbit Reg.CmpStatus.arbBusy = true →
      s.moveSpare = { s with twin.sparePend := true }) ∧
    (s.capture.epoch % 4096 ≠ 0 → s.twin.sparePend = false → s.moveSpare = s)

/-- R436, R437, THE QUEUE OF EVENTS holds 4,096: one that finds room enters at its end, with the time of FREE, and one that finds none is
dropped and counted, and marks the next that is written; an event is 64 bytes, its index first. -/
def Obligations.EventQueue : Prop :=
  (∀ (e : Event) (s : State), s.events.length < 4096 →
    ∃ x, (s.pushEvent e).events = s.events ++ [x] ∧ x.code = e.code ∧ x.cls = e.cls ∧ x.freeNs = s.freeNs ∧ x.args = e.args) ∧
  (∀ (e : Event) (s : State), 4096 ≤ s.events.length → (s.pushEvent e).events = s.events ∧ (s.pushEvent e).ring.lost = true ∧
    (s.pushEvent e).regN Reg.recLostCnt = min 0xFFFFFFFF (s.regN Reg.recLostCnt + 1) ∧
    (s.pushEvent e).fbit Reg.RecStatus.lost = true) ∧
  (∀ (n fl : Nat) (e : Event), (eventBytes n fl e).length = 64 ∧ (eventBytes n fl e).take 4 = leBytes 4 n)
end

