-- ==== Sys2Proof/Laws/Checks.lean ====
section
/-! SUPPORT. What the check codes find of a stored word or block as it is read: nothing changed, or one check bit changed. -/

namespace Sys2Proof.Machine

/-! ### Bits and bytes of a number -/

theorem mod_xor_two_pow_add (n x j : Nat) : (x ^^^ 2 ^ (n + j)) % 2 ^ n = x % 2 ^ n := by
  rw [Nat.xor_mod_two_pow, Nat.pow_add, Nat.mul_mod_right, Nat.xor_zero]

theorem div_xor_two_pow_add (n x j : Nat) : (x ^^^ 2 ^ (n + j)) / 2 ^ n = x / 2 ^ n ^^^ 2 ^ j := by
  rw [← Nat.shiftRight_eq_div_pow, Nat.shiftRight_xor_distrib, Nat.shiftRight_eq_div_pow, Nat.shiftRight_eq_div_pow,
    Nat.pow_add, Nat.mul_div_cancel_left _ (Nat.two_pow_pos n)]

theorem ofLe_lt : ∀ l : List Byte, ofLe l < 256 ^ l.length
  | [] => by simp [ofLe]
  | b :: r => by
    have := ofLe_lt r
    have := b.isLt
    simp only [ofLe, List.length_cons, Nat.pow_succ]
    omega

/-- The first bytes of a number depend on as many of its low bits. -/
theorem leBytes_mod : ∀ (n x : Nat), leBytes n (x % 256 ^ n) = leBytes n x
  | 0, _ => rfl
  | n + 1, x => by
    simp only [leBytes, List.cons.injEq]
    refine ⟨BitVec.eq_of_toNat_eq ?_, ?_⟩
    · simp only [BitVec.toNat_ofNat]
      exact Nat.mod_mod_of_dvd _ ⟨256 ^ n, by rw [Nat.pow_succ, Nat.mul_comm]⟩
    · rw [Nat.pow_succ, Nat.mul_comm, Nat.mod_mul_right_div_self, leBytes_mod n]

theorem leBytes_ofLe : ∀ l : List Byte, leBytes l.length (ofLe l) = l
  | [] => rfl
  | b :: r => by
    have hb := b.isLt
    simp only [ofLe, leBytes, List.length_cons, List.cons.injEq]
    refine ⟨BitVec.eq_of_toNat_eq ?_, ?_⟩
    · simp only [BitVec.toNat_ofNat]; omega
    · rw [show (b.toNat + 256 * ofLe r) / 256 = ofLe r by omega, leBytes_ofLe r]

/-! ### A block of the heartwood store (R157) -/

theorem two_pow_bytes (n : Nat) : 2 ^ (8 * n) = 256 ^ n := Nat.pow_mul 2 8 n
theorem two_pow_block : (2 : Nat) ^ 32768 = 256 ^ 4096 := two_pow_bytes 4096

/-- A block is read back as its bytes and its check value. -/
theorem hwStored_parts (b : Nat) (d : List Byte) (h : d.length = 4096) :
    leBytes 4096 (hwStored b d) = d ∧ hwStored b d / 2 ^ 32768 = hwCrc b d := by
  have hlt : ofLe d < 2 ^ 32768 := by rw [two_pow_block, ← h]; exact ofLe_lt d
  constructor
  · rw [← leBytes_mod, ← two_pow_block, hwStored, Nat.add_mul_mod_self_left, Nat.mod_eq_of_lt hlt, ← h]
    exact leBytes_ofLe d
  · rw [hwStored, Nat.add_mul_div_left _ _ (Nat.two_pow_pos _), Nat.div_eq_of_lt hlt, Nat.zero_add]

/-- A block with no bit changed passes its check. -/
theorem hwPasses_stored (b : Nat) (d : List Byte) (h : d.length = 4096) : hwPasses b (hwStored b d) = true := by
  have p := hwStored_parts b d h
  rw [hwPasses, p.1, p.2, beq_self_eq_true]

/-- A block with one bit of its check value changed does not. -/
theorem hwPasses_checkBit (b j : Nat) (d : List Byte) (h : d.length = 4096) :
    hwPasses b (hwStored b d ^^^ 2 ^ (32768 + j)) = false := by
  have p := hwStored_parts b d h
  have l : leBytes 4096 (hwStored b d ^^^ 2 ^ (32768 + j)) = d := by
    rw [← leBytes_mod, ← two_pow_block, mod_xor_two_pow_add, two_pow_block, leBytes_mod]
    exact p.1
  rw [hwPasses, l, div_xor_two_pow_add, p.2]
  refine beq_eq_false_iff_ne.mpr fun e => ?_
  have z : 2 ^ j = 0 := by simpa [← Nat.xor_assoc] using congrArg (hwCrc b d ^^^ ·) e
  exact absurd z (Nat.ne_of_gt (Nat.two_pow_pos j))

namespace State

theorem hwBlockData_length (s : State) (t : Trunk) (p : Nat × Nat × Nat) : (s.hwBlockData t p).length = 4096 := by
  rw [hwBlockData, List.length_take, List.length_append, List.length_replicate]
  omega

/-- R157: a block in which no bit has changed does not fail. -/
theorem hwFailed_clean (s : State) (t : Trunk) (b : Fin 2048) : s.hwFailed t { block := b, flips := [] } = none := by
  rw [hwFailed]
  refine Option.filter_eq_none_iff.mpr fun p _ => ?_
  rw [hwFlip, List.foldl_nil, hwPasses_stored _ _ (hwBlockData_length s t p)]
  decide

/-- R157: a block of a content whose check value has one bit changed fails. -/
theorem hwFailed_checkBit (s : State) (t : Trunk) (b : Fin 2048) (i : Fin 32800) (p : Nat × Nat × Nat) (hi : 32768 ≤ i.val)
    (hb : s.hwBlockAt t b.val = some p) : s.hwFailed t { block := b, flips := [i] } = some p := by
  have e : i.val = 32768 + (i.val - 32768) := by omega
  rw [hwFailed, hb, Option.filter_some, hwFlip, List.foldl_cons, List.foldl_nil, e, hwPasses_checkBit _ _ _ (hwBlockData_length s t p)]
  rfl

end State

/-! ### A word under the SECDED code (R407, R408) -/

theorem colSum_zero : ∀ l : List Nat, colSum l 0 = 0
  | [] => rfl
  | _ :: r => by simp [colSum, colSum_zero r]

theorem eccStore_parts (wa d : Nat) : eccStore wa d % 2 ^ 64 = d % 2 ^ 64 ∧ eccStore wa d / 2 ^ 64 = checkBits wa (d % 2 ^ 64) := by
  have := Nat.mod_lt d (Nat.two_pow_pos 64)
  rw [eccStore]
  omega

/-- A word read at its address with no bit changed has the syndrome 0. -/
theorem syndrome_store (wa d : Nat) : syndrome wa (eccStore wa d) = 0 := by
  have p := eccStore_parts wa d
  rw [syndrome, p.1, p.2, Nat.xor_self]

/-- One with check bit `k` changed has the column of that bit. -/
theorem syndrome_checkBit (wa d k : Nat) : syndrome wa (eccStore wa d ^^^ 2 ^ (64 + k)) = 2 ^ k := by
  have p := eccStore_parts wa d
  rw [syndrome, mod_xor_two_pow_add, div_xor_two_pow_add, p.1, p.2, ← Nat.xor_assoc, Nat.xor_self, Nat.zero_xor]

theorem mem_pickFrom (f : Nat → Nat) : ∀ (n : Nat) (l : List Nat) (c : Nat), c ∈ pickFrom f n l → c = 0 ∨ c ∈ l
  | 0, _, _, h => by cases h
  | n + 1, l, c, h => by
    rcases List.mem_cons.mp h with h | h
    · rw [List.getD_eq_getElem?_getD] at h
      cases e : l[f n % l.length]? with
      | none => exact .inl (by rw [h, e]; rfl)
      | some x => exact .inr (by rw [h, e]; exact List.mem_of_getElem? e)
    · exact (mem_pickFrom f n _ c h).imp id List.mem_of_mem_eraseIdx

/-- R407: a data bit never has the column of a check bit. -/
theorem dataColumns_ne (c k : Nat) (hk : k < 8) (h : c ∈ dataColumns) : c ≠ 2 ^ k := by
  rcases mem_pickFrom _ _ _ _ h with h | h
  · exact h ▸ Nat.ne_of_lt (Nat.two_pow_pos k)
  · have w : ∀ j < 8, ones 8 (2 ^ j) = 1 := by decide
    rintro rfl
    have := w k hk
    simp only [dataPool, List.mem_filter, Bool.and_eq_true, decide_eq_true_eq] at h
    omega

/-- R408: the column of a check bit is a corrected error of that bit. -/
theorem eccClass_checkBit (k : Nat) (hk : k < 8) : eccClass (2 ^ k) = .corrected (64 + k) := by
  have n : dataColumns.findIdx? (· == 2 ^ k) = none := by
    refine List.findIdx?_eq_none_iff.mpr fun c h => ?_
    exact beq_eq_false_iff_ne.mpr (dataColumns_ne c k hk h)
  have f : ∀ j < 8, (List.range 8).find? (fun i => 2 ^ i == 2 ^ j) = some j := by decide
  rw [eccClass, if_neg (Nat.ne_of_gt (Nat.two_pow_pos k)), n, f k hk]

namespace State

/-- R408: a word read at the address it was written at, with check bit `k` changed, is corrected. -/
theorem eccRead_checkBit (s : State) (x : EccRead) (k : Nat) (hk : k < 8) (ha : x.wrote = x.addr) (hf : x.flips.toNat = 2 ^ (64 + k)) :
    s.eccRead x = .corrected (64 + k) := by
  simp only [eccRead, ha, hf, syndrome_checkBit]
  exact eccClass_checkBit k hk

/-- R408: one in which nothing has changed is clean. -/
theorem eccRead_clean (s : State) (x : EccRead) (ha : x.wrote = x.addr) (hf : x.flips.toNat = 0) : s.eccRead x = .clean := by
  simp only [eccRead, ha, hf, Nat.xor_zero, syndrome_store]
  rfl

end State

end Sys2Proof.Machine
end

