-- ==== Sys2Proof/Laws/FrameMem.lean ====
section
/-! SUPPORT. Memory frames: every operation that stores nothing leaves the memory as it was, one lemma an operation. MemOk.lean has
the operations that store. -/

namespace Sys2Proof.Machine

set_option linter.unusedSimpArgs false

@[simp] theorem State.foldl_mem {α : Type} (f : State → α → State) (h : ∀ s x, (f s x).mem = s.mem) (l : List α) (s : State) :
    (l.foldl f s).mem = s.mem := by
  induction l generalizing s with
  | nil => rfl
  | cons a r ih => simp [List.foldl, ih, h]
theorem State.foldl_snd_mem {α β : Type} (f : β × State → α → β × State) (h : ∀ a x, (f a x).2.mem = a.2.mem) (l : List α) (a : β × State) :
    (l.foldl f a).2.mem = a.2.mem := by
  induction l generalizing a with
  | nil => rfl
  | cons x r ih => simp [List.foldl, ih, h]
@[simp] theorem State.setReg_mem (s : State) (a : Nat) (w : Word) : (State.setReg s a w).mem = s.mem := by
  unfold State.setReg
  first
  | (simp [apply_ite State.mem]; done)
  | ((try dsimp only); repeat' (first | (with_reducible rfl) | (simp [apply_ite State.mem]; done) | split | (rw [State.foldl_mem]) | intro))

@[simp] theorem State.setRegN_mem (s : State) (a : Nat) (v : Nat) : (State.setRegN s a v).mem = s.mem := by
  unfold State.setRegN
  first
  | (simp [apply_ite State.mem]; done)
  | ((try dsimp only); repeat' (first | (with_reducible rfl) | (simp [apply_ite State.mem]; done) | split | (rw [State.foldl_mem]) | intro))

@[simp] theorem State.noteSet_mem (s : State) (f : Field) (v : Nat) : (State.noteSet s f v).mem = s.mem := by
  unfold State.noteSet
  first
  | (simp [apply_ite State.mem]; done)
  | ((try dsimp only); repeat' (first | (with_reducible rfl) | (simp [apply_ite State.mem]; done) | split | (rw [State.foldl_mem]) | intro))

@[simp] theorem State.keepAgain_mem (s : State) (a : Nat) (l : List (Nat × Nat)) : (State.keepAgain s a l).mem = s.mem := by
  unfold State.keepAgain
  first
  | (simp [apply_ite State.mem]; done)
  | ((try dsimp only); repeat' (first | (with_reducible rfl) | (simp [apply_ite State.mem]; done) | split | (rw [State.foldl_mem]) | intro))

@[simp] theorem State.fset_mem (s : State) (f : Field) (v : Nat) : (State.fset s f v).mem = s.mem := by
  unfold State.fset
  first
  | (simp [apply_ite State.mem]; done)
  | ((try dsimp only); repeat' (first | (with_reducible rfl) | (simp [apply_ite State.mem]; done) | split | (rw [State.foldl_mem]) | intro))

@[simp] theorem State.fsetB_mem (s : State) (f : Field) (b : Bool) : (State.fsetB s f b).mem = s.mem := by
  unfold State.fsetB
  first
  | (simp [apply_ite State.mem]; done)
  | ((try dsimp only); repeat' (first | (with_reducible rfl) | (simp [apply_ite State.mem]; done) | split | (rw [State.foldl_mem]) | intro))

@[simp] theorem State.bumpBy_mem (s : State) (a : Nat) (n : Nat) : (State.bumpBy s a n).mem = s.mem := by
  unfold State.bumpBy
  first
  | (simp [apply_ite State.mem]; done)
  | ((try dsimp only); repeat' (first | (with_reducible rfl) | (simp [apply_ite State.mem]; done) | split | (rw [State.foldl_mem]) | intro))

@[simp] theorem State.bump_mem (s : State) (a : Nat) : (State.bump s a).mem = s.mem := by
  unfold State.bump
  first
  | (simp [apply_ite State.mem]; done)
  | ((try dsimp only); repeat' (first | (with_reducible rfl) | (simp [apply_ite State.mem]; done) | split | (rw [State.foldl_mem]) | intro))

@[simp] theorem State.fmax_mem (s : State) (f : Field) (v : Nat) : (State.fmax s f v).mem = s.mem := by
  unfold State.fmax
  first
  | (simp [apply_ite State.mem]; done)
  | ((try dsimp only); repeat' (first | (with_reducible rfl) | (simp [apply_ite State.mem]; done) | split | (rw [State.foldl_mem]) | intro))

@[simp] theorem State.regMax_mem (s : State) (a : Nat) (v : Nat) : (State.regMax s a v).mem = s.mem := by
  unfold State.regMax
  first
  | (simp [apply_ite State.mem]; done)
  | ((try dsimp only); repeat' (first | (with_reducible rfl) | (simp [apply_ite State.mem]; done) | split | (rw [State.foldl_mem]) | intro))

@[simp] theorem State.setReg64_mem (s : State) (lo : Nat) (hi : Nat) (v : Nat) : (State.setReg64 s lo hi v).mem = s.mem := by
  unfold State.setReg64
  first
  | (simp [apply_ite State.mem]; done)
  | ((try dsimp only); repeat' (first | (with_reducible rfl) | (simp [apply_ite State.mem]; done) | split | (rw [State.foldl_mem]) | intro))

@[simp] theorem State.setReg96_mem (s : State) (lo : Nat) (mid : Nat) (hi : Nat) (v : Nat) : (State.setReg96 s lo mid hi v).mem = s.mem := by
  unfold State.setReg96
  first
  | (simp [apply_ite State.mem]; done)
  | ((try dsimp only); repeat' (first | (with_reducible rfl) | (simp [apply_ite State.mem]; done) | split | (rw [State.foldl_mem]) | intro))

@[simp] theorem State.shadowToPend_mem (s : State) (as : List Nat) : (State.shadowToPend s as).mem = s.mem := by
  unfold State.shadowToPend
  first
  | (simp [apply_ite State.mem]; done)
  | ((try dsimp only); repeat' (first | (with_reducible rfl) | (simp [apply_ite State.mem]; done) | split | (rw [State.foldl_mem]) | intro))

@[simp] theorem State.pendToAct_mem (s : State) (as : List Nat) : (State.pendToAct s as).mem = s.mem := by
  unfold State.pendToAct
  first
  | (simp [apply_ite State.mem]; done)
  | ((try dsimp only); repeat' (first | (with_reducible rfl) | (simp [apply_ite State.mem]; done) | split | (rw [State.foldl_mem]) | intro))

@[simp] theorem State.setShadow_mem (s : State) (a : Nat) (v : Nat) : (State.setShadow s a v).mem = s.mem := by
  unfold State.setShadow
  first
  | (simp [apply_ite State.mem]; done)
  | ((try dsimp only); repeat' (first | (with_reducible rfl) | (simp [apply_ite State.mem]; done) | split | (rw [State.foldl_mem]) | intro))

@[simp] theorem State.nextTag_mem (s : State) : (State.nextTag s).mem = s.mem := by
  unfold State.nextTag
  first
  | (simp [apply_ite State.mem]; done)
  | ((try dsimp only); repeat' (first | (with_reducible rfl) | (simp [apply_ite State.mem]; done) | split | (rw [State.foldl_mem]) | intro))

@[simp] theorem State.onTrunks_mem (s : State) (p : State → Trunk → Bool) (f : Trunk → State → State) (hf : ∀ x0 x1, (f x0 x1).mem = x1.mem) : (State.onTrunks s p f).mem = s.mem := by
  unfold State.onTrunks
  first
  | (simp [apply_ite State.mem, hf]; done)
  | ((try dsimp only); repeat' (first | (with_reducible rfl) | (simp [apply_ite State.mem, hf]; done) | split | (rw [State.foldl_mem]) | intro))

@[simp] theorem State.draw_mem (s : State) (n : Nat) : (State.draw s n).2.mem = s.mem := by
  unfold State.draw
  first
  | (simp [apply_ite State.mem]; done)
  | ((try dsimp only); repeat' (first | (with_reducible rfl) | (simp [apply_ite State.mem]; done) | split | (rw [State.foldl_mem]) | (rw [State.foldl_snd_mem]) | intro))

@[simp] theorem State.emit_mem (s : State) (x : Sent) : (State.emit s x).mem = s.mem := by
  unfold State.emit
  first
  | (simp [apply_ite State.mem]; done)
  | ((try dsimp only); repeat' (first | (with_reducible rfl) | (simp [apply_ite State.mem]; done) | split | (rw [State.foldl_mem]) | intro))

@[simp] theorem State.setAxis_mem (s : State) (n : Nat) (a : AxisSt) : (State.setAxis s n a).mem = s.mem := by
  unfold State.setAxis
  first
  | (simp [apply_ite State.mem]; done)
  | ((try dsimp only); repeat' (first | (with_reducible rfl) | (simp [apply_ite State.mem]; done) | split | (rw [State.foldl_mem]) | intro))

@[simp] theorem State.pushEvent_mem (s : State) (e : Event) : (State.pushEvent s e).mem = s.mem := by
  unfold State.pushEvent
  first
  | (simp [apply_ite State.mem]; done)
  | ((try dsimp only); repeat' (first | (with_reducible rfl) | (simp [apply_ite State.mem]; done) | split | (rw [State.foldl_mem]) | intro))

@[simp] theorem State.rootEvent_mem (s : State) (base : Nat) (code : Nat) (cls : Nat) (args : List Byte) : (State.rootEvent s base code cls args).mem = s.mem := by
  unfold State.rootEvent
  first
  | (simp [apply_ite State.mem]; done)
  | ((try dsimp only); repeat' (first | (with_reducible rfl) | (simp [apply_ite State.mem]; done) | split | (rw [State.foldl_mem]) | intro))

@[simp] theorem State.trunkEvent_mem (s : State) (t : Trunk) (base : Nat) (code : Nat) (cls : Nat) (args : List Byte) : (State.trunkEvent s t base code cls args).mem = s.mem := by
  unfold State.trunkEvent
  first
  | (simp [apply_ite State.mem]; done)
  | ((try dsimp only); repeat' (first | (with_reducible rfl) | (simp [apply_ite State.mem]; done) | split | (rw [State.foldl_mem]) | intro))

@[simp] theorem State.statusEvent_mem (s : State) (f : Field) (cls : Nat) : (State.statusEvent s f cls).mem = s.mem := by
  unfold State.statusEvent
  first
  | (simp [apply_ite State.mem]; done)
  | ((try dsimp only); repeat' (first | (with_reducible rfl) | (simp [apply_ite State.mem]; done) | split | (rw [State.foldl_mem]) | intro))

@[simp] theorem State.flag_mem (s : State) (f : Field) (cls : Nat) : (State.flag s f cls).mem = s.mem := by
  unfold State.flag
  first
  | (simp [apply_ite State.mem]; done)
  | ((try dsimp only); repeat' (first | (with_reducible rfl) | (simp [apply_ite State.mem]; done) | split | (rw [State.foldl_mem]) | intro))

@[simp] theorem State.ringStop_mem (s : State) (r : Nat) (f : Field) : (State.ringStop s r f).mem = s.mem := by
  unfold State.ringStop
  first
  | (simp [apply_ite State.mem]; done)
  | ((try dsimp only); repeat' (first | (with_reducible rfl) | (simp [apply_ite State.mem]; done) | split | (rw [State.foldl_mem]) | intro))

@[simp] theorem State.replyWrite_mem (s : State) (r : Reply) (err : Bool) : (State.replyWrite s r err).mem = s.mem := by
  unfold State.replyWrite
  first
  | (simp [apply_ite State.mem]; done)
  | ((try dsimp only); repeat' (first | (with_reducible rfl) | (simp [apply_ite State.mem]; done) | split | (rw [State.foldl_mem]) | intro))

@[simp] theorem State.reply_mem (s : State) (c : Nat) (tag : Nat) (opcode : Nat) (code : Nat) (result : List Byte) (data : List Byte) (windfall : Bool) : (State.reply s c tag opcode code result data windfall).mem = s.mem := by
  unfold State.reply
  first
  | (simp [apply_ite State.mem]; done)
  | ((try dsimp only); repeat' (first | (with_reducible rfl) | (simp [apply_ite State.mem]; done) | split | (rw [State.foldl_mem]) | intro))

@[simp] theorem State.watchReply_mem (s : State) (c : Nat) (w : Watch) (code : Nat) : (State.watchReply s c w code).mem = s.mem := by
  unfold State.watchReply
  first
  | (simp [apply_ite State.mem]; done)
  | ((try dsimp only); repeat' (first | (with_reducible rfl) | (simp [apply_ite State.mem]; done) | split | (rw [State.foldl_mem]) | intro))

@[simp] theorem State.watchCheck_mem (s : State) : (State.watchCheck s).mem = s.mem := by
  unfold State.watchCheck
  first
  | (simp [apply_ite State.mem]; done)
  | ((try dsimp only); repeat' (first | (with_reducible rfl) | (simp [apply_ite State.mem]; done) | split | (rw [State.foldl_mem]) | (rw [State.foldl_snd_mem]) | intro))

@[simp] theorem State.attn_mem (s : State) (k : Nat) : (State.attn s k).mem = s.mem := by
  unfold State.attn
  first
  | (simp [apply_ite State.mem]; done)
  | ((try dsimp only); repeat' (first | (with_reducible rfl) | (simp [apply_ite State.mem]; done) | split | (rw [State.foldl_mem]) | intro))

@[simp] theorem State.attnFault_mem (s : State) : (State.attnFault s).mem = s.mem := by
  unfold State.attnFault
  first
  | (simp [apply_ite State.mem]; done)
  | ((try dsimp only); repeat' (first | (with_reducible rfl) | (simp [apply_ite State.mem]; done) | split | (rw [State.foldl_mem]) | intro))

@[simp] theorem State.attnFailover_mem (s : State) : (State.attnFailover s).mem = s.mem := by
  unfold State.attnFailover
  first
  | (simp [apply_ite State.mem]; done)
  | ((try dsimp only); repeat' (first | (with_reducible rfl) | (simp [apply_ite State.mem]; done) | split | (rw [State.foldl_mem]) | intro))

@[simp] theorem State.attnSafety_mem (s : State) : (State.attnSafety s).mem = s.mem := by
  unfold State.attnSafety
  first
  | (simp [apply_ite State.mem]; done)
  | ((try dsimp only); repeat' (first | (with_reducible rfl) | (simp [apply_ite State.mem]; done) | split | (rw [State.foldl_mem]) | intro))

@[simp] theorem State.attnReady_mem (s : State) : (State.attnReady s).mem = s.mem := by
  unfold State.attnReady
  first
  | (simp [apply_ite State.mem]; done)
  | ((try dsimp only); repeat' (first | (with_reducible rfl) | (simp [apply_ite State.mem]; done) | split | (rw [State.foldl_mem]) | intro))

@[simp] theorem State.attnLeaf_mem (s : State) : (State.attnLeaf s).mem = s.mem := by
  unfold State.attnLeaf
  first
  | (simp [apply_ite State.mem]; done)
  | ((try dsimp only); repeat' (first | (with_reducible rfl) | (simp [apply_ite State.mem]; done) | split | (rw [State.foldl_mem]) | intro))

@[simp] theorem State.attnTime_mem (s : State) : (State.attnTime s).mem = s.mem := by
  unfold State.attnTime
  first
  | (simp [apply_ite State.mem]; done)
  | ((try dsimp only); repeat' (first | (with_reducible rfl) | (simp [apply_ite State.mem]; done) | split | (rw [State.foldl_mem]) | intro))

@[simp] theorem State.attnUpdate_mem (s : State) : (State.attnUpdate s).mem = s.mem := by
  unfold State.attnUpdate
  first
  | (simp [apply_ite State.mem]; done)
  | ((try dsimp only); repeat' (first | (with_reducible rfl) | (simp [apply_ite State.mem]; done) | split | (rw [State.foldl_mem]) | intro))

@[simp] theorem State.attnRecord_mem (s : State) : (State.attnRecord s).mem = s.mem := by
  unfold State.attnRecord
  first
  | (simp [apply_ite State.mem]; done)
  | ((try dsimp only); repeat' (first | (with_reducible rfl) | (simp [apply_ite State.mem]; done) | split | (rw [State.foldl_mem]) | intro))

@[simp] theorem State.attnBridge_mem (s : State) : (State.attnBridge s).mem = s.mem := by
  unfold State.attnBridge
  first
  | (simp [apply_ite State.mem]; done)
  | ((try dsimp only); repeat' (first | (with_reducible rfl) | (simp [apply_ite State.mem]; done) | split | (rw [State.foldl_mem]) | intro))

@[simp] theorem State.attnThermal_mem (s : State) : (State.attnThermal s).mem = s.mem := by
  unfold State.attnThermal
  first
  | (simp [apply_ite State.mem]; done)
  | ((try dsimp only); repeat' (first | (with_reducible rfl) | (simp [apply_ite State.mem]; done) | split | (rw [State.foldl_mem]) | intro))

@[simp] theorem State.setReady_mem (s : State) (f : Field) (b : Bool) : (State.setReady s f b).mem = s.mem := by
  unfold State.setReady
  first
  | (simp [apply_ite State.mem]; done)
  | ((try dsimp only); repeat' (first | (with_reducible rfl) | (simp [apply_ite State.mem]; done) | split | (rw [State.foldl_mem]) | intro))

@[simp] theorem State.countFrom_mem (s : State) (key : Nat) (p : Nat) : (State.countFrom s key p).mem = s.mem := by
  unfold State.countFrom
  first
  | (simp [apply_ite State.mem]; done)
  | ((try dsimp only); repeat' (first | (with_reducible rfl) | (simp [apply_ite State.mem]; done) | split | (rw [State.foldl_mem]) | intro))

@[simp] theorem State.rebaseCadences_mem (s : State) (n : Nat) : (State.rebaseCadences s n).mem = s.mem := by
  unfold State.rebaseCadences
  first
  | (simp [apply_ite State.mem]; done)
  | ((try dsimp only); repeat' (first | (with_reducible rfl) | (simp [apply_ite State.mem]; done) | split | (rw [State.foldl_mem]) | intro))

@[simp] theorem State.setAxisState_mem (s : State) (n : Nat) (v : Nat) : (State.setAxisState s n v).mem = s.mem := by
  unfold State.setAxisState
  first
  | (simp [apply_ite State.mem]; done)
  | ((try dsimp only); repeat' (first | (with_reducible rfl) | (simp [apply_ite State.mem]; done) | split | (rw [State.foldl_mem]) | intro))

@[simp] theorem State.rasterStep_mem (s : State) (n : Nat) : (State.rasterStep s n).mem = s.mem := by
  unfold State.rasterStep
  first
  | (simp [apply_ite State.mem]; done)
  | ((try dsimp only); repeat' (first | (with_reducible rfl) | (simp [apply_ite State.mem]; done) | split | (rw [State.foldl_mem]) | intro))

@[simp] theorem State.recordStep_mem (s : State) (n : Nat) (fwd : Bool) : (State.recordStep s n fwd).mem = s.mem := by
  unfold State.recordStep
  first
  | (simp [apply_ite State.mem]; done)
  | ((try dsimp only); repeat' (first | (with_reducible rfl) | (simp [apply_ite State.mem]; done) | split | (rw [State.foldl_mem]) | intro))

@[simp] theorem State.takePos_mem (s : State) (n : Nat) (p : Nat) (thr : Nat) : (State.takePos s n p thr).mem = s.mem := by
  unfold State.takePos
  first
  | (simp [apply_ite State.mem]; done)
  | ((try dsimp only); repeat' (first | (with_reducible rfl) | (simp [apply_ite State.mem]; done) | split | (rw [State.foldl_mem]) | intro))

@[simp] theorem State.setRate_mem (s : State) (n : Nat) (adv : Nat) : (State.setRate s n adv).mem = s.mem := by
  unfold State.setRate
  first
  | (simp [apply_ite State.mem]; done)
  | ((try dsimp only); repeat' (first | (with_reducible rfl) | (simp [apply_ite State.mem]; done) | split | (rw [State.foldl_mem]) | intro))

@[simp] theorem State.lockAxis_mem (s : State) (n : Nat) (p : Nat) (adv : Nat) : (State.lockAxis s n p adv).mem = s.mem := by
  unfold State.lockAxis
  first
  | (simp [apply_ite State.mem]; done)
  | ((try dsimp only); repeat' (first | (with_reducible rfl) | (simp [apply_ite State.mem]; done) | split | (rw [State.foldl_mem]) | intro))

@[simp] theorem State.fallBack_mem (s : State) (n : Nat) : (State.fallBack s n).mem = s.mem := by
  unfold State.fallBack
  first
  | (simp [apply_ite State.mem]; done)
  | ((try dsimp only); repeat' (first | (with_reducible rfl) | (simp [apply_ite State.mem]; done) | split | (rw [State.foldl_mem]) | intro))

@[simp] theorem State.loseAxis_mem (s : State) (n : Nat) : (State.loseAxis s n).mem = s.mem := by
  unfold State.loseAxis
  first
  | (simp [apply_ite State.mem]; done)
  | ((try dsimp only); repeat' (first | (with_reducible rfl) | (simp [apply_ite State.mem]; done) | split | (rw [State.foldl_mem]) | intro))

@[simp] theorem State.stepAxis_mem (s : State) (n : Nat) (p : Nat) : (State.stepAxis s n p).mem = s.mem := by
  unfold State.stepAxis
  first
  | (simp [apply_ite State.mem]; done)
  | ((try dsimp only); repeat' (first | (with_reducible rfl) | (simp [apply_ite State.mem]; done) | split | (rw [State.foldl_mem]) | intro))

@[simp] theorem State.relockAxis_mem (s : State) (n : Nat) : (State.relockAxis s n).mem = s.mem := by
  unfold State.relockAxis
  first
  | (simp [apply_ite State.mem]; done)
  | ((try dsimp only); repeat' (first | (with_reducible rfl) | (simp [apply_ite State.mem]; done) | split | (rw [State.foldl_mem]) | intro))

@[simp] theorem State.snapAxis_mem (s : State) (n : Nat) : (State.snapAxis s n).mem = s.mem := by
  unfold State.snapAxis
  first
  | (simp [apply_ite State.mem]; done)
  | ((try dsimp only); repeat' (first | (with_reducible rfl) | (simp [apply_ite State.mem]; done) | split | (rw [State.foldl_mem]) | intro))

@[simp] theorem State.snapAll_mem (s : State) : (State.snapAll s).mem = s.mem := by
  unfold State.snapAll
  first
  | (simp [apply_ite State.mem]; done)
  | ((try dsimp only); repeat' (first | (with_reducible rfl) | (simp [apply_ite State.mem]; done) | split | (rw [State.foldl_mem]) | intro))

@[simp] theorem State.writeHoldMode_mem (s : State) (n : Nat) (halt : Bool) : (State.writeHoldMode s n halt).mem = s.mem := by
  unfold State.writeHoldMode
  first
  | (simp [apply_ite State.mem]; done)
  | ((try dsimp only); repeat' (first | (with_reducible rfl) | (simp [apply_ite State.mem]; done) | split | (rw [State.foldl_mem]) | intro))

@[simp] theorem State.pendBit_mem (s : State) (t : Trunk) (src : Nat) : (State.pendBit s t src).mem = s.mem := by
  unfold State.pendBit
  first
  | (simp [apply_ite State.mem]; done)
  | ((try dsimp only); repeat' (first | (with_reducible rfl) | (simp [apply_ite State.mem]; done) | split | (rw [State.foldl_mem]) | intro))

@[simp] theorem State.pendSource_mem (s : State) (t : Trunk) (src : Nat) : (State.pendSource s t src).mem = s.mem := by
  unfold State.pendSource
  first
  | (simp [apply_ite State.mem]; done)
  | ((try dsimp only); repeat' (first | (with_reducible rfl) | (simp [apply_ite State.mem]; done) | split | (rw [State.foldl_mem]) | intro))

@[simp] theorem State.pendBoth_mem (s : State) (src : Nat) : (State.pendBoth s src).mem = s.mem := by
  unfold State.pendBoth
  first
  | (simp [apply_ite State.mem]; done)
  | ((try dsimp only); repeat' (first | (with_reducible rfl) | (simp [apply_ite State.mem]; done) | split | (rw [State.foldl_mem]) | intro))

@[simp] theorem State.evtActions_mem (s : State) (m : Nat) : (State.evtActions s m).mem = s.mem := by
  unfold State.evtActions
  first
  | (simp [apply_ite State.mem]; done)
  | ((try dsimp only); repeat' (first | (with_reducible rfl) | (simp [apply_ite State.mem]; done) | split | (rw [State.foldl_mem]) | intro))

@[simp] theorem State.evtFire_mem (s : State) (m : Nat) : (State.evtFire s m).mem = s.mem := by
  unfold State.evtFire
  first
  | (simp [apply_ite State.mem]; done)
  | ((try dsimp only); repeat' (first | (with_reducible rfl) | (simp [apply_ite State.mem]; done) | split | (rw [State.foldl_mem]) | intro))

@[simp] theorem State.evtArmOp_mem (s : State) (m : Nat) : (State.evtArmOp s m).mem = s.mem := by
  unfold State.evtArmOp
  first
  | (simp [apply_ite State.mem]; done)
  | ((try dsimp only); repeat' (first | (with_reducible rfl) | (simp [apply_ite State.mem]; done) | split | (rw [State.foldl_mem]) | intro))

@[simp] theorem State.evtDisarmOp_mem (s : State) (m : Nat) : (State.evtDisarmOp s m).mem = s.mem := by
  unfold State.evtDisarmOp
  first
  | (simp [apply_ite State.mem]; done)
  | ((try dsimp only); repeat' (first | (with_reducible rfl) | (simp [apply_ite State.mem]; done) | split | (rw [State.foldl_mem]) | intro))

@[simp] theorem State.evtBothOp_mem (s : State) (m : Nat) : (State.evtBothOp s m).mem = s.mem := by
  unfold State.evtBothOp
  first
  | (simp [apply_ite State.mem]; done)
  | ((try dsimp only); repeat' (first | (with_reducible rfl) | (simp [apply_ite State.mem]; done) | split | (rw [State.foldl_mem]) | intro))

@[simp] theorem State.mainsFollow_mem (s : State) (gap : Nat) : (State.mainsFollow s gap).mem = s.mem := by
  unfold State.mainsFollow
  first
  | (simp [apply_ite State.mem]; done)
  | ((try dsimp only); repeat' (first | (with_reducible rfl) | (simp [apply_ite State.mem]; done) | split | (rw [State.foldl_mem]) | intro))

@[simp] theorem State.mainsCross_mem (s : State) (volts : Nat) : (State.mainsCross s volts).mem = s.mem := by
  unfold State.mainsCross
  first
  | (simp [apply_ite State.mem]; done)
  | ((try dsimp only); repeat' (first | (with_reducible rfl) | (simp [apply_ite State.mem]; done) | split | (rw [State.foldl_mem]) | intro))

@[simp] theorem State.putQb_mem (s : State) (k : Nat) (q : QbSt) : (State.putQb s k q).mem = s.mem := by
  unfold State.putQb
  first
  | (simp [apply_ite State.mem]; done)
  | ((try dsimp only); repeat' (first | (with_reducible rfl) | (simp [apply_ite State.mem]; done) | split | (rw [State.foldl_mem]) | intro))

@[simp] theorem State.qbPush_mem (s : State) (k : Nat) (l : List QbEntry) : (State.qbPush s k l).mem = s.mem := by
  unfold State.qbPush
  first
  | (simp [apply_ite State.mem]; done)
  | ((try dsimp only); repeat' (first | (with_reducible rfl) | (simp [apply_ite State.mem]; done) | split | (rw [State.foldl_mem]) | intro))

@[simp] theorem State.qbDrop_mem (s : State) (k : Nat) (n : Nat) : (State.qbDrop s k n).mem = s.mem := by
  unfold State.qbDrop
  first
  | (simp [apply_ite State.mem]; done)
  | ((try dsimp only); repeat' (first | (with_reducible rfl) | (simp [apply_ite State.mem]; done) | split | (rw [State.foldl_mem]) | intro))

@[simp] theorem State.qbPushAt_mem (s : State) (k : Nat) (i : Nat) (l : List QbEntry) : (State.qbPushAt s k i l).mem = s.mem := by
  unfold State.qbPushAt
  first
  | (simp [apply_ite State.mem]; done)
  | ((try dsimp only); repeat' (first | (with_reducible rfl) | (simp [apply_ite State.mem]; done) | split | (rw [State.foldl_mem]) | intro))

@[simp] theorem State.qbBack_mem (s : State) (k : Nat) (l : List QbEntry) : (State.qbBack s k l).mem = s.mem := by
  unfold State.qbBack
  first
  | (simp [apply_ite State.mem]; done)
  | ((try dsimp only); repeat' (first | (with_reducible rfl) | (simp [apply_ite State.mem]; done) | split | (rw [State.foldl_mem]) | intro))

@[simp] theorem State.qbWriteOp_mem (s : State) (k : Nat) (e : QbEntry) : (State.qbWriteOp s k e).mem = s.mem := by
  unfold State.qbWriteOp
  first
  | (simp [apply_ite State.mem]; done)
  | ((try dsimp only); repeat' (first | (with_reducible rfl) | (simp [apply_ite State.mem]; done) | split | (rw [State.foldl_mem]) | intro))

@[simp] theorem State.qbUnstall_mem (s : State) (k : Nat) : (State.qbUnstall s k).mem = s.mem := by
  unfold State.qbUnstall
  first
  | (simp [apply_ite State.mem]; done)
  | ((try dsimp only); repeat' (first | (with_reducible rfl) | (simp [apply_ite State.mem]; done) | split | (rw [State.foldl_mem]) | intro))

@[simp] theorem State.qbReadOp_mem (s : State) (k : Nat) : (State.qbReadOp s k).mem = s.mem := by
  unfold State.qbReadOp
  first
  | (simp [apply_ite State.mem]; done)
  | ((try dsimp only); repeat' (first | (with_reducible rfl) | (simp [apply_ite State.mem]; done) | split | (rw [State.foldl_mem]) | intro))

@[simp] theorem State.qbStaleOp_mem (s : State) (k : Nat) : (State.qbStaleOp s k).mem = s.mem := by
  unfold State.qbStaleOp
  first
  | (simp [apply_ite State.mem]; done)
  | ((try dsimp only); repeat' (first | (with_reducible rfl) | (simp [apply_ite State.mem]; done) | split | (rw [State.foldl_mem]) | intro))

@[simp] theorem State.safetyLaunched_mem (s : State) (rec : Nat) : (State.safetyLaunched s rec).mem = s.mem := by
  unfold State.safetyLaunched
  first
  | (simp [apply_ite State.mem]; done)
  | ((try dsimp only); repeat' (first | (with_reducible rfl) | (simp [apply_ite State.mem]; done) | split | (rw [State.foldl_mem]) | intro))

@[simp] theorem State.startCmd_mem (s : State) (c : Nat) (tag : Nat) (op : Nat) (replyErr : Bool) : (State.startCmd s c tag op replyErr).mem = s.mem := by
  unfold State.startCmd
  first
  | (simp [apply_ite State.mem]; done)
  | ((try dsimp only); repeat' (first | (with_reducible rfl) | (simp [apply_ite State.mem]; done) | split | (rw [State.foldl_mem]) | intro))

@[simp] theorem State.done_mem (s : State) (h : StemHdr) (op : Nat) (code : Nat) : (State.done s h op code).mem = s.mem := by
  unfold State.done
  first
  | (simp [apply_ite State.mem]; done)
  | ((try dsimp only); repeat' (first | (with_reducible rfl) | (simp [apply_ite State.mem]; done) | split | (rw [State.foldl_mem]) | intro))

@[simp] theorem State.refuse_mem (s : State) (h : StemHdr) (op : Nat) (code : Nat) : (State.refuse s h op code).mem = s.mem := by
  unfold State.refuse
  first
  | (simp [apply_ite State.mem]; done)
  | ((try dsimp only); repeat' (first | (with_reducible rfl) | (simp [apply_ite State.mem]; done) | split | (rw [State.foldl_mem]) | intro))

@[simp] theorem State.stemCmd_mem (s : State) (h : StemHdr) (op : Nat) (len : Nat) (read : Bool) (i : Instr) (f : State → State) (hf : ∀ x0, (f x0).mem = x0.mem) : (State.stemCmd s h op len read i f).mem = s.mem := by
  unfold State.stemCmd
  first
  | (simp [apply_ite State.mem, hf]; done)
  | ((try dsimp only); repeat' (first | (with_reducible rfl) | (simp [apply_ite State.mem, hf]; done) | split | (rw [State.foldl_mem]) | intro))

@[simp] theorem State.stopTick_mem (s : State) : (State.stopTick s).mem = s.mem := by
  unfold State.stopTick
  first
  | (simp [apply_ite State.mem]; done)
  | ((try dsimp only); repeat' (first | (with_reducible rfl) | (simp [apply_ite State.mem]; done) | split | (rw [State.foldl_mem]) | intro))

@[simp] theorem State.stemTick_mem (s : State) : (State.stemTick s).mem = s.mem := by
  unfold State.stemTick
  first
  | (simp [apply_ite State.mem]; done)
  | ((try dsimp only); repeat' (first | (with_reducible rfl) | (simp [apply_ite State.mem]; done) | split | (rw [State.foldl_mem]) | intro))

@[simp] theorem State.chanDrop_mem (s : State) (c : Nat) : (State.chanDrop s c).mem = s.mem := by
  unfold State.chanDrop
  first
  | (simp [apply_ite State.mem]; done)
  | ((try dsimp only); repeat' (first | (with_reducible rfl) | (simp [apply_ite State.mem]; done) | split | (rw [State.foldl_mem]) | intro))

@[simp] theorem State.chunkIn_mem (s : State) (h : StemHdr) (op : Nat) (c : Chunk) (take : List Byte → State → State) (htake : ∀ x0 x1, (take x0 x1).mem = x1.mem) : (State.chunkIn s h op c take).mem = s.mem := by
  unfold State.chunkIn
  first
  | (simp [apply_ite State.mem, htake]; done)
  | ((try dsimp only); repeat' (first | (with_reducible rfl) | (simp [apply_ite State.mem, htake]; done) | split | (rw [State.foldl_mem]) | intro))

@[simp] theorem State.watchOp_mem (s : State) (h : StemHdr) (mask : Nat) (expected : Nat) (timeout : Nat) : (State.watchOp s h mask expected timeout).mem = s.mem := by
  unfold State.watchOp
  first
  | (simp [apply_ite State.mem]; done)
  | ((try dsimp only); repeat' (first | (with_reducible rfl) | (simp [apply_ite State.mem]; done) | split | (rw [State.foldl_mem]) | intro))

@[simp] theorem State.watchExpire_mem (s : State) (c : Nat) : (State.watchExpire s c).mem = s.mem := by
  unfold State.watchExpire
  first
  | (simp [apply_ite State.mem]; done)
  | ((try dsimp only); repeat' (first | (with_reducible rfl) | (simp [apply_ite State.mem]; done) | split | (rw [State.foldl_mem]) | intro))

@[simp] theorem State.attnClear_mem (s : State) (c : Nat) (mask : Nat) : (State.attnClear s c mask).mem = s.mem := by
  unfold State.attnClear
  first
  | (simp [apply_ite State.mem]; done)
  | ((try dsimp only); repeat' (first | (with_reducible rfl) | (simp [apply_ite State.mem]; done) | split | (rw [State.foldl_mem]) | intro))

@[simp] theorem State.ringOn_mem (s : State) (r : Nat) : (State.ringOn s r).mem = s.mem := by
  unfold State.ringOn
  first
  | (simp [apply_ite State.mem]; done)
  | ((try dsimp only); repeat' (first | (with_reducible rfl) | (simp [apply_ite State.mem]; done) | split | (rw [State.foldl_mem]) | intro))

@[simp] theorem State.ringOff_mem (s : State) (r : Nat) : (State.ringOff s r).mem = s.mem := by
  unfold State.ringOff
  first
  | (simp [apply_ite State.mem]; done)
  | ((try dsimp only); repeat' (first | (with_reducible rfl) | (simp [apply_ite State.mem]; done) | split | (rw [State.foldl_mem]) | intro))

@[simp] theorem State.doorbell_mem (s : State) (r : Nat) (count : Nat) (err : Bool) : (State.doorbell s r count err).mem = s.mem := by
  unfold State.doorbell
  first
  | (simp [apply_ite State.mem]; done)
  | ((try dsimp only); repeat' (first | (with_reducible rfl) | (simp [apply_ite State.mem]; done) | split | (rw [State.foldl_mem]) | intro))

@[simp] theorem State.putSession_mem (s : State) (k : Nat) (x : Session) : (State.putSession s k x).mem = s.mem := by
  unfold State.putSession
  first
  | (simp [apply_ite State.mem]; done)
  | ((try dsimp only); repeat' (first | (with_reducible rfl) | (simp [apply_ite State.mem]; done) | split | (rw [State.foldl_mem]) | intro))

@[simp] theorem State.datagram_mem (s : State) (via : Nat) (peer : Nat) (port : Nat) (tag : Nat) (csumZero : Bool) (lengthOk : Bool) : (State.datagram s via peer port tag csumZero lengthOk).mem = s.mem := by
  unfold State.datagram
  first
  | (simp [apply_ite State.mem]; done)
  | ((try dsimp only); repeat' (first | (with_reducible rfl) | (simp [apply_ite State.mem]; done) | split | (rw [State.foldl_mem]) | intro))

@[simp] theorem State.sessionEnd_mem (s : State) (k : Nat) : (State.sessionEnd s k).mem = s.mem := by
  unfold State.sessionEnd
  first
  | (simp [apply_ite State.mem]; done)
  | ((try dsimp only); repeat' (first | (with_reducible rfl) | (simp [apply_ite State.mem]; done) | split | (rw [State.foldl_mem]) | intro))

@[simp] theorem State.winWrite_mem (s : State) (k : Nat) (v : Word) : (State.winWrite s k v).mem = s.mem := by
  unfold State.winWrite
  first
  | (simp [apply_ite State.mem]; done)
  | ((try dsimp only); repeat' (first | (with_reducible rfl) | (simp [apply_ite State.mem]; done) | split | (rw [State.foldl_mem]) | intro))

@[simp] theorem State.e131Stamp_mem (s : State) (rec : Nat) (p : List Byte) : (State.e131Stamp s rec p).2.mem = s.mem := by
  unfold State.e131Stamp
  first
  | (simp [apply_ite State.mem]; done)
  | ((try dsimp only); repeat' (first | (with_reducible rfl) | (simp [apply_ite State.mem]; done) | split | (rw [State.foldl_mem]) | (rw [State.foldl_snd_mem]) | intro))

@[simp] theorem State.e131Rx_mem (s : State) (univ : Nat) (cid : Nat) (priority : Nat) (sync : Nat) (slots : Option (List Byte)) (checks : Bool) : (State.e131Rx s univ cid priority sync slots checks).mem = s.mem := by
  unfold State.e131Rx
  first
  | (simp [apply_ite State.mem]; done)
  | ((try dsimp only); repeat' (first | (with_reducible rfl) | (simp [apply_ite State.mem]; done) | split | (rw [State.foldl_mem]) | intro))

@[simp] theorem State.e131Lost_mem (s : State) (univ : Nat) (cid : Nat) : (State.e131Lost s univ cid).mem = s.mem := by
  unfold State.e131Lost
  first
  | (simp [apply_ite State.mem]; done)
  | ((try dsimp only); repeat' (first | (with_reducible rfl) | (simp [apply_ite State.mem]; done) | split | (rw [State.foldl_mem]) | intro))

@[simp] theorem State.e131Capture_mem (s : State) : (State.e131Capture s).mem = s.mem := by
  unfold State.e131Capture
  first
  | (simp [apply_ite State.mem]; done)
  | ((try dsimp only); repeat' (first | (with_reducible rfl) | (simp [apply_ite State.mem]; done) | split | (rw [State.foldl_mem]) | (rw [State.foldl_snd_mem]) | intro))

@[simp] theorem State.qbFollow_mem (s : State) (k : Nat) (old : List (List QbEntry)) (new : List (List QbEntry)) : (State.qbFollow s k old new).mem = s.mem := by
  unfold State.qbFollow
  first
  | (simp [apply_ite State.mem]; done)
  | ((try dsimp only); repeat' (first | (with_reducible rfl) | (simp [apply_ite State.mem]; done) | split | (rw [State.foldl_mem]) | intro))

@[simp] theorem State.setPort_mem (s : State) (n : Nat) (p : PortSt) : (State.setPort s n p).mem = s.mem := by
  unfold State.setPort
  first
  | (simp [apply_ite State.mem]; done)
  | ((try dsimp only); repeat' (first | (with_reducible rfl) | (simp [apply_ite State.mem]; done) | split | (rw [State.foldl_mem]) | intro))

@[simp] theorem State.putPort_mem (s : State) (n : Nat) (p : PortSt) : (State.putPort s n p).mem = s.mem := by
  unfold State.putPort
  first
  | (simp [apply_ite State.mem]; done)
  | ((try dsimp only); repeat' (first | (with_reducible rfl) | (simp [apply_ite State.mem]; done) | split | (rw [State.foldl_mem]) | intro))

@[simp] theorem State.bump64_mem (s : State) (lo : Nat) (hi : Nat) (n : Nat) : (State.bump64 s lo hi n).mem = s.mem := by
  unfold State.bump64
  first
  | (simp [apply_ite State.mem]; done)
  | ((try dsimp only); repeat' (first | (with_reducible rfl) | (simp [apply_ite State.mem]; done) | split | (rw [State.foldl_mem]) | intro))

@[simp] theorem State.dropBit_mem (s : State) (n : Nat) : (State.dropBit s n).mem = s.mem := by
  unfold State.dropBit
  first
  | (simp [apply_ite State.mem]; done)
  | ((try dsimp only); repeat' (first | (with_reducible rfl) | (simp [apply_ite State.mem]; done) | split | (rw [State.foldl_mem]) | intro))

@[simp] theorem State.txCount_mem (s : State) (n : Nat) (len : Nat) : (State.txCount s n len).mem = s.mem := by
  unfold State.txCount
  first
  | (simp [apply_ite State.mem]; done)
  | ((try dsimp only); repeat' (first | (with_reducible rfl) | (simp [apply_ite State.mem]; done) | split | (rw [State.foldl_mem]) | intro))

@[simp] theorem State.sendPause_mem (s : State) (n : Nat) (time : Nat) : (State.sendPause s n time).mem = s.mem := by
  unfold State.sendPause
  first
  | (simp [apply_ite State.mem]; done)
  | ((try dsimp only); repeat' (first | (with_reducible rfl) | (simp [apply_ite State.mem]; done) | split | (rw [State.foldl_mem]) | intro))

@[simp] theorem State.pauseOn_mem (s : State) (i : Nat) (e : Nat) : (State.pauseOn s i e).mem = s.mem := by
  unfold State.pauseOn
  first
  | (simp [apply_ite State.mem]; done)
  | ((try dsimp only); repeat' (first | (with_reducible rfl) | (simp [apply_ite State.mem]; done) | split | (rw [State.foldl_mem]) | intro))

@[simp] theorem State.pauseOff_mem (s : State) (e : Nat) : (State.pauseOff s e).mem = s.mem := by
  unfold State.pauseOff
  first
  | (simp [apply_ite State.mem]; done)
  | ((try dsimp only); repeat' (first | (with_reducible rfl) | (simp [apply_ite State.mem]; done) | split | (rw [State.foldl_mem]) | intro))

@[simp] theorem State.congestion_mem (s : State) (n : Nat) : (State.congestion s n).mem = s.mem := by
  unfold State.congestion
  first
  | (simp [apply_ite State.mem]; done)
  | ((try dsimp only); repeat' (first | (with_reducible rfl) | (simp [apply_ite State.mem]; done) | split | (rw [State.foldl_mem]) | intro))

@[simp] theorem State.enqueueEth_mem (s : State) (n : Nat) (f : OutFrame) : (State.enqueueEth s n f).mem = s.mem := by
  unfold State.enqueueEth
  first
  | (simp [apply_ite State.mem]; done)
  | ((try dsimp only); repeat' (first | (with_reducible rfl) | (simp [apply_ite State.mem]; done) | split | (rw [State.foldl_mem]) | intro))

@[simp] theorem State.enqueueUntimed_mem (s : State) (n : Nat) (u : Untimed) : (State.enqueueUntimed s n u).mem = s.mem := by
  unfold State.enqueueUntimed
  first
  | (simp [apply_ite State.mem]; done)
  | ((try dsimp only); repeat' (first | (with_reducible rfl) | (simp [apply_ite State.mem]; done) | split | (rw [State.foldl_mem]) | intro))

@[simp] theorem State.sendFrame_mem (s : State) (n : Nat) (l : List Byte) (stamp : optParam (Option (Nat × Nat × Nat)) none) : (State.sendFrame s n l stamp).mem = s.mem := by
  unfold State.sendFrame
  first
  | (simp [apply_ite State.mem]; done)
  | ((try dsimp only); repeat' (first | (with_reducible rfl) | (simp [apply_ite State.mem]; done) | split | (rw [State.foldl_mem]) | intro))

@[simp] theorem State.sendGrove_mem (s : State) (type : Nat) (dst : Nat) (data : List Byte) : (State.sendGrove s type dst data).mem = s.mem := by
  unfold State.sendGrove
  first
  | (simp [apply_ite State.mem]; done)
  | ((try dsimp only); repeat' (first | (with_reducible rfl) | (simp [apply_ite State.mem]; done) | split | (rw [State.foldl_mem]) | intro))

@[simp] theorem State.sendRing_mem (s : State) (port : Nat) (f : OutFrame) : (State.sendRing s port f).mem = s.mem := by
  unfold State.sendRing
  first
  | (simp [apply_ite State.mem]; done)
  | ((try dsimp only); repeat' (first | (with_reducible rfl) | (simp [apply_ite State.mem]; done) | split | (rw [State.foldl_mem]) | intro))

@[simp] theorem State.moveRing_mem (s : State) (n : Nat) (f : OutFrame) : (State.moveRing s n f).mem = s.mem := by
  unfold State.moveRing
  first
  | (simp [apply_ite State.mem]; done)
  | ((try dsimp only); repeat' (first | (with_reducible rfl) | (simp [apply_ite State.mem]; done) | split | (rw [State.foldl_mem]) | intro))

@[simp] theorem State.enqueueTimed_mem (s : State) (n : Nat) (f : OutFrame) : (State.enqueueTimed s n f).mem = s.mem := by
  unfold State.enqueueTimed
  first
  | (simp [apply_ite State.mem]; done)
  | ((try dsimp only); repeat' (first | (with_reducible rfl) | (simp [apply_ite State.mem]; done) | split | (rw [State.foldl_mem]) | intro))

@[simp] theorem State.tcCorrect_mem (s : State) (e : Nat) (u : Untimed) : (State.tcCorrect s e u).2.mem = s.mem := by
  unfold State.tcCorrect
  first
  | (simp [apply_ite State.mem]; done)
  | ((try dsimp only); repeat' (first | (with_reducible rfl) | (simp [apply_ite State.mem]; done) | split | (rw [State.foldl_mem]) | (rw [State.foldl_snd_mem]) | intro))

@[simp] theorem State.markDue_mem (s : State) (n : Nat) (held : Bool) (own : Option Nat) : (State.markDue s n held own).mem = s.mem := by
  unfold State.markDue
  first
  | (simp [apply_ite State.mem]; done)
  | ((try dsimp only); repeat' (first | (with_reducible rfl) | (simp [apply_ite State.mem]; done) | split | (rw [State.foldl_mem]) | intro))

@[simp] theorem State.timedBytes_mem (s : State) (f : OutFrame) : (State.timedBytes s f).2.mem = s.mem := by
  unfold State.timedBytes
  first
  | (simp [apply_ite State.mem]; done)
  | ((try dsimp only); repeat' (first | (with_reducible rfl) | (simp [apply_ite State.mem]; done) | split | (rw [State.foldl_mem]) | (rw [State.foldl_snd_mem]) | intro))

@[simp] theorem State.startTimed_mem (s : State) (n : Nat) (f : OutFrame) (rest : List OutFrame) : (State.startTimed s n f rest).mem = s.mem := by
  unfold State.startTimed
  first
  | (simp [apply_ite State.mem]; done)
  | ((try dsimp only); repeat' (first | (with_reducible rfl) | (simp [apply_ite State.mem]; done) | split | (rw [State.foldl_mem]) | intro))

@[simp] theorem State.stampOut_mem (s : State) (n : Nat) (u : Untimed) : (State.stampOut s n u).2.mem = s.mem := by
  unfold State.stampOut
  first
  | (simp [apply_ite State.mem]; done)
  | ((try dsimp only); repeat' (first | (with_reducible rfl) | (simp [apply_ite State.mem]; done) | split | (rw [State.foldl_mem]) | (rw [State.foldl_snd_mem]) | intro))

@[simp] theorem State.startUntimed_mem (s : State) (n : Nat) (u : Untimed) (rest : List Untimed) : (State.startUntimed s n u rest).mem = s.mem := by
  unfold State.startUntimed
  first
  | (simp [apply_ite State.mem]; done)
  | ((try dsimp only); repeat' (first | (with_reducible rfl) | (simp [apply_ite State.mem]; done) | split | (rw [State.foldl_mem]) | intro))

@[simp] theorem State.countDefer_mem (s : State) (n : Nat) : (State.countDefer s n).mem = s.mem := by
  unfold State.countDefer
  first
  | (simp [apply_ite State.mem]; done)
  | ((try dsimp only); repeat' (first | (with_reducible rfl) | (simp [apply_ite State.mem]; done) | split | (rw [State.foldl_mem]) | intro))

@[simp] theorem State.tryUntimed_mem (s : State) (n : Nat) : (State.tryUntimed s n).mem = s.mem := by
  unfold State.tryUntimed
  first
  | (simp [apply_ite State.mem]; done)
  | ((try dsimp only); repeat' (first | (with_reducible rfl) | (simp [apply_ite State.mem]; done) | split | (rw [State.foldl_mem]) | intro))

@[simp] theorem State.chooseNext_mem (s : State) (n : Nat) : (State.chooseNext s n).mem = s.mem := by
  unfold State.chooseNext
  first
  | (simp [apply_ite State.mem]; done)
  | ((try dsimp only); repeat' (first | (with_reducible rfl) | (simp [apply_ite State.mem]; done) | split | (rw [State.foldl_mem]) | intro))

@[simp] theorem State.launchEth_mem (s : State) (n : Nat) : (State.launchEth s n).mem = s.mem := by
  unfold State.launchEth
  first
  | (simp [apply_ite State.mem]; done)
  | ((try dsimp only); repeat' (first | (with_reducible rfl) | (simp [apply_ite State.mem]; done) | split | (rw [State.foldl_mem]) | intro))

@[simp] theorem State.dropExpired_mem (s : State) (n : Nat) : (State.dropExpired s n).mem = s.mem := by
  unfold State.dropExpired
  first
  | (simp [apply_ite State.mem]; done)
  | ((try dsimp only); repeat' (first | (with_reducible rfl) | (simp [apply_ite State.mem]; done) | split | (rw [State.foldl_mem]) | intro))

@[simp] theorem State.cutLeaves_mem (s : State) (n : Nat) (t : TxSt) : (State.cutLeaves s n t).mem = s.mem := by
  unfold State.cutLeaves
  first
  | (simp [apply_ite State.mem]; done)
  | ((try dsimp only); repeat' (first | (with_reducible rfl) | (simp [apply_ite State.mem]; done) | split | (rw [State.foldl_mem]) | intro))

@[simp] theorem State.stompEnds_mem (s : State) (n : Nat) (t : TxSt) : (State.stompEnds s n t).mem = s.mem := by
  unfold State.stompEnds
  first
  | (simp [apply_ite State.mem]; done)
  | ((try dsimp only); repeat' (first | (with_reducible rfl) | (simp [apply_ite State.mem]; done) | split | (rw [State.foldl_mem]) | intro))

@[simp] theorem State.txEnd_mem (s : State) (n : Nat) : (State.txEnd s n).mem = s.mem := by
  unfold State.txEnd
  first
  | (simp [apply_ite State.mem]; done)
  | ((try dsimp only); repeat' (first | (with_reducible rfl) | (simp [apply_ite State.mem]; done) | split | (rw [State.foldl_mem]) | intro))

@[simp] theorem State.pauseEnds_mem (s : State) (n : Nat) : (State.pauseEnds s n).mem = s.mem := by
  unfold State.pauseEnds
  first
  | (simp [apply_ite State.mem]; done)
  | ((try dsimp only); repeat' (first | (with_reducible rfl) | (simp [apply_ite State.mem]; done) | split | (rw [State.foldl_mem]) | intro))

@[simp] theorem State.pauseAct_mem (s : State) (n : Nat) (time : Nat) : (State.pauseAct s n time).mem = s.mem := by
  unfold State.pauseAct
  first
  | (simp [apply_ite State.mem]; done)
  | ((try dsimp only); repeat' (first | (with_reducible rfl) | (simp [apply_ite State.mem]; done) | split | (rw [State.foldl_mem]) | intro))

@[simp] theorem State.pauseExpire_mem (s : State) (n : Nat) : (State.pauseExpire s n).mem = s.mem := by
  unfold State.pauseExpire
  first
  | (simp [apply_ite State.mem]; done)
  | ((try dsimp only); repeat' (first | (with_reducible rfl) | (simp [apply_ite State.mem]; done) | split | (rw [State.foldl_mem]) | intro))

@[simp] theorem State.pauseTrip_mem (s : State) (n : Nat) : (State.pauseTrip s n).mem = s.mem := by
  unfold State.pauseTrip
  first
  | (simp [apply_ite State.mem]; done)
  | ((try dsimp only); repeat' (first | (with_reducible rfl) | (simp [apply_ite State.mem]; done) | split | (rw [State.foldl_mem]) | intro))

@[simp] theorem State.cutRest_mem (s : State) (n : Nat) (bad : Bool) : (State.cutRest s n bad).mem = s.mem := by
  unfold State.cutRest
  first
  | (simp [apply_ite State.mem]; done)
  | ((try dsimp only); repeat' (first | (with_reducible rfl) | (simp [apply_ite State.mem]; done) | split | (rw [State.foldl_mem]) | intro))

@[simp] theorem State.beginFallback_mem (s : State) (n : Nat) : (State.beginFallback s n).mem = s.mem := by
  unfold State.beginFallback
  first
  | (simp [apply_ite State.mem]; done)
  | ((try dsimp only); repeat' (first | (with_reducible rfl) | (simp [apply_ite State.mem]; done) | split | (rw [State.foldl_mem]) | intro))

@[simp] theorem State.linkTo_mem (s : State) (n : Nat) (up : Bool) : (State.linkTo s n up).mem = s.mem := by
  unfold State.linkTo
  first
  | (simp [apply_ite State.mem]; done)
  | ((try dsimp only); repeat' (first | (with_reducible rfl) | (simp [apply_ite State.mem]; done) | split | (rw [State.foldl_mem]) | intro))

@[simp] theorem State.linkApply_mem (s : State) (n : Nat) : (State.linkApply s n).mem = s.mem := by
  unfold State.linkApply
  first
  | (simp [apply_ite State.mem]; done)
  | ((try dsimp only); repeat' (first | (with_reducible rfl) | (simp [apply_ite State.mem]; done) | split | (rw [State.foldl_mem]) | intro))

@[simp] theorem State.disableWrite_mem (s : State) (n : Nat) (off : Bool) : (State.disableWrite s n off).mem = s.mem := by
  unfold State.disableWrite
  first
  | (simp [apply_ite State.mem]; done)
  | ((try dsimp only); repeat' (first | (with_reducible rfl) | (simp [apply_ite State.mem]; done) | split | (rw [State.foldl_mem]) | intro))

@[simp] theorem State.rearmWrite_mem (s : State) (n : Nat) : (State.rearmWrite s n).mem = s.mem := by
  unfold State.rearmWrite
  first
  | (simp [apply_ite State.mem]; done)
  | ((try dsimp only); repeat' (first | (with_reducible rfl) | (simp [apply_ite State.mem]; done) | split | (rw [State.foldl_mem]) | intro))

@[simp] theorem State.swFlush_mem (s : State) : (State.swFlush s).mem = s.mem := by
  unfold State.swFlush
  first
  | (simp [apply_ite State.mem]; done)
  | ((try dsimp only); repeat' (first | (with_reducible rfl) | (simp [apply_ite State.mem]; done) | split | (rw [State.foldl_mem]) | intro))

@[simp] theorem State.learn_mem (s : State) (g : Nat) (a : Nat) (n : Nat) : (State.learn s g a n).mem = s.mem := by
  unfold State.learn
  first
  | (simp [apply_ite State.mem]; done)
  | ((try dsimp only); repeat' (first | (with_reducible rfl) | (simp [apply_ite State.mem]; done) | split | (rw [State.foldl_mem]) | intro))

@[simp] theorem State.blockThreshold_mem (s : State) (n : Nat) (e : Nat) : (State.blockThreshold s n e).mem = s.mem := by
  unfold State.blockThreshold
  first
  | (simp [apply_ite State.mem]; done)
  | ((try dsimp only); repeat' (first | (with_reducible rfl) | (simp [apply_ite State.mem]; done) | split | (rw [State.foldl_mem]) | intro))

@[simp] theorem State.forward_mem (s : State) (n : Nat) (f : EthFrame) (e : Nat) : (State.forward s n f e).mem = s.mem := by
  unfold State.forward
  first
  | (simp [apply_ite State.mem]; done)
  | ((try dsimp only); repeat' (first | (with_reducible rfl) | (simp [apply_ite State.mem]; done) | split | (rw [State.foldl_mem]) | intro))

@[simp] theorem State.ringEnter_mem (s : State) (n : Nat) (f : EthFrame) : (State.ringEnter s n f).mem = s.mem := by
  unfold State.ringEnter
  first
  | (simp [apply_ite State.mem]; done)
  | ((try dsimp only); repeat' (first | (with_reducible rfl) | (simp [apply_ite State.mem]; done) | split | (rw [State.foldl_mem]) | intro))

@[simp] theorem State.ringTake_mem (s : State) (n : Nat) : (State.ringTake s n).mem = s.mem := by
  unfold State.ringTake
  first
  | (simp [apply_ite State.mem]; done)
  | ((try dsimp only); repeat' (first | (with_reducible rfl) | (simp [apply_ite State.mem]; done) | split | (rw [State.foldl_mem]) | intro))

@[simp] theorem State.qbReadNext_mem (s : State) (k : Nat) : (State.qbReadNext s k).mem = s.mem := by
  unfold State.qbReadNext
  first
  | (simp [apply_ite State.mem]; done)
  | ((try dsimp only); repeat' (first | (with_reducible rfl) | (simp [apply_ite State.mem]; done) | split | (rw [State.foldl_mem]) | intro))

@[simp] theorem State.switchFrame_mem (s : State) (n : Nat) (f : EthFrame) : (State.switchFrame s n f).mem = s.mem := by
  unfold State.switchFrame
  first
  | (simp [apply_ite State.mem]; done)
  | ((try dsimp only); repeat' (first | (with_reducible rfl) | (simp [apply_ite State.mem]; done) | split | (rw [State.foldl_mem]) | intro))

@[simp] theorem State.fecCount_mem (s : State) (n : Nat) (f : EthFrame) : (State.fecCount s n f).mem = s.mem := by
  unfold State.fecCount
  first
  | (simp [apply_ite State.mem]; done)
  | ((try dsimp only); repeat' (first | (with_reducible rfl) | (simp [apply_ite State.mem]; done) | split | (rw [State.foldl_mem]) | intro))

@[simp] theorem State.receive_mem (s : State) (n : Nat) (f : EthFrame) : (State.receive s n f).mem = s.mem := by
  unfold State.receive
  first
  | (simp [apply_ite State.mem]; done)
  | ((try dsimp only); repeat' (first | (with_reducible rfl) | (simp [apply_ite State.mem]; done) | split | (rw [State.foldl_mem]) | intro))

@[simp] theorem State.cutStart_mem (s : State) (i : Nat) (e : Nat) (f : EthFrame) (got : Nat) : (State.cutStart s i e f got).mem = s.mem := by
  unfold State.cutStart
  first
  | (simp [apply_ite State.mem]; done)
  | ((try dsimp only); repeat' (first | (with_reducible rfl) | (simp [apply_ite State.mem]; done) | split | (rw [State.foldl_mem]) | intro))

@[simp] theorem State.e131Send_mem (s : State) (rec : Nat) (p : List Byte) : (State.e131Send s rec p).mem = s.mem := by
  unfold State.e131Send
  first
  | (simp [apply_ite State.mem]; done)
  | ((try dsimp only); repeat' (first | (with_reducible rfl) | (simp [apply_ite State.mem]; done) | split | (rw [State.foldl_mem]) | intro))

@[simp] theorem State.e131RepeatOp_mem (s : State) (univ : Nat) : (State.e131RepeatOp s univ).mem = s.mem := by
  unfold State.e131RepeatOp
  first
  | (simp [apply_ite State.mem]; done)
  | ((try dsimp only); repeat' (first | (with_reducible rfl) | (simp [apply_ite State.mem]; done) | split | (rw [State.foldl_mem]) | intro))

@[simp] theorem State.e131Terminate_mem (s : State) : (State.e131Terminate s).mem = s.mem := by
  unfold State.e131Terminate
  first
  | (simp [apply_ite State.mem]; done)
  | ((try dsimp only); repeat' (first | (with_reducible rfl) | (simp [apply_ite State.mem]; done) | split | (rw [State.foldl_mem]) | (rw [State.foldl_snd_mem]) | intro))

@[simp] theorem State.backoff_mem (s : State) (n : Nat) (k : Nat) : (State.backoff s n k).mem = s.mem := by
  unfold State.backoff
  first
  | (simp [apply_ite State.mem]; done)
  | ((try dsimp only); repeat' (first | (with_reducible rfl) | (simp [apply_ite State.mem]; done) | split | (rw [State.foldl_mem]) | intro))

@[simp] theorem State.unsend_mem (s : State) (n : Nat) (t : TxSt) (attempts : Nat) : (State.unsend s n t attempts).mem = s.mem := by
  unfold State.unsend
  first
  | (simp [apply_ite State.mem]; done)
  | ((try dsimp only); repeat' (first | (with_reducible rfl) | (simp [apply_ite State.mem]; done) | split | (rw [State.foldl_mem]) | intro))

@[simp] theorem State.t1sCollide_mem (s : State) (g : Nat) (bit : Nat) : (State.t1sCollide s g bit).mem = s.mem := by
  unfold State.t1sCollide
  first
  | (simp [apply_ite State.mem]; done)
  | ((try dsimp only); repeat' (first | (with_reducible rfl) | (simp [apply_ite State.mem]; done) | split | (rw [State.foldl_mem]) | intro))

@[simp] theorem State.t1sBackoffEnds_mem (s : State) (g : Nat) : (State.t1sBackoffEnds s g).mem = s.mem := by
  unfold State.t1sBackoffEnds
  first
  | (simp [apply_ite State.mem]; done)
  | ((try dsimp only); repeat' (first | (with_reducible rfl) | (simp [apply_ite State.mem]; done) | split | (rw [State.foldl_mem]) | intro))

@[simp] theorem State.t1sCarrierFalls_mem (s : State) (g : Nat) : (State.t1sCarrierFalls s g).mem = s.mem := by
  unfold State.t1sCarrierFalls
  first
  | (simp [apply_ite State.mem]; done)
  | ((try dsimp only); repeat' (first | (with_reducible rfl) | (simp [apply_ite State.mem]; done) | split | (rw [State.foldl_mem]) | intro))

@[simp] theorem State.sessionSend_mem (s : State) (f : Nat → List Byte → State → State) (k : Nat) (hf : ∀ x0 x1 x2, (f x0 x1 x2).mem = x2.mem) : (State.sessionSend s f k).mem = s.mem := by
  unfold State.sessionSend
  first
  | (simp [apply_ite State.mem, hf]; done)
  | ((try dsimp only); repeat' (first | (with_reducible rfl) | (simp [apply_ite State.mem, hf]; done) | split | (rw [State.foldl_mem]) | intro))

@[simp] theorem State.sessionOut_mem (s : State) (k : Nat) : (State.sessionOut s k).mem = s.mem := by
  unfold State.sessionOut
  first
  | (simp [apply_ite State.mem]; done)
  | ((try dsimp only); repeat' (first | (with_reducible rfl) | (simp [apply_ite State.mem]; done) | split | (rw [State.foldl_mem]) | intro))

@[simp] theorem State.sessionFlush_mem (s : State) : (State.sessionFlush s).mem = s.mem := by
  unfold State.sessionFlush
  first
  | (simp [apply_ite State.mem]; done)
  | ((try dsimp only); repeat' (first | (with_reducible rfl) | (simp [apply_ite State.mem]; done) | split | (rw [State.foldl_mem]) | intro))

@[simp] theorem State.putPtp_mem (s : State) (i : Nat) (x : PtpSt) : (State.putPtp s i x).mem = s.mem := by
  unfold State.putPtp
  first
  | (simp [apply_ite State.mem]; done)
  | ((try dsimp only); repeat' (first | (with_reducible rfl) | (simp [apply_ite State.mem]; done) | split | (rw [State.foldl_mem]) | intro))

@[simp] theorem State.setPtp_mem (s : State) (i : Nat) (v : Nat) : (State.setPtp s i v).mem = s.mem := by
  unfold State.setPtp
  first
  | (simp [apply_ite State.mem]; done)
  | ((try dsimp only); repeat' (first | (with_reducible rfl) | (simp [apply_ite State.mem]; done) | split | (rw [State.foldl_mem]) | intro))

@[simp] theorem State.useGm_mem (s : State) (i : Nat) (a : PtpAnnounce) : (State.useGm s i a).mem = s.mem := by
  unfold State.useGm
  first
  | (simp [apply_ite State.mem]; done)
  | ((try dsimp only); repeat' (first | (with_reducible rfl) | (simp [apply_ite State.mem]; done) | split | (rw [State.foldl_mem]) | intro))

@[simp] theorem State.ptpHoldover_mem (s : State) (i : Nat) : (State.ptpHoldover s i).mem = s.mem := by
  unfold State.ptpHoldover
  first
  | (simp [apply_ite State.mem]; done)
  | ((try dsimp only); repeat' (first | (with_reducible rfl) | (simp [apply_ite State.mem]; done) | split | (rw [State.foldl_mem]) | intro))

@[simp] theorem State.masterLock_mem (s : State) (i : Nat) : (State.masterLock s i).mem = s.mem := by
  unfold State.masterLock
  first
  | (simp [apply_ite State.mem]; done)
  | ((try dsimp only); repeat' (first | (with_reducible rfl) | (simp [apply_ite State.mem]; done) | split | (rw [State.foldl_mem]) | intro))

@[simp] theorem State.follow_mem (s : State) (i : Nat) (a : PtpAnnounce) : (State.follow s i a).mem = s.mem := by
  unfold State.follow
  first
  | (simp [apply_ite State.mem]; done)
  | ((try dsimp only); repeat' (first | (with_reducible rfl) | (simp [apply_ite State.mem]; done) | split | (rw [State.foldl_mem]) | intro))

@[simp] theorem State.lead_mem (s : State) (i : Nat) : (State.lead s i).mem = s.mem := by
  unfold State.lead
  first
  | (simp [apply_ite State.mem]; done)
  | ((try dsimp only); repeat' (first | (with_reducible rfl) | (simp [apply_ite State.mem]; done) | split | (rw [State.foldl_mem]) | intro))

@[simp] theorem State.standAside_mem (s : State) (i : Nat) (a : PtpAnnounce) : (State.standAside s i a).mem = s.mem := by
  unfold State.standAside
  first
  | (simp [apply_ite State.mem]; done)
  | ((try dsimp only); repeat' (first | (with_reducible rfl) | (simp [apply_ite State.mem]; done) | split | (rw [State.foldl_mem]) | intro))

@[simp] theorem State.bmca_mem (s : State) (i : Nat) : (State.bmca s i).mem = s.mem := by
  unfold State.bmca
  first
  | (simp [apply_ite State.mem]; done)
  | ((try dsimp only); repeat' (first | (with_reducible rfl) | (simp [apply_ite State.mem]; done) | split | (rw [State.foldl_mem]) | intro))

@[simp] theorem State.announceIn_mem (s : State) (i : Nat) (a : PtpAnnounce) : (State.announceIn s i a).mem = s.mem := by
  unfold State.announceIn
  first
  | (simp [apply_ite State.mem]; done)
  | ((try dsimp only); repeat' (first | (with_reducible rfl) | (simp [apply_ite State.mem]; done) | split | (rw [State.foldl_mem]) | intro))

@[simp] theorem State.announceLate_mem (s : State) (i : Nat) : (State.announceLate s i).mem = s.mem := by
  unfold State.announceLate
  first
  | (simp [apply_ite State.mem]; done)
  | ((try dsimp only); repeat' (first | (with_reducible rfl) | (simp [apply_ite State.mem]; done) | split | (rw [State.foldl_mem]) | intro))

@[simp] theorem State.syncLate_mem (s : State) (i : Nat) : (State.syncLate s i).mem = s.mem := by
  unfold State.syncLate
  first
  | (simp [apply_ite State.mem]; done)
  | ((try dsimp only); repeat' (first | (with_reducible rfl) | (simp [apply_ite State.mem]; done) | split | (rw [State.foldl_mem]) | intro))

@[simp] theorem State.servo_mem (s : State) (i : Nat) (o : Int) (t : Int) : (State.servo s i o t).mem = s.mem := by
  unfold State.servo
  first
  | (simp [apply_ite State.mem]; done)
  | ((try dsimp only); repeat' (first | (with_reducible rfl) | (simp [apply_ite State.mem]; done) | split | (rw [State.foldl_mem]) | intro))

@[simp] theorem State.syncSample_mem (s : State) (i : Nat) (t1 : Int) (t2 : Int) (c : Int) : (State.syncSample s i t1 t2 c).mem = s.mem := by
  unfold State.syncSample
  first
  | (simp [apply_ite State.mem]; done)
  | ((try dsimp only); repeat' (first | (with_reducible rfl) | (simp [apply_ite State.mem]; done) | split | (rw [State.foldl_mem]) | intro))

@[simp] theorem State.delaySample_mem (s : State) (i : Nat) (m : Int) : (State.delaySample s i m).mem = s.mem := by
  unfold State.delaySample
  first
  | (simp [apply_ite State.mem]; done)
  | ((try dsimp only); repeat' (first | (with_reducible rfl) | (simp [apply_ite State.mem]; done) | split | (rw [State.foldl_mem]) | intro))

@[simp] theorem State.syncIn_mem (s : State) (i : Nat) (m : PtpEvent) (sub : Nat) : (State.syncIn s i m sub).mem = s.mem := by
  unfold State.syncIn
  first
  | (simp [apply_ite State.mem]; done)
  | ((try dsimp only); repeat' (first | (with_reducible rfl) | (simp [apply_ite State.mem]; done) | split | (rw [State.foldl_mem]) | intro))

@[simp] theorem State.followIn_mem (s : State) (i : Nat) (m : PtpEvent) : (State.followIn s i m).mem = s.mem := by
  unfold State.followIn
  first
  | (simp [apply_ite State.mem]; done)
  | ((try dsimp only); repeat' (first | (with_reducible rfl) | (simp [apply_ite State.mem]; done) | split | (rw [State.foldl_mem]) | intro))

@[simp] theorem State.delayRespIn_mem (s : State) (i : Nat) (seq : Nat) (t4 : Int) (corr : Int) : (State.delayRespIn s i seq t4 corr).mem = s.mem := by
  unfold State.delayRespIn
  first
  | (simp [apply_ite State.mem]; done)
  | ((try dsimp only); repeat' (first | (with_reducible rfl) | (simp [apply_ite State.mem]; done) | split | (rw [State.foldl_mem]) | intro))

@[simp] theorem State.ptpSend_mem (s : State) (i : Nat) (kind : Nat) (seq : Nat) (flags : Nat) (log : Int) (body : List Byte) (stamp : Bool) : (State.ptpSend s i kind seq flags log body stamp).mem = s.mem := by
  unfold State.ptpSend
  first
  | (simp [apply_ite State.mem]; done)
  | ((try dsimp only); repeat' (first | (with_reducible rfl) | (simp [apply_ite State.mem]; done) | split | (rw [State.foldl_mem]) | intro))

@[simp] theorem State.pdelaySend_mem (s : State) (n : Nat) (kind : Nat) (seq : Nat) (body : List Byte) : (State.pdelaySend s n kind seq body).mem = s.mem := by
  unfold State.pdelaySend
  first
  | (simp [apply_ite State.mem]; done)
  | ((try dsimp only); repeat' (first | (with_reducible rfl) | (simp [apply_ite State.mem]; done) | split | (rw [State.foldl_mem]) | intro))

@[simp] theorem State.pdelayIn_mem (s : State) (port : Nat) (request : Bool) (src : Nat) (seq : Nat) (m : Int) : (State.pdelayIn s port request src seq m).mem = s.mem := by
  unfold State.pdelayIn
  first
  | (simp [apply_ite State.mem]; done)
  | ((try dsimp only); repeat' (first | (with_reducible rfl) | (simp [apply_ite State.mem]; done) | split | (rw [State.foldl_mem]) | intro))

@[simp] theorem State.announceOut_mem (s : State) (i : Nat) : (State.announceOut s i).mem = s.mem := by
  unfold State.announceOut
  first
  | (simp [apply_ite State.mem]; done)
  | ((try dsimp only); repeat' (first | (with_reducible rfl) | (simp [apply_ite State.mem]; done) | split | (rw [State.foldl_mem]) | intro))

@[simp] theorem State.syncOut_mem (s : State) (i : Nat) : (State.syncOut s i).mem = s.mem := by
  unfold State.syncOut
  first
  | (simp [apply_ite State.mem]; done)
  | ((try dsimp only); repeat' (first | (with_reducible rfl) | (simp [apply_ite State.mem]; done) | split | (rw [State.foldl_mem]) | intro))

@[simp] theorem State.delayReqOut_mem (s : State) (i : Nat) : (State.delayReqOut s i).mem = s.mem := by
  unfold State.delayReqOut
  first
  | (simp [apply_ite State.mem]; done)
  | ((try dsimp only); repeat' (first | (with_reducible rfl) | (simp [apply_ite State.mem]; done) | split | (rw [State.foldl_mem]) | intro))

@[simp] theorem State.delayRespOut_mem (s : State) (i : Nat) (src : Nat) (seq : Nat) (sub : Nat) : (State.delayRespOut s i src seq sub).mem = s.mem := by
  unfold State.delayRespOut
  first
  | (simp [apply_ite State.mem]; done)
  | ((try dsimp only); repeat' (first | (with_reducible rfl) | (simp [apply_ite State.mem]; done) | split | (rw [State.foldl_mem]) | intro))

@[simp] theorem State.pdelayTick_mem (s : State) : (State.pdelayTick s).mem = s.mem := by
  unfold State.pdelayTick
  first
  | (simp [apply_ite State.mem]; done)
  | ((try dsimp only); repeat' (first | (with_reducible rfl) | (simp [apply_ite State.mem]; done) | split | (rw [State.foldl_mem]) | intro))

@[simp] theorem State.ptpEnable_mem (s : State) (i : Nat) (on : Bool) : (State.ptpEnable s i on).mem = s.mem := by
  unfold State.ptpEnable
  first
  | (simp [apply_ite State.mem]; done)
  | ((try dsimp only); repeat' (first | (with_reducible rfl) | (simp [apply_ite State.mem]; done) | split | (rw [State.foldl_mem]) | intro))

@[simp] theorem State.ptpDiscard_mem (s : State) (i : Nat) : (State.ptpDiscard s i).mem = s.mem := by
  unfold State.ptpDiscard
  first
  | (simp [apply_ite State.mem]; done)
  | ((try dsimp only); repeat' (first | (with_reducible rfl) | (simp [apply_ite State.mem]; done) | split | (rw [State.foldl_mem]) | intro))

@[simp] theorem State.refEvent_mem (s : State) : (State.refEvent s).mem = s.mem := by
  unfold State.refEvent
  first
  | (simp [apply_ite State.mem]; done)
  | ((try dsimp only); repeat' (first | (with_reducible rfl) | (simp [apply_ite State.mem]; done) | split | (rw [State.foldl_mem]) | intro))

@[simp] theorem State.setTime_mem (s : State) (i : Nat) (sec : Nat) : (State.setTime s i sec).mem = s.mem := by
  unfold State.setTime
  first
  | (simp [apply_ite State.mem]; done)
  | ((try dsimp only); repeat' (first | (with_reducible rfl) | (simp [apply_ite State.mem]; done) | split | (rw [State.foldl_mem]) | intro))

@[simp] theorem State.ppsIn_mem (s : State) : (State.ppsIn s).mem = s.mem := by
  unfold State.ppsIn
  first
  | (simp [apply_ite State.mem]; done)
  | ((try dsimp only); repeat' (first | (with_reducible rfl) | (simp [apply_ite State.mem]; done) | split | (rw [State.foldl_mem]) | intro))

@[simp] theorem State.ppsLose_mem (s : State) : (State.ppsLose s).mem = s.mem := by
  unfold State.ppsLose
  first
  | (simp [apply_ite State.mem]; done)
  | ((try dsimp only); repeat' (first | (with_reducible rfl) | (simp [apply_ite State.mem]; done) | split | (rw [State.foldl_mem]) | intro))

@[simp] theorem State.setTod_mem (s : State) (i : Nat) (atPps : Bool) : (State.setTod s i atPps).mem = s.mem := by
  unfold State.setTod
  first
  | (simp [apply_ite State.mem]; done)
  | ((try dsimp only); repeat' (first | (with_reducible rfl) | (simp [apply_ite State.mem]; done) | split | (rw [State.foldl_mem]) | intro))

@[simp] theorem State.ppsOutEdge_mem (s : State) : (State.ppsOutEdge s).mem = s.mem := by
  unfold State.ppsOutEdge
  first
  | (simp [apply_ite State.mem]; done)
  | ((try dsimp only); repeat' (first | (with_reducible rfl) | (simp [apply_ite State.mem]; done) | split | (rw [State.foldl_mem]) | intro))

@[simp] theorem State.tenMLocks_mem (s : State) : (State.tenMLocks s).mem = s.mem := by
  unfold State.tenMLocks
  first
  | (simp [apply_ite State.mem]; done)
  | ((try dsimp only); repeat' (first | (with_reducible rfl) | (simp [apply_ite State.mem]; done) | split | (rw [State.foldl_mem]) | intro))

@[simp] theorem State.tenMLoses_mem (s : State) : (State.tenMLoses s).mem = s.mem := by
  unfold State.tenMLoses
  first
  | (simp [apply_ite State.mem]; done)
  | ((try dsimp only); repeat' (first | (with_reducible rfl) | (simp [apply_ite State.mem]; done) | split | (rw [State.foldl_mem]) | intro))

@[simp] theorem ptpTick_mem (s : State) (i : Nat) : (ptpTick s i).mem = s.mem := by
  unfold ptpTick
  first
  | (simp [apply_ite State.mem]; done)
  | ((try dsimp only); repeat' (first | (with_reducible rfl) | (simp [apply_ite State.mem]; done) | split | (rw [State.foldl_mem]) | intro))

@[simp] theorem State.rdmAsk_mem (s : State) (n : Nat) (q : RdmReq) (dst : Nat) (cc : Nat) (pid : Nat) (pd : List Byte) : (State.rdmAsk s n q dst cc pid pd).mem = s.mem := by
  unfold State.rdmAsk
  first
  | (simp [apply_ite State.mem]; done)
  | ((try dsimp only); repeat' (first | (with_reducible rfl) | (simp [apply_ite State.mem]; done) | split | (rw [State.foldl_mem]) | intro))

@[simp] theorem State.putGrafts_mem (s : State) (l : List GraftTx) : (State.putGrafts s l).mem = s.mem := by
  unfold State.putGrafts
  first
  | (simp [apply_ite State.mem]; done)
  | ((try dsimp only); repeat' (first | (with_reducible rfl) | (simp [apply_ite State.mem]; done) | split | (rw [State.foldl_mem]) | intro))

@[simp] theorem State.putGraft_mem (s : State) (x : GraftTx) : (State.putGraft s x).mem = s.mem := by
  unfold State.putGraft
  first
  | (simp [apply_ite State.mem]; done)
  | ((try dsimp only); repeat' (first | (with_reducible rfl) | (simp [apply_ite State.mem]; done) | split | (rw [State.foldl_mem]) | intro))

@[simp] theorem State.windfallEvent_mem (s : State) (w : Fetched) (outcome : Nat) (init : Nat) : (State.windfallEvent s w outcome init).mem = s.mem := by
  unfold State.windfallEvent
  first
  | (simp [apply_ite State.mem]; done)
  | ((try dsimp only); repeat' (first | (with_reducible rfl) | (simp [apply_ite State.mem]; done) | split | (rw [State.foldl_mem]) | intro))

@[simp] theorem State.putWindfalls_mem (s : State) (l : List Fetched) : (State.putWindfalls s l).mem = s.mem := by
  unfold State.putWindfalls
  first
  | (simp [apply_ite State.mem]; done)
  | ((try dsimp only); repeat' (first | (with_reducible rfl) | (simp [apply_ite State.mem]; done) | split | (rw [State.foldl_mem]) | intro))

@[simp] theorem State.windfallLost_mem (s : State) (w : Fetched) (outcome : Nat) : (State.windfallLost s w outcome).mem = s.mem := by
  unfold State.windfallLost
  first
  | (simp [apply_ite State.mem]; done)
  | ((try dsimp only); repeat' (first | (with_reducible rfl) | (simp [apply_ite State.mem]; done) | split | (rw [State.foldl_mem]) | intro))

@[simp] theorem State.windfallIn_mem (s : State) (w : Fetched) : (State.windfallIn s w).mem = s.mem := by
  unfold State.windfallIn
  first
  | (simp [apply_ite State.mem]; done)
  | ((try dsimp only); repeat' (first | (with_reducible rfl) | (simp [apply_ite State.mem]; done) | split | (rw [State.foldl_mem]) | intro))

@[simp] theorem State.prefetchOut_mem (s : State) (e : Fetched) : (State.prefetchOut s e).mem = s.mem := by
  unfold State.prefetchOut
  first
  | (simp [apply_ite State.mem]; done)
  | ((try dsimp only); repeat' (first | (with_reducible rfl) | (simp [apply_ite State.mem]; done) | split | (rw [State.foldl_mem]) | (rw [State.foldl_snd_mem]) | intro))

@[simp] theorem State.prefetchDrop_mem (s : State) (p : Fetched → Bool) : (State.prefetchDrop s p).mem = s.mem := by
  unfold State.prefetchDrop
  first
  | (simp [apply_ite State.mem]; done)
  | ((try dsimp only); repeat' (first | (with_reducible rfl) | (simp [apply_ite State.mem]; done) | split | (rw [State.foldl_mem]) | intro))

@[simp] theorem State.prefetchIn_mem (s : State) (e : Fetched) : (State.prefetchIn s e).mem = s.mem := by
  unfold State.prefetchIn
  first
  | (simp [apply_ite State.mem]; done)
  | ((try dsimp only); repeat' (first | (with_reducible rfl) | (simp [apply_ite State.mem]; done) | split | (rw [State.foldl_mem]) | intro))

@[simp] theorem State.windfallAge_mem (s : State) : (State.windfallAge s).mem = s.mem := by
  unfold State.windfallAge
  first
  | (simp [apply_ite State.mem]; done)
  | ((try dsimp only); repeat' (first | (with_reducible rfl) | (simp [apply_ite State.mem]; done) | split | (rw [State.foldl_mem]) | intro))

@[simp] theorem State.prefetchAge_mem (s : State) : (State.prefetchAge s).mem = s.mem := by
  unfold State.prefetchAge
  first
  | (simp [apply_ite State.mem]; done)
  | ((try dsimp only); repeat' (first | (with_reducible rfl) | (simp [apply_ite State.mem]; done) | split | (rw [State.foldl_mem]) | intro))

@[simp] theorem State.graftFail_mem (s : State) (x : GraftTx) (code : Nat) (reason : Nat) : (State.graftFail s x code reason).mem = s.mem := by
  unfold State.graftFail
  first
  | (simp [apply_ite State.mem]; done)
  | ((try dsimp only); repeat' (first | (with_reducible rfl) | (simp [apply_ite State.mem]; done) | split | (rw [State.foldl_mem]) | intro))

@[simp] theorem State.sendGraft_mem (s : State) (dst : Nat) (op : Nat) (status : Nat) (tag : Nat) (leaf : Nat) (offset : Nat) (length : Nat) (data : List Byte) : (State.sendGraft s dst op status tag leaf offset length data).mem = s.mem := by
  unfold State.sendGraft
  first
  | (simp [apply_ite State.mem]; done)
  | ((try dsimp only); repeat' (first | (with_reducible rfl) | (simp [apply_ite State.mem]; done) | split | (rw [State.foldl_mem]) | intro))

@[simp] theorem State.graftDeliver_mem (s : State) (x : GraftTx) (code : Nat) (data : List Byte) (windfall : Bool) : (State.graftDeliver s x code data windfall).mem = s.mem := by
  unfold State.graftDeliver
  first
  | (simp [apply_ite State.mem]; done)
  | ((try dsimp only); repeat' (first | (with_reducible rfl) | (simp [apply_ite State.mem]; done) | split | (rw [State.foldl_mem]) | intro))

@[simp] theorem State.graftEnd_mem (s : State) (x : GraftTx) (code : Nat) (reason : Nat) (data : List Byte) (windfall : Bool) : (State.graftEnd s x code reason data windfall).mem = s.mem := by
  unfold State.graftEnd
  first
  | (simp [apply_ite State.mem]; done)
  | ((try dsimp only); repeat' (first | (with_reducible rfl) | (simp [apply_ite State.mem]; done) | split | (rw [State.foldl_mem]) | intro))

@[simp] theorem State.graftSend_mem (s : State) (port : Nat) (leaf : Nat) (l : List Byte) : (State.graftSend s port leaf l).mem = s.mem := by
  unfold State.graftSend
  first
  | (simp [apply_ite State.mem]; done)
  | ((try dsimp only); repeat' (first | (with_reducible rfl) | (simp [apply_ite State.mem]; done) | split | (rw [State.foldl_mem]) | intro))

@[simp] theorem State.graftHeld_mem (s : State) (x : GraftTx) : (State.graftHeld s x).mem = s.mem := by
  unfold State.graftHeld
  first
  | (simp [apply_ite State.mem]; done)
  | ((try dsimp only); repeat' (first | (with_reducible rfl) | (simp [apply_ite State.mem]; done) | split | (rw [State.foldl_mem]) | intro))

@[simp] theorem State.graftIssued_mem (s : State) (x : GraftTx) : (State.graftIssued s x).mem = s.mem := by
  unfold State.graftIssued
  first
  | (simp [apply_ite State.mem]; done)
  | ((try dsimp only); repeat' (first | (with_reducible rfl) | (simp [apply_ite State.mem]; done) | split | (rw [State.foldl_mem]) | intro))

@[simp] theorem State.graftIssue_mem (s : State) (x : GraftTx) : (State.graftIssue s x).mem = s.mem := by
  unfold State.graftIssue
  first
  | (simp [apply_ite State.mem]; done)
  | ((try dsimp only); repeat' (first | (with_reducible rfl) | (simp [apply_ite State.mem]; done) | split | (rw [State.foldl_mem]) | intro))

@[simp] theorem State.graftPump_mem (y1 : Nat) (y2 : State) : (State.graftPump y1 y2).mem = y2.mem := by
  induction y1 generalizing y2 with
  | zero => rfl
  | succ y1 ih =>
    unfold State.graftPump
    try dsimp only
    repeat' (first | (with_reducible rfl) | (simp [ih]; done) | split)

@[simp] theorem State.graftGo_mem (s : State) : (State.graftGo s).mem = s.mem := by
  unfold State.graftGo
  first
  | (simp [apply_ite State.mem]; done)
  | ((try dsimp only); repeat' (first | (with_reducible rfl) | (simp [apply_ite State.mem]; done) | split | (rw [State.foldl_mem]) | intro))

@[simp] theorem State.graftDone_mem (s : State) (x : GraftTx) (code : Nat) (reason : Nat) (data : List Byte) (windfall : Bool) : (State.graftDone s x code reason data windfall).mem = s.mem := by
  unfold State.graftDone
  first
  | (simp [apply_ite State.mem]; done)
  | ((try dsimp only); repeat' (first | (with_reducible rfl) | (simp [apply_ite State.mem]; done) | split | (rw [State.foldl_mem]) | intro))

@[simp] theorem State.graftSubmit_mem (s : State) (x : GraftTx) : (State.graftSubmit s x).mem = s.mem := by
  unfold State.graftSubmit
  first
  | (simp [apply_ite State.mem]; done)
  | ((try dsimp only); repeat' (first | (with_reducible rfl) | (simp [apply_ite State.mem]; done) | split | (rw [State.foldl_mem]) | intro))

@[simp] theorem State.sefWrong_mem (s : State) (leaf : Nat) : (State.sefWrong s leaf).mem = s.mem := by
  unfold State.sefWrong
  first
  | (simp [apply_ite State.mem]; done)
  | ((try dsimp only); repeat' (first | (with_reducible rfl) | (simp [apply_ite State.mem]; done) | split | (rw [State.foldl_mem]) | intro))

@[simp] theorem State.graftRead_mem (s : State) (x : GraftTx) (data : List Byte) (effect : Bool) : (State.graftRead s x data effect).mem = s.mem := by
  unfold State.graftRead
  first
  | (simp [apply_ite State.mem]; done)
  | ((try dsimp only); repeat' (first | (with_reducible rfl) | (simp [apply_ite State.mem]; done) | split | (rw [State.foldl_mem]) | intro))

@[simp] theorem State.graftRdmEnd_mem (s : State) (tag : Nat) (code : Nat) (ack : Bool) (data : List Byte) : (State.graftRdmEnd s tag code ack data).mem = s.mem := by
  unfold State.graftRdmEnd
  first
  | (simp [apply_ite State.mem]; done)
  | ((try dsimp only); repeat' (first | (with_reducible rfl) | (simp [apply_ite State.mem]; done) | split | (rw [State.foldl_mem]) | intro))

@[simp] theorem State.graftWindow_mem (s : State) : (State.graftWindow s).mem = s.mem := by
  unfold State.graftWindow
  first
  | (simp [apply_ite State.mem]; done)
  | ((try dsimp only); repeat' (first | (with_reducible rfl) | (simp [apply_ite State.mem]; done) | split | (rw [State.foldl_mem]) | intro))

@[simp] theorem State.putDmx_mem (s : State) (n : Nat) (d : DmxSt) : (State.putDmx s n d).mem = s.mem := by
  unfold State.putDmx
  first
  | (simp [apply_ite State.mem]; done)
  | ((try dsimp only); repeat' (first | (with_reducible rfl) | (simp [apply_ite State.mem]; done) | split | (rw [State.foldl_mem]) | intro))

@[simp] theorem State.enqueueDmx_mem (s : State) (n : Nat) (f : OutFrame) : (State.enqueueDmx s n f).mem = s.mem := by
  unfold State.enqueueDmx
  first
  | (simp [apply_ite State.mem]; done)
  | ((try dsimp only); repeat' (first | (with_reducible rfl) | (simp [apply_ite State.mem]; done) | split | (rw [State.foldl_mem]) | intro))

@[simp] theorem State.supersede_mem (s : State) (n : Nat) (k : Nat) : (State.supersede s n k).mem = s.mem := by
  unfold State.supersede
  first
  | (simp [apply_ite State.mem]; done)
  | ((try dsimp only); repeat' (first | (with_reducible rfl) | (simp [apply_ite State.mem]; done) | split | (rw [State.foldl_mem]) | intro))

@[simp] theorem State.dmxPick_mem (s : State) (n : Nat) : (State.dmxPick s n).2.mem = s.mem := by
  unfold State.dmxPick
  first
  | (simp [apply_ite State.mem]; done)
  | ((try dsimp only); repeat' (first | (with_reducible rfl) | (simp [apply_ite State.mem]; done) | split | (rw [State.foldl_mem]) | (rw [State.foldl_snd_mem]) | intro))

@[simp] theorem State.discoveryEnd_mem (s : State) (n : Nat) : (State.discoveryEnd s n).mem = s.mem := by
  unfold State.discoveryEnd
  first
  | (simp [apply_ite State.mem]; done)
  | ((try dsimp only); repeat' (first | (with_reducible rfl) | (simp [apply_ite State.mem]; done) | split | (rw [State.foldl_mem]) | intro))

@[simp] theorem State.discBranch_mem (s : State) (n : Nat) (lo : Nat) (hi : Nat) : (State.discBranch s n lo hi).mem = s.mem := by
  unfold State.discBranch
  first
  | (simp [apply_ite State.mem]; done)
  | ((try dsimp only); repeat' (first | (with_reducible rfl) | (simp [apply_ite State.mem]; done) | split | (rw [State.foldl_mem]) | intro))

@[simp] theorem State.discoveryStep_mem (s : State) (n : Nat) (q : RdmReq) (collision : Bool) (data : Option (List Byte)) : (State.discoveryStep s n q collision data).mem = s.mem := by
  unfold State.discoveryStep
  first
  | (simp [apply_ite State.mem]; done)
  | ((try dsimp only); repeat' (first | (with_reducible rfl) | (simp [apply_ite State.mem]; done) | split | (rw [State.foldl_mem]) | intro))

@[simp] theorem State.discoveryStart_mem (s : State) (n : Nat) : (State.discoveryStart s n).mem = s.mem := by
  unfold State.discoveryStart
  first
  | (simp [apply_ite State.mem]; done)
  | ((try dsimp only); repeat' (first | (with_reducible rfl) | (simp [apply_ite State.mem]; done) | split | (rw [State.foldl_mem]) | intro))

@[simp] theorem State.sendTunnel_mem (s : State) (dst : Nat) (tunnel : Nat) (dir : Nat) (brk : Nat) (mab : Nat) (port : Nat) (l : List Byte) : (State.sendTunnel s dst tunnel dir brk mab port l).mem = s.mem := by
  unfold State.sendTunnel
  first
  | (simp [apply_ite State.mem]; done)
  | ((try dsimp only); repeat' (first | (with_reducible rfl) | (simp [apply_ite State.mem]; done) | split | (rw [State.foldl_mem]) | intro))

@[simp] theorem State.tunnelResponse_mem (s : State) (pos : Nat) (tunnel : Nat) (l : List Byte) : (State.tunnelResponse s pos tunnel l).mem = s.mem := by
  unfold State.tunnelResponse
  first
  | (simp [apply_ite State.mem]; done)
  | ((try dsimp only); repeat' (first | (with_reducible rfl) | (simp [apply_ite State.mem]; done) | split | (rw [State.foldl_mem]) | intro))

@[simp] theorem State.rdmEnd_mem (s : State) (n : Nat) (q : RdmReq) (code : Nat) (ack : Bool) (data : List Byte) : (State.rdmEnd s n q code ack data).mem = s.mem := by
  unfold State.rdmEnd
  first
  | (simp [apply_ite State.mem]; done)
  | ((try dsimp only); repeat' (first | (with_reducible rfl) | (simp [apply_ite State.mem]; done) | split | (rw [State.foldl_mem]) | intro))

@[simp] theorem State.rdmAbandon_mem (s : State) (n : Nat) : (State.rdmAbandon s n).mem = s.mem := by
  unfold State.rdmAbandon
  first
  | (simp [apply_ite State.mem]; done)
  | ((try dsimp only); repeat' (first | (with_reducible rfl) | (simp [apply_ite State.mem]; done) | split | (rw [State.foldl_mem]) | intro))

@[simp] theorem State.dmxBegin_mem (s : State) (n : Nat) (f : OutFrame) : (State.dmxBegin s n f).mem = s.mem := by
  unfold State.dmxBegin
  first
  | (simp [apply_ite State.mem]; done)
  | ((try dsimp only); repeat' (first | (with_reducible rfl) | (simp [apply_ite State.mem]; done) | split | (rw [State.foldl_mem]) | intro))

@[simp] theorem State.dmxStart_mem (s : State) (n : Nat) : (State.dmxStart s n).mem = s.mem := by
  unfold State.dmxStart
  first
  | (simp [apply_ite State.mem]; done)
  | ((try dsimp only); repeat' (first | (with_reducible rfl) | (simp [apply_ite State.mem]; done) | split | (rw [State.foldl_mem]) | intro))

@[simp] theorem State.dmxEnd_mem (s : State) (n : Nat) : (State.dmxEnd s n).mem = s.mem := by
  unfold State.dmxEnd
  first
  | (simp [apply_ite State.mem]; done)
  | ((try dsimp only); repeat' (first | (with_reducible rfl) | (simp [apply_ite State.mem]; done) | split | (rw [State.foldl_mem]) | intro))

@[simp] theorem State.dmxRepeatOp_mem (s : State) (n : Nat) : (State.dmxRepeatOp s n).mem = s.mem := by
  unfold State.dmxRepeatOp
  first
  | (simp [apply_ite State.mem]; done)
  | ((try dsimp only); repeat' (first | (with_reducible rfl) | (simp [apply_ite State.mem]; done) | split | (rw [State.foldl_mem]) | intro))

@[simp] theorem State.rdmStart_mem (s : State) (n : Nat) : (State.rdmStart s n).mem = s.mem := by
  unfold State.rdmStart
  first
  | (simp [apply_ite State.mem]; done)
  | ((try dsimp only); repeat' (first | (with_reducible rfl) | (simp [apply_ite State.mem]; done) | split | (rw [State.foldl_mem]) | intro))

@[simp] theorem State.rdmSilent_mem (s : State) (n : Nat) : (State.rdmSilent s n).mem = s.mem := by
  unfold State.rdmSilent
  first
  | (simp [apply_ite State.mem]; done)
  | ((try dsimp only); repeat' (first | (with_reducible rfl) | (simp [apply_ite State.mem]; done) | split | (rw [State.foldl_mem]) | intro))

@[simp] theorem State.rdmAnswer_mem (s : State) (n : Nat) (ok : Bool) (ack : Bool) (data : List Byte) : (State.rdmAnswer s n ok ack data).mem = s.mem := by
  unfold State.rdmAnswer
  first
  | (simp [apply_ite State.mem]; done)
  | ((try dsimp only); repeat' (first | (with_reducible rfl) | (simp [apply_ite State.mem]; done) | split | (rw [State.foldl_mem]) | intro))

@[simp] theorem State.rdmTimeout_mem (s : State) (n : Nat) : (State.rdmTimeout s n).mem = s.mem := by
  unfold State.rdmTimeout
  first
  | (simp [apply_ite State.mem]; done)
  | ((try dsimp only); repeat' (first | (with_reducible rfl) | (simp [apply_ite State.mem]; done) | split | (rw [State.foldl_mem]) | intro))

@[simp] theorem State.rdmNone_mem (s : State) (n : Nat) : (State.rdmNone s n).mem = s.mem := by
  unfold State.rdmNone
  first
  | (simp [apply_ite State.mem]; done)
  | ((try dsimp only); repeat' (first | (with_reducible rfl) | (simp [apply_ite State.mem]; done) | split | (rw [State.foldl_mem]) | intro))

@[simp] theorem State.tunnelBad_mem (s : State) : (State.tunnelBad s).mem = s.mem := by
  unfold State.tunnelBad
  first
  | (simp [apply_ite State.mem]; done)
  | ((try dsimp only); repeat' (first | (with_reducible rfl) | (simp [apply_ite State.mem]; done) | split | (rw [State.foldl_mem]) | intro))

@[simp] theorem State.tunnelDeliver_mem (s : State) (n : Nat) (pos : Nat) (tunnel : Nat) (brk : Nat) (mab : Nat) (l : List Byte) : (State.tunnelDeliver s n pos tunnel brk mab l).mem = s.mem := by
  unfold State.tunnelDeliver
  first
  | (simp [apply_ite State.mem]; done)
  | ((try dsimp only); repeat' (first | (with_reducible rfl) | (simp [apply_ite State.mem]; done) | split | (rw [State.foldl_mem]) | intro))

@[simp] theorem State.tunnelCarry_mem (s : State) (t : Nat) (brk : Nat) (mab : Nat) (l : List Byte) : (State.tunnelCarry s t brk mab l).mem = s.mem := by
  unfold State.tunnelCarry
  first
  | (simp [apply_ite State.mem]; done)
  | ((try dsimp only); repeat' (first | (with_reducible rfl) | (simp [apply_ite State.mem]; done) | split | (rw [State.foldl_mem]) | intro))

@[simp] theorem State.dmxIn_mem (s : State) (n : Nat) (sc : Byte) (slots : List Byte) (ok : Bool) (brk : Nat) (mab : Nat) : (State.dmxIn s n sc slots ok brk mab).mem = s.mem := by
  unfold State.dmxIn
  first
  | (simp [apply_ite State.mem]; done)
  | ((try dsimp only); repeat' (first | (with_reducible rfl) | (simp [apply_ite State.mem]; done) | split | (rw [State.foldl_mem]) | intro))

@[simp] theorem State.tunnelIn_mem (s : State) (pos : Nat) (tunnel : Nat) (response : Bool) (brk : Nat) (mab : Nat) (l : List Byte) (port : Nat) : (State.tunnelIn s pos tunnel response brk mab l port).mem = s.mem := by
  unfold State.tunnelIn
  first
  | (simp [apply_ite State.mem]; done)
  | ((try dsimp only); repeat' (first | (with_reducible rfl) | (simp [apply_ite State.mem]; done) | split | (rw [State.foldl_mem]) | intro))

@[simp] theorem State.tunnelSend_mem (s : State) (n : Nat) : (State.tunnelSend s n).mem = s.mem := by
  unfold State.tunnelSend
  first
  | (simp [apply_ite State.mem]; done)
  | ((try dsimp only); repeat' (first | (with_reducible rfl) | (simp [apply_ite State.mem]; done) | split | (rw [State.foldl_mem]) | intro))

@[simp] theorem State.tunnelCheck_mem (s : State) (t : Nat) : (State.tunnelCheck s t).mem = s.mem := by
  unfold State.tunnelCheck
  first
  | (simp [apply_ite State.mem]; done)
  | ((try dsimp only); repeat' (first | (with_reducible rfl) | (simp [apply_ite State.mem]; done) | split | (rw [State.foldl_mem]) | intro))

@[simp] theorem State.putSap_mem (s : State) (n : Nat) (d : SapSt) : (State.putSap s n d).mem = s.mem := by
  unfold State.putSap
  first
  | (simp [apply_ite State.mem]; done)
  | ((try dsimp only); repeat' (first | (with_reducible rfl) | (simp [apply_ite State.mem]; done) | split | (rw [State.foldl_mem]) | intro))

@[simp] theorem State.putNode_mem (s : State) (n : Nat) (node : Nat) (r : List Byte) : (State.putNode s n node r).mem = s.mem := by
  unfold State.putNode
  first
  | (simp [apply_ite State.mem]; done)
  | ((try dsimp only); repeat' (first | (with_reducible rfl) | (simp [apply_ite State.mem]; done) | split | (rw [State.foldl_mem]) | intro))

@[simp] theorem State.sapCheck_mem (s : State) (n : Nat) (ok : Bool) : (State.sapCheck s n ok).mem = s.mem := by
  unfold State.sapCheck
  first
  | (simp [apply_ite State.mem]; done)
  | ((try dsimp only); repeat' (first | (with_reducible rfl) | (simp [apply_ite State.mem]; done) | split | (rw [State.foldl_mem]) | intro))

@[simp] theorem State.sapSend_mem (s : State) (n : Nat) (cmd : Nat) (w : List Byte) : (State.sapSend s n cmd w).mem = s.mem := by
  unfold State.sapSend
  first
  | (simp [apply_ite State.mem]; done)
  | ((try dsimp only); repeat' (first | (with_reducible rfl) | (simp [apply_ite State.mem]; done) | split | (rw [State.foldl_mem]) | intro))

@[simp] theorem State.dropBurst_mem (s : State) (n : Nat) (f : OutFrame) : (State.dropBurst s n f).mem = s.mem := by
  unfold State.dropBurst
  first
  | (simp [apply_ite State.mem]; done)
  | ((try dsimp only); repeat' (first | (with_reducible rfl) | (simp [apply_ite State.mem]; done) | split | (rw [State.foldl_mem]) | intro))

@[simp] theorem State.sapEmit_mem (s : State) (n : Nat) (b : SapBurst) (start : Int) (f : OutFrame) : (State.sapEmit s n b start f).mem = s.mem := by
  unfold State.sapEmit
  first
  | (simp [apply_ite State.mem]; done)
  | ((try dsimp only); repeat' (first | (with_reducible rfl) | (simp [apply_ite State.mem]; done) | split | (rw [State.foldl_mem]) | intro))

@[simp] theorem State.sapFlow_mem (y1 : Nat) (y2 : State) (y3 : Nat) (y4 : Bool) : (State.sapFlow y1 y2 y3 y4).mem = y2.mem := by
  induction y1 generalizing y2 y3 y4 with
  | zero => rfl
  | succ y1 ih =>
    unfold State.sapFlow
    try dsimp only
    repeat' (first | (with_reducible rfl) | (simp [ih]; done) | split)

@[simp] theorem State.sapTick_mem (s : State) : (State.sapTick s).mem = s.mem := by
  unfold State.sapTick
  first
  | (simp [apply_ite State.mem]; done)
  | ((try dsimp only); repeat' (first | (with_reducible rfl) | (simp [apply_ite State.mem]; done) | split | (rw [State.foldl_mem]) | (rw [State.foldl_snd_mem]) | intro))

@[simp] theorem State.enqueueSap_mem (s : State) (n : Nat) (f : OutFrame) : (State.enqueueSap s n f).mem = s.mem := by
  unfold State.enqueueSap
  first
  | (simp [apply_ite State.mem]; done)
  | ((try dsimp only); repeat' (first | (with_reducible rfl) | (simp [apply_ite State.mem]; done) | split | (rw [State.foldl_mem]) | intro))

@[simp] theorem State.sapBegin_mem (s : State) (n : Nat) (f : OutFrame) (from_ : Option Int) : (State.sapBegin s n f from_).mem = s.mem := by
  unfold State.sapBegin
  first
  | (simp [apply_ite State.mem]; done)
  | ((try dsimp only); repeat' (first | (with_reducible rfl) | (simp [apply_ite State.mem]; done) | split | (rw [State.foldl_mem]) | intro))

@[simp] theorem State.sapAbandon_mem (s : State) (n : Nat) (b : SapBurst) (now : Int) : (State.sapAbandon s n b now).2.mem = s.mem := by
  unfold State.sapAbandon
  first
  | (simp [apply_ite State.mem]; done)
  | ((try dsimp only); repeat' (first | (with_reducible rfl) | (simp [apply_ite State.mem]; done) | split | (rw [State.foldl_mem]) | (rw [State.foldl_snd_mem]) | intro))

@[simp] theorem State.sapLate_mem (s : State) (n : Nat) : (State.sapLate s n).mem = s.mem := by
  unfold State.sapLate
  first
  | (simp [apply_ite State.mem]; done)
  | ((try dsimp only); repeat' (first | (with_reducible rfl) | (simp [apply_ite State.mem]; done) | split | (rw [State.foldl_mem]) | intro))

@[simp] theorem State.sapStart_mem (s : State) (n : Nat) : (State.sapStart s n).mem = s.mem := by
  unfold State.sapStart
  first
  | (simp [apply_ite State.mem]; done)
  | ((try dsimp only); repeat' (first | (with_reducible rfl) | (simp [apply_ite State.mem]; done) | split | (rw [State.foldl_mem]) | intro))

@[simp] theorem State.sapEnd_mem (s : State) (n : Nat) : (State.sapEnd s n).mem = s.mem := by
  unfold State.sapEnd
  first
  | (simp [apply_ite State.mem]; done)
  | ((try dsimp only); repeat' (first | (with_reducible rfl) | (simp [apply_ite State.mem]; done) | split | (rw [State.foldl_mem]) | intro))

@[simp] theorem State.sapPollOp_mem (s : State) (n : Nat) (ident : Bool) : (State.sapPollOp s n ident).mem = s.mem := by
  unfold State.sapPollOp
  first
  | (simp [apply_ite State.mem]; done)
  | ((try dsimp only); repeat' (first | (with_reducible rfl) | (simp [apply_ite State.mem]; done) | split | (rw [State.foldl_mem]) | intro))

@[simp] theorem State.sapChanged_mem (s : State) (n : Nat) : (State.sapChanged s n).mem = s.mem := by
  unfold State.sapChanged
  first
  | (simp [apply_ite State.mem]; done)
  | ((try dsimp only); repeat' (first | (with_reducible rfl) | (simp [apply_ite State.mem]; done) | split | (rw [State.foldl_mem]) | intro))

@[simp] theorem State.sapMissing_mem (s : State) (n : Nat) (node : Nat) (on : Bool) : (State.sapMissing s n node on).mem = s.mem := by
  unfold State.sapMissing
  first
  | (simp [apply_ite State.mem]; done)
  | ((try dsimp only); repeat' (first | (with_reducible rfl) | (simp [apply_ite State.mem]; done) | split | (rw [State.foldl_mem]) | intro))

@[simp] theorem State.sapStatusReply_mem (s : State) (n : Nat) (node : Nat) (p : List Byte) : (State.sapStatusReply s n node p).mem = s.mem := by
  unfold State.sapStatusReply
  first
  | (simp [apply_ite State.mem]; done)
  | ((try dsimp only); repeat' (first | (with_reducible rfl) | (simp [apply_ite State.mem]; done) | split | (rw [State.foldl_mem]) | intro))

@[simp] theorem State.sapIdentReply_mem (s : State) (n : Nat) (node : Nat) (p : List Byte) : (State.sapIdentReply s n node p).mem = s.mem := by
  unfold State.sapIdentReply
  first
  | (simp [apply_ite State.mem]; done)
  | ((try dsimp only); repeat' (first | (with_reducible rfl) | (simp [apply_ite State.mem]; done) | split | (rw [State.foldl_mem]) | intro))

@[simp] theorem State.sapReplyOp_mem (s : State) (n : Nat) (f : List Byte) : (State.sapReplyOp s n f).mem = s.mem := by
  unfold State.sapReplyOp
  first
  | (simp [apply_ite State.mem]; done)
  | ((try dsimp only); repeat' (first | (with_reducible rfl) | (simp [apply_ite State.mem]; done) | split | (rw [State.foldl_mem]) | intro))

@[simp] theorem State.sapWindowEnd_mem (s : State) (n : Nat) : (State.sapWindowEnd s n).mem = s.mem := by
  unfold State.sapWindowEnd
  first
  | (simp [apply_ite State.mem]; done)
  | ((try dsimp only); repeat' (first | (with_reducible rfl) | (simp [apply_ite State.mem]; done) | split | (rw [State.foldl_mem]) | intro))

@[simp] theorem State.sapHoldWrite_mem (s : State) (n : Nat) (on : Bool) : (State.sapHoldWrite s n on).mem = s.mem := by
  unfold State.sapHoldWrite
  first
  | (simp [apply_ite State.mem]; done)
  | ((try dsimp only); repeat' (first | (with_reducible rfl) | (simp [apply_ite State.mem]; done) | split | (rw [State.foldl_mem]) | intro))

@[simp] theorem State.putTrunk_mem (s : State) (t : Trunk) (x : TrunkSt) : (State.putTrunk s t x).mem = s.mem := by
  unfold State.putTrunk
  first
  | (simp [apply_ite State.mem]; done)
  | ((try dsimp only); repeat' (first | (with_reducible rfl) | (simp [apply_ite State.mem]; done) | split | (rw [State.foldl_mem]) | intro))

@[simp] theorem State.withCap_mem (s : State) (c : Capture) : (State.withCap s c).mem = s.mem := by
  unfold State.withCap
  first
  | (simp [apply_ite State.mem]; done)
  | ((try dsimp only); repeat' (first | (with_reducible rfl) | (simp [apply_ite State.mem]; done) | split | (rw [State.foldl_mem]) | intro))

@[simp] theorem State.putLayer_mem (s : State) (t : Trunk) (n : Nat) (x : LayerSt) : (State.putLayer s t n x).mem = s.mem := by
  unfold State.putLayer
  first
  | (simp [apply_ite State.mem]; done)
  | ((try dsimp only); repeat' (first | (with_reducible rfl) | (simp [apply_ite State.mem]; done) | split | (rw [State.foldl_mem]) | intro))

@[simp] theorem State.commitWrite_mem (s : State) (t : Trunk) (mask : Nat) : (State.commitWrite s t mask).mem = s.mem := by
  unfold State.commitWrite
  first
  | (simp [apply_ite State.mem]; done)
  | ((try dsimp only); repeat' (first | (with_reducible rfl) | (simp [apply_ite State.mem]; done) | split | (rw [State.foldl_mem]) | intro))

@[simp] theorem State.pendCommit_mem (s : State) (t : Trunk) (mask : Nat) : (State.pendCommit s t mask).mem = s.mem := by
  unfold State.pendCommit
  first
  | (simp [apply_ite State.mem]; done)
  | ((try dsimp only); repeat' (first | (with_reducible rfl) | (simp [apply_ite State.mem]; done) | split | (rw [State.foldl_mem]) | intro))

@[simp] theorem State.layerCommit_mem (s : State) (t : Trunk) (n : Nat) : (State.layerCommit s t n).mem = s.mem := by
  unfold State.layerCommit
  first
  | (simp [apply_ite State.mem]; done)
  | ((try dsimp only); repeat' (first | (with_reducible rfl) | (simp [apply_ite State.mem]; done) | split | (rw [State.foldl_mem]) | intro))

@[simp] theorem State.commitDone_mem (s : State) (t : Trunk) : (State.commitDone s t).mem = s.mem := by
  unfold State.commitDone
  first
  | (simp [apply_ite State.mem]; done)
  | ((try dsimp only); repeat' (first | (with_reducible rfl) | (simp [apply_ite State.mem]; done) | split | (rw [State.foldl_mem]) | intro))

@[simp] theorem State.layerReadyOp_mem (s : State) (t : Trunk) (n : Nat) : (State.layerReadyOp s t n).mem = s.mem := by
  unfold State.layerReadyOp
  first
  | (simp [apply_ite State.mem]; done)
  | ((try dsimp only); repeat' (first | (with_reducible rfl) | (simp [apply_ite State.mem]; done) | split | (rw [State.foldl_mem]) | intro))

@[simp] theorem State.layerActivate_mem (s : State) (t : Trunk) (n : Nat) : (State.layerActivate s t n).mem = s.mem := by
  unfold State.layerActivate
  first
  | (simp [apply_ite State.mem]; done)
  | ((try dsimp only); repeat' (first | (with_reducible rfl) | (simp [apply_ite State.mem]; done) | split | (rw [State.foldl_mem]) | intro))

@[simp] theorem State.layerCap_mem (s : State) (t : Trunk) (n : Nat) : (State.layerCap s t n).mem = s.mem := by
  unfold State.layerCap
  first
  | (simp [apply_ite State.mem]; done)
  | ((try dsimp only); repeat' (first | (with_reducible rfl) | (simp [apply_ite State.mem]; done) | split | (rw [State.foldl_mem]) | intro))

@[simp] theorem State.canvasActivate_mem (s : State) (t : Trunk) (c : Nat) : (State.canvasActivate s t c).mem = s.mem := by
  unfold State.canvasActivate
  first
  | (simp [apply_ite State.mem]; done)
  | ((try dsimp only); repeat' (first | (with_reducible rfl) | (simp [apply_ite State.mem]; done) | split | (rw [State.foldl_mem]) | intro))

@[simp] theorem State.layerRelease_mem (s : State) (t : Trunk) (n : Nat) : (State.layerRelease s t n).mem = s.mem := by
  unfold State.layerRelease
  first
  | (simp [apply_ite State.mem]; done)
  | ((try dsimp only); repeat' (first | (with_reducible rfl) | (simp [apply_ite State.mem]; done) | split | (rw [State.foldl_mem]) | intro))

@[simp] theorem State.layerLate_mem (s : State) (t : Trunk) (n : Nat) : (State.layerLate s t n).mem = s.mem := by
  unfold State.layerLate
  first
  | (simp [apply_ite State.mem]; done)
  | ((try dsimp only); repeat' (first | (with_reducible rfl) | (simp [apply_ite State.mem]; done) | split | (rw [State.foldl_mem]) | intro))

@[simp] theorem State.layerEff_mem (s : State) (t : Trunk) (c : Nat) : (State.layerEff s t c).mem = s.mem := by
  unfold State.layerEff
  first
  | (simp [apply_ite State.mem]; done)
  | ((try dsimp only); repeat' (first | (with_reducible rfl) | (simp [apply_ite State.mem]; done) | split | (rw [State.foldl_mem]) | intro))

@[simp] theorem State.seedLayer_mem (s : State) (t : Trunk) (n : Nat) : (State.seedLayer s t n).mem = s.mem := by
  unfold State.seedLayer
  first
  | (simp [apply_ite State.mem]; done)
  | ((try dsimp only); repeat' (first | (with_reducible rfl) | (simp [apply_ite State.mem]; done) | split | (rw [State.foldl_mem]) | intro))

@[simp] theorem State.seedCanvas_mem (s : State) (t : Trunk) (c : Nat) : (State.seedCanvas s t c).mem = s.mem := by
  unfold State.seedCanvas
  first
  | (simp [apply_ite State.mem]; done)
  | ((try dsimp only); repeat' (first | (with_reducible rfl) | (simp [apply_ite State.mem]; done) | split | (rw [State.foldl_mem]) | intro))

@[simp] theorem State.seedCanvases_mem (s : State) (t : Trunk) (p : Nat → Bool) : (State.seedCanvases s t p).mem = s.mem := by
  unfold State.seedCanvases
  first
  | (simp [apply_ite State.mem]; done)
  | ((try dsimp only); repeat' (first | (with_reducible rfl) | (simp [apply_ite State.mem]; done) | split | (rw [State.foldl_mem]) | intro))

@[simp] theorem State.seedPool_mem (s : State) (t : Trunk) : (State.seedPool s t).mem = s.mem := by
  unfold State.seedPool
  first
  | (simp [apply_ite State.mem]; done)
  | ((try dsimp only); repeat' (first | (with_reducible rfl) | (simp [apply_ite State.mem]; done) | split | (rw [State.foldl_mem]) | intro))

@[simp] theorem State.canvasCompose_mem (s : State) (t : Trunk) (c : Nat) (k : Nat) (pos : Nat) : (State.canvasCompose s t c k pos).mem = s.mem := by
  unfold State.canvasCompose
  first
  | (simp [apply_ite State.mem]; done)
  | ((try dsimp only); repeat' (first | (with_reducible rfl) | (simp [apply_ite State.mem]; done) | split | (rw [State.foldl_mem]) | intro))

@[simp] theorem State.frameDone_mem (s : State) (t : Trunk) (c : Nat) (failed : List Nat) (bad : List Nat) : (State.frameDone s t c failed bad).mem = s.mem := by
  unfold State.frameDone
  first
  | (simp [apply_ite State.mem]; done)
  | ((try dsimp only); repeat' (first | (with_reducible rfl) | (simp [apply_ite State.mem]; done) | split | (rw [State.foldl_mem]) | intro))

theorem State.freeBuffer_mem (s : State) (t : Trunk) (c : Nat) (v : State) (hs : (State.freeBuffer s t c) = some v) : v.mem = s.mem := by
  unfold State.freeBuffer at hs
  dsimp only at hs
  repeat' (split at hs)
  all_goals first | contradiction | (cases hs; simp)

@[simp] theorem State.canvasEpoch_mem (s : State) (t : Trunk) (c : Nat) (k : Nat) (pos : Nat) (thin : Bool) : (State.canvasEpoch s t c k pos thin).mem = s.mem := by
  unfold State.canvasEpoch
  first
  | (simp [apply_ite State.mem]; done)
  | ((try dsimp only); repeat' (first | (with_reducible rfl) | (simp [apply_ite State.mem]; done) | (rename_i hh; (try simp); rw [State.freeBuffer_mem _ _ _ _ hh]) | split | (rw [State.foldl_mem]) | intro))

@[simp] theorem State.inputFrame_mem (s : State) (rec : Nat) (w : Nat) (h : Nat) (f : InputForm) (whole : Bool) (data : List Nat) : (State.inputFrame s rec w h f whole data).mem = s.mem := by
  unfold State.inputFrame
  first
  | (simp [apply_ite State.mem]; done)
  | ((try dsimp only); repeat' (first | (with_reducible rfl) | (simp [apply_ite State.mem]; done) | split | (rw [State.foldl_mem]) | intro))

@[simp] theorem State.putRast_mem (s : State) (t : Trunk) (g : Nat) (x : RastSt) : (State.putRast s t g x).mem = s.mem := by
  unfold State.putRast
  first
  | (simp [apply_ite State.mem]; done)
  | ((try dsimp only); repeat' (first | (with_reducible rfl) | (simp [apply_ite State.mem]; done) | split | (rw [State.foldl_mem]) | intro))

@[simp] theorem State.putRastOut_mem (s : State) (k : Nat) (x : RasterOut) : (State.putRastOut s k x).mem = s.mem := by
  unfold State.putRastOut
  first
  | (simp [apply_ite State.mem]; done)
  | ((try dsimp only); repeat' (first | (with_reducible rfl) | (simp [apply_ite State.mem]; done) | split | (rw [State.foldl_mem]) | intro))

@[simp] theorem State.onRast_mem (s : State) (t : Trunk) (f : Trunk → State → State) (hf : ∀ x0 x1, (f x0 x1).mem = x1.mem) : (State.onRast s t f).mem = s.mem := by
  unfold State.onRast
  first
  | (simp [apply_ite State.mem, hf]; done)
  | ((try dsimp only); repeat' (first | (with_reducible rfl) | (simp [apply_ite State.mem, hf]; done) | split | (rw [State.foldl_mem]) | intro))

@[simp] theorem State.rastEvent_mem (s : State) (t : Trunk) (g : Nat) (i : Nat) : (State.rastEvent s t g i).mem = s.mem := by
  unfold State.rastEvent
  first
  | (simp [apply_ite State.mem]; done)
  | ((try dsimp only); repeat' (first | (with_reducible rfl) | (simp [apply_ite State.mem]; done) | split | (rw [State.foldl_mem]) | intro))

@[simp] theorem State.rastCount_mem (s : State) (t : Trunk) (g : Nat) : (State.rastCount s t g).mem = s.mem := by
  unfold State.rastCount
  first
  | (simp [apply_ite State.mem]; done)
  | ((try dsimp only); repeat' (first | (with_reducible rfl) | (simp [apply_ite State.mem]; done) | split | (rw [State.foldl_mem]) | intro))

@[simp] theorem State.rastFresh_mem (s : State) (t : Trunk) (g : Nat) : (State.rastFresh s t g).mem = s.mem := by
  unfold State.rastFresh
  first
  | (simp [apply_ite State.mem]; done)
  | ((try dsimp only); repeat' (first | (with_reducible rfl) | (simp [apply_ite State.mem]; done) | split | (rw [State.foldl_mem]) | intro))

@[simp] theorem State.rastTake_mem (s : State) (t : Trunk) (g : Nat) : (State.rastTake s t g).mem = s.mem := by
  unfold State.rastTake
  first
  | (simp [apply_ite State.mem]; done)
  | ((try dsimp only); repeat' (first | (with_reducible rfl) | (simp [apply_ite State.mem]; done) | split | (rw [State.foldl_mem]) | intro))

@[simp] theorem State.rastCommitWrite_mem (s : State) (t : Trunk) (g : Nat) : (State.rastCommitWrite s t g).mem = s.mem := by
  unfold State.rastCommitWrite
  first
  | (simp [apply_ite State.mem]; done)
  | ((try dsimp only); repeat' (first | (with_reducible rfl) | (simp [apply_ite State.mem]; done) | split | (rw [State.foldl_mem]) | intro))

@[simp] theorem State.flip_mem (s : State) (t : Trunk) (g : Nat) (l : Option Nat) : (State.flip s t g l).mem = s.mem := by
  unfold State.flip
  first
  | (simp [apply_ite State.mem]; done)
  | ((try dsimp only); repeat' (first | (with_reducible rfl) | (simp [apply_ite State.mem]; done) | split | (rw [State.foldl_mem]) | intro))

@[simp] theorem State.rastRecad_mem (s : State) (t : Trunk) (g : Nat) (next : Option (Nat × Nat)) : (State.rastRecad s t g next).mem = s.mem := by
  unfold State.rastRecad
  first
  | (simp [apply_ite State.mem]; done)
  | ((try dsimp only); repeat' (first | (with_reducible rfl) | (simp [apply_ite State.mem]; done) | split | (rw [State.foldl_mem]) | intro))

@[simp] theorem State.latchTake_mem (s : State) (t : Trunk) (g : Nat) (f : RastFrame) (tag : Nat) : (State.latchTake s t g f tag).mem = s.mem := by
  unfold State.latchTake
  first
  | (simp [apply_ite State.mem]; done)
  | ((try dsimp only); repeat' (first | (with_reducible rfl) | (simp [apply_ite State.mem]; done) | split | (rw [State.foldl_mem]) | intro))

@[simp] theorem State.rastCommitDone_mem (s : State) (t : Trunk) (g : Nat) : (State.rastCommitDone s t g).mem = s.mem := by
  unfold State.rastCommitDone
  first
  | (simp [apply_ite State.mem]; done)
  | ((try dsimp only); repeat' (first | (with_reducible rfl) | (simp [apply_ite State.mem]; done) | split | (rw [State.foldl_mem]) | intro))

@[simp] theorem State.handOver_mem (s : State) (t : Trunk) (u : CUnit) : (State.handOver s t u).mem = s.mem := by
  unfold State.handOver
  first
  | (simp [apply_ite State.mem]; done)
  | ((try dsimp only); repeat' (first | (with_reducible rfl) | (simp [apply_ite State.mem]; done) | split | (rw [State.foldl_mem]) | intro))

@[simp] theorem State.rastBegin_mem (s : State) (t : Trunk) (g : Nat) (n : RastFrame × RastSt) : (State.rastBegin s t g n).mem = s.mem := by
  unfold State.rastBegin
  first
  | (simp [apply_ite State.mem]; done)
  | ((try dsimp only); repeat' (first | (with_reducible rfl) | (simp [apply_ite State.mem]; done) | split | (rw [State.foldl_mem]) | intro))

@[simp] theorem State.rastMark_mem (s : State) (t : Trunk) (g : Nat) (f : RastFrame) (j : Nat) : (State.rastMark s t g f j).mem = s.mem := by
  unfold State.rastMark
  first
  | (simp [apply_ite State.mem]; done)
  | ((try dsimp only); repeat' (first | (with_reducible rfl) | (simp [apply_ite State.mem]; done) | split | (rw [State.foldl_mem]) | intro))

@[simp] theorem State.rastLatch_mem (s : State) (t : Trunk) (g : Nat) (f : RastFrame) : (State.rastLatch s t g f).mem = s.mem := by
  unfold State.rastLatch
  first
  | (simp [apply_ite State.mem]; done)
  | ((try dsimp only); repeat' (first | (with_reducible rfl) | (simp [apply_ite State.mem]; done) | split | (rw [State.foldl_mem]) | intro))

@[simp] theorem State.rastScan_mem (s : State) (t : Trunk) (g : Nat) (f : RastFrame) (bad : List Nat) : (State.rastScan s t g f bad).mem = s.mem := by
  unfold State.rastScan
  first
  | (simp [apply_ite State.mem]; done)
  | ((try dsimp only); repeat' (first | (with_reducible rfl) | (simp [apply_ite State.mem]; done) | split | (rw [State.foldl_mem]) | intro))

@[simp] theorem State.rastRead_mem (s : State) (t : Trunk) (g : Nat) (bad : List Nat) : (State.rastRead s t g bad).mem = s.mem := by
  unfold State.rastRead
  first
  | (simp [apply_ite State.mem]; done)
  | ((try dsimp only); repeat' (first | (with_reducible rfl) | (simp [apply_ite State.mem]; done) | split | (rw [State.foldl_mem]) | intro))

@[simp] theorem State.enqueueLine_mem (s : State) (k : Nat) (n : Nat) (j : Nat) (data : List Byte) : (State.enqueueLine s k n j data).mem = s.mem := by
  unfold State.enqueueLine
  first
  | (simp [apply_ite State.mem]; done)
  | ((try dsimp only); repeat' (first | (with_reducible rfl) | (simp [apply_ite State.mem]; done) | split | (rw [State.foldl_mem]) | (rw [State.foldl_snd_mem]) | intro))

@[simp] theorem State.freezeCheck_mem (s : State) (t : Trunk) (g : Nat) (pad : Nat) (src : Nat) : (State.freezeCheck s t g pad src).mem = s.mem := by
  unfold State.freezeCheck
  first
  | (simp [apply_ite State.mem]; done)
  | ((try dsimp only); repeat' (first | (with_reducible rfl) | (simp [apply_ite State.mem]; done) | split | (rw [State.foldl_mem]) | intro))

@[simp] theorem State.sendSdi_mem (s : State) (t : Trunk) (g : Nat) (f : RastFrame) (j : Nat) (active : Bool) (black : Bool) (codes : List Nat) : (State.sendSdi s t g f j active black codes).mem = s.mem := by
  unfold State.sendSdi
  first
  | (simp [apply_ite State.mem]; done)
  | ((try dsimp only); repeat' (first | (with_reducible rfl) | (simp [apply_ite State.mem]; done) | split | (rw [State.foldl_mem]) | intro))

@[simp] theorem State.sendIp_mem (s : State) (t : Trunk) (g : Nat) (f : RastFrame) (j : Nat) (black : Bool) (codes : List Nat) : (State.sendIp s t g f j black codes).mem = s.mem := by
  unfold State.sendIp
  first
  | (simp [apply_ite State.mem]; done)
  | ((try dsimp only); repeat' (first | (with_reducible rfl) | (simp [apply_ite State.mem]; done) | split | (rw [State.foldl_mem]) | (rw [State.foldl_snd_mem]) | intro))

@[simp] theorem State.rastPad_mem (s : State) (t : Trunk) (g : Nat) (tap : Option (List (BitVec 16))) : (State.rastPad s t g tap).mem = s.mem := by
  unfold State.rastPad
  first
  | (simp [apply_ite State.mem]; done)
  | ((try dsimp only); repeat' (first | (with_reducible rfl) | (simp [apply_ite State.mem]; done) | split | (rw [State.foldl_mem]) | intro))

@[simp] theorem State.rastEpoch_mem (s : State) (t : Trunk) (g : Nat) (k : Nat) : (State.rastEpoch s t g k).mem = s.mem := by
  unfold State.rastEpoch
  first
  | (simp [apply_ite State.mem]; done)
  | ((try dsimp only); repeat' (first | (with_reducible rfl) | (simp [apply_ite State.mem]; done) | split | (rw [State.foldl_mem]) | intro))

@[simp] theorem State.letOut_mem (s : State) (t : Trunk) (u : CUnit) : (State.letOut s t u).mem = s.mem := by
  unfold State.letOut
  first
  | (simp [apply_ite State.mem]; done)
  | ((try dsimp only); repeat' (first | (with_reducible rfl) | (simp [apply_ite State.mem]; done) | split | (rw [State.foldl_mem]) | intro))

theorem State.withdraw_mem (s : State) (t : Trunk) (u : CUnit) (v : State) (hs : (State.withdraw s t u) = some v) : v.mem = s.mem := by
  unfold State.withdraw at hs
  dsimp only at hs
  repeat' (split at hs)
  all_goals first | contradiction | (cases hs; simp)

@[simp] theorem State.launchRec_mem (s : State) (rec : Nat) : (State.launchRec s rec).mem = s.mem := by
  unfold State.launchRec
  first
  | (simp [apply_ite State.mem]; done)
  | ((try dsimp only); repeat' (first | (with_reducible rfl) | (simp [apply_ite State.mem]; done) | split | (rw [State.foldl_mem]) | intro))

@[simp] theorem State.expireRec_mem (s : State) (rec : Nat) : (State.expireRec s rec).mem = s.mem := by
  unfold State.expireRec
  first
  | (simp [apply_ite State.mem]; done)
  | ((try dsimp only); repeat' (first | (with_reducible rfl) | (simp [apply_ite State.mem]; done) | split | (rw [State.foldl_mem]) | intro))

@[simp] theorem State.setPend_mem (s : State) (t : Trunk) (i : Nat) (b : Bool) : (State.setPend s t i b).mem = s.mem := by
  unfold State.setPend
  first
  | (simp [apply_ite State.mem]; done)
  | ((try dsimp only); repeat' (first | (with_reducible rfl) | (simp [apply_ite State.mem]; done) | split | (rw [State.foldl_mem]) | intro))

@[simp] theorem State.putIcu_mem (s : State) (t : Trunk) (x : IcuSt) : (State.putIcu s t x).mem = s.mem := by
  unfold State.putIcu
  first
  | (simp [apply_ite State.mem]; done)
  | ((try dsimp only); repeat' (first | (with_reducible rfl) | (simp [apply_ite State.mem]; done) | split | (rw [State.foldl_mem]) | (rw [State.foldl_snd_mem]) | intro))

@[simp] theorem State.claimGive_mem (s : State) (t : Trunk) (c : Nat) (w : Nat) : (State.claimGive s t c w).mem = s.mem := by
  unfold State.claimGive
  first
  | (simp [apply_ite State.mem]; done)
  | ((try dsimp only); repeat' (first | (with_reducible rfl) | (simp [apply_ite State.mem]; done) | split | (rw [State.foldl_mem]) | intro))

@[simp] theorem State.claimTake_mem (s : State) (t : Trunk) (c : Nat) (i : Nat) : (State.claimTake s t c i).mem = s.mem := by
  unfold State.claimTake
  first
  | (simp [apply_ite State.mem]; done)
  | ((try dsimp only); repeat' (first | (with_reducible rfl) | (simp [apply_ite State.mem]; done) | split | (rw [State.foldl_mem]) | intro))

@[simp] theorem State.claim_mem (s : State) (t : Trunk) (c : Nat) : (State.claim s t c).mem = s.mem := by
  unfold State.claim
  first
  | (simp [apply_ite State.mem]; done)
  | ((try dsimp only); repeat' (first | (with_reducible rfl) | (simp [apply_ite State.mem]; done) | split | (rw [State.foldl_mem]) | intro))

@[simp] theorem State.atOnce_mem (s : State) (t : Trunk) (i : Nat) : (State.atOnce s t i).mem = s.mem := by
  unfold State.atOnce
  first
  | (simp [apply_ite State.mem]; done)
  | ((try dsimp only); repeat' (first | (with_reducible rfl) | (simp [apply_ite State.mem]; done) | split | (rw [State.foldl_mem]) | intro))

@[simp] theorem State.completeSrc_mem (s : State) (t : Trunk) (c : Nat) (i : Nat) : (State.completeSrc s t c i).mem = s.mem := by
  unfold State.completeSrc
  first
  | (simp [apply_ite State.mem]; done)
  | ((try dsimp only); repeat' (first | (with_reducible rfl) | (simp [apply_ite State.mem]; done) | split | (rw [State.foldl_mem]) | intro))

@[simp] theorem State.srcEdge_mem (s : State) (t : Trunk) (i : Nat) (level : Bool) : (State.srcEdge s t i level).mem = s.mem := by
  unfold State.srcEdge
  first
  | (simp [apply_ite State.mem]; done)
  | ((try dsimp only); repeat' (first | (with_reducible rfl) | (simp [apply_ite State.mem]; done) | split | (rw [State.foldl_mem]) | intro))

@[simp] theorem State.maskApply_mem (s : State) (t : Trunk) (set : Bool) (w : Nat) (v : Word) : (State.maskApply s t set w v).mem = s.mem := by
  unfold State.maskApply
  first
  | (simp [apply_ite State.mem]; done)
  | ((try dsimp only); repeat' (first | (with_reducible rfl) | (simp [apply_ite State.mem]; done) | split | (rw [State.foldl_mem]) | intro))

@[simp] theorem State.maskWrite_mem (s : State) (t : Trunk) (set : Bool) (writer : Option (Fin 8)) (w : Nat) (v : Word) : (State.maskWrite s t set writer w v).mem = s.mem := by
  unfold State.maskWrite
  first
  | (simp [apply_ite State.mem]; done)
  | ((try dsimp only); repeat' (first | (with_reducible rfl) | (simp [apply_ite State.mem]; done) | split | (rw [State.foldl_mem]) | intro))

@[simp] theorem State.pendSetWrite_mem (s : State) (t : Trunk) (writer : Option (Fin 8)) (w : Nat) (v : Word) : (State.pendSetWrite s t writer w v).mem = s.mem := by
  unfold State.pendSetWrite
  first
  | (simp [apply_ite State.mem]; done)
  | ((try dsimp only); repeat' (first | (with_reducible rfl) | (simp [apply_ite State.mem]; done) | split | (rw [State.foldl_mem]) | intro))

@[simp] theorem State.pendClrWrite_mem (s : State) (t : Trunk) (writer : Option (Fin 8)) (w : Nat) (v : Word) : (State.pendClrWrite s t writer w v).mem = s.mem := by
  unfold State.pendClrWrite
  first
  | (simp [apply_ite State.mem]; done)
  | ((try dsimp only); repeat' (first | (with_reducible rfl) | (simp [apply_ite State.mem]; done) | split | (rw [State.foldl_mem]) | intro))

@[simp] theorem State.routeWrite_mem (s : State) (t : Trunk) (writer : Option (Fin 8)) (k : Nat) (v : Word) : (State.routeWrite s t writer k v).mem = s.mem := by
  unfold State.routeWrite
  first
  | (simp [apply_ite State.mem]; done)
  | ((try dsimp only); repeat' (first | (with_reducible rfl) | (simp [apply_ite State.mem]; done) | split | (rw [State.foldl_mem]) | intro))

@[simp] theorem State.modExpire_mem (s : State) (t : Trunk) (c : Nat) (g : Nat) : (State.modExpire s t c g).mem = s.mem := by
  unfold State.modExpire
  first
  | (simp [apply_ite State.mem]; done)
  | ((try dsimp only); repeat' (first | (with_reducible rfl) | (simp [apply_ite State.mem]; done) | split | (rw [State.foldl_mem]) | intro))

@[simp] theorem State.icuCapture_mem (s : State) (t : Trunk) : (State.icuCapture s t).mem = s.mem := by
  unfold State.icuCapture
  first
  | (simp [apply_ite State.mem]; done)
  | ((try dsimp only); repeat' (first | (with_reducible rfl) | (simp [apply_ite State.mem]; done) | split | (rw [State.foldl_mem]) | (rw [State.foldl_snd_mem]) | intro))

@[simp] theorem State.putSched_mem (s : State) (t : Trunk) (x : SchedSt) : (State.putSched s t x).mem = s.mem := by
  unfold State.putSched
  first
  | (simp [apply_ite State.mem]; done)
  | ((try dsimp only); repeat' (first | (with_reducible rfl) | (simp [apply_ite State.mem]; done) | split | (rw [State.foldl_mem]) | intro))

@[simp] theorem State.post_mem (s : State) (t : Trunk) (slot : Nat) (flag : Nat) (again : Bool) : (State.post s t slot flag again).mem = s.mem := by
  unfold State.post
  first
  | (simp [apply_ite State.mem]; done)
  | ((try dsimp only); repeat' (first | (with_reducible rfl) | (simp [apply_ite State.mem]; done) | split | (rw [State.foldl_mem]) | intro))

@[simp] theorem State.unhold_mem (s : State) (t : Trunk) : (State.unhold s t).mem = s.mem := by
  unfold State.unhold
  first
  | (simp [apply_ite State.mem]; done)
  | ((try dsimp only); repeat' (first | (with_reducible rfl) | (simp [apply_ite State.mem]; done) | split | (rw [State.foldl_mem]) | (rw [State.foldl_snd_mem]) | intro))

@[simp] theorem State.dispatch_mem (s : State) (t : Trunk) : (State.dispatch s t).mem = s.mem := by
  unfold State.dispatch
  first
  | (simp [apply_ite State.mem]; done)
  | ((try dsimp only); repeat' (first | (with_reducible rfl) | (simp [apply_ite State.mem]; done) | split | (rw [State.foldl_mem]) | (rw [State.foldl_snd_mem]) | intro))

@[simp] theorem State.complete_mem (s : State) (t : Trunk) (slot : Nat) (free : Bool) : (State.complete s t slot free).mem = s.mem := by
  unfold State.complete
  first
  | (simp [apply_ite State.mem]; done)
  | ((try dsimp only); repeat' (first | (with_reducible rfl) | (simp [apply_ite State.mem]; done) | split | (rw [State.foldl_mem]) | intro))

@[simp] theorem State.age_mem (s : State) (t : Trunk) (slot : Nat) : (State.age s t slot).mem = s.mem := by
  unfold State.age
  first
  | (simp [apply_ite State.mem]; done)
  | ((try dsimp only); repeat' (first | (with_reducible rfl) | (simp [apply_ite State.mem]; done) | split | (rw [State.foldl_mem]) | intro))

@[simp] theorem State.schedEpoch_mem (s : State) (t : Trunk) : (State.schedEpoch s t).mem = s.mem := by
  unfold State.schedEpoch
  first
  | (simp [apply_ite State.mem]; done)
  | ((try dsimp only); repeat' (first | (with_reducible rfl) | (simp [apply_ite State.mem]; done) | split | (rw [State.foldl_mem]) | intro))

@[simp] theorem State.putGuest_mem (s : State) (t : Trunk) (c : Nat) (g : GuestSt) : (State.putGuest s t c g).mem = s.mem := by
  unfold State.putGuest
  first
  | (simp [apply_ite State.mem]; done)
  | ((try dsimp only); repeat' (first | (with_reducible rfl) | (simp [apply_ite State.mem]; done) | split | (rw [State.foldl_mem]) | intro))

@[simp] theorem State.setGuestState_mem (s : State) (t : Trunk) (c : Nat) (v : Nat) : (State.setGuestState s t c v).mem = s.mem := by
  unfold State.setGuestState
  first
  | (simp [apply_ite State.mem]; done)
  | ((try dsimp only); repeat' (first | (with_reducible rfl) | (simp [apply_ite State.mem]; done) | split | (rw [State.foldl_mem]) | intro))

@[simp] theorem State.guestWfi_mem (s : State) (t : Trunk) (c : Nat) : (State.guestWfi s t c).mem = s.mem := by
  unfold State.guestWfi
  first
  | (simp [apply_ite State.mem]; done)
  | ((try dsimp only); repeat' (first | (with_reducible rfl) | (simp [apply_ite State.mem]; done) | split | (rw [State.foldl_mem]) | intro))

@[simp] theorem State.guestFault_mem (s : State) (t : Trunk) (c : Nat) (addr : Nat) (write : Bool) : (State.guestFault s t c addr write).mem = s.mem := by
  unfold State.guestFault
  first
  | (simp [apply_ite State.mem]; done)
  | ((try dsimp only); repeat' (first | (with_reducible rfl) | (simp [apply_ite State.mem]; done) | split | (rw [State.foldl_mem]) | intro))

@[simp] theorem State.guestPost_mem (s : State) (t : Trunk) (c : Nat) (off : Nat) (v : Word) : (State.guestPost s t c off v).mem = s.mem := by
  unfold State.guestPost
  first
  | (simp [apply_ite State.mem]; done)
  | ((try dsimp only); repeat' (first | (with_reducible rfl) | (simp [apply_ite State.mem]; done) | split | (rw [State.foldl_mem]) | intro))

@[simp] theorem State.gcmpReach_mem (s : State) (t : Trunk) (core : Nat) (gcmp : BitVec 64) : (State.gcmpReach s t core gcmp).mem = s.mem := by
  unfold State.gcmpReach
  first
  | (simp [apply_ite State.mem]; done)
  | ((try dsimp only); repeat' (first | (with_reducible rfl) | (simp [apply_ite State.mem]; done) | split | (rw [State.foldl_mem]) | intro))

@[simp] theorem State.guestAct_mem (s : State) (t : Trunk) (c : Nat) (f : GuestSt → GuestSt) : (State.guestAct s t c f).mem = s.mem := by
  unfold State.guestAct
  first
  | (simp [apply_ite State.mem]; done)
  | ((try dsimp only); repeat' (first | (with_reducible rfl) | (simp [apply_ite State.mem]; done) | split | (rw [State.foldl_mem]) | intro))

@[simp] theorem State.guestBell_mem (s : State) (t : Trunk) (c : Nat) : (State.guestBell s t c).mem = s.mem := by
  unfold State.guestBell
  first
  | (simp [apply_ite State.mem]; done)
  | ((try dsimp only); repeat' (first | (with_reducible rfl) | (simp [apply_ite State.mem]; done) | split | (rw [State.foldl_mem]) | intro))

@[simp] theorem State.guestSend_mem (s : State) (t : Trunk) (c : Nat) (addr : Nat) (len : Nat) (port : Nat) : (State.guestSend s t c addr len port).mem = s.mem := by
  unfold State.guestSend
  first
  | (simp [apply_ite State.mem]; done)
  | ((try dsimp only); repeat' (first | (with_reducible rfl) | (simp [apply_ite State.mem]; done) | split | (rw [State.foldl_mem]) | intro))

@[simp] theorem State.unitSeq_mem (s : State) (t : Trunk) (code : Nat) : (State.unitSeq s t code).2.mem = s.mem := by
  unfold State.unitSeq
  first
  | (simp [apply_ite State.mem]; done)
  | ((try dsimp only); repeat' (first | (with_reducible rfl) | (simp [apply_ite State.mem]; done) | split | (rw [State.foldl_mem]) | (rw [State.foldl_snd_mem]) | intro))

@[simp] theorem State.guestFrame_mem (s : State) (t : Trunk) (c : Nat) : (State.guestFrame s t c).mem = s.mem := by
  unfold State.guestFrame
  first
  | (simp [apply_ite State.mem]; done)
  | ((try dsimp only); repeat' (first | (with_reducible rfl) | (simp [apply_ite State.mem]; done) | split | (rw [State.foldl_mem]) | intro))

@[simp] theorem State.setTrunkState_mem (s : State) (t : Trunk) (v : Nat) : (State.setTrunkState s t v).mem = s.mem := by
  unfold State.setTrunkState
  first
  | (simp [apply_ite State.mem]; done)
  | ((try dsimp only); repeat' (first | (with_reducible rfl) | (simp [apply_ite State.mem]; done) | split | (rw [State.foldl_mem]) | intro))

@[simp] theorem State.refresh_mem (s : State) : (State.refresh s).mem = s.mem := by
  unfold State.refresh
  first
  | (simp [apply_ite State.mem]; done)
  | ((try dsimp only); repeat' (first | (with_reducible rfl) | (simp [apply_ite State.mem]; done) | split | (rw [State.foldl_mem]) | intro))

@[simp] theorem State.noWork_mem (s : State) (t : Trunk) : (State.noWork s t).mem = s.mem := by
  unfold State.noWork
  first
  | (simp [apply_ite State.mem]; done)
  | ((try dsimp only); repeat' (first | (with_reducible rfl) | (simp [apply_ite State.mem]; done) | split | (rw [State.foldl_mem]) | intro))

@[simp] theorem State.heldSince_mem (s : State) (at_ : Nat) : (State.heldSince s at_).mem = s.mem := by
  unfold State.heldSince
  first
  | (simp [apply_ite State.mem]; done)
  | ((try dsimp only); repeat' (first | (with_reducible rfl) | (simp [apply_ite State.mem]; done) | split | (rw [State.foldl_mem]) | intro))

@[simp] theorem State.compareAbandon_mem (s : State) (t : Trunk) : (State.compareAbandon s t).mem = s.mem := by
  unfold State.compareAbandon
  first
  | (simp [apply_ite State.mem]; done)
  | ((try dsimp only); repeat' (first | (with_reducible rfl) | (simp [apply_ite State.mem]; done) | split | (rw [State.foldl_mem]) | (rw [State.foldl_snd_mem]) | intro))

@[simp] theorem State.resyncFails_mem (s : State) (t : Trunk) : (State.resyncFails s t).mem = s.mem := by
  unfold State.resyncFails
  first
  | (simp [apply_ite State.mem]; done)
  | ((try dsimp only); repeat' (first | (with_reducible rfl) | (simp [apply_ite State.mem]; done) | split | (rw [State.foldl_mem]) | intro))

@[simp] theorem State.countFailover_mem (s : State) : (State.countFailover s).mem = s.mem := by
  unfold State.countFailover
  first
  | (simp [apply_ite State.mem]; done)
  | ((try dsimp only); repeat' (first | (with_reducible rfl) | (simp [apply_ite State.mem]; done) | split | (rw [State.foldl_mem]) | intro))

@[simp] theorem State.keptSettle_mem (s : State) : (State.keptSettle s).mem = s.mem := by
  unfold State.keptSettle
  first
  | (simp [apply_ite State.mem]; done)
  | ((try dsimp only); repeat' (first | (with_reducible rfl) | (simp [apply_ite State.mem]; done) | split | (rw [State.foldl_mem]) | intro))

@[simp] theorem State.clearWork_mem (s : State) (t : Trunk) : (State.clearWork s t).mem = s.mem := by
  unfold State.clearWork
  first
  | (simp [apply_ite State.mem]; done)
  | ((try dsimp only); repeat' (first | (with_reducible rfl) | (simp [apply_ite State.mem]; done) | split | (rw [State.foldl_mem]) | intro))

@[simp] theorem State.startResync_mem (s : State) (t : Trunk) : (State.startResync s t).mem = s.mem := by
  unfold State.startResync
  first
  | (simp [apply_ite State.mem]; done)
  | ((try dsimp only); repeat' (first | (with_reducible rfl) | (simp [apply_ite State.mem]; done) | split | (rw [State.foldl_mem]) | intro))

@[simp] theorem State.diverge_mem (s : State) (t : Trunk) (unit : List Byte) : (State.diverge s t unit).mem = s.mem := by
  unfold State.diverge
  first
  | (simp [apply_ite State.mem]; done)
  | ((try dsimp only); repeat' (first | (with_reducible rfl) | (simp [apply_ite State.mem]; done) | split | (rw [State.foldl_mem]) | intro))

@[simp] theorem State.mismatch_mem (s : State) (h : HeldCopy) (second : Option CUnit) : (State.mismatch s h second).mem = s.mem := by
  unfold State.mismatch
  cases second
  all_goals dsimp only
  all_goals repeat' (first | (simp [apply_ite State.mem]; done) | (rename_i hh; simp [apply_ite State.mem, State.withdraw_mem _ _ _ _ hh]; done) | split)

@[simp] theorem State.compareIn_mem (s : State) (t : Trunk) (u : CUnit) : (State.compareIn s t u).mem = s.mem := by
  unfold State.compareIn
  first
  | (simp [apply_ite State.mem]; done)
  | ((try dsimp only); repeat' (first | (with_reducible rfl) | (simp [apply_ite State.mem]; done) | split | (rw [State.foldl_mem]) | intro))

@[simp] theorem State.unitArrives_mem (s : State) (t : Trunk) : (State.unitArrives s t).mem = s.mem := by
  unfold State.unitArrives
  first
  | (simp [apply_ite State.mem]; done)
  | ((try dsimp only); repeat' (first | (with_reducible rfl) | (simp [apply_ite State.mem]; done) | split | (rw [State.foldl_mem]) | intro))

@[simp] theorem State.windowExpires_mem (s : State) : (State.windowExpires s).mem = s.mem := by
  unfold State.windowExpires
  first
  | (simp [apply_ite State.mem]; done)
  | ((try dsimp only); repeat' (first | (with_reducible rfl) | (simp [apply_ite State.mem]; done) | split | (rw [State.foldl_mem]) | (rw [State.foldl_snd_mem]) | intro))

@[simp] theorem State.settleUnit_mem (s : State) (u : ArbUnit) : (State.settleUnit s u).mem = s.mem := by
  unfold State.settleUnit
  first
  | (simp [apply_ite State.mem]; done)
  | ((try dsimp only); repeat' (first | (with_reducible rfl) | (simp [apply_ite State.mem]; done) | split | (rw [State.foldl_mem]) | intro))

@[simp] theorem State.etcRelease_mem (s : State) : (State.etcRelease s).mem = s.mem := by
  unfold State.etcRelease
  first
  | (simp [apply_ite State.mem]; done)
  | ((try dsimp only); repeat' (first | (with_reducible rfl) | (simp [apply_ite State.mem]; done) | split | (rw [State.foldl_mem]) | (rw [State.foldl_snd_mem]) | intro))

@[simp] theorem State.readyCheck_mem (s : State) (t : Trunk) : (State.readyCheck s t).mem = s.mem := by
  unfold State.readyCheck
  first
  | (simp [apply_ite State.mem]; done)
  | ((try dsimp only); repeat' (first | (with_reducible rfl) | (simp [apply_ite State.mem]; done) | split | (rw [State.foldl_mem]) | intro))

@[simp] theorem State.testDone_mem (s : State) (t : Trunk) (pass : Bool) : (State.testDone s t pass).mem = s.mem := by
  unfold State.testDone
  first
  | (simp [apply_ite State.mem]; done)
  | ((try dsimp only); repeat' (first | (with_reducible rfl) | (simp [apply_ite State.mem]; done) | split | (rw [State.foldl_mem]) | intro))

@[simp] theorem State.testRetry_mem (s : State) (t : Trunk) : (State.testRetry s t).mem = s.mem := by
  unfold State.testRetry
  first
  | (simp [apply_ite State.mem]; done)
  | ((try dsimp only); repeat' (first | (with_reducible rfl) | (simp [apply_ite State.mem]; done) | split | (rw [State.foldl_mem]) | intro))

@[simp] theorem State.bulkDone_mem (s : State) : (State.bulkDone s).mem = s.mem := by
  unfold State.bulkDone
  first
  | (simp [apply_ite State.mem]; done)
  | ((try dsimp only); repeat' (first | (with_reducible rfl) | (simp [apply_ite State.mem]; done) | split | (rw [State.foldl_mem]) | intro))

@[simp] theorem State.bulkLate_mem (s : State) : (State.bulkLate s).mem = s.mem := by
  unfold State.bulkLate
  first
  | (simp [apply_ite State.mem]; done)
  | ((try dsimp only); repeat' (first | (with_reducible rfl) | (simp [apply_ite State.mem]; done) | split | (rw [State.foldl_mem]) | intro))

@[simp] theorem State.freshKeep_mem (s : State) (o : Trunk) (half : Trunk) : (State.freshKeep s o half).mem = s.mem := by
  unfold State.freshKeep
  first
  | (simp [apply_ite State.mem]; done)
  | ((try dsimp only); repeat' (first | (with_reducible rfl) | (simp [apply_ite State.mem]; done) | split | (rw [State.foldl_mem]) | intro))

@[simp] theorem State.adoptCanvases_mem (s : State) (o : Trunk) (half : Trunk) : (State.adoptCanvases s o half).mem = s.mem := by
  unfold State.adoptCanvases
  first
  | (simp [apply_ite State.mem]; done)
  | ((try dsimp only); repeat' (first | (with_reducible rfl) | (simp [apply_ite State.mem]; done) | split | (rw [State.foldl_mem]) | intro))

@[simp] theorem State.adoptHalves_mem (s : State) : (State.adoptHalves s).mem = s.mem := by
  unfold State.adoptHalves
  first
  | (simp [apply_ite State.mem]; done)
  | ((try dsimp only); repeat' (first | (with_reducible rfl) | (simp [apply_ite State.mem]; done) | split | (rw [State.foldl_mem]) | intro))

@[simp] theorem State.pairCounts_mem (s : State) (t : Trunk) : (State.pairCounts s t).mem = s.mem := by
  unfold State.pairCounts
  first
  | (simp [apply_ite State.mem]; done)
  | ((try dsimp only); repeat' (first | (with_reducible rfl) | (simp [apply_ite State.mem]; done) | split | (rw [State.foldl_mem]) | intro))

@[simp] theorem State.comeUp_mem (s : State) : (State.comeUp s).mem = s.mem := by
  unfold State.comeUp
  first
  | (simp [apply_ite State.mem]; done)
  | ((try dsimp only); repeat' (first | (with_reducible rfl) | (simp [apply_ite State.mem]; done) | split | (rw [State.foldl_mem]) | intro))

@[simp] theorem State.swapRoles_mem (s : State) : (State.swapRoles s).mem = s.mem := by
  unfold State.swapRoles
  first
  | (simp [apply_ite State.mem]; done)
  | ((try dsimp only); repeat' (first | (with_reducible rfl) | (simp [apply_ite State.mem]; done) | split | (rw [State.foldl_mem]) | intro))

@[simp] theorem State.rejoin_mem (s : State) (t : Trunk) : (State.rejoin s t).mem = s.mem := by
  unfold State.rejoin
  first
  | (simp [apply_ite State.mem]; done)
  | ((try dsimp only); repeat' (first | (with_reducible rfl) | (simp [apply_ite State.mem]; done) | split | (rw [State.foldl_mem]) | intro))

@[simp] theorem State.swapWrite_mem (s : State) : (State.swapWrite s).mem = s.mem := by
  unfold State.swapWrite
  first
  | (simp [apply_ite State.mem]; done)
  | ((try dsimp only); repeat' (first | (with_reducible rfl) | (simp [apply_ite State.mem]; done) | split | (rw [State.foldl_mem]) | intro))

@[simp] theorem State.parkWrite_mem (s : State) (t : Trunk) : (State.parkWrite s t).mem = s.mem := by
  unfold State.parkWrite
  first
  | (simp [apply_ite State.mem]; done)
  | ((try dsimp only); repeat' (first | (with_reducible rfl) | (simp [apply_ite State.mem]; done) | split | (rw [State.foldl_mem]) | intro))

@[simp] theorem axisTick_mem (s : State) (n : Nat) : (axisTick s n).mem = s.mem := by
  unfold axisTick
  first
  | (simp [apply_ite State.mem]; done)
  | ((try dsimp only); repeat' (first | (with_reducible rfl) | (simp [apply_ite State.mem]; done) | split | (rw [State.foldl_mem]) | intro))

@[simp] theorem stallTick_mem (s : State) : (stallTick s).mem = s.mem := by
  unfold stallTick
  first
  | (simp [apply_ite State.mem]; done)
  | ((try dsimp only); repeat' (first | (with_reducible rfl) | (simp [apply_ite State.mem]; done) | split | (rw [State.foldl_mem]) | (rw [State.foldl_snd_mem]) | intro))

@[simp] theorem State.putChk_mem (s : State) (e : Option Trunk) (n : Nat) (x : ChkSt) : (State.putChk s e n x).mem = s.mem := by
  unfold State.putChk
  first
  | (simp [apply_ite State.mem]; done)
  | ((try dsimp only); repeat' (first | (with_reducible rfl) | (simp [apply_ite State.mem]; done) | split | (rw [State.foldl_mem]) | intro))

@[simp] theorem State.chkFlag_mem (s : State) (e : Option Trunk) (n : Nat) (bit : Nat) (v : Bool) : (State.chkFlag s e n bit v).mem = s.mem := by
  unfold State.chkFlag
  first
  | (simp [apply_ite State.mem]; done)
  | ((try dsimp only); repeat' (first | (with_reducible rfl) | (simp [apply_ite State.mem]; done) | split | (rw [State.foldl_mem]) | intro))

@[simp] theorem State.chkPut64_mem (s : State) (e : Option Trunk) (n : Nat) (off : Nat) (v : Nat) : (State.chkPut64 s e n off v).mem = s.mem := by
  unfold State.chkPut64
  first
  | (simp [apply_ite State.mem]; done)
  | ((try dsimp only); repeat' (first | (with_reducible rfl) | (simp [apply_ite State.mem]; done) | split | (rw [State.foldl_mem]) | intro))

@[simp] theorem State.chkAbsorb_mem (s : State) (e : Option Trunk) (n : Nat) (l : List Byte) (data : Bool) : (State.chkAbsorb s e n l data).mem = s.mem := by
  unfold State.chkAbsorb
  first
  | (simp [apply_ite State.mem]; done)
  | ((try dsimp only); repeat' (first | (with_reducible rfl) | (simp [apply_ite State.mem]; done) | split | (rw [State.foldl_mem]) | intro))

@[simp] theorem State.chkStartOp_mem (s : State) (e : Option Trunk) (n : Nat) : (State.chkStartOp s e n).mem = s.mem := by
  unfold State.chkStartOp
  first
  | (simp [apply_ite State.mem]; done)
  | ((try dsimp only); repeat' (first | (with_reducible rfl) | (simp [apply_ite State.mem]; done) | split | (rw [State.foldl_mem]) | intro))

@[simp] theorem State.chkDataOp_mem (s : State) (e : Option Trunk) (n : Nat) (v : Word) : (State.chkDataOp s e n v).mem = s.mem := by
  unfold State.chkDataOp
  first
  | (simp [apply_ite State.mem]; done)
  | ((try dsimp only); repeat' (first | (with_reducible rfl) | (simp [apply_ite State.mem]; done) | split | (rw [State.foldl_mem]) | intro))

@[simp] theorem State.chkFinishOp_mem (s : State) (e : Option Trunk) (n : Nat) : (State.chkFinishOp s e n).mem = s.mem := by
  unfold State.chkFinishOp
  first
  | (simp [apply_ite State.mem]; done)
  | ((try dsimp only); repeat' (first | (with_reducible rfl) | (simp [apply_ite State.mem]; done) | split | (rw [State.foldl_mem]) | intro))

@[simp] theorem State.chkStateOp_mem (s : State) (e : Option Trunk) (n : Nat) (hi : Bool) (v : Word) : (State.chkStateOp s e n hi v).mem = s.mem := by
  unfold State.chkStateOp
  first
  | (simp [apply_ite State.mem]; done)
  | ((try dsimp only); repeat' (first | (with_reducible rfl) | (simp [apply_ite State.mem]; done) | split | (rw [State.foldl_mem]) | intro))

@[simp] theorem State.eccCapture_mem (s : State) (e : Option Trunk) (x : EccRead) (bit : Option Nat) (scrub : Bool) : (State.eccCapture s e x bit scrub).mem = s.mem := by
  unfold State.eccCapture
  first
  | (simp [apply_ite State.mem]; done)
  | ((try dsimp only); repeat' (first | (with_reducible rfl) | (simp [apply_ite State.mem]; done) | split | (rw [State.foldl_mem]) | (rw [State.foldl_snd_mem]) | intro))

@[simp] theorem State.eccCorrected_mem (s : State) (e : Option Trunk) (x : EccRead) (bit : Nat) (scrub : Bool) : (State.eccCorrected s e x bit scrub).mem = s.mem := by
  unfold State.eccCorrected
  first
  | (simp [apply_ite State.mem]; done)
  | ((try dsimp only); repeat' (first | (with_reducible rfl) | (simp [apply_ite State.mem]; done) | split | (rw [State.foldl_mem]) | intro))

@[simp] theorem State.eccEvent_mem (s : State) (e : Option Trunk) (m : Nat) : (State.eccEvent s e m).mem = s.mem := by
  unfold State.eccEvent
  first
  | (simp [apply_ite State.mem]; done)
  | ((try dsimp only); repeat' (first | (with_reducible rfl) | (simp [apply_ite State.mem]; done) | split | (rw [State.foldl_mem]) | intro))

@[simp] theorem State.eccUncorrEvent_mem (s : State) (e : Option Trunk) (x : EccRead) (scrub : Bool) (outcome : Nat) : (State.eccUncorrEvent s e x scrub outcome).mem = s.mem := by
  unfold State.eccUncorrEvent
  first
  | (simp [apply_ite State.mem]; done)
  | ((try dsimp only); repeat' (first | (with_reducible rfl) | (simp [apply_ite State.mem]; done) | split | (rw [State.foldl_mem]) | intro))

@[simp] theorem State.failItem_mem (s : State) (t : Trunk) (i : Nat) : (State.failItem s t i).mem = s.mem := by
  unfold State.failItem
  first
  | (simp [apply_ite State.mem]; done)
  | ((try dsimp only); repeat' (first | (with_reducible rfl) | (simp [apply_ite State.mem]; done) | split | (rw [State.foldl_mem]) | (rw [State.foldl_snd_mem]) | intro))

@[simp] theorem State.tmrEvent_mem (s : State) (block : BitVec 12) : (State.tmrEvent s block).mem = s.mem := by
  unfold State.tmrEvent
  first
  | (simp [apply_ite State.mem]; done)
  | ((try dsimp only); repeat' (first | (with_reducible rfl) | (simp [apply_ite State.mem]; done) | split | (rw [State.foldl_mem]) | intro))

@[simp] theorem State.dropItem_mem (s : State) (y2 : State.RootItem) : (State.dropItem s y2).mem = s.mem := by
  unfold State.dropItem
  first
  | (simp [apply_ite State.mem]; done)
  | ((try dsimp only); repeat' (first | (with_reducible rfl) | (simp [apply_ite State.mem]; done) | split | (rw [State.foldl_mem]) | intro))

@[simp] theorem State.keepCodes_mem (s : State) (t : Trunk) (e : PortJob) : (State.keepCodes s t e).mem = s.mem := by
  unfold State.keepCodes
  first
  | (simp [apply_ite State.mem]; done)
  | ((try dsimp only); repeat' (first | (with_reducible rfl) | (simp [apply_ite State.mem]; done) | split | (rw [State.foldl_mem]) | intro))

@[simp] theorem State.handAll_mem (s : State) (t : Trunk) (e : PortJob) (safety : Bool) (l : List Packed) : (State.handAll s t e safety l).mem = s.mem := by
  unfold State.handAll
  first
  | (simp [apply_ite State.mem]; done)
  | ((try dsimp only); repeat' (first | (with_reducible rfl) | (simp [apply_ite State.mem]; done) | split | (rw [State.foldl_mem]) | (rw [State.foldl_snd_mem]) | intro))

@[simp] theorem State.keepEpoch_mem (s : State) (t : Trunk) (e : PortJob) (safety : Bool) (n : Nat) : (State.keepEpoch s t e safety n).mem = s.mem := by
  unfold State.keepEpoch
  first
  | (simp [apply_ite State.mem]; done)
  | ((try dsimp only); repeat' (first | (with_reducible rfl) | (simp [apply_ite State.mem]; done) | split | (rw [State.foldl_mem]) | intro))

@[simp] theorem State.probeAfter_mem (s : State) (t : Trunk) (rec : Nat) (waits : Bool) (skipped : Bool) : (State.probeAfter s t rec waits skipped).mem = s.mem := by
  unfold State.probeAfter
  first
  | (simp [apply_ite State.mem]; done)
  | ((try dsimp only); repeat' (first | (with_reducible rfl) | (simp [apply_ite State.mem]; done) | split | (rw [State.foldl_mem]) | intro))

@[simp] theorem State.packPort_mem (s : State) (t : Trunk) (e : PortJob) (safety : Bool) : (State.packPort s t e safety).mem = s.mem := by
  unfold State.packPort
  first
  | (simp [apply_ite State.mem]; done)
  | ((try dsimp only); repeat' (first | (with_reducible rfl) | (simp [apply_ite State.mem]; done) | split | (rw [State.foldl_mem]) | intro))

@[simp] theorem State.packDone_mem (y1 : Nat) (y2 : State) (y3 : Trunk) : (State.packDone y1 y2 y3).mem = y2.mem := by
  induction y1 generalizing y2 y3 with
  | zero => rfl
  | succ y1 ih =>
    unfold State.packDone
    try dsimp only
    repeat' (first | (with_reducible rfl) | (simp [ih]; done) | split)

@[simp] theorem State.portEpoch_mem (s : State) (t : Trunk) (rec : Nat) (k : Nat) (pos : Nat) : (State.portEpoch s t rec k pos).mem = s.mem := by
  unfold State.portEpoch
  first
  | (simp [apply_ite State.mem]; done)
  | ((try dsimp only); repeat' (first | (with_reducible rfl) | (simp [apply_ite State.mem]; done) | split | (rw [State.foldl_mem]) | intro))

@[simp] theorem State.quantPixel_mem (s : State) (t : Trunk) (j : Job) (v : Nat) (w : Nat) (der : Int) (d : List Int) : (State.quantPixel s t j v w der d).2.mem = s.mem := by
  unfold State.quantPixel
  first
  | (simp [apply_ite State.mem]; done)
  | ((try dsimp only); repeat' (first | (with_reducible rfl) | (simp [apply_ite State.mem]; done) | split | (rw [State.foldl_mem]) | (rw [State.foldl_snd_mem]) | intro))

@[simp] theorem State.leafView_mem (s : State) (t : Trunk) (e : PortJob) (j : Job) (v : Nat) (der : Int) (f : CanvasFrame) : (State.leafView s t e j v der f).2.mem = s.mem := by
  unfold State.leafView
  first
  | (simp [apply_ite State.mem]; done)
  | ((try dsimp only); repeat' (first | (with_reducible rfl) | (simp [apply_ite State.mem]; done) | split | (rw [State.foldl_mem]) | (rw [State.foldl_snd_mem]) | intro))

@[simp] theorem State.runJob_mem (s : State) (t : Trunk) (e : PortJob) (j : Job) (fs : List (Option CanvasFrame)) : (State.runJob s t e j fs).2.mem = s.mem := by
  unfold State.runJob
  first
  | (simp [apply_ite State.mem]; done)
  | ((try dsimp only); repeat' (first | (with_reducible rfl) | (simp [apply_ite State.mem]; done) | split | (rw [State.foldl_mem]) | (rw [State.foldl_snd_mem]) | intro))

@[simp] theorem State.putCodes_mem (s : State) (t : Trunk) (e : PortJob) (j : Job) (j' : Job) : (State.putCodes s t e j j').mem = s.mem := by
  unfold State.putCodes
  first
  | (simp [apply_ite State.mem]; done)
  | ((try dsimp only); repeat' (first | (with_reducible rfl) | (simp [apply_ite State.mem]; done) | split | (rw [State.foldl_mem]) | intro))

@[simp] theorem State.leafDone_mem (s : State) (t : Trunk) (i : Nat) (rerun : Bool) : (State.leafDone s t i rerun).mem = s.mem := by
  unfold State.leafDone
  first
  | (simp [apply_ite State.mem]; done)
  | ((try dsimp only); repeat' (first | (with_reducible rfl) | (simp [apply_ite State.mem]; done) | split | (rw [State.foldl_mem]) | intro))

@[simp] theorem State.burstDone_mem (s : State) (t : Trunk) (rec : Nat) : (State.burstDone s t rec).mem = s.mem := by
  unfold State.burstDone
  first
  | (simp [apply_ite State.mem]; done)
  | ((try dsimp only); repeat' (first | (with_reducible rfl) | (simp [apply_ite State.mem]; done) | split | (rw [State.foldl_mem]) | intro))

@[simp] theorem State.residueCapture_mem (s : State) (t : Trunk) (c : LaneCheck) : (State.residueCapture s t c).mem = s.mem := by
  unfold State.residueCapture
  first
  | (simp [apply_ite State.mem]; done)
  | ((try dsimp only); repeat' (first | (with_reducible rfl) | (simp [apply_ite State.mem]; done) | split | (rw [State.foldl_mem]) | intro))

@[simp] theorem State.residueReport_mem (s : State) (t : Trunk) (c : LaneCheck) : (State.residueReport s t c).mem = s.mem := by
  unfold State.residueReport
  first
  | (simp [apply_ite State.mem]; done)
  | ((try dsimp only); repeat' (first | (with_reducible rfl) | (simp [apply_ite State.mem]; done) | split | (rw [State.foldl_mem]) | intro))

@[simp] theorem State.diagCodeTo_mem (s : State) (i : Nat) (c : Nat) (code : Nat) : (State.diagCodeTo s i c code).mem = s.mem := by
  unfold State.diagCodeTo
  first
  | (simp [apply_ite State.mem]; done)
  | ((try dsimp only); repeat' (first | (with_reducible rfl) | (simp [apply_ite State.mem]; done) | split | (rw [State.foldl_mem]) | intro))

@[simp] theorem State.lcReturn_mem (s : State) (f : List Byte) : (State.lcReturn s f).mem = s.mem := by
  unfold State.lcReturn
  first
  | (simp [apply_ite State.mem]; done)
  | ((try dsimp only); repeat' (first | (with_reducible rfl) | (simp [apply_ite State.mem]; done) | split | (rw [State.foldl_mem]) | (rw [State.foldl_snd_mem]) | intro))

@[simp] theorem State.hwAccept_mem (s : State) (o : List Byte) : (State.hwAccept s o).mem = s.mem := by
  unfold State.hwAccept
  first
  | (simp [apply_ite State.mem]; done)
  | ((try dsimp only); repeat' (first | (with_reducible rfl) | (simp [apply_ite State.mem]; done) | split | (rw [State.foldl_mem]) | intro))

@[simp] theorem State.hwTake_mem (s : State) (h : StemHdr) (o : List Byte) : (State.hwTake s h o).mem = s.mem := by
  unfold State.hwTake
  first
  | (simp [apply_ite State.mem]; done)
  | ((try dsimp only); repeat' (first | (with_reducible rfl) | (simp [apply_ite State.mem]; done) | split | (rw [State.foldl_mem]) | intro))

@[simp] theorem State.underSafetySeed_mem (s : State) : (State.underSafetySeed s).mem = s.mem := by
  unfold State.underSafetySeed
  first
  | (simp [apply_ite State.mem]; done)
  | ((try dsimp only); repeat' (first | (with_reducible rfl) | (simp [apply_ite State.mem]; done) | split | (rw [State.foldl_mem]) | intro))

@[simp] theorem State.purge_mem (s : State) : (State.purge s).mem = s.mem := by
  unfold State.purge
  first
  | (simp [apply_ite State.mem]; done)
  | ((try dsimp only); repeat' (first | (with_reducible rfl) | (simp [apply_ite State.mem]; done) | split | (rw [State.foldl_mem]) | (rw [State.foldl_snd_mem]) | intro))

@[simp] theorem State.alarmForce_mem (s : State) : (State.alarmForce s).mem = s.mem := by
  unfold State.alarmForce
  first
  | (simp [apply_ite State.mem]; done)
  | ((try dsimp only); repeat' (first | (with_reducible rfl) | (simp [apply_ite State.mem]; done) | split | (rw [State.foldl_mem]) | intro))

@[simp] theorem State.alarmRelease_mem (s : State) : (State.alarmRelease s).mem = s.mem := by
  unfold State.alarmRelease
  first
  | (simp [apply_ite State.mem]; done)
  | ((try dsimp only); repeat' (first | (with_reducible rfl) | (simp [apply_ite State.mem]; done) | split | (rw [State.foldl_mem]) | intro))

@[simp] theorem State.releaseWrite_mem (s : State) : (State.releaseWrite s).mem = s.mem := by
  unfold State.releaseWrite
  first
  | (simp [apply_ite State.mem]; done)
  | ((try dsimp only); repeat' (first | (with_reducible rfl) | (simp [apply_ite State.mem]; done) | split | (rw [State.foldl_mem]) | intro))

@[simp] theorem State.loopEvent_mem (s : State) (what : Nat) : (State.loopEvent s what).mem = s.mem := by
  unfold State.loopEvent
  first
  | (simp [apply_ite State.mem]; done)
  | ((try dsimp only); repeat' (first | (with_reducible rfl) | (simp [apply_ite State.mem]; done) | split | (rw [State.foldl_mem]) | intro))

@[simp] theorem State.evaluate_mem (s : State) (a : Nat) (b : Nat) : (State.evaluate s a b).mem = s.mem := by
  unfold State.evaluate
  first
  | (simp [apply_ite State.mem]; done)
  | ((try dsimp only); repeat' (first | (with_reducible rfl) | (simp [apply_ite State.mem]; done) | split | (rw [State.foldl_mem]) | intro))

@[simp] theorem State.acceptLoop_mem (s : State) (f : Field) (c : Nat) : (State.acceptLoop s f c).mem = s.mem := by
  unfold State.acceptLoop
  first
  | (simp [apply_ite State.mem]; done)
  | ((try dsimp only); repeat' (first | (with_reducible rfl) | (simp [apply_ite State.mem]; done) | split | (rw [State.foldl_mem]) | intro))

@[simp] theorem State.loopSample_mem (s : State) (ohmsA : Nat) (ohmsB : Nat) : (State.loopSample s ohmsA ohmsB).mem = s.mem := by
  unfold State.loopSample
  first
  | (simp [apply_ite State.mem]; done)
  | ((try dsimp only); repeat' (first | (with_reducible rfl) | (simp [apply_ite State.mem]; done) | split | (rw [State.foldl_mem]) | intro))

@[simp] theorem State.safetyPack_mem (s : State) (t : Trunk) : (State.safetyPack s t).mem = s.mem := by
  unfold State.safetyPack
  first
  | (simp [apply_ite State.mem]; done)
  | ((try dsimp only); repeat' (first | (with_reducible rfl) | (simp [apply_ite State.mem]; done) | split | (rw [State.foldl_mem]) | intro))

@[simp] theorem State.rootPackRec_mem (s : State) (p : Nat) (rec : Nat) : (State.rootPackRec s p rec).mem = s.mem := by
  unfold State.rootPackRec
  first
  | (simp [apply_ite State.mem]; done)
  | ((try dsimp only); repeat' (first | (with_reducible rfl) | (simp [apply_ite State.mem]; done) | split | (rw [State.foldl_mem]) | intro))

@[simp] theorem State.rootPack_mem (s : State) : (State.rootPack s).mem = s.mem := by
  unfold State.rootPack
  first
  | (simp [apply_ite State.mem]; done)
  | ((try dsimp only); repeat' (first | (with_reducible rfl) | (simp [apply_ite State.mem]; done) | split | (rw [State.foldl_mem]) | intro))

@[simp] theorem State.groveIn_mem (s : State) (h : GroveHdr) (type : Nat) (f : State → State) (hf : ∀ x0, (f x0).mem = x0.mem) : (State.groveIn s h type f).mem = s.mem := by
  unfold State.groveIn
  first
  | (simp [apply_ite State.mem, hf]; done)
  | ((try dsimp only); repeat' (first | (with_reducible rfl) | (simp [apply_ite State.mem, hf]; done) | split | (rw [State.foldl_mem]) | intro))

@[simp] theorem State.takeRecord_mem (s : State) (rec : Nat) : (State.takeRecord s rec).mem = s.mem := by
  unfold State.takeRecord
  first
  | (simp [apply_ite State.mem]; done)
  | ((try dsimp only); repeat' (first | (with_reducible rfl) | (simp [apply_ite State.mem]; done) | split | (rw [State.foldl_mem]) | intro))

@[simp] theorem State.takeover_mem (s : State) : (State.takeover s).mem = s.mem := by
  unfold State.takeover
  first
  | (simp [apply_ite State.mem]; done)
  | ((try dsimp only); repeat' (first | (with_reducible rfl) | (simp [apply_ite State.mem]; done) | split | (rw [State.foldl_mem]) | (rw [State.foldl_snd_mem]) | intro))

@[simp] theorem State.losePartner_mem (s : State) : (State.losePartner s).mem = s.mem := by
  unfold State.losePartner
  first
  | (simp [apply_ite State.mem]; done)
  | ((try dsimp only); repeat' (first | (with_reducible rfl) | (simp [apply_ite State.mem]; done) | split | (rw [State.foldl_mem]) | intro))

@[simp] theorem State.heartbeatOut_mem (s : State) : (State.heartbeatOut s).mem = s.mem := by
  unfold State.heartbeatOut
  first
  | (simp [apply_ite State.mem]; done)
  | ((try dsimp only); repeat' (first | (with_reducible rfl) | (simp [apply_ite State.mem]; done) | split | (rw [State.foldl_mem]) | intro))

@[simp] theorem State.heartbeatIn_mem (s : State) (h : GroveHdr) (serving : Bool) (takeover : Bool) (seedId : Nat) : (State.heartbeatIn s h serving takeover seedId).mem = s.mem := by
  unfold State.heartbeatIn
  first
  | (simp [apply_ite State.mem]; done)
  | ((try dsimp only); repeat' (first | (with_reducible rfl) | (simp [apply_ite State.mem]; done) | split | (rw [State.foldl_mem]) | intro))

@[simp] theorem State.heartbeatLate_mem (s : State) : (State.heartbeatLate s).mem = s.mem := by
  unfold State.heartbeatLate
  first
  | (simp [apply_ite State.mem]; done)
  | ((try dsimp only); repeat' (first | (with_reducible rfl) | (simp [apply_ite State.mem]; done) | split | (rw [State.foldl_mem]) | intro))

@[simp] theorem State.takeoverMsg_mem (s : State) (action : Nat) (k : Nat) : (State.takeoverMsg s action k).mem = s.mem := by
  unfold State.takeoverMsg
  first
  | (simp [apply_ite State.mem]; done)
  | ((try dsimp only); repeat' (first | (with_reducible rfl) | (simp [apply_ite State.mem]; done) | split | (rw [State.foldl_mem]) | intro))

@[simp] theorem State.returnSend_mem (s : State) : (State.returnSend s).mem = s.mem := by
  unfold State.returnSend
  first
  | (simp [apply_ite State.mem]; done)
  | ((try dsimp only); repeat' (first | (with_reducible rfl) | (simp [apply_ite State.mem]; done) | split | (rw [State.foldl_mem]) | intro))

@[simp] theorem State.takeoverIn_mem (s : State) (h : GroveHdr) (accept : Bool) (k : Nat) : (State.takeoverIn s h accept k).mem = s.mem := by
  unfold State.takeoverIn
  first
  | (simp [apply_ite State.mem]; done)
  | ((try dsimp only); repeat' (first | (with_reducible rfl) | (simp [apply_ite State.mem]; done) | split | (rw [State.foldl_mem]) | intro))

@[simp] theorem State.groveEpoch_mem (s : State) : (State.groveEpoch s).mem = s.mem := by
  unfold State.groveEpoch
  first
  | (simp [apply_ite State.mem]; done)
  | ((try dsimp only); repeat' (first | (with_reducible rfl) | (simp [apply_ite State.mem]; done) | split | (rw [State.foldl_mem]) | intro))

@[simp] theorem State.ringQueue_mem (s : State) (port : Nat) (len : Nat) (launch : Nat) (data : List Byte) : (State.ringQueue s port len launch data).mem = s.mem := by
  unfold State.ringQueue
  first
  | (simp [apply_ite State.mem]; done)
  | ((try dsimp only); repeat' (first | (with_reducible rfl) | (simp [apply_ite State.mem]; done) | split | (rw [State.foldl_mem]) | intro))

@[simp] theorem State.ringIn_mem (s : State) (src : Nat) (port : Nat) (part : Nat) (len : Nat) (launch : Nat) (data : List Byte) : (State.ringIn s src port part len launch data).mem = s.mem := by
  unfold State.ringIn
  first
  | (simp [apply_ite State.mem]; done)
  | ((try dsimp only); repeat' (first | (with_reducible rfl) | (simp [apply_ite State.mem]; done) | split | (rw [State.foldl_mem]) | intro))

@[simp] theorem State.ringLate_mem (s : State) : (State.ringLate s).mem = s.mem := by
  unfold State.ringLate
  first
  | (simp [apply_ite State.mem]; done)
  | ((try dsimp only); repeat' (first | (with_reducible rfl) | (simp [apply_ite State.mem]; done) | split | (rw [State.foldl_mem]) | intro))

@[simp] theorem State.plainWrite_mem (s : State) (a : Nat) (v : Nat) : (State.plainWrite s a v).mem = s.mem := by
  unfold State.plainWrite
  first
  | (simp [apply_ite State.mem]; done)
  | ((try dsimp only); repeat' (first | (with_reducible rfl) | (simp [apply_ite State.mem]; done) | split | (rw [State.foldl_mem]) | intro))

@[simp] theorem State.plainRead_mem (s : State) (a : Nat) : (State.plainRead s a).2.mem = s.mem := by
  unfold State.plainRead
  first
  | (simp [apply_ite State.mem]; done)
  | ((try dsimp only); repeat' (first | (with_reducible rfl) | (simp [apply_ite State.mem]; done) | split | (rw [State.foldl_mem]) | (rw [State.foldl_snd_mem]) | intro))

@[simp] theorem State.passPoint_mem (s : State) (key : Nat) (c : Nat) (k : Nat) : (State.passPoint s key c k).mem = s.mem := by
  unfold State.passPoint
  first
  | (simp [apply_ite State.mem]; done)
  | ((try dsimp only); repeat' (first | (with_reducible rfl) | (simp [apply_ite State.mem]; done) | split | (rw [State.foldl_mem]) | intro))

@[simp] theorem State.fitOne_mem (s : State) (n : Nat) : (State.fitOne s n).mem = s.mem := by
  unfold State.fitOne
  first
  | (simp [apply_ite State.mem]; done)
  | ((try dsimp only); repeat' (first | (with_reducible rfl) | (simp [apply_ite State.mem]; done) | split | (rw [State.foldl_mem]) | intro))

@[simp] theorem State.dmxCapture_mem (s : State) : (State.dmxCapture s).mem = s.mem := by
  unfold State.dmxCapture
  first
  | (simp [apply_ite State.mem]; done)
  | ((try dsimp only); repeat' (first | (with_reducible rfl) | (simp [apply_ite State.mem]; done) | split | (rw [State.foldl_mem]) | intro))

@[simp] theorem State.takeCapture_mem (s : State) : (State.takeCapture s).mem = s.mem := by
  unfold State.takeCapture
  first
  | (simp [apply_ite State.mem]; done)
  | ((try dsimp only); repeat' (first | (with_reducible rfl) | (simp [apply_ite State.mem]; done) | split | (rw [State.foldl_mem]) | intro))

@[simp] theorem State.moveSpare_mem (s : State) : (State.moveSpare s).mem = s.mem := by
  unfold State.moveSpare
  first
  | (simp [apply_ite State.mem]; done)
  | ((try dsimp only); repeat' (first | (with_reducible rfl) | (simp [apply_ite State.mem]; done) | split | (rw [State.foldl_mem]) | intro))

@[simp] theorem State.shedDecision_mem (s : State) : (State.shedDecision s).mem = s.mem := by
  unfold State.shedDecision
  first
  | (simp [apply_ite State.mem]; done)
  | ((try dsimp only); repeat' (first | (with_reducible rfl) | (simp [apply_ite State.mem]; done) | split | (rw [State.foldl_mem]) | intro))

@[simp] theorem State.chooseCamera_mem (s : State) (t : Trunk) (g : Nat) : (State.chooseCamera s t g).mem = s.mem := by
  unfold State.chooseCamera
  first
  | (simp [apply_ite State.mem]; done)
  | ((try dsimp only); repeat' (first | (with_reducible rfl) | (simp [apply_ite State.mem]; done) | split | (rw [State.foldl_mem]) | intro))

@[simp] theorem State.rasterSet_mem (s : State) (t : Trunk) : (State.rasterSet s t).mem = s.mem := by
  unfold State.rasterSet
  first
  | (simp [apply_ite State.mem]; done)
  | ((try dsimp only); repeat' (first | (with_reducible rfl) | (simp [apply_ite State.mem]; done) | split | (rw [State.foldl_mem]) | intro))

@[simp] theorem State.crownWrite_mem (s : State) (t : Trunk) (off : Nat) (v : Nat) : (State.crownWrite s t off v).mem = s.mem := by
  unfold State.crownWrite
  first
  | (simp [apply_ite State.mem]; done)
  | ((try dsimp only); repeat' (first | (with_reducible rfl) | (simp [apply_ite State.mem]; done) | split | (rw [State.foldl_mem]) | intro))

@[simp] theorem State.rastWrite_mem (s : State) (t : Trunk) (off : Nat) (v : Nat) : (State.rastWrite s t off v).mem = s.mem := by
  unfold State.rastWrite
  first
  | (simp [apply_ite State.mem]; done)
  | ((try dsimp only); repeat' (first | (with_reducible rfl) | (simp [apply_ite State.mem]; done) | split | (rw [State.foldl_mem]) | intro))

@[simp] theorem State.sendWrite_mem (s : State) (t : Trunk) (c : Nat) (off : Nat) (v : Nat) : (State.sendWrite s t c off v).mem = s.mem := by
  unfold State.sendWrite
  first
  | (simp [apply_ite State.mem]; done)
  | ((try dsimp only); repeat' (first | (with_reducible rfl) | (simp [apply_ite State.mem]; done) | split | (rw [State.foldl_mem]) | intro))

@[simp] theorem State.keepOld_mem (s : State) (t : Trunk) (off : Nat) : (State.keepOld s t off).mem = s.mem := by
  unfold State.keepOld
  first
  | (simp [apply_ite State.mem]; done)
  | ((try dsimp only); repeat' (first | (with_reducible rfl) | (simp [apply_ite State.mem]; done) | split | (rw [State.foldl_mem]) | intro))

@[simp] theorem State.applyPosted_mem (s : State) (t : Trunk) (c : Nat) (off : Nat) (v : Nat) : (State.applyPosted s t c off v).mem = s.mem := by
  unfold State.applyPosted
  first
  | (simp [apply_ite State.mem]; done)
  | ((try dsimp only); repeat' (first | (with_reducible rfl) | (simp [apply_ite State.mem]; done) | split | (rw [State.foldl_mem]) | intro))

@[simp] theorem State.applyAll_mem (s : State) (t : Trunk) (c : Nat) : (State.applyAll s t c).mem = s.mem := by
  unfold State.applyAll
  first
  | (simp [apply_ite State.mem]; done)
  | ((try dsimp only); repeat' (first | (with_reducible rfl) | (simp [apply_ite State.mem]; done) | split | (rw [State.foldl_mem]) | (rw [State.foldl_snd_mem]) | intro))

@[simp] theorem State.deliver_mem (s : State) (t : Trunk) (c : Nat) : (State.deliver s t c).mem = s.mem := by
  unfold State.deliver
  first
  | (simp [apply_ite State.mem]; done)
  | ((try dsimp only); repeat' (first | (with_reducible rfl) | (simp [apply_ite State.mem]; done) | split | (rw [State.foldl_mem]) | intro))

@[simp] theorem State.epochOf_mem (s : State) (e : EpochOf) : (State.epochOf s e).mem = s.mem := by
  unfold State.epochOf
  first
  | (simp [apply_ite State.mem]; done)
  | ((try dsimp only); repeat' (first | (with_reducible rfl) | (simp [apply_ite State.mem]; done) | split | (rw [State.foldl_mem]) | intro))

@[simp] theorem State.dropRegs_mem (s : State) (p : Nat → Bool) : (State.dropRegs s p).mem = s.mem := by
  unfold State.dropRegs
  first
  | (simp [apply_ite State.mem]; done)
  | ((try dsimp only); repeat' (first | (with_reducible rfl) | (simp [apply_ite State.mem]; done) | split | (rw [State.foldl_mem]) | intro))

@[simp] theorem State.settleUnits_mem (s : State) : (State.settleUnits s).mem = s.mem := by
  unfold State.settleUnits
  first
  | (simp [apply_ite State.mem]; done)
  | ((try dsimp only); repeat' (first | (with_reducible rfl) | (simp [apply_ite State.mem]; done) | split | (rw [State.foldl_mem]) | intro))

@[simp] theorem State.keepFrames_mem (s : State) (old : State) : (State.keepFrames s old).mem = s.mem := by
  unfold State.keepFrames
  first
  | (simp [apply_ite State.mem]; done)
  | ((try dsimp only); repeat' (first | (with_reducible rfl) | (simp [apply_ite State.mem]; done) | split | (rw [State.foldl_mem]) | (rw [State.foldl_snd_mem]) | intro))

@[simp] theorem State.seedModes_mem (s : State) (d : Seed) : (State.seedModes s d).mem = s.mem := by
  unfold State.seedModes
  first
  | (simp [apply_ite State.mem]; done)
  | ((try dsimp only); repeat' (first | (with_reducible rfl) | (simp [apply_ite State.mem]; done) | split | (rw [State.foldl_mem]) | intro))

@[simp] theorem State.bindAxis_mem (s : State) (n : Nat) : (State.bindAxis s n).mem = s.mem := by
  unfold State.bindAxis
  first
  | (simp [apply_ite State.mem]; done)
  | ((try dsimp only); repeat' (first | (with_reducible rfl) | (simp [apply_ite State.mem]; done) | split | (rw [State.foldl_mem]) | intro))

@[simp] theorem State.startCadences_mem (s : State) (at_ : Option (Nat × Nat)) : (State.startCadences s at_).mem = s.mem := by
  unfold State.startCadences
  first
  | (simp [apply_ite State.mem]; done)
  | ((try dsimp only); repeat' (first | (with_reducible rfl) | (simp [apply_ite State.mem]; done) | split | (rw [State.foldl_mem]) | intro))

@[simp] theorem State.setQb_mem (s : State) (k : Nat) (depth : Nat) (wide : Bool) (thr : Nat) (stale : Nat) : (State.setQb s k depth wide thr stale).mem = s.mem := by
  unfold State.setQb
  first
  | (simp [apply_ite State.mem]; done)
  | ((try dsimp only); repeat' (first | (with_reducible rfl) | (simp [apply_ite State.mem]; done) | split | (rw [State.foldl_mem]) | intro))

@[simp] theorem State.portBlocks_mem (s : State) (n : Nat) : (State.portBlocks s n).mem = s.mem := by
  unfold State.portBlocks
  first
  | (simp [apply_ite State.mem]; done)
  | ((try dsimp only); repeat' (first | (with_reducible rfl) | (simp [apply_ite State.mem]; done) | split | (rw [State.foldl_mem]) | intro))

@[simp] theorem State.seedPorts_mem (s : State) : (State.seedPorts s).mem = s.mem := by
  unfold State.seedPorts
  first
  | (simp [apply_ite State.mem]; done)
  | ((try dsimp only); repeat' (first | (with_reducible rfl) | (simp [apply_ite State.mem]; done) | split | (rw [State.foldl_mem]) | intro))

@[simp] theorem State.seedRaster_mem (s : State) (t : Trunk) (g : Nat) (r : List Byte) : (State.seedRaster s t g r).mem = s.mem := by
  unfold State.seedRaster
  first
  | (simp [apply_ite State.mem]; done)
  | ((try dsimp only); repeat' (first | (with_reducible rfl) | (simp [apply_ite State.mem]; done) | split | (rw [State.foldl_mem]) | intro))

@[simp] theorem State.seedTrunkRegs_mem (s : State) (t : Trunk) : (State.seedTrunkRegs s t).mem = s.mem := by
  unfold State.seedTrunkRegs
  first
  | (simp [apply_ite State.mem]; done)
  | ((try dsimp only); repeat' (first | (with_reducible rfl) | (simp [apply_ite State.mem]; done) | split | (rw [State.foldl_mem]) | intro))

@[simp] theorem State.seedRasters_mem (s : State) (t : Trunk) : (State.seedRasters s t).mem = s.mem := by
  unfold State.seedRasters
  first
  | (simp [apply_ite State.mem]; done)
  | ((try dsimp only); repeat' (first | (with_reducible rfl) | (simp [apply_ite State.mem]; done) | split | (rw [State.foldl_mem]) | intro))

@[simp] theorem State.seedPictures_mem (s : State) (t : Trunk) : (State.seedPictures s t).mem = s.mem := by
  unfold State.seedPictures
  first
  | (simp [apply_ite State.mem]; done)
  | ((try dsimp only); repeat' (first | (with_reducible rfl) | (simp [apply_ite State.mem]; done) | split | (rw [State.foldl_mem]) | intro))

@[simp] theorem State.seedBlocks_mem (s : State) (t : Trunk) : (State.seedBlocks s t).mem = s.mem := by
  unfold State.seedBlocks
  first
  | (simp [apply_ite State.mem]; done)
  | ((try dsimp only); repeat' (first | (with_reducible rfl) | (simp [apply_ite State.mem]; done) | split | (rw [State.foldl_mem]) | intro))

@[simp] theorem State.seedTwin_mem (s : State) : (State.seedTwin s).mem = s.mem := by
  unfold State.seedTwin
  first
  | (simp [apply_ite State.mem]; done)
  | ((try dsimp only); repeat' (first | (with_reducible rfl) | (simp [apply_ite State.mem]; done) | split | (rw [State.foldl_mem]) | intro))

@[simp] theorem State.seedGrove_mem (s : State) : (State.seedGrove s).mem = s.mem := by
  unfold State.seedGrove
  first
  | (simp [apply_ite State.mem]; done)
  | ((try dsimp only); repeat' (first | (with_reducible rfl) | (simp [apply_ite State.mem]; done) | split | (rw [State.foldl_mem]) | intro))

@[simp] theorem State.openSlot_mem (s : State) (k : Nat) (t : Nat) : (State.openSlot s k t).mem = s.mem := by
  unfold State.openSlot
  first
  | (simp [apply_ite State.mem]; done)
  | ((try dsimp only); repeat' (first | (with_reducible rfl) | (simp [apply_ite State.mem]; done) | split | (rw [State.foldl_mem]) | intro))

@[simp] theorem State.freezeOpen_mem (s : State) : (State.freezeOpen s).mem = s.mem := by
  unfold State.freezeOpen
  first
  | (simp [apply_ite State.mem]; done)
  | ((try dsimp only); repeat' (first | (with_reducible rfl) | (simp [apply_ite State.mem]; done) | split | (rw [State.foldl_mem]) | intro))

@[simp] theorem State.recordNext_mem (s : State) : (State.recordNext s).mem = s.mem := by
  unfold State.recordNext
  first
  | (simp [apply_ite State.mem]; done)
  | ((try dsimp only); repeat' (first | (with_reducible rfl) | (simp [apply_ite State.mem]; done) | split | (rw [State.foldl_mem]) | intro))

@[simp] theorem State.recFreeze_mem (s : State) : (State.recFreeze s).mem = s.mem := by
  unfold State.recFreeze
  first
  | (simp [apply_ite State.mem]; done)
  | ((try dsimp only); repeat' (first | (with_reducible rfl) | (simp [apply_ite State.mem]; done) | split | (rw [State.foldl_mem]) | intro))

@[simp] theorem State.recThaw_mem (s : State) (k : Nat) : (State.recThaw s k).mem = s.mem := by
  unfold State.recThaw
  first
  | (simp [apply_ite State.mem]; done)
  | ((try dsimp only); repeat' (first | (with_reducible rfl) | (simp [apply_ite State.mem]; done) | split | (rw [State.foldl_mem]) | intro))

@[simp] theorem State.useSettings_mem (s : State) : (State.useSettings s).mem = s.mem := by
  unfold State.useSettings
  first
  | (simp [apply_ite State.mem]; done)
  | ((try dsimp only); repeat' (first | (with_reducible rfl) | (simp [apply_ite State.mem]; done) | split | (rw [State.foldl_mem]) | intro))

@[simp] theorem State.writeGen_mem (s : State) (state : Nat) (body : List Byte) : (State.writeGen s state body).mem = s.mem := by
  unfold State.writeGen
  first
  | (simp [apply_ite State.mem]; done)
  | ((try dsimp only); repeat' (first | (with_reducible rfl) | (simp [apply_ite State.mem]; done) | split | (rw [State.foldl_mem]) | intro))

@[simp] theorem State.writeSettings_mem (s : State) (body : List Byte) : (State.writeSettings s body).mem = s.mem := by
  unfold State.writeSettings
  first
  | (simp [apply_ite State.mem]; done)
  | ((try dsimp only); repeat' (first | (with_reducible rfl) | (simp [apply_ite State.mem]; done) | split | (rw [State.foldl_mem]) | intro))

@[simp] theorem State.shadowLive_mem (s : State) (key : Option (List Byte)) : (State.shadowLive s key).mem = s.mem := by
  unfold State.shadowLive
  first
  | (simp [apply_ite State.mem]; done)
  | ((try dsimp only); repeat' (first | (with_reducible rfl) | (simp [apply_ite State.mem]; done) | split | (rw [State.foldl_mem]) | intro))

@[simp] theorem State.shadowDrop_mem (s : State) : (State.shadowDrop s).mem = s.mem := by
  unfold State.shadowDrop
  first
  | (simp [apply_ite State.mem]; done)
  | ((try dsimp only); repeat' (first | (with_reducible rfl) | (simp [apply_ite State.mem]; done) | split | (rw [State.foldl_mem]) | intro))

@[simp] theorem State.loadImage_mem (s : State) (addrs : List Nat) (v : List Byte) : (State.loadImage s addrs v).mem = s.mem := by
  unfold State.loadImage
  first
  | (simp [apply_ite State.mem]; done)
  | ((try dsimp only); repeat' (first | (with_reducible rfl) | (simp [apply_ite State.mem]; done) | split | (rw [State.foldl_mem]) | (rw [State.foldl_snd_mem]) | intro))

@[simp] theorem State.loadRecord_mem (s : State) (r : Nat × Bool × List Byte) : (State.loadRecord s r).mem = s.mem := by
  unfold State.loadRecord
  first
  | (simp [apply_ite State.mem]; done)
  | ((try dsimp only); repeat' (first | (with_reducible rfl) | (simp [apply_ite State.mem]; done) | split | (rw [State.foldl_mem]) | intro))

@[simp] theorem State.loadSettings_mem (s : State) (cold : Bool) : (State.loadSettings s cold).mem = s.mem := by
  unfold State.loadSettings
  first
  | (simp [apply_ite State.mem]; done)
  | ((try dsimp only); repeat' (first | (with_reducible rfl) | (simp [apply_ite State.mem]; done) | split | (rw [State.foldl_mem]) | intro))

@[simp] theorem State.lifeRefresh_mem (s : State) : (State.lifeRefresh s).mem = s.mem := by
  unfold State.lifeRefresh
  first
  | (simp [apply_ite State.mem]; done)
  | ((try dsimp only); repeat' (first | (with_reducible rfl) | (simp [apply_ite State.mem]; done) | split | (rw [State.foldl_mem]) | intro))

@[simp] theorem State.setDigest_mem (s : State) (base : Nat) (d : List Byte) : (State.setDigest s base d).mem = s.mem := by
  unfold State.setDigest
  first
  | (simp [apply_ite State.mem]; done)
  | ((try dsimp only); repeat' (first | (with_reducible rfl) | (simp [apply_ite State.mem]; done) | split | (rw [State.foldl_mem]) | intro))

@[simp] theorem State.updRegs_mem (s : State) : (State.updRegs s).mem = s.mem := by
  unfold State.updRegs
  first
  | (simp [apply_ite State.mem]; done)
  | ((try dsimp only); repeat' (first | (with_reducible rfl) | (simp [apply_ite State.mem]; done) | split | (rw [State.foldl_mem]) | intro))

@[simp] theorem State.putSlots_mem (s : State) (cls : Nat) (x : ImgSlots) : (State.putSlots s cls x).mem = s.mem := by
  unfold State.putSlots
  first
  | (simp [apply_ite State.mem]; done)
  | ((try dsimp only); repeat' (first | (with_reducible rfl) | (simp [apply_ite State.mem]; done) | split | (rw [State.foldl_mem]) | intro))

@[simp] theorem State.putArmed_mem (s : State) (cls : Nat) (a : Armed) : (State.putArmed s cls a).mem = s.mem := by
  unfold State.putArmed
  first
  | (simp [apply_ite State.mem]; done)
  | ((try dsimp only); repeat' (first | (with_reducible rfl) | (simp [apply_ite State.mem]; done) | split | (rw [State.foldl_mem]) | intro))

@[simp] theorem State.disarm_mem (s : State) (cls : Nat) : (State.disarm s cls).mem = s.mem := by
  unfold State.disarm
  first
  | (simp [apply_ite State.mem]; done)
  | ((try dsimp only); repeat' (first | (with_reducible rfl) | (simp [apply_ite State.mem]; done) | split | (rw [State.foldl_mem]) | intro))

@[simp] theorem State.seedRefused_mem (s : State) (img : List Byte) (f : Nat × Nat × Nat) : (State.seedRefused s img f).mem = s.mem := by
  unfold State.seedRefused
  first
  | (simp [apply_ite State.mem]; done)
  | ((try dsimp only); repeat' (first | (with_reducible rfl) | (simp [apply_ite State.mem]; done) | split | (rw [State.foldl_mem]) | intro))

@[simp] theorem State.stageImage_mem (s : State) (h : StemHdr) (cls : Nat) (img : List Byte) : (State.stageImage s h cls img).mem = s.mem := by
  unfold State.stageImage
  first
  | (simp [apply_ite State.mem]; done)
  | ((try dsimp only); repeat' (first | (with_reducible rfl) | (simp [apply_ite State.mem]; done) | split | (rw [State.foldl_mem]) | intro))

@[simp] theorem State.stageTake_mem (s : State) (h : StemHdr) (cls : Nat) (img : List Byte) : (State.stageTake s h cls img).mem = s.mem := by
  unfold State.stageTake
  first
  | (simp [apply_ite State.mem]; done)
  | ((try dsimp only); repeat' (first | (with_reducible rfl) | (simp [apply_ite State.mem]; done) | split | (rw [State.foldl_mem]) | intro))

@[simp] theorem State.sendUpd_mem (s : State) (dst : Nat) (op : Nat) (cls : Nat) (code : Nat) (a : Armed) : (State.sendUpd s dst op cls code a).mem = s.mem := by
  unfold State.sendUpd
  first
  | (simp [apply_ite State.mem]; done)
  | ((try dsimp only); repeat' (first | (with_reducible rfl) | (simp [apply_ite State.mem]; done) | split | (rw [State.foldl_mem]) | intro))

@[simp] theorem State.answerAct_mem (s : State) (a : Armed) (code : Nat) : (State.answerAct s a code).mem = s.mem := by
  unfold State.answerAct
  first
  | (simp [apply_ite State.mem]; done)
  | ((try dsimp only); repeat' (first | (with_reducible rfl) | (simp [apply_ite State.mem]; done) | split | (rw [State.foldl_mem]) | intro))

@[simp] theorem State.checkGo_mem (s : State) (cls : Nat) : (State.checkGo s cls).mem = s.mem := by
  unfold State.checkGo
  first
  | (simp [apply_ite State.mem]; done)
  | ((try dsimp only); repeat' (first | (with_reducible rfl) | (simp [apply_ite State.mem]; done) | split | (rw [State.foldl_mem]) | intro))

@[simp] theorem State.acknowledge_mem (s : State) (cls : Nat) : (State.acknowledge s cls).mem = s.mem := by
  unfold State.acknowledge
  first
  | (simp [apply_ite State.mem]; done)
  | ((try dsimp only); repeat' (first | (with_reducible rfl) | (simp [apply_ite State.mem]; done) | split | (rw [State.foldl_mem]) | intro))

@[simp] theorem State.writeNow_mem (s : State) (cls : Nat) : (State.writeNow s cls).mem = s.mem := by
  unfold State.writeNow
  first
  | (simp [apply_ite State.mem]; done)
  | ((try dsimp only); repeat' (first | (with_reducible rfl) | (simp [apply_ite State.mem]; done) | split | (rw [State.foldl_mem]) | intro))

@[simp] theorem State.activateCmd_mem (s : State) (h : StemHdr) (cls : Nat) (axis : Nat) (pos : Nat) (digest : List Byte) : (State.activateCmd s h cls axis pos digest).mem = s.mem := by
  unfold State.activateCmd
  first
  | (simp [apply_ite State.mem]; done)
  | ((try dsimp only); repeat' (first | (with_reducible rfl) | (simp [apply_ite State.mem]; done) | split | (rw [State.foldl_mem]) | intro))

@[simp] theorem State.prepared_mem (s : State) (cls : Nat) : (State.prepared s cls).mem = s.mem := by
  unfold State.prepared
  first
  | (simp [apply_ite State.mem]; done)
  | ((try dsimp only); repeat' (first | (with_reducible rfl) | (simp [apply_ite State.mem]; done) | split | (rw [State.foldl_mem]) | intro))

@[simp] theorem State.actFails_mem (s : State) (cls : Nat) (code : Nat) : (State.actFails s cls code).mem = s.mem := by
  unfold State.actFails
  first
  | (simp [apply_ite State.mem]; done)
  | ((try dsimp only); repeat' (first | (with_reducible rfl) | (simp [apply_ite State.mem]; done) | split | (rw [State.foldl_mem]) | intro))

@[simp] theorem State.switchSlots_mem (s : State) (cls : Nat) (fallback : Bool) : (State.switchSlots s cls fallback).mem = s.mem := by
  unfold State.switchSlots
  first
  | (simp [apply_ite State.mem]; done)
  | ((try dsimp only); repeat' (first | (with_reducible rfl) | (simp [apply_ite State.mem]; done) | split | (rw [State.foldl_mem]) | intro))

@[simp] theorem State.switchFirmware_mem (s : State) (a : Armed) : (State.switchFirmware s a).mem = s.mem := by
  unfold State.switchFirmware
  first
  | (simp [apply_ite State.mem]; done)
  | ((try dsimp only); repeat' (first | (with_reducible rfl) | (simp [apply_ite State.mem]; done) | split | (rw [State.foldl_mem]) | intro))

@[simp] theorem State.storeSafety_mem (s : State) (img : List Byte) : (State.storeSafety s img).mem = s.mem := by
  unfold State.storeSafety
  first
  | (simp [apply_ite State.mem]; done)
  | ((try dsimp only); repeat' (first | (with_reducible rfl) | (simp [apply_ite State.mem]; done) | split | (rw [State.foldl_mem]) | intro))

@[simp] theorem State.confirm_mem (s : State) (cls : Nat) : (State.confirm s cls).mem = s.mem := by
  unfold State.confirm
  first
  | (simp [apply_ite State.mem]; done)
  | ((try dsimp only); repeat' (first | (with_reducible rfl) | (simp [apply_ite State.mem]; done) | split | (rw [State.foldl_mem]) | intro))

@[simp] theorem State.reportHealth_mem (s : State) : (State.reportHealth s).mem = s.mem := by
  unfold State.reportHealth
  first
  | (simp [apply_ite State.mem]; done)
  | ((try dsimp only); repeat' (first | (with_reducible rfl) | (simp [apply_ite State.mem]; done) | split | (rw [State.foldl_mem]) | intro))

@[simp] theorem State.imageConfirmation_mem (s : State) (cls : Nat) : (State.imageConfirmation s cls).mem = s.mem := by
  unfold State.imageConfirmation
  first
  | (simp [apply_ite State.mem]; done)
  | ((try dsimp only); repeat' (first | (with_reducible rfl) | (simp [apply_ite State.mem]; done) | split | (rw [State.foldl_mem]) | intro))

@[simp] theorem State.confirmCmd_mem (s : State) (h : StemHdr) (cls : Nat) (digest : List Byte) : (State.confirmCmd s h cls digest).mem = s.mem := by
  unfold State.confirmCmd
  first
  | (simp [apply_ite State.mem]; done)
  | ((try dsimp only); repeat' (first | (with_reducible rfl) | (simp [apply_ite State.mem]; done) | split | (rw [State.foldl_mem]) | intro))

@[simp] theorem State.fallbackEffects_mem (s : State) (cls : Nat) : (State.fallbackEffects s cls).mem = s.mem := by
  unfold State.fallbackEffects
  first
  | (simp [apply_ite State.mem]; done)
  | ((try dsimp only); repeat' (first | (with_reducible rfl) | (simp [apply_ite State.mem]; done) | split | (rw [State.foldl_mem]) | intro))

@[simp] theorem State.armFallback_mem (s : State) (cls : Nat) (axis : Nat) (pos : Nat) (go : Bool) : (State.armFallback s cls axis pos go).mem = s.mem := by
  unfold State.armFallback
  first
  | (simp [apply_ite State.mem]; done)
  | ((try dsimp only); repeat' (first | (with_reducible rfl) | (simp [apply_ite State.mem]; done) | split | (rw [State.foldl_mem]) | intro))

@[simp] theorem State.imageFallback_mem (s : State) (cls : Nat) : (State.imageFallback s cls).mem = s.mem := by
  unfold State.imageFallback
  first
  | (simp [apply_ite State.mem]; done)
  | ((try dsimp only); repeat' (first | (with_reducible rfl) | (simp [apply_ite State.mem]; done) | split | (rw [State.foldl_mem]) | intro))

@[simp] theorem State.fallbackAlone_mem (s : State) (cls : Nat) : (State.fallbackAlone s cls).mem = s.mem := by
  unfold State.fallbackAlone
  first
  | (simp [apply_ite State.mem]; done)
  | ((try dsimp only); repeat' (first | (with_reducible rfl) | (simp [apply_ite State.mem]; done) | split | (rw [State.foldl_mem]) | intro))

@[simp] theorem State.settingsCheck_mem (s : State) : (State.settingsCheck s).mem = s.mem := by
  unfold State.settingsCheck
  first
  | (simp [apply_ite State.mem]; done)
  | ((try dsimp only); repeat' (first | (with_reducible rfl) | (simp [apply_ite State.mem]; done) | split | (rw [State.foldl_mem]) | intro))

@[simp] theorem State.discardCmd_mem (s : State) (h : StemHdr) (cls : Nat) : (State.discardCmd s h cls).mem = s.mem := by
  unfold State.discardCmd
  first
  | (simp [apply_ite State.mem]; done)
  | ((try dsimp only); repeat' (first | (with_reducible rfl) | (simp [apply_ite State.mem]; done) | split | (rw [State.foldl_mem]) | intro))

@[simp] theorem State.updActivate_mem (s : State) (h : GroveHdr) (m : UpdMsg) : (State.updActivate s h m).mem = s.mem := by
  unfold State.updActivate
  first
  | (simp [apply_ite State.mem]; done)
  | ((try dsimp only); repeat' (first | (with_reducible rfl) | (simp [apply_ite State.mem]; done) | split | (rw [State.foldl_mem]) | intro))

@[simp] theorem State.updAck_mem (s : State) (h : GroveHdr) (refuse : Bool) (m : UpdMsg) : (State.updAck s h refuse m).mem = s.mem := by
  unfold State.updAck
  first
  | (simp [apply_ite State.mem]; done)
  | ((try dsimp only); repeat' (first | (with_reducible rfl) | (simp [apply_ite State.mem]; done) | split | (rw [State.foldl_mem]) | intro))

@[simp] theorem State.updGo_mem (s : State) (h : GroveHdr) (cancel : Bool) (m : UpdMsg) : (State.updGo s h cancel m).mem = s.mem := by
  unfold State.updGo
  first
  | (simp [apply_ite State.mem]; done)
  | ((try dsimp only); repeat' (first | (with_reducible rfl) | (simp [apply_ite State.mem]; done) | split | (rw [State.foldl_mem]) | intro))

@[simp] theorem State.goDeadline_mem (s : State) (cls : Nat) : (State.goDeadline s cls).mem = s.mem := by
  unfold State.goDeadline
  first
  | (simp [apply_ite State.mem]; done)
  | ((try dsimp only); repeat' (first | (with_reducible rfl) | (simp [apply_ite State.mem]; done) | split | (rw [State.foldl_mem]) | intro))

@[simp] theorem State.noGo_mem (s : State) (cls : Nat) : (State.noGo s cls).mem = s.mem := by
  unfold State.noGo
  first
  | (simp [apply_ite State.mem]; done)
  | ((try dsimp only); repeat' (first | (with_reducible rfl) | (simp [apply_ite State.mem]; done) | split | (rw [State.foldl_mem]) | intro))

@[simp] theorem State.updHealth_mem (s : State) (h : GroveHdr) (m : UpdMsg) : (State.updHealth s h m).mem = s.mem := by
  unfold State.updHealth
  first
  | (simp [apply_ite State.mem]; done)
  | ((try dsimp only); repeat' (first | (with_reducible rfl) | (simp [apply_ite State.mem]; done) | split | (rw [State.foldl_mem]) | intro))

@[simp] theorem State.updConfirm_mem (s : State) (h : GroveHdr) (m : UpdMsg) : (State.updConfirm s h m).mem = s.mem := by
  unfold State.updConfirm
  first
  | (simp [apply_ite State.mem]; done)
  | ((try dsimp only); repeat' (first | (with_reducible rfl) | (simp [apply_ite State.mem]; done) | split | (rw [State.foldl_mem]) | intro))

@[simp] theorem State.faultPad_mem (s : State) : (State.faultPad s).mem = s.mem := by
  unfold State.faultPad
  first
  | (simp [apply_ite State.mem]; done)
  | ((try dsimp only); repeat' (first | (with_reducible rfl) | (simp [apply_ite State.mem]; done) | split | (rw [State.foldl_mem]) | intro))

@[simp] theorem State.freshNonce_mem (s : State) : (State.freshNonce s).mem = s.mem := by
  unfold State.freshNonce
  first
  | (simp [apply_ite State.mem]; done)
  | ((try dsimp only); repeat' (first | (with_reducible rfl) | (simp [apply_ite State.mem]; done) | split | (rw [State.foldl_mem]) | (rw [State.foldl_snd_mem]) | intro))

@[simp] theorem State.calFuses_mem (s : State) : (State.calFuses s).mem = s.mem := by
  unfold State.calFuses
  first
  | (simp [apply_ite State.mem]; done)
  | ((try dsimp only); repeat' (first | (with_reducible rfl) | (simp [apply_ite State.mem]; done) | split | (rw [State.foldl_mem]) | intro))

@[simp] theorem State.bootLoader_mem (s : State) : (State.bootLoader s).mem = s.mem := by
  unfold State.bootLoader
  first
  | (simp [apply_ite State.mem]; done)
  | ((try dsimp only); repeat' (first | (with_reducible rfl) | (simp [apply_ite State.mem]; done) | split | (rw [State.foldl_mem]) | intro))

@[simp] theorem State.bootSeed_mem (s : State) : (State.bootSeed s).mem = s.mem := by
  unfold State.bootSeed
  first
  | (simp [apply_ite State.mem]; done)
  | ((try dsimp only); repeat' (first | (with_reducible rfl) | (simp [apply_ite State.mem]; done) | split | (rw [State.foldl_mem]) | intro))

@[simp] theorem State.safetySeedEvent_mem (s : State) (f : Nat × Nat × Nat) (repaired : Bool) : (State.safetySeedEvent s f repaired).mem = s.mem := by
  unfold State.safetySeedEvent
  first
  | (simp [apply_ite State.mem]; done)
  | ((try dsimp only); repeat' (first | (with_reducible rfl) | (simp [apply_ite State.mem]; done) | split | (rw [State.foldl_mem]) | intro))

@[simp] theorem State.safetySeedCheck_mem (s : State) : (State.safetySeedCheck s).mem = s.mem := by
  unfold State.safetySeedCheck
  first
  | (simp [apply_ite State.mem]; done)
  | ((try dsimp only); repeat' (first | (with_reducible rfl) | (simp [apply_ite State.mem]; done) | split | (rw [State.foldl_mem]) | intro))

@[simp] theorem State.closeSegment_mem (s : State) : (State.closeSegment s).mem = s.mem := by
  unfold State.closeSegment
  first
  | (simp [apply_ite State.mem]; done)
  | ((try dsimp only); repeat' (first | (with_reducible rfl) | (simp [apply_ite State.mem]; done) | split | (rw [State.foldl_mem]) | intro))

@[simp] theorem State.romBoot_mem (s : State) (cold : Bool) : (State.romBoot s cold).mem = s.mem := by
  unfold State.romBoot
  first
  | (simp [apply_ite State.mem]; done)
  | ((try dsimp only); repeat' (first | (with_reducible rfl) | (simp [apply_ite State.mem]; done) | split | (rw [State.foldl_mem]) | intro))

@[simp] theorem State.powerDown_mem (s : State) : (State.powerDown s).mem = s.mem := by
  unfold State.powerDown
  first
  | (simp [apply_ite State.mem]; done)
  | ((try dsimp only); repeat' (first | (with_reducible rfl) | (simp [apply_ite State.mem]; done) | split | (rw [State.foldl_mem]) | (rw [State.foldl_snd_mem]) | intro))

@[simp] theorem State.dip_mem (s : State) : (State.dip s).mem = s.mem := by
  unfold State.dip
  first
  | (simp [apply_ite State.mem]; done)
  | ((try dsimp only); repeat' (first | (with_reducible rfl) | (simp [apply_ite State.mem]; done) | split | (rw [State.foldl_mem]) | intro))

@[simp] theorem State.mainsOut_mem (s : State) (us : Nat) (overVolt : Bool) : (State.mainsOut s us overVolt).mem = s.mem := by
  unfold State.mainsOut
  first
  | (simp [apply_ite State.mem]; done)
  | ((try dsimp only); repeat' (first | (with_reducible rfl) | (simp [apply_ite State.mem]; done) | split | (rw [State.foldl_mem]) | intro))

@[simp] theorem State.auxTrip_mem (s : State) (us : Nat) : (State.auxTrip s us).mem = s.mem := by
  unfold State.auxTrip
  first
  | (simp [apply_ite State.mem]; done)
  | ((try dsimp only); repeat' (first | (with_reducible rfl) | (simp [apply_ite State.mem]; done) | split | (rw [State.foldl_mem]) | intro))

@[simp] theorem State.auxBack_mem (s : State) : (State.auxBack s).mem = s.mem := by
  unfold State.auxBack
  first
  | (simp [apply_ite State.mem]; done)
  | ((try dsimp only); repeat' (first | (with_reducible rfl) | (simp [apply_ite State.mem]; done) | split | (rw [State.foldl_mem]) | intro))

@[simp] theorem State.resetRelease_mem (s : State) : (State.resetRelease s).mem = s.mem := by
  unfold State.resetRelease
  first
  | (simp [apply_ite State.mem]; done)
  | ((try dsimp only); repeat' (first | (with_reducible rfl) | (simp [apply_ite State.mem]; done) | split | (rw [State.foldl_mem]) | intro))

@[simp] theorem State.seedLoaded_mem (s : State) (t : Trunk) : (State.seedLoaded s t).mem = s.mem := by
  unfold State.seedLoaded
  first
  | (simp [apply_ite State.mem]; done)
  | ((try dsimp only); repeat' (first | (with_reducible rfl) | (simp [apply_ite State.mem]; done) | split | (rw [State.foldl_mem]) | intro))

@[simp] theorem State.graftPair_mem (s : State) (t : Trunk) (x : GraftTx) : (State.graftPair s t x).mem = s.mem := by
  unfold State.graftPair
  first
  | (simp [apply_ite State.mem]; done)
  | ((try dsimp only); repeat' (first | (with_reducible rfl) | (simp [apply_ite State.mem]; done) | split | (rw [State.foldl_mem]) | intro))

@[simp] theorem State.graftRequest_mem (s : State) (i : Nat) (core : Option Trunk) (x : GraftTx) : (State.graftRequest s i core x).mem = s.mem := by
  unfold State.graftRequest
  first
  | (simp [apply_ite State.mem]; done)
  | ((try dsimp only); repeat' (first | (with_reducible rfl) | (simp [apply_ite State.mem]; done) | split | (rw [State.foldl_mem]) | intro))

@[simp] theorem State.graftAnswer_mem (s : State) (tag : Nat) (a : GraftAnswer) : (State.graftAnswer s tag a).mem = s.mem := by
  unfold State.graftAnswer
  first
  | (simp [apply_ite State.mem]; done)
  | ((try dsimp only); repeat' (first | (with_reducible rfl) | (simp [apply_ite State.mem]; done) | split | (rw [State.foldl_mem]) | intro))

@[simp] theorem State.graftAgain_mem (s : State) (tag : Nat) : (State.graftAgain s tag).mem = s.mem := by
  unfold State.graftAgain
  first
  | (simp [apply_ite State.mem]; done)
  | ((try dsimp only); repeat' (first | (with_reducible rfl) | (simp [apply_ite State.mem]; done) | split | (rw [State.foldl_mem]) | intro))

@[simp] theorem State.graftLate_mem (s : State) (tag : Nat) : (State.graftLate s tag).mem = s.mem := by
  unfold State.graftLate
  first
  | (simp [apply_ite State.mem]; done)
  | ((try dsimp only); repeat' (first | (with_reducible rfl) | (simp [apply_ite State.mem]; done) | split | (rw [State.foldl_mem]) | intro))

@[simp] theorem State.graftAbort_mem (s : State) (x : GraftTx) : (State.graftAbort s x).mem = s.mem := by
  unfold State.graftAbort
  first
  | (simp [apply_ite State.mem]; done)
  | ((try dsimp only); repeat' (first | (with_reducible rfl) | (simp [apply_ite State.mem]; done) | split | (rw [State.foldl_mem]) | intro))

@[simp] theorem State.graftInbound_mem (s : State) (pos : Nat) (m : GraftMsg) : (State.graftInbound s pos m).mem = s.mem := by
  unfold State.graftInbound
  first
  | (simp [apply_ite State.mem]; done)
  | ((try dsimp only); repeat' (first | (with_reducible rfl) | (simp [apply_ite State.mem]; done) | split | (rw [State.foldl_mem]) | intro))

@[simp] theorem State.graftMessage_mem (s : State) (pos : Nat) (m : GraftMsg) : (State.graftMessage s pos m).mem = s.mem := by
  unfold State.graftMessage
  first
  | (simp [apply_ite State.mem]; done)
  | ((try dsimp only); repeat' (first | (with_reducible rfl) | (simp [apply_ite State.mem]; done) | split | (rw [State.foldl_mem]) | intro))

@[simp] theorem State.graftReissue_mem (s : State) (tag : Nat) : (State.graftReissue s tag).mem = s.mem := by
  unfold State.graftReissue
  first
  | (simp [apply_ite State.mem]; done)
  | ((try dsimp only); repeat' (first | (with_reducible rfl) | (simp [apply_ite State.mem]; done) | split | (rw [State.foldl_mem]) | intro))

@[simp] theorem State.graftAttr_mem (s : State) (r : Nat) (v : Word) : (State.graftAttr s r v).mem = s.mem := by
  unfold State.graftAttr
  first
  | (simp [apply_ite State.mem]; done)
  | ((try dsimp only); repeat' (first | (with_reducible rfl) | (simp [apply_ite State.mem]; done) | split | (rw [State.foldl_mem]) | intro))

@[simp] theorem State.calStale_mem (s : State) : (State.calStale s).mem = s.mem := by
  unfold State.calStale
  first
  | (simp [apply_ite State.mem]; done)
  | ((try dsimp only); repeat' (first | (with_reducible rfl) | (simp [apply_ite State.mem]; done) | split | (rw [State.foldl_mem]) | (rw [State.foldl_snd_mem]) | intro))

@[simp] theorem State.tempRegs_mem (s : State) (base : Int) (dieA : Int) (dieB : Int) (dieRoot : Int) : (State.tempRegs s base dieA dieB dieRoot).mem = s.mem := by
  unfold State.tempRegs
  first
  | (simp [apply_ite State.mem]; done)
  | ((try dsimp only); repeat' (first | (with_reducible rfl) | (simp [apply_ite State.mem]; done) | split | (rw [State.foldl_mem]) | intro))

@[simp] theorem State.throttle_mem (s : State) (on : Bool) : (State.throttle s on).mem = s.mem := by
  unfold State.throttle
  first
  | (simp [apply_ite State.mem]; done)
  | ((try dsimp only); repeat' (first | (with_reducible rfl) | (simp [apply_ite State.mem]; done) | split | (rw [State.foldl_mem]) | intro))

@[simp] theorem State.throttleOn_mem (s : State) : (State.throttleOn s).mem = s.mem := by
  unfold State.throttleOn
  first
  | (simp [apply_ite State.mem]; done)
  | ((try dsimp only); repeat' (first | (with_reducible rfl) | (simp [apply_ite State.mem]; done) | split | (rw [State.foldl_mem]) | intro))

@[simp] theorem State.throttleOff_mem (s : State) : (State.throttleOff s).mem = s.mem := by
  unfold State.throttleOff
  first
  | (simp [apply_ite State.mem]; done)
  | ((try dsimp only); repeat' (first | (with_reducible rfl) | (simp [apply_ite State.mem]; done) | split | (rw [State.foldl_mem]) | intro))

@[simp] theorem State.moduleFault_mem (s : State) (switchCore : Bool) : (State.moduleFault s switchCore).mem = s.mem := by
  unfold State.moduleFault
  first
  | (simp [apply_ite State.mem]; done)
  | ((try dsimp only); repeat' (first | (with_reducible rfl) | (simp [apply_ite State.mem]; done) | split | (rw [State.foldl_mem]) | intro))

@[simp] theorem State.lifeDone_mem (s : State) (h : StemHdr) (op : Nat) (code : Nat) : (State.lifeDone s h op code).mem = s.mem := by
  unfold State.lifeDone
  first
  | (simp [apply_ite State.mem]; done)
  | ((try dsimp only); repeat' (first | (with_reducible rfl) | (simp [apply_ite State.mem]; done) | split | (rw [State.foldl_mem]) | intro))

@[simp] theorem State.signedCmd_mem (s : State) (h : StemHdr) (op : Nat) (p : List Byte) (f : State → State) (hf : ∀ x0, (f x0).mem = x0.mem) : (State.signedCmd s h op p f).mem = s.mem := by
  unfold State.signedCmd
  first
  | (simp [apply_ite State.mem, hf]; done)
  | ((try dsimp only); repeat' (first | (with_reducible rfl) | (simp [apply_ite State.mem, hf]; done) | split | (rw [State.foldl_mem]) | intro))

@[simp] theorem State.lifeProvision_mem (s : State) (h : StemHdr) (key : List Byte) : (State.lifeProvision s h key).mem = s.mem := by
  unfold State.lifeProvision
  first
  | (simp [apply_ite State.mem]; done)
  | ((try dsimp only); repeat' (first | (with_reducible rfl) | (simp [apply_ite State.mem]; done) | split | (rw [State.foldl_mem]) | intro))

@[simp] theorem State.lifeRekey_mem (s : State) (h : StemHdr) (p : List Byte) : (State.lifeRekey s h p).mem = s.mem := by
  unfold State.lifeRekey
  first
  | (simp [apply_ite State.mem]; done)
  | ((try dsimp only); repeat' (first | (with_reducible rfl) | (simp [apply_ite State.mem]; done) | split | (rw [State.foldl_mem]) | intro))

@[simp] theorem State.lifeService_mem (s : State) (h : StemHdr) (leave : Bool) (p : List Byte) : (State.lifeService s h leave p).mem = s.mem := by
  unfold State.lifeService
  first
  | (simp [apply_ite State.mem]; done)
  | ((try dsimp only); repeat' (first | (with_reducible rfl) | (simp [apply_ite State.mem]; done) | split | (rw [State.foldl_mem]) | intro))

@[simp] theorem State.bistRun_mem (s : State) (h : StemHdr) (kind : Nat) (trunk : Nat) (index : Nat) (pattern : Nat) (ms : Nat) : (State.bistRun s h kind trunk index pattern ms).mem = s.mem := by
  unfold State.bistRun
  first
  | (simp [apply_ite State.mem]; done)
  | ((try dsimp only); repeat' (first | (with_reducible rfl) | (simp [apply_ite State.mem]; done) | split | (rw [State.foldl_mem]) | intro))

@[simp] theorem State.bistEnd_mem (s : State) (errors : Nat) (bits : Nat) (eye : Nat) (restored : Bool) : (State.bistEnd s errors bits eye restored).mem = s.mem := by
  unfold State.bistEnd
  first
  | (simp [apply_ite State.mem]; done)
  | ((try dsimp only); repeat' (first | (with_reducible rfl) | (simp [apply_ite State.mem]; done) | split | (rw [State.foldl_mem]) | intro))

@[simp] theorem State.vectorPass_mem (s : State) (t : Trunk) (pass : Bool) : (State.vectorPass s t pass).mem = s.mem := by
  unfold State.vectorPass
  first
  | (simp [apply_ite State.mem]; done)
  | ((try dsimp only); repeat' (first | (with_reducible rfl) | (simp [apply_ite State.mem]; done) | split | (rw [State.foldl_mem]) | intro))

@[simp] theorem State.laneError_mem (s : State) (t : Trunk) (bits : Nat) : (State.laneError s t bits).mem = s.mem := by
  unfold State.laneError
  first
  | (simp [apply_ite State.mem]; done)
  | ((try dsimp only); repeat' (first | (with_reducible rfl) | (simp [apply_ite State.mem]; done) | split | (rw [State.foldl_mem]) | intro))

@[simp] theorem State.laneQuiet_mem (s : State) (t : Trunk) : (State.laneQuiet s t).mem = s.mem := by
  unfold State.laneQuiet
  first
  | (simp [apply_ite State.mem]; done)
  | ((try dsimp only); repeat' (first | (with_reducible rfl) | (simp [apply_ite State.mem]; done) | split | (rw [State.foldl_mem]) | intro))

@[simp] theorem State.calBegin_mem (y1 : Nat) (y2 : State) : (State.calBegin y1 y2).mem = y2.mem := by
  induction y1 generalizing y2 with
  | zero => rfl
  | succ y1 ih =>
    unfold State.calBegin
    try dsimp only
    repeat' (first | (with_reducible rfl) | (simp [ih]; done) | split)

@[simp] theorem State.calRun_mem (s : State) (h : StemHdr) (item : Nat) (index : Nat) (skew : Int) : (State.calRun s h item index skew).mem = s.mem := by
  unfold State.calRun
  first
  | (simp [apply_ite State.mem]; done)
  | ((try dsimp only); repeat' (first | (with_reducible rfl) | (simp [apply_ite State.mem]; done) | split | (rw [State.foldl_mem]) | intro))

@[simp] theorem State.calEnd_mem (s : State) (c : CalRun) (code : Nat) : (State.calEnd s c code).mem = s.mem := by
  unfold State.calEnd
  first
  | (simp [apply_ite State.mem]; done)
  | ((try dsimp only); repeat' (first | (with_reducible rfl) | (simp [apply_ite State.mem]; done) | split | (rw [State.foldl_mem]) | intro))

@[simp] theorem State.calPass_mem (s : State) (c : CalRun) (resE : Int) (resI : Int) : (State.calPass s c resE resI).mem = s.mem := by
  unfold State.calPass
  first
  | (simp [apply_ite State.mem]; done)
  | ((try dsimp only); repeat' (first | (with_reducible rfl) | (simp [apply_ite State.mem]; done) | split | (rw [State.foldl_mem]) | intro))

@[simp] theorem State.calPhase_mem (s : State) (c : CalRun) : (State.calPhase s c).mem = s.mem := by
  unfold State.calPhase
  first
  | (simp [apply_ite State.mem]; done)
  | ((try dsimp only); repeat' (first | (with_reducible rfl) | (simp [apply_ite State.mem]; done) | split | (rw [State.foldl_mem]) | intro))

@[simp] theorem State.calSample_mem (s : State) (egress : Int) (ingress : Int) (errors : Nat) : (State.calSample s egress ingress errors).mem = s.mem := by
  unfold State.calSample
  first
  | (simp [apply_ite State.mem]; done)
  | ((try dsimp only); repeat' (first | (with_reducible rfl) | (simp [apply_ite State.mem]; done) | split | (rw [State.foldl_mem]) | intro))

@[simp] theorem State.calLate_mem (s : State) : (State.calLate s).mem = s.mem := by
  unfold State.calLate
  first
  | (simp [apply_ite State.mem]; done)
  | ((try dsimp only); repeat' (first | (with_reducible rfl) | (simp [apply_ite State.mem]; done) | split | (rw [State.foldl_mem]) | intro))

@[simp] theorem State.axisWrite_mem (s : State) (a : Nat) (v : Word) : (State.axisWrite s a v).mem = s.mem := by
  unfold State.axisWrite
  first
  | (simp [apply_ite State.mem]; done)
  | ((try dsimp only); repeat' (first | (with_reducible rfl) | (simp [apply_ite State.mem]; done) | split | (rw [State.foldl_mem]) | intro))

@[simp] theorem State.ringCfg_mem (s : State) (r : Nat) (v : Word) : (State.ringCfg s r v).mem = s.mem := by
  unfold State.ringCfg
  first
  | (simp [apply_ite State.mem]; done)
  | ((try dsimp only); repeat' (first | (with_reducible rfl) | (simp [apply_ite State.mem]; done) | split | (rw [State.foldl_mem]) | intro))

@[simp] theorem State.stemWrite_mem (s : State) (a : Nat) (v : Word) : (State.stemWrite s a v).mem = s.mem := by
  unfold State.stemWrite
  first
  | (simp [apply_ite State.mem]; done)
  | ((try dsimp only); repeat' (first | (with_reducible rfl) | (simp [apply_ite State.mem]; done) | split | (rw [State.foldl_mem]) | intro))

@[simp] theorem State.logWrite_mem (s : State) (f : Field) (v : Nat) (lo : Int) (hi : Int) : (State.logWrite s f v lo hi).mem = s.mem := by
  unfold State.logWrite
  first
  | (simp [apply_ite State.mem]; done)
  | ((try dsimp only); repeat' (first | (with_reducible rfl) | (simp [apply_ite State.mem]; done) | split | (rw [State.foldl_mem]) | intro))

@[simp] theorem State.intvWrite_mem (s : State) (i : Nat) (v : Nat) : (State.intvWrite s i v).mem = s.mem := by
  unfold State.intvWrite
  first
  | (simp [apply_ite State.mem]; done)
  | ((try dsimp only); repeat' (first | (with_reducible rfl) | (simp [apply_ite State.mem]; done) | split | (rw [State.foldl_mem]) | intro))

@[simp] theorem State.timeWrite_mem (s : State) (a : Nat) (v : Word) : (State.timeWrite s a v).mem = s.mem := by
  unfold State.timeWrite
  first
  | (simp [apply_ite State.mem]; done)
  | ((try dsimp only); repeat' (first | (with_reducible rfl) | (simp [apply_ite State.mem]; done) | split | (rw [State.foldl_mem]) | intro))

@[simp] theorem State.cmpWrite_mem (s : State) (v : Word) : (State.cmpWrite s v).mem = s.mem := by
  unfold State.cmpWrite
  first
  | (simp [apply_ite State.mem]; done)
  | ((try dsimp only); repeat' (first | (with_reducible rfl) | (simp [apply_ite State.mem]; done) | split | (rw [State.foldl_mem]) | intro))

@[simp] theorem State.chkWrite_mem (s : State) (a : Nat) (n : Nat) (v : Word) : (State.chkWrite s a n v).mem = s.mem := by
  unfold State.chkWrite
  first
  | (simp [apply_ite State.mem]; done)
  | ((try dsimp only); repeat' (first | (with_reducible rfl) | (simp [apply_ite State.mem]; done) | split | (rw [State.foldl_mem]) | intro))

@[simp] theorem State.calWrite_mem (s : State) (a : Nat) (v : Word) : (State.calWrite s a v).mem = s.mem := by
  unfold State.calWrite
  first
  | (simp [apply_ite State.mem]; done)
  | ((try dsimp only); repeat' (first | (with_reducible rfl) | (simp [apply_ite State.mem]; done) | split | (rw [State.foldl_mem]) | intro))

@[simp] theorem State.rootWrite_mem (s : State) (a : Nat) (v : Word) : (State.rootWrite s a v).mem = s.mem := by
  unfold State.rootWrite
  first
  | (simp [apply_ite State.mem]; done)
  | ((try dsimp only); repeat' (first | (with_reducible rfl) | (simp [apply_ite State.mem]; done) | split | (rw [State.foldl_mem]) | intro))

@[simp] theorem State.icuWrite_mem (s : State) (t : Trunk) (off : Nat) (v : Word) : (State.icuWrite s t off v).mem = s.mem := by
  unfold State.icuWrite
  first
  | (simp [apply_ite State.mem]; done)
  | ((try dsimp only); repeat' (first | (with_reducible rfl) | (simp [apply_ite State.mem]; done) | split | (rw [State.foldl_mem]) | intro))

@[simp] theorem State.guestWrite_mem (s : State) (t : Trunk) (c : Nat) (off : Nat) (v : Word) : (State.guestWrite s t c off v).mem = s.mem := by
  unfold State.guestWrite
  first
  | (simp [apply_ite State.mem]; done)
  | ((try dsimp only); repeat' (first | (with_reducible rfl) | (simp [apply_ite State.mem]; done) | split | (rw [State.foldl_mem]) | intro))

@[simp] theorem State.trunkWrite_mem (s : State) (t : Trunk) (off : Nat) (v : Word) : (State.trunkWrite s t off v).mem = s.mem := by
  unfold State.trunkWrite
  first
  | (simp [apply_ite State.mem]; done)
  | ((try dsimp only); repeat' (first | (with_reducible rfl) | (simp [apply_ite State.mem]; done) | split | (rw [State.foldl_mem]) | intro))

@[simp] theorem State.keepSet_mem (s0 : State) (s : State) (a : Nat) : (State.keepSet s0 s a).mem = s.mem := by
  unfold State.keepSet
  first
  | (simp [apply_ite State.mem]; done)
  | ((try dsimp only); repeat' (first | (with_reducible rfl) | (simp [apply_ite State.mem]; done) | split | (rw [State.foldl_mem]) | (rw [State.foldl_snd_mem]) | intro))

@[simp] theorem State.rootStore_mem (s : State) (a : Nat) (v : Word) : (State.rootStore s a v).mem = s.mem := by
  unfold State.rootStore
  first
  | (simp [apply_ite State.mem]; done)
  | ((try dsimp only); repeat' (first | (with_reducible rfl) | (simp [apply_ite State.mem]; done) | split | (rw [State.foldl_mem]) | intro))

@[simp] theorem State.trunkStore_mem (s : State) (t : Trunk) (off : Nat) (v : Word) : (State.trunkStore s t off v).mem = s.mem := by
  unfold State.trunkStore
  first
  | (simp [apply_ite State.mem]; done)
  | ((try dsimp only); repeat' (first | (with_reducible rfl) | (simp [apply_ite State.mem]; done) | split | (rw [State.foldl_mem]) | intro))

@[simp] theorem State.wordWrite_mem (s : State) (a : Nat) (v : Word) : (State.wordWrite s a v).mem = s.mem := by
  unfold State.wordWrite
  first
  | (simp [apply_ite State.mem]; done)
  | ((try dsimp only); repeat' (first | (with_reducible rfl) | (simp [apply_ite State.mem]; done) | split | (rw [State.foldl_mem]) | intro))

@[simp] theorem State.busWrite_mem (s : State) (a : Nat) (v : Word) : (State.busWrite s a v).mem = s.mem := by
  unfold State.busWrite
  first
  | (simp [apply_ite State.mem]; done)
  | ((try dsimp only); repeat' (first | (with_reducible rfl) | (simp [apply_ite State.mem]; done) | split | (rw [State.foldl_mem]) | intro))

@[simp] theorem State.readClear_mem (s : State) (b : Nat) : (State.readClear s b).mem = s.mem := by
  unfold State.readClear
  first
  | (simp [apply_ite State.mem]; done)
  | ((try dsimp only); repeat' (first | (with_reducible rfl) | (simp [apply_ite State.mem]; done) | split | (rw [State.foldl_mem]) | intro))

@[simp] theorem State.readLatch_mem (s : State) (b : Nat) : (State.readLatch s b).mem = s.mem := by
  unfold State.readLatch
  first
  | (simp [apply_ite State.mem]; done)
  | ((try dsimp only); repeat' (first | (with_reducible rfl) | (simp [apply_ite State.mem]; done) | split | (rw [State.foldl_mem]) | intro))

@[simp] theorem State.clearTwin_mem (s : State) (f : State → Nat → State) (a : Nat) (b : Nat) (hf : ∀ x0 x1, (f x0 x1).mem = x0.mem) : (State.clearTwin s f a b).mem = s.mem := by
  unfold State.clearTwin
  first
  | (simp [apply_ite State.mem, hf]; done)
  | ((try dsimp only); repeat' (first | (with_reducible rfl) | (simp [apply_ite State.mem, hf]; done) | split | (rw [State.foldl_mem]) | intro))

@[simp] theorem State.wordRead_mem (s : State) (a : Nat) : (State.wordRead s a).mem = s.mem := by
  unfold State.wordRead
  first
  | (simp [apply_ite State.mem]; done)
  | ((try dsimp only); repeat' (first | (with_reducible rfl) | (simp [apply_ite State.mem]; done) | split | (rw [State.foldl_mem]) | intro))

@[simp] theorem State.eventsAt_mem (v : Word) (s : State) (b : Nat) : (State.eventsAt v s b).mem = s.mem := by
  unfold State.eventsAt
  first
  | (simp [apply_ite State.mem]; done)
  | ((try dsimp only); repeat' (first | (with_reducible rfl) | (simp [apply_ite State.mem]; done) | split | (rw [State.foldl_mem]) | intro))

@[simp] theorem State.eventsAfter_mem (s : State) (a : Nat) (v : Word) : (State.eventsAfter s a v).mem = s.mem := by
  unfold State.eventsAfter
  first
  | (simp [apply_ite State.mem]; done)
  | ((try dsimp only); repeat' (first | (with_reducible rfl) | (simp [apply_ite State.mem]; done) | split | (rw [State.foldl_mem]) | intro))

@[simp] theorem State.issueWrites_mem (s : State) : (State.issueWrites s).mem = s.mem := by
  unfold State.issueWrites
  first
  | (simp [apply_ite State.mem]; done)
  | ((try dsimp only); repeat' (first | (with_reducible rfl) | (simp [apply_ite State.mem]; done) | split | (rw [State.foldl_mem]) | (rw [State.foldl_snd_mem]) | intro))

@[simp] theorem State.barWrite_mem (s : State) (off : Nat) (v : Word) : (State.barWrite s off v).mem = s.mem := by
  unfold State.barWrite
  first
  | (simp [apply_ite State.mem]; done)
  | ((try dsimp only); repeat' (first | (with_reducible rfl) | (simp [apply_ite State.mem]; done) | split | (rw [State.foldl_mem]) | intro))

@[simp] theorem State.hostRead_mem (s : State) (bar : Bool) (addr : Nat) (events : Word) : (State.hostRead s bar addr events).mem = s.mem := by
  unfold State.hostRead
  first
  | (simp [apply_ite State.mem]; done)
  | ((try dsimp only); repeat' (first | (with_reducible rfl) | (simp [apply_ite State.mem]; done) | split | (rw [State.foldl_mem]) | intro))

@[simp] theorem State.readReg_mem (s : State) (h : StemHdr) (addr : Nat) (len : Nat) : (State.readReg s h addr len).mem = s.mem := by
  unfold State.readReg
  first
  | (simp [apply_ite State.mem]; done)
  | ((try dsimp only); repeat' (first | (with_reducible rfl) | (simp [apply_ite State.mem]; done) | split | (rw [State.foldl_mem]) | (rw [State.foldl_snd_mem]) | intro))

@[simp] theorem State.writeReg_mem (s : State) (h : StemHdr) (addr : Nat) (data : List Word) : (State.writeReg s h addr data).mem = s.mem := by
  unfold State.writeReg
  first
  | (simp [apply_ite State.mem]; done)
  | ((try dsimp only); repeat' (first | (with_reducible rfl) | (simp [apply_ite State.mem]; done) | split | (rw [State.foldl_mem]) | (rw [State.foldl_snd_mem]) | intro))

@[simp] theorem State.graftMem_mem (s : State) (h : StemHdr) (write : Bool) (addr : Nat) (len : Nat) (data : List Byte) : (State.graftMem s h write addr len data).mem = s.mem := by
  unfold State.graftMem
  first
  | (simp [apply_ite State.mem]; done)
  | ((try dsimp only); repeat' (first | (with_reducible rfl) | (simp [apply_ite State.mem]; done) | split | (rw [State.foldl_mem]) | intro))

@[simp] theorem State.readMem_mem (s : State) (h : StemHdr) (addr : Nat) (len : Nat) : (State.readMem s h addr len).mem = s.mem := by
  unfold State.readMem
  first
  | (simp [apply_ite State.mem]; done)
  | ((try dsimp only); repeat' (first | (with_reducible rfl) | (simp [apply_ite State.mem]; done) | split | (rw [State.foldl_mem]) | intro))

@[simp] theorem State.countRef_mem (s : State) (n : Nat) (ready : Bool) (p : Nat) (adv : Nat) : (State.countRef s n ready p adv).mem = s.mem := by
  unfold State.countRef
  first
  | (simp [apply_ite State.mem]; done)
  | ((try dsimp only); repeat' (first | (with_reducible rfl) | (simp [apply_ite State.mem]; done) | split | (rw [State.foldl_mem]) | intro))

@[simp] theorem State.frameStart_mem (s : State) (n : Nat) (at_ : Nat) (k : Nat) (off : Int) : (State.frameStart s n at_ k off).mem = s.mem := by
  unfold State.frameStart
  first
  | (simp [apply_ite State.mem]; done)
  | ((try dsimp only); repeat' (first | (with_reducible rfl) | (simp [apply_ite State.mem]; done) | split | (rw [State.foldl_mem]) | intro))

@[simp] theorem State.videoEdge_mem (s : State) (n : Nat) (start : Bool) (lines : Nat) : (State.videoEdge s n start lines).mem = s.mem := by
  unfold State.videoEdge
  first
  | (simp [apply_ite State.mem]; done)
  | ((try dsimp only); repeat' (first | (with_reducible rfl) | (simp [apply_ite State.mem]; done) | split | (rw [State.foldl_mem]) | intro))

@[simp] theorem State.st2110In_mem (s : State) (n : Nat) (rtp : Nat) (k : Nat) : (State.st2110In s n rtp k).mem = s.mem := by
  unfold State.st2110In
  first
  | (simp [apply_ite State.mem]; done)
  | ((try dsimp only); repeat' (first | (with_reducible rfl) | (simp [apply_ite State.mem]; done) | split | (rw [State.foldl_mem]) | intro))

@[simp] theorem State.aesAxis_mem (s : State) (slot : Nat) (rtp : Nat) (n : Nat) : (State.aesAxis s slot rtp n).mem = s.mem := by
  unfold State.aesAxis
  first
  | (simp [apply_ite State.mem]; done)
  | ((try dsimp only); repeat' (first | (with_reducible rfl) | (simp [apply_ite State.mem]; done) | split | (rw [State.foldl_mem]) | intro))

@[simp] theorem State.aesIn_mem (s : State) (slot : Nat) (rtp : Nat) : (State.aesIn s slot rtp).mem = s.mem := by
  unfold State.aesIn
  first
  | (simp [apply_ite State.mem]; done)
  | ((try dsimp only); repeat' (first | (with_reducible rfl) | (simp [apply_ite State.mem]; done) | split | (rw [State.foldl_mem]) | intro))

@[simp] theorem State.wclkIn_mem (s : State) (n : Nat) : (State.wclkIn s n).mem = s.mem := by
  unfold State.wclkIn
  first
  | (simp [apply_ite State.mem]; done)
  | ((try dsimp only); repeat' (first | (with_reducible rfl) | (simp [apply_ite State.mem]; done) | split | (rw [State.foldl_mem]) | intro))

@[simp] theorem State.ltcIn_mem (s : State) (n : Nat) (hh : Nat) (mm : Nat) (ss : Nat) (ff : Nat) (readable : Bool) : (State.ltcIn s n hh mm ss ff readable).mem = s.mem := by
  unfold State.ltcIn
  first
  | (simp [apply_ite State.mem]; done)
  | ((try dsimp only); repeat' (first | (with_reducible rfl) | (simp [apply_ite State.mem]; done) | split | (rw [State.foldl_mem]) | intro))

end Sys2Proof.Machine
end

