-- ==== Sys2Proof/Laws/FrameQueue.lean ====
section
/-! SUPPORT. Queue frames: every operation leaves the queue of waiting commands as it was, one lemma an operation. -/

namespace Sys2Proof.Machine

set_option linter.unusedSimpArgs false

@[simp] theorem State.foldl_pending {α : Type} (f : State → α → State) (h : ∀ s x, (f s x).pending = s.pending) (l : List α) (s : State) :
    (l.foldl f s).pending = s.pending := by
  induction l generalizing s with
  | nil => rfl
  | cons a r ih => simp [List.foldl, ih, h]
theorem State.foldl_snd_pending {α β : Type} (f : β × State → α → β × State) (h : ∀ a x, (f a x).2.pending = a.2.pending) (l : List α) (a : β × State) :
    (l.foldl f a).2.pending = a.2.pending := by
  induction l generalizing a with
  | nil => rfl
  | cons x r ih => simp [List.foldl, ih, h]
theorem State.foldl_fst_pending {α β : Type} (f : State × β → α → State × β) (h : ∀ a x, (f a x).1.pending = a.1.pending) (l : List α) (a : State × β) :
    (l.foldl f a).1.pending = a.1.pending := by
  induction l generalizing a with
  | nil => rfl
  | cons x r ih => simp [List.foldl, ih, h]
@[simp] theorem State.setReg_pending (s : State) (a : Nat) (w : Word) : (State.setReg s a w).pending = s.pending := by
  unfold State.setReg
  first
  | (simp [apply_ite State.pending]; done)
  | ((try dsimp only); repeat' (first | (with_reducible rfl) | (simp [apply_ite State.pending]; done) | split | (rw [State.foldl_pending]) | intro))

@[simp] theorem State.setRegN_pending (s : State) (a : Nat) (v : Nat) : (State.setRegN s a v).pending = s.pending := by
  unfold State.setRegN
  first
  | (simp [apply_ite State.pending]; done)
  | ((try dsimp only); repeat' (first | (with_reducible rfl) | (simp [apply_ite State.pending]; done) | split | (rw [State.foldl_pending]) | intro))

@[simp] theorem State.noteSet_pending (s : State) (f : Field) (v : Nat) : (State.noteSet s f v).pending = s.pending := by
  unfold State.noteSet
  first
  | (simp [apply_ite State.pending]; done)
  | ((try dsimp only); repeat' (first | (with_reducible rfl) | (simp [apply_ite State.pending]; done) | split | (rw [State.foldl_pending]) | intro))

@[simp] theorem State.keepAgain_pending (s : State) (a : Nat) (l : List (Nat × Nat)) : (State.keepAgain s a l).pending = s.pending := by
  unfold State.keepAgain
  first
  | (simp [apply_ite State.pending]; done)
  | ((try dsimp only); repeat' (first | (with_reducible rfl) | (simp [apply_ite State.pending]; done) | split | (rw [State.foldl_pending]) | intro))

@[simp] theorem State.fset_pending (s : State) (f : Field) (v : Nat) : (State.fset s f v).pending = s.pending := by
  unfold State.fset
  first
  | (simp [apply_ite State.pending]; done)
  | ((try dsimp only); repeat' (first | (with_reducible rfl) | (simp [apply_ite State.pending]; done) | split | (rw [State.foldl_pending]) | intro))

@[simp] theorem State.fsetB_pending (s : State) (f : Field) (b : Bool) : (State.fsetB s f b).pending = s.pending := by
  unfold State.fsetB
  first
  | (simp [apply_ite State.pending]; done)
  | ((try dsimp only); repeat' (first | (with_reducible rfl) | (simp [apply_ite State.pending]; done) | split | (rw [State.foldl_pending]) | intro))

@[simp] theorem State.bumpBy_pending (s : State) (a : Nat) (n : Nat) : (State.bumpBy s a n).pending = s.pending := by
  unfold State.bumpBy
  first
  | (simp [apply_ite State.pending]; done)
  | ((try dsimp only); repeat' (first | (with_reducible rfl) | (simp [apply_ite State.pending]; done) | split | (rw [State.foldl_pending]) | intro))

@[simp] theorem State.bump_pending (s : State) (a : Nat) : (State.bump s a).pending = s.pending := by
  unfold State.bump
  first
  | (simp [apply_ite State.pending]; done)
  | ((try dsimp only); repeat' (first | (with_reducible rfl) | (simp [apply_ite State.pending]; done) | split | (rw [State.foldl_pending]) | intro))

@[simp] theorem State.fmax_pending (s : State) (f : Field) (v : Nat) : (State.fmax s f v).pending = s.pending := by
  unfold State.fmax
  first
  | (simp [apply_ite State.pending]; done)
  | ((try dsimp only); repeat' (first | (with_reducible rfl) | (simp [apply_ite State.pending]; done) | split | (rw [State.foldl_pending]) | intro))

@[simp] theorem State.regMax_pending (s : State) (a : Nat) (v : Nat) : (State.regMax s a v).pending = s.pending := by
  unfold State.regMax
  first
  | (simp [apply_ite State.pending]; done)
  | ((try dsimp only); repeat' (first | (with_reducible rfl) | (simp [apply_ite State.pending]; done) | split | (rw [State.foldl_pending]) | intro))

@[simp] theorem State.setReg64_pending (s : State) (lo : Nat) (hi : Nat) (v : Nat) : (State.setReg64 s lo hi v).pending = s.pending := by
  unfold State.setReg64
  first
  | (simp [apply_ite State.pending]; done)
  | ((try dsimp only); repeat' (first | (with_reducible rfl) | (simp [apply_ite State.pending]; done) | split | (rw [State.foldl_pending]) | intro))

@[simp] theorem State.setReg96_pending (s : State) (lo : Nat) (mid : Nat) (hi : Nat) (v : Nat) : (State.setReg96 s lo mid hi v).pending = s.pending := by
  unfold State.setReg96
  first
  | (simp [apply_ite State.pending]; done)
  | ((try dsimp only); repeat' (first | (with_reducible rfl) | (simp [apply_ite State.pending]; done) | split | (rw [State.foldl_pending]) | intro))

@[simp] theorem State.shadowToPend_pending (s : State) (as : List Nat) : (State.shadowToPend s as).pending = s.pending := by
  unfold State.shadowToPend
  first
  | (simp [apply_ite State.pending]; done)
  | ((try dsimp only); repeat' (first | (with_reducible rfl) | (simp [apply_ite State.pending]; done) | split | (rw [State.foldl_pending]) | intro))

@[simp] theorem State.pendToAct_pending (s : State) (as : List Nat) : (State.pendToAct s as).pending = s.pending := by
  unfold State.pendToAct
  first
  | (simp [apply_ite State.pending]; done)
  | ((try dsimp only); repeat' (first | (with_reducible rfl) | (simp [apply_ite State.pending]; done) | split | (rw [State.foldl_pending]) | intro))

@[simp] theorem State.setShadow_pending (s : State) (a : Nat) (v : Nat) : (State.setShadow s a v).pending = s.pending := by
  unfold State.setShadow
  first
  | (simp [apply_ite State.pending]; done)
  | ((try dsimp only); repeat' (first | (with_reducible rfl) | (simp [apply_ite State.pending]; done) | split | (rw [State.foldl_pending]) | intro))

@[simp] theorem State.nextTag_pending (s : State) : (State.nextTag s).pending = s.pending := by
  unfold State.nextTag
  first
  | (simp [apply_ite State.pending]; done)
  | ((try dsimp only); repeat' (first | (with_reducible rfl) | (simp [apply_ite State.pending]; done) | split | (rw [State.foldl_pending]) | intro))

@[simp] theorem State.onTrunks_pending (s : State) (p : State → Trunk → Bool) (f : Trunk → State → State) (hf : ∀ x0 x1, (f x0 x1).pending = x1.pending) : (State.onTrunks s p f).pending = s.pending := by
  unfold State.onTrunks
  first
  | (simp [apply_ite State.pending, hf]; done)
  | ((try dsimp only); repeat' (first | (with_reducible rfl) | (simp [apply_ite State.pending, hf]; done) | split | (rw [State.foldl_pending]) | intro))

@[simp] theorem State.draw_pending (s : State) (n : Nat) : (State.draw s n).2.pending = s.pending := by
  unfold State.draw
  first
  | (simp [apply_ite State.pending]; done)
  | ((try dsimp only); repeat' (first | (with_reducible rfl) | (simp [apply_ite State.pending]; done) | split | (rw [State.foldl_pending]) | (rw [State.foldl_snd_pending]) | (rw [State.foldl_fst_pending]) | intro))

@[simp] theorem State.emit_pending (s : State) (x : Sent) : (State.emit s x).pending = s.pending := by
  unfold State.emit
  first
  | (simp [apply_ite State.pending]; done)
  | ((try dsimp only); repeat' (first | (with_reducible rfl) | (simp [apply_ite State.pending]; done) | split | (rw [State.foldl_pending]) | intro))

@[simp] theorem State.setAxis_pending (s : State) (n : Nat) (a : AxisSt) : (State.setAxis s n a).pending = s.pending := by
  unfold State.setAxis
  first
  | (simp [apply_ite State.pending]; done)
  | ((try dsimp only); repeat' (first | (with_reducible rfl) | (simp [apply_ite State.pending]; done) | split | (rw [State.foldl_pending]) | intro))

@[simp] theorem State.pushEvent_pending (s : State) (e : Event) : (State.pushEvent s e).pending = s.pending := by
  unfold State.pushEvent
  first
  | (simp [apply_ite State.pending]; done)
  | ((try dsimp only); repeat' (first | (with_reducible rfl) | (simp [apply_ite State.pending]; done) | split | (rw [State.foldl_pending]) | intro))

@[simp] theorem State.rootEvent_pending (s : State) (base : Nat) (code : Nat) (cls : Nat) (args : List Byte) : (State.rootEvent s base code cls args).pending = s.pending := by
  unfold State.rootEvent
  first
  | (simp [apply_ite State.pending]; done)
  | ((try dsimp only); repeat' (first | (with_reducible rfl) | (simp [apply_ite State.pending]; done) | split | (rw [State.foldl_pending]) | intro))

@[simp] theorem State.trunkEvent_pending (s : State) (t : Trunk) (base : Nat) (code : Nat) (cls : Nat) (args : List Byte) : (State.trunkEvent s t base code cls args).pending = s.pending := by
  unfold State.trunkEvent
  first
  | (simp [apply_ite State.pending]; done)
  | ((try dsimp only); repeat' (first | (with_reducible rfl) | (simp [apply_ite State.pending]; done) | split | (rw [State.foldl_pending]) | intro))

@[simp] theorem State.statusEvent_pending (s : State) (f : Field) (cls : Nat) : (State.statusEvent s f cls).pending = s.pending := by
  unfold State.statusEvent
  first
  | (simp [apply_ite State.pending]; done)
  | ((try dsimp only); repeat' (first | (with_reducible rfl) | (simp [apply_ite State.pending]; done) | split | (rw [State.foldl_pending]) | intro))

@[simp] theorem State.flag_pending (s : State) (f : Field) (cls : Nat) : (State.flag s f cls).pending = s.pending := by
  unfold State.flag
  first
  | (simp [apply_ite State.pending]; done)
  | ((try dsimp only); repeat' (first | (with_reducible rfl) | (simp [apply_ite State.pending]; done) | split | (rw [State.foldl_pending]) | intro))

@[simp] theorem State.ringStop_pending (s : State) (r : Nat) (f : Field) : (State.ringStop s r f).pending = s.pending := by
  unfold State.ringStop
  first
  | (simp [apply_ite State.pending]; done)
  | ((try dsimp only); repeat' (first | (with_reducible rfl) | (simp [apply_ite State.pending]; done) | split | (rw [State.foldl_pending]) | intro))

@[simp] theorem State.replyWrite_pending (s : State) (r : Reply) (err : Bool) : (State.replyWrite s r err).pending = s.pending := by
  unfold State.replyWrite
  first
  | (simp [apply_ite State.pending]; done)
  | ((try dsimp only); repeat' (first | (with_reducible rfl) | (simp [apply_ite State.pending]; done) | split | (rw [State.foldl_pending]) | intro))

@[simp] theorem State.reply_pending (s : State) (c : Nat) (tag : Nat) (opcode : Nat) (code : Nat) (result : List Byte) (data : List Byte) (windfall : Bool) : (State.reply s c tag opcode code result data windfall).pending = s.pending := by
  unfold State.reply
  first
  | (simp [apply_ite State.pending]; done)
  | ((try dsimp only); repeat' (first | (with_reducible rfl) | (simp [apply_ite State.pending]; done) | split | (rw [State.foldl_pending]) | intro))

@[simp] theorem State.watchReply_pending (s : State) (c : Nat) (w : Watch) (code : Nat) : (State.watchReply s c w code).pending = s.pending := by
  unfold State.watchReply
  first
  | (simp [apply_ite State.pending]; done)
  | ((try dsimp only); repeat' (first | (with_reducible rfl) | (simp [apply_ite State.pending]; done) | split | (rw [State.foldl_pending]) | intro))

@[simp] theorem State.watchCheck_pending (s : State) : (State.watchCheck s).pending = s.pending := by
  unfold State.watchCheck
  first
  | (simp [apply_ite State.pending]; done)
  | ((try dsimp only); repeat' (first | (with_reducible rfl) | (simp [apply_ite State.pending]; done) | split | (rw [State.foldl_pending]) | (rw [State.foldl_snd_pending]) | (rw [State.foldl_fst_pending]) | intro))

@[simp] theorem State.attn_pending (s : State) (k : Nat) : (State.attn s k).pending = s.pending := by
  unfold State.attn
  first
  | (simp [apply_ite State.pending]; done)
  | ((try dsimp only); repeat' (first | (with_reducible rfl) | (simp [apply_ite State.pending]; done) | split | (rw [State.foldl_pending]) | intro))

@[simp] theorem State.attnFault_pending (s : State) : (State.attnFault s).pending = s.pending := by
  unfold State.attnFault
  first
  | (simp [apply_ite State.pending]; done)
  | ((try dsimp only); repeat' (first | (with_reducible rfl) | (simp [apply_ite State.pending]; done) | split | (rw [State.foldl_pending]) | intro))

@[simp] theorem State.attnFailover_pending (s : State) : (State.attnFailover s).pending = s.pending := by
  unfold State.attnFailover
  first
  | (simp [apply_ite State.pending]; done)
  | ((try dsimp only); repeat' (first | (with_reducible rfl) | (simp [apply_ite State.pending]; done) | split | (rw [State.foldl_pending]) | intro))

@[simp] theorem State.attnSafety_pending (s : State) : (State.attnSafety s).pending = s.pending := by
  unfold State.attnSafety
  first
  | (simp [apply_ite State.pending]; done)
  | ((try dsimp only); repeat' (first | (with_reducible rfl) | (simp [apply_ite State.pending]; done) | split | (rw [State.foldl_pending]) | intro))

@[simp] theorem State.attnReady_pending (s : State) : (State.attnReady s).pending = s.pending := by
  unfold State.attnReady
  first
  | (simp [apply_ite State.pending]; done)
  | ((try dsimp only); repeat' (first | (with_reducible rfl) | (simp [apply_ite State.pending]; done) | split | (rw [State.foldl_pending]) | intro))

@[simp] theorem State.attnLeaf_pending (s : State) : (State.attnLeaf s).pending = s.pending := by
  unfold State.attnLeaf
  first
  | (simp [apply_ite State.pending]; done)
  | ((try dsimp only); repeat' (first | (with_reducible rfl) | (simp [apply_ite State.pending]; done) | split | (rw [State.foldl_pending]) | intro))

@[simp] theorem State.attnTime_pending (s : State) : (State.attnTime s).pending = s.pending := by
  unfold State.attnTime
  first
  | (simp [apply_ite State.pending]; done)
  | ((try dsimp only); repeat' (first | (with_reducible rfl) | (simp [apply_ite State.pending]; done) | split | (rw [State.foldl_pending]) | intro))

@[simp] theorem State.attnUpdate_pending (s : State) : (State.attnUpdate s).pending = s.pending := by
  unfold State.attnUpdate
  first
  | (simp [apply_ite State.pending]; done)
  | ((try dsimp only); repeat' (first | (with_reducible rfl) | (simp [apply_ite State.pending]; done) | split | (rw [State.foldl_pending]) | intro))

@[simp] theorem State.attnRecord_pending (s : State) : (State.attnRecord s).pending = s.pending := by
  unfold State.attnRecord
  first
  | (simp [apply_ite State.pending]; done)
  | ((try dsimp only); repeat' (first | (with_reducible rfl) | (simp [apply_ite State.pending]; done) | split | (rw [State.foldl_pending]) | intro))

@[simp] theorem State.attnBridge_pending (s : State) : (State.attnBridge s).pending = s.pending := by
  unfold State.attnBridge
  first
  | (simp [apply_ite State.pending]; done)
  | ((try dsimp only); repeat' (first | (with_reducible rfl) | (simp [apply_ite State.pending]; done) | split | (rw [State.foldl_pending]) | intro))

@[simp] theorem State.attnThermal_pending (s : State) : (State.attnThermal s).pending = s.pending := by
  unfold State.attnThermal
  first
  | (simp [apply_ite State.pending]; done)
  | ((try dsimp only); repeat' (first | (with_reducible rfl) | (simp [apply_ite State.pending]; done) | split | (rw [State.foldl_pending]) | intro))

@[simp] theorem State.setReady_pending (s : State) (f : Field) (b : Bool) : (State.setReady s f b).pending = s.pending := by
  unfold State.setReady
  first
  | (simp [apply_ite State.pending]; done)
  | ((try dsimp only); repeat' (first | (with_reducible rfl) | (simp [apply_ite State.pending]; done) | split | (rw [State.foldl_pending]) | intro))

@[simp] theorem State.countFrom_pending (s : State) (key : Nat) (p : Nat) : (State.countFrom s key p).pending = s.pending := by
  unfold State.countFrom
  first
  | (simp [apply_ite State.pending]; done)
  | ((try dsimp only); repeat' (first | (with_reducible rfl) | (simp [apply_ite State.pending]; done) | split | (rw [State.foldl_pending]) | intro))

@[simp] theorem State.rebaseCadences_pending (s : State) (n : Nat) : (State.rebaseCadences s n).pending = s.pending := by
  unfold State.rebaseCadences
  first
  | (simp [apply_ite State.pending]; done)
  | ((try dsimp only); repeat' (first | (with_reducible rfl) | (simp [apply_ite State.pending]; done) | split | (rw [State.foldl_pending]) | (rw [State.foldl_snd_pending]) | (rw [State.foldl_fst_pending]) | intro))

@[simp] theorem State.setAxisState_pending (s : State) (n : Nat) (v : Nat) : (State.setAxisState s n v).pending = s.pending := by
  unfold State.setAxisState
  first
  | (simp [apply_ite State.pending]; done)
  | ((try dsimp only); repeat' (first | (with_reducible rfl) | (simp [apply_ite State.pending]; done) | split | (rw [State.foldl_pending]) | intro))

@[simp] theorem State.rasterStep_pending (s : State) (n : Nat) : (State.rasterStep s n).pending = s.pending := by
  unfold State.rasterStep
  first
  | (simp [apply_ite State.pending]; done)
  | ((try dsimp only); repeat' (first | (with_reducible rfl) | (simp [apply_ite State.pending]; done) | split | (rw [State.foldl_pending]) | intro))

@[simp] theorem State.recordStep_pending (s : State) (n : Nat) (fwd : Bool) : (State.recordStep s n fwd).pending = s.pending := by
  unfold State.recordStep
  first
  | (simp [apply_ite State.pending]; done)
  | ((try dsimp only); repeat' (first | (with_reducible rfl) | (simp [apply_ite State.pending]; done) | split | (rw [State.foldl_pending]) | intro))

@[simp] theorem State.takePos_pending (s : State) (n : Nat) (p : Nat) (thr : Nat) : (State.takePos s n p thr).pending = s.pending := by
  unfold State.takePos
  first
  | (simp [apply_ite State.pending]; done)
  | ((try dsimp only); repeat' (first | (with_reducible rfl) | (simp [apply_ite State.pending]; done) | split | (rw [State.foldl_pending]) | intro))

@[simp] theorem State.setRate_pending (s : State) (n : Nat) (adv : Nat) : (State.setRate s n adv).pending = s.pending := by
  unfold State.setRate
  first
  | (simp [apply_ite State.pending]; done)
  | ((try dsimp only); repeat' (first | (with_reducible rfl) | (simp [apply_ite State.pending]; done) | split | (rw [State.foldl_pending]) | intro))

@[simp] theorem State.lockAxis_pending (s : State) (n : Nat) (p : Nat) (adv : Nat) : (State.lockAxis s n p adv).pending = s.pending := by
  unfold State.lockAxis
  first
  | (simp [apply_ite State.pending]; done)
  | ((try dsimp only); repeat' (first | (with_reducible rfl) | (simp [apply_ite State.pending]; done) | split | (rw [State.foldl_pending]) | intro))

@[simp] theorem State.fallBack_pending (s : State) (n : Nat) : (State.fallBack s n).pending = s.pending := by
  unfold State.fallBack
  first
  | (simp [apply_ite State.pending]; done)
  | ((try dsimp only); repeat' (first | (with_reducible rfl) | (simp [apply_ite State.pending]; done) | split | (rw [State.foldl_pending]) | intro))

@[simp] theorem State.loseAxis_pending (s : State) (n : Nat) : (State.loseAxis s n).pending = s.pending := by
  unfold State.loseAxis
  first
  | (simp [apply_ite State.pending]; done)
  | ((try dsimp only); repeat' (first | (with_reducible rfl) | (simp [apply_ite State.pending]; done) | split | (rw [State.foldl_pending]) | intro))

@[simp] theorem State.stepAxis_pending (s : State) (n : Nat) (p : Nat) : (State.stepAxis s n p).pending = s.pending := by
  unfold State.stepAxis
  first
  | (simp [apply_ite State.pending]; done)
  | ((try dsimp only); repeat' (first | (with_reducible rfl) | (simp [apply_ite State.pending]; done) | split | (rw [State.foldl_pending]) | intro))

@[simp] theorem State.relockAxis_pending (s : State) (n : Nat) : (State.relockAxis s n).pending = s.pending := by
  unfold State.relockAxis
  first
  | (simp [apply_ite State.pending]; done)
  | ((try dsimp only); repeat' (first | (with_reducible rfl) | (simp [apply_ite State.pending]; done) | split | (rw [State.foldl_pending]) | intro))

@[simp] theorem State.snapAxis_pending (s : State) (n : Nat) : (State.snapAxis s n).pending = s.pending := by
  unfold State.snapAxis
  first
  | (simp [apply_ite State.pending]; done)
  | ((try dsimp only); repeat' (first | (with_reducible rfl) | (simp [apply_ite State.pending]; done) | split | (rw [State.foldl_pending]) | intro))

@[simp] theorem State.snapAll_pending (s : State) : (State.snapAll s).pending = s.pending := by
  unfold State.snapAll
  first
  | (simp [apply_ite State.pending]; done)
  | ((try dsimp only); repeat' (first | (with_reducible rfl) | (simp [apply_ite State.pending]; done) | split | (rw [State.foldl_pending]) | intro))

@[simp] theorem State.writeHoldMode_pending (s : State) (n : Nat) (halt : Bool) : (State.writeHoldMode s n halt).pending = s.pending := by
  unfold State.writeHoldMode
  first
  | (simp [apply_ite State.pending]; done)
  | ((try dsimp only); repeat' (first | (with_reducible rfl) | (simp [apply_ite State.pending]; done) | split | (rw [State.foldl_pending]) | intro))

@[simp] theorem State.pendBit_pending (s : State) (t : Trunk) (src : Nat) : (State.pendBit s t src).pending = s.pending := by
  unfold State.pendBit
  first
  | (simp [apply_ite State.pending]; done)
  | ((try dsimp only); repeat' (first | (with_reducible rfl) | (simp [apply_ite State.pending]; done) | split | (rw [State.foldl_pending]) | intro))

@[simp] theorem State.pendSource_pending (s : State) (t : Trunk) (src : Nat) : (State.pendSource s t src).pending = s.pending := by
  unfold State.pendSource
  first
  | (simp [apply_ite State.pending]; done)
  | ((try dsimp only); repeat' (first | (with_reducible rfl) | (simp [apply_ite State.pending]; done) | split | (rw [State.foldl_pending]) | intro))

@[simp] theorem State.pendBoth_pending (s : State) (src : Nat) : (State.pendBoth s src).pending = s.pending := by
  unfold State.pendBoth
  first
  | (simp [apply_ite State.pending]; done)
  | ((try dsimp only); repeat' (first | (with_reducible rfl) | (simp [apply_ite State.pending]; done) | split | (rw [State.foldl_pending]) | intro))

@[simp] theorem State.evtActions_pending (s : State) (m : Nat) : (State.evtActions s m).pending = s.pending := by
  unfold State.evtActions
  first
  | (simp [apply_ite State.pending]; done)
  | ((try dsimp only); repeat' (first | (with_reducible rfl) | (simp [apply_ite State.pending]; done) | split | (rw [State.foldl_pending]) | intro))

@[simp] theorem State.evtFire_pending (s : State) (m : Nat) : (State.evtFire s m).pending = s.pending := by
  unfold State.evtFire
  first
  | (simp [apply_ite State.pending]; done)
  | ((try dsimp only); repeat' (first | (with_reducible rfl) | (simp [apply_ite State.pending]; done) | split | (rw [State.foldl_pending]) | intro))

@[simp] theorem State.evtArmOp_pending (s : State) (m : Nat) : (State.evtArmOp s m).pending = s.pending := by
  unfold State.evtArmOp
  first
  | (simp [apply_ite State.pending]; done)
  | ((try dsimp only); repeat' (first | (with_reducible rfl) | (simp [apply_ite State.pending]; done) | split | (rw [State.foldl_pending]) | intro))

@[simp] theorem State.evtDisarmOp_pending (s : State) (m : Nat) : (State.evtDisarmOp s m).pending = s.pending := by
  unfold State.evtDisarmOp
  first
  | (simp [apply_ite State.pending]; done)
  | ((try dsimp only); repeat' (first | (with_reducible rfl) | (simp [apply_ite State.pending]; done) | split | (rw [State.foldl_pending]) | intro))

@[simp] theorem State.evtBothOp_pending (s : State) (m : Nat) : (State.evtBothOp s m).pending = s.pending := by
  unfold State.evtBothOp
  first
  | (simp [apply_ite State.pending]; done)
  | ((try dsimp only); repeat' (first | (with_reducible rfl) | (simp [apply_ite State.pending]; done) | split | (rw [State.foldl_pending]) | intro))

@[simp] theorem State.mainsFollow_pending (s : State) (gap : Nat) : (State.mainsFollow s gap).pending = s.pending := by
  unfold State.mainsFollow
  first
  | (simp [apply_ite State.pending]; done)
  | ((try dsimp only); repeat' (first | (with_reducible rfl) | (simp [apply_ite State.pending]; done) | split | (rw [State.foldl_pending]) | intro))

@[simp] theorem State.mainsCross_pending (s : State) (volts : Nat) : (State.mainsCross s volts).pending = s.pending := by
  unfold State.mainsCross
  first
  | (simp [apply_ite State.pending]; done)
  | ((try dsimp only); repeat' (first | (with_reducible rfl) | (simp [apply_ite State.pending]; done) | split | (rw [State.foldl_pending]) | intro))

@[simp] theorem State.putQb_pending (s : State) (k : Nat) (q : QbSt) : (State.putQb s k q).pending = s.pending := by
  unfold State.putQb
  first
  | (simp [apply_ite State.pending]; done)
  | ((try dsimp only); repeat' (first | (with_reducible rfl) | (simp [apply_ite State.pending]; done) | split | (rw [State.foldl_pending]) | intro))

@[simp] theorem State.qbPush_pending (s : State) (k : Nat) (l : List QbEntry) : (State.qbPush s k l).pending = s.pending := by
  unfold State.qbPush
  first
  | (simp [apply_ite State.pending]; done)
  | ((try dsimp only); repeat' (first | (with_reducible rfl) | (simp [apply_ite State.pending]; done) | split | (rw [State.foldl_pending]) | intro))

@[simp] theorem State.qbDrop_pending (s : State) (k : Nat) (n : Nat) : (State.qbDrop s k n).pending = s.pending := by
  unfold State.qbDrop
  first
  | (simp [apply_ite State.pending]; done)
  | ((try dsimp only); repeat' (first | (with_reducible rfl) | (simp [apply_ite State.pending]; done) | split | (rw [State.foldl_pending]) | intro))

@[simp] theorem State.qbPushAt_pending (s : State) (k : Nat) (i : Nat) (l : List QbEntry) : (State.qbPushAt s k i l).pending = s.pending := by
  unfold State.qbPushAt
  first
  | (simp [apply_ite State.pending]; done)
  | ((try dsimp only); repeat' (first | (with_reducible rfl) | (simp [apply_ite State.pending]; done) | split | (rw [State.foldl_pending]) | intro))

@[simp] theorem State.qbBack_pending (s : State) (k : Nat) (l : List QbEntry) : (State.qbBack s k l).pending = s.pending := by
  unfold State.qbBack
  first
  | (simp [apply_ite State.pending]; done)
  | ((try dsimp only); repeat' (first | (with_reducible rfl) | (simp [apply_ite State.pending]; done) | split | (rw [State.foldl_pending]) | intro))

@[simp] theorem State.qbWriteOp_pending (s : State) (k : Nat) (e : QbEntry) : (State.qbWriteOp s k e).pending = s.pending := by
  unfold State.qbWriteOp
  first
  | (simp [apply_ite State.pending]; done)
  | ((try dsimp only); repeat' (first | (with_reducible rfl) | (simp [apply_ite State.pending]; done) | split | (rw [State.foldl_pending]) | intro))

@[simp] theorem State.qbUnstall_pending (s : State) (k : Nat) : (State.qbUnstall s k).pending = s.pending := by
  unfold State.qbUnstall
  first
  | (simp [apply_ite State.pending]; done)
  | ((try dsimp only); repeat' (first | (with_reducible rfl) | (simp [apply_ite State.pending]; done) | split | (rw [State.foldl_pending]) | intro))

@[simp] theorem State.qbReadOp_pending (s : State) (k : Nat) : (State.qbReadOp s k).pending = s.pending := by
  unfold State.qbReadOp
  first
  | (simp [apply_ite State.pending]; done)
  | ((try dsimp only); repeat' (first | (with_reducible rfl) | (simp [apply_ite State.pending]; done) | split | (rw [State.foldl_pending]) | intro))

@[simp] theorem State.qbStaleOp_pending (s : State) (k : Nat) : (State.qbStaleOp s k).pending = s.pending := by
  unfold State.qbStaleOp
  first
  | (simp [apply_ite State.pending]; done)
  | ((try dsimp only); repeat' (first | (with_reducible rfl) | (simp [apply_ite State.pending]; done) | split | (rw [State.foldl_pending]) | intro))

@[simp] theorem State.safetyLaunched_pending (s : State) (rec : Nat) : (State.safetyLaunched s rec).pending = s.pending := by
  unfold State.safetyLaunched
  first
  | (simp [apply_ite State.pending]; done)
  | ((try dsimp only); repeat' (first | (with_reducible rfl) | (simp [apply_ite State.pending]; done) | split | (rw [State.foldl_pending]) | intro))

@[simp] theorem State.startCmd_pending (s : State) (c : Nat) (tag : Nat) (op : Nat) (replyErr : Bool) : (State.startCmd s c tag op replyErr).pending = s.pending := by
  unfold State.startCmd
  first
  | (simp [apply_ite State.pending]; done)
  | ((try dsimp only); repeat' (first | (with_reducible rfl) | (simp [apply_ite State.pending]; done) | split | (rw [State.foldl_pending]) | intro))

@[simp] theorem State.done_pending (s : State) (h : StemHdr) (op : Nat) (code : Nat) : (State.done s h op code).pending = s.pending := by
  unfold State.done
  first
  | (simp [apply_ite State.pending]; done)
  | ((try dsimp only); repeat' (first | (with_reducible rfl) | (simp [apply_ite State.pending]; done) | split | (rw [State.foldl_pending]) | intro))

@[simp] theorem State.refuse_pending (s : State) (h : StemHdr) (op : Nat) (code : Nat) : (State.refuse s h op code).pending = s.pending := by
  unfold State.refuse
  first
  | (simp [apply_ite State.pending]; done)
  | ((try dsimp only); repeat' (first | (with_reducible rfl) | (simp [apply_ite State.pending]; done) | split | (rw [State.foldl_pending]) | intro))

@[simp] theorem State.stemCmd_pending (s : State) (h : StemHdr) (op : Nat) (len : Nat) (read : Bool) (i : Instr) (f : State → State) (hf : ∀ x0, (f x0).pending = x0.pending) : (State.stemCmd s h op len read i f).pending = s.pending := by
  unfold State.stemCmd
  first
  | (simp [apply_ite State.pending, hf]; done)
  | ((try dsimp only); repeat' (first | (with_reducible rfl) | (simp [apply_ite State.pending, hf]; done) | split | (rw [State.foldl_pending]) | intro))

@[simp] theorem State.stopTick_pending (s : State) : (State.stopTick s).pending = s.pending := by
  unfold State.stopTick
  first
  | (simp [apply_ite State.pending]; done)
  | ((try dsimp only); repeat' (first | (with_reducible rfl) | (simp [apply_ite State.pending]; done) | split | (rw [State.foldl_pending]) | intro))

@[simp] theorem State.chanDrop_pending (s : State) (c : Nat) : (State.chanDrop s c).pending = s.pending := by
  unfold State.chanDrop
  first
  | (simp [apply_ite State.pending]; done)
  | ((try dsimp only); repeat' (first | (with_reducible rfl) | (simp [apply_ite State.pending]; done) | split | (rw [State.foldl_pending]) | intro))

@[simp] theorem State.chunkIn_pending (s : State) (h : StemHdr) (op : Nat) (c : Chunk) (take : List Byte → State → State) (htake : ∀ x0 x1, (take x0 x1).pending = x1.pending) : (State.chunkIn s h op c take).pending = s.pending := by
  unfold State.chunkIn
  first
  | (simp [apply_ite State.pending, htake]; done)
  | ((try dsimp only); repeat' (first | (with_reducible rfl) | (simp [apply_ite State.pending, htake]; done) | split | (rw [State.foldl_pending]) | intro))

@[simp] theorem State.watchOp_pending (s : State) (h : StemHdr) (mask : Nat) (expected : Nat) (timeout : Nat) : (State.watchOp s h mask expected timeout).pending = s.pending := by
  unfold State.watchOp
  first
  | (simp [apply_ite State.pending]; done)
  | ((try dsimp only); repeat' (first | (with_reducible rfl) | (simp [apply_ite State.pending]; done) | split | (rw [State.foldl_pending]) | intro))

@[simp] theorem State.watchExpire_pending (s : State) (c : Nat) : (State.watchExpire s c).pending = s.pending := by
  unfold State.watchExpire
  first
  | (simp [apply_ite State.pending]; done)
  | ((try dsimp only); repeat' (first | (with_reducible rfl) | (simp [apply_ite State.pending]; done) | split | (rw [State.foldl_pending]) | intro))

@[simp] theorem State.attnClear_pending (s : State) (c : Nat) (mask : Nat) : (State.attnClear s c mask).pending = s.pending := by
  unfold State.attnClear
  first
  | (simp [apply_ite State.pending]; done)
  | ((try dsimp only); repeat' (first | (with_reducible rfl) | (simp [apply_ite State.pending]; done) | split | (rw [State.foldl_pending]) | intro))

@[simp] theorem State.ringOn_pending (s : State) (r : Nat) : (State.ringOn s r).pending = s.pending := by
  unfold State.ringOn
  first
  | (simp [apply_ite State.pending]; done)
  | ((try dsimp only); repeat' (first | (with_reducible rfl) | (simp [apply_ite State.pending]; done) | split | (rw [State.foldl_pending]) | intro))

@[simp] theorem State.ringOff_pending (s : State) (r : Nat) : (State.ringOff s r).pending = s.pending := by
  unfold State.ringOff
  first
  | (simp [apply_ite State.pending]; done)
  | ((try dsimp only); repeat' (first | (with_reducible rfl) | (simp [apply_ite State.pending]; done) | split | (rw [State.foldl_pending]) | intro))

@[simp] theorem State.doorbell_pending (s : State) (r : Nat) (count : Nat) (err : Bool) : (State.doorbell s r count err).pending = s.pending := by
  unfold State.doorbell
  first
  | (simp [apply_ite State.pending]; done)
  | ((try dsimp only); repeat' (first | (with_reducible rfl) | (simp [apply_ite State.pending]; done) | split | (rw [State.foldl_pending]) | intro))

@[simp] theorem State.putSession_pending (s : State) (k : Nat) (x : Session) : (State.putSession s k x).pending = s.pending := by
  unfold State.putSession
  first
  | (simp [apply_ite State.pending]; done)
  | ((try dsimp only); repeat' (first | (with_reducible rfl) | (simp [apply_ite State.pending]; done) | split | (rw [State.foldl_pending]) | intro))

@[simp] theorem State.datagram_pending (s : State) (via : Nat) (peer : Nat) (port : Nat) (tag : Nat) (csumZero : Bool) (lengthOk : Bool) : (State.datagram s via peer port tag csumZero lengthOk).pending = s.pending := by
  unfold State.datagram
  first
  | (simp [apply_ite State.pending]; done)
  | ((try dsimp only); repeat' (first | (with_reducible rfl) | (simp [apply_ite State.pending]; done) | split | (rw [State.foldl_pending]) | intro))

@[simp] theorem State.sessionEnd_pending (s : State) (k : Nat) : (State.sessionEnd s k).pending = s.pending := by
  unfold State.sessionEnd
  first
  | (simp [apply_ite State.pending]; done)
  | ((try dsimp only); repeat' (first | (with_reducible rfl) | (simp [apply_ite State.pending]; done) | split | (rw [State.foldl_pending]) | intro))

@[simp] theorem State.winWrite_pending (s : State) (k : Nat) (v : Word) : (State.winWrite s k v).pending = s.pending := by
  unfold State.winWrite
  first
  | (simp [apply_ite State.pending]; done)
  | ((try dsimp only); repeat' (first | (with_reducible rfl) | (simp [apply_ite State.pending]; done) | split | (rw [State.foldl_pending]) | intro))

@[simp] theorem State.e131Stamp_pending (s : State) (rec : Nat) (p : List Byte) : (State.e131Stamp s rec p).2.pending = s.pending := by
  unfold State.e131Stamp
  first
  | (simp [apply_ite State.pending]; done)
  | ((try dsimp only); repeat' (first | (with_reducible rfl) | (simp [apply_ite State.pending]; done) | split | (rw [State.foldl_pending]) | (rw [State.foldl_snd_pending]) | (rw [State.foldl_fst_pending]) | intro))

@[simp] theorem State.e131Rx_pending (s : State) (univ : Nat) (cid : Nat) (priority : Nat) (sync : Nat) (slots : Option (List Byte)) (checks : Bool) : (State.e131Rx s univ cid priority sync slots checks).pending = s.pending := by
  unfold State.e131Rx
  first
  | (simp [apply_ite State.pending]; done)
  | ((try dsimp only); repeat' (first | (with_reducible rfl) | (simp [apply_ite State.pending]; done) | split | (rw [State.foldl_pending]) | intro))

@[simp] theorem State.e131Lost_pending (s : State) (univ : Nat) (cid : Nat) : (State.e131Lost s univ cid).pending = s.pending := by
  unfold State.e131Lost
  first
  | (simp [apply_ite State.pending]; done)
  | ((try dsimp only); repeat' (first | (with_reducible rfl) | (simp [apply_ite State.pending]; done) | split | (rw [State.foldl_pending]) | intro))

@[simp] theorem State.e131Capture_pending (s : State) : (State.e131Capture s).pending = s.pending := by
  unfold State.e131Capture
  first
  | (simp [apply_ite State.pending]; done)
  | ((try dsimp only); repeat' (first | (with_reducible rfl) | (simp [apply_ite State.pending]; done) | split | (rw [State.foldl_pending]) | (rw [State.foldl_snd_pending]) | (rw [State.foldl_fst_pending]) | intro))

@[simp] theorem State.qbFollow_pending (s : State) (k : Nat) (old : List (List QbEntry)) (new : List (List QbEntry)) : (State.qbFollow s k old new).pending = s.pending := by
  unfold State.qbFollow
  first
  | (simp [apply_ite State.pending]; done)
  | ((try dsimp only); repeat' (first | (with_reducible rfl) | (simp [apply_ite State.pending]; done) | split | (rw [State.foldl_pending]) | intro))

@[simp] theorem State.setPort_pending (s : State) (n : Nat) (p : PortSt) : (State.setPort s n p).pending = s.pending := by
  unfold State.setPort
  first
  | (simp [apply_ite State.pending]; done)
  | ((try dsimp only); repeat' (first | (with_reducible rfl) | (simp [apply_ite State.pending]; done) | split | (rw [State.foldl_pending]) | intro))

@[simp] theorem State.putPort_pending (s : State) (n : Nat) (p : PortSt) : (State.putPort s n p).pending = s.pending := by
  unfold State.putPort
  first
  | (simp [apply_ite State.pending]; done)
  | ((try dsimp only); repeat' (first | (with_reducible rfl) | (simp [apply_ite State.pending]; done) | split | (rw [State.foldl_pending]) | intro))

@[simp] theorem State.bump64_pending (s : State) (lo : Nat) (hi : Nat) (n : Nat) : (State.bump64 s lo hi n).pending = s.pending := by
  unfold State.bump64
  first
  | (simp [apply_ite State.pending]; done)
  | ((try dsimp only); repeat' (first | (with_reducible rfl) | (simp [apply_ite State.pending]; done) | split | (rw [State.foldl_pending]) | intro))

@[simp] theorem State.dropBit_pending (s : State) (n : Nat) : (State.dropBit s n).pending = s.pending := by
  unfold State.dropBit
  first
  | (simp [apply_ite State.pending]; done)
  | ((try dsimp only); repeat' (first | (with_reducible rfl) | (simp [apply_ite State.pending]; done) | split | (rw [State.foldl_pending]) | intro))

@[simp] theorem State.txCount_pending (s : State) (n : Nat) (len : Nat) : (State.txCount s n len).pending = s.pending := by
  unfold State.txCount
  first
  | (simp [apply_ite State.pending]; done)
  | ((try dsimp only); repeat' (first | (with_reducible rfl) | (simp [apply_ite State.pending]; done) | split | (rw [State.foldl_pending]) | intro))

@[simp] theorem State.sendPause_pending (s : State) (n : Nat) (time : Nat) : (State.sendPause s n time).pending = s.pending := by
  unfold State.sendPause
  first
  | (simp [apply_ite State.pending]; done)
  | ((try dsimp only); repeat' (first | (with_reducible rfl) | (simp [apply_ite State.pending]; done) | split | (rw [State.foldl_pending]) | intro))

@[simp] theorem State.pauseOn_pending (s : State) (i : Nat) (e : Nat) : (State.pauseOn s i e).pending = s.pending := by
  unfold State.pauseOn
  first
  | (simp [apply_ite State.pending]; done)
  | ((try dsimp only); repeat' (first | (with_reducible rfl) | (simp [apply_ite State.pending]; done) | split | (rw [State.foldl_pending]) | intro))

@[simp] theorem State.pauseOff_pending (s : State) (e : Nat) : (State.pauseOff s e).pending = s.pending := by
  unfold State.pauseOff
  first
  | (simp [apply_ite State.pending]; done)
  | ((try dsimp only); repeat' (first | (with_reducible rfl) | (simp [apply_ite State.pending]; done) | split | (rw [State.foldl_pending]) | intro))

@[simp] theorem State.congestion_pending (s : State) (n : Nat) : (State.congestion s n).pending = s.pending := by
  unfold State.congestion
  first
  | (simp [apply_ite State.pending]; done)
  | ((try dsimp only); repeat' (first | (with_reducible rfl) | (simp [apply_ite State.pending]; done) | split | (rw [State.foldl_pending]) | intro))

@[simp] theorem State.enqueueEth_pending (s : State) (n : Nat) (f : OutFrame) : (State.enqueueEth s n f).pending = s.pending := by
  unfold State.enqueueEth
  first
  | (simp [apply_ite State.pending]; done)
  | ((try dsimp only); repeat' (first | (with_reducible rfl) | (simp [apply_ite State.pending]; done) | split | (rw [State.foldl_pending]) | intro))

@[simp] theorem State.enqueueUntimed_pending (s : State) (n : Nat) (u : Untimed) : (State.enqueueUntimed s n u).pending = s.pending := by
  unfold State.enqueueUntimed
  first
  | (simp [apply_ite State.pending]; done)
  | ((try dsimp only); repeat' (first | (with_reducible rfl) | (simp [apply_ite State.pending]; done) | split | (rw [State.foldl_pending]) | intro))

@[simp] theorem State.sendFrame_pending (s : State) (n : Nat) (l : List Byte) (stamp : optParam (Option (Nat × Nat × Nat)) none) : (State.sendFrame s n l stamp).pending = s.pending := by
  unfold State.sendFrame
  first
  | (simp [apply_ite State.pending]; done)
  | ((try dsimp only); repeat' (first | (with_reducible rfl) | (simp [apply_ite State.pending]; done) | split | (rw [State.foldl_pending]) | intro))

@[simp] theorem State.sendGrove_pending (s : State) (type : Nat) (dst : Nat) (data : List Byte) : (State.sendGrove s type dst data).pending = s.pending := by
  unfold State.sendGrove
  first
  | (simp [apply_ite State.pending]; done)
  | ((try dsimp only); repeat' (first | (with_reducible rfl) | (simp [apply_ite State.pending]; done) | split | (rw [State.foldl_pending]) | intro))

@[simp] theorem State.sendRing_pending (s : State) (port : Nat) (f : OutFrame) : (State.sendRing s port f).pending = s.pending := by
  unfold State.sendRing
  first
  | (simp [apply_ite State.pending]; done)
  | ((try dsimp only); repeat' (first | (with_reducible rfl) | (simp [apply_ite State.pending]; done) | split | (rw [State.foldl_pending]) | intro))

@[simp] theorem State.moveRing_pending (s : State) (n : Nat) (f : OutFrame) : (State.moveRing s n f).pending = s.pending := by
  unfold State.moveRing
  first
  | (simp [apply_ite State.pending]; done)
  | ((try dsimp only); repeat' (first | (with_reducible rfl) | (simp [apply_ite State.pending]; done) | split | (rw [State.foldl_pending]) | intro))

@[simp] theorem State.enqueueTimed_pending (s : State) (n : Nat) (f : OutFrame) : (State.enqueueTimed s n f).pending = s.pending := by
  unfold State.enqueueTimed
  first
  | (simp [apply_ite State.pending]; done)
  | ((try dsimp only); repeat' (first | (with_reducible rfl) | (simp [apply_ite State.pending]; done) | split | (rw [State.foldl_pending]) | intro))

@[simp] theorem State.tcCorrect_pending (s : State) (e : Nat) (u : Untimed) : (State.tcCorrect s e u).2.pending = s.pending := by
  unfold State.tcCorrect
  first
  | (simp [apply_ite State.pending]; done)
  | ((try dsimp only); repeat' (first | (with_reducible rfl) | (simp [apply_ite State.pending]; done) | split | (rw [State.foldl_pending]) | (rw [State.foldl_snd_pending]) | (rw [State.foldl_fst_pending]) | intro))

@[simp] theorem State.markDue_pending (s : State) (n : Nat) (held : Bool) (own : Option Nat) : (State.markDue s n held own).pending = s.pending := by
  unfold State.markDue
  first
  | (simp [apply_ite State.pending]; done)
  | ((try dsimp only); repeat' (first | (with_reducible rfl) | (simp [apply_ite State.pending]; done) | split | (rw [State.foldl_pending]) | intro))

@[simp] theorem State.timedBytes_pending (s : State) (f : OutFrame) : (State.timedBytes s f).2.pending = s.pending := by
  unfold State.timedBytes
  first
  | (simp [apply_ite State.pending]; done)
  | ((try dsimp only); repeat' (first | (with_reducible rfl) | (simp [apply_ite State.pending]; done) | split | (rw [State.foldl_pending]) | (rw [State.foldl_snd_pending]) | (rw [State.foldl_fst_pending]) | intro))

@[simp] theorem State.startTimed_pending (s : State) (n : Nat) (f : OutFrame) (rest : List OutFrame) : (State.startTimed s n f rest).pending = s.pending := by
  unfold State.startTimed
  first
  | (simp [apply_ite State.pending]; done)
  | ((try dsimp only); repeat' (first | (with_reducible rfl) | (simp [apply_ite State.pending]; done) | split | (rw [State.foldl_pending]) | intro))

@[simp] theorem State.stampOut_pending (s : State) (n : Nat) (u : Untimed) : (State.stampOut s n u).2.pending = s.pending := by
  unfold State.stampOut
  first
  | (simp [apply_ite State.pending]; done)
  | ((try dsimp only); repeat' (first | (with_reducible rfl) | (simp [apply_ite State.pending]; done) | split | (rw [State.foldl_pending]) | (rw [State.foldl_snd_pending]) | (rw [State.foldl_fst_pending]) | intro))

@[simp] theorem State.startUntimed_pending (s : State) (n : Nat) (u : Untimed) (rest : List Untimed) : (State.startUntimed s n u rest).pending = s.pending := by
  unfold State.startUntimed
  first
  | (simp [apply_ite State.pending]; done)
  | ((try dsimp only); repeat' (first | (with_reducible rfl) | (simp [apply_ite State.pending]; done) | split | (rw [State.foldl_pending]) | intro))

@[simp] theorem State.countDefer_pending (s : State) (n : Nat) : (State.countDefer s n).pending = s.pending := by
  unfold State.countDefer
  first
  | (simp [apply_ite State.pending]; done)
  | ((try dsimp only); repeat' (first | (with_reducible rfl) | (simp [apply_ite State.pending]; done) | split | (rw [State.foldl_pending]) | intro))

@[simp] theorem State.tryUntimed_pending (s : State) (n : Nat) : (State.tryUntimed s n).pending = s.pending := by
  unfold State.tryUntimed
  first
  | (simp [apply_ite State.pending]; done)
  | ((try dsimp only); repeat' (first | (with_reducible rfl) | (simp [apply_ite State.pending]; done) | split | (rw [State.foldl_pending]) | intro))

@[simp] theorem State.chooseNext_pending (s : State) (n : Nat) : (State.chooseNext s n).pending = s.pending := by
  unfold State.chooseNext
  first
  | (simp [apply_ite State.pending]; done)
  | ((try dsimp only); repeat' (first | (with_reducible rfl) | (simp [apply_ite State.pending]; done) | split | (rw [State.foldl_pending]) | intro))

@[simp] theorem State.launchEth_pending (s : State) (n : Nat) : (State.launchEth s n).pending = s.pending := by
  unfold State.launchEth
  first
  | (simp [apply_ite State.pending]; done)
  | ((try dsimp only); repeat' (first | (with_reducible rfl) | (simp [apply_ite State.pending]; done) | split | (rw [State.foldl_pending]) | intro))

@[simp] theorem State.dropExpired_pending (s : State) (n : Nat) : (State.dropExpired s n).pending = s.pending := by
  unfold State.dropExpired
  first
  | (simp [apply_ite State.pending]; done)
  | ((try dsimp only); repeat' (first | (with_reducible rfl) | (simp [apply_ite State.pending]; done) | split | (rw [State.foldl_pending]) | intro))

@[simp] theorem State.cutLeaves_pending (s : State) (n : Nat) (t : TxSt) : (State.cutLeaves s n t).pending = s.pending := by
  unfold State.cutLeaves
  first
  | (simp [apply_ite State.pending]; done)
  | ((try dsimp only); repeat' (first | (with_reducible rfl) | (simp [apply_ite State.pending]; done) | split | (rw [State.foldl_pending]) | intro))

@[simp] theorem State.stompEnds_pending (s : State) (n : Nat) (t : TxSt) : (State.stompEnds s n t).pending = s.pending := by
  unfold State.stompEnds
  first
  | (simp [apply_ite State.pending]; done)
  | ((try dsimp only); repeat' (first | (with_reducible rfl) | (simp [apply_ite State.pending]; done) | split | (rw [State.foldl_pending]) | intro))

@[simp] theorem State.txEnd_pending (s : State) (n : Nat) : (State.txEnd s n).pending = s.pending := by
  unfold State.txEnd
  first
  | (simp [apply_ite State.pending]; done)
  | ((try dsimp only); repeat' (first | (with_reducible rfl) | (simp [apply_ite State.pending]; done) | split | (rw [State.foldl_pending]) | intro))

@[simp] theorem State.pauseEnds_pending (s : State) (n : Nat) : (State.pauseEnds s n).pending = s.pending := by
  unfold State.pauseEnds
  first
  | (simp [apply_ite State.pending]; done)
  | ((try dsimp only); repeat' (first | (with_reducible rfl) | (simp [apply_ite State.pending]; done) | split | (rw [State.foldl_pending]) | intro))

@[simp] theorem State.pauseAct_pending (s : State) (n : Nat) (time : Nat) : (State.pauseAct s n time).pending = s.pending := by
  unfold State.pauseAct
  first
  | (simp [apply_ite State.pending]; done)
  | ((try dsimp only); repeat' (first | (with_reducible rfl) | (simp [apply_ite State.pending]; done) | split | (rw [State.foldl_pending]) | intro))

@[simp] theorem State.pauseExpire_pending (s : State) (n : Nat) : (State.pauseExpire s n).pending = s.pending := by
  unfold State.pauseExpire
  first
  | (simp [apply_ite State.pending]; done)
  | ((try dsimp only); repeat' (first | (with_reducible rfl) | (simp [apply_ite State.pending]; done) | split | (rw [State.foldl_pending]) | intro))

@[simp] theorem State.pauseTrip_pending (s : State) (n : Nat) : (State.pauseTrip s n).pending = s.pending := by
  unfold State.pauseTrip
  first
  | (simp [apply_ite State.pending]; done)
  | ((try dsimp only); repeat' (first | (with_reducible rfl) | (simp [apply_ite State.pending]; done) | split | (rw [State.foldl_pending]) | intro))

@[simp] theorem State.cutRest_pending (s : State) (n : Nat) (bad : Bool) : (State.cutRest s n bad).pending = s.pending := by
  unfold State.cutRest
  first
  | (simp [apply_ite State.pending]; done)
  | ((try dsimp only); repeat' (first | (with_reducible rfl) | (simp [apply_ite State.pending]; done) | split | (rw [State.foldl_pending]) | intro))

@[simp] theorem State.beginFallback_pending (s : State) (n : Nat) : (State.beginFallback s n).pending = s.pending := by
  unfold State.beginFallback
  first
  | (simp [apply_ite State.pending]; done)
  | ((try dsimp only); repeat' (first | (with_reducible rfl) | (simp [apply_ite State.pending]; done) | split | (rw [State.foldl_pending]) | intro))

@[simp] theorem State.linkTo_pending (s : State) (n : Nat) (up : Bool) : (State.linkTo s n up).pending = s.pending := by
  unfold State.linkTo
  first
  | (simp [apply_ite State.pending]; done)
  | ((try dsimp only); repeat' (first | (with_reducible rfl) | (simp [apply_ite State.pending]; done) | split | (rw [State.foldl_pending]) | intro))

@[simp] theorem State.linkApply_pending (s : State) (n : Nat) : (State.linkApply s n).pending = s.pending := by
  unfold State.linkApply
  first
  | (simp [apply_ite State.pending]; done)
  | ((try dsimp only); repeat' (first | (with_reducible rfl) | (simp [apply_ite State.pending]; done) | split | (rw [State.foldl_pending]) | intro))

@[simp] theorem State.disableWrite_pending (s : State) (n : Nat) (off : Bool) : (State.disableWrite s n off).pending = s.pending := by
  unfold State.disableWrite
  first
  | (simp [apply_ite State.pending]; done)
  | ((try dsimp only); repeat' (first | (with_reducible rfl) | (simp [apply_ite State.pending]; done) | split | (rw [State.foldl_pending]) | intro))

@[simp] theorem State.rearmWrite_pending (s : State) (n : Nat) : (State.rearmWrite s n).pending = s.pending := by
  unfold State.rearmWrite
  first
  | (simp [apply_ite State.pending]; done)
  | ((try dsimp only); repeat' (first | (with_reducible rfl) | (simp [apply_ite State.pending]; done) | split | (rw [State.foldl_pending]) | intro))

@[simp] theorem State.swFlush_pending (s : State) : (State.swFlush s).pending = s.pending := by
  unfold State.swFlush
  first
  | (simp [apply_ite State.pending]; done)
  | ((try dsimp only); repeat' (first | (with_reducible rfl) | (simp [apply_ite State.pending]; done) | split | (rw [State.foldl_pending]) | intro))

@[simp] theorem State.learn_pending (s : State) (g : Nat) (a : Nat) (n : Nat) : (State.learn s g a n).pending = s.pending := by
  unfold State.learn
  first
  | (simp [apply_ite State.pending]; done)
  | ((try dsimp only); repeat' (first | (with_reducible rfl) | (simp [apply_ite State.pending]; done) | split | (rw [State.foldl_pending]) | intro))

@[simp] theorem State.blockThreshold_pending (s : State) (n : Nat) (e : Nat) : (State.blockThreshold s n e).pending = s.pending := by
  unfold State.blockThreshold
  first
  | (simp [apply_ite State.pending]; done)
  | ((try dsimp only); repeat' (first | (with_reducible rfl) | (simp [apply_ite State.pending]; done) | split | (rw [State.foldl_pending]) | intro))

@[simp] theorem State.forward_pending (s : State) (n : Nat) (f : EthFrame) (e : Nat) : (State.forward s n f e).pending = s.pending := by
  unfold State.forward
  first
  | (simp [apply_ite State.pending]; done)
  | ((try dsimp only); repeat' (first | (with_reducible rfl) | (simp [apply_ite State.pending]; done) | split | (rw [State.foldl_pending]) | intro))

@[simp] theorem State.ringEnter_pending (s : State) (n : Nat) (f : EthFrame) : (State.ringEnter s n f).pending = s.pending := by
  unfold State.ringEnter
  first
  | (simp [apply_ite State.pending]; done)
  | ((try dsimp only); repeat' (first | (with_reducible rfl) | (simp [apply_ite State.pending]; done) | split | (rw [State.foldl_pending]) | intro))

@[simp] theorem State.ringTake_pending (s : State) (n : Nat) : (State.ringTake s n).pending = s.pending := by
  unfold State.ringTake
  first
  | (simp [apply_ite State.pending]; done)
  | ((try dsimp only); repeat' (first | (with_reducible rfl) | (simp [apply_ite State.pending]; done) | split | (rw [State.foldl_pending]) | intro))

@[simp] theorem State.qbReadNext_pending (s : State) (k : Nat) : (State.qbReadNext s k).pending = s.pending := by
  unfold State.qbReadNext
  first
  | (simp [apply_ite State.pending]; done)
  | ((try dsimp only); repeat' (first | (with_reducible rfl) | (simp [apply_ite State.pending]; done) | split | (rw [State.foldl_pending]) | intro))

@[simp] theorem State.switchFrame_pending (s : State) (n : Nat) (f : EthFrame) : (State.switchFrame s n f).pending = s.pending := by
  unfold State.switchFrame
  first
  | (simp [apply_ite State.pending]; done)
  | ((try dsimp only); repeat' (first | (with_reducible rfl) | (simp [apply_ite State.pending]; done) | split | (rw [State.foldl_pending]) | intro))

@[simp] theorem State.fecCount_pending (s : State) (n : Nat) (f : EthFrame) : (State.fecCount s n f).pending = s.pending := by
  unfold State.fecCount
  first
  | (simp [apply_ite State.pending]; done)
  | ((try dsimp only); repeat' (first | (with_reducible rfl) | (simp [apply_ite State.pending]; done) | split | (rw [State.foldl_pending]) | intro))

@[simp] theorem State.receive_pending (s : State) (n : Nat) (f : EthFrame) : (State.receive s n f).pending = s.pending := by
  unfold State.receive
  first
  | (simp [apply_ite State.pending]; done)
  | ((try dsimp only); repeat' (first | (with_reducible rfl) | (simp [apply_ite State.pending]; done) | split | (rw [State.foldl_pending]) | intro))

@[simp] theorem State.cutStart_pending (s : State) (i : Nat) (e : Nat) (f : EthFrame) (got : Nat) : (State.cutStart s i e f got).pending = s.pending := by
  unfold State.cutStart
  first
  | (simp [apply_ite State.pending]; done)
  | ((try dsimp only); repeat' (first | (with_reducible rfl) | (simp [apply_ite State.pending]; done) | split | (rw [State.foldl_pending]) | intro))

@[simp] theorem State.e131Send_pending (s : State) (rec : Nat) (p : List Byte) : (State.e131Send s rec p).pending = s.pending := by
  unfold State.e131Send
  first
  | (simp [apply_ite State.pending]; done)
  | ((try dsimp only); repeat' (first | (with_reducible rfl) | (simp [apply_ite State.pending]; done) | split | (rw [State.foldl_pending]) | intro))

@[simp] theorem State.e131RepeatOp_pending (s : State) (univ : Nat) : (State.e131RepeatOp s univ).pending = s.pending := by
  unfold State.e131RepeatOp
  first
  | (simp [apply_ite State.pending]; done)
  | ((try dsimp only); repeat' (first | (with_reducible rfl) | (simp [apply_ite State.pending]; done) | split | (rw [State.foldl_pending]) | intro))

@[simp] theorem State.e131Terminate_pending (s : State) : (State.e131Terminate s).pending = s.pending := by
  unfold State.e131Terminate
  first
  | (simp [apply_ite State.pending]; done)
  | ((try dsimp only); repeat' (first | (with_reducible rfl) | (simp [apply_ite State.pending]; done) | split | (rw [State.foldl_pending]) | (rw [State.foldl_snd_pending]) | (rw [State.foldl_fst_pending]) | intro))

@[simp] theorem State.backoff_pending (s : State) (n : Nat) (k : Nat) : (State.backoff s n k).pending = s.pending := by
  unfold State.backoff
  first
  | (simp [apply_ite State.pending]; done)
  | ((try dsimp only); repeat' (first | (with_reducible rfl) | (simp [apply_ite State.pending]; done) | split | (rw [State.foldl_pending]) | intro))

@[simp] theorem State.unsend_pending (s : State) (n : Nat) (t : TxSt) (attempts : Nat) : (State.unsend s n t attempts).pending = s.pending := by
  unfold State.unsend
  first
  | (simp [apply_ite State.pending]; done)
  | ((try dsimp only); repeat' (first | (with_reducible rfl) | (simp [apply_ite State.pending]; done) | split | (rw [State.foldl_pending]) | intro))

@[simp] theorem State.t1sCollide_pending (s : State) (g : Nat) (bit : Nat) : (State.t1sCollide s g bit).pending = s.pending := by
  unfold State.t1sCollide
  first
  | (simp [apply_ite State.pending]; done)
  | ((try dsimp only); repeat' (first | (with_reducible rfl) | (simp [apply_ite State.pending]; done) | split | (rw [State.foldl_pending]) | intro))

@[simp] theorem State.t1sBackoffEnds_pending (s : State) (g : Nat) : (State.t1sBackoffEnds s g).pending = s.pending := by
  unfold State.t1sBackoffEnds
  first
  | (simp [apply_ite State.pending]; done)
  | ((try dsimp only); repeat' (first | (with_reducible rfl) | (simp [apply_ite State.pending]; done) | split | (rw [State.foldl_pending]) | intro))

@[simp] theorem State.t1sCarrierFalls_pending (s : State) (g : Nat) : (State.t1sCarrierFalls s g).pending = s.pending := by
  unfold State.t1sCarrierFalls
  first
  | (simp [apply_ite State.pending]; done)
  | ((try dsimp only); repeat' (first | (with_reducible rfl) | (simp [apply_ite State.pending]; done) | split | (rw [State.foldl_pending]) | intro))

@[simp] theorem State.sessionSend_pending (s : State) (f : Nat → List Byte → State → State) (k : Nat) (hf : ∀ x0 x1 x2, (f x0 x1 x2).pending = x2.pending) : (State.sessionSend s f k).pending = s.pending := by
  unfold State.sessionSend
  first
  | (simp [apply_ite State.pending, hf]; done)
  | ((try dsimp only); repeat' (first | (with_reducible rfl) | (simp [apply_ite State.pending, hf]; done) | split | (rw [State.foldl_pending]) | intro))

@[simp] theorem State.sessionOut_pending (s : State) (k : Nat) : (State.sessionOut s k).pending = s.pending := by
  unfold State.sessionOut
  first
  | (simp [apply_ite State.pending]; done)
  | ((try dsimp only); repeat' (first | (with_reducible rfl) | (simp [apply_ite State.pending]; done) | split | (rw [State.foldl_pending]) | intro))

@[simp] theorem State.sessionFlush_pending (s : State) : (State.sessionFlush s).pending = s.pending := by
  unfold State.sessionFlush
  first
  | (simp [apply_ite State.pending]; done)
  | ((try dsimp only); repeat' (first | (with_reducible rfl) | (simp [apply_ite State.pending]; done) | split | (rw [State.foldl_pending]) | intro))

@[simp] theorem State.putPtp_pending (s : State) (i : Nat) (x : PtpSt) : (State.putPtp s i x).pending = s.pending := by
  unfold State.putPtp
  first
  | (simp [apply_ite State.pending]; done)
  | ((try dsimp only); repeat' (first | (with_reducible rfl) | (simp [apply_ite State.pending]; done) | split | (rw [State.foldl_pending]) | intro))

@[simp] theorem State.setPtp_pending (s : State) (i : Nat) (v : Nat) : (State.setPtp s i v).pending = s.pending := by
  unfold State.setPtp
  first
  | (simp [apply_ite State.pending]; done)
  | ((try dsimp only); repeat' (first | (with_reducible rfl) | (simp [apply_ite State.pending]; done) | split | (rw [State.foldl_pending]) | intro))

@[simp] theorem State.useGm_pending (s : State) (i : Nat) (a : PtpAnnounce) : (State.useGm s i a).pending = s.pending := by
  unfold State.useGm
  first
  | (simp [apply_ite State.pending]; done)
  | ((try dsimp only); repeat' (first | (with_reducible rfl) | (simp [apply_ite State.pending]; done) | split | (rw [State.foldl_pending]) | intro))

@[simp] theorem State.ptpHoldover_pending (s : State) (i : Nat) : (State.ptpHoldover s i).pending = s.pending := by
  unfold State.ptpHoldover
  first
  | (simp [apply_ite State.pending]; done)
  | ((try dsimp only); repeat' (first | (with_reducible rfl) | (simp [apply_ite State.pending]; done) | split | (rw [State.foldl_pending]) | intro))

@[simp] theorem State.masterLock_pending (s : State) (i : Nat) : (State.masterLock s i).pending = s.pending := by
  unfold State.masterLock
  first
  | (simp [apply_ite State.pending]; done)
  | ((try dsimp only); repeat' (first | (with_reducible rfl) | (simp [apply_ite State.pending]; done) | split | (rw [State.foldl_pending]) | intro))

@[simp] theorem State.follow_pending (s : State) (i : Nat) (a : PtpAnnounce) : (State.follow s i a).pending = s.pending := by
  unfold State.follow
  first
  | (simp [apply_ite State.pending]; done)
  | ((try dsimp only); repeat' (first | (with_reducible rfl) | (simp [apply_ite State.pending]; done) | split | (rw [State.foldl_pending]) | intro))

@[simp] theorem State.lead_pending (s : State) (i : Nat) : (State.lead s i).pending = s.pending := by
  unfold State.lead
  first
  | (simp [apply_ite State.pending]; done)
  | ((try dsimp only); repeat' (first | (with_reducible rfl) | (simp [apply_ite State.pending]; done) | split | (rw [State.foldl_pending]) | intro))

@[simp] theorem State.standAside_pending (s : State) (i : Nat) (a : PtpAnnounce) : (State.standAside s i a).pending = s.pending := by
  unfold State.standAside
  first
  | (simp [apply_ite State.pending]; done)
  | ((try dsimp only); repeat' (first | (with_reducible rfl) | (simp [apply_ite State.pending]; done) | split | (rw [State.foldl_pending]) | intro))

@[simp] theorem State.bmca_pending (s : State) (i : Nat) : (State.bmca s i).pending = s.pending := by
  unfold State.bmca
  first
  | (simp [apply_ite State.pending]; done)
  | ((try dsimp only); repeat' (first | (with_reducible rfl) | (simp [apply_ite State.pending]; done) | split | (rw [State.foldl_pending]) | intro))

@[simp] theorem State.announceIn_pending (s : State) (i : Nat) (a : PtpAnnounce) : (State.announceIn s i a).pending = s.pending := by
  unfold State.announceIn
  first
  | (simp [apply_ite State.pending]; done)
  | ((try dsimp only); repeat' (first | (with_reducible rfl) | (simp [apply_ite State.pending]; done) | split | (rw [State.foldl_pending]) | intro))

@[simp] theorem State.announceLate_pending (s : State) (i : Nat) : (State.announceLate s i).pending = s.pending := by
  unfold State.announceLate
  first
  | (simp [apply_ite State.pending]; done)
  | ((try dsimp only); repeat' (first | (with_reducible rfl) | (simp [apply_ite State.pending]; done) | split | (rw [State.foldl_pending]) | intro))

@[simp] theorem State.syncLate_pending (s : State) (i : Nat) : (State.syncLate s i).pending = s.pending := by
  unfold State.syncLate
  first
  | (simp [apply_ite State.pending]; done)
  | ((try dsimp only); repeat' (first | (with_reducible rfl) | (simp [apply_ite State.pending]; done) | split | (rw [State.foldl_pending]) | intro))

@[simp] theorem State.servo_pending (s : State) (i : Nat) (o : Int) (t : Int) : (State.servo s i o t).pending = s.pending := by
  unfold State.servo
  first
  | (simp [apply_ite State.pending]; done)
  | ((try dsimp only); repeat' (first | (with_reducible rfl) | (simp [apply_ite State.pending]; done) | split | (rw [State.foldl_pending]) | intro))

@[simp] theorem State.syncSample_pending (s : State) (i : Nat) (t1 : Int) (t2 : Int) (c : Int) : (State.syncSample s i t1 t2 c).pending = s.pending := by
  unfold State.syncSample
  first
  | (simp [apply_ite State.pending]; done)
  | ((try dsimp only); repeat' (first | (with_reducible rfl) | (simp [apply_ite State.pending]; done) | split | (rw [State.foldl_pending]) | intro))

@[simp] theorem State.delaySample_pending (s : State) (i : Nat) (m : Int) : (State.delaySample s i m).pending = s.pending := by
  unfold State.delaySample
  first
  | (simp [apply_ite State.pending]; done)
  | ((try dsimp only); repeat' (first | (with_reducible rfl) | (simp [apply_ite State.pending]; done) | split | (rw [State.foldl_pending]) | intro))

@[simp] theorem State.syncIn_pending (s : State) (i : Nat) (m : PtpEvent) (sub : Nat) : (State.syncIn s i m sub).pending = s.pending := by
  unfold State.syncIn
  first
  | (simp [apply_ite State.pending]; done)
  | ((try dsimp only); repeat' (first | (with_reducible rfl) | (simp [apply_ite State.pending]; done) | split | (rw [State.foldl_pending]) | intro))

@[simp] theorem State.followIn_pending (s : State) (i : Nat) (m : PtpEvent) : (State.followIn s i m).pending = s.pending := by
  unfold State.followIn
  first
  | (simp [apply_ite State.pending]; done)
  | ((try dsimp only); repeat' (first | (with_reducible rfl) | (simp [apply_ite State.pending]; done) | split | (rw [State.foldl_pending]) | intro))

@[simp] theorem State.delayRespIn_pending (s : State) (i : Nat) (seq : Nat) (t4 : Int) (corr : Int) : (State.delayRespIn s i seq t4 corr).pending = s.pending := by
  unfold State.delayRespIn
  first
  | (simp [apply_ite State.pending]; done)
  | ((try dsimp only); repeat' (first | (with_reducible rfl) | (simp [apply_ite State.pending]; done) | split | (rw [State.foldl_pending]) | intro))

@[simp] theorem State.ptpSend_pending (s : State) (i : Nat) (kind : Nat) (seq : Nat) (flags : Nat) (log : Int) (body : List Byte) (stamp : Bool) : (State.ptpSend s i kind seq flags log body stamp).pending = s.pending := by
  unfold State.ptpSend
  first
  | (simp [apply_ite State.pending]; done)
  | ((try dsimp only); repeat' (first | (with_reducible rfl) | (simp [apply_ite State.pending]; done) | split | (rw [State.foldl_pending]) | intro))

@[simp] theorem State.pdelaySend_pending (s : State) (n : Nat) (kind : Nat) (seq : Nat) (body : List Byte) : (State.pdelaySend s n kind seq body).pending = s.pending := by
  unfold State.pdelaySend
  first
  | (simp [apply_ite State.pending]; done)
  | ((try dsimp only); repeat' (first | (with_reducible rfl) | (simp [apply_ite State.pending]; done) | split | (rw [State.foldl_pending]) | intro))

@[simp] theorem State.pdelayIn_pending (s : State) (port : Nat) (request : Bool) (src : Nat) (seq : Nat) (m : Int) : (State.pdelayIn s port request src seq m).pending = s.pending := by
  unfold State.pdelayIn
  first
  | (simp [apply_ite State.pending]; done)
  | ((try dsimp only); repeat' (first | (with_reducible rfl) | (simp [apply_ite State.pending]; done) | split | (rw [State.foldl_pending]) | intro))

@[simp] theorem State.announceOut_pending (s : State) (i : Nat) : (State.announceOut s i).pending = s.pending := by
  unfold State.announceOut
  first
  | (simp [apply_ite State.pending]; done)
  | ((try dsimp only); repeat' (first | (with_reducible rfl) | (simp [apply_ite State.pending]; done) | split | (rw [State.foldl_pending]) | intro))

@[simp] theorem State.syncOut_pending (s : State) (i : Nat) : (State.syncOut s i).pending = s.pending := by
  unfold State.syncOut
  first
  | (simp [apply_ite State.pending]; done)
  | ((try dsimp only); repeat' (first | (with_reducible rfl) | (simp [apply_ite State.pending]; done) | split | (rw [State.foldl_pending]) | intro))

@[simp] theorem State.delayReqOut_pending (s : State) (i : Nat) : (State.delayReqOut s i).pending = s.pending := by
  unfold State.delayReqOut
  first
  | (simp [apply_ite State.pending]; done)
  | ((try dsimp only); repeat' (first | (with_reducible rfl) | (simp [apply_ite State.pending]; done) | split | (rw [State.foldl_pending]) | intro))

@[simp] theorem State.delayRespOut_pending (s : State) (i : Nat) (src : Nat) (seq : Nat) (sub : Nat) : (State.delayRespOut s i src seq sub).pending = s.pending := by
  unfold State.delayRespOut
  first
  | (simp [apply_ite State.pending]; done)
  | ((try dsimp only); repeat' (first | (with_reducible rfl) | (simp [apply_ite State.pending]; done) | split | (rw [State.foldl_pending]) | intro))

@[simp] theorem State.pdelayTick_pending (s : State) : (State.pdelayTick s).pending = s.pending := by
  unfold State.pdelayTick
  first
  | (simp [apply_ite State.pending]; done)
  | ((try dsimp only); repeat' (first | (with_reducible rfl) | (simp [apply_ite State.pending]; done) | split | (rw [State.foldl_pending]) | intro))

@[simp] theorem State.ptpEnable_pending (s : State) (i : Nat) (on : Bool) : (State.ptpEnable s i on).pending = s.pending := by
  unfold State.ptpEnable
  first
  | (simp [apply_ite State.pending]; done)
  | ((try dsimp only); repeat' (first | (with_reducible rfl) | (simp [apply_ite State.pending]; done) | split | (rw [State.foldl_pending]) | intro))

@[simp] theorem State.ptpDiscard_pending (s : State) (i : Nat) : (State.ptpDiscard s i).pending = s.pending := by
  unfold State.ptpDiscard
  first
  | (simp [apply_ite State.pending]; done)
  | ((try dsimp only); repeat' (first | (with_reducible rfl) | (simp [apply_ite State.pending]; done) | split | (rw [State.foldl_pending]) | intro))

@[simp] theorem State.refEvent_pending (s : State) : (State.refEvent s).pending = s.pending := by
  unfold State.refEvent
  first
  | (simp [apply_ite State.pending]; done)
  | ((try dsimp only); repeat' (first | (with_reducible rfl) | (simp [apply_ite State.pending]; done) | split | (rw [State.foldl_pending]) | intro))

@[simp] theorem State.setTime_pending (s : State) (i : Nat) (sec : Nat) : (State.setTime s i sec).pending = s.pending := by
  unfold State.setTime
  first
  | (simp [apply_ite State.pending]; done)
  | ((try dsimp only); repeat' (first | (with_reducible rfl) | (simp [apply_ite State.pending]; done) | split | (rw [State.foldl_pending]) | intro))

@[simp] theorem State.ppsIn_pending (s : State) : (State.ppsIn s).pending = s.pending := by
  unfold State.ppsIn
  first
  | (simp [apply_ite State.pending]; done)
  | ((try dsimp only); repeat' (first | (with_reducible rfl) | (simp [apply_ite State.pending]; done) | split | (rw [State.foldl_pending]) | intro))

@[simp] theorem State.ppsLose_pending (s : State) : (State.ppsLose s).pending = s.pending := by
  unfold State.ppsLose
  first
  | (simp [apply_ite State.pending]; done)
  | ((try dsimp only); repeat' (first | (with_reducible rfl) | (simp [apply_ite State.pending]; done) | split | (rw [State.foldl_pending]) | intro))

@[simp] theorem State.setTod_pending (s : State) (i : Nat) (atPps : Bool) : (State.setTod s i atPps).pending = s.pending := by
  unfold State.setTod
  first
  | (simp [apply_ite State.pending]; done)
  | ((try dsimp only); repeat' (first | (with_reducible rfl) | (simp [apply_ite State.pending]; done) | split | (rw [State.foldl_pending]) | intro))

@[simp] theorem State.ppsOutEdge_pending (s : State) : (State.ppsOutEdge s).pending = s.pending := by
  unfold State.ppsOutEdge
  first
  | (simp [apply_ite State.pending]; done)
  | ((try dsimp only); repeat' (first | (with_reducible rfl) | (simp [apply_ite State.pending]; done) | split | (rw [State.foldl_pending]) | intro))

@[simp] theorem State.tenMLocks_pending (s : State) : (State.tenMLocks s).pending = s.pending := by
  unfold State.tenMLocks
  first
  | (simp [apply_ite State.pending]; done)
  | ((try dsimp only); repeat' (first | (with_reducible rfl) | (simp [apply_ite State.pending]; done) | split | (rw [State.foldl_pending]) | intro))

@[simp] theorem State.tenMLoses_pending (s : State) : (State.tenMLoses s).pending = s.pending := by
  unfold State.tenMLoses
  first
  | (simp [apply_ite State.pending]; done)
  | ((try dsimp only); repeat' (first | (with_reducible rfl) | (simp [apply_ite State.pending]; done) | split | (rw [State.foldl_pending]) | intro))

@[simp] theorem ptpTick_pending (s : State) (i : Nat) : (ptpTick s i).pending = s.pending := by
  unfold ptpTick
  first
  | (simp [apply_ite State.pending]; done)
  | ((try dsimp only); repeat' (first | (with_reducible rfl) | (simp [apply_ite State.pending]; done) | split | (rw [State.foldl_pending]) | intro))

@[simp] theorem State.rdmAsk_pending (s : State) (n : Nat) (q : RdmReq) (dst : Nat) (cc : Nat) (pid : Nat) (pd : List Byte) : (State.rdmAsk s n q dst cc pid pd).pending = s.pending := by
  unfold State.rdmAsk
  first
  | (simp [apply_ite State.pending]; done)
  | ((try dsimp only); repeat' (first | (with_reducible rfl) | (simp [apply_ite State.pending]; done) | split | (rw [State.foldl_pending]) | intro))

@[simp] theorem State.putGrafts_pending (s : State) (l : List GraftTx) : (State.putGrafts s l).pending = s.pending := by
  unfold State.putGrafts
  first
  | (simp [apply_ite State.pending]; done)
  | ((try dsimp only); repeat' (first | (with_reducible rfl) | (simp [apply_ite State.pending]; done) | split | (rw [State.foldl_pending]) | intro))

@[simp] theorem State.putGraft_pending (s : State) (x : GraftTx) : (State.putGraft s x).pending = s.pending := by
  unfold State.putGraft
  first
  | (simp [apply_ite State.pending]; done)
  | ((try dsimp only); repeat' (first | (with_reducible rfl) | (simp [apply_ite State.pending]; done) | split | (rw [State.foldl_pending]) | intro))

@[simp] theorem State.windfallEvent_pending (s : State) (w : Fetched) (outcome : Nat) (init : Nat) : (State.windfallEvent s w outcome init).pending = s.pending := by
  unfold State.windfallEvent
  first
  | (simp [apply_ite State.pending]; done)
  | ((try dsimp only); repeat' (first | (with_reducible rfl) | (simp [apply_ite State.pending]; done) | split | (rw [State.foldl_pending]) | intro))

@[simp] theorem State.putWindfalls_pending (s : State) (l : List Fetched) : (State.putWindfalls s l).pending = s.pending := by
  unfold State.putWindfalls
  first
  | (simp [apply_ite State.pending]; done)
  | ((try dsimp only); repeat' (first | (with_reducible rfl) | (simp [apply_ite State.pending]; done) | split | (rw [State.foldl_pending]) | intro))

@[simp] theorem State.windfallLost_pending (s : State) (w : Fetched) (outcome : Nat) : (State.windfallLost s w outcome).pending = s.pending := by
  unfold State.windfallLost
  first
  | (simp [apply_ite State.pending]; done)
  | ((try dsimp only); repeat' (first | (with_reducible rfl) | (simp [apply_ite State.pending]; done) | split | (rw [State.foldl_pending]) | intro))

@[simp] theorem State.windfallIn_pending (s : State) (w : Fetched) : (State.windfallIn s w).pending = s.pending := by
  unfold State.windfallIn
  first
  | (simp [apply_ite State.pending]; done)
  | ((try dsimp only); repeat' (first | (with_reducible rfl) | (simp [apply_ite State.pending]; done) | split | (rw [State.foldl_pending]) | intro))

@[simp] theorem State.prefetchOut_pending (s : State) (e : Fetched) : (State.prefetchOut s e).pending = s.pending := by
  unfold State.prefetchOut
  first
  | (simp [apply_ite State.pending]; done)
  | ((try dsimp only); repeat' (first | (with_reducible rfl) | (simp [apply_ite State.pending]; done) | split | (rw [State.foldl_pending]) | (rw [State.foldl_snd_pending]) | (rw [State.foldl_fst_pending]) | intro))

@[simp] theorem State.prefetchDrop_pending (s : State) (p : Fetched → Bool) : (State.prefetchDrop s p).pending = s.pending := by
  unfold State.prefetchDrop
  first
  | (simp [apply_ite State.pending]; done)
  | ((try dsimp only); repeat' (first | (with_reducible rfl) | (simp [apply_ite State.pending]; done) | split | (rw [State.foldl_pending]) | intro))

@[simp] theorem State.prefetchIn_pending (s : State) (e : Fetched) : (State.prefetchIn s e).pending = s.pending := by
  unfold State.prefetchIn
  first
  | (simp [apply_ite State.pending]; done)
  | ((try dsimp only); repeat' (first | (with_reducible rfl) | (simp [apply_ite State.pending]; done) | split | (rw [State.foldl_pending]) | intro))

@[simp] theorem State.windfallAge_pending (s : State) : (State.windfallAge s).pending = s.pending := by
  unfold State.windfallAge
  first
  | (simp [apply_ite State.pending]; done)
  | ((try dsimp only); repeat' (first | (with_reducible rfl) | (simp [apply_ite State.pending]; done) | split | (rw [State.foldl_pending]) | intro))

@[simp] theorem State.prefetchAge_pending (s : State) : (State.prefetchAge s).pending = s.pending := by
  unfold State.prefetchAge
  first
  | (simp [apply_ite State.pending]; done)
  | ((try dsimp only); repeat' (first | (with_reducible rfl) | (simp [apply_ite State.pending]; done) | split | (rw [State.foldl_pending]) | intro))

@[simp] theorem State.graftFail_pending (s : State) (x : GraftTx) (code : Nat) (reason : Nat) : (State.graftFail s x code reason).pending = s.pending := by
  unfold State.graftFail
  first
  | (simp [apply_ite State.pending]; done)
  | ((try dsimp only); repeat' (first | (with_reducible rfl) | (simp [apply_ite State.pending]; done) | split | (rw [State.foldl_pending]) | intro))

@[simp] theorem State.sendGraft_pending (s : State) (dst : Nat) (op : Nat) (status : Nat) (tag : Nat) (leaf : Nat) (offset : Nat) (length : Nat) (data : List Byte) : (State.sendGraft s dst op status tag leaf offset length data).pending = s.pending := by
  unfold State.sendGraft
  first
  | (simp [apply_ite State.pending]; done)
  | ((try dsimp only); repeat' (first | (with_reducible rfl) | (simp [apply_ite State.pending]; done) | split | (rw [State.foldl_pending]) | intro))

@[simp] theorem State.graftDeliver_pending (s : State) (x : GraftTx) (code : Nat) (data : List Byte) (windfall : Bool) : (State.graftDeliver s x code data windfall).pending = s.pending := by
  unfold State.graftDeliver
  first
  | (simp [apply_ite State.pending]; done)
  | ((try dsimp only); repeat' (first | (with_reducible rfl) | (simp [apply_ite State.pending]; done) | split | (rw [State.foldl_pending]) | intro))

@[simp] theorem State.graftEnd_pending (s : State) (x : GraftTx) (code : Nat) (reason : Nat) (data : List Byte) (windfall : Bool) : (State.graftEnd s x code reason data windfall).pending = s.pending := by
  unfold State.graftEnd
  first
  | (simp [apply_ite State.pending]; done)
  | ((try dsimp only); repeat' (first | (with_reducible rfl) | (simp [apply_ite State.pending]; done) | split | (rw [State.foldl_pending]) | intro))

@[simp] theorem State.graftSend_pending (s : State) (port : Nat) (leaf : Nat) (l : List Byte) : (State.graftSend s port leaf l).pending = s.pending := by
  unfold State.graftSend
  first
  | (simp [apply_ite State.pending]; done)
  | ((try dsimp only); repeat' (first | (with_reducible rfl) | (simp [apply_ite State.pending]; done) | split | (rw [State.foldl_pending]) | intro))

@[simp] theorem State.graftHeld_pending (s : State) (x : GraftTx) : (State.graftHeld s x).pending = s.pending := by
  unfold State.graftHeld
  first
  | (simp [apply_ite State.pending]; done)
  | ((try dsimp only); repeat' (first | (with_reducible rfl) | (simp [apply_ite State.pending]; done) | split | (rw [State.foldl_pending]) | intro))

@[simp] theorem State.graftIssued_pending (s : State) (x : GraftTx) : (State.graftIssued s x).pending = s.pending := by
  unfold State.graftIssued
  first
  | (simp [apply_ite State.pending]; done)
  | ((try dsimp only); repeat' (first | (with_reducible rfl) | (simp [apply_ite State.pending]; done) | split | (rw [State.foldl_pending]) | intro))

@[simp] theorem State.graftIssue_pending (s : State) (x : GraftTx) : (State.graftIssue s x).pending = s.pending := by
  unfold State.graftIssue
  first
  | (simp [apply_ite State.pending]; done)
  | ((try dsimp only); repeat' (first | (with_reducible rfl) | (simp [apply_ite State.pending]; done) | split | (rw [State.foldl_pending]) | intro))

@[simp] theorem State.graftPump_pending (y1 : Nat) (y2 : State) : (State.graftPump y1 y2).pending = y2.pending := by
  induction y1 generalizing y2 with
  | zero => rfl
  | succ y1 ih =>
    unfold State.graftPump
    try dsimp only
    repeat' (first | (with_reducible rfl) | (simp [ih]; done) | split)

@[simp] theorem State.graftGo_pending (s : State) : (State.graftGo s).pending = s.pending := by
  unfold State.graftGo
  first
  | (simp [apply_ite State.pending]; done)
  | ((try dsimp only); repeat' (first | (with_reducible rfl) | (simp [apply_ite State.pending]; done) | split | (rw [State.foldl_pending]) | intro))

@[simp] theorem State.graftDone_pending (s : State) (x : GraftTx) (code : Nat) (reason : Nat) (data : List Byte) (windfall : Bool) : (State.graftDone s x code reason data windfall).pending = s.pending := by
  unfold State.graftDone
  first
  | (simp [apply_ite State.pending]; done)
  | ((try dsimp only); repeat' (first | (with_reducible rfl) | (simp [apply_ite State.pending]; done) | split | (rw [State.foldl_pending]) | intro))

@[simp] theorem State.graftSubmit_pending (s : State) (x : GraftTx) : (State.graftSubmit s x).pending = s.pending := by
  unfold State.graftSubmit
  first
  | (simp [apply_ite State.pending]; done)
  | ((try dsimp only); repeat' (first | (with_reducible rfl) | (simp [apply_ite State.pending]; done) | split | (rw [State.foldl_pending]) | intro))

@[simp] theorem State.sefWrong_pending (s : State) (leaf : Nat) : (State.sefWrong s leaf).pending = s.pending := by
  unfold State.sefWrong
  first
  | (simp [apply_ite State.pending]; done)
  | ((try dsimp only); repeat' (first | (with_reducible rfl) | (simp [apply_ite State.pending]; done) | split | (rw [State.foldl_pending]) | intro))

@[simp] theorem State.graftRead_pending (s : State) (x : GraftTx) (data : List Byte) (effect : Bool) : (State.graftRead s x data effect).pending = s.pending := by
  unfold State.graftRead
  first
  | (simp [apply_ite State.pending]; done)
  | ((try dsimp only); repeat' (first | (with_reducible rfl) | (simp [apply_ite State.pending]; done) | split | (rw [State.foldl_pending]) | intro))

@[simp] theorem State.graftRdmEnd_pending (s : State) (tag : Nat) (code : Nat) (ack : Bool) (data : List Byte) : (State.graftRdmEnd s tag code ack data).pending = s.pending := by
  unfold State.graftRdmEnd
  first
  | (simp [apply_ite State.pending]; done)
  | ((try dsimp only); repeat' (first | (with_reducible rfl) | (simp [apply_ite State.pending]; done) | split | (rw [State.foldl_pending]) | intro))

@[simp] theorem State.graftWindow_pending (s : State) : (State.graftWindow s).pending = s.pending := by
  unfold State.graftWindow
  first
  | (simp [apply_ite State.pending]; done)
  | ((try dsimp only); repeat' (first | (with_reducible rfl) | (simp [apply_ite State.pending]; done) | split | (rw [State.foldl_pending]) | intro))

@[simp] theorem State.putDmx_pending (s : State) (n : Nat) (d : DmxSt) : (State.putDmx s n d).pending = s.pending := by
  unfold State.putDmx
  first
  | (simp [apply_ite State.pending]; done)
  | ((try dsimp only); repeat' (first | (with_reducible rfl) | (simp [apply_ite State.pending]; done) | split | (rw [State.foldl_pending]) | intro))

@[simp] theorem State.enqueueDmx_pending (s : State) (n : Nat) (f : OutFrame) : (State.enqueueDmx s n f).pending = s.pending := by
  unfold State.enqueueDmx
  first
  | (simp [apply_ite State.pending]; done)
  | ((try dsimp only); repeat' (first | (with_reducible rfl) | (simp [apply_ite State.pending]; done) | split | (rw [State.foldl_pending]) | intro))

@[simp] theorem State.supersede_pending (s : State) (n : Nat) (k : Nat) : (State.supersede s n k).pending = s.pending := by
  unfold State.supersede
  first
  | (simp [apply_ite State.pending]; done)
  | ((try dsimp only); repeat' (first | (with_reducible rfl) | (simp [apply_ite State.pending]; done) | split | (rw [State.foldl_pending]) | intro))

@[simp] theorem State.dmxPick_pending (s : State) (n : Nat) : (State.dmxPick s n).2.pending = s.pending := by
  unfold State.dmxPick
  first
  | (simp [apply_ite State.pending]; done)
  | ((try dsimp only); repeat' (first | (with_reducible rfl) | (simp [apply_ite State.pending]; done) | split | (rw [State.foldl_pending]) | (rw [State.foldl_snd_pending]) | (rw [State.foldl_fst_pending]) | intro))

@[simp] theorem State.discoveryEnd_pending (s : State) (n : Nat) : (State.discoveryEnd s n).pending = s.pending := by
  unfold State.discoveryEnd
  first
  | (simp [apply_ite State.pending]; done)
  | ((try dsimp only); repeat' (first | (with_reducible rfl) | (simp [apply_ite State.pending]; done) | split | (rw [State.foldl_pending]) | intro))

@[simp] theorem State.discBranch_pending (s : State) (n : Nat) (lo : Nat) (hi : Nat) : (State.discBranch s n lo hi).pending = s.pending := by
  unfold State.discBranch
  first
  | (simp [apply_ite State.pending]; done)
  | ((try dsimp only); repeat' (first | (with_reducible rfl) | (simp [apply_ite State.pending]; done) | split | (rw [State.foldl_pending]) | intro))

@[simp] theorem State.discoveryStep_pending (s : State) (n : Nat) (q : RdmReq) (collision : Bool) (data : Option (List Byte)) : (State.discoveryStep s n q collision data).pending = s.pending := by
  unfold State.discoveryStep
  first
  | (simp [apply_ite State.pending]; done)
  | ((try dsimp only); repeat' (first | (with_reducible rfl) | (simp [apply_ite State.pending]; done) | split | (rw [State.foldl_pending]) | intro))

@[simp] theorem State.discoveryStart_pending (s : State) (n : Nat) : (State.discoveryStart s n).pending = s.pending := by
  unfold State.discoveryStart
  first
  | (simp [apply_ite State.pending]; done)
  | ((try dsimp only); repeat' (first | (with_reducible rfl) | (simp [apply_ite State.pending]; done) | split | (rw [State.foldl_pending]) | intro))

@[simp] theorem State.sendTunnel_pending (s : State) (dst : Nat) (tunnel : Nat) (dir : Nat) (brk : Nat) (mab : Nat) (port : Nat) (l : List Byte) : (State.sendTunnel s dst tunnel dir brk mab port l).pending = s.pending := by
  unfold State.sendTunnel
  first
  | (simp [apply_ite State.pending]; done)
  | ((try dsimp only); repeat' (first | (with_reducible rfl) | (simp [apply_ite State.pending]; done) | split | (rw [State.foldl_pending]) | intro))

@[simp] theorem State.tunnelResponse_pending (s : State) (pos : Nat) (tunnel : Nat) (l : List Byte) : (State.tunnelResponse s pos tunnel l).pending = s.pending := by
  unfold State.tunnelResponse
  first
  | (simp [apply_ite State.pending]; done)
  | ((try dsimp only); repeat' (first | (with_reducible rfl) | (simp [apply_ite State.pending]; done) | split | (rw [State.foldl_pending]) | intro))

@[simp] theorem State.rdmEnd_pending (s : State) (n : Nat) (q : RdmReq) (code : Nat) (ack : Bool) (data : List Byte) : (State.rdmEnd s n q code ack data).pending = s.pending := by
  unfold State.rdmEnd
  first
  | (simp [apply_ite State.pending]; done)
  | ((try dsimp only); repeat' (first | (with_reducible rfl) | (simp [apply_ite State.pending]; done) | split | (rw [State.foldl_pending]) | intro))

@[simp] theorem State.rdmAbandon_pending (s : State) (n : Nat) : (State.rdmAbandon s n).pending = s.pending := by
  unfold State.rdmAbandon
  first
  | (simp [apply_ite State.pending]; done)
  | ((try dsimp only); repeat' (first | (with_reducible rfl) | (simp [apply_ite State.pending]; done) | split | (rw [State.foldl_pending]) | intro))

@[simp] theorem State.dmxBegin_pending (s : State) (n : Nat) (f : OutFrame) : (State.dmxBegin s n f).pending = s.pending := by
  unfold State.dmxBegin
  first
  | (simp [apply_ite State.pending]; done)
  | ((try dsimp only); repeat' (first | (with_reducible rfl) | (simp [apply_ite State.pending]; done) | split | (rw [State.foldl_pending]) | intro))

@[simp] theorem State.dmxStart_pending (s : State) (n : Nat) : (State.dmxStart s n).pending = s.pending := by
  unfold State.dmxStart
  first
  | (simp [apply_ite State.pending]; done)
  | ((try dsimp only); repeat' (first | (with_reducible rfl) | (simp [apply_ite State.pending]; done) | split | (rw [State.foldl_pending]) | intro))

@[simp] theorem State.dmxEnd_pending (s : State) (n : Nat) : (State.dmxEnd s n).pending = s.pending := by
  unfold State.dmxEnd
  first
  | (simp [apply_ite State.pending]; done)
  | ((try dsimp only); repeat' (first | (with_reducible rfl) | (simp [apply_ite State.pending]; done) | split | (rw [State.foldl_pending]) | intro))

@[simp] theorem State.dmxRepeatOp_pending (s : State) (n : Nat) : (State.dmxRepeatOp s n).pending = s.pending := by
  unfold State.dmxRepeatOp
  first
  | (simp [apply_ite State.pending]; done)
  | ((try dsimp only); repeat' (first | (with_reducible rfl) | (simp [apply_ite State.pending]; done) | split | (rw [State.foldl_pending]) | intro))

@[simp] theorem State.rdmStart_pending (s : State) (n : Nat) : (State.rdmStart s n).pending = s.pending := by
  unfold State.rdmStart
  first
  | (simp [apply_ite State.pending]; done)
  | ((try dsimp only); repeat' (first | (with_reducible rfl) | (simp [apply_ite State.pending]; done) | split | (rw [State.foldl_pending]) | intro))

@[simp] theorem State.rdmSilent_pending (s : State) (n : Nat) : (State.rdmSilent s n).pending = s.pending := by
  unfold State.rdmSilent
  first
  | (simp [apply_ite State.pending]; done)
  | ((try dsimp only); repeat' (first | (with_reducible rfl) | (simp [apply_ite State.pending]; done) | split | (rw [State.foldl_pending]) | intro))

@[simp] theorem State.rdmAnswer_pending (s : State) (n : Nat) (ok : Bool) (ack : Bool) (data : List Byte) : (State.rdmAnswer s n ok ack data).pending = s.pending := by
  unfold State.rdmAnswer
  first
  | (simp [apply_ite State.pending]; done)
  | ((try dsimp only); repeat' (first | (with_reducible rfl) | (simp [apply_ite State.pending]; done) | split | (rw [State.foldl_pending]) | intro))

@[simp] theorem State.rdmTimeout_pending (s : State) (n : Nat) : (State.rdmTimeout s n).pending = s.pending := by
  unfold State.rdmTimeout
  first
  | (simp [apply_ite State.pending]; done)
  | ((try dsimp only); repeat' (first | (with_reducible rfl) | (simp [apply_ite State.pending]; done) | split | (rw [State.foldl_pending]) | intro))

@[simp] theorem State.rdmNone_pending (s : State) (n : Nat) : (State.rdmNone s n).pending = s.pending := by
  unfold State.rdmNone
  first
  | (simp [apply_ite State.pending]; done)
  | ((try dsimp only); repeat' (first | (with_reducible rfl) | (simp [apply_ite State.pending]; done) | split | (rw [State.foldl_pending]) | intro))

@[simp] theorem State.tunnelBad_pending (s : State) : (State.tunnelBad s).pending = s.pending := by
  unfold State.tunnelBad
  first
  | (simp [apply_ite State.pending]; done)
  | ((try dsimp only); repeat' (first | (with_reducible rfl) | (simp [apply_ite State.pending]; done) | split | (rw [State.foldl_pending]) | intro))

@[simp] theorem State.tunnelDeliver_pending (s : State) (n : Nat) (pos : Nat) (tunnel : Nat) (brk : Nat) (mab : Nat) (l : List Byte) : (State.tunnelDeliver s n pos tunnel brk mab l).pending = s.pending := by
  unfold State.tunnelDeliver
  first
  | (simp [apply_ite State.pending]; done)
  | ((try dsimp only); repeat' (first | (with_reducible rfl) | (simp [apply_ite State.pending]; done) | split | (rw [State.foldl_pending]) | intro))

@[simp] theorem State.tunnelCarry_pending (s : State) (t : Nat) (brk : Nat) (mab : Nat) (l : List Byte) : (State.tunnelCarry s t brk mab l).pending = s.pending := by
  unfold State.tunnelCarry
  first
  | (simp [apply_ite State.pending]; done)
  | ((try dsimp only); repeat' (first | (with_reducible rfl) | (simp [apply_ite State.pending]; done) | split | (rw [State.foldl_pending]) | intro))

@[simp] theorem State.dmxIn_pending (s : State) (n : Nat) (sc : Byte) (slots : List Byte) (ok : Bool) (brk : Nat) (mab : Nat) : (State.dmxIn s n sc slots ok brk mab).pending = s.pending := by
  unfold State.dmxIn
  first
  | (simp [apply_ite State.pending]; done)
  | ((try dsimp only); repeat' (first | (with_reducible rfl) | (simp [apply_ite State.pending]; done) | split | (rw [State.foldl_pending]) | intro))

@[simp] theorem State.tunnelIn_pending (s : State) (pos : Nat) (tunnel : Nat) (response : Bool) (brk : Nat) (mab : Nat) (l : List Byte) (port : Nat) : (State.tunnelIn s pos tunnel response brk mab l port).pending = s.pending := by
  unfold State.tunnelIn
  first
  | (simp [apply_ite State.pending]; done)
  | ((try dsimp only); repeat' (first | (with_reducible rfl) | (simp [apply_ite State.pending]; done) | split | (rw [State.foldl_pending]) | intro))

@[simp] theorem State.tunnelSend_pending (s : State) (n : Nat) : (State.tunnelSend s n).pending = s.pending := by
  unfold State.tunnelSend
  first
  | (simp [apply_ite State.pending]; done)
  | ((try dsimp only); repeat' (first | (with_reducible rfl) | (simp [apply_ite State.pending]; done) | split | (rw [State.foldl_pending]) | intro))

@[simp] theorem State.tunnelCheck_pending (s : State) (t : Nat) : (State.tunnelCheck s t).pending = s.pending := by
  unfold State.tunnelCheck
  first
  | (simp [apply_ite State.pending]; done)
  | ((try dsimp only); repeat' (first | (with_reducible rfl) | (simp [apply_ite State.pending]; done) | split | (rw [State.foldl_pending]) | intro))

@[simp] theorem State.putSap_pending (s : State) (n : Nat) (d : SapSt) : (State.putSap s n d).pending = s.pending := by
  unfold State.putSap
  first
  | (simp [apply_ite State.pending]; done)
  | ((try dsimp only); repeat' (first | (with_reducible rfl) | (simp [apply_ite State.pending]; done) | split | (rw [State.foldl_pending]) | intro))

@[simp] theorem State.putNode_pending (s : State) (n : Nat) (node : Nat) (r : List Byte) : (State.putNode s n node r).pending = s.pending := by
  unfold State.putNode
  first
  | (simp [apply_ite State.pending]; done)
  | ((try dsimp only); repeat' (first | (with_reducible rfl) | (simp [apply_ite State.pending]; done) | split | (rw [State.foldl_pending]) | intro))

@[simp] theorem State.sapCheck_pending (s : State) (n : Nat) (ok : Bool) : (State.sapCheck s n ok).pending = s.pending := by
  unfold State.sapCheck
  first
  | (simp [apply_ite State.pending]; done)
  | ((try dsimp only); repeat' (first | (with_reducible rfl) | (simp [apply_ite State.pending]; done) | split | (rw [State.foldl_pending]) | intro))

@[simp] theorem State.sapSend_pending (s : State) (n : Nat) (cmd : Nat) (w : List Byte) : (State.sapSend s n cmd w).pending = s.pending := by
  unfold State.sapSend
  first
  | (simp [apply_ite State.pending]; done)
  | ((try dsimp only); repeat' (first | (with_reducible rfl) | (simp [apply_ite State.pending]; done) | split | (rw [State.foldl_pending]) | intro))

@[simp] theorem State.dropBurst_pending (s : State) (n : Nat) (f : OutFrame) : (State.dropBurst s n f).pending = s.pending := by
  unfold State.dropBurst
  first
  | (simp [apply_ite State.pending]; done)
  | ((try dsimp only); repeat' (first | (with_reducible rfl) | (simp [apply_ite State.pending]; done) | split | (rw [State.foldl_pending]) | intro))

@[simp] theorem State.sapEmit_pending (s : State) (n : Nat) (b : SapBurst) (start : Int) (f : OutFrame) : (State.sapEmit s n b start f).pending = s.pending := by
  unfold State.sapEmit
  first
  | (simp [apply_ite State.pending]; done)
  | ((try dsimp only); repeat' (first | (with_reducible rfl) | (simp [apply_ite State.pending]; done) | split | (rw [State.foldl_pending]) | intro))

@[simp] theorem State.sapFlow_pending (y1 : Nat) (y2 : State) (y3 : Nat) (y4 : Bool) : (State.sapFlow y1 y2 y3 y4).pending = y2.pending := by
  induction y1 generalizing y2 y3 y4 with
  | zero => rfl
  | succ y1 ih =>
    unfold State.sapFlow
    try dsimp only
    repeat' (first | (with_reducible rfl) | (simp [ih]; done) | split)

@[simp] theorem State.sapTick_pending (s : State) : (State.sapTick s).pending = s.pending := by
  unfold State.sapTick
  first
  | (simp [apply_ite State.pending]; done)
  | ((try dsimp only); repeat' (first | (with_reducible rfl) | (simp [apply_ite State.pending]; done) | split | (rw [State.foldl_pending]) | (rw [State.foldl_snd_pending]) | (rw [State.foldl_fst_pending]) | intro))

@[simp] theorem State.enqueueSap_pending (s : State) (n : Nat) (f : OutFrame) : (State.enqueueSap s n f).pending = s.pending := by
  unfold State.enqueueSap
  first
  | (simp [apply_ite State.pending]; done)
  | ((try dsimp only); repeat' (first | (with_reducible rfl) | (simp [apply_ite State.pending]; done) | split | (rw [State.foldl_pending]) | intro))

@[simp] theorem State.sapBegin_pending (s : State) (n : Nat) (f : OutFrame) (from_ : Option Int) : (State.sapBegin s n f from_).pending = s.pending := by
  unfold State.sapBegin
  first
  | (simp [apply_ite State.pending]; done)
  | ((try dsimp only); repeat' (first | (with_reducible rfl) | (simp [apply_ite State.pending]; done) | split | (rw [State.foldl_pending]) | intro))

@[simp] theorem State.sapAbandon_pending (s : State) (n : Nat) (b : SapBurst) (now : Int) : (State.sapAbandon s n b now).2.pending = s.pending := by
  unfold State.sapAbandon
  first
  | (simp [apply_ite State.pending]; done)
  | ((try dsimp only); repeat' (first | (with_reducible rfl) | (simp [apply_ite State.pending]; done) | split | (rw [State.foldl_pending]) | (rw [State.foldl_snd_pending]) | (rw [State.foldl_fst_pending]) | intro))

@[simp] theorem State.sapLate_pending (s : State) (n : Nat) : (State.sapLate s n).pending = s.pending := by
  unfold State.sapLate
  first
  | (simp [apply_ite State.pending]; done)
  | ((try dsimp only); repeat' (first | (with_reducible rfl) | (simp [apply_ite State.pending]; done) | split | (rw [State.foldl_pending]) | intro))

@[simp] theorem State.sapStart_pending (s : State) (n : Nat) : (State.sapStart s n).pending = s.pending := by
  unfold State.sapStart
  first
  | (simp [apply_ite State.pending]; done)
  | ((try dsimp only); repeat' (first | (with_reducible rfl) | (simp [apply_ite State.pending]; done) | split | (rw [State.foldl_pending]) | intro))

@[simp] theorem State.sapEnd_pending (s : State) (n : Nat) : (State.sapEnd s n).pending = s.pending := by
  unfold State.sapEnd
  first
  | (simp [apply_ite State.pending]; done)
  | ((try dsimp only); repeat' (first | (with_reducible rfl) | (simp [apply_ite State.pending]; done) | split | (rw [State.foldl_pending]) | intro))

@[simp] theorem State.sapPollOp_pending (s : State) (n : Nat) (ident : Bool) : (State.sapPollOp s n ident).pending = s.pending := by
  unfold State.sapPollOp
  first
  | (simp [apply_ite State.pending]; done)
  | ((try dsimp only); repeat' (first | (with_reducible rfl) | (simp [apply_ite State.pending]; done) | split | (rw [State.foldl_pending]) | intro))

@[simp] theorem State.sapChanged_pending (s : State) (n : Nat) : (State.sapChanged s n).pending = s.pending := by
  unfold State.sapChanged
  first
  | (simp [apply_ite State.pending]; done)
  | ((try dsimp only); repeat' (first | (with_reducible rfl) | (simp [apply_ite State.pending]; done) | split | (rw [State.foldl_pending]) | intro))

@[simp] theorem State.sapMissing_pending (s : State) (n : Nat) (node : Nat) (on : Bool) : (State.sapMissing s n node on).pending = s.pending := by
  unfold State.sapMissing
  first
  | (simp [apply_ite State.pending]; done)
  | ((try dsimp only); repeat' (first | (with_reducible rfl) | (simp [apply_ite State.pending]; done) | split | (rw [State.foldl_pending]) | intro))

@[simp] theorem State.sapStatusReply_pending (s : State) (n : Nat) (node : Nat) (p : List Byte) : (State.sapStatusReply s n node p).pending = s.pending := by
  unfold State.sapStatusReply
  first
  | (simp [apply_ite State.pending]; done)
  | ((try dsimp only); repeat' (first | (with_reducible rfl) | (simp [apply_ite State.pending]; done) | split | (rw [State.foldl_pending]) | intro))

@[simp] theorem State.sapIdentReply_pending (s : State) (n : Nat) (node : Nat) (p : List Byte) : (State.sapIdentReply s n node p).pending = s.pending := by
  unfold State.sapIdentReply
  first
  | (simp [apply_ite State.pending]; done)
  | ((try dsimp only); repeat' (first | (with_reducible rfl) | (simp [apply_ite State.pending]; done) | split | (rw [State.foldl_pending]) | intro))

@[simp] theorem State.sapReplyOp_pending (s : State) (n : Nat) (f : List Byte) : (State.sapReplyOp s n f).pending = s.pending := by
  unfold State.sapReplyOp
  first
  | (simp [apply_ite State.pending]; done)
  | ((try dsimp only); repeat' (first | (with_reducible rfl) | (simp [apply_ite State.pending]; done) | split | (rw [State.foldl_pending]) | intro))

@[simp] theorem State.sapWindowEnd_pending (s : State) (n : Nat) : (State.sapWindowEnd s n).pending = s.pending := by
  unfold State.sapWindowEnd
  first
  | (simp [apply_ite State.pending]; done)
  | ((try dsimp only); repeat' (first | (with_reducible rfl) | (simp [apply_ite State.pending]; done) | split | (rw [State.foldl_pending]) | intro))

@[simp] theorem State.sapHoldWrite_pending (s : State) (n : Nat) (on : Bool) : (State.sapHoldWrite s n on).pending = s.pending := by
  unfold State.sapHoldWrite
  first
  | (simp [apply_ite State.pending]; done)
  | ((try dsimp only); repeat' (first | (with_reducible rfl) | (simp [apply_ite State.pending]; done) | split | (rw [State.foldl_pending]) | intro))

@[simp] theorem State.memWrite_pending (s : State) (a : Nat) (l : List Byte) : (State.memWrite s a l).pending = s.pending := by
  unfold State.memWrite
  first
  | (simp [apply_ite State.pending]; done)
  | ((try dsimp only); repeat' (first | (with_reducible rfl) | (simp [apply_ite State.pending]; done) | split | (rw [State.foldl_pending]) | intro))

@[simp] theorem State.memClear_pending (s : State) (a : Nat) (n : Nat) : (State.memClear s a n).pending = s.pending := by
  unfold State.memClear
  first
  | (simp [apply_ite State.pending]; done)
  | ((try dsimp only); repeat' (first | (with_reducible rfl) | (simp [apply_ite State.pending]; done) | split | (rw [State.foldl_pending]) | intro))

@[simp] theorem State.memCopy_pending (s : State) (src : Nat) (dst : Nat) (n : Nat) : (State.memCopy s src dst n).pending = s.pending := by
  unfold State.memCopy
  first
  | (simp [apply_ite State.pending]; done)
  | ((try dsimp only); repeat' (first | (with_reducible rfl) | (simp [apply_ite State.pending]; done) | split | (rw [State.foldl_pending]) | (rw [State.foldl_snd_pending]) | (rw [State.foldl_fst_pending]) | intro))

@[simp] theorem State.putTrunk_pending (s : State) (t : Trunk) (x : TrunkSt) : (State.putTrunk s t x).pending = s.pending := by
  unfold State.putTrunk
  first
  | (simp [apply_ite State.pending]; done)
  | ((try dsimp only); repeat' (first | (with_reducible rfl) | (simp [apply_ite State.pending]; done) | split | (rw [State.foldl_pending]) | intro))

@[simp] theorem State.withCap_pending (s : State) (c : Capture) : (State.withCap s c).pending = s.pending := by
  unfold State.withCap
  first
  | (simp [apply_ite State.pending]; done)
  | ((try dsimp only); repeat' (first | (with_reducible rfl) | (simp [apply_ite State.pending]; done) | split | (rw [State.foldl_pending]) | intro))

@[simp] theorem State.putLayer_pending (s : State) (t : Trunk) (n : Nat) (x : LayerSt) : (State.putLayer s t n x).pending = s.pending := by
  unfold State.putLayer
  first
  | (simp [apply_ite State.pending]; done)
  | ((try dsimp only); repeat' (first | (with_reducible rfl) | (simp [apply_ite State.pending]; done) | split | (rw [State.foldl_pending]) | intro))

@[simp] theorem State.commitWrite_pending (s : State) (t : Trunk) (mask : Nat) : (State.commitWrite s t mask).pending = s.pending := by
  unfold State.commitWrite
  first
  | (simp [apply_ite State.pending]; done)
  | ((try dsimp only); repeat' (first | (with_reducible rfl) | (simp [apply_ite State.pending]; done) | split | (rw [State.foldl_pending]) | intro))

@[simp] theorem State.pendCommit_pending (s : State) (t : Trunk) (mask : Nat) : (State.pendCommit s t mask).pending = s.pending := by
  unfold State.pendCommit
  first
  | (simp [apply_ite State.pending]; done)
  | ((try dsimp only); repeat' (first | (with_reducible rfl) | (simp [apply_ite State.pending]; done) | split | (rw [State.foldl_pending]) | intro))

@[simp] theorem State.layerCommit_pending (s : State) (t : Trunk) (n : Nat) : (State.layerCommit s t n).pending = s.pending := by
  unfold State.layerCommit
  first
  | (simp [apply_ite State.pending]; done)
  | ((try dsimp only); repeat' (first | (with_reducible rfl) | (simp [apply_ite State.pending]; done) | split | (rw [State.foldl_pending]) | intro))

@[simp] theorem State.commitDone_pending (s : State) (t : Trunk) : (State.commitDone s t).pending = s.pending := by
  unfold State.commitDone
  first
  | (simp [apply_ite State.pending]; done)
  | ((try dsimp only); repeat' (first | (with_reducible rfl) | (simp [apply_ite State.pending]; done) | split | (rw [State.foldl_pending]) | intro))

@[simp] theorem State.layerReadyOp_pending (s : State) (t : Trunk) (n : Nat) : (State.layerReadyOp s t n).pending = s.pending := by
  unfold State.layerReadyOp
  first
  | (simp [apply_ite State.pending]; done)
  | ((try dsimp only); repeat' (first | (with_reducible rfl) | (simp [apply_ite State.pending]; done) | split | (rw [State.foldl_pending]) | intro))

@[simp] theorem State.layerActivate_pending (s : State) (t : Trunk) (n : Nat) : (State.layerActivate s t n).pending = s.pending := by
  unfold State.layerActivate
  first
  | (simp [apply_ite State.pending]; done)
  | ((try dsimp only); repeat' (first | (with_reducible rfl) | (simp [apply_ite State.pending]; done) | split | (rw [State.foldl_pending]) | intro))

@[simp] theorem State.layerCap_pending (s : State) (t : Trunk) (n : Nat) : (State.layerCap s t n).pending = s.pending := by
  unfold State.layerCap
  first
  | (simp [apply_ite State.pending]; done)
  | ((try dsimp only); repeat' (first | (with_reducible rfl) | (simp [apply_ite State.pending]; done) | split | (rw [State.foldl_pending]) | intro))

@[simp] theorem State.canvasActivate_pending (s : State) (t : Trunk) (c : Nat) : (State.canvasActivate s t c).pending = s.pending := by
  unfold State.canvasActivate
  first
  | (simp [apply_ite State.pending]; done)
  | ((try dsimp only); repeat' (first | (with_reducible rfl) | (simp [apply_ite State.pending]; done) | split | (rw [State.foldl_pending]) | intro))

@[simp] theorem State.layerRelease_pending (s : State) (t : Trunk) (n : Nat) : (State.layerRelease s t n).pending = s.pending := by
  unfold State.layerRelease
  first
  | (simp [apply_ite State.pending]; done)
  | ((try dsimp only); repeat' (first | (with_reducible rfl) | (simp [apply_ite State.pending]; done) | split | (rw [State.foldl_pending]) | intro))

@[simp] theorem State.layerLate_pending (s : State) (t : Trunk) (n : Nat) : (State.layerLate s t n).pending = s.pending := by
  unfold State.layerLate
  first
  | (simp [apply_ite State.pending]; done)
  | ((try dsimp only); repeat' (first | (with_reducible rfl) | (simp [apply_ite State.pending]; done) | split | (rw [State.foldl_pending]) | intro))

@[simp] theorem State.layerEff_pending (s : State) (t : Trunk) (c : Nat) : (State.layerEff s t c).pending = s.pending := by
  unfold State.layerEff
  first
  | (simp [apply_ite State.pending]; done)
  | ((try dsimp only); repeat' (first | (with_reducible rfl) | (simp [apply_ite State.pending]; done) | split | (rw [State.foldl_pending]) | intro))

@[simp] theorem State.seedLayer_pending (s : State) (t : Trunk) (n : Nat) : (State.seedLayer s t n).pending = s.pending := by
  unfold State.seedLayer
  first
  | (simp [apply_ite State.pending]; done)
  | ((try dsimp only); repeat' (first | (with_reducible rfl) | (simp [apply_ite State.pending]; done) | split | (rw [State.foldl_pending]) | intro))

@[simp] theorem State.seedCanvas_pending (s : State) (t : Trunk) (c : Nat) : (State.seedCanvas s t c).pending = s.pending := by
  unfold State.seedCanvas
  first
  | (simp [apply_ite State.pending]; done)
  | ((try dsimp only); repeat' (first | (with_reducible rfl) | (simp [apply_ite State.pending]; done) | split | (rw [State.foldl_pending]) | intro))

@[simp] theorem State.seedCanvases_pending (s : State) (t : Trunk) (p : Nat → Bool) : (State.seedCanvases s t p).pending = s.pending := by
  unfold State.seedCanvases
  first
  | (simp [apply_ite State.pending]; done)
  | ((try dsimp only); repeat' (first | (with_reducible rfl) | (simp [apply_ite State.pending]; done) | split | (rw [State.foldl_pending]) | intro))

@[simp] theorem State.seedPool_pending (s : State) (t : Trunk) : (State.seedPool s t).pending = s.pending := by
  unfold State.seedPool
  first
  | (simp [apply_ite State.pending]; done)
  | ((try dsimp only); repeat' (first | (with_reducible rfl) | (simp [apply_ite State.pending]; done) | split | (rw [State.foldl_pending]) | intro))

@[simp] theorem State.canvasCompose_pending (s : State) (t : Trunk) (c : Nat) (k : Nat) (pos : Nat) : (State.canvasCompose s t c k pos).pending = s.pending := by
  unfold State.canvasCompose
  first
  | (simp [apply_ite State.pending]; done)
  | ((try dsimp only); repeat' (first | (with_reducible rfl) | (simp [apply_ite State.pending]; done) | split | (rw [State.foldl_pending]) | intro))

@[simp] theorem State.frameDone_pending (s : State) (t : Trunk) (c : Nat) (failed : List Nat) (bad : List Nat) : (State.frameDone s t c failed bad).pending = s.pending := by
  unfold State.frameDone
  first
  | (simp [apply_ite State.pending]; done)
  | ((try dsimp only); repeat' (first | (with_reducible rfl) | (simp [apply_ite State.pending]; done) | split | (rw [State.foldl_pending]) | intro))

theorem State.freeBuffer_pending (s : State) (t : Trunk) (c : Nat) (v : State) (hs : (State.freeBuffer s t c) = some v) : v.pending = s.pending := by
  unfold State.freeBuffer at hs
  dsimp only at hs
  repeat' (split at hs)
  all_goals first | contradiction | (cases hs; simp)

@[simp] theorem State.canvasEpoch_pending (s : State) (t : Trunk) (c : Nat) (k : Nat) (pos : Nat) (thin : Bool) : (State.canvasEpoch s t c k pos thin).pending = s.pending := by
  unfold State.canvasEpoch
  first
  | (simp [apply_ite State.pending]; done)
  | ((try dsimp only); repeat' (first | (with_reducible rfl) | (simp [apply_ite State.pending]; done) | (rename_i hh; (try simp); rw [State.freeBuffer_pending _ _ _ _ hh]) | split | (rw [State.foldl_pending]) | intro))

@[simp] theorem State.inputFrame_pending (s : State) (rec : Nat) (w : Nat) (h : Nat) (f : InputForm) (whole : Bool) (data : List Nat) : (State.inputFrame s rec w h f whole data).pending = s.pending := by
  unfold State.inputFrame
  first
  | (simp [apply_ite State.pending]; done)
  | ((try dsimp only); repeat' (first | (with_reducible rfl) | (simp [apply_ite State.pending]; done) | split | (rw [State.foldl_pending]) | intro))

@[simp] theorem State.putRast_pending (s : State) (t : Trunk) (g : Nat) (x : RastSt) : (State.putRast s t g x).pending = s.pending := by
  unfold State.putRast
  first
  | (simp [apply_ite State.pending]; done)
  | ((try dsimp only); repeat' (first | (with_reducible rfl) | (simp [apply_ite State.pending]; done) | split | (rw [State.foldl_pending]) | intro))

@[simp] theorem State.putRastOut_pending (s : State) (k : Nat) (x : RasterOut) : (State.putRastOut s k x).pending = s.pending := by
  unfold State.putRastOut
  first
  | (simp [apply_ite State.pending]; done)
  | ((try dsimp only); repeat' (first | (with_reducible rfl) | (simp [apply_ite State.pending]; done) | split | (rw [State.foldl_pending]) | intro))

@[simp] theorem State.onRast_pending (s : State) (t : Trunk) (f : Trunk → State → State) (hf : ∀ x0 x1, (f x0 x1).pending = x1.pending) : (State.onRast s t f).pending = s.pending := by
  unfold State.onRast
  first
  | (simp [apply_ite State.pending, hf]; done)
  | ((try dsimp only); repeat' (first | (with_reducible rfl) | (simp [apply_ite State.pending, hf]; done) | split | (rw [State.foldl_pending]) | intro))

@[simp] theorem State.rastEvent_pending (s : State) (t : Trunk) (g : Nat) (i : Nat) : (State.rastEvent s t g i).pending = s.pending := by
  unfold State.rastEvent
  first
  | (simp [apply_ite State.pending]; done)
  | ((try dsimp only); repeat' (first | (with_reducible rfl) | (simp [apply_ite State.pending]; done) | split | (rw [State.foldl_pending]) | intro))

@[simp] theorem State.rastCount_pending (s : State) (t : Trunk) (g : Nat) : (State.rastCount s t g).pending = s.pending := by
  unfold State.rastCount
  first
  | (simp [apply_ite State.pending]; done)
  | ((try dsimp only); repeat' (first | (with_reducible rfl) | (simp [apply_ite State.pending]; done) | split | (rw [State.foldl_pending]) | intro))

@[simp] theorem State.rastFresh_pending (s : State) (t : Trunk) (g : Nat) : (State.rastFresh s t g).pending = s.pending := by
  unfold State.rastFresh
  first
  | (simp [apply_ite State.pending]; done)
  | ((try dsimp only); repeat' (first | (with_reducible rfl) | (simp [apply_ite State.pending]; done) | split | (rw [State.foldl_pending]) | intro))

@[simp] theorem State.rastTake_pending (s : State) (t : Trunk) (g : Nat) : (State.rastTake s t g).pending = s.pending := by
  unfold State.rastTake
  first
  | (simp [apply_ite State.pending]; done)
  | ((try dsimp only); repeat' (first | (with_reducible rfl) | (simp [apply_ite State.pending]; done) | split | (rw [State.foldl_pending]) | intro))

@[simp] theorem State.rastCommitWrite_pending (s : State) (t : Trunk) (g : Nat) : (State.rastCommitWrite s t g).pending = s.pending := by
  unfold State.rastCommitWrite
  first
  | (simp [apply_ite State.pending]; done)
  | ((try dsimp only); repeat' (first | (with_reducible rfl) | (simp [apply_ite State.pending]; done) | split | (rw [State.foldl_pending]) | intro))

@[simp] theorem State.flip_pending (s : State) (t : Trunk) (g : Nat) (l : Option Nat) : (State.flip s t g l).pending = s.pending := by
  unfold State.flip
  first
  | (simp [apply_ite State.pending]; done)
  | ((try dsimp only); repeat' (first | (with_reducible rfl) | (simp [apply_ite State.pending]; done) | split | (rw [State.foldl_pending]) | intro))

@[simp] theorem State.rastRecad_pending (s : State) (t : Trunk) (g : Nat) (next : Option (Nat × Nat)) : (State.rastRecad s t g next).pending = s.pending := by
  unfold State.rastRecad
  first
  | (simp [apply_ite State.pending]; done)
  | ((try dsimp only); repeat' (first | (with_reducible rfl) | (simp [apply_ite State.pending]; done) | split | (rw [State.foldl_pending]) | intro))

@[simp] theorem State.latchTake_pending (s : State) (t : Trunk) (g : Nat) (f : RastFrame) (tag : Nat) : (State.latchTake s t g f tag).pending = s.pending := by
  unfold State.latchTake
  first
  | (simp [apply_ite State.pending]; done)
  | ((try dsimp only); repeat' (first | (with_reducible rfl) | (simp [apply_ite State.pending]; done) | split | (rw [State.foldl_pending]) | intro))

@[simp] theorem State.rastCommitDone_pending (s : State) (t : Trunk) (g : Nat) : (State.rastCommitDone s t g).pending = s.pending := by
  unfold State.rastCommitDone
  first
  | (simp [apply_ite State.pending]; done)
  | ((try dsimp only); repeat' (first | (with_reducible rfl) | (simp [apply_ite State.pending]; done) | split | (rw [State.foldl_pending]) | intro))

@[simp] theorem State.handOver_pending (s : State) (t : Trunk) (u : CUnit) : (State.handOver s t u).pending = s.pending := by
  unfold State.handOver
  first
  | (simp [apply_ite State.pending]; done)
  | ((try dsimp only); repeat' (first | (with_reducible rfl) | (simp [apply_ite State.pending]; done) | split | (rw [State.foldl_pending]) | intro))

@[simp] theorem State.rastBegin_pending (s : State) (t : Trunk) (g : Nat) (n : RastFrame × RastSt) : (State.rastBegin s t g n).pending = s.pending := by
  unfold State.rastBegin
  first
  | (simp [apply_ite State.pending]; done)
  | ((try dsimp only); repeat' (first | (with_reducible rfl) | (simp [apply_ite State.pending]; done) | split | (rw [State.foldl_pending]) | intro))

@[simp] theorem State.rastMark_pending (s : State) (t : Trunk) (g : Nat) (f : RastFrame) (j : Nat) : (State.rastMark s t g f j).pending = s.pending := by
  unfold State.rastMark
  first
  | (simp [apply_ite State.pending]; done)
  | ((try dsimp only); repeat' (first | (with_reducible rfl) | (simp [apply_ite State.pending]; done) | split | (rw [State.foldl_pending]) | intro))

@[simp] theorem State.rastLatch_pending (s : State) (t : Trunk) (g : Nat) (f : RastFrame) : (State.rastLatch s t g f).pending = s.pending := by
  unfold State.rastLatch
  first
  | (simp [apply_ite State.pending]; done)
  | ((try dsimp only); repeat' (first | (with_reducible rfl) | (simp [apply_ite State.pending]; done) | split | (rw [State.foldl_pending]) | intro))

@[simp] theorem State.rastScan_pending (s : State) (t : Trunk) (g : Nat) (f : RastFrame) (bad : List Nat) : (State.rastScan s t g f bad).pending = s.pending := by
  unfold State.rastScan
  first
  | (simp [apply_ite State.pending]; done)
  | ((try dsimp only); repeat' (first | (with_reducible rfl) | (simp [apply_ite State.pending]; done) | split | (rw [State.foldl_pending]) | intro))

@[simp] theorem State.rastRead_pending (s : State) (t : Trunk) (g : Nat) (bad : List Nat) : (State.rastRead s t g bad).pending = s.pending := by
  unfold State.rastRead
  first
  | (simp [apply_ite State.pending]; done)
  | ((try dsimp only); repeat' (first | (with_reducible rfl) | (simp [apply_ite State.pending]; done) | split | (rw [State.foldl_pending]) | intro))

@[simp] theorem State.enqueueLine_pending (s : State) (k : Nat) (n : Nat) (j : Nat) (data : List Byte) : (State.enqueueLine s k n j data).pending = s.pending := by
  unfold State.enqueueLine
  first
  | (simp [apply_ite State.pending]; done)
  | ((try dsimp only); repeat' (first | (with_reducible rfl) | (simp [apply_ite State.pending]; done) | split | (rw [State.foldl_pending]) | (rw [State.foldl_snd_pending]) | (rw [State.foldl_fst_pending]) | intro))

@[simp] theorem State.freezeCheck_pending (s : State) (t : Trunk) (g : Nat) (pad : Nat) (src : Nat) : (State.freezeCheck s t g pad src).pending = s.pending := by
  unfold State.freezeCheck
  first
  | (simp [apply_ite State.pending]; done)
  | ((try dsimp only); repeat' (first | (with_reducible rfl) | (simp [apply_ite State.pending]; done) | split | (rw [State.foldl_pending]) | intro))

@[simp] theorem State.sendSdi_pending (s : State) (t : Trunk) (g : Nat) (f : RastFrame) (j : Nat) (active : Bool) (black : Bool) (codes : List Nat) : (State.sendSdi s t g f j active black codes).pending = s.pending := by
  unfold State.sendSdi
  first
  | (simp [apply_ite State.pending]; done)
  | ((try dsimp only); repeat' (first | (with_reducible rfl) | (simp [apply_ite State.pending]; done) | split | (rw [State.foldl_pending]) | intro))

@[simp] theorem State.sendIp_pending (s : State) (t : Trunk) (g : Nat) (f : RastFrame) (j : Nat) (black : Bool) (codes : List Nat) : (State.sendIp s t g f j black codes).pending = s.pending := by
  unfold State.sendIp
  first
  | (simp [apply_ite State.pending]; done)
  | ((try dsimp only); repeat' (first | (with_reducible rfl) | (simp [apply_ite State.pending]; done) | split | (rw [State.foldl_pending]) | (rw [State.foldl_snd_pending]) | (rw [State.foldl_fst_pending]) | intro))

@[simp] theorem State.rastPad_pending (s : State) (t : Trunk) (g : Nat) (tap : Option (List (BitVec 16))) : (State.rastPad s t g tap).pending = s.pending := by
  unfold State.rastPad
  first
  | (simp [apply_ite State.pending]; done)
  | ((try dsimp only); repeat' (first | (with_reducible rfl) | (simp [apply_ite State.pending]; done) | split | (rw [State.foldl_pending]) | intro))

@[simp] theorem State.rastEpoch_pending (s : State) (t : Trunk) (g : Nat) (k : Nat) : (State.rastEpoch s t g k).pending = s.pending := by
  unfold State.rastEpoch
  first
  | (simp [apply_ite State.pending]; done)
  | ((try dsimp only); repeat' (first | (with_reducible rfl) | (simp [apply_ite State.pending]; done) | split | (rw [State.foldl_pending]) | intro))

@[simp] theorem State.letOut_pending (s : State) (t : Trunk) (u : CUnit) : (State.letOut s t u).pending = s.pending := by
  unfold State.letOut
  first
  | (simp [apply_ite State.pending]; done)
  | ((try dsimp only); repeat' (first | (with_reducible rfl) | (simp [apply_ite State.pending]; done) | split | (rw [State.foldl_pending]) | intro))

theorem State.withdraw_pending (s : State) (t : Trunk) (u : CUnit) (v : State) (hs : (State.withdraw s t u) = some v) : v.pending = s.pending := by
  unfold State.withdraw at hs
  dsimp only at hs
  repeat' (split at hs)
  all_goals first | contradiction | (cases hs; simp)

@[simp] theorem State.launchRec_pending (s : State) (rec : Nat) : (State.launchRec s rec).pending = s.pending := by
  unfold State.launchRec
  first
  | (simp [apply_ite State.pending]; done)
  | ((try dsimp only); repeat' (first | (with_reducible rfl) | (simp [apply_ite State.pending]; done) | split | (rw [State.foldl_pending]) | intro))

@[simp] theorem State.expireRec_pending (s : State) (rec : Nat) : (State.expireRec s rec).pending = s.pending := by
  unfold State.expireRec
  first
  | (simp [apply_ite State.pending]; done)
  | ((try dsimp only); repeat' (first | (with_reducible rfl) | (simp [apply_ite State.pending]; done) | split | (rw [State.foldl_pending]) | intro))

@[simp] theorem State.setPend_pending (s : State) (t : Trunk) (i : Nat) (b : Bool) : (State.setPend s t i b).pending = s.pending := by
  unfold State.setPend
  first
  | (simp [apply_ite State.pending]; done)
  | ((try dsimp only); repeat' (first | (with_reducible rfl) | (simp [apply_ite State.pending]; done) | split | (rw [State.foldl_pending]) | intro))

@[simp] theorem State.putIcu_pending (s : State) (t : Trunk) (x : IcuSt) : (State.putIcu s t x).pending = s.pending := by
  unfold State.putIcu
  first
  | (simp [apply_ite State.pending]; done)
  | ((try dsimp only); repeat' (first | (with_reducible rfl) | (simp [apply_ite State.pending]; done) | split | (rw [State.foldl_pending]) | (rw [State.foldl_snd_pending]) | (rw [State.foldl_fst_pending]) | intro))

@[simp] theorem State.claimGive_pending (s : State) (t : Trunk) (c : Nat) (w : Nat) : (State.claimGive s t c w).pending = s.pending := by
  unfold State.claimGive
  first
  | (simp [apply_ite State.pending]; done)
  | ((try dsimp only); repeat' (first | (with_reducible rfl) | (simp [apply_ite State.pending]; done) | split | (rw [State.foldl_pending]) | intro))

@[simp] theorem State.claimTake_pending (s : State) (t : Trunk) (c : Nat) (i : Nat) : (State.claimTake s t c i).pending = s.pending := by
  unfold State.claimTake
  first
  | (simp [apply_ite State.pending]; done)
  | ((try dsimp only); repeat' (first | (with_reducible rfl) | (simp [apply_ite State.pending]; done) | split | (rw [State.foldl_pending]) | intro))

@[simp] theorem State.claim_pending (s : State) (t : Trunk) (c : Nat) : (State.claim s t c).pending = s.pending := by
  unfold State.claim
  first
  | (simp [apply_ite State.pending]; done)
  | ((try dsimp only); repeat' (first | (with_reducible rfl) | (simp [apply_ite State.pending]; done) | split | (rw [State.foldl_pending]) | intro))

@[simp] theorem State.atOnce_pending (s : State) (t : Trunk) (i : Nat) : (State.atOnce s t i).pending = s.pending := by
  unfold State.atOnce
  first
  | (simp [apply_ite State.pending]; done)
  | ((try dsimp only); repeat' (first | (with_reducible rfl) | (simp [apply_ite State.pending]; done) | split | (rw [State.foldl_pending]) | intro))

@[simp] theorem State.completeSrc_pending (s : State) (t : Trunk) (c : Nat) (i : Nat) : (State.completeSrc s t c i).pending = s.pending := by
  unfold State.completeSrc
  first
  | (simp [apply_ite State.pending]; done)
  | ((try dsimp only); repeat' (first | (with_reducible rfl) | (simp [apply_ite State.pending]; done) | split | (rw [State.foldl_pending]) | intro))

@[simp] theorem State.srcEdge_pending (s : State) (t : Trunk) (i : Nat) (level : Bool) : (State.srcEdge s t i level).pending = s.pending := by
  unfold State.srcEdge
  first
  | (simp [apply_ite State.pending]; done)
  | ((try dsimp only); repeat' (first | (with_reducible rfl) | (simp [apply_ite State.pending]; done) | split | (rw [State.foldl_pending]) | intro))

@[simp] theorem State.maskApply_pending (s : State) (t : Trunk) (set : Bool) (w : Nat) (v : Word) : (State.maskApply s t set w v).pending = s.pending := by
  unfold State.maskApply
  first
  | (simp [apply_ite State.pending]; done)
  | ((try dsimp only); repeat' (first | (with_reducible rfl) | (simp [apply_ite State.pending]; done) | split | (rw [State.foldl_pending]) | intro))

@[simp] theorem State.maskWrite_pending (s : State) (t : Trunk) (set : Bool) (writer : Option (Fin 8)) (w : Nat) (v : Word) : (State.maskWrite s t set writer w v).pending = s.pending := by
  unfold State.maskWrite
  first
  | (simp [apply_ite State.pending]; done)
  | ((try dsimp only); repeat' (first | (with_reducible rfl) | (simp [apply_ite State.pending]; done) | split | (rw [State.foldl_pending]) | intro))

@[simp] theorem State.pendSetWrite_pending (s : State) (t : Trunk) (writer : Option (Fin 8)) (w : Nat) (v : Word) : (State.pendSetWrite s t writer w v).pending = s.pending := by
  unfold State.pendSetWrite
  first
  | (simp [apply_ite State.pending]; done)
  | ((try dsimp only); repeat' (first | (with_reducible rfl) | (simp [apply_ite State.pending]; done) | split | (rw [State.foldl_pending]) | intro))

@[simp] theorem State.pendClrWrite_pending (s : State) (t : Trunk) (writer : Option (Fin 8)) (w : Nat) (v : Word) : (State.pendClrWrite s t writer w v).pending = s.pending := by
  unfold State.pendClrWrite
  first
  | (simp [apply_ite State.pending]; done)
  | ((try dsimp only); repeat' (first | (with_reducible rfl) | (simp [apply_ite State.pending]; done) | split | (rw [State.foldl_pending]) | intro))

@[simp] theorem State.routeWrite_pending (s : State) (t : Trunk) (writer : Option (Fin 8)) (k : Nat) (v : Word) : (State.routeWrite s t writer k v).pending = s.pending := by
  unfold State.routeWrite
  first
  | (simp [apply_ite State.pending]; done)
  | ((try dsimp only); repeat' (first | (with_reducible rfl) | (simp [apply_ite State.pending]; done) | split | (rw [State.foldl_pending]) | intro))

@[simp] theorem State.modExpire_pending (s : State) (t : Trunk) (c : Nat) (g : Nat) : (State.modExpire s t c g).pending = s.pending := by
  unfold State.modExpire
  first
  | (simp [apply_ite State.pending]; done)
  | ((try dsimp only); repeat' (first | (with_reducible rfl) | (simp [apply_ite State.pending]; done) | split | (rw [State.foldl_pending]) | intro))

@[simp] theorem State.icuCapture_pending (s : State) (t : Trunk) : (State.icuCapture s t).pending = s.pending := by
  unfold State.icuCapture
  first
  | (simp [apply_ite State.pending]; done)
  | ((try dsimp only); repeat' (first | (with_reducible rfl) | (simp [apply_ite State.pending]; done) | split | (rw [State.foldl_pending]) | (rw [State.foldl_snd_pending]) | (rw [State.foldl_fst_pending]) | intro))

@[simp] theorem State.putSched_pending (s : State) (t : Trunk) (x : SchedSt) : (State.putSched s t x).pending = s.pending := by
  unfold State.putSched
  first
  | (simp [apply_ite State.pending]; done)
  | ((try dsimp only); repeat' (first | (with_reducible rfl) | (simp [apply_ite State.pending]; done) | split | (rw [State.foldl_pending]) | intro))

@[simp] theorem State.post_pending (s : State) (t : Trunk) (slot : Nat) (flag : Nat) (again : Bool) : (State.post s t slot flag again).pending = s.pending := by
  unfold State.post
  first
  | (simp [apply_ite State.pending]; done)
  | ((try dsimp only); repeat' (first | (with_reducible rfl) | (simp [apply_ite State.pending]; done) | split | (rw [State.foldl_pending]) | intro))

@[simp] theorem State.unhold_pending (s : State) (t : Trunk) : (State.unhold s t).pending = s.pending := by
  unfold State.unhold
  first
  | (simp [apply_ite State.pending]; done)
  | ((try dsimp only); repeat' (first | (with_reducible rfl) | (simp [apply_ite State.pending]; done) | split | (rw [State.foldl_pending]) | (rw [State.foldl_snd_pending]) | (rw [State.foldl_fst_pending]) | intro))

@[simp] theorem State.dispatch_pending (s : State) (t : Trunk) : (State.dispatch s t).pending = s.pending := by
  unfold State.dispatch
  first
  | (simp [apply_ite State.pending]; done)
  | ((try dsimp only); repeat' (first | (with_reducible rfl) | (simp [apply_ite State.pending]; done) | split | (rw [State.foldl_pending]) | (rw [State.foldl_snd_pending]) | (rw [State.foldl_fst_pending]) | intro))

@[simp] theorem State.complete_pending (s : State) (t : Trunk) (slot : Nat) (free : Bool) : (State.complete s t slot free).pending = s.pending := by
  unfold State.complete
  first
  | (simp [apply_ite State.pending]; done)
  | ((try dsimp only); repeat' (first | (with_reducible rfl) | (simp [apply_ite State.pending]; done) | split | (rw [State.foldl_pending]) | intro))

@[simp] theorem State.age_pending (s : State) (t : Trunk) (slot : Nat) : (State.age s t slot).pending = s.pending := by
  unfold State.age
  first
  | (simp [apply_ite State.pending]; done)
  | ((try dsimp only); repeat' (first | (with_reducible rfl) | (simp [apply_ite State.pending]; done) | split | (rw [State.foldl_pending]) | intro))

@[simp] theorem State.schedEpoch_pending (s : State) (t : Trunk) : (State.schedEpoch s t).pending = s.pending := by
  unfold State.schedEpoch
  first
  | (simp [apply_ite State.pending]; done)
  | ((try dsimp only); repeat' (first | (with_reducible rfl) | (simp [apply_ite State.pending]; done) | split | (rw [State.foldl_pending]) | (rw [State.foldl_snd_pending]) | (rw [State.foldl_fst_pending]) | intro))

@[simp] theorem State.putGuest_pending (s : State) (t : Trunk) (c : Nat) (g : GuestSt) : (State.putGuest s t c g).pending = s.pending := by
  unfold State.putGuest
  first
  | (simp [apply_ite State.pending]; done)
  | ((try dsimp only); repeat' (first | (with_reducible rfl) | (simp [apply_ite State.pending]; done) | split | (rw [State.foldl_pending]) | intro))

@[simp] theorem State.setGuestState_pending (s : State) (t : Trunk) (c : Nat) (v : Nat) : (State.setGuestState s t c v).pending = s.pending := by
  unfold State.setGuestState
  first
  | (simp [apply_ite State.pending]; done)
  | ((try dsimp only); repeat' (first | (with_reducible rfl) | (simp [apply_ite State.pending]; done) | split | (rw [State.foldl_pending]) | intro))

@[simp] theorem State.guestWfi_pending (s : State) (t : Trunk) (c : Nat) : (State.guestWfi s t c).pending = s.pending := by
  unfold State.guestWfi
  first
  | (simp [apply_ite State.pending]; done)
  | ((try dsimp only); repeat' (first | (with_reducible rfl) | (simp [apply_ite State.pending]; done) | split | (rw [State.foldl_pending]) | intro))

@[simp] theorem State.guestFault_pending (s : State) (t : Trunk) (c : Nat) (addr : Nat) (write : Bool) : (State.guestFault s t c addr write).pending = s.pending := by
  unfold State.guestFault
  first
  | (simp [apply_ite State.pending]; done)
  | ((try dsimp only); repeat' (first | (with_reducible rfl) | (simp [apply_ite State.pending]; done) | split | (rw [State.foldl_pending]) | intro))

@[simp] theorem State.guestPost_pending (s : State) (t : Trunk) (c : Nat) (off : Nat) (v : Word) : (State.guestPost s t c off v).pending = s.pending := by
  unfold State.guestPost
  first
  | (simp [apply_ite State.pending]; done)
  | ((try dsimp only); repeat' (first | (with_reducible rfl) | (simp [apply_ite State.pending]; done) | split | (rw [State.foldl_pending]) | intro))

@[simp] theorem State.gcmpReach_pending (s : State) (t : Trunk) (core : Nat) (gcmp : BitVec 64) : (State.gcmpReach s t core gcmp).pending = s.pending := by
  unfold State.gcmpReach
  first
  | (simp [apply_ite State.pending]; done)
  | ((try dsimp only); repeat' (first | (with_reducible rfl) | (simp [apply_ite State.pending]; done) | split | (rw [State.foldl_pending]) | intro))

@[simp] theorem State.guestAct_pending (s : State) (t : Trunk) (c : Nat) (f : GuestSt → GuestSt) : (State.guestAct s t c f).pending = s.pending := by
  unfold State.guestAct
  first
  | (simp [apply_ite State.pending]; done)
  | ((try dsimp only); repeat' (first | (with_reducible rfl) | (simp [apply_ite State.pending]; done) | split | (rw [State.foldl_pending]) | intro))

@[simp] theorem State.guestBell_pending (s : State) (t : Trunk) (c : Nat) : (State.guestBell s t c).pending = s.pending := by
  unfold State.guestBell
  first
  | (simp [apply_ite State.pending]; done)
  | ((try dsimp only); repeat' (first | (with_reducible rfl) | (simp [apply_ite State.pending]; done) | split | (rw [State.foldl_pending]) | intro))

@[simp] theorem State.guestSend_pending (s : State) (t : Trunk) (c : Nat) (addr : Nat) (len : Nat) (port : Nat) : (State.guestSend s t c addr len port).pending = s.pending := by
  unfold State.guestSend
  first
  | (simp [apply_ite State.pending]; done)
  | ((try dsimp only); repeat' (first | (with_reducible rfl) | (simp [apply_ite State.pending]; done) | split | (rw [State.foldl_pending]) | intro))

@[simp] theorem State.guestLoad_pending (s : State) (t : Trunk) (c : Nat) : (State.guestLoad s t c).pending = s.pending := by
  unfold State.guestLoad
  first
  | (simp [apply_ite State.pending]; done)
  | ((try dsimp only); repeat' (first | (with_reducible rfl) | (simp [apply_ite State.pending]; done) | split | (rw [State.foldl_pending]) | intro))

@[simp] theorem State.unitSeq_pending (s : State) (t : Trunk) (code : Nat) : (State.unitSeq s t code).2.pending = s.pending := by
  unfold State.unitSeq
  first
  | (simp [apply_ite State.pending]; done)
  | ((try dsimp only); repeat' (first | (with_reducible rfl) | (simp [apply_ite State.pending]; done) | split | (rw [State.foldl_pending]) | (rw [State.foldl_snd_pending]) | (rw [State.foldl_fst_pending]) | intro))

@[simp] theorem State.guestFrame_pending (s : State) (t : Trunk) (c : Nat) : (State.guestFrame s t c).pending = s.pending := by
  unfold State.guestFrame
  first
  | (simp [apply_ite State.pending]; done)
  | ((try dsimp only); repeat' (first | (with_reducible rfl) | (simp [apply_ite State.pending]; done) | split | (rw [State.foldl_pending]) | intro))

@[simp] theorem State.setTrunkState_pending (s : State) (t : Trunk) (v : Nat) : (State.setTrunkState s t v).pending = s.pending := by
  unfold State.setTrunkState
  first
  | (simp [apply_ite State.pending]; done)
  | ((try dsimp only); repeat' (first | (with_reducible rfl) | (simp [apply_ite State.pending]; done) | split | (rw [State.foldl_pending]) | intro))

@[simp] theorem State.refresh_pending (s : State) : (State.refresh s).pending = s.pending := by
  unfold State.refresh
  first
  | (simp [apply_ite State.pending]; done)
  | ((try dsimp only); repeat' (first | (with_reducible rfl) | (simp [apply_ite State.pending]; done) | split | (rw [State.foldl_pending]) | intro))

@[simp] theorem State.mirrorInto_pending (s : State) (t : Trunk) : (State.mirrorInto s t).pending = s.pending := by
  unfold State.mirrorInto
  first
  | (simp [apply_ite State.pending]; done)
  | ((try dsimp only); repeat' (first | (with_reducible rfl) | (simp [apply_ite State.pending]; done) | split | (rw [State.foldl_pending]) | intro))

@[simp] theorem State.noWork_pending (s : State) (t : Trunk) : (State.noWork s t).pending = s.pending := by
  unfold State.noWork
  first
  | (simp [apply_ite State.pending]; done)
  | ((try dsimp only); repeat' (first | (with_reducible rfl) | (simp [apply_ite State.pending]; done) | split | (rw [State.foldl_pending]) | intro))

@[simp] theorem State.heldSince_pending (s : State) (at_ : Nat) : (State.heldSince s at_).pending = s.pending := by
  unfold State.heldSince
  first
  | (simp [apply_ite State.pending]; done)
  | ((try dsimp only); repeat' (first | (with_reducible rfl) | (simp [apply_ite State.pending]; done) | split | (rw [State.foldl_pending]) | intro))

@[simp] theorem State.compareAbandon_pending (s : State) (t : Trunk) : (State.compareAbandon s t).pending = s.pending := by
  unfold State.compareAbandon
  first
  | (simp [apply_ite State.pending]; done)
  | ((try dsimp only); repeat' (first | (with_reducible rfl) | (simp [apply_ite State.pending]; done) | split | (rw [State.foldl_pending]) | (rw [State.foldl_snd_pending]) | (rw [State.foldl_fst_pending]) | intro))

@[simp] theorem State.passRole_pending (s : State) (t : Trunk) : (State.passRole s t).pending = s.pending := by
  unfold State.passRole
  first
  | (simp [apply_ite State.pending]; done)
  | ((try dsimp only); repeat' (first | (with_reducible rfl) | (simp [apply_ite State.pending]; done) | split | (rw [State.foldl_pending]) | intro))

@[simp] theorem State.resyncFails_pending (s : State) (t : Trunk) : (State.resyncFails s t).pending = s.pending := by
  unfold State.resyncFails
  first
  | (simp [apply_ite State.pending]; done)
  | ((try dsimp only); repeat' (first | (with_reducible rfl) | (simp [apply_ite State.pending]; done) | split | (rw [State.foldl_pending]) | intro))

@[simp] theorem State.countFailover_pending (s : State) : (State.countFailover s).pending = s.pending := by
  unfold State.countFailover
  first
  | (simp [apply_ite State.pending]; done)
  | ((try dsimp only); repeat' (first | (with_reducible rfl) | (simp [apply_ite State.pending]; done) | split | (rw [State.foldl_pending]) | intro))

@[simp] theorem State.keptSettle_pending (s : State) : (State.keptSettle s).pending = s.pending := by
  unfold State.keptSettle
  first
  | (simp [apply_ite State.pending]; done)
  | ((try dsimp only); repeat' (first | (with_reducible rfl) | (simp [apply_ite State.pending]; done) | split | (rw [State.foldl_pending]) | intro))

@[simp] theorem State.clearWork_pending (s : State) (t : Trunk) : (State.clearWork s t).pending = s.pending := by
  unfold State.clearWork
  first
  | (simp [apply_ite State.pending]; done)
  | ((try dsimp only); repeat' (first | (with_reducible rfl) | (simp [apply_ite State.pending]; done) | split | (rw [State.foldl_pending]) | intro))

@[simp] theorem State.leave_pending (s : State) (t : Trunk) (cause : Nat) : (State.leave s t cause).pending = s.pending := by
  unfold State.leave
  first
  | (simp [apply_ite State.pending]; done)
  | ((try dsimp only); repeat' (first | (with_reducible rfl) | (simp [apply_ite State.pending]; done) | split | (rw [State.foldl_pending]) | intro))

@[simp] theorem State.yieldOn_pending (s : State) (t : Trunk) (cause : Nat) : (State.yieldOn s t cause).pending = s.pending := by
  unfold State.yieldOn
  first
  | (simp [apply_ite State.pending]; done)
  | ((try dsimp only); repeat' (first | (with_reducible rfl) | (simp [apply_ite State.pending]; done) | split | (rw [State.foldl_pending]) | intro))

@[simp] theorem State.yieldDue_pending (s : State) : (State.yieldDue s).pending = s.pending := by
  unfold State.yieldDue
  first
  | (simp [apply_ite State.pending]; done)
  | ((try dsimp only); repeat' (first | (with_reducible rfl) | (simp [apply_ite State.pending]; done) | split | (rw [State.foldl_pending]) | intro))

@[simp] theorem State.startResync_pending (s : State) (t : Trunk) : (State.startResync s t).pending = s.pending := by
  unfold State.startResync
  first
  | (simp [apply_ite State.pending]; done)
  | ((try dsimp only); repeat' (first | (with_reducible rfl) | (simp [apply_ite State.pending]; done) | split | (rw [State.foldl_pending]) | intro))

@[simp] theorem State.diverge_pending (s : State) (t : Trunk) (unit : List Byte) : (State.diverge s t unit).pending = s.pending := by
  unfold State.diverge
  first
  | (simp [apply_ite State.pending]; done)
  | ((try dsimp only); repeat' (first | (with_reducible rfl) | (simp [apply_ite State.pending]; done) | split | (rw [State.foldl_pending]) | intro))

@[simp] theorem State.mismatch_pending (s : State) (h : HeldCopy) (second : Option CUnit) : (State.mismatch s h second).pending = s.pending := by
  unfold State.mismatch
  cases second
  all_goals dsimp only
  all_goals repeat' (first | (simp [apply_ite State.pending]; done) | (rename_i hh; simp [apply_ite State.pending, State.withdraw_pending _ _ _ _ hh]; done) | split)

@[simp] theorem State.compareIn_pending (s : State) (t : Trunk) (u : CUnit) : (State.compareIn s t u).pending = s.pending := by
  unfold State.compareIn
  first
  | (simp [apply_ite State.pending]; done)
  | ((try dsimp only); repeat' (first | (with_reducible rfl) | (simp [apply_ite State.pending]; done) | split | (rw [State.foldl_pending]) | intro))

@[simp] theorem State.unitArrives_pending (s : State) (t : Trunk) : (State.unitArrives s t).pending = s.pending := by
  unfold State.unitArrives
  first
  | (simp [apply_ite State.pending]; done)
  | ((try dsimp only); repeat' (first | (with_reducible rfl) | (simp [apply_ite State.pending]; done) | split | (rw [State.foldl_pending]) | intro))

@[simp] theorem State.windowExpires_pending (s : State) : (State.windowExpires s).pending = s.pending := by
  unfold State.windowExpires
  first
  | (simp [apply_ite State.pending]; done)
  | ((try dsimp only); repeat' (first | (with_reducible rfl) | (simp [apply_ite State.pending]; done) | split | (rw [State.foldl_pending]) | (rw [State.foldl_snd_pending]) | (rw [State.foldl_fst_pending]) | intro))

@[simp] theorem State.settleUnit_pending (s : State) (u : ArbUnit) : (State.settleUnit s u).pending = s.pending := by
  unfold State.settleUnit
  first
  | (simp [apply_ite State.pending]; done)
  | ((try dsimp only); repeat' (first | (with_reducible rfl) | (simp [apply_ite State.pending]; done) | split | (rw [State.foldl_pending]) | intro))

@[simp] theorem State.etcRelease_pending (s : State) : (State.etcRelease s).pending = s.pending := by
  unfold State.etcRelease
  first
  | (simp [apply_ite State.pending]; done)
  | ((try dsimp only); repeat' (first | (with_reducible rfl) | (simp [apply_ite State.pending]; done) | split | (rw [State.foldl_pending]) | (rw [State.foldl_snd_pending]) | (rw [State.foldl_fst_pending]) | intro))

@[simp] theorem State.roundEnds_pending (s : State) : (State.roundEnds s).pending = s.pending := by
  unfold State.roundEnds
  first
  | (simp [apply_ite State.pending]; done)
  | ((try dsimp only); repeat' (first | (with_reducible rfl) | (simp [apply_ite State.pending]; done) | split | (rw [State.foldl_pending]) | intro))

@[simp] theorem State.settle_pending (s : State) : (State.settle s).pending = s.pending := by
  unfold State.settle
  first
  | (simp [apply_ite State.pending]; done)
  | ((try dsimp only); repeat' (first | (with_reducible rfl) | (simp [apply_ite State.pending]; done) | split | (rw [State.foldl_pending]) | intro))

@[simp] theorem State.vote_pending (s : State) (t : Trunk) (code : Nat) (seq : Nat) (crc : BitVec 64) : (State.vote s t code seq crc).pending = s.pending := by
  unfold State.vote
  first
  | (simp [apply_ite State.pending]; done)
  | ((try dsimp only); repeat' (first | (with_reducible rfl) | (simp [apply_ite State.pending]; done) | split | (rw [State.foldl_pending]) | intro))

@[simp] theorem State.votesLate_pending (s : State) : (State.votesLate s).pending = s.pending := by
  unfold State.votesLate
  first
  | (simp [apply_ite State.pending]; done)
  | ((try dsimp only); repeat' (first | (with_reducible rfl) | (simp [apply_ite State.pending]; done) | split | (rw [State.foldl_pending]) | intro))

@[simp] theorem State.replay_pending (s : State) (t : Trunk) (up : Bool) (lane : Nat) : (State.replay s t up lane).pending = s.pending := by
  unfold State.replay
  first
  | (simp [apply_ite State.pending]; done)
  | ((try dsimp only); repeat' (first | (with_reducible rfl) | (simp [apply_ite State.pending]; done) | split | (rw [State.foldl_pending]) | intro))

@[simp] theorem State.readyCheck_pending (s : State) (t : Trunk) : (State.readyCheck s t).pending = s.pending := by
  unfold State.readyCheck
  first
  | (simp [apply_ite State.pending]; done)
  | ((try dsimp only); repeat' (first | (with_reducible rfl) | (simp [apply_ite State.pending]; done) | split | (rw [State.foldl_pending]) | intro))

@[simp] theorem State.testDone_pending (s : State) (t : Trunk) (pass : Bool) : (State.testDone s t pass).pending = s.pending := by
  unfold State.testDone
  first
  | (simp [apply_ite State.pending]; done)
  | ((try dsimp only); repeat' (first | (with_reducible rfl) | (simp [apply_ite State.pending]; done) | split | (rw [State.foldl_pending]) | intro))

@[simp] theorem State.testRetry_pending (s : State) (t : Trunk) : (State.testRetry s t).pending = s.pending := by
  unfold State.testRetry
  first
  | (simp [apply_ite State.pending]; done)
  | ((try dsimp only); repeat' (first | (with_reducible rfl) | (simp [apply_ite State.pending]; done) | split | (rw [State.foldl_pending]) | intro))

@[simp] theorem State.bulkDone_pending (s : State) : (State.bulkDone s).pending = s.pending := by
  unfold State.bulkDone
  first
  | (simp [apply_ite State.pending]; done)
  | ((try dsimp only); repeat' (first | (with_reducible rfl) | (simp [apply_ite State.pending]; done) | split | (rw [State.foldl_pending]) | intro))

@[simp] theorem State.bulkLate_pending (s : State) : (State.bulkLate s).pending = s.pending := by
  unfold State.bulkLate
  first
  | (simp [apply_ite State.pending]; done)
  | ((try dsimp only); repeat' (first | (with_reducible rfl) | (simp [apply_ite State.pending]; done) | split | (rw [State.foldl_pending]) | intro))

@[simp] theorem State.parkOne_pending (s : State) (t : Trunk) (cause : Nat) : (State.parkOne s t cause).pending = s.pending := by
  unfold State.parkOne
  first
  | (simp [apply_ite State.pending]; done)
  | ((try dsimp only); repeat' (first | (with_reducible rfl) | (simp [apply_ite State.pending]; done) | split | (rw [State.foldl_pending]) | intro))

@[simp] theorem State.freshKeep_pending (s : State) (o : Trunk) (half : Trunk) : (State.freshKeep s o half).pending = s.pending := by
  unfold State.freshKeep
  first
  | (simp [apply_ite State.pending]; done)
  | ((try dsimp only); repeat' (first | (with_reducible rfl) | (simp [apply_ite State.pending]; done) | split | (rw [State.foldl_pending]) | intro))

@[simp] theorem State.adoptCanvases_pending (s : State) (o : Trunk) (half : Trunk) : (State.adoptCanvases s o half).pending = s.pending := by
  unfold State.adoptCanvases
  first
  | (simp [apply_ite State.pending]; done)
  | ((try dsimp only); repeat' (first | (with_reducible rfl) | (simp [apply_ite State.pending]; done) | split | (rw [State.foldl_pending]) | intro))

@[simp] theorem State.adoptHalves_pending (s : State) : (State.adoptHalves s).pending = s.pending := by
  unfold State.adoptHalves
  first
  | (simp [apply_ite State.pending]; done)
  | ((try dsimp only); repeat' (first | (with_reducible rfl) | (simp [apply_ite State.pending]; done) | split | (rw [State.foldl_pending]) | intro))

@[simp] theorem State.failback_pending (s : State) (t : Trunk) : (State.failback s t).pending = s.pending := by
  unfold State.failback
  first
  | (simp [apply_ite State.pending]; done)
  | ((try dsimp only); repeat' (first | (with_reducible rfl) | (simp [apply_ite State.pending]; done) | split | (rw [State.foldl_pending]) | intro))

@[simp] theorem State.holdoffEpoch_pending (s : State) : (State.holdoffEpoch s).pending = s.pending := by
  unfold State.holdoffEpoch
  first
  | (simp [apply_ite State.pending]; done)
  | ((try dsimp only); repeat' (first | (with_reducible rfl) | (simp [apply_ite State.pending]; done) | split | (rw [State.foldl_pending]) | intro))

@[simp] theorem State.pairCounts_pending (s : State) (t : Trunk) : (State.pairCounts s t).pending = s.pending := by
  unfold State.pairCounts
  first
  | (simp [apply_ite State.pending]; done)
  | ((try dsimp only); repeat' (first | (with_reducible rfl) | (simp [apply_ite State.pending]; done) | split | (rw [State.foldl_pending]) | (rw [State.foldl_snd_pending]) | (rw [State.foldl_fst_pending]) | intro))

@[simp] theorem State.cutover_pending (s : State) : (State.cutover s).pending = s.pending := by
  unfold State.cutover
  first
  | (simp [apply_ite State.pending]; done)
  | ((try dsimp only); repeat' (first | (with_reducible rfl) | (simp [apply_ite State.pending]; done) | split | (rw [State.foldl_pending]) | intro))

@[simp] theorem State.comeUp_pending (s : State) : (State.comeUp s).pending = s.pending := by
  unfold State.comeUp
  first
  | (simp [apply_ite State.pending]; done)
  | ((try dsimp only); repeat' (first | (with_reducible rfl) | (simp [apply_ite State.pending]; done) | split | (rw [State.foldl_pending]) | intro))

@[simp] theorem State.swapRoles_pending (s : State) : (State.swapRoles s).pending = s.pending := by
  unfold State.swapRoles
  first
  | (simp [apply_ite State.pending]; done)
  | ((try dsimp only); repeat' (first | (with_reducible rfl) | (simp [apply_ite State.pending]; done) | split | (rw [State.foldl_pending]) | intro))

@[simp] theorem State.twinEpoch_pending (s : State) : (State.twinEpoch s).pending = s.pending := by
  unfold State.twinEpoch
  first
  | (simp [apply_ite State.pending]; done)
  | ((try dsimp only); repeat' (first | (with_reducible rfl) | (simp [apply_ite State.pending]; done) | split | (rw [State.foldl_pending]) | intro))

@[simp] theorem State.rejoin_pending (s : State) (t : Trunk) : (State.rejoin s t).pending = s.pending := by
  unfold State.rejoin
  first
  | (simp [apply_ite State.pending]; done)
  | ((try dsimp only); repeat' (first | (with_reducible rfl) | (simp [apply_ite State.pending]; done) | split | (rw [State.foldl_pending]) | intro))

@[simp] theorem State.swapWrite_pending (s : State) : (State.swapWrite s).pending = s.pending := by
  unfold State.swapWrite
  first
  | (simp [apply_ite State.pending]; done)
  | ((try dsimp only); repeat' (first | (with_reducible rfl) | (simp [apply_ite State.pending]; done) | split | (rw [State.foldl_pending]) | intro))

@[simp] theorem State.parkWrite_pending (s : State) (t : Trunk) : (State.parkWrite s t).pending = s.pending := by
  unfold State.parkWrite
  first
  | (simp [apply_ite State.pending]; done)
  | ((try dsimp only); repeat' (first | (with_reducible rfl) | (simp [apply_ite State.pending]; done) | split | (rw [State.foldl_pending]) | intro))

@[simp] theorem axisTick_pending (s : State) (n : Nat) : (axisTick s n).pending = s.pending := by
  unfold axisTick
  first
  | (simp [apply_ite State.pending]; done)
  | ((try dsimp only); repeat' (first | (with_reducible rfl) | (simp [apply_ite State.pending]; done) | split | (rw [State.foldl_pending]) | intro))

@[simp] theorem stallTick_pending (s : State) : (stallTick s).pending = s.pending := by
  unfold stallTick
  first
  | (simp [apply_ite State.pending]; done)
  | ((try dsimp only); repeat' (first | (with_reducible rfl) | (simp [apply_ite State.pending]; done) | split | (rw [State.foldl_pending]) | (rw [State.foldl_snd_pending]) | (rw [State.foldl_fst_pending]) | intro))

@[simp] theorem State.putChk_pending (s : State) (e : Option Trunk) (n : Nat) (x : ChkSt) : (State.putChk s e n x).pending = s.pending := by
  unfold State.putChk
  first
  | (simp [apply_ite State.pending]; done)
  | ((try dsimp only); repeat' (first | (with_reducible rfl) | (simp [apply_ite State.pending]; done) | split | (rw [State.foldl_pending]) | intro))

@[simp] theorem State.chkFlag_pending (s : State) (e : Option Trunk) (n : Nat) (bit : Nat) (v : Bool) : (State.chkFlag s e n bit v).pending = s.pending := by
  unfold State.chkFlag
  first
  | (simp [apply_ite State.pending]; done)
  | ((try dsimp only); repeat' (first | (with_reducible rfl) | (simp [apply_ite State.pending]; done) | split | (rw [State.foldl_pending]) | intro))

@[simp] theorem State.chkPut64_pending (s : State) (e : Option Trunk) (n : Nat) (off : Nat) (v : Nat) : (State.chkPut64 s e n off v).pending = s.pending := by
  unfold State.chkPut64
  first
  | (simp [apply_ite State.pending]; done)
  | ((try dsimp only); repeat' (first | (with_reducible rfl) | (simp [apply_ite State.pending]; done) | split | (rw [State.foldl_pending]) | intro))

@[simp] theorem State.chkAbsorb_pending (s : State) (e : Option Trunk) (n : Nat) (l : List Byte) (data : Bool) : (State.chkAbsorb s e n l data).pending = s.pending := by
  unfold State.chkAbsorb
  first
  | (simp [apply_ite State.pending]; done)
  | ((try dsimp only); repeat' (first | (with_reducible rfl) | (simp [apply_ite State.pending]; done) | split | (rw [State.foldl_pending]) | intro))

@[simp] theorem State.chkStartOp_pending (s : State) (e : Option Trunk) (n : Nat) : (State.chkStartOp s e n).pending = s.pending := by
  unfold State.chkStartOp
  first
  | (simp [apply_ite State.pending]; done)
  | ((try dsimp only); repeat' (first | (with_reducible rfl) | (simp [apply_ite State.pending]; done) | split | (rw [State.foldl_pending]) | intro))

@[simp] theorem State.chkDataOp_pending (s : State) (e : Option Trunk) (n : Nat) (v : Word) : (State.chkDataOp s e n v).pending = s.pending := by
  unfold State.chkDataOp
  first
  | (simp [apply_ite State.pending]; done)
  | ((try dsimp only); repeat' (first | (with_reducible rfl) | (simp [apply_ite State.pending]; done) | split | (rw [State.foldl_pending]) | intro))

@[simp] theorem State.chkFinishOp_pending (s : State) (e : Option Trunk) (n : Nat) : (State.chkFinishOp s e n).pending = s.pending := by
  unfold State.chkFinishOp
  first
  | (simp [apply_ite State.pending]; done)
  | ((try dsimp only); repeat' (first | (with_reducible rfl) | (simp [apply_ite State.pending]; done) | split | (rw [State.foldl_pending]) | intro))

@[simp] theorem State.chkStateOp_pending (s : State) (e : Option Trunk) (n : Nat) (hi : Bool) (v : Word) : (State.chkStateOp s e n hi v).pending = s.pending := by
  unfold State.chkStateOp
  first
  | (simp [apply_ite State.pending]; done)
  | ((try dsimp only); repeat' (first | (with_reducible rfl) | (simp [apply_ite State.pending]; done) | split | (rw [State.foldl_pending]) | intro))

@[simp] theorem State.eccCapture_pending (s : State) (e : Option Trunk) (x : EccRead) (bit : Option Nat) (scrub : Bool) : (State.eccCapture s e x bit scrub).pending = s.pending := by
  unfold State.eccCapture
  first
  | (simp [apply_ite State.pending]; done)
  | ((try dsimp only); repeat' (first | (with_reducible rfl) | (simp [apply_ite State.pending]; done) | split | (rw [State.foldl_pending]) | (rw [State.foldl_snd_pending]) | (rw [State.foldl_fst_pending]) | intro))

@[simp] theorem State.eccCorrected_pending (s : State) (e : Option Trunk) (x : EccRead) (bit : Nat) (scrub : Bool) : (State.eccCorrected s e x bit scrub).pending = s.pending := by
  unfold State.eccCorrected
  first
  | (simp [apply_ite State.pending]; done)
  | ((try dsimp only); repeat' (first | (with_reducible rfl) | (simp [apply_ite State.pending]; done) | split | (rw [State.foldl_pending]) | intro))

@[simp] theorem State.eccEvent_pending (s : State) (e : Option Trunk) (m : Nat) : (State.eccEvent s e m).pending = s.pending := by
  unfold State.eccEvent
  first
  | (simp [apply_ite State.pending]; done)
  | ((try dsimp only); repeat' (first | (with_reducible rfl) | (simp [apply_ite State.pending]; done) | split | (rw [State.foldl_pending]) | intro))

@[simp] theorem State.eccUncorrEvent_pending (s : State) (e : Option Trunk) (x : EccRead) (scrub : Bool) (outcome : Nat) : (State.eccUncorrEvent s e x scrub outcome).pending = s.pending := by
  unfold State.eccUncorrEvent
  first
  | (simp [apply_ite State.pending]; done)
  | ((try dsimp only); repeat' (first | (with_reducible rfl) | (simp [apply_ite State.pending]; done) | split | (rw [State.foldl_pending]) | intro))

@[simp] theorem State.eccLine_pending (s : State) (t : Trunk) (x : EccRead) : (State.eccLine s t x).pending = s.pending := by
  unfold State.eccLine
  first
  | (simp [apply_ite State.pending]; done)
  | ((try dsimp only); repeat' (first | (with_reducible rfl) | (simp [apply_ite State.pending]; done) | split | (rw [State.foldl_pending]) | intro))

@[simp] theorem State.failItem_pending (s : State) (t : Trunk) (i : Nat) : (State.failItem s t i).pending = s.pending := by
  unfold State.failItem
  first
  | (simp [apply_ite State.pending]; done)
  | ((try dsimp only); repeat' (first | (with_reducible rfl) | (simp [apply_ite State.pending]; done) | split | (rw [State.foldl_pending]) | (rw [State.foldl_snd_pending]) | (rw [State.foldl_fst_pending]) | intro))

@[simp] theorem State.tmrEvent_pending (s : State) (block : BitVec 12) : (State.tmrEvent s block).pending = s.pending := by
  unfold State.tmrEvent
  first
  | (simp [apply_ite State.pending]; done)
  | ((try dsimp only); repeat' (first | (with_reducible rfl) | (simp [apply_ite State.pending]; done) | split | (rw [State.foldl_pending]) | intro))

@[simp] theorem State.dropItem_pending (s : State) (y2 : State.RootItem) : (State.dropItem s y2).pending = s.pending := by
  unfold State.dropItem
  first
  | (simp [apply_ite State.pending]; done)
  | ((try dsimp only); repeat' (first | (with_reducible rfl) | (simp [apply_ite State.pending]; done) | split | (rw [State.foldl_pending]) | intro))

@[simp] theorem State.eccTrunk_pending (s : State) (t : Trunk) (x : EccRead) (scrub : Bool) (work : State → State) (hwork : ∀ x0, (work x0).pending = x0.pending) : (State.eccTrunk s t x scrub work).pending = s.pending := by
  unfold State.eccTrunk
  first
  | (simp [apply_ite State.pending, hwork]; done)
  | ((try dsimp only); repeat' (first | (with_reducible rfl) | (simp [apply_ite State.pending, hwork]; done) | split | (rw [State.foldl_pending]) | intro))

@[simp] theorem State.eccUncorr_pending (s : State) (e : Option Trunk) (x : EccRead) (scrub : Bool) (item : Option Nat) :
    (State.eccUncorr s e x scrub item).pending = s.pending := by
  unfold State.eccUncorr
  cases e with
  | none => dsimp only; split <;> simp
  | some t =>
    dsimp only
    rw [State.eccTrunk_pending]
    · simp
    · intro s
      cases item with
      | some i => simp
      | none => dsimp only; split <;> simp

@[simp] theorem State.scrubRead_pending (s : State) (e : Option Trunk) (word : Option EccRead) : (State.scrubRead s e word).pending = s.pending := by
  unfold State.scrubRead
  first
  | (simp [apply_ite State.pending]; done)
  | ((try dsimp only); repeat' (first | (with_reducible rfl) | (simp [apply_ite State.pending]; done) | split | (rw [State.foldl_pending]) | intro))

@[simp] theorem State.keepCodes_pending (s : State) (t : Trunk) (e : PortJob) : (State.keepCodes s t e).pending = s.pending := by
  unfold State.keepCodes
  first
  | (simp [apply_ite State.pending]; done)
  | ((try dsimp only); repeat' (first | (with_reducible rfl) | (simp [apply_ite State.pending]; done) | split | (rw [State.foldl_pending]) | intro))

@[simp] theorem State.handAll_pending (s : State) (t : Trunk) (e : PortJob) (safety : Bool) (l : List Packed) : (State.handAll s t e safety l).pending = s.pending := by
  unfold State.handAll
  first
  | (simp [apply_ite State.pending]; done)
  | ((try dsimp only); repeat' (first | (with_reducible rfl) | (simp [apply_ite State.pending]; done) | split | (rw [State.foldl_pending]) | (rw [State.foldl_snd_pending]) | (rw [State.foldl_fst_pending]) | intro))

@[simp] theorem State.keepEpoch_pending (s : State) (t : Trunk) (e : PortJob) (safety : Bool) (n : Nat) : (State.keepEpoch s t e safety n).pending = s.pending := by
  unfold State.keepEpoch
  first
  | (simp [apply_ite State.pending]; done)
  | ((try dsimp only); repeat' (first | (with_reducible rfl) | (simp [apply_ite State.pending]; done) | split | (rw [State.foldl_pending]) | intro))

@[simp] theorem State.probeAfter_pending (s : State) (t : Trunk) (rec : Nat) (waits : Bool) (skipped : Bool) : (State.probeAfter s t rec waits skipped).pending = s.pending := by
  unfold State.probeAfter
  first
  | (simp [apply_ite State.pending]; done)
  | ((try dsimp only); repeat' (first | (with_reducible rfl) | (simp [apply_ite State.pending]; done) | split | (rw [State.foldl_pending]) | intro))

@[simp] theorem State.packPort_pending (s : State) (t : Trunk) (e : PortJob) (safety : Bool) : (State.packPort s t e safety).pending = s.pending := by
  unfold State.packPort
  first
  | (simp [apply_ite State.pending]; done)
  | ((try dsimp only); repeat' (first | (with_reducible rfl) | (simp [apply_ite State.pending]; done) | split | (rw [State.foldl_pending]) | intro))

@[simp] theorem State.packDone_pending (y1 : Nat) (y2 : State) (y3 : Trunk) : (State.packDone y1 y2 y3).pending = y2.pending := by
  induction y1 generalizing y2 y3 with
  | zero => rfl
  | succ y1 ih =>
    unfold State.packDone
    try dsimp only
    repeat' (first | (with_reducible rfl) | (simp [ih]; done) | split)

@[simp] theorem State.portEpoch_pending (s : State) (t : Trunk) (rec : Nat) (k : Nat) (pos : Nat) : (State.portEpoch s t rec k pos).pending = s.pending := by
  unfold State.portEpoch
  first
  | (simp [apply_ite State.pending]; done)
  | ((try dsimp only); repeat' (first | (with_reducible rfl) | (simp [apply_ite State.pending]; done) | split | (rw [State.foldl_pending]) | intro))

@[simp] theorem State.quantPixel_pending (s : State) (t : Trunk) (j : Job) (v : Nat) (w : Nat) (der : Int) (d : List Int) : (State.quantPixel s t j v w der d).2.pending = s.pending := by
  unfold State.quantPixel
  first
  | (simp [apply_ite State.pending]; done)
  | ((try dsimp only); repeat' (first | (with_reducible rfl) | (simp [apply_ite State.pending]; done) | split | (rw [State.foldl_pending]) | (rw [State.foldl_snd_pending]) | (rw [State.foldl_fst_pending]) | intro))

@[simp] theorem State.leafView_pending (s : State) (t : Trunk) (e : PortJob) (j : Job) (v : Nat) (der : Int) (f : CanvasFrame) : (State.leafView s t e j v der f).2.pending = s.pending := by
  unfold State.leafView
  first
  | (simp [apply_ite State.pending]; done)
  | ((try dsimp only); repeat' (first | (with_reducible rfl) | (simp [apply_ite State.pending]; done) | split | (rw [State.foldl_pending]) | (rw [State.foldl_snd_pending]) | (rw [State.foldl_fst_pending]) | intro))

@[simp] theorem State.runJob_pending (s : State) (t : Trunk) (e : PortJob) (j : Job) (fs : List (Option CanvasFrame)) : (State.runJob s t e j fs).2.pending = s.pending := by
  unfold State.runJob
  first
  | (simp [apply_ite State.pending]; done)
  | ((try dsimp only); repeat' (first | (with_reducible rfl) | (simp [apply_ite State.pending]; done) | split | (rw [State.foldl_pending]) | (rw [State.foldl_snd_pending]) | (rw [State.foldl_fst_pending]) | intro))

@[simp] theorem State.putCodes_pending (s : State) (t : Trunk) (e : PortJob) (j : Job) (j' : Job) : (State.putCodes s t e j j').pending = s.pending := by
  unfold State.putCodes
  first
  | (simp [apply_ite State.pending]; done)
  | ((try dsimp only); repeat' (first | (with_reducible rfl) | (simp [apply_ite State.pending]; done) | split | (rw [State.foldl_pending]) | intro))

@[simp] theorem State.leafDone_pending (s : State) (t : Trunk) (i : Nat) (rerun : Bool) : (State.leafDone s t i rerun).pending = s.pending := by
  unfold State.leafDone
  first
  | (simp [apply_ite State.pending]; done)
  | ((try dsimp only); repeat' (first | (with_reducible rfl) | (simp [apply_ite State.pending]; done) | split | (rw [State.foldl_pending]) | intro))

@[simp] theorem State.burstDone_pending (s : State) (t : Trunk) (rec : Nat) : (State.burstDone s t rec).pending = s.pending := by
  unfold State.burstDone
  first
  | (simp [apply_ite State.pending]; done)
  | ((try dsimp only); repeat' (first | (with_reducible rfl) | (simp [apply_ite State.pending]; done) | split | (rw [State.foldl_pending]) | intro))

@[simp] theorem State.residueCapture_pending (s : State) (t : Trunk) (c : LaneCheck) : (State.residueCapture s t c).pending = s.pending := by
  unfold State.residueCapture
  first
  | (simp [apply_ite State.pending]; done)
  | ((try dsimp only); repeat' (first | (with_reducible rfl) | (simp [apply_ite State.pending]; done) | split | (rw [State.foldl_pending]) | intro))

@[simp] theorem State.residueReport_pending (s : State) (t : Trunk) (c : LaneCheck) : (State.residueReport s t c).pending = s.pending := by
  unfold State.residueReport
  first
  | (simp [apply_ite State.pending]; done)
  | ((try dsimp only); repeat' (first | (with_reducible rfl) | (simp [apply_ite State.pending]; done) | split | (rw [State.foldl_pending]) | intro))

@[simp] theorem State.residueFails_pending (s : State) (t : Trunk) (i : Nat) (c : LaneCheck) : (State.residueFails s t i c).pending = s.pending := by
  unfold State.residueFails
  first
  | (simp [apply_ite State.pending]; done)
  | ((try dsimp only); repeat' (first | (with_reducible rfl) | (simp [apply_ite State.pending]; done) | split | (rw [State.foldl_pending]) | intro))

@[simp] theorem State.laneChecked_pending (s : State) (t : Trunk) (i : Nat) (c : LaneCheck) : (State.laneChecked s t i c).pending = s.pending := by
  unfold State.laneChecked
  first
  | (simp [apply_ite State.pending]; done)
  | ((try dsimp only); repeat' (first | (with_reducible rfl) | (simp [apply_ite State.pending]; done) | split | (rw [State.foldl_pending]) | intro))

@[simp] theorem State.eccDemand_pending (s : State) (t : Trunk) (i : Nat) (x : EccRead) : (State.eccDemand s t i x).pending = s.pending := by
  unfold State.eccDemand
  first
  | (simp [apply_ite State.pending]; done)
  | ((try dsimp only); repeat' (first | (with_reducible rfl) | (simp [apply_ite State.pending]; done) | split | (rw [State.foldl_pending]) | intro))

@[simp] theorem State.rerunDone_pending (s : State) (t : Trunk) (i : Nat) (c : Option LaneCheck) : (State.rerunDone s t i c).pending = s.pending := by
  unfold State.rerunDone
  first
  | (simp [apply_ite State.pending]; done)
  | ((try dsimp only); repeat' (first | (with_reducible rfl) | (simp [apply_ite State.pending]; done) | split | (rw [State.foldl_pending]) | intro))

@[simp] theorem State.doWork_pending (s : State) (t : Trunk) (y3 : Work) : (State.doWork s t y3).pending = s.pending := by
  unfold State.doWork
  first
  | (simp [apply_ite State.pending]; done)
  | ((try dsimp only); repeat' (first | (with_reducible rfl) | (simp [apply_ite State.pending]; done) | split | (rw [State.foldl_pending]) | intro))

@[simp] theorem State.taskDone_pending (s : State) (t : Trunk) (slot : Nat) (free : Bool) (w : Work) : (State.taskDone s t slot free w).pending = s.pending := by
  unfold State.taskDone
  first
  | (simp [apply_ite State.pending]; done)
  | ((try dsimp only); repeat' (first | (with_reducible rfl) | (simp [apply_ite State.pending]; done) | split | (rw [State.foldl_pending]) | intro))

@[simp] theorem State.diagCodeTo_pending (s : State) (i : Nat) (c : Nat) (code : Nat) : (State.diagCodeTo s i c code).pending = s.pending := by
  unfold State.diagCodeTo
  first
  | (simp [apply_ite State.pending]; done)
  | ((try dsimp only); repeat' (first | (with_reducible rfl) | (simp [apply_ite State.pending]; done) | split | (rw [State.foldl_pending]) | intro))

@[simp] theorem State.lcReturn_pending (s : State) (f : List Byte) : (State.lcReturn s f).pending = s.pending := by
  unfold State.lcReturn
  first
  | (simp [apply_ite State.pending]; done)
  | ((try dsimp only); repeat' (first | (with_reducible rfl) | (simp [apply_ite State.pending]; done) | split | (rw [State.foldl_pending]) | (rw [State.foldl_snd_pending]) | (rw [State.foldl_fst_pending]) | intro))

@[simp] theorem State.hwReport_pending (s : State) (t : Trunk) (b : Nat) (p : Nat × Nat × Nat) (inForce : Bool) : (State.hwReport s t b p inForce).pending = s.pending := by
  unfold State.hwReport
  first
  | (simp [apply_ite State.pending]; done)
  | ((try dsimp only); repeat' (first | (with_reducible rfl) | (simp [apply_ite State.pending]; done) | split | (rw [State.foldl_pending]) | intro))

@[simp] theorem State.hwBlockFails_pending (s : State) (t : Trunk) (b : Nat) (p : Nat × Nat × Nat) : (State.hwBlockFails s t b p).pending = s.pending := by
  unfold State.hwBlockFails
  first
  | (simp [apply_ite State.pending]; done)
  | ((try dsimp only); repeat' (first | (with_reducible rfl) | (simp [apply_ite State.pending]; done) | split | (rw [State.foldl_pending]) | intro))

@[simp] theorem State.hwScrub_pending (s : State) (t : Trunk) (r : HwRead) : (State.hwScrub s t r).pending = s.pending := by
  unfold State.hwScrub
  first
  | (simp [apply_ite State.pending]; done)
  | ((try dsimp only); repeat' (first | (with_reducible rfl) | (simp [apply_ite State.pending]; done) | split | (rw [State.foldl_pending]) | intro))

@[simp] theorem State.hwReads_pending (s : State) (t : Trunk) (c : Nat) (which : Nat) (l : List HwRead) : (State.hwReads s t c which l).1.pending = s.pending := by
  unfold State.hwReads
  first
  | (simp [apply_ite State.pending]; done)
  | ((try dsimp only); repeat' (first | (with_reducible rfl) | (simp [apply_ite State.pending]; done) | split | (rw [State.foldl_pending]) | (rw [State.foldl_snd_pending]) | (rw [State.foldl_fst_pending]) | intro))

@[simp] theorem State.fetchWord_pending (s : State) (t : Trunk) (n : Nat) (x : EccRead) : (State.fetchWord s t n x).1.pending = s.pending := by
  unfold State.fetchWord
  first
  | (simp [apply_ite State.pending]; done)
  | ((try dsimp only); repeat' (first | (with_reducible rfl) | (simp [apply_ite State.pending]; done) | split | (rw [State.foldl_pending]) | (rw [State.foldl_snd_pending]) | (rw [State.foldl_fst_pending]) | intro))

@[simp] theorem State.canvasComplete_pending (s : State) (t : Trunk) (c : Nat) (words : List (Fin 32 × EccRead)) (blocks : List HwRead) :
    (State.canvasComplete s t c words blocks).pending = s.pending := by
  have h (l : List (Fin 32 × EccRead)) (a : State × List Nat) :
      (l.foldl (fun (a : State × List Nat) w => ((a.1.fetchWord t w.1 w.2).1, a.2 ++ (a.1.fetchWord t w.1 w.2).2)) a).1.pending = a.1.pending :=
    State.foldl_fst_pending _ (fun a w => by simp) l a
  unfold State.canvasComplete
  split
  · rfl
  · simp [h]

@[simp] theorem State.rastReadLine_pending (s : State) (t : Trunk) (g : Nat) (blocks : List HwRead) : (State.rastReadLine s t g blocks).pending = s.pending := by
  unfold State.rastReadLine
  first
  | (simp [apply_ite State.pending]; done)
  | ((try dsimp only); repeat' (first | (with_reducible rfl) | (simp [apply_ite State.pending]; done) | split | (rw [State.foldl_pending]) | intro))

@[simp] theorem State.hwAccept_pending (s : State) (o : List Byte) : (State.hwAccept s o).pending = s.pending := by
  unfold State.hwAccept
  first
  | (simp [apply_ite State.pending]; done)
  | ((try dsimp only); repeat' (first | (with_reducible rfl) | (simp [apply_ite State.pending]; done) | split | (rw [State.foldl_pending]) | intro))

@[simp] theorem State.hwTake_pending (s : State) (h : StemHdr) (o : List Byte) : (State.hwTake s h o).pending = s.pending := by
  unfold State.hwTake
  first
  | (simp [apply_ite State.pending]; done)
  | ((try dsimp only); repeat' (first | (with_reducible rfl) | (simp [apply_ite State.pending]; done) | split | (rw [State.foldl_pending]) | intro))

@[simp] theorem State.underSafetySeed_pending (s : State) : (State.underSafetySeed s).pending = s.pending := by
  unfold State.underSafetySeed
  first
  | (simp [apply_ite State.pending]; done)
  | ((try dsimp only); repeat' (first | (with_reducible rfl) | (simp [apply_ite State.pending]; done) | split | (rw [State.foldl_pending]) | intro))

@[simp] theorem State.purge_pending (s : State) : (State.purge s).pending = s.pending := by
  unfold State.purge
  first
  | (simp [apply_ite State.pending]; done)
  | ((try dsimp only); repeat' (first | (with_reducible rfl) | (simp [apply_ite State.pending]; done) | split | (rw [State.foldl_pending]) | (rw [State.foldl_snd_pending]) | (rw [State.foldl_fst_pending]) | intro))

@[simp] theorem State.alarmForce_pending (s : State) : (State.alarmForce s).pending = s.pending := by
  unfold State.alarmForce
  first
  | (simp [apply_ite State.pending]; done)
  | ((try dsimp only); repeat' (first | (with_reducible rfl) | (simp [apply_ite State.pending]; done) | split | (rw [State.foldl_pending]) | intro))

@[simp] theorem State.alarmRelease_pending (s : State) : (State.alarmRelease s).pending = s.pending := by
  unfold State.alarmRelease
  first
  | (simp [apply_ite State.pending]; done)
  | ((try dsimp only); repeat' (first | (with_reducible rfl) | (simp [apply_ite State.pending]; done) | split | (rw [State.foldl_pending]) | intro))

@[simp] theorem State.releaseWrite_pending (s : State) : (State.releaseWrite s).pending = s.pending := by
  unfold State.releaseWrite
  first
  | (simp [apply_ite State.pending]; done)
  | ((try dsimp only); repeat' (first | (with_reducible rfl) | (simp [apply_ite State.pending]; done) | split | (rw [State.foldl_pending]) | intro))

@[simp] theorem State.loopEvent_pending (s : State) (what : Nat) : (State.loopEvent s what).pending = s.pending := by
  unfold State.loopEvent
  first
  | (simp [apply_ite State.pending]; done)
  | ((try dsimp only); repeat' (first | (with_reducible rfl) | (simp [apply_ite State.pending]; done) | split | (rw [State.foldl_pending]) | intro))

@[simp] theorem State.evaluate_pending (s : State) (a : Nat) (b : Nat) : (State.evaluate s a b).pending = s.pending := by
  unfold State.evaluate
  first
  | (simp [apply_ite State.pending]; done)
  | ((try dsimp only); repeat' (first | (with_reducible rfl) | (simp [apply_ite State.pending]; done) | split | (rw [State.foldl_pending]) | intro))

@[simp] theorem State.acceptLoop_pending (s : State) (f : Field) (c : Nat) : (State.acceptLoop s f c).pending = s.pending := by
  unfold State.acceptLoop
  first
  | (simp [apply_ite State.pending]; done)
  | ((try dsimp only); repeat' (first | (with_reducible rfl) | (simp [apply_ite State.pending]; done) | split | (rw [State.foldl_pending]) | intro))

@[simp] theorem State.loopSample_pending (s : State) (ohmsA : Nat) (ohmsB : Nat) : (State.loopSample s ohmsA ohmsB).pending = s.pending := by
  unfold State.loopSample
  first
  | (simp [apply_ite State.pending]; done)
  | ((try dsimp only); repeat' (first | (with_reducible rfl) | (simp [apply_ite State.pending]; done) | split | (rw [State.foldl_pending]) | intro))

@[simp] theorem State.safetyPack_pending (s : State) (t : Trunk) : (State.safetyPack s t).pending = s.pending := by
  unfold State.safetyPack
  first
  | (simp [apply_ite State.pending]; done)
  | ((try dsimp only); repeat' (first | (with_reducible rfl) | (simp [apply_ite State.pending]; done) | split | (rw [State.foldl_pending]) | intro))

@[simp] theorem State.rootPackRec_pending (s : State) (p : Nat) (rec : Nat) : (State.rootPackRec s p rec).pending = s.pending := by
  unfold State.rootPackRec
  first
  | (simp [apply_ite State.pending]; done)
  | ((try dsimp only); repeat' (first | (with_reducible rfl) | (simp [apply_ite State.pending]; done) | split | (rw [State.foldl_pending]) | (rw [State.foldl_snd_pending]) | (rw [State.foldl_fst_pending]) | intro))

@[simp] theorem State.rootPack_pending (s : State) : (State.rootPack s).pending = s.pending := by
  unfold State.rootPack
  first
  | (simp [apply_ite State.pending]; done)
  | ((try dsimp only); repeat' (first | (with_reducible rfl) | (simp [apply_ite State.pending]; done) | split | (rw [State.foldl_pending]) | intro))

@[simp] theorem State.groveIn_pending (s : State) (h : GroveHdr) (type : Nat) (f : State → State) (hf : ∀ x0, (f x0).pending = x0.pending) : (State.groveIn s h type f).pending = s.pending := by
  unfold State.groveIn
  first
  | (simp [apply_ite State.pending, hf]; done)
  | ((try dsimp only); repeat' (first | (with_reducible rfl) | (simp [apply_ite State.pending, hf]; done) | split | (rw [State.foldl_pending]) | intro))

@[simp] theorem State.takeRecord_pending (s : State) (rec : Nat) : (State.takeRecord s rec).pending = s.pending := by
  unfold State.takeRecord
  first
  | (simp [apply_ite State.pending]; done)
  | ((try dsimp only); repeat' (first | (with_reducible rfl) | (simp [apply_ite State.pending]; done) | split | (rw [State.foldl_pending]) | intro))

@[simp] theorem State.takeover_pending (s : State) : (State.takeover s).pending = s.pending := by
  unfold State.takeover
  first
  | (simp [apply_ite State.pending]; done)
  | ((try dsimp only); repeat' (first | (with_reducible rfl) | (simp [apply_ite State.pending]; done) | split | (rw [State.foldl_pending]) | (rw [State.foldl_snd_pending]) | (rw [State.foldl_fst_pending]) | intro))

@[simp] theorem State.losePartner_pending (s : State) : (State.losePartner s).pending = s.pending := by
  unfold State.losePartner
  first
  | (simp [apply_ite State.pending]; done)
  | ((try dsimp only); repeat' (first | (with_reducible rfl) | (simp [apply_ite State.pending]; done) | split | (rw [State.foldl_pending]) | intro))

@[simp] theorem State.heartbeatOut_pending (s : State) : (State.heartbeatOut s).pending = s.pending := by
  unfold State.heartbeatOut
  first
  | (simp [apply_ite State.pending]; done)
  | ((try dsimp only); repeat' (first | (with_reducible rfl) | (simp [apply_ite State.pending]; done) | split | (rw [State.foldl_pending]) | intro))

@[simp] theorem State.heartbeatIn_pending (s : State) (h : GroveHdr) (serving : Bool) (takeover : Bool) (seedId : Nat) : (State.heartbeatIn s h serving takeover seedId).pending = s.pending := by
  unfold State.heartbeatIn
  first
  | (simp [apply_ite State.pending]; done)
  | ((try dsimp only); repeat' (first | (with_reducible rfl) | (simp [apply_ite State.pending]; done) | split | (rw [State.foldl_pending]) | intro))

@[simp] theorem State.heartbeatLate_pending (s : State) : (State.heartbeatLate s).pending = s.pending := by
  unfold State.heartbeatLate
  first
  | (simp [apply_ite State.pending]; done)
  | ((try dsimp only); repeat' (first | (with_reducible rfl) | (simp [apply_ite State.pending]; done) | split | (rw [State.foldl_pending]) | intro))

@[simp] theorem State.takeoverMsg_pending (s : State) (action : Nat) (k : Nat) : (State.takeoverMsg s action k).pending = s.pending := by
  unfold State.takeoverMsg
  first
  | (simp [apply_ite State.pending]; done)
  | ((try dsimp only); repeat' (first | (with_reducible rfl) | (simp [apply_ite State.pending]; done) | split | (rw [State.foldl_pending]) | intro))

@[simp] theorem State.returnSend_pending (s : State) : (State.returnSend s).pending = s.pending := by
  unfold State.returnSend
  first
  | (simp [apply_ite State.pending]; done)
  | ((try dsimp only); repeat' (first | (with_reducible rfl) | (simp [apply_ite State.pending]; done) | split | (rw [State.foldl_pending]) | intro))

@[simp] theorem State.takeoverIn_pending (s : State) (h : GroveHdr) (accept : Bool) (k : Nat) : (State.takeoverIn s h accept k).pending = s.pending := by
  unfold State.takeoverIn
  first
  | (simp [apply_ite State.pending]; done)
  | ((try dsimp only); repeat' (first | (with_reducible rfl) | (simp [apply_ite State.pending]; done) | split | (rw [State.foldl_pending]) | intro))

@[simp] theorem State.groveEpoch_pending (s : State) : (State.groveEpoch s).pending = s.pending := by
  unfold State.groveEpoch
  first
  | (simp [apply_ite State.pending]; done)
  | ((try dsimp only); repeat' (first | (with_reducible rfl) | (simp [apply_ite State.pending]; done) | split | (rw [State.foldl_pending]) | intro))

@[simp] theorem State.ringQueue_pending (s : State) (port : Nat) (len : Nat) (launch : Nat) (data : List Byte) : (State.ringQueue s port len launch data).pending = s.pending := by
  unfold State.ringQueue
  first
  | (simp [apply_ite State.pending]; done)
  | ((try dsimp only); repeat' (first | (with_reducible rfl) | (simp [apply_ite State.pending]; done) | split | (rw [State.foldl_pending]) | intro))

@[simp] theorem State.ringIn_pending (s : State) (src : Nat) (port : Nat) (part : Nat) (len : Nat) (launch : Nat) (data : List Byte) : (State.ringIn s src port part len launch data).pending = s.pending := by
  unfold State.ringIn
  first
  | (simp [apply_ite State.pending]; done)
  | ((try dsimp only); repeat' (first | (with_reducible rfl) | (simp [apply_ite State.pending]; done) | split | (rw [State.foldl_pending]) | intro))

@[simp] theorem State.ringLate_pending (s : State) : (State.ringLate s).pending = s.pending := by
  unfold State.ringLate
  first
  | (simp [apply_ite State.pending]; done)
  | ((try dsimp only); repeat' (first | (with_reducible rfl) | (simp [apply_ite State.pending]; done) | split | (rw [State.foldl_pending]) | intro))

@[simp] theorem State.plainWrite_pending (s : State) (a : Nat) (v : Nat) : (State.plainWrite s a v).pending = s.pending := by
  unfold State.plainWrite
  first
  | (simp [apply_ite State.pending]; done)
  | ((try dsimp only); repeat' (first | (with_reducible rfl) | (simp [apply_ite State.pending]; done) | split | (rw [State.foldl_pending]) | intro))

@[simp] theorem State.plainRead_pending (s : State) (a : Nat) : (State.plainRead s a).2.pending = s.pending := by
  unfold State.plainRead
  first
  | (simp [apply_ite State.pending]; done)
  | ((try dsimp only); repeat' (first | (with_reducible rfl) | (simp [apply_ite State.pending]; done) | split | (rw [State.foldl_pending]) | (rw [State.foldl_snd_pending]) | (rw [State.foldl_fst_pending]) | intro))

@[simp] theorem State.passPoint_pending (s : State) (key : Nat) (c : Nat) (k : Nat) : (State.passPoint s key c k).pending = s.pending := by
  unfold State.passPoint
  first
  | (simp [apply_ite State.pending]; done)
  | ((try dsimp only); repeat' (first | (with_reducible rfl) | (simp [apply_ite State.pending]; done) | split | (rw [State.foldl_pending]) | intro))

@[simp] theorem State.fitOne_pending (s : State) (n : Nat) : (State.fitOne s n).pending = s.pending := by
  unfold State.fitOne
  first
  | (simp [apply_ite State.pending]; done)
  | ((try dsimp only); repeat' (first | (with_reducible rfl) | (simp [apply_ite State.pending]; done) | split | (rw [State.foldl_pending]) | intro))

@[simp] theorem State.dmxCapture_pending (s : State) : (State.dmxCapture s).pending = s.pending := by
  unfold State.dmxCapture
  first
  | (simp [apply_ite State.pending]; done)
  | ((try dsimp only); repeat' (first | (with_reducible rfl) | (simp [apply_ite State.pending]; done) | split | (rw [State.foldl_pending]) | intro))

@[simp] theorem State.takeCapture_pending (s : State) : (State.takeCapture s).pending = s.pending := by
  unfold State.takeCapture
  first
  | (simp [apply_ite State.pending]; done)
  | ((try dsimp only); repeat' (first | (with_reducible rfl) | (simp [apply_ite State.pending]; done) | split | (rw [State.foldl_pending]) | intro))

@[simp] theorem State.moveSpare_pending (s : State) : (State.moveSpare s).pending = s.pending := by
  unfold State.moveSpare
  first
  | (simp [apply_ite State.pending]; done)
  | ((try dsimp only); repeat' (first | (with_reducible rfl) | (simp [apply_ite State.pending]; done) | split | (rw [State.foldl_pending]) | intro))

@[simp] theorem State.shedDecision_pending (s : State) : (State.shedDecision s).pending = s.pending := by
  unfold State.shedDecision
  first
  | (simp [apply_ite State.pending]; done)
  | ((try dsimp only); repeat' (first | (with_reducible rfl) | (simp [apply_ite State.pending]; done) | split | (rw [State.foldl_pending]) | intro))

@[simp] theorem State.chooseCamera_pending (s : State) (t : Trunk) (g : Nat) : (State.chooseCamera s t g).pending = s.pending := by
  unfold State.chooseCamera
  first
  | (simp [apply_ite State.pending]; done)
  | ((try dsimp only); repeat' (first | (with_reducible rfl) | (simp [apply_ite State.pending]; done) | split | (rw [State.foldl_pending]) | intro))

@[simp] theorem State.rasterSet_pending (s : State) (t : Trunk) : (State.rasterSet s t).pending = s.pending := by
  unfold State.rasterSet
  first
  | (simp [apply_ite State.pending]; done)
  | ((try dsimp only); repeat' (first | (with_reducible rfl) | (simp [apply_ite State.pending]; done) | split | (rw [State.foldl_pending]) | intro))

@[simp] theorem State.crownWrite_pending (s : State) (t : Trunk) (off : Nat) (v : Nat) : (State.crownWrite s t off v).pending = s.pending := by
  unfold State.crownWrite
  first
  | (simp [apply_ite State.pending]; done)
  | ((try dsimp only); repeat' (first | (with_reducible rfl) | (simp [apply_ite State.pending]; done) | split | (rw [State.foldl_pending]) | intro))

@[simp] theorem State.rastWrite_pending (s : State) (t : Trunk) (off : Nat) (v : Nat) : (State.rastWrite s t off v).pending = s.pending := by
  unfold State.rastWrite
  first
  | (simp [apply_ite State.pending]; done)
  | ((try dsimp only); repeat' (first | (with_reducible rfl) | (simp [apply_ite State.pending]; done) | split | (rw [State.foldl_pending]) | intro))

@[simp] theorem State.sendWrite_pending (s : State) (t : Trunk) (c : Nat) (off : Nat) (v : Nat) : (State.sendWrite s t c off v).pending = s.pending := by
  unfold State.sendWrite
  first
  | (simp [apply_ite State.pending]; done)
  | ((try dsimp only); repeat' (first | (with_reducible rfl) | (simp [apply_ite State.pending]; done) | split | (rw [State.foldl_pending]) | intro))

@[simp] theorem State.keepOld_pending (s : State) (t : Trunk) (off : Nat) : (State.keepOld s t off).pending = s.pending := by
  unfold State.keepOld
  first
  | (simp [apply_ite State.pending]; done)
  | ((try dsimp only); repeat' (first | (with_reducible rfl) | (simp [apply_ite State.pending]; done) | split | (rw [State.foldl_pending]) | intro))

@[simp] theorem State.applyPosted_pending (s : State) (t : Trunk) (c : Nat) (off : Nat) (v : Nat) : (State.applyPosted s t c off v).pending = s.pending := by
  unfold State.applyPosted
  first
  | (simp [apply_ite State.pending]; done)
  | ((try dsimp only); repeat' (first | (with_reducible rfl) | (simp [apply_ite State.pending]; done) | split | (rw [State.foldl_pending]) | intro))

@[simp] theorem State.applyAll_pending (s : State) (t : Trunk) (c : Nat) : (State.applyAll s t c).pending = s.pending := by
  unfold State.applyAll
  first
  | (simp [apply_ite State.pending]; done)
  | ((try dsimp only); repeat' (first | (with_reducible rfl) | (simp [apply_ite State.pending]; done) | split | (rw [State.foldl_pending]) | (rw [State.foldl_snd_pending]) | (rw [State.foldl_fst_pending]) | intro))

@[simp] theorem State.overrun_pending (s : State) (t : Trunk) (c : Nat) : (State.overrun s t c).pending = s.pending := by
  unfold State.overrun
  first
  | (simp [apply_ite State.pending]; done)
  | ((try dsimp only); repeat' (first | (with_reducible rfl) | (simp [apply_ite State.pending]; done) | split | (rw [State.foldl_pending]) | intro))

@[simp] theorem State.deliver_pending (s : State) (t : Trunk) (c : Nat) : (State.deliver s t c).pending = s.pending := by
  unfold State.deliver
  first
  | (simp [apply_ite State.pending]; done)
  | ((try dsimp only); repeat' (first | (with_reducible rfl) | (simp [apply_ite State.pending]; done) | split | (rw [State.foldl_pending]) | intro))

@[simp] theorem State.guestTurn_pending (s : State) (t : Trunk) (c : Nat) : (State.guestTurn s t c).pending = s.pending := by
  unfold State.guestTurn
  first
  | (simp [apply_ite State.pending]; done)
  | ((try dsimp only); repeat' (first | (with_reducible rfl) | (simp [apply_ite State.pending]; done) | split | (rw [State.foldl_pending]) | intro))

@[simp] theorem State.guestEpoch_pending (s : State) : (State.guestEpoch s).pending = s.pending := by
  unfold State.guestEpoch
  first
  | (simp [apply_ite State.pending]; done)
  | ((try dsimp only); repeat' (first | (with_reducible rfl) | (simp [apply_ite State.pending]; done) | split | (rw [State.foldl_pending]) | intro))

@[simp] theorem State.mirrorIdle_pending (s : State) : (State.mirrorIdle s).pending = s.pending := by
  unfold State.mirrorIdle
  first
  | (simp [apply_ite State.pending]; done)
  | ((try dsimp only); repeat' (first | (with_reducible rfl) | (simp [apply_ite State.pending]; done) | split | (rw [State.foldl_pending]) | intro))

@[simp] theorem State.treeEpoch_pending (s : State) : (State.treeEpoch s).pending = s.pending := by
  unfold State.treeEpoch
  first
  | (simp [apply_ite State.pending]; done)
  | ((try dsimp only); repeat' (first | (with_reducible rfl) | (simp [apply_ite State.pending]; done) | split | (rw [State.foldl_pending]) | intro))

@[simp] theorem State.epochOf_pending (s : State) (e : EpochOf) : (State.epochOf s e).pending = s.pending := by
  unfold State.epochOf
  first
  | (simp [apply_ite State.pending]; done)
  | ((try dsimp only); repeat' (first | (with_reducible rfl) | (simp [apply_ite State.pending]; done) | split | (rw [State.foldl_pending]) | intro))

@[simp] theorem State.dropRegs_pending (s : State) (p : Nat → Bool) : (State.dropRegs s p).pending = s.pending := by
  unfold State.dropRegs
  first
  | (simp [apply_ite State.pending]; done)
  | ((try dsimp only); repeat' (first | (with_reducible rfl) | (simp [apply_ite State.pending]; done) | split | (rw [State.foldl_pending]) | intro))

@[simp] theorem State.settleUnits_pending (s : State) : (State.settleUnits s).pending = s.pending := by
  unfold State.settleUnits
  first
  | (simp [apply_ite State.pending]; done)
  | ((try dsimp only); repeat' (first | (with_reducible rfl) | (simp [apply_ite State.pending]; done) | split | (rw [State.foldl_pending]) | intro))

@[simp] theorem State.keepFrames_pending (s : State) (old : State) : (State.keepFrames s old).pending = s.pending := by
  unfold State.keepFrames
  first
  | (simp [apply_ite State.pending]; done)
  | ((try dsimp only); repeat' (first | (with_reducible rfl) | (simp [apply_ite State.pending]; done) | split | (rw [State.foldl_pending]) | (rw [State.foldl_snd_pending]) | (rw [State.foldl_fst_pending]) | intro))

@[simp] theorem State.seedModes_pending (s : State) (d : Seed) : (State.seedModes s d).pending = s.pending := by
  unfold State.seedModes
  first
  | (simp [apply_ite State.pending]; done)
  | ((try dsimp only); repeat' (first | (with_reducible rfl) | (simp [apply_ite State.pending]; done) | split | (rw [State.foldl_pending]) | intro))

@[simp] theorem State.bindAxis_pending (s : State) (n : Nat) : (State.bindAxis s n).pending = s.pending := by
  unfold State.bindAxis
  first
  | (simp [apply_ite State.pending]; done)
  | ((try dsimp only); repeat' (first | (with_reducible rfl) | (simp [apply_ite State.pending]; done) | split | (rw [State.foldl_pending]) | intro))

@[simp] theorem State.startCadences_pending (s : State) (at_ : Option (Nat × Nat)) : (State.startCadences s at_).pending = s.pending := by
  unfold State.startCadences
  first
  | (simp [apply_ite State.pending]; done)
  | ((try dsimp only); repeat' (first | (with_reducible rfl) | (simp [apply_ite State.pending]; done) | split | (rw [State.foldl_pending]) | intro))

@[simp] theorem State.setQb_pending (s : State) (k : Nat) (depth : Nat) (wide : Bool) (thr : Nat) (stale : Nat) : (State.setQb s k depth wide thr stale).pending = s.pending := by
  unfold State.setQb
  first
  | (simp [apply_ite State.pending]; done)
  | ((try dsimp only); repeat' (first | (with_reducible rfl) | (simp [apply_ite State.pending]; done) | split | (rw [State.foldl_pending]) | intro))

@[simp] theorem State.portBlocks_pending (s : State) (n : Nat) : (State.portBlocks s n).pending = s.pending := by
  unfold State.portBlocks
  first
  | (simp [apply_ite State.pending]; done)
  | ((try dsimp only); repeat' (first | (with_reducible rfl) | (simp [apply_ite State.pending]; done) | split | (rw [State.foldl_pending]) | intro))

@[simp] theorem State.seedPorts_pending (s : State) : (State.seedPorts s).pending = s.pending := by
  unfold State.seedPorts
  first
  | (simp [apply_ite State.pending]; done)
  | ((try dsimp only); repeat' (first | (with_reducible rfl) | (simp [apply_ite State.pending]; done) | split | (rw [State.foldl_pending]) | (rw [State.foldl_snd_pending]) | (rw [State.foldl_fst_pending]) | intro))

@[simp] theorem State.seedRaster_pending (s : State) (t : Trunk) (g : Nat) (r : List Byte) : (State.seedRaster s t g r).pending = s.pending := by
  unfold State.seedRaster
  first
  | (simp [apply_ite State.pending]; done)
  | ((try dsimp only); repeat' (first | (with_reducible rfl) | (simp [apply_ite State.pending]; done) | split | (rw [State.foldl_pending]) | intro))

@[simp] theorem State.seedGuest_pending (s : State) (t : Trunk) (c : Nat) : (State.seedGuest s t c).pending = s.pending := by
  unfold State.seedGuest
  first
  | (simp [apply_ite State.pending]; done)
  | ((try dsimp only); repeat' (first | (with_reducible rfl) | (simp [apply_ite State.pending]; done) | split | (rw [State.foldl_pending]) | intro))

@[simp] theorem State.seedTrunkRegs_pending (s : State) (t : Trunk) : (State.seedTrunkRegs s t).pending = s.pending := by
  unfold State.seedTrunkRegs
  first
  | (simp [apply_ite State.pending]; done)
  | ((try dsimp only); repeat' (first | (with_reducible rfl) | (simp [apply_ite State.pending]; done) | split | (rw [State.foldl_pending]) | intro))

@[simp] theorem State.seedRasters_pending (s : State) (t : Trunk) : (State.seedRasters s t).pending = s.pending := by
  unfold State.seedRasters
  first
  | (simp [apply_ite State.pending]; done)
  | ((try dsimp only); repeat' (first | (with_reducible rfl) | (simp [apply_ite State.pending]; done) | split | (rw [State.foldl_pending]) | intro))

@[simp] theorem State.seedPictures_pending (s : State) (t : Trunk) : (State.seedPictures s t).pending = s.pending := by
  unfold State.seedPictures
  first
  | (simp [apply_ite State.pending]; done)
  | ((try dsimp only); repeat' (first | (with_reducible rfl) | (simp [apply_ite State.pending]; done) | split | (rw [State.foldl_pending]) | intro))

@[simp] theorem State.seedBlocks_pending (s : State) (t : Trunk) : (State.seedBlocks s t).pending = s.pending := by
  unfold State.seedBlocks
  first
  | (simp [apply_ite State.pending]; done)
  | ((try dsimp only); repeat' (first | (with_reducible rfl) | (simp [apply_ite State.pending]; done) | split | (rw [State.foldl_pending]) | (rw [State.foldl_snd_pending]) | (rw [State.foldl_fst_pending]) | intro))

@[simp] theorem State.seedTrunk_pending (s : State) (t : Trunk) : (State.seedTrunk s t).pending = s.pending := by
  show (State.seedBlocks ([0, 1].foldl (fun s c => State.seedGuest s t c) (State.putSched ((s.seedTrunkRegs t).seedPictures t) t _)) t).pending = _
  rw [State.seedBlocks_pending, State.foldl_pending _ (fun s c => State.seedGuest_pending s t c), State.putSched_pending, State.seedPictures_pending,
    State.seedTrunkRegs_pending]

@[simp] theorem State.seedTwin_pending (s : State) : (State.seedTwin s).pending = s.pending := by
  unfold State.seedTwin
  first
  | (simp [apply_ite State.pending]; done)
  | ((try dsimp only); repeat' (first | (with_reducible rfl) | (simp [apply_ite State.pending]; done) | split | (rw [State.foldl_pending]) | intro))

@[simp] theorem State.seedGrove_pending (s : State) : (State.seedGrove s).pending = s.pending := by
  unfold State.seedGrove
  first
  | (simp [apply_ite State.pending]; done)
  | ((try dsimp only); repeat' (first | (with_reducible rfl) | (simp [apply_ite State.pending]; done) | split | (rw [State.foldl_pending]) | intro))

@[simp] theorem State.activateSeed_pending (s : State) (d : Seed) (at_ : Option (Nat × Nat)) : (State.activateSeed s d at_).pending = s.pending := by
  unfold State.activateSeed
  first
  | (simp [apply_ite State.pending]; done)
  | ((try dsimp only); repeat' (first | (with_reducible rfl) | (simp [apply_ite State.pending]; done) | split | (rw [State.foldl_pending]) | intro))

@[simp] theorem State.openSlot_pending (s : State) (k : Nat) (t : Nat) : (State.openSlot s k t).pending = s.pending := by
  unfold State.openSlot
  first
  | (simp [apply_ite State.pending]; done)
  | ((try dsimp only); repeat' (first | (with_reducible rfl) | (simp [apply_ite State.pending]; done) | split | (rw [State.foldl_pending]) | intro))

@[simp] theorem State.freezeOpen_pending (s : State) : (State.freezeOpen s).pending = s.pending := by
  unfold State.freezeOpen
  first
  | (simp [apply_ite State.pending]; done)
  | ((try dsimp only); repeat' (first | (with_reducible rfl) | (simp [apply_ite State.pending]; done) | split | (rw [State.foldl_pending]) | intro))

@[simp] theorem State.recordNext_pending (s : State) : (State.recordNext s).pending = s.pending := by
  unfold State.recordNext
  first
  | (simp [apply_ite State.pending]; done)
  | ((try dsimp only); repeat' (first | (with_reducible rfl) | (simp [apply_ite State.pending]; done) | split | (rw [State.foldl_pending]) | intro))

@[simp] theorem State.recFreeze_pending (s : State) : (State.recFreeze s).pending = s.pending := by
  unfold State.recFreeze
  first
  | (simp [apply_ite State.pending]; done)
  | ((try dsimp only); repeat' (first | (with_reducible rfl) | (simp [apply_ite State.pending]; done) | split | (rw [State.foldl_pending]) | intro))

@[simp] theorem State.recThaw_pending (s : State) (k : Nat) : (State.recThaw s k).pending = s.pending := by
  unfold State.recThaw
  first
  | (simp [apply_ite State.pending]; done)
  | ((try dsimp only); repeat' (first | (with_reducible rfl) | (simp [apply_ite State.pending]; done) | split | (rw [State.foldl_pending]) | intro))

@[simp] theorem State.useSettings_pending (s : State) : (State.useSettings s).pending = s.pending := by
  unfold State.useSettings
  first
  | (simp [apply_ite State.pending]; done)
  | ((try dsimp only); repeat' (first | (with_reducible rfl) | (simp [apply_ite State.pending]; done) | split | (rw [State.foldl_pending]) | intro))

@[simp] theorem State.writeGen_pending (s : State) (state : Nat) (body : List Byte) : (State.writeGen s state body).pending = s.pending := by
  unfold State.writeGen
  first
  | (simp [apply_ite State.pending]; done)
  | ((try dsimp only); repeat' (first | (with_reducible rfl) | (simp [apply_ite State.pending]; done) | split | (rw [State.foldl_pending]) | intro))

@[simp] theorem State.writeSettings_pending (s : State) (body : List Byte) : (State.writeSettings s body).pending = s.pending := by
  unfold State.writeSettings
  first
  | (simp [apply_ite State.pending]; done)
  | ((try dsimp only); repeat' (first | (with_reducible rfl) | (simp [apply_ite State.pending]; done) | split | (rw [State.foldl_pending]) | intro))

@[simp] theorem State.shadowLive_pending (s : State) (key : Option (List Byte)) : (State.shadowLive s key).pending = s.pending := by
  unfold State.shadowLive
  first
  | (simp [apply_ite State.pending]; done)
  | ((try dsimp only); repeat' (first | (with_reducible rfl) | (simp [apply_ite State.pending]; done) | split | (rw [State.foldl_pending]) | intro))

@[simp] theorem State.shadowDrop_pending (s : State) : (State.shadowDrop s).pending = s.pending := by
  unfold State.shadowDrop
  first
  | (simp [apply_ite State.pending]; done)
  | ((try dsimp only); repeat' (first | (with_reducible rfl) | (simp [apply_ite State.pending]; done) | split | (rw [State.foldl_pending]) | intro))

@[simp] theorem State.loadImage_pending (s : State) (addrs : List Nat) (v : List Byte) : (State.loadImage s addrs v).pending = s.pending := by
  unfold State.loadImage
  first
  | (simp [apply_ite State.pending]; done)
  | ((try dsimp only); repeat' (first | (with_reducible rfl) | (simp [apply_ite State.pending]; done) | split | (rw [State.foldl_pending]) | (rw [State.foldl_snd_pending]) | (rw [State.foldl_fst_pending]) | intro))

@[simp] theorem State.loadRecord_pending (s : State) (r : Nat × Bool × List Byte) : (State.loadRecord s r).pending = s.pending := by
  unfold State.loadRecord
  first
  | (simp [apply_ite State.pending]; done)
  | ((try dsimp only); repeat' (first | (with_reducible rfl) | (simp [apply_ite State.pending]; done) | split | (rw [State.foldl_pending]) | intro))

@[simp] theorem State.loadSettings_pending (s : State) (cold : Bool) : (State.loadSettings s cold).pending = s.pending := by
  unfold State.loadSettings
  first
  | (simp [apply_ite State.pending]; done)
  | ((try dsimp only); repeat' (first | (with_reducible rfl) | (simp [apply_ite State.pending]; done) | split | (rw [State.foldl_pending]) | intro))

@[simp] theorem State.lifeRefresh_pending (s : State) : (State.lifeRefresh s).pending = s.pending := by
  unfold State.lifeRefresh
  first
  | (simp [apply_ite State.pending]; done)
  | ((try dsimp only); repeat' (first | (with_reducible rfl) | (simp [apply_ite State.pending]; done) | split | (rw [State.foldl_pending]) | intro))

@[simp] theorem State.setDigest_pending (s : State) (base : Nat) (d : List Byte) : (State.setDigest s base d).pending = s.pending := by
  unfold State.setDigest
  first
  | (simp [apply_ite State.pending]; done)
  | ((try dsimp only); repeat' (first | (with_reducible rfl) | (simp [apply_ite State.pending]; done) | split | (rw [State.foldl_pending]) | intro))

@[simp] theorem State.updRegs_pending (s : State) : (State.updRegs s).pending = s.pending := by
  unfold State.updRegs
  first
  | (simp [apply_ite State.pending]; done)
  | ((try dsimp only); repeat' (first | (with_reducible rfl) | (simp [apply_ite State.pending]; done) | split | (rw [State.foldl_pending]) | intro))

@[simp] theorem State.putSlots_pending (s : State) (cls : Nat) (x : ImgSlots) : (State.putSlots s cls x).pending = s.pending := by
  unfold State.putSlots
  first
  | (simp [apply_ite State.pending]; done)
  | ((try dsimp only); repeat' (first | (with_reducible rfl) | (simp [apply_ite State.pending]; done) | split | (rw [State.foldl_pending]) | intro))

@[simp] theorem State.putArmed_pending (s : State) (cls : Nat) (a : Armed) : (State.putArmed s cls a).pending = s.pending := by
  unfold State.putArmed
  first
  | (simp [apply_ite State.pending]; done)
  | ((try dsimp only); repeat' (first | (with_reducible rfl) | (simp [apply_ite State.pending]; done) | split | (rw [State.foldl_pending]) | intro))

@[simp] theorem State.disarm_pending (s : State) (cls : Nat) : (State.disarm s cls).pending = s.pending := by
  unfold State.disarm
  first
  | (simp [apply_ite State.pending]; done)
  | ((try dsimp only); repeat' (first | (with_reducible rfl) | (simp [apply_ite State.pending]; done) | split | (rw [State.foldl_pending]) | intro))

@[simp] theorem State.seedRefused_pending (s : State) (img : List Byte) (f : Nat × Nat × Nat) : (State.seedRefused s img f).pending = s.pending := by
  unfold State.seedRefused
  first
  | (simp [apply_ite State.pending]; done)
  | ((try dsimp only); repeat' (first | (with_reducible rfl) | (simp [apply_ite State.pending]; done) | split | (rw [State.foldl_pending]) | intro))

@[simp] theorem State.stageImage_pending (s : State) (h : StemHdr) (cls : Nat) (img : List Byte) : (State.stageImage s h cls img).pending = s.pending := by
  unfold State.stageImage
  first
  | (simp [apply_ite State.pending]; done)
  | ((try dsimp only); repeat' (first | (with_reducible rfl) | (simp [apply_ite State.pending]; done) | split | (rw [State.foldl_pending]) | intro))

@[simp] theorem State.stageTake_pending (s : State) (h : StemHdr) (cls : Nat) (img : List Byte) : (State.stageTake s h cls img).pending = s.pending := by
  unfold State.stageTake
  first
  | (simp [apply_ite State.pending]; done)
  | ((try dsimp only); repeat' (first | (with_reducible rfl) | (simp [apply_ite State.pending]; done) | split | (rw [State.foldl_pending]) | intro))

@[simp] theorem State.sendUpd_pending (s : State) (dst : Nat) (op : Nat) (cls : Nat) (code : Nat) (a : Armed) : (State.sendUpd s dst op cls code a).pending = s.pending := by
  unfold State.sendUpd
  first
  | (simp [apply_ite State.pending]; done)
  | ((try dsimp only); repeat' (first | (with_reducible rfl) | (simp [apply_ite State.pending]; done) | split | (rw [State.foldl_pending]) | intro))

@[simp] theorem State.answerAct_pending (s : State) (a : Armed) (code : Nat) : (State.answerAct s a code).pending = s.pending := by
  unfold State.answerAct
  first
  | (simp [apply_ite State.pending]; done)
  | ((try dsimp only); repeat' (first | (with_reducible rfl) | (simp [apply_ite State.pending]; done) | split | (rw [State.foldl_pending]) | intro))

@[simp] theorem State.checkGo_pending (s : State) (cls : Nat) : (State.checkGo s cls).pending = s.pending := by
  unfold State.checkGo
  first
  | (simp [apply_ite State.pending]; done)
  | ((try dsimp only); repeat' (first | (with_reducible rfl) | (simp [apply_ite State.pending]; done) | split | (rw [State.foldl_pending]) | intro))

@[simp] theorem State.acknowledge_pending (s : State) (cls : Nat) : (State.acknowledge s cls).pending = s.pending := by
  unfold State.acknowledge
  first
  | (simp [apply_ite State.pending]; done)
  | ((try dsimp only); repeat' (first | (with_reducible rfl) | (simp [apply_ite State.pending]; done) | split | (rw [State.foldl_pending]) | intro))

@[simp] theorem State.writeNow_pending (s : State) (cls : Nat) : (State.writeNow s cls).pending = s.pending := by
  unfold State.writeNow
  first
  | (simp [apply_ite State.pending]; done)
  | ((try dsimp only); repeat' (first | (with_reducible rfl) | (simp [apply_ite State.pending]; done) | split | (rw [State.foldl_pending]) | intro))

@[simp] theorem State.activateCmd_pending (s : State) (h : StemHdr) (cls : Nat) (axis : Nat) (pos : Nat) (digest : List Byte) : (State.activateCmd s h cls axis pos digest).pending = s.pending := by
  unfold State.activateCmd
  first
  | (simp [apply_ite State.pending]; done)
  | ((try dsimp only); repeat' (first | (with_reducible rfl) | (simp [apply_ite State.pending]; done) | split | (rw [State.foldl_pending]) | intro))

@[simp] theorem State.prepared_pending (s : State) (cls : Nat) : (State.prepared s cls).pending = s.pending := by
  unfold State.prepared
  first
  | (simp [apply_ite State.pending]; done)
  | ((try dsimp only); repeat' (first | (with_reducible rfl) | (simp [apply_ite State.pending]; done) | split | (rw [State.foldl_pending]) | intro))

@[simp] theorem State.actFails_pending (s : State) (cls : Nat) (code : Nat) : (State.actFails s cls code).pending = s.pending := by
  unfold State.actFails
  first
  | (simp [apply_ite State.pending]; done)
  | ((try dsimp only); repeat' (first | (with_reducible rfl) | (simp [apply_ite State.pending]; done) | split | (rw [State.foldl_pending]) | intro))

@[simp] theorem State.switchSlots_pending (s : State) (cls : Nat) (fallback : Bool) : (State.switchSlots s cls fallback).pending = s.pending := by
  unfold State.switchSlots
  first
  | (simp [apply_ite State.pending]; done)
  | ((try dsimp only); repeat' (first | (with_reducible rfl) | (simp [apply_ite State.pending]; done) | split | (rw [State.foldl_pending]) | intro))

@[simp] theorem State.seedIn_pending (s : State) (d : Seed) (at_ : Option (Nat × Nat)) : (State.seedIn s d at_).pending = s.pending := by
  unfold State.seedIn
  first
  | (simp [apply_ite State.pending]; done)
  | ((try dsimp only); repeat' (first | (with_reducible rfl) | (simp [apply_ite State.pending]; done) | split | (rw [State.foldl_pending]) | intro))

@[simp] theorem State.switchSeed_pending (s : State) (a : Armed) : (State.switchSeed s a).pending = s.pending := by
  unfold State.switchSeed
  first
  | (simp [apply_ite State.pending]; done)
  | ((try dsimp only); repeat' (first | (with_reducible rfl) | (simp [apply_ite State.pending]; done) | split | (rw [State.foldl_pending]) | intro))

@[simp] theorem State.switchFirmware_pending (s : State) (a : Armed) : (State.switchFirmware s a).pending = s.pending := by
  unfold State.switchFirmware
  first
  | (simp [apply_ite State.pending]; done)
  | ((try dsimp only); repeat' (first | (with_reducible rfl) | (simp [apply_ite State.pending]; done) | split | (rw [State.foldl_pending]) | intro))

@[simp] theorem State.imageActivation_pending (s : State) (cls : Nat) : (State.imageActivation s cls).pending = s.pending := by
  unfold State.imageActivation
  first
  | (simp [apply_ite State.pending]; done)
  | ((try dsimp only); repeat' (first | (with_reducible rfl) | (simp [apply_ite State.pending]; done) | split | (rw [State.foldl_pending]) | intro))

@[simp] theorem State.storeSafety_pending (s : State) (img : List Byte) : (State.storeSafety s img).pending = s.pending := by
  unfold State.storeSafety
  first
  | (simp [apply_ite State.pending]; done)
  | ((try dsimp only); repeat' (first | (with_reducible rfl) | (simp [apply_ite State.pending]; done) | split | (rw [State.foldl_pending]) | intro))

@[simp] theorem State.confirm_pending (s : State) (cls : Nat) : (State.confirm s cls).pending = s.pending := by
  unfold State.confirm
  first
  | (simp [apply_ite State.pending]; done)
  | ((try dsimp only); repeat' (first | (with_reducible rfl) | (simp [apply_ite State.pending]; done) | split | (rw [State.foldl_pending]) | intro))

@[simp] theorem State.reportHealth_pending (s : State) : (State.reportHealth s).pending = s.pending := by
  unfold State.reportHealth
  first
  | (simp [apply_ite State.pending]; done)
  | ((try dsimp only); repeat' (first | (with_reducible rfl) | (simp [apply_ite State.pending]; done) | split | (rw [State.foldl_pending]) | intro))

@[simp] theorem State.imageConfirmation_pending (s : State) (cls : Nat) : (State.imageConfirmation s cls).pending = s.pending := by
  unfold State.imageConfirmation
  first
  | (simp [apply_ite State.pending]; done)
  | ((try dsimp only); repeat' (first | (with_reducible rfl) | (simp [apply_ite State.pending]; done) | split | (rw [State.foldl_pending]) | intro))

@[simp] theorem State.confirmCmd_pending (s : State) (h : StemHdr) (cls : Nat) (digest : List Byte) : (State.confirmCmd s h cls digest).pending = s.pending := by
  unfold State.confirmCmd
  first
  | (simp [apply_ite State.pending]; done)
  | ((try dsimp only); repeat' (first | (with_reducible rfl) | (simp [apply_ite State.pending]; done) | split | (rw [State.foldl_pending]) | intro))

@[simp] theorem State.fallbackEffects_pending (s : State) (cls : Nat) : (State.fallbackEffects s cls).pending = s.pending := by
  unfold State.fallbackEffects
  first
  | (simp [apply_ite State.pending]; done)
  | ((try dsimp only); repeat' (first | (with_reducible rfl) | (simp [apply_ite State.pending]; done) | split | (rw [State.foldl_pending]) | intro))

@[simp] theorem State.armFallback_pending (s : State) (cls : Nat) (axis : Nat) (pos : Nat) (go : Bool) : (State.armFallback s cls axis pos go).pending = s.pending := by
  unfold State.armFallback
  first
  | (simp [apply_ite State.pending]; done)
  | ((try dsimp only); repeat' (first | (with_reducible rfl) | (simp [apply_ite State.pending]; done) | split | (rw [State.foldl_pending]) | intro))

@[simp] theorem State.imageFallback_pending (s : State) (cls : Nat) : (State.imageFallback s cls).pending = s.pending := by
  unfold State.imageFallback
  first
  | (simp [apply_ite State.pending]; done)
  | ((try dsimp only); repeat' (first | (with_reducible rfl) | (simp [apply_ite State.pending]; done) | split | (rw [State.foldl_pending]) | intro))

@[simp] theorem State.fallbackAlone_pending (s : State) (cls : Nat) : (State.fallbackAlone s cls).pending = s.pending := by
  unfold State.fallbackAlone
  first
  | (simp [apply_ite State.pending]; done)
  | ((try dsimp only); repeat' (first | (with_reducible rfl) | (simp [apply_ite State.pending]; done) | split | (rw [State.foldl_pending]) | intro))

@[simp] theorem State.settingsCheck_pending (s : State) : (State.settingsCheck s).pending = s.pending := by
  unfold State.settingsCheck
  first
  | (simp [apply_ite State.pending]; done)
  | ((try dsimp only); repeat' (first | (with_reducible rfl) | (simp [apply_ite State.pending]; done) | split | (rw [State.foldl_pending]) | intro))

@[simp] theorem State.startShow_pending (s : State) : (State.startShow s).pending = s.pending := by
  unfold State.startShow
  first
  | (simp [apply_ite State.pending]; done)
  | ((try dsimp only); repeat' (first | (with_reducible rfl) | (simp [apply_ite State.pending]; done) | split | (rw [State.foldl_pending]) | intro))

@[simp] theorem State.reloadTrunks_pending (s : State) : (State.reloadTrunks s).pending = s.pending := by
  unfold State.reloadTrunks
  first
  | (simp [apply_ite State.pending]; done)
  | ((try dsimp only); repeat' (first | (with_reducible rfl) | (simp [apply_ite State.pending]; done) | split | (rw [State.foldl_pending]) | intro))

@[simp] theorem State.firmwareRestart_pending (s : State) : (State.firmwareRestart s).pending = s.pending := by
  unfold State.firmwareRestart
  first
  | (simp [apply_ite State.pending]; done)
  | ((try dsimp only); repeat' (first | (with_reducible rfl) | (simp [apply_ite State.pending]; done) | split | (rw [State.foldl_pending]) | intro))

@[simp] theorem State.discardCmd_pending (s : State) (h : StemHdr) (cls : Nat) : (State.discardCmd s h cls).pending = s.pending := by
  unfold State.discardCmd
  first
  | (simp [apply_ite State.pending]; done)
  | ((try dsimp only); repeat' (first | (with_reducible rfl) | (simp [apply_ite State.pending]; done) | split | (rw [State.foldl_pending]) | intro))

@[simp] theorem State.updActivate_pending (s : State) (h : GroveHdr) (m : UpdMsg) : (State.updActivate s h m).pending = s.pending := by
  unfold State.updActivate
  first
  | (simp [apply_ite State.pending]; done)
  | ((try dsimp only); repeat' (first | (with_reducible rfl) | (simp [apply_ite State.pending]; done) | split | (rw [State.foldl_pending]) | intro))

@[simp] theorem State.updAck_pending (s : State) (h : GroveHdr) (refuse : Bool) (m : UpdMsg) : (State.updAck s h refuse m).pending = s.pending := by
  unfold State.updAck
  first
  | (simp [apply_ite State.pending]; done)
  | ((try dsimp only); repeat' (first | (with_reducible rfl) | (simp [apply_ite State.pending]; done) | split | (rw [State.foldl_pending]) | intro))

@[simp] theorem State.updGo_pending (s : State) (h : GroveHdr) (cancel : Bool) (m : UpdMsg) : (State.updGo s h cancel m).pending = s.pending := by
  unfold State.updGo
  first
  | (simp [apply_ite State.pending]; done)
  | ((try dsimp only); repeat' (first | (with_reducible rfl) | (simp [apply_ite State.pending]; done) | split | (rw [State.foldl_pending]) | intro))

@[simp] theorem State.goDeadline_pending (s : State) (cls : Nat) : (State.goDeadline s cls).pending = s.pending := by
  unfold State.goDeadline
  first
  | (simp [apply_ite State.pending]; done)
  | ((try dsimp only); repeat' (first | (with_reducible rfl) | (simp [apply_ite State.pending]; done) | split | (rw [State.foldl_pending]) | intro))

@[simp] theorem State.noGo_pending (s : State) (cls : Nat) : (State.noGo s cls).pending = s.pending := by
  unfold State.noGo
  first
  | (simp [apply_ite State.pending]; done)
  | ((try dsimp only); repeat' (first | (with_reducible rfl) | (simp [apply_ite State.pending]; done) | split | (rw [State.foldl_pending]) | intro))

@[simp] theorem State.updHealth_pending (s : State) (h : GroveHdr) (m : UpdMsg) : (State.updHealth s h m).pending = s.pending := by
  unfold State.updHealth
  first
  | (simp [apply_ite State.pending]; done)
  | ((try dsimp only); repeat' (first | (with_reducible rfl) | (simp [apply_ite State.pending]; done) | split | (rw [State.foldl_pending]) | intro))

@[simp] theorem State.updConfirm_pending (s : State) (h : GroveHdr) (m : UpdMsg) : (State.updConfirm s h m).pending = s.pending := by
  unfold State.updConfirm
  first
  | (simp [apply_ite State.pending]; done)
  | ((try dsimp only); repeat' (first | (with_reducible rfl) | (simp [apply_ite State.pending]; done) | split | (rw [State.foldl_pending]) | intro))

@[simp] theorem State.wiped_pending (s : State) (cold : Bool) : (State.wiped s cold).pending = s.pending := by
  unfold State.wiped
  first
  | (simp [apply_ite State.pending]; done)
  | ((try dsimp only); repeat' (first | (with_reducible rfl) | (simp [apply_ite State.pending]; done) | split | (rw [State.foldl_pending]) | intro))

@[simp] theorem State.faultPad_pending (s : State) : (State.faultPad s).pending = s.pending := by
  unfold State.faultPad
  first
  | (simp [apply_ite State.pending]; done)
  | ((try dsimp only); repeat' (first | (with_reducible rfl) | (simp [apply_ite State.pending]; done) | split | (rw [State.foldl_pending]) | intro))

@[simp] theorem State.freshNonce_pending (s : State) : (State.freshNonce s).pending = s.pending := by
  unfold State.freshNonce
  first
  | (simp [apply_ite State.pending]; done)
  | ((try dsimp only); repeat' (first | (with_reducible rfl) | (simp [apply_ite State.pending]; done) | split | (rw [State.foldl_pending]) | (rw [State.foldl_snd_pending]) | (rw [State.foldl_fst_pending]) | intro))

@[simp] theorem State.calFuses_pending (s : State) : (State.calFuses s).pending = s.pending := by
  unfold State.calFuses
  first
  | (simp [apply_ite State.pending]; done)
  | ((try dsimp only); repeat' (first | (with_reducible rfl) | (simp [apply_ite State.pending]; done) | split | (rw [State.foldl_pending]) | intro))

@[simp] theorem State.bootLoader_pending (s : State) : (State.bootLoader s).pending = s.pending := by
  unfold State.bootLoader
  first
  | (simp [apply_ite State.pending]; done)
  | ((try dsimp only); repeat' (first | (with_reducible rfl) | (simp [apply_ite State.pending]; done) | split | (rw [State.foldl_pending]) | intro))

@[simp] theorem State.bootSeed_pending (s : State) : (State.bootSeed s).pending = s.pending := by
  unfold State.bootSeed
  first
  | (simp [apply_ite State.pending]; done)
  | ((try dsimp only); repeat' (first | (with_reducible rfl) | (simp [apply_ite State.pending]; done) | split | (rw [State.foldl_pending]) | intro))

@[simp] theorem State.safetySeedEvent_pending (s : State) (f : Nat × Nat × Nat) (repaired : Bool) : (State.safetySeedEvent s f repaired).pending = s.pending := by
  unfold State.safetySeedEvent
  first
  | (simp [apply_ite State.pending]; done)
  | ((try dsimp only); repeat' (first | (with_reducible rfl) | (simp [apply_ite State.pending]; done) | split | (rw [State.foldl_pending]) | intro))

@[simp] theorem State.safetySeedCheck_pending (s : State) : (State.safetySeedCheck s).pending = s.pending := by
  unfold State.safetySeedCheck
  first
  | (simp [apply_ite State.pending]; done)
  | ((try dsimp only); repeat' (first | (with_reducible rfl) | (simp [apply_ite State.pending]; done) | split | (rw [State.foldl_pending]) | intro))

@[simp] theorem State.closeSegment_pending (s : State) : (State.closeSegment s).pending = s.pending := by
  unfold State.closeSegment
  first
  | (simp [apply_ite State.pending]; done)
  | ((try dsimp only); repeat' (first | (with_reducible rfl) | (simp [apply_ite State.pending]; done) | split | (rw [State.foldl_pending]) | intro))

@[simp] theorem State.romBoot_pending (s : State) (cold : Bool) : (State.romBoot s cold).pending = s.pending := by
  unfold State.romBoot
  first
  | (simp [apply_ite State.pending]; done)
  | ((try dsimp only); repeat' (first | (with_reducible rfl) | (simp [apply_ite State.pending]; done) | split | (rw [State.foldl_pending]) | intro))

@[simp] theorem State.warmReset_pending (s : State) : (State.warmReset s).pending = s.pending := by
  unfold State.warmReset
  first
  | (simp [apply_ite State.pending]; done)
  | ((try dsimp only); repeat' (first | (with_reducible rfl) | (simp [apply_ite State.pending]; done) | split | (rw [State.foldl_pending]) | intro))

@[simp] theorem State.powerUp_pending (s : State) : (State.powerUp s).pending = s.pending := by
  unfold State.powerUp
  first
  | (simp [apply_ite State.pending]; done)
  | ((try dsimp only); repeat' (first | (with_reducible rfl) | (simp [apply_ite State.pending]; done) | split | (rw [State.foldl_pending]) | intro))

@[simp] theorem State.powerDown_pending (s : State) : (State.powerDown s).pending = s.pending := by
  unfold State.powerDown
  first
  | (simp [apply_ite State.pending]; done)
  | ((try dsimp only); repeat' (first | (with_reducible rfl) | (simp [apply_ite State.pending]; done) | split | (rw [State.foldl_pending]) | (rw [State.foldl_snd_pending]) | (rw [State.foldl_fst_pending]) | intro))

@[simp] theorem State.dip_pending (s : State) : (State.dip s).pending = s.pending := by
  unfold State.dip
  first
  | (simp [apply_ite State.pending]; done)
  | ((try dsimp only); repeat' (first | (with_reducible rfl) | (simp [apply_ite State.pending]; done) | split | (rw [State.foldl_pending]) | intro))

@[simp] theorem State.mainsOut_pending (s : State) (us : Nat) (overVolt : Bool) : (State.mainsOut s us overVolt).pending = s.pending := by
  unfold State.mainsOut
  first
  | (simp [apply_ite State.pending]; done)
  | ((try dsimp only); repeat' (first | (with_reducible rfl) | (simp [apply_ite State.pending]; done) | split | (rw [State.foldl_pending]) | intro))

@[simp] theorem State.auxTrip_pending (s : State) (us : Nat) : (State.auxTrip s us).pending = s.pending := by
  unfold State.auxTrip
  first
  | (simp [apply_ite State.pending]; done)
  | ((try dsimp only); repeat' (first | (with_reducible rfl) | (simp [apply_ite State.pending]; done) | split | (rw [State.foldl_pending]) | intro))

@[simp] theorem State.auxBack_pending (s : State) : (State.auxBack s).pending = s.pending := by
  unfold State.auxBack
  first
  | (simp [apply_ite State.pending]; done)
  | ((try dsimp only); repeat' (first | (with_reducible rfl) | (simp [apply_ite State.pending]; done) | split | (rw [State.foldl_pending]) | intro))

@[simp] theorem State.resetAssert_pending (s : State) (ns : Nat) : (State.resetAssert s ns).pending = s.pending := by
  unfold State.resetAssert
  first
  | (simp [apply_ite State.pending]; done)
  | ((try dsimp only); repeat' (first | (with_reducible rfl) | (simp [apply_ite State.pending]; done) | split | (rw [State.foldl_pending]) | intro))

@[simp] theorem State.resetRelease_pending (s : State) : (State.resetRelease s).pending = s.pending := by
  unfold State.resetRelease
  first
  | (simp [apply_ite State.pending]; done)
  | ((try dsimp only); repeat' (first | (with_reducible rfl) | (simp [apply_ite State.pending]; done) | split | (rw [State.foldl_pending]) | intro))

@[simp] theorem State.firmwareUp_pending (s : State) : (State.firmwareUp s).pending = s.pending := by
  unfold State.firmwareUp
  first
  | (simp [apply_ite State.pending]; done)
  | ((try dsimp only); repeat' (first | (with_reducible rfl) | (simp [apply_ite State.pending]; done) | split | (rw [State.foldl_pending]) | intro))

@[simp] theorem State.seedLoaded_pending (s : State) (t : Trunk) : (State.seedLoaded s t).pending = s.pending := by
  unfold State.seedLoaded
  first
  | (simp [apply_ite State.pending]; done)
  | ((try dsimp only); repeat' (first | (with_reducible rfl) | (simp [apply_ite State.pending]; done) | split | (rw [State.foldl_pending]) | intro))

@[simp] theorem State.graftPair_pending (s : State) (t : Trunk) (x : GraftTx) : (State.graftPair s t x).pending = s.pending := by
  unfold State.graftPair
  first
  | (simp [apply_ite State.pending]; done)
  | ((try dsimp only); repeat' (first | (with_reducible rfl) | (simp [apply_ite State.pending]; done) | split | (rw [State.foldl_pending]) | intro))

@[simp] theorem State.graftRequest_pending (s : State) (i : Nat) (core : Option Trunk) (x : GraftTx) : (State.graftRequest s i core x).pending = s.pending := by
  unfold State.graftRequest
  first
  | (simp [apply_ite State.pending]; done)
  | ((try dsimp only); repeat' (first | (with_reducible rfl) | (simp [apply_ite State.pending]; done) | split | (rw [State.foldl_pending]) | intro))

@[simp] theorem State.graftAnswer_pending (s : State) (tag : Nat) (a : GraftAnswer) : (State.graftAnswer s tag a).pending = s.pending := by
  unfold State.graftAnswer
  first
  | (simp [apply_ite State.pending]; done)
  | ((try dsimp only); repeat' (first | (with_reducible rfl) | (simp [apply_ite State.pending]; done) | split | (rw [State.foldl_pending]) | intro))

@[simp] theorem State.graftAgain_pending (s : State) (tag : Nat) : (State.graftAgain s tag).pending = s.pending := by
  unfold State.graftAgain
  first
  | (simp [apply_ite State.pending]; done)
  | ((try dsimp only); repeat' (first | (with_reducible rfl) | (simp [apply_ite State.pending]; done) | split | (rw [State.foldl_pending]) | intro))

@[simp] theorem State.graftLate_pending (s : State) (tag : Nat) : (State.graftLate s tag).pending = s.pending := by
  unfold State.graftLate
  first
  | (simp [apply_ite State.pending]; done)
  | ((try dsimp only); repeat' (first | (with_reducible rfl) | (simp [apply_ite State.pending]; done) | split | (rw [State.foldl_pending]) | intro))

@[simp] theorem State.graftAbort_pending (s : State) (x : GraftTx) : (State.graftAbort s x).pending = s.pending := by
  unfold State.graftAbort
  first
  | (simp [apply_ite State.pending]; done)
  | ((try dsimp only); repeat' (first | (with_reducible rfl) | (simp [apply_ite State.pending]; done) | split | (rw [State.foldl_pending]) | intro))

@[simp] theorem State.graftInbound_pending (s : State) (pos : Nat) (m : GraftMsg) : (State.graftInbound s pos m).pending = s.pending := by
  unfold State.graftInbound
  first
  | (simp [apply_ite State.pending]; done)
  | ((try dsimp only); repeat' (first | (with_reducible rfl) | (simp [apply_ite State.pending]; done) | split | (rw [State.foldl_pending]) | intro))

@[simp] theorem State.graftMessage_pending (s : State) (pos : Nat) (m : GraftMsg) : (State.graftMessage s pos m).pending = s.pending := by
  unfold State.graftMessage
  first
  | (simp [apply_ite State.pending]; done)
  | ((try dsimp only); repeat' (first | (with_reducible rfl) | (simp [apply_ite State.pending]; done) | split | (rw [State.foldl_pending]) | intro))

@[simp] theorem State.graftReissue_pending (s : State) (tag : Nat) : (State.graftReissue s tag).pending = s.pending := by
  unfold State.graftReissue
  first
  | (simp [apply_ite State.pending]; done)
  | ((try dsimp only); repeat' (first | (with_reducible rfl) | (simp [apply_ite State.pending]; done) | split | (rw [State.foldl_pending]) | intro))

@[simp] theorem State.graftAttr_pending (s : State) (r : Nat) (v : Word) : (State.graftAttr s r v).pending = s.pending := by
  unfold State.graftAttr
  first
  | (simp [apply_ite State.pending]; done)
  | ((try dsimp only); repeat' (first | (with_reducible rfl) | (simp [apply_ite State.pending]; done) | split | (rw [State.foldl_pending]) | intro))

@[simp] theorem State.calStale_pending (s : State) : (State.calStale s).pending = s.pending := by
  unfold State.calStale
  first
  | (simp [apply_ite State.pending]; done)
  | ((try dsimp only); repeat' (first | (with_reducible rfl) | (simp [apply_ite State.pending]; done) | split | (rw [State.foldl_pending]) | (rw [State.foldl_snd_pending]) | (rw [State.foldl_fst_pending]) | intro))

@[simp] theorem State.trunksOff_pending (s : State) : (State.trunksOff s).pending = s.pending := by
  unfold State.trunksOff
  first
  | (simp [apply_ite State.pending]; done)
  | ((try dsimp only); repeat' (first | (with_reducible rfl) | (simp [apply_ite State.pending]; done) | split | (rw [State.foldl_pending]) | intro))

@[simp] theorem State.tempRegs_pending (s : State) (base : Int) (dieA : Int) (dieB : Int) (dieRoot : Int) : (State.tempRegs s base dieA dieB dieRoot).pending = s.pending := by
  unfold State.tempRegs
  first
  | (simp [apply_ite State.pending]; done)
  | ((try dsimp only); repeat' (first | (with_reducible rfl) | (simp [apply_ite State.pending]; done) | split | (rw [State.foldl_pending]) | intro))

@[simp] theorem State.thermalSample_pending (s : State) (base : Int) (dieA : Int) (dieB : Int) (dieRoot : Int) : (State.thermalSample s base dieA dieB dieRoot).pending = s.pending := by
  unfold State.thermalSample
  first
  | (simp [apply_ite State.pending]; done)
  | ((try dsimp only); repeat' (first | (with_reducible rfl) | (simp [apply_ite State.pending]; done) | split | (rw [State.foldl_pending]) | intro))

@[simp] theorem State.throttle_pending (s : State) (on : Bool) : (State.throttle s on).pending = s.pending := by
  unfold State.throttle
  first
  | (simp [apply_ite State.pending]; done)
  | ((try dsimp only); repeat' (first | (with_reducible rfl) | (simp [apply_ite State.pending]; done) | split | (rw [State.foldl_pending]) | intro))

@[simp] theorem State.throttleOn_pending (s : State) : (State.throttleOn s).pending = s.pending := by
  unfold State.throttleOn
  first
  | (simp [apply_ite State.pending]; done)
  | ((try dsimp only); repeat' (first | (with_reducible rfl) | (simp [apply_ite State.pending]; done) | split | (rw [State.foldl_pending]) | intro))

@[simp] theorem State.throttleOff_pending (s : State) : (State.throttleOff s).pending = s.pending := by
  unfold State.throttleOff
  first
  | (simp [apply_ite State.pending]; done)
  | ((try dsimp only); repeat' (first | (with_reducible rfl) | (simp [apply_ite State.pending]; done) | split | (rw [State.foldl_pending]) | intro))

@[simp] theorem State.thermalBack_pending (s : State) : (State.thermalBack s).pending = s.pending := by
  unfold State.thermalBack
  first
  | (simp [apply_ite State.pending]; done)
  | ((try dsimp only); repeat' (first | (with_reducible rfl) | (simp [apply_ite State.pending]; done) | split | (rw [State.foldl_pending]) | intro))

@[simp] theorem State.moduleFault_pending (s : State) (switchCore : Bool) : (State.moduleFault s switchCore).pending = s.pending := by
  unfold State.moduleFault
  first
  | (simp [apply_ite State.pending]; done)
  | ((try dsimp only); repeat' (first | (with_reducible rfl) | (simp [apply_ite State.pending]; done) | split | (rw [State.foldl_pending]) | intro))

@[simp] theorem State.lifeDone_pending (s : State) (h : StemHdr) (op : Nat) (code : Nat) : (State.lifeDone s h op code).pending = s.pending := by
  unfold State.lifeDone
  first
  | (simp [apply_ite State.pending]; done)
  | ((try dsimp only); repeat' (first | (with_reducible rfl) | (simp [apply_ite State.pending]; done) | split | (rw [State.foldl_pending]) | intro))

@[simp] theorem State.signedCmd_pending (s : State) (h : StemHdr) (op : Nat) (p : List Byte) (f : State → State) (hf : ∀ x0, (f x0).pending = x0.pending) : (State.signedCmd s h op p f).pending = s.pending := by
  unfold State.signedCmd
  first
  | (simp [apply_ite State.pending, hf]; done)
  | ((try dsimp only); repeat' (first | (with_reducible rfl) | (simp [apply_ite State.pending, hf]; done) | split | (rw [State.foldl_pending]) | intro))

@[simp] theorem State.lifeProvision_pending (s : State) (h : StemHdr) (key : List Byte) : (State.lifeProvision s h key).pending = s.pending := by
  unfold State.lifeProvision
  first
  | (simp [apply_ite State.pending]; done)
  | ((try dsimp only); repeat' (first | (with_reducible rfl) | (simp [apply_ite State.pending]; done) | split | (rw [State.foldl_pending]) | intro))

@[simp] theorem State.lifeRekey_pending (s : State) (h : StemHdr) (p : List Byte) : (State.lifeRekey s h p).pending = s.pending := by
  unfold State.lifeRekey
  first
  | (simp [apply_ite State.pending]; done)
  | ((try dsimp only); repeat' (first | (with_reducible rfl) | (simp [apply_ite State.pending]; done) | split | (rw [State.foldl_pending]) | intro))

@[simp] theorem State.lifeService_pending (s : State) (h : StemHdr) (leave : Bool) (p : List Byte) : (State.lifeService s h leave p).pending = s.pending := by
  unfold State.lifeService
  first
  | (simp [apply_ite State.pending]; done)
  | ((try dsimp only); repeat' (first | (with_reducible rfl) | (simp [apply_ite State.pending]; done) | split | (rw [State.foldl_pending]) | intro))

@[simp] theorem State.scrap_pending (s : State) (h : StemHdr) : (State.scrap s h).pending = s.pending := by
  unfold State.scrap
  first
  | (simp [apply_ite State.pending]; done)
  | ((try dsimp only); repeat' (first | (with_reducible rfl) | (simp [apply_ite State.pending]; done) | split | (rw [State.foldl_pending]) | intro))

@[simp] theorem State.lifeScrap_pending (s : State) (h : StemHdr) (p : List Byte) : (State.lifeScrap s h p).pending = s.pending := by
  unfold State.lifeScrap
  first
  | (simp [apply_ite State.pending]; done)
  | ((try dsimp only); repeat' (first | (with_reducible rfl) | (simp [apply_ite State.pending]; done) | split | (rw [State.foldl_pending]) | intro))

@[simp] theorem State.bistRun_pending (s : State) (h : StemHdr) (kind : Nat) (trunk : Nat) (index : Nat) (pattern : Nat) (ms : Nat) : (State.bistRun s h kind trunk index pattern ms).pending = s.pending := by
  unfold State.bistRun
  first
  | (simp [apply_ite State.pending]; done)
  | ((try dsimp only); repeat' (first | (with_reducible rfl) | (simp [apply_ite State.pending]; done) | split | (rw [State.foldl_pending]) | intro))

@[simp] theorem State.bistEnd_pending (s : State) (errors : Nat) (bits : Nat) (eye : Nat) (restored : Bool) : (State.bistEnd s errors bits eye restored).pending = s.pending := by
  unfold State.bistEnd
  first
  | (simp [apply_ite State.pending]; done)
  | ((try dsimp only); repeat' (first | (with_reducible rfl) | (simp [apply_ite State.pending]; done) | split | (rw [State.foldl_pending]) | intro))

@[simp] theorem State.vectorPass_pending (s : State) (t : Trunk) (pass : Bool) : (State.vectorPass s t pass).pending = s.pending := by
  unfold State.vectorPass
  first
  | (simp [apply_ite State.pending]; done)
  | ((try dsimp only); repeat' (first | (with_reducible rfl) | (simp [apply_ite State.pending]; done) | split | (rw [State.foldl_pending]) | intro))

@[simp] theorem State.laneError_pending (s : State) (t : Trunk) (bits : Nat) : (State.laneError s t bits).pending = s.pending := by
  unfold State.laneError
  first
  | (simp [apply_ite State.pending]; done)
  | ((try dsimp only); repeat' (first | (with_reducible rfl) | (simp [apply_ite State.pending]; done) | split | (rw [State.foldl_pending]) | intro))

@[simp] theorem State.laneQuiet_pending (s : State) (t : Trunk) : (State.laneQuiet s t).pending = s.pending := by
  unfold State.laneQuiet
  first
  | (simp [apply_ite State.pending]; done)
  | ((try dsimp only); repeat' (first | (with_reducible rfl) | (simp [apply_ite State.pending]; done) | split | (rw [State.foldl_pending]) | intro))

@[simp] theorem State.calBegin_pending (y1 : Nat) (y2 : State) : (State.calBegin y1 y2).pending = y2.pending := by
  induction y1 generalizing y2 with
  | zero => rfl
  | succ y1 ih =>
    unfold State.calBegin
    try dsimp only
    repeat' (first | (with_reducible rfl) | (simp [ih]; done) | split)

@[simp] theorem State.calRun_pending (s : State) (h : StemHdr) (item : Nat) (index : Nat) (skew : Int) : (State.calRun s h item index skew).pending = s.pending := by
  unfold State.calRun
  first
  | (simp [apply_ite State.pending]; done)
  | ((try dsimp only); repeat' (first | (with_reducible rfl) | (simp [apply_ite State.pending]; done) | split | (rw [State.foldl_pending]) | intro))

@[simp] theorem State.calEnd_pending (s : State) (c : CalRun) (code : Nat) : (State.calEnd s c code).pending = s.pending := by
  unfold State.calEnd
  first
  | (simp [apply_ite State.pending]; done)
  | ((try dsimp only); repeat' (first | (with_reducible rfl) | (simp [apply_ite State.pending]; done) | split | (rw [State.foldl_pending]) | intro))

@[simp] theorem State.calPass_pending (s : State) (c : CalRun) (resE : Int) (resI : Int) : (State.calPass s c resE resI).pending = s.pending := by
  unfold State.calPass
  first
  | (simp [apply_ite State.pending]; done)
  | ((try dsimp only); repeat' (first | (with_reducible rfl) | (simp [apply_ite State.pending]; done) | split | (rw [State.foldl_pending]) | intro))

@[simp] theorem State.calPhase_pending (s : State) (c : CalRun) : (State.calPhase s c).pending = s.pending := by
  unfold State.calPhase
  first
  | (simp [apply_ite State.pending]; done)
  | ((try dsimp only); repeat' (first | (with_reducible rfl) | (simp [apply_ite State.pending]; done) | split | (rw [State.foldl_pending]) | intro))

@[simp] theorem State.calSample_pending (s : State) (egress : Int) (ingress : Int) (errors : Nat) : (State.calSample s egress ingress errors).pending = s.pending := by
  unfold State.calSample
  first
  | (simp [apply_ite State.pending]; done)
  | ((try dsimp only); repeat' (first | (with_reducible rfl) | (simp [apply_ite State.pending]; done) | split | (rw [State.foldl_pending]) | intro))

@[simp] theorem State.calLate_pending (s : State) : (State.calLate s).pending = s.pending := by
  unfold State.calLate
  first
  | (simp [apply_ite State.pending]; done)
  | ((try dsimp only); repeat' (first | (with_reducible rfl) | (simp [apply_ite State.pending]; done) | split | (rw [State.foldl_pending]) | intro))

@[simp] theorem State.axisWrite_pending (s : State) (a : Nat) (v : Word) : (State.axisWrite s a v).pending = s.pending := by
  unfold State.axisWrite
  first
  | (simp [apply_ite State.pending]; done)
  | ((try dsimp only); repeat' (first | (with_reducible rfl) | (simp [apply_ite State.pending]; done) | split | (rw [State.foldl_pending]) | intro))

@[simp] theorem State.ringCfg_pending (s : State) (r : Nat) (v : Word) : (State.ringCfg s r v).pending = s.pending := by
  unfold State.ringCfg
  first
  | (simp [apply_ite State.pending]; done)
  | ((try dsimp only); repeat' (first | (with_reducible rfl) | (simp [apply_ite State.pending]; done) | split | (rw [State.foldl_pending]) | intro))

@[simp] theorem State.stemWrite_pending (s : State) (a : Nat) (v : Word) : (State.stemWrite s a v).pending = s.pending := by
  unfold State.stemWrite
  first
  | (simp [apply_ite State.pending]; done)
  | ((try dsimp only); repeat' (first | (with_reducible rfl) | (simp [apply_ite State.pending]; done) | split | (rw [State.foldl_pending]) | intro))

@[simp] theorem State.logWrite_pending (s : State) (f : Field) (v : Nat) (lo : Int) (hi : Int) : (State.logWrite s f v lo hi).pending = s.pending := by
  unfold State.logWrite
  first
  | (simp [apply_ite State.pending]; done)
  | ((try dsimp only); repeat' (first | (with_reducible rfl) | (simp [apply_ite State.pending]; done) | split | (rw [State.foldl_pending]) | intro))

@[simp] theorem State.intvWrite_pending (s : State) (i : Nat) (v : Nat) : (State.intvWrite s i v).pending = s.pending := by
  unfold State.intvWrite
  first
  | (simp [apply_ite State.pending]; done)
  | ((try dsimp only); repeat' (first | (with_reducible rfl) | (simp [apply_ite State.pending]; done) | split | (rw [State.foldl_pending]) | intro))

@[simp] theorem State.timeWrite_pending (s : State) (a : Nat) (v : Word) : (State.timeWrite s a v).pending = s.pending := by
  unfold State.timeWrite
  first
  | (simp [apply_ite State.pending]; done)
  | ((try dsimp only); repeat' (first | (with_reducible rfl) | (simp [apply_ite State.pending]; done) | split | (rw [State.foldl_pending]) | intro))

@[simp] theorem State.cmpWrite_pending (s : State) (v : Word) : (State.cmpWrite s v).pending = s.pending := by
  unfold State.cmpWrite
  first
  | (simp [apply_ite State.pending]; done)
  | ((try dsimp only); repeat' (first | (with_reducible rfl) | (simp [apply_ite State.pending]; done) | split | (rw [State.foldl_pending]) | intro))

@[simp] theorem State.chkWrite_pending (s : State) (a : Nat) (n : Nat) (v : Word) : (State.chkWrite s a n v).pending = s.pending := by
  unfold State.chkWrite
  first
  | (simp [apply_ite State.pending]; done)
  | ((try dsimp only); repeat' (first | (with_reducible rfl) | (simp [apply_ite State.pending]; done) | split | (rw [State.foldl_pending]) | intro))

@[simp] theorem State.calWrite_pending (s : State) (a : Nat) (v : Word) : (State.calWrite s a v).pending = s.pending := by
  unfold State.calWrite
  first
  | (simp [apply_ite State.pending]; done)
  | ((try dsimp only); repeat' (first | (with_reducible rfl) | (simp [apply_ite State.pending]; done) | split | (rw [State.foldl_pending]) | intro))

@[simp] theorem State.rootWrite_pending (s : State) (a : Nat) (v : Word) : (State.rootWrite s a v).pending = s.pending := by
  unfold State.rootWrite
  first
  | (simp [apply_ite State.pending]; done)
  | ((try dsimp only); repeat' (first | (with_reducible rfl) | (simp [apply_ite State.pending]; done) | split | (rw [State.foldl_pending]) | intro))

@[simp] theorem State.icuWrite_pending (s : State) (t : Trunk) (off : Nat) (v : Word) : (State.icuWrite s t off v).pending = s.pending := by
  unfold State.icuWrite
  first
  | (simp [apply_ite State.pending]; done)
  | ((try dsimp only); repeat' (first | (with_reducible rfl) | (simp [apply_ite State.pending]; done) | split | (rw [State.foldl_pending]) | intro))

@[simp] theorem State.guestWrite_pending (s : State) (t : Trunk) (c : Nat) (off : Nat) (v : Word) : (State.guestWrite s t c off v).pending = s.pending := by
  unfold State.guestWrite
  first
  | (simp [apply_ite State.pending]; done)
  | ((try dsimp only); repeat' (first | (with_reducible rfl) | (simp [apply_ite State.pending]; done) | split | (rw [State.foldl_pending]) | intro))

@[simp] theorem State.trunkWrite_pending (s : State) (t : Trunk) (off : Nat) (v : Word) : (State.trunkWrite s t off v).pending = s.pending := by
  unfold State.trunkWrite
  first
  | (simp [apply_ite State.pending]; done)
  | ((try dsimp only); repeat' (first | (with_reducible rfl) | (simp [apply_ite State.pending]; done) | split | (rw [State.foldl_pending]) | intro))

@[simp] theorem State.keepSet_pending (s0 : State) (s : State) (a : Nat) : (State.keepSet s0 s a).pending = s.pending := by
  unfold State.keepSet
  first
  | (simp [apply_ite State.pending]; done)
  | ((try dsimp only); repeat' (first | (with_reducible rfl) | (simp [apply_ite State.pending]; done) | split | (rw [State.foldl_pending]) | (rw [State.foldl_snd_pending]) | (rw [State.foldl_fst_pending]) | intro))

@[simp] theorem State.rootStore_pending (s : State) (a : Nat) (v : Word) : (State.rootStore s a v).pending = s.pending := by
  unfold State.rootStore
  first
  | (simp [apply_ite State.pending]; done)
  | ((try dsimp only); repeat' (first | (with_reducible rfl) | (simp [apply_ite State.pending]; done) | split | (rw [State.foldl_pending]) | intro))

@[simp] theorem State.trunkStore_pending (s : State) (t : Trunk) (off : Nat) (v : Word) : (State.trunkStore s t off v).pending = s.pending := by
  unfold State.trunkStore
  first
  | (simp [apply_ite State.pending]; done)
  | ((try dsimp only); repeat' (first | (with_reducible rfl) | (simp [apply_ite State.pending]; done) | split | (rw [State.foldl_pending]) | intro))

@[simp] theorem State.wordWrite_pending (s : State) (a : Nat) (v : Word) : (State.wordWrite s a v).pending = s.pending := by
  unfold State.wordWrite
  first
  | (simp [apply_ite State.pending]; done)
  | ((try dsimp only); repeat' (first | (with_reducible rfl) | (simp [apply_ite State.pending]; done) | split | (rw [State.foldl_pending]) | intro))

@[simp] theorem State.busWrite_pending (s : State) (a : Nat) (v : Word) : (State.busWrite s a v).pending = s.pending := by
  unfold State.busWrite
  first
  | (simp [apply_ite State.pending]; done)
  | ((try dsimp only); repeat' (first | (with_reducible rfl) | (simp [apply_ite State.pending]; done) | split | (rw [State.foldl_pending]) | intro))

@[simp] theorem State.readClear_pending (s : State) (b : Nat) : (State.readClear s b).pending = s.pending := by
  unfold State.readClear
  first
  | (simp [apply_ite State.pending]; done)
  | ((try dsimp only); repeat' (first | (with_reducible rfl) | (simp [apply_ite State.pending]; done) | split | (rw [State.foldl_pending]) | intro))

@[simp] theorem State.readLatch_pending (s : State) (b : Nat) : (State.readLatch s b).pending = s.pending := by
  unfold State.readLatch
  first
  | (simp [apply_ite State.pending]; done)
  | ((try dsimp only); repeat' (first | (with_reducible rfl) | (simp [apply_ite State.pending]; done) | split | (rw [State.foldl_pending]) | intro))

@[simp] theorem State.clearTwin_pending (s : State) (f : State → Nat → State) (a : Nat) (b : Nat) (hf : ∀ x0 x1, (f x0 x1).pending = x0.pending) : (State.clearTwin s f a b).pending = s.pending := by
  unfold State.clearTwin
  first
  | (simp [apply_ite State.pending, hf]; done)
  | ((try dsimp only); repeat' (first | (with_reducible rfl) | (simp [apply_ite State.pending, hf]; done) | split | (rw [State.foldl_pending]) | intro))

@[simp] theorem State.wordRead_pending (s : State) (a : Nat) : (State.wordRead s a).pending = s.pending := by
  unfold State.wordRead
  first
  | (simp [apply_ite State.pending]; done)
  | ((try dsimp only); repeat' (first | (with_reducible rfl) | (simp [apply_ite State.pending]; done) | split | (rw [State.foldl_pending]) | intro))

@[simp] theorem State.eventsAt_pending (v : Word) (s : State) (b : Nat) : (State.eventsAt v s b).pending = s.pending := by
  unfold State.eventsAt
  first
  | (simp [apply_ite State.pending]; done)
  | ((try dsimp only); repeat' (first | (with_reducible rfl) | (simp [apply_ite State.pending]; done) | split | (rw [State.foldl_pending]) | intro))

@[simp] theorem State.eventsAfter_pending (s : State) (a : Nat) (v : Word) : (State.eventsAfter s a v).pending = s.pending := by
  unfold State.eventsAfter
  first
  | (simp [apply_ite State.pending]; done)
  | ((try dsimp only); repeat' (first | (with_reducible rfl) | (simp [apply_ite State.pending]; done) | split | (rw [State.foldl_pending]) | intro))

@[simp] theorem State.issueWrites_pending (s : State) : (State.issueWrites s).pending = s.pending := by
  unfold State.issueWrites
  first
  | (simp [apply_ite State.pending]; done)
  | ((try dsimp only); repeat' (first | (with_reducible rfl) | (simp [apply_ite State.pending]; done) | split | (rw [State.foldl_pending]) | (rw [State.foldl_snd_pending]) | (rw [State.foldl_fst_pending]) | intro))

@[simp] theorem State.barWrite_pending (s : State) (off : Nat) (v : Word) : (State.barWrite s off v).pending = s.pending := by
  unfold State.barWrite
  first
  | (simp [apply_ite State.pending]; done)
  | ((try dsimp only); repeat' (first | (with_reducible rfl) | (simp [apply_ite State.pending]; done) | split | (rw [State.foldl_pending]) | intro))

@[simp] theorem State.hostRead_pending (s : State) (bar : Bool) (addr : Nat) (events : Word) : (State.hostRead s bar addr events).pending = s.pending := by
  unfold State.hostRead
  first
  | (simp [apply_ite State.pending]; done)
  | ((try dsimp only); repeat' (first | (with_reducible rfl) | (simp [apply_ite State.pending]; done) | split | (rw [State.foldl_pending]) | intro))

@[simp] theorem State.readReg_pending (s : State) (h : StemHdr) (addr : Nat) (len : Nat) : (State.readReg s h addr len).pending = s.pending := by
  unfold State.readReg
  first
  | (simp [apply_ite State.pending]; done)
  | ((try dsimp only); repeat' (first | (with_reducible rfl) | (simp [apply_ite State.pending]; done) | split | (rw [State.foldl_pending]) | (rw [State.foldl_snd_pending]) | (rw [State.foldl_fst_pending]) | intro))

@[simp] theorem State.writeReg_pending (s : State) (h : StemHdr) (addr : Nat) (data : List Word) : (State.writeReg s h addr data).pending = s.pending := by
  unfold State.writeReg
  first
  | (simp [apply_ite State.pending]; done)
  | ((try dsimp only); repeat' (first | (with_reducible rfl) | (simp [apply_ite State.pending]; done) | split | (rw [State.foldl_pending]) | (rw [State.foldl_snd_pending]) | (rw [State.foldl_fst_pending]) | intro))

@[simp] theorem State.graftMem_pending (s : State) (h : StemHdr) (write : Bool) (addr : Nat) (len : Nat) (data : List Byte) : (State.graftMem s h write addr len data).pending = s.pending := by
  unfold State.graftMem
  first
  | (simp [apply_ite State.pending]; done)
  | ((try dsimp only); repeat' (first | (with_reducible rfl) | (simp [apply_ite State.pending]; done) | split | (rw [State.foldl_pending]) | intro))

@[simp] theorem State.readMem_pending (s : State) (h : StemHdr) (addr : Nat) (len : Nat) : (State.readMem s h addr len).pending = s.pending := by
  unfold State.readMem
  first
  | (simp [apply_ite State.pending]; done)
  | ((try dsimp only); repeat' (first | (with_reducible rfl) | (simp [apply_ite State.pending]; done) | split | (rw [State.foldl_pending]) | intro))

@[simp] theorem State.writeMem_pending (s : State) (h : StemHdr) (addr : Nat) (data : List Byte) : (State.writeMem s h addr data).pending = s.pending := by
  unfold State.writeMem
  first
  | (simp [apply_ite State.pending]; done)
  | ((try dsimp only); repeat' (first | (with_reducible rfl) | (simp [apply_ite State.pending]; done) | split | (rw [State.foldl_pending]) | intro))

@[simp] theorem State.countRef_pending (s : State) (n : Nat) (ready : Bool) (p : Nat) (adv : Nat) : (State.countRef s n ready p adv).pending = s.pending := by
  unfold State.countRef
  first
  | (simp [apply_ite State.pending]; done)
  | ((try dsimp only); repeat' (first | (with_reducible rfl) | (simp [apply_ite State.pending]; done) | split | (rw [State.foldl_pending]) | intro))

@[simp] theorem State.frameStart_pending (s : State) (n : Nat) (at_ : Nat) (k : Nat) (off : Int) : (State.frameStart s n at_ k off).pending = s.pending := by
  unfold State.frameStart
  first
  | (simp [apply_ite State.pending]; done)
  | ((try dsimp only); repeat' (first | (with_reducible rfl) | (simp [apply_ite State.pending]; done) | split | (rw [State.foldl_pending]) | intro))

@[simp] theorem State.videoEdge_pending (s : State) (n : Nat) (start : Bool) (lines : Nat) : (State.videoEdge s n start lines).pending = s.pending := by
  unfold State.videoEdge
  first
  | (simp [apply_ite State.pending]; done)
  | ((try dsimp only); repeat' (first | (with_reducible rfl) | (simp [apply_ite State.pending]; done) | split | (rw [State.foldl_pending]) | intro))

@[simp] theorem State.st2110In_pending (s : State) (n : Nat) (rtp : Nat) (k : Nat) : (State.st2110In s n rtp k).pending = s.pending := by
  unfold State.st2110In
  first
  | (simp [apply_ite State.pending]; done)
  | ((try dsimp only); repeat' (first | (with_reducible rfl) | (simp [apply_ite State.pending]; done) | split | (rw [State.foldl_pending]) | intro))

@[simp] theorem State.aesAxis_pending (s : State) (slot : Nat) (rtp : Nat) (n : Nat) : (State.aesAxis s slot rtp n).pending = s.pending := by
  unfold State.aesAxis
  first
  | (simp [apply_ite State.pending]; done)
  | ((try dsimp only); repeat' (first | (with_reducible rfl) | (simp [apply_ite State.pending]; done) | split | (rw [State.foldl_pending]) | intro))

@[simp] theorem State.aesIn_pending (s : State) (slot : Nat) (rtp : Nat) : (State.aesIn s slot rtp).pending = s.pending := by
  unfold State.aesIn
  first
  | (simp [apply_ite State.pending]; done)
  | ((try dsimp only); repeat' (first | (with_reducible rfl) | (simp [apply_ite State.pending]; done) | split | (rw [State.foldl_pending]) | intro))

@[simp] theorem State.wclkIn_pending (s : State) (n : Nat) : (State.wclkIn s n).pending = s.pending := by
  unfold State.wclkIn
  first
  | (simp [apply_ite State.pending]; done)
  | ((try dsimp only); repeat' (first | (with_reducible rfl) | (simp [apply_ite State.pending]; done) | split | (rw [State.foldl_pending]) | intro))

@[simp] theorem State.ltcIn_pending (s : State) (n : Nat) (hh : Nat) (mm : Nat) (ss : Nat) (ff : Nat) (readable : Bool) : (State.ltcIn s n hh mm ss ff readable).pending = s.pending := by
  unfold State.ltcIn
  first
  | (simp [apply_ite State.pending]; done)
  | ((try dsimp only); repeat' (first | (with_reducible rfl) | (simp [apply_ite State.pending]; done) | split | (rw [State.foldl_pending]) | intro))

end Sys2Proof.Machine
end

