-- ==== Sys2Proof/Laws/MemOk.lean ====
section
/-! SUPPORT. Memory: what a byte reads after a store, and that every operation that stores keeps the canonical form. -/

namespace Sys2Proof.Machine

set_option linter.unusedSimpArgs false

theorem memAbove_cons (x : Nat) (c : Host.Cell) (r : List Host.Cell) : memAbove x (c :: r) = true ↔ x < c.1 ∧ memAbove x r = true := by
  simp [memAbove]

theorem memAbove_put (l : List Host.Cell) (x a : Nat) (v : Byte) (h : memAbove x l = true) (hx : x < a) : memAbove x (memPut l a v) = true := by
  induction l with
  | nil => unfold memPut; split <;> simp [memAbove, hx]
  | cons c r ih =>
    obtain ⟨b, w⟩ := c
    have hc := (memAbove_cons x (b, w) r).1 h
    unfold memPut
    repeat' split
    all_goals first
      | exact h
      | exact hc.2
      | exact (memAbove_cons _ _ _).2 ⟨hx, h⟩
      | exact (memAbove_cons _ _ _).2 ⟨hx, hc.2⟩
      | exact (memAbove_cons _ _ _).2 ⟨hc.1, ih hc.2⟩

theorem memAbove_mono (l : List Host.Cell) (x y : Nat) (h : memAbove y l = true) (hx : x ≤ y) : memAbove x l = true := by
  simp only [memAbove, List.all_eq_true, decide_eq_true_eq] at *
  intro c hc; have := h c hc; omega

theorem memPut_wf (l : List Host.Cell) (a : Nat) (v : Byte) (h : memWf l = true) : memWf (memPut l a v) = true := by
  induction l with
  | nil => unfold memPut; split <;> simp_all [memWf, memAbove]
  | cons c r ih =>
    obtain ⟨b, w⟩ := c
    simp only [memWf, Bool.and_eq_true, decide_eq_true_eq] at h
    obtain ⟨⟨h1, h2⟩, h3⟩ := h
    unfold memPut
    split
    · split
      · simp [memWf, h1, h2, h3]
      · simp only [memWf, Bool.and_eq_true, decide_eq_true_eq]
        refine ⟨⟨?_, ‹_›⟩, ⟨h1, h2⟩, h3⟩
        simp only [memAbove, List.all_cons, Bool.and_eq_true, decide_eq_true_eq]
        exact ⟨‹_›, memAbove_mono r a b h1 (by omega)⟩
    · split
      · subst_vars
        split
        · exact h3
        · simp [memWf, h1, h3, *]
      · simp only [memWf, Bool.and_eq_true, decide_eq_true_eq]
        exact ⟨⟨memAbove_put r b a v h1 (by omega), h2⟩, ih h3⟩

theorem memPuts_wf (l : List Byte) (m : List Host.Cell) (a : Nat) (h : memWf m = true) : memWf (memPuts m a l) = true := by
  induction l generalizing m a with
  | nil => exact h
  | cons v r ih => exact ih _ _ (memPut_wf m a v h)

theorem memGet_above (m : List Host.Cell) (x b : Nat) (h : memAbove x m = true) (hb : b ≤ x) : memGet m b = memDefault := by
  induction m with
  | nil => rfl
  | cons c r ih =>
    obtain ⟨i, w⟩ := c
    have hc := (memAbove_cons x (i, w) r).1 h
    have : i ≠ b := by have := hc.1; simp only at this; omega
    simp only [memGet, if_neg this]
    exact ih hc.2

/-- A byte reads what was stored last. -/
theorem memGet_put (m : List Host.Cell) (a b : Nat) (v : Byte) (h : memWf m = true) : memGet (memPut m a v) b = if a = b then v else memGet m b := by
  induction m with
  | nil =>
    unfold memPut
    split <;> simp_all [memGet]
  | cons c r ih =>
    obtain ⟨i, w⟩ := c
    simp only [memWf, Bool.and_eq_true, decide_eq_true_eq] at h
    obtain ⟨⟨h1, h2⟩, h3⟩ := h
    have ih := ih h3
    unfold memPut
    by_cases hai : a < i
    · rw [if_pos hai]
      by_cases hv : v = memDefault
      · rw [if_pos hv]
        by_cases hab : a = b
        · subst hab hv
          rw [if_pos rfl]
          exact memGet_above _ a a ((memAbove_cons a (i, w) r).2 ⟨hai, memAbove_mono r a i h1 (by omega)⟩) (Nat.le_refl _)
        · rw [if_neg hab]
      · rw [if_neg hv]
        rfl
    · rw [if_neg hai]
      by_cases haei : a = i
      · subst haei
        rw [if_pos rfl]
        by_cases hv : v = memDefault
        · rw [if_pos hv]
          by_cases hab : a = b
          · subst hab hv
            rw [if_pos rfl]
            exact memGet_above r a a h1 (Nat.le_refl _)
          · rw [if_neg hab]
            simp [memGet, hab]
        · rw [if_neg hv]
          by_cases hab : a = b <;> simp [memGet, hab]
      · rw [if_neg haei]
        by_cases hib : i = b
        · subst hib
          simp [memGet, haei]
        · simp only [memGet, if_neg hib]
          exact ih

/-- A store of a byte string leaves every byte outside it. -/
theorem memGet_puts_out (l : List Byte) (m : List Host.Cell) (a b : Nat) (h : memWf m = true) (hb : b < a ∨ a + l.length ≤ b) :
    memGet (memPuts m a l) b = memGet m b := by
  induction l generalizing m a with
  | nil => rfl
  | cons v r ih =>
    simp only [List.length_cons] at hb
    rw [memPuts, ih _ _ (memPut_wf m a v h) (by omega), memGet_put m a b v h, if_neg (by omega)]

/-- A store of a byte string stores it. -/
theorem memGet_puts_in (l : List Byte) (m : List Host.Cell) (a i : Nat) (h : memWf m = true) (hi : i < l.length) :
    memGet (memPuts m a l) (a + i) = l[i] := by
  induction l generalizing m a i with
  | nil => simp at hi
  | cons v r ih =>
    cases i with
    | zero =>
      rw [memPuts, memGet_puts_out r _ _ _ (memPut_wf m a v h) (by omega), memGet_put m a (a + 0) v h]
      simp
    | succ i =>
      have e : a + (i + 1) = a + 1 + i := by omega
      rw [memPuts, e, ih _ _ _ (memPut_wf m a v h) (by simpa using hi)]
      simp

theorem memAbove_filter (l : List Host.Cell) (x : Nat) (p : Host.Cell → Bool) (h : memAbove x l = true) : memAbove x (l.filter p) = true := by
  simp only [memAbove, List.all_eq_true, decide_eq_true_eq, List.mem_filter] at *
  exact fun c hc => h c hc.1

theorem memZero_wf (m : List Host.Cell) (a n : Nat) (h : memWf m = true) : memWf (memZero m a n) = true := by
  unfold memZero
  induction m with
  | nil => rfl
  | cons c r ih =>
    simp only [memWf, Bool.and_eq_true, decide_eq_true_eq] at h
    rw [List.filter_cons]
    split
    · simp only [memWf, Bool.and_eq_true, decide_eq_true_eq]
      exact ⟨⟨memAbove_filter r c.1 _ h.1.1, h.1.2⟩, ih h.2⟩
    · exact ih h.2

theorem memFold_wf (l : List Host.Cell) (d : Nat) (m : List Host.Cell) (h : memWf m = true) :
    memWf (l.foldl (fun m c => memPut m (d + c.1) c.2) m) = true := by
  induction l generalizing m with
  | nil => exact h
  | cons c r ih => exact ih _ (memPut_wf m _ _ h)

@[simp] theorem State.foldl_memOk {α : Type} (f : State → α → State) (l : List α) (s : State) (h : ∀ s x, memWf s.mem = true → memWf (f s x).mem = true) (hs : memWf s.mem = true) :
    memWf (l.foldl f s).mem = true := by
  induction l generalizing s with
  | nil => exact hs
  | cons a r ih => exact ih _ (h _ _ hs)

theorem State.foldl_fst_memOk {α β : Type} (f : State × β → α → State × β) (l : List α) (a : State × β)
    (h : ∀ a x, memWf a.1.mem = true → memWf (f a x).1.mem = true) (hs : memWf a.1.mem = true) : memWf (l.foldl f a).1.mem = true := by
  induction l generalizing a with
  | nil => exact hs
  | cons x r ih => exact ih _ (h _ _ hs)

theorem State.memWrite_memOk (s : State) (a : Nat) (l : List Byte) (h : memWf s.mem = true) : memWf (s.memWrite a l).mem = true := memPuts_wf _ _ _ h
theorem State.memClear_memOk (s : State) (a n : Nat) (h : memWf s.mem = true) : memWf (s.memClear a n).mem = true := memZero_wf _ _ _ h
theorem State.memCopy_memOk (s : State) (src dst n : Nat) (h : memWf s.mem = true) : memWf (s.memCopy src dst n).mem = true := memFold_wf _ _ _ (memZero_wf _ _ _ h)

theorem State.onTrunks_memOk (s : State) (p : State → Trunk → Bool) (f : Trunk → State → State)
    (hf : ∀ t s, memWf s.mem = true → memWf (f t s).mem = true) (hm : memWf s.mem = true) : memWf (s.onTrunks p f).mem = true := by
  unfold State.onTrunks
  repeat' (first | (with_reducible assumption) | (with_reducible apply hf) | (dsimp only) | split)

theorem State.signedCmd_memOk (s : State) (h : StemHdr) (op : Nat) (p : List Byte) (f : State → State)
    (hf : ∀ s, memWf s.mem = true → memWf (f s).mem = true) (hm : memWf s.mem = true) : memWf (s.signedCmd h op p f).mem = true := by
  unfold State.signedCmd
  repeat' (first | (with_reducible assumption) | (with_reducible apply hf) | (simp [hm]; done) | (dsimp only) | split)

theorem State.stemCmd_memOk (s : State) (h : StemHdr) (op len : Nat) (read : Bool) (i : Instr) (f : State → State)
    (hf : ∀ s, memWf s.mem = true → memWf (f s).mem = true) (hm : memWf s.mem = true) : memWf (s.stemCmd h op len read i f).mem = true := by
  unfold State.stemCmd
  repeat' (first | (with_reducible assumption) | (with_reducible apply hf) | (simp [hm]; done) | (dsimp only) | split)

theorem State.wiped_memOk (s : State) (cold : Bool) (hm : memWf s.mem = true) : memWf (s.wiped cold).mem = true := by
  cases cold
  · exact hm
  · rfl
theorem State.guestLoad_memOk (s : State) (t : Trunk) (c : Nat) (hm : memWf s.mem = true) : memWf (State.guestLoad s t c).mem = true := by
  unfold State.guestLoad
  repeat' (first | (with_reducible assumption) | (with_reducible apply State.memWrite_memOk) | (with_reducible apply State.memClear_memOk) | (with_reducible rfl) | (intro _ _) | (intro _) | (simp [hm]; done) | (dsimp only) | split | simp)

theorem State.mirrorInto_memOk (s : State) (t : Trunk) (hm : memWf s.mem = true) : memWf (State.mirrorInto s t).mem = true := by
  unfold State.mirrorInto
  repeat' (first | (with_reducible assumption) | (with_reducible apply State.memCopy_memOk) | (with_reducible rfl) | (intro _ _) | (intro _) | (simp [hm]; done) | (dsimp only) | split | simp)

theorem State.passRole_memOk (s : State) (t : Trunk) (hm : memWf s.mem = true) : memWf (State.passRole s t).mem = true := by
  unfold State.passRole
  repeat' (first | (with_reducible assumption) | (with_reducible apply State.mirrorInto_memOk) | (with_reducible rfl) | (intro _ _) | (intro _) | (simp [hm]; done) | (dsimp only) | split | simp)

theorem State.leave_memOk (s : State) (t : Trunk) (cause : Nat) (hm : memWf s.mem = true) : memWf (State.leave s t cause).mem = true := by
  unfold State.leave
  repeat' (first | (with_reducible assumption) | (with_reducible apply State.passRole_memOk) | (with_reducible rfl) | (intro _ _) | (intro _) | (simp [hm]; done) | (dsimp only) | split | simp)

theorem State.yieldOn_memOk (s : State) (t : Trunk) (cause : Nat) (hm : memWf s.mem = true) : memWf (State.yieldOn s t cause).mem = true := by
  unfold State.yieldOn
  repeat' (first | (with_reducible assumption) | (with_reducible apply State.leave_memOk) | (with_reducible rfl) | (intro _ _) | (intro _) | (simp [hm]; done) | (dsimp only) | split | simp)

theorem State.yieldDue_memOk (s : State) (hm : memWf s.mem = true) : memWf (State.yieldDue s).mem = true := by
  unfold State.yieldDue
  repeat' (first | (with_reducible assumption) | (with_reducible apply State.leave_memOk) | (with_reducible rfl) | (intro _ _) | (intro _) | (simp [hm]; done) | (dsimp only) | split | simp)

theorem State.roundEnds_memOk (s : State) (hm : memWf s.mem = true) : memWf (State.roundEnds s).mem = true := by
  unfold State.roundEnds
  repeat' (first | (with_reducible assumption) | (with_reducible apply State.leave_memOk) | (with_reducible rfl) | (intro _ _) | (intro _) | (simp [hm]; done) | (dsimp only) | split | simp)

theorem State.settle_memOk (s : State) (hm : memWf s.mem = true) : memWf (State.settle s).mem = true := by
  unfold State.settle
  repeat' (first | (with_reducible assumption) | (with_reducible apply State.roundEnds_memOk) | (with_reducible apply State.foldl_memOk) | (with_reducible rfl) | (intro _ _) | (intro _) | (simp [hm]; done) | (dsimp only) | split | simp)

theorem State.vote_memOk (s : State) (t : Trunk) (code : Nat) (seq : Nat) (crc : BitVec 64) (hm : memWf s.mem = true) : memWf (State.vote s t code seq crc).mem = true := by
  unfold State.vote
  repeat' (first | (with_reducible assumption) | (with_reducible apply State.settle_memOk) | (with_reducible rfl) | (intro _ _) | (intro _) | (simp [hm]; done) | (dsimp only) | split | simp)

theorem State.votesLate_memOk (s : State) (hm : memWf s.mem = true) : memWf (State.votesLate s).mem = true := by
  unfold State.votesLate
  repeat' (first | (with_reducible assumption) | (with_reducible apply State.settle_memOk) | (with_reducible apply State.foldl_memOk) | (with_reducible rfl) | (intro _ _) | (intro _) | (simp [hm]; done) | (dsimp only) | split | simp)

theorem State.replay_memOk (s : State) (t : Trunk) (up : Bool) (lane : Nat) (hm : memWf s.mem = true) : memWf (State.replay s t up lane).mem = true := by
  unfold State.replay
  repeat' (first | (with_reducible assumption) | (with_reducible apply State.leave_memOk) | (with_reducible rfl) | (intro _ _) | (intro _) | (simp [hm]; done) | (dsimp only) | split | simp)

theorem State.parkOne_memOk (s : State) (t : Trunk) (cause : Nat) (hm : memWf s.mem = true) : memWf (State.parkOne s t cause).mem = true := by
  unfold State.parkOne
  repeat' (first | (with_reducible assumption) | (with_reducible apply State.passRole_memOk) | (with_reducible rfl) | (intro _ _) | (intro _) | (simp [hm]; done) | (dsimp only) | split | simp)

theorem State.failback_memOk (s : State) (t : Trunk) (hm : memWf s.mem = true) : memWf (State.failback s t).mem = true := by
  unfold State.failback
  repeat' (first | (with_reducible assumption) | (with_reducible apply State.mirrorInto_memOk) | (with_reducible rfl) | (intro _ _) | (intro _) | (simp [hm]; done) | (dsimp only) | split | simp)

theorem State.holdoffEpoch_memOk (s : State) (hm : memWf s.mem = true) : memWf (State.holdoffEpoch s).mem = true := by
  unfold State.holdoffEpoch
  repeat' (first | (with_reducible assumption) | (with_reducible apply State.failback_memOk) | (with_reducible rfl) | (intro _ _) | (intro _) | (simp [hm]; done) | (dsimp only) | split | simp)

theorem State.cutover_memOk (s : State) (hm : memWf s.mem = true) : memWf (State.cutover s).mem = true := by
  unfold State.cutover
  repeat' (first | (with_reducible assumption) | (with_reducible apply State.mirrorInto_memOk) | (with_reducible rfl) | (intro _ _) | (intro _) | (simp [hm]; done) | (dsimp only) | split | simp)

theorem State.twinEpoch_memOk (s : State) (hm : memWf s.mem = true) : memWf (State.twinEpoch s).mem = true := by
  unfold State.twinEpoch
  repeat' (first | (with_reducible assumption) | (with_reducible apply State.parkOne_memOk) | (with_reducible apply State.failback_memOk) | (with_reducible apply State.holdoffEpoch_memOk) | (with_reducible apply State.cutover_memOk) | (with_reducible apply State.foldl_memOk) | (with_reducible rfl) | (intro _ _) | (intro _) | (simp [hm]; done) | (dsimp only) | split | simp)

theorem tick_memOk (s : State) (hm : memWf s.mem = true) : memWf (tick s).mem = true := by
  unfold tick
  repeat' (first | (with_reducible assumption) | (with_reducible apply State.yieldDue_memOk) | (with_reducible apply State.foldl_memOk) | (with_reducible rfl) | (intro _ _) | (intro _) | (simp [hm]; done) | (dsimp only) | split | simp)

theorem State.eccLine_memOk (s : State) (t : Trunk) (x : EccRead) (hm : memWf s.mem = true) : memWf (State.eccLine s t x).mem = true := by
  unfold State.eccLine
  repeat' (first | (with_reducible assumption) | (with_reducible apply State.memWrite_memOk) | (with_reducible rfl) | (intro _ _) | (intro _) | (simp [hm]; done) | (dsimp only) | split | simp)

theorem State.eccTrunk_memOk (s : State) (t : Trunk) (x : EccRead) (scrub : Bool) (work : State → State)
    (hw : ∀ s, memWf s.mem = true → memWf (work s).mem = true) (hm : memWf s.mem = true) : memWf (s.eccTrunk t x scrub work).mem = true := by
  unfold State.eccTrunk
  repeat' (first | (with_reducible assumption) | (with_reducible apply State.yieldOn_memOk) | (with_reducible apply State.eccLine_memOk) | (with_reducible apply hw) | (simp only [State.eccUncorrEvent_mem]) | (dsimp only) | split)

theorem State.eccUncorr_memOk (s : State) (e : Option Trunk) (x : EccRead) (scrub : Bool) (item : Option Nat) (hm : memWf s.mem = true) : memWf (State.eccUncorr s e x scrub item).mem = true := by
  unfold State.eccUncorr
  repeat' (first | (with_reducible assumption) | (with_reducible apply State.eccTrunk_memOk) | (with_reducible rfl) | (intro _ _) | (intro _) | (simp [hm]; done) | (dsimp only) | split | simp)

theorem State.scrubRead_memOk (s : State) (e : Option Trunk) (word : Option EccRead) (hm : memWf s.mem = true) : memWf (State.scrubRead s e word).mem = true := by
  unfold State.scrubRead
  repeat' (first | (with_reducible assumption) | (with_reducible apply State.eccUncorr_memOk) | (with_reducible rfl) | (intro _ _) | (intro _) | (simp [hm]; done) | (dsimp only) | split | simp)

theorem State.residueFails_memOk (s : State) (t : Trunk) (i : Nat) (c : LaneCheck) (hm : memWf s.mem = true) : memWf (State.residueFails s t i c).mem = true := by
  unfold State.residueFails
  repeat' (first | (with_reducible assumption) | (with_reducible apply State.yieldOn_memOk) | (with_reducible rfl) | (intro _ _) | (intro _) | (simp [hm]; done) | (dsimp only) | split | simp)

theorem State.laneChecked_memOk (s : State) (t : Trunk) (i : Nat) (c : LaneCheck) (hm : memWf s.mem = true) : memWf (State.laneChecked s t i c).mem = true := by
  unfold State.laneChecked
  repeat' (first | (with_reducible assumption) | (with_reducible apply State.residueFails_memOk) | (with_reducible rfl) | (intro _ _) | (intro _) | (simp [hm]; done) | (dsimp only) | split | simp)

theorem State.eccDemand_memOk (s : State) (t : Trunk) (i : Nat) (x : EccRead) (hm : memWf s.mem = true) : memWf (State.eccDemand s t i x).mem = true := by
  unfold State.eccDemand
  repeat' (first | (with_reducible assumption) | (with_reducible apply State.eccUncorr_memOk) | (with_reducible rfl) | (intro _ _) | (intro _) | (simp [hm]; done) | (dsimp only) | split | simp)

theorem State.rerunDone_memOk (s : State) (t : Trunk) (i : Nat) (c : Option LaneCheck) (hm : memWf s.mem = true) : memWf (State.rerunDone s t i c).mem = true := by
  unfold State.rerunDone
  repeat' (first | (with_reducible assumption) | (with_reducible apply State.yieldOn_memOk) | (with_reducible rfl) | (intro _ _) | (intro _) | (simp [hm]; done) | (dsimp only) | split | simp)

theorem State.doWork_memOk (s : State) (t : Trunk) (y3 : Work) (hm : memWf s.mem = true) : memWf (State.doWork s t y3).mem = true := by
  unfold State.doWork
  repeat' (first | (with_reducible assumption) | (with_reducible apply State.laneChecked_memOk) | (with_reducible apply State.eccDemand_memOk) | (with_reducible rfl) | (intro _ _) | (intro _) | (simp [hm]; done) | (dsimp only) | split | simp)

theorem State.taskDone_memOk (s : State) (t : Trunk) (slot : Nat) (free : Bool) (w : Work) (hm : memWf s.mem = true) : memWf (State.taskDone s t slot free w).mem = true := by
  unfold State.taskDone
  repeat' (first | (with_reducible assumption) | (with_reducible apply State.doWork_memOk) | (with_reducible rfl) | (intro _ _) | (intro _) | (simp [hm]; done) | (dsimp only) | split | simp)

theorem State.hwReport_memOk (s : State) (t : Trunk) (b : Nat) (p : Nat × Nat × Nat) (inForce : Bool) (hm : memWf s.mem = true) : memWf (State.hwReport s t b p inForce).mem = true := by
  unfold State.hwReport
  repeat' (first | (with_reducible assumption) | (with_reducible apply State.yieldOn_memOk) | (with_reducible rfl) | (intro _ _) | (intro _) | (simp [hm]; done) | (dsimp only) | split | simp)

theorem State.hwBlockFails_memOk (s : State) (t : Trunk) (b : Nat) (p : Nat × Nat × Nat) (hm : memWf s.mem = true) : memWf (State.hwBlockFails s t b p).mem = true := by
  unfold State.hwBlockFails
  repeat' (first | (with_reducible assumption) | (with_reducible apply State.hwReport_memOk) | (with_reducible rfl) | (intro _ _) | (intro _) | (simp [hm]; done) | (dsimp only) | split | simp)

theorem State.hwScrub_memOk (s : State) (t : Trunk) (r : HwRead) (hm : memWf s.mem = true) : memWf (State.hwScrub s t r).mem = true := by
  unfold State.hwScrub
  repeat' (first | (with_reducible assumption) | (with_reducible apply State.hwBlockFails_memOk) | (with_reducible rfl) | (intro _ _) | (intro _) | (simp [hm]; done) | (dsimp only) | split | simp)

theorem State.hwReads_memOk (s : State) (t : Trunk) (c which : Nat) (l : List HwRead) (hm : memWf s.mem = true) :
    memWf (s.hwReads t c which l).1.mem = true := by
  unfold State.hwReads
  apply State.foldl_fst_memOk _ _ _ _ hm
  intro a r ha
  repeat' (first | (with_reducible assumption) | (with_reducible apply State.hwReport_memOk) | (dsimp only) | split)

theorem State.fetchWord_memOk (s : State) (t : Trunk) (n : Nat) (x : EccRead) (hm : memWf s.mem = true) : memWf (State.fetchWord s t n x).1.mem = true := by
  unfold State.fetchWord
  repeat' (first | (with_reducible assumption) | (with_reducible apply State.eccTrunk_memOk) | (with_reducible rfl) | (intro _ _) | (intro _) | (simp [hm]; done) | (dsimp only) | split | simp)

theorem State.canvasComplete_memOk (s : State) (t : Trunk) (c : Nat) (words : List (Fin 32 × EccRead)) (blocks : List HwRead)
    (hm : memWf s.mem = true) : memWf (s.canvasComplete t c words blocks).mem = true := by
  unfold State.canvasComplete
  split
  · exact hm
  · simp only [State.frameDone_mem]
    apply State.hwReads_memOk
    apply State.foldl_fst_memOk _ _ _ _ hm
    intro a w ha
    exact State.fetchWord_memOk _ _ _ _ ha

theorem State.rastReadLine_memOk (s : State) (t : Trunk) (g : Nat) (blocks : List HwRead) (hm : memWf s.mem = true) : memWf (State.rastReadLine s t g blocks).mem = true := by
  unfold State.rastReadLine
  repeat' (first | (with_reducible assumption) | (with_reducible apply State.hwReads_memOk) | (with_reducible rfl) | (intro _ _) | (intro _) | (simp [hm]; done) | (dsimp only) | split | simp)

theorem State.overrun_memOk (s : State) (t : Trunk) (c : Nat) (hm : memWf s.mem = true) : memWf (State.overrun s t c).mem = true := by
  unfold State.overrun
  repeat' (first | (with_reducible assumption) | (with_reducible apply State.memClear_memOk) | (with_reducible rfl) | (intro _ _) | (intro _) | (simp [hm]; done) | (dsimp only) | split | simp)

theorem State.guestTurn_memOk (s : State) (t : Trunk) (c : Nat) (hm : memWf s.mem = true) : memWf (State.guestTurn s t c).mem = true := by
  unfold State.guestTurn
  repeat' (first | (with_reducible assumption) | (with_reducible apply State.guestLoad_memOk) | (with_reducible rfl) | (intro _ _) | (intro _) | (simp [hm]; done) | (dsimp only) | split | simp)

theorem State.guestEpoch_memOk (s : State) (hm : memWf s.mem = true) : memWf (State.guestEpoch s).mem = true := by
  unfold State.guestEpoch
  repeat' (first | (with_reducible assumption) | (with_reducible apply State.overrun_memOk) | (with_reducible apply State.guestTurn_memOk) | (with_reducible apply State.foldl_memOk) | (with_reducible rfl) | (intro _ _) | (intro _) | (simp [hm]; done) | (dsimp only) | split | simp)

theorem State.mirrorIdle_memOk (s : State) (hm : memWf s.mem = true) : memWf (State.mirrorIdle s).mem = true := by
  unfold State.mirrorIdle
  repeat' (first | (with_reducible assumption) | (with_reducible apply State.mirrorInto_memOk) | (with_reducible apply State.onTrunks_memOk) | (with_reducible rfl) | (intro _ _) | (intro _) | (simp [hm]; done) | (dsimp only) | split | simp)

theorem State.treeEpoch_memOk (s : State) (hm : memWf s.mem = true) : memWf (State.treeEpoch s).mem = true := by
  unfold State.treeEpoch
  repeat' (first | (with_reducible assumption) | (with_reducible apply State.twinEpoch_memOk) | (with_reducible apply State.guestEpoch_memOk) | (with_reducible apply State.mirrorIdle_memOk) | (with_reducible apply State.onTrunks_memOk) | (with_reducible apply State.foldl_memOk) | (with_reducible rfl) | (intro _ _) | (intro _) | (simp [hm]; done) | (dsimp only) | split | simp)

theorem State.seedGuest_memOk (s : State) (t : Trunk) (c : Nat) (hm : memWf s.mem = true) : memWf (State.seedGuest s t c).mem = true := by
  unfold State.seedGuest
  repeat' (first | (with_reducible assumption) | (with_reducible apply State.guestLoad_memOk) | (with_reducible rfl) | (intro _ _) | (intro _) | (simp [hm]; done) | (dsimp only) | split | simp)

theorem State.seedTrunk_memOk (s : State) (t : Trunk) (hm : memWf s.mem = true) : memWf (s.seedTrunk t).mem = true := by
  have e (s : State) (x : SchedSt) (h : memWf s.mem = true) :
      memWf ((([0, 1] : List Nat).foldl (fun s c => s.seedGuest t c) (s.putSched t x)).seedBlocks t).mem = true := by
    rw [State.seedBlocks_mem, List.foldl, List.foldl, List.foldl]
    exact State.seedGuest_memOk _ _ _ (State.seedGuest_memOk _ _ _ (by rw [State.putSched_mem]; exact h))
  refine e _ _ ?_
  rw [State.seedPictures_mem, State.seedTrunkRegs_mem]
  exact hm

theorem State.activateSeed_memOk (s : State) (d : Seed) (at_ : Option (Nat × Nat)) (hm : memWf s.mem = true) : memWf (State.activateSeed s d at_).mem = true := by
  unfold State.activateSeed
  repeat' (first | (with_reducible assumption) | (with_reducible apply State.seedTrunk_memOk) | (with_reducible apply State.foldl_memOk) | (with_reducible rfl) | (intro _ _) | (intro _) | (simp [hm]; done) | (dsimp only) | split | simp)

theorem State.seedIn_memOk (s : State) (d : Seed) (at_ : Option (Nat × Nat)) (hm : memWf s.mem = true) : memWf (s.seedIn d at_).mem = true := by
  have e (u : State) : ((({ u with twin.loaded := [0, 1], upd.lastIll := u.free, upd.groveWell := [], upd.healthSent := false, upd.hostOk := u.upd.hostOk.filter (· != 2) }).readyCheck .a).readyCheck .b).mem = u.mem := by
    rw [State.readyCheck_mem, State.readyCheck_mem]
  have h := State.activateSeed_memOk s d at_ hm
  rw [← e (s.activateSeed d at_)] at h
  exact h

theorem State.switchSeed_memOk (s : State) (a : Armed) (hm : memWf s.mem = true) : memWf (s.switchSeed a).mem = true := by
  have e (u : State) (l : Tab Nat) (h : memWf u.mem = true) : memWf (({ u with upd.confirmEnd := l }).answerAct a 0).mem = true := by
    rw [State.answerAct_mem]
    exact h
  rw [State.switchSeed.eq_1]
  dsimp only
  split
  · simp [hm]
  · exact e _ _ (State.seedIn_memOk _ _ _ (by simp [hm]))

theorem State.imageActivation_memOk (s : State) (cls : Nat) (hm : memWf s.mem = true) : memWf (State.imageActivation s cls).mem = true := by
  unfold State.imageActivation
  repeat' (first | (with_reducible assumption) | (with_reducible apply State.switchSeed_memOk) | (with_reducible rfl) | (intro _ _) | (intro _) | (simp [hm]; done) | (dsimp only) | split | simp)

theorem State.startShow_memOk (s : State) (hm : memWf s.mem = true) : memWf (State.startShow s).mem = true := by
  unfold State.startShow
  repeat' (first | (with_reducible assumption) | (with_reducible apply State.activateSeed_memOk) | (with_reducible apply State.foldl_memOk) | (with_reducible rfl) | (intro _ _) | (intro _) | (simp [hm]; done) | (dsimp only) | split | simp)

theorem State.reloadTrunks_memOk (s : State) (hm : memWf s.mem = true) : memWf (State.reloadTrunks s).mem = true := by
  unfold State.reloadTrunks
  repeat' (first | (with_reducible assumption) | (with_reducible apply State.activateSeed_memOk) | (with_reducible apply State.foldl_memOk) | (with_reducible rfl) | (intro _ _) | (intro _) | (simp [hm]; done) | (dsimp only) | split | simp)

theorem State.firmwareRestart_memOk (s : State) (hm : memWf s.mem = true) : memWf (State.firmwareRestart s).mem = true := by
  unfold State.firmwareRestart
  repeat' (first | (with_reducible assumption) | (with_reducible apply State.startShow_memOk) | (with_reducible apply State.reloadTrunks_memOk) | (with_reducible rfl) | (intro _ _) | (intro _) | (simp [hm]; done) | (dsimp only) | split | simp)

theorem State.warmReset_memOk (s : State) (hm : memWf s.mem = true) : memWf (State.warmReset s).mem = true := by
  unfold State.warmReset
  repeat' (first | (with_reducible assumption) | (with_reducible apply State.wiped_memOk) | (with_reducible rfl) | (intro _ _) | (intro _) | (simp [hm]; done) | (dsimp only) | split | simp)

theorem State.powerUp_memOk (s : State) (hm : memWf s.mem = true) : memWf (State.powerUp s).mem = true := by
  unfold State.powerUp
  repeat' (first | (with_reducible assumption) | (with_reducible apply State.wiped_memOk) | (with_reducible rfl) | (intro _ _) | (intro _) | (simp [hm]; done) | (dsimp only) | split | simp)

theorem State.resetAssert_memOk (s : State) (ns : Nat) (hm : memWf s.mem = true) : memWf (State.resetAssert s ns).mem = true := by
  unfold State.resetAssert
  repeat' (first | (with_reducible assumption) | (with_reducible apply State.wiped_memOk) | (with_reducible rfl) | (intro _ _) | (intro _) | (simp [hm]; done) | (dsimp only) | split | simp)

theorem State.firmwareUp_memOk (s : State) (hm : memWf s.mem = true) : memWf (State.firmwareUp s).mem = true := by
  unfold State.firmwareUp
  repeat' (first | (with_reducible assumption) | (with_reducible apply State.startShow_memOk) | (with_reducible rfl) | (intro _ _) | (intro _) | (simp [hm]; done) | (dsimp only) | split | simp)

theorem State.trunksOff_memOk (s : State) (hm : memWf s.mem = true) : memWf (State.trunksOff s).mem = true := by
  unfold State.trunksOff
  repeat' (first | (with_reducible assumption) | (with_reducible apply State.memClear_memOk) | (with_reducible apply State.foldl_memOk) | (with_reducible rfl) | (intro _ _) | (intro _) | (simp [hm]; done) | (dsimp only) | split | simp)

theorem State.thermalSample_memOk (s : State) (base : Int) (dieA : Int) (dieB : Int) (dieRoot : Int) (hm : memWf s.mem = true) : memWf (State.thermalSample s base dieA dieB dieRoot).mem = true := by
  unfold State.thermalSample
  repeat' (first | (with_reducible assumption) | (with_reducible apply State.trunksOff_memOk) | (with_reducible rfl) | (intro _ _) | (intro _) | (simp [hm]; done) | (dsimp only) | split | simp)

theorem State.thermalBack_memOk (s : State) (hm : memWf s.mem = true) : memWf (State.thermalBack s).mem = true := by
  unfold State.thermalBack
  repeat' (first | (with_reducible assumption) | (with_reducible apply State.startShow_memOk) | (with_reducible apply State.reloadTrunks_memOk) | (with_reducible rfl) | (intro _ _) | (intro _) | (simp [hm]; done) | (dsimp only) | split | simp)

theorem State.scrap_memOk (s : State) (h : StemHdr) (hm : memWf s.mem = true) : memWf (State.scrap s h).mem = true := by
  unfold State.scrap
  repeat' (first | (with_reducible assumption) | (with_reducible apply State.warmReset_memOk) | (with_reducible rfl) | (intro _ _) | (intro _) | (simp [hm]; done) | (dsimp only) | split | simp)

theorem State.lifeScrap_memOk (s : State) (h : StemHdr) (p : List Byte) (hm : memWf s.mem = true) : memWf (State.lifeScrap s h p).mem = true := by
  unfold State.lifeScrap
  repeat' (first | (with_reducible assumption) | (with_reducible apply State.scrap_memOk) | (with_reducible apply State.signedCmd_memOk) | (with_reducible rfl) | (intro _ _) | (intro _) | (simp [hm]; done) | (dsimp only) | split | simp)

theorem State.writeMem_memOk (s : State) (h : StemHdr) (addr : Nat) (data : List Byte) (hm : memWf s.mem = true) : memWf (State.writeMem s h addr data).mem = true := by
  unfold State.writeMem
  repeat' (first | (with_reducible assumption) | (with_reducible apply State.memWrite_memOk) | (with_reducible apply State.onTrunks_memOk) | (with_reducible rfl) | (intro _ _) | (intro _) | (simp [hm]; done) | (dsimp only) | split | simp)

end Sys2Proof.Machine
end

