-- ==== Sys2Proof/Laws/State.lean ====
section
/-! SUPPORT. What each update of one part of the state leaves in every field: one lemma per field per update.
The fields `mem` and `pending` have theirs in FrameMem.lean and FrameQueue.lean. -/

namespace Sys2Proof.Machine

@[simp] theorem State.setReg_held (s : State) (a : Nat) (w : Word) : (s.setReg a w).held = s.held := rfl
@[simp] theorem State.setReg_free (s : State) (a : Nat) (w : Word) : (s.setReg a w).free = s.free := rfl
@[simp] theorem State.setReg_freeCtr (s : State) (a : Nat) (w : Word) : (s.setReg a w).freeCtr = s.freeCtr := rfl
@[simp] theorem State.setReg_cyc (s : State) (a : Nat) (w : Word) : (s.setReg a w).cyc = s.cyc := rfl
@[simp] theorem State.setReg_regs (s : State) (a : Nat) (w : Word) : (s.setReg a w).regs = s.regs.set a w := rfl
@[simp] theorem State.setReg_pend (s : State) (a : Nat) (w : Word) : (s.setReg a w).pend = s.pend := rfl
@[simp] theorem State.setReg_act (s : State) (a : Nat) (w : Word) : (s.setReg a w).act = s.act := rfl
@[simp] theorem State.setReg_latch (s : State) (a : Nat) (w : Word) : (s.setReg a w).latch = s.latch := rfl
@[simp] theorem State.setReg_rdata (s : State) (a : Nat) (w : Word) : (s.setReg a w).rdata = s.rdata := rfl
@[simp] theorem State.setReg_tag (s : State) (a : Nat) (w : Word) : (s.setReg a w).tag = s.tag := rfl
@[simp] theorem State.setReg_axes (s : State) (a : Nat) (w : Word) : (s.setReg a w).axes = s.axes := rfl
@[simp] theorem State.setReg_capture (s : State) (a : Nat) (w : Word) : (s.setReg a w).capture = s.capture := rfl
@[simp] theorem State.setReg_rels (s : State) (a : Nat) (w : Word) : (s.setReg a w).rels = s.rels := rfl
@[simp] theorem State.setReg_schedQ (s : State) (a : Nat) (w : Word) : (s.setReg a w).schedQ = s.schedQ := rfl
@[simp] theorem State.setReg_frameCnt (s : State) (a : Nat) (w : Word) : (s.setReg a w).frameCnt = s.frameCnt := rfl
@[simp] theorem State.setReg_cadence (s : State) (a : Nat) (w : Word) : (s.setReg a w).cadence = s.cadence := rfl
@[simp] theorem State.setReg_epochLate (s : State) (a : Nat) (w : Word) : (s.setReg a w).epochLate = s.epochLate := rfl
@[simp] theorem State.setReg_events (s : State) (a : Nat) (w : Word) : (s.setReg a w).events = s.events := rfl
@[simp] theorem State.setReg_fwSwitch (s : State) (a : Nat) (w : Word) : (s.setReg a w).fwSwitch = s.fwSwitch := rfl
@[simp] theorem State.setReg_sent (s : State) (a : Nat) (w : Word) : (s.setReg a w).sent = s.sent := rfl
@[simp] theorem State.setReg_padSafeAck (s : State) (a : Nat) (w : Word) : (s.setReg a w).padSafeAck = s.padSafeAck := rfl
@[simp] theorem State.setReg_padHealth (s : State) (a : Nat) (w : Word) : (s.setReg a w).padHealth = s.padHealth := rfl
@[simp] theorem State.setReg_padFaultN (s : State) (a : Nat) (w : Word) : (s.setReg a w).padFaultN = s.padFaultN := rfl
@[simp] theorem State.setReg_padPwrGood (s : State) (a : Nat) (w : Word) : (s.setReg a w).padPwrGood = s.padPwrGood := rfl
@[simp] theorem State.setReg_ports (s : State) (a : Nat) (w : Word) : (s.setReg a w).ports = s.ports := rfl
@[simp] theorem State.setReg_dmx (s : State) (a : Nat) (w : Word) : (s.setReg a w).dmx = s.dmx := rfl
@[simp] theorem State.setReg_saps (s : State) (a : Nat) (w : Word) : (s.setReg a w).saps = s.saps := rfl
@[simp] theorem State.setReg_diag (s : State) (a : Nat) (w : Word) : (s.setReg a w).diag = s.diag := rfl
@[simp] theorem State.setReg_leafTemp (s : State) (a : Nat) (w : Word) : (s.setReg a w).leafTemp = s.leafTemp := rfl
@[simp] theorem State.setReg_nodeTemp (s : State) (a : Nat) (w : Word) : (s.setReg a w).nodeTemp = s.nodeTemp := rfl
@[simp] theorem State.setReg_leafStatus (s : State) (a : Nat) (w : Word) : (s.setReg a w).leafStatus = s.leafStatus := rfl
@[simp] theorem State.setReg_swTable (s : State) (a : Nat) (w : Word) : (s.setReg a w).swTable = s.swTable := rfl
@[simp] theorem State.setReg_tcSync (s : State) (a : Nat) (w : Word) : (s.setReg a w).tcSync = s.tcSync := rfl
@[simp] theorem State.setReg_ptps (s : State) (a : Nat) (w : Word) : (s.setReg a w).ptps = s.ptps := rfl
@[simp] theorem State.setReg_peerDelay (s : State) (a : Nat) (w : Word) : (s.setReg a w).peerDelay = s.peerDelay := rfl
@[simp] theorem State.setReg_pdelayNext (s : State) (a : Nat) (w : Word) : (s.setReg a w).pdelayNext = s.pdelayNext := rfl
@[simp] theorem State.setReg_pdelaySeq (s : State) (a : Nat) (w : Word) : (s.setReg a w).pdelaySeq = s.pdelaySeq := rfl
@[simp] theorem State.setReg_ppsLast (s : State) (a : Nat) (w : Word) : (s.setReg a w).ppsLast = s.ppsLast := rfl
@[simp] theorem State.setReg_ppsGood (s : State) (a : Nat) (w : Word) : (s.setReg a w).ppsGood = s.ppsGood := rfl
@[simp] theorem State.setReg_ppsRun (s : State) (a : Nat) (w : Word) : (s.setReg a w).ppsRun = s.ppsRun := rfl
@[simp] theorem State.setReg_ppsLostAt (s : State) (a : Nat) (w : Word) : (s.setReg a w).ppsLostAt = s.ppsLostAt := rfl
@[simp] theorem State.setReg_ppsOut (s : State) (a : Nat) (w : Word) : (s.setReg a w).ppsOut = s.ppsOut := rfl
@[simp] theorem State.setReg_settingsBody (s : State) (a : Nat) (w : Word) : (s.setReg a w).settingsBody = s.settingsBody := rfl
@[simp] theorem State.setReg_e131tx (s : State) (a : Nat) (w : Word) : (s.setReg a w).e131tx = s.e131tx := rfl
@[simp] theorem State.setReg_e131rx (s : State) (a : Nat) (w : Word) : (s.setReg a w).e131rx = s.e131rx := rfl
@[simp] theorem State.setReg_capE131 (s : State) (a : Nat) (w : Word) : (s.setReg a w).capE131 = s.capE131 := rfl
@[simp] theorem State.setReg_capDmx (s : State) (a : Nat) (w : Word) : (s.setReg a w).capDmx = s.capDmx := rfl
@[simp] theorem State.setReg_trunks (s : State) (a : Nat) (w : Word) : (s.setReg a w).trunks = s.trunks := rfl
@[simp] theorem State.setReg_inputs (s : State) (a : Nat) (w : Word) : (s.setReg a w).inputs = s.inputs := rfl
@[simp] theorem State.setReg_rasters (s : State) (a : Nat) (w : Word) : (s.setReg a w).rasters = s.rasters := rfl
@[simp] theorem State.setReg_rasterOut (s : State) (a : Nat) (w : Word) : (s.setReg a w).rasterOut = s.rasterOut := rfl
@[simp] theorem State.setReg_shedLeaves (s : State) (a : Nat) (w : Word) : (s.setReg a w).shedLeaves = s.shedLeaves := rfl
@[simp] theorem State.setReg_thin (s : State) (a : Nat) (w : Word) : (s.setReg a w).thin = s.thin := rfl
@[simp] theorem State.setReg_safetySeed (s : State) (a : Nat) (w : Word) : (s.setReg a w).safetySeed = s.safetySeed := rfl
@[simp] theorem State.setReg_chk (s : State) (a : Nat) (w : Word) : (s.setReg a w).chk = s.chk := rfl
@[simp] theorem State.setReg_eccSeen (s : State) (a : Nat) (w : Word) : (s.setReg a w).eccSeen = s.eccSeen := rfl
@[simp] theorem State.setReg_scrubAt (s : State) (a : Nat) (w : Word) : (s.setReg a w).scrubAt = s.scrubAt := rfl
@[simp] theorem State.setReg_hwCopy (s : State) (a : Nat) (w : Word) : (s.setReg a w).hwCopy = s.hwCopy := rfl
@[simp] theorem State.setReg_qbs (s : State) (a : Nat) (w : Word) : (s.setReg a w).qbs = s.qbs := rfl
@[simp] theorem State.setReg_scheds (s : State) (a : Nat) (w : Word) : (s.setReg a w).scheds = s.scheds := rfl
@[simp] theorem State.setReg_icus (s : State) (a : Nat) (w : Word) : (s.setReg a w).icus = s.icus := rfl
@[simp] theorem State.setReg_guests (s : State) (a : Nat) (w : Word) : (s.setReg a w).guests = s.guests := rfl
@[simp] theorem State.setReg_grovePos (s : State) (a : Nat) (w : Word) : (s.setReg a w).grovePos = s.grovePos := rfl
@[simp] theorem State.setReg_skipSeen (s : State) (a : Nat) (w : Word) : (s.setReg a w).skipSeen = s.skipSeen := rfl
@[simp] theorem State.setReg_twin (s : State) (a : Nat) (w : Word) : (s.setReg a w).twin = s.twin := rfl
@[simp] theorem State.setReg_bridge (s : State) (a : Nat) (w : Word) : (s.setReg a w).bridge = s.bridge := rfl
@[simp] theorem State.setReg_grove (s : State) (a : Nat) (w : Word) : (s.setReg a w).grove = s.grove := rfl
@[simp] theorem State.setReg_safe (s : State) (a : Nat) (w : Word) : (s.setReg a w).safe = s.safe := rfl
@[simp] theorem State.setReg_stem (s : State) (a : Nat) (w : Word) : (s.setReg a w).stem = s.stem := rfl
@[simp] theorem State.setReg_upd (s : State) (a : Nat) (w : Word) : (s.setReg a w).upd = s.upd := rfl
@[simp] theorem State.setReg_ring (s : State) (a : Nat) (w : Word) : (s.setReg a w).ring = s.ring := rfl
@[simp] theorem State.setReg_life (s : State) (a : Nat) (w : Word) : (s.setReg a w).life = s.life := rfl
@[simp] theorem State.setReg_seed (s : State) (a : Nat) (w : Word) : (s.setReg a w).seed = s.seed := rfl

@[simp] theorem State.setRegN_held (s : State) (a v : Nat) : (s.setRegN a v).held = s.held := rfl
@[simp] theorem State.setRegN_free (s : State) (a v : Nat) : (s.setRegN a v).free = s.free := rfl
@[simp] theorem State.setRegN_freeCtr (s : State) (a v : Nat) : (s.setRegN a v).freeCtr = s.freeCtr := rfl
@[simp] theorem State.setRegN_cyc (s : State) (a v : Nat) : (s.setRegN a v).cyc = s.cyc := rfl
@[simp] theorem State.setRegN_regs (s : State) (a v : Nat) : (s.setRegN a v).regs = s.regs.set a (BitVec.ofNat 32 v) := rfl
@[simp] theorem State.setRegN_pend (s : State) (a v : Nat) : (s.setRegN a v).pend = s.pend := rfl
@[simp] theorem State.setRegN_act (s : State) (a v : Nat) : (s.setRegN a v).act = s.act := rfl
@[simp] theorem State.setRegN_latch (s : State) (a v : Nat) : (s.setRegN a v).latch = s.latch := rfl
@[simp] theorem State.setRegN_rdata (s : State) (a v : Nat) : (s.setRegN a v).rdata = s.rdata := rfl
@[simp] theorem State.setRegN_tag (s : State) (a v : Nat) : (s.setRegN a v).tag = s.tag := rfl
@[simp] theorem State.setRegN_axes (s : State) (a v : Nat) : (s.setRegN a v).axes = s.axes := rfl
@[simp] theorem State.setRegN_capture (s : State) (a v : Nat) : (s.setRegN a v).capture = s.capture := rfl
@[simp] theorem State.setRegN_rels (s : State) (a v : Nat) : (s.setRegN a v).rels = s.rels := rfl
@[simp] theorem State.setRegN_schedQ (s : State) (a v : Nat) : (s.setRegN a v).schedQ = s.schedQ := rfl
@[simp] theorem State.setRegN_frameCnt (s : State) (a v : Nat) : (s.setRegN a v).frameCnt = s.frameCnt := rfl
@[simp] theorem State.setRegN_cadence (s : State) (a v : Nat) : (s.setRegN a v).cadence = s.cadence := rfl
@[simp] theorem State.setRegN_epochLate (s : State) (a v : Nat) : (s.setRegN a v).epochLate = s.epochLate := rfl
@[simp] theorem State.setRegN_events (s : State) (a v : Nat) : (s.setRegN a v).events = s.events := rfl
@[simp] theorem State.setRegN_fwSwitch (s : State) (a v : Nat) : (s.setRegN a v).fwSwitch = s.fwSwitch := rfl
@[simp] theorem State.setRegN_sent (s : State) (a v : Nat) : (s.setRegN a v).sent = s.sent := rfl
@[simp] theorem State.setRegN_padSafeAck (s : State) (a v : Nat) : (s.setRegN a v).padSafeAck = s.padSafeAck := rfl
@[simp] theorem State.setRegN_padHealth (s : State) (a v : Nat) : (s.setRegN a v).padHealth = s.padHealth := rfl
@[simp] theorem State.setRegN_padFaultN (s : State) (a v : Nat) : (s.setRegN a v).padFaultN = s.padFaultN := rfl
@[simp] theorem State.setRegN_padPwrGood (s : State) (a v : Nat) : (s.setRegN a v).padPwrGood = s.padPwrGood := rfl
@[simp] theorem State.setRegN_ports (s : State) (a v : Nat) : (s.setRegN a v).ports = s.ports := rfl
@[simp] theorem State.setRegN_dmx (s : State) (a v : Nat) : (s.setRegN a v).dmx = s.dmx := rfl
@[simp] theorem State.setRegN_saps (s : State) (a v : Nat) : (s.setRegN a v).saps = s.saps := rfl
@[simp] theorem State.setRegN_diag (s : State) (a v : Nat) : (s.setRegN a v).diag = s.diag := rfl
@[simp] theorem State.setRegN_leafTemp (s : State) (a v : Nat) : (s.setRegN a v).leafTemp = s.leafTemp := rfl
@[simp] theorem State.setRegN_nodeTemp (s : State) (a v : Nat) : (s.setRegN a v).nodeTemp = s.nodeTemp := rfl
@[simp] theorem State.setRegN_leafStatus (s : State) (a v : Nat) : (s.setRegN a v).leafStatus = s.leafStatus := rfl
@[simp] theorem State.setRegN_swTable (s : State) (a v : Nat) : (s.setRegN a v).swTable = s.swTable := rfl
@[simp] theorem State.setRegN_tcSync (s : State) (a v : Nat) : (s.setRegN a v).tcSync = s.tcSync := rfl
@[simp] theorem State.setRegN_ptps (s : State) (a v : Nat) : (s.setRegN a v).ptps = s.ptps := rfl
@[simp] theorem State.setRegN_peerDelay (s : State) (a v : Nat) : (s.setRegN a v).peerDelay = s.peerDelay := rfl
@[simp] theorem State.setRegN_pdelayNext (s : State) (a v : Nat) : (s.setRegN a v).pdelayNext = s.pdelayNext := rfl
@[simp] theorem State.setRegN_pdelaySeq (s : State) (a v : Nat) : (s.setRegN a v).pdelaySeq = s.pdelaySeq := rfl
@[simp] theorem State.setRegN_ppsLast (s : State) (a v : Nat) : (s.setRegN a v).ppsLast = s.ppsLast := rfl
@[simp] theorem State.setRegN_ppsGood (s : State) (a v : Nat) : (s.setRegN a v).ppsGood = s.ppsGood := rfl
@[simp] theorem State.setRegN_ppsRun (s : State) (a v : Nat) : (s.setRegN a v).ppsRun = s.ppsRun := rfl
@[simp] theorem State.setRegN_ppsLostAt (s : State) (a v : Nat) : (s.setRegN a v).ppsLostAt = s.ppsLostAt := rfl
@[simp] theorem State.setRegN_ppsOut (s : State) (a v : Nat) : (s.setRegN a v).ppsOut = s.ppsOut := rfl
@[simp] theorem State.setRegN_settingsBody (s : State) (a v : Nat) : (s.setRegN a v).settingsBody = s.settingsBody := rfl
@[simp] theorem State.setRegN_e131tx (s : State) (a v : Nat) : (s.setRegN a v).e131tx = s.e131tx := rfl
@[simp] theorem State.setRegN_e131rx (s : State) (a v : Nat) : (s.setRegN a v).e131rx = s.e131rx := rfl
@[simp] theorem State.setRegN_capE131 (s : State) (a v : Nat) : (s.setRegN a v).capE131 = s.capE131 := rfl
@[simp] theorem State.setRegN_capDmx (s : State) (a v : Nat) : (s.setRegN a v).capDmx = s.capDmx := rfl
@[simp] theorem State.setRegN_trunks (s : State) (a v : Nat) : (s.setRegN a v).trunks = s.trunks := rfl
@[simp] theorem State.setRegN_inputs (s : State) (a v : Nat) : (s.setRegN a v).inputs = s.inputs := rfl
@[simp] theorem State.setRegN_rasters (s : State) (a v : Nat) : (s.setRegN a v).rasters = s.rasters := rfl
@[simp] theorem State.setRegN_rasterOut (s : State) (a v : Nat) : (s.setRegN a v).rasterOut = s.rasterOut := rfl
@[simp] theorem State.setRegN_shedLeaves (s : State) (a v : Nat) : (s.setRegN a v).shedLeaves = s.shedLeaves := rfl
@[simp] theorem State.setRegN_thin (s : State) (a v : Nat) : (s.setRegN a v).thin = s.thin := rfl
@[simp] theorem State.setRegN_safetySeed (s : State) (a v : Nat) : (s.setRegN a v).safetySeed = s.safetySeed := rfl
@[simp] theorem State.setRegN_chk (s : State) (a v : Nat) : (s.setRegN a v).chk = s.chk := rfl
@[simp] theorem State.setRegN_eccSeen (s : State) (a v : Nat) : (s.setRegN a v).eccSeen = s.eccSeen := rfl
@[simp] theorem State.setRegN_scrubAt (s : State) (a v : Nat) : (s.setRegN a v).scrubAt = s.scrubAt := rfl
@[simp] theorem State.setRegN_hwCopy (s : State) (a v : Nat) : (s.setRegN a v).hwCopy = s.hwCopy := rfl
@[simp] theorem State.setRegN_qbs (s : State) (a v : Nat) : (s.setRegN a v).qbs = s.qbs := rfl
@[simp] theorem State.setRegN_scheds (s : State) (a v : Nat) : (s.setRegN a v).scheds = s.scheds := rfl
@[simp] theorem State.setRegN_icus (s : State) (a v : Nat) : (s.setRegN a v).icus = s.icus := rfl
@[simp] theorem State.setRegN_guests (s : State) (a v : Nat) : (s.setRegN a v).guests = s.guests := rfl
@[simp] theorem State.setRegN_grovePos (s : State) (a v : Nat) : (s.setRegN a v).grovePos = s.grovePos := rfl
@[simp] theorem State.setRegN_skipSeen (s : State) (a v : Nat) : (s.setRegN a v).skipSeen = s.skipSeen := rfl
@[simp] theorem State.setRegN_twin (s : State) (a v : Nat) : (s.setRegN a v).twin = s.twin := rfl
@[simp] theorem State.setRegN_bridge (s : State) (a v : Nat) : (s.setRegN a v).bridge = s.bridge := rfl
@[simp] theorem State.setRegN_grove (s : State) (a v : Nat) : (s.setRegN a v).grove = s.grove := rfl
@[simp] theorem State.setRegN_safe (s : State) (a v : Nat) : (s.setRegN a v).safe = s.safe := rfl
@[simp] theorem State.setRegN_stem (s : State) (a v : Nat) : (s.setRegN a v).stem = s.stem := rfl
@[simp] theorem State.setRegN_upd (s : State) (a v : Nat) : (s.setRegN a v).upd = s.upd := rfl
@[simp] theorem State.setRegN_ring (s : State) (a v : Nat) : (s.setRegN a v).ring = s.ring := rfl
@[simp] theorem State.setRegN_life (s : State) (a v : Nat) : (s.setRegN a v).life = s.life := rfl
@[simp] theorem State.setRegN_seed (s : State) (a v : Nat) : (s.setRegN a v).seed = s.seed := rfl

@[simp] theorem State.fset_held (s : State) (f : Field) (v : Nat) : (s.fset f v).held = s.held := rfl
@[simp] theorem State.fset_free (s : State) (f : Field) (v : Nat) : (s.fset f v).free = s.free := rfl
@[simp] theorem State.fset_freeCtr (s : State) (f : Field) (v : Nat) : (s.fset f v).freeCtr = s.freeCtr := rfl
@[simp] theorem State.fset_cyc (s : State) (f : Field) (v : Nat) : (s.fset f v).cyc = (s.noteSet f v).cyc := rfl
@[simp] theorem State.fset_regs (s : State) (f : Field) (v : Nat) : (s.fset f v).regs = s.regs.set f.addr (BitVec.ofNat 32 (setBits (s.regN f.addr) f.lo f.len v)) := rfl
@[simp] theorem State.fset_pend (s : State) (f : Field) (v : Nat) : (s.fset f v).pend = s.pend := rfl
@[simp] theorem State.fset_act (s : State) (f : Field) (v : Nat) : (s.fset f v).act = s.act := rfl
@[simp] theorem State.fset_latch (s : State) (f : Field) (v : Nat) : (s.fset f v).latch = s.latch := rfl
@[simp] theorem State.fset_rdata (s : State) (f : Field) (v : Nat) : (s.fset f v).rdata = s.rdata := rfl
@[simp] theorem State.fset_tag (s : State) (f : Field) (v : Nat) : (s.fset f v).tag = s.tag := rfl
@[simp] theorem State.fset_axes (s : State) (f : Field) (v : Nat) : (s.fset f v).axes = s.axes := rfl
@[simp] theorem State.fset_capture (s : State) (f : Field) (v : Nat) : (s.fset f v).capture = s.capture := rfl
@[simp] theorem State.fset_rels (s : State) (f : Field) (v : Nat) : (s.fset f v).rels = s.rels := rfl
@[simp] theorem State.fset_schedQ (s : State) (f : Field) (v : Nat) : (s.fset f v).schedQ = s.schedQ := rfl
@[simp] theorem State.fset_frameCnt (s : State) (f : Field) (v : Nat) : (s.fset f v).frameCnt = s.frameCnt := rfl
@[simp] theorem State.fset_cadence (s : State) (f : Field) (v : Nat) : (s.fset f v).cadence = s.cadence := rfl
@[simp] theorem State.fset_epochLate (s : State) (f : Field) (v : Nat) : (s.fset f v).epochLate = s.epochLate := rfl
@[simp] theorem State.fset_events (s : State) (f : Field) (v : Nat) : (s.fset f v).events = s.events := rfl
@[simp] theorem State.fset_fwSwitch (s : State) (f : Field) (v : Nat) : (s.fset f v).fwSwitch = s.fwSwitch := rfl
@[simp] theorem State.fset_sent (s : State) (f : Field) (v : Nat) : (s.fset f v).sent = s.sent := rfl
@[simp] theorem State.fset_padSafeAck (s : State) (f : Field) (v : Nat) : (s.fset f v).padSafeAck = s.padSafeAck := rfl
@[simp] theorem State.fset_padHealth (s : State) (f : Field) (v : Nat) : (s.fset f v).padHealth = s.padHealth := rfl
@[simp] theorem State.fset_padFaultN (s : State) (f : Field) (v : Nat) : (s.fset f v).padFaultN = s.padFaultN := rfl
@[simp] theorem State.fset_padPwrGood (s : State) (f : Field) (v : Nat) : (s.fset f v).padPwrGood = s.padPwrGood := rfl
@[simp] theorem State.fset_ports (s : State) (f : Field) (v : Nat) : (s.fset f v).ports = s.ports := rfl
@[simp] theorem State.fset_dmx (s : State) (f : Field) (v : Nat) : (s.fset f v).dmx = s.dmx := rfl
@[simp] theorem State.fset_saps (s : State) (f : Field) (v : Nat) : (s.fset f v).saps = s.saps := rfl
@[simp] theorem State.fset_diag (s : State) (f : Field) (v : Nat) : (s.fset f v).diag = s.diag := rfl
@[simp] theorem State.fset_leafTemp (s : State) (f : Field) (v : Nat) : (s.fset f v).leafTemp = s.leafTemp := rfl
@[simp] theorem State.fset_nodeTemp (s : State) (f : Field) (v : Nat) : (s.fset f v).nodeTemp = s.nodeTemp := rfl
@[simp] theorem State.fset_leafStatus (s : State) (f : Field) (v : Nat) : (s.fset f v).leafStatus = s.leafStatus := rfl
@[simp] theorem State.fset_swTable (s : State) (f : Field) (v : Nat) : (s.fset f v).swTable = s.swTable := rfl
@[simp] theorem State.fset_tcSync (s : State) (f : Field) (v : Nat) : (s.fset f v).tcSync = s.tcSync := rfl
@[simp] theorem State.fset_ptps (s : State) (f : Field) (v : Nat) : (s.fset f v).ptps = s.ptps := rfl
@[simp] theorem State.fset_peerDelay (s : State) (f : Field) (v : Nat) : (s.fset f v).peerDelay = s.peerDelay := rfl
@[simp] theorem State.fset_pdelayNext (s : State) (f : Field) (v : Nat) : (s.fset f v).pdelayNext = s.pdelayNext := rfl
@[simp] theorem State.fset_pdelaySeq (s : State) (f : Field) (v : Nat) : (s.fset f v).pdelaySeq = s.pdelaySeq := rfl
@[simp] theorem State.fset_ppsLast (s : State) (f : Field) (v : Nat) : (s.fset f v).ppsLast = s.ppsLast := rfl
@[simp] theorem State.fset_ppsGood (s : State) (f : Field) (v : Nat) : (s.fset f v).ppsGood = s.ppsGood := rfl
@[simp] theorem State.fset_ppsRun (s : State) (f : Field) (v : Nat) : (s.fset f v).ppsRun = s.ppsRun := rfl
@[simp] theorem State.fset_ppsLostAt (s : State) (f : Field) (v : Nat) : (s.fset f v).ppsLostAt = s.ppsLostAt := rfl
@[simp] theorem State.fset_ppsOut (s : State) (f : Field) (v : Nat) : (s.fset f v).ppsOut = s.ppsOut := rfl
@[simp] theorem State.fset_settingsBody (s : State) (f : Field) (v : Nat) : (s.fset f v).settingsBody = s.settingsBody := rfl
@[simp] theorem State.fset_e131tx (s : State) (f : Field) (v : Nat) : (s.fset f v).e131tx = s.e131tx := rfl
@[simp] theorem State.fset_e131rx (s : State) (f : Field) (v : Nat) : (s.fset f v).e131rx = s.e131rx := rfl
@[simp] theorem State.fset_capE131 (s : State) (f : Field) (v : Nat) : (s.fset f v).capE131 = s.capE131 := rfl
@[simp] theorem State.fset_capDmx (s : State) (f : Field) (v : Nat) : (s.fset f v).capDmx = s.capDmx := rfl
@[simp] theorem State.fset_trunks (s : State) (f : Field) (v : Nat) : (s.fset f v).trunks = s.trunks := rfl
@[simp] theorem State.fset_inputs (s : State) (f : Field) (v : Nat) : (s.fset f v).inputs = s.inputs := rfl
@[simp] theorem State.fset_rasters (s : State) (f : Field) (v : Nat) : (s.fset f v).rasters = s.rasters := rfl
@[simp] theorem State.fset_rasterOut (s : State) (f : Field) (v : Nat) : (s.fset f v).rasterOut = s.rasterOut := rfl
@[simp] theorem State.fset_shedLeaves (s : State) (f : Field) (v : Nat) : (s.fset f v).shedLeaves = s.shedLeaves := rfl
@[simp] theorem State.fset_thin (s : State) (f : Field) (v : Nat) : (s.fset f v).thin = s.thin := rfl
@[simp] theorem State.fset_safetySeed (s : State) (f : Field) (v : Nat) : (s.fset f v).safetySeed = s.safetySeed := rfl
@[simp] theorem State.fset_chk (s : State) (f : Field) (v : Nat) : (s.fset f v).chk = s.chk := rfl
@[simp] theorem State.fset_eccSeen (s : State) (f : Field) (v : Nat) : (s.fset f v).eccSeen = s.eccSeen := rfl
@[simp] theorem State.fset_scrubAt (s : State) (f : Field) (v : Nat) : (s.fset f v).scrubAt = s.scrubAt := rfl
@[simp] theorem State.fset_hwCopy (s : State) (f : Field) (v : Nat) : (s.fset f v).hwCopy = s.hwCopy := rfl
@[simp] theorem State.fset_qbs (s : State) (f : Field) (v : Nat) : (s.fset f v).qbs = s.qbs := rfl
@[simp] theorem State.fset_scheds (s : State) (f : Field) (v : Nat) : (s.fset f v).scheds = s.scheds := rfl
@[simp] theorem State.fset_icus (s : State) (f : Field) (v : Nat) : (s.fset f v).icus = s.icus := rfl
@[simp] theorem State.fset_guests (s : State) (f : Field) (v : Nat) : (s.fset f v).guests = s.guests := rfl
@[simp] theorem State.fset_grovePos (s : State) (f : Field) (v : Nat) : (s.fset f v).grovePos = s.grovePos := rfl
@[simp] theorem State.fset_skipSeen (s : State) (f : Field) (v : Nat) : (s.fset f v).skipSeen = s.skipSeen := rfl
@[simp] theorem State.fset_twin (s : State) (f : Field) (v : Nat) : (s.fset f v).twin = s.twin := rfl
@[simp] theorem State.fset_bridge (s : State) (f : Field) (v : Nat) : (s.fset f v).bridge = s.bridge := rfl
@[simp] theorem State.fset_grove (s : State) (f : Field) (v : Nat) : (s.fset f v).grove = s.grove := rfl
@[simp] theorem State.fset_safe (s : State) (f : Field) (v : Nat) : (s.fset f v).safe = s.safe := rfl
@[simp] theorem State.fset_stem (s : State) (f : Field) (v : Nat) : (s.fset f v).stem = s.stem := rfl
@[simp] theorem State.fset_upd (s : State) (f : Field) (v : Nat) : (s.fset f v).upd = s.upd := rfl
@[simp] theorem State.fset_ring (s : State) (f : Field) (v : Nat) : (s.fset f v).ring = s.ring := rfl
@[simp] theorem State.fset_life (s : State) (f : Field) (v : Nat) : (s.fset f v).life = s.life := rfl
@[simp] theorem State.fset_seed (s : State) (f : Field) (v : Nat) : (s.fset f v).seed = s.seed := rfl

@[simp] theorem State.fsetB_held (s : State) (f : Field) (b : Bool) : (s.fsetB f b).held = s.held := rfl
@[simp] theorem State.fsetB_free (s : State) (f : Field) (b : Bool) : (s.fsetB f b).free = s.free := rfl
@[simp] theorem State.fsetB_freeCtr (s : State) (f : Field) (b : Bool) : (s.fsetB f b).freeCtr = s.freeCtr := rfl
@[simp] theorem State.fsetB_cyc (s : State) (f : Field) (b : Bool) : (s.fsetB f b).cyc = (s.noteSet f b.toNat).cyc := rfl
@[simp] theorem State.fsetB_regs (s : State) (f : Field) (b : Bool) : (s.fsetB f b).regs = s.regs.set f.addr (BitVec.ofNat 32 (setBits (s.regN f.addr) f.lo f.len b.toNat)) := rfl
@[simp] theorem State.fsetB_pend (s : State) (f : Field) (b : Bool) : (s.fsetB f b).pend = s.pend := rfl
@[simp] theorem State.fsetB_act (s : State) (f : Field) (b : Bool) : (s.fsetB f b).act = s.act := rfl
@[simp] theorem State.fsetB_latch (s : State) (f : Field) (b : Bool) : (s.fsetB f b).latch = s.latch := rfl
@[simp] theorem State.fsetB_rdata (s : State) (f : Field) (b : Bool) : (s.fsetB f b).rdata = s.rdata := rfl
@[simp] theorem State.fsetB_tag (s : State) (f : Field) (b : Bool) : (s.fsetB f b).tag = s.tag := rfl
@[simp] theorem State.fsetB_axes (s : State) (f : Field) (b : Bool) : (s.fsetB f b).axes = s.axes := rfl
@[simp] theorem State.fsetB_capture (s : State) (f : Field) (b : Bool) : (s.fsetB f b).capture = s.capture := rfl
@[simp] theorem State.fsetB_rels (s : State) (f : Field) (b : Bool) : (s.fsetB f b).rels = s.rels := rfl
@[simp] theorem State.fsetB_schedQ (s : State) (f : Field) (b : Bool) : (s.fsetB f b).schedQ = s.schedQ := rfl
@[simp] theorem State.fsetB_frameCnt (s : State) (f : Field) (b : Bool) : (s.fsetB f b).frameCnt = s.frameCnt := rfl
@[simp] theorem State.fsetB_cadence (s : State) (f : Field) (b : Bool) : (s.fsetB f b).cadence = s.cadence := rfl
@[simp] theorem State.fsetB_epochLate (s : State) (f : Field) (b : Bool) : (s.fsetB f b).epochLate = s.epochLate := rfl
@[simp] theorem State.fsetB_events (s : State) (f : Field) (b : Bool) : (s.fsetB f b).events = s.events := rfl
@[simp] theorem State.fsetB_fwSwitch (s : State) (f : Field) (b : Bool) : (s.fsetB f b).fwSwitch = s.fwSwitch := rfl
@[simp] theorem State.fsetB_sent (s : State) (f : Field) (b : Bool) : (s.fsetB f b).sent = s.sent := rfl
@[simp] theorem State.fsetB_padSafeAck (s : State) (f : Field) (b : Bool) : (s.fsetB f b).padSafeAck = s.padSafeAck := rfl
@[simp] theorem State.fsetB_padHealth (s : State) (f : Field) (b : Bool) : (s.fsetB f b).padHealth = s.padHealth := rfl
@[simp] theorem State.fsetB_padFaultN (s : State) (f : Field) (b : Bool) : (s.fsetB f b).padFaultN = s.padFaultN := rfl
@[simp] theorem State.fsetB_padPwrGood (s : State) (f : Field) (b : Bool) : (s.fsetB f b).padPwrGood = s.padPwrGood := rfl
@[simp] theorem State.fsetB_ports (s : State) (f : Field) (b : Bool) : (s.fsetB f b).ports = s.ports := rfl
@[simp] theorem State.fsetB_dmx (s : State) (f : Field) (b : Bool) : (s.fsetB f b).dmx = s.dmx := rfl
@[simp] theorem State.fsetB_saps (s : State) (f : Field) (b : Bool) : (s.fsetB f b).saps = s.saps := rfl
@[simp] theorem State.fsetB_diag (s : State) (f : Field) (b : Bool) : (s.fsetB f b).diag = s.diag := rfl
@[simp] theorem State.fsetB_leafTemp (s : State) (f : Field) (b : Bool) : (s.fsetB f b).leafTemp = s.leafTemp := rfl
@[simp] theorem State.fsetB_nodeTemp (s : State) (f : Field) (b : Bool) : (s.fsetB f b).nodeTemp = s.nodeTemp := rfl
@[simp] theorem State.fsetB_leafStatus (s : State) (f : Field) (b : Bool) : (s.fsetB f b).leafStatus = s.leafStatus := rfl
@[simp] theorem State.fsetB_swTable (s : State) (f : Field) (b : Bool) : (s.fsetB f b).swTable = s.swTable := rfl
@[simp] theorem State.fsetB_tcSync (s : State) (f : Field) (b : Bool) : (s.fsetB f b).tcSync = s.tcSync := rfl
@[simp] theorem State.fsetB_ptps (s : State) (f : Field) (b : Bool) : (s.fsetB f b).ptps = s.ptps := rfl
@[simp] theorem State.fsetB_peerDelay (s : State) (f : Field) (b : Bool) : (s.fsetB f b).peerDelay = s.peerDelay := rfl
@[simp] theorem State.fsetB_pdelayNext (s : State) (f : Field) (b : Bool) : (s.fsetB f b).pdelayNext = s.pdelayNext := rfl
@[simp] theorem State.fsetB_pdelaySeq (s : State) (f : Field) (b : Bool) : (s.fsetB f b).pdelaySeq = s.pdelaySeq := rfl
@[simp] theorem State.fsetB_ppsLast (s : State) (f : Field) (b : Bool) : (s.fsetB f b).ppsLast = s.ppsLast := rfl
@[simp] theorem State.fsetB_ppsGood (s : State) (f : Field) (b : Bool) : (s.fsetB f b).ppsGood = s.ppsGood := rfl
@[simp] theorem State.fsetB_ppsRun (s : State) (f : Field) (b : Bool) : (s.fsetB f b).ppsRun = s.ppsRun := rfl
@[simp] theorem State.fsetB_ppsLostAt (s : State) (f : Field) (b : Bool) : (s.fsetB f b).ppsLostAt = s.ppsLostAt := rfl
@[simp] theorem State.fsetB_ppsOut (s : State) (f : Field) (b : Bool) : (s.fsetB f b).ppsOut = s.ppsOut := rfl
@[simp] theorem State.fsetB_settingsBody (s : State) (f : Field) (b : Bool) : (s.fsetB f b).settingsBody = s.settingsBody := rfl
@[simp] theorem State.fsetB_e131tx (s : State) (f : Field) (b : Bool) : (s.fsetB f b).e131tx = s.e131tx := rfl
@[simp] theorem State.fsetB_e131rx (s : State) (f : Field) (b : Bool) : (s.fsetB f b).e131rx = s.e131rx := rfl
@[simp] theorem State.fsetB_capE131 (s : State) (f : Field) (b : Bool) : (s.fsetB f b).capE131 = s.capE131 := rfl
@[simp] theorem State.fsetB_capDmx (s : State) (f : Field) (b : Bool) : (s.fsetB f b).capDmx = s.capDmx := rfl
@[simp] theorem State.fsetB_trunks (s : State) (f : Field) (b : Bool) : (s.fsetB f b).trunks = s.trunks := rfl
@[simp] theorem State.fsetB_inputs (s : State) (f : Field) (b : Bool) : (s.fsetB f b).inputs = s.inputs := rfl
@[simp] theorem State.fsetB_rasters (s : State) (f : Field) (b : Bool) : (s.fsetB f b).rasters = s.rasters := rfl
@[simp] theorem State.fsetB_rasterOut (s : State) (f : Field) (b : Bool) : (s.fsetB f b).rasterOut = s.rasterOut := rfl
@[simp] theorem State.fsetB_shedLeaves (s : State) (f : Field) (b : Bool) : (s.fsetB f b).shedLeaves = s.shedLeaves := rfl
@[simp] theorem State.fsetB_thin (s : State) (f : Field) (b : Bool) : (s.fsetB f b).thin = s.thin := rfl
@[simp] theorem State.fsetB_safetySeed (s : State) (f : Field) (b : Bool) : (s.fsetB f b).safetySeed = s.safetySeed := rfl
@[simp] theorem State.fsetB_chk (s : State) (f : Field) (b : Bool) : (s.fsetB f b).chk = s.chk := rfl
@[simp] theorem State.fsetB_eccSeen (s : State) (f : Field) (b : Bool) : (s.fsetB f b).eccSeen = s.eccSeen := rfl
@[simp] theorem State.fsetB_scrubAt (s : State) (f : Field) (b : Bool) : (s.fsetB f b).scrubAt = s.scrubAt := rfl
@[simp] theorem State.fsetB_hwCopy (s : State) (f : Field) (b : Bool) : (s.fsetB f b).hwCopy = s.hwCopy := rfl
@[simp] theorem State.fsetB_qbs (s : State) (f : Field) (b : Bool) : (s.fsetB f b).qbs = s.qbs := rfl
@[simp] theorem State.fsetB_scheds (s : State) (f : Field) (b : Bool) : (s.fsetB f b).scheds = s.scheds := rfl
@[simp] theorem State.fsetB_icus (s : State) (f : Field) (b : Bool) : (s.fsetB f b).icus = s.icus := rfl
@[simp] theorem State.fsetB_guests (s : State) (f : Field) (b : Bool) : (s.fsetB f b).guests = s.guests := rfl
@[simp] theorem State.fsetB_grovePos (s : State) (f : Field) (b : Bool) : (s.fsetB f b).grovePos = s.grovePos := rfl
@[simp] theorem State.fsetB_skipSeen (s : State) (f : Field) (b : Bool) : (s.fsetB f b).skipSeen = s.skipSeen := rfl
@[simp] theorem State.fsetB_twin (s : State) (f : Field) (b : Bool) : (s.fsetB f b).twin = s.twin := rfl
@[simp] theorem State.fsetB_bridge (s : State) (f : Field) (b : Bool) : (s.fsetB f b).bridge = s.bridge := rfl
@[simp] theorem State.fsetB_grove (s : State) (f : Field) (b : Bool) : (s.fsetB f b).grove = s.grove := rfl
@[simp] theorem State.fsetB_safe (s : State) (f : Field) (b : Bool) : (s.fsetB f b).safe = s.safe := rfl
@[simp] theorem State.fsetB_stem (s : State) (f : Field) (b : Bool) : (s.fsetB f b).stem = s.stem := rfl
@[simp] theorem State.fsetB_upd (s : State) (f : Field) (b : Bool) : (s.fsetB f b).upd = s.upd := rfl
@[simp] theorem State.fsetB_ring (s : State) (f : Field) (b : Bool) : (s.fsetB f b).ring = s.ring := rfl
@[simp] theorem State.fsetB_life (s : State) (f : Field) (b : Bool) : (s.fsetB f b).life = s.life := rfl
@[simp] theorem State.fsetB_seed (s : State) (f : Field) (b : Bool) : (s.fsetB f b).seed = s.seed := rfl

@[simp] theorem State.bumpBy_held (s : State) (a n : Nat) : (s.bumpBy a n).held = s.held := rfl
@[simp] theorem State.bumpBy_free (s : State) (a n : Nat) : (s.bumpBy a n).free = s.free := rfl
@[simp] theorem State.bumpBy_freeCtr (s : State) (a n : Nat) : (s.bumpBy a n).freeCtr = s.freeCtr := rfl
@[simp] theorem State.bumpBy_cyc (s : State) (a n : Nat) : (s.bumpBy a n).cyc = s.cyc := rfl
@[simp] theorem State.bumpBy_regs (s : State) (a n : Nat) : (s.bumpBy a n).regs = s.regs.set a (BitVec.ofNat 32 (satTo 0xFFFFFFFF (s.regN a + n))) := rfl
@[simp] theorem State.bumpBy_pend (s : State) (a n : Nat) : (s.bumpBy a n).pend = s.pend := rfl
@[simp] theorem State.bumpBy_act (s : State) (a n : Nat) : (s.bumpBy a n).act = s.act := rfl
@[simp] theorem State.bumpBy_latch (s : State) (a n : Nat) : (s.bumpBy a n).latch = s.latch := rfl
@[simp] theorem State.bumpBy_rdata (s : State) (a n : Nat) : (s.bumpBy a n).rdata = s.rdata := rfl
@[simp] theorem State.bumpBy_tag (s : State) (a n : Nat) : (s.bumpBy a n).tag = s.tag := rfl
@[simp] theorem State.bumpBy_axes (s : State) (a n : Nat) : (s.bumpBy a n).axes = s.axes := rfl
@[simp] theorem State.bumpBy_capture (s : State) (a n : Nat) : (s.bumpBy a n).capture = s.capture := rfl
@[simp] theorem State.bumpBy_rels (s : State) (a n : Nat) : (s.bumpBy a n).rels = s.rels := rfl
@[simp] theorem State.bumpBy_schedQ (s : State) (a n : Nat) : (s.bumpBy a n).schedQ = s.schedQ := rfl
@[simp] theorem State.bumpBy_frameCnt (s : State) (a n : Nat) : (s.bumpBy a n).frameCnt = s.frameCnt := rfl
@[simp] theorem State.bumpBy_cadence (s : State) (a n : Nat) : (s.bumpBy a n).cadence = s.cadence := rfl
@[simp] theorem State.bumpBy_epochLate (s : State) (a n : Nat) : (s.bumpBy a n).epochLate = s.epochLate := rfl
@[simp] theorem State.bumpBy_events (s : State) (a n : Nat) : (s.bumpBy a n).events = s.events := rfl
@[simp] theorem State.bumpBy_fwSwitch (s : State) (a n : Nat) : (s.bumpBy a n).fwSwitch = s.fwSwitch := rfl
@[simp] theorem State.bumpBy_sent (s : State) (a n : Nat) : (s.bumpBy a n).sent = s.sent := rfl
@[simp] theorem State.bumpBy_padSafeAck (s : State) (a n : Nat) : (s.bumpBy a n).padSafeAck = s.padSafeAck := rfl
@[simp] theorem State.bumpBy_padHealth (s : State) (a n : Nat) : (s.bumpBy a n).padHealth = s.padHealth := rfl
@[simp] theorem State.bumpBy_padFaultN (s : State) (a n : Nat) : (s.bumpBy a n).padFaultN = s.padFaultN := rfl
@[simp] theorem State.bumpBy_padPwrGood (s : State) (a n : Nat) : (s.bumpBy a n).padPwrGood = s.padPwrGood := rfl
@[simp] theorem State.bumpBy_ports (s : State) (a n : Nat) : (s.bumpBy a n).ports = s.ports := rfl
@[simp] theorem State.bumpBy_dmx (s : State) (a n : Nat) : (s.bumpBy a n).dmx = s.dmx := rfl
@[simp] theorem State.bumpBy_saps (s : State) (a n : Nat) : (s.bumpBy a n).saps = s.saps := rfl
@[simp] theorem State.bumpBy_diag (s : State) (a n : Nat) : (s.bumpBy a n).diag = s.diag := rfl
@[simp] theorem State.bumpBy_leafTemp (s : State) (a n : Nat) : (s.bumpBy a n).leafTemp = s.leafTemp := rfl
@[simp] theorem State.bumpBy_nodeTemp (s : State) (a n : Nat) : (s.bumpBy a n).nodeTemp = s.nodeTemp := rfl
@[simp] theorem State.bumpBy_leafStatus (s : State) (a n : Nat) : (s.bumpBy a n).leafStatus = s.leafStatus := rfl
@[simp] theorem State.bumpBy_swTable (s : State) (a n : Nat) : (s.bumpBy a n).swTable = s.swTable := rfl
@[simp] theorem State.bumpBy_tcSync (s : State) (a n : Nat) : (s.bumpBy a n).tcSync = s.tcSync := rfl
@[simp] theorem State.bumpBy_ptps (s : State) (a n : Nat) : (s.bumpBy a n).ptps = s.ptps := rfl
@[simp] theorem State.bumpBy_peerDelay (s : State) (a n : Nat) : (s.bumpBy a n).peerDelay = s.peerDelay := rfl
@[simp] theorem State.bumpBy_pdelayNext (s : State) (a n : Nat) : (s.bumpBy a n).pdelayNext = s.pdelayNext := rfl
@[simp] theorem State.bumpBy_pdelaySeq (s : State) (a n : Nat) : (s.bumpBy a n).pdelaySeq = s.pdelaySeq := rfl
@[simp] theorem State.bumpBy_ppsLast (s : State) (a n : Nat) : (s.bumpBy a n).ppsLast = s.ppsLast := rfl
@[simp] theorem State.bumpBy_ppsGood (s : State) (a n : Nat) : (s.bumpBy a n).ppsGood = s.ppsGood := rfl
@[simp] theorem State.bumpBy_ppsRun (s : State) (a n : Nat) : (s.bumpBy a n).ppsRun = s.ppsRun := rfl
@[simp] theorem State.bumpBy_ppsLostAt (s : State) (a n : Nat) : (s.bumpBy a n).ppsLostAt = s.ppsLostAt := rfl
@[simp] theorem State.bumpBy_ppsOut (s : State) (a n : Nat) : (s.bumpBy a n).ppsOut = s.ppsOut := rfl
@[simp] theorem State.bumpBy_settingsBody (s : State) (a n : Nat) : (s.bumpBy a n).settingsBody = s.settingsBody := rfl
@[simp] theorem State.bumpBy_e131tx (s : State) (a n : Nat) : (s.bumpBy a n).e131tx = s.e131tx := rfl
@[simp] theorem State.bumpBy_e131rx (s : State) (a n : Nat) : (s.bumpBy a n).e131rx = s.e131rx := rfl
@[simp] theorem State.bumpBy_capE131 (s : State) (a n : Nat) : (s.bumpBy a n).capE131 = s.capE131 := rfl
@[simp] theorem State.bumpBy_capDmx (s : State) (a n : Nat) : (s.bumpBy a n).capDmx = s.capDmx := rfl
@[simp] theorem State.bumpBy_trunks (s : State) (a n : Nat) : (s.bumpBy a n).trunks = s.trunks := rfl
@[simp] theorem State.bumpBy_inputs (s : State) (a n : Nat) : (s.bumpBy a n).inputs = s.inputs := rfl
@[simp] theorem State.bumpBy_rasters (s : State) (a n : Nat) : (s.bumpBy a n).rasters = s.rasters := rfl
@[simp] theorem State.bumpBy_rasterOut (s : State) (a n : Nat) : (s.bumpBy a n).rasterOut = s.rasterOut := rfl
@[simp] theorem State.bumpBy_shedLeaves (s : State) (a n : Nat) : (s.bumpBy a n).shedLeaves = s.shedLeaves := rfl
@[simp] theorem State.bumpBy_thin (s : State) (a n : Nat) : (s.bumpBy a n).thin = s.thin := rfl
@[simp] theorem State.bumpBy_safetySeed (s : State) (a n : Nat) : (s.bumpBy a n).safetySeed = s.safetySeed := rfl
@[simp] theorem State.bumpBy_chk (s : State) (a n : Nat) : (s.bumpBy a n).chk = s.chk := rfl
@[simp] theorem State.bumpBy_eccSeen (s : State) (a n : Nat) : (s.bumpBy a n).eccSeen = s.eccSeen := rfl
@[simp] theorem State.bumpBy_scrubAt (s : State) (a n : Nat) : (s.bumpBy a n).scrubAt = s.scrubAt := rfl
@[simp] theorem State.bumpBy_hwCopy (s : State) (a n : Nat) : (s.bumpBy a n).hwCopy = s.hwCopy := rfl
@[simp] theorem State.bumpBy_qbs (s : State) (a n : Nat) : (s.bumpBy a n).qbs = s.qbs := rfl
@[simp] theorem State.bumpBy_scheds (s : State) (a n : Nat) : (s.bumpBy a n).scheds = s.scheds := rfl
@[simp] theorem State.bumpBy_icus (s : State) (a n : Nat) : (s.bumpBy a n).icus = s.icus := rfl
@[simp] theorem State.bumpBy_guests (s : State) (a n : Nat) : (s.bumpBy a n).guests = s.guests := rfl
@[simp] theorem State.bumpBy_grovePos (s : State) (a n : Nat) : (s.bumpBy a n).grovePos = s.grovePos := rfl
@[simp] theorem State.bumpBy_skipSeen (s : State) (a n : Nat) : (s.bumpBy a n).skipSeen = s.skipSeen := rfl
@[simp] theorem State.bumpBy_twin (s : State) (a n : Nat) : (s.bumpBy a n).twin = s.twin := rfl
@[simp] theorem State.bumpBy_bridge (s : State) (a n : Nat) : (s.bumpBy a n).bridge = s.bridge := rfl
@[simp] theorem State.bumpBy_grove (s : State) (a n : Nat) : (s.bumpBy a n).grove = s.grove := rfl
@[simp] theorem State.bumpBy_safe (s : State) (a n : Nat) : (s.bumpBy a n).safe = s.safe := rfl
@[simp] theorem State.bumpBy_stem (s : State) (a n : Nat) : (s.bumpBy a n).stem = s.stem := rfl
@[simp] theorem State.bumpBy_upd (s : State) (a n : Nat) : (s.bumpBy a n).upd = s.upd := rfl
@[simp] theorem State.bumpBy_ring (s : State) (a n : Nat) : (s.bumpBy a n).ring = s.ring := rfl
@[simp] theorem State.bumpBy_life (s : State) (a n : Nat) : (s.bumpBy a n).life = s.life := rfl
@[simp] theorem State.bumpBy_seed (s : State) (a n : Nat) : (s.bumpBy a n).seed = s.seed := rfl

@[simp] theorem State.bump_held (s : State) (a : Nat) : (s.bump a).held = s.held := rfl
@[simp] theorem State.bump_free (s : State) (a : Nat) : (s.bump a).free = s.free := rfl
@[simp] theorem State.bump_freeCtr (s : State) (a : Nat) : (s.bump a).freeCtr = s.freeCtr := rfl
@[simp] theorem State.bump_cyc (s : State) (a : Nat) : (s.bump a).cyc = s.cyc := rfl
@[simp] theorem State.bump_regs (s : State) (a : Nat) : (s.bump a).regs = s.regs.set a (BitVec.ofNat 32 (satTo 0xFFFFFFFF (s.regN a + 1))) := rfl
@[simp] theorem State.bump_pend (s : State) (a : Nat) : (s.bump a).pend = s.pend := rfl
@[simp] theorem State.bump_act (s : State) (a : Nat) : (s.bump a).act = s.act := rfl
@[simp] theorem State.bump_latch (s : State) (a : Nat) : (s.bump a).latch = s.latch := rfl
@[simp] theorem State.bump_rdata (s : State) (a : Nat) : (s.bump a).rdata = s.rdata := rfl
@[simp] theorem State.bump_tag (s : State) (a : Nat) : (s.bump a).tag = s.tag := rfl
@[simp] theorem State.bump_axes (s : State) (a : Nat) : (s.bump a).axes = s.axes := rfl
@[simp] theorem State.bump_capture (s : State) (a : Nat) : (s.bump a).capture = s.capture := rfl
@[simp] theorem State.bump_rels (s : State) (a : Nat) : (s.bump a).rels = s.rels := rfl
@[simp] theorem State.bump_schedQ (s : State) (a : Nat) : (s.bump a).schedQ = s.schedQ := rfl
@[simp] theorem State.bump_frameCnt (s : State) (a : Nat) : (s.bump a).frameCnt = s.frameCnt := rfl
@[simp] theorem State.bump_cadence (s : State) (a : Nat) : (s.bump a).cadence = s.cadence := rfl
@[simp] theorem State.bump_epochLate (s : State) (a : Nat) : (s.bump a).epochLate = s.epochLate := rfl
@[simp] theorem State.bump_events (s : State) (a : Nat) : (s.bump a).events = s.events := rfl
@[simp] theorem State.bump_fwSwitch (s : State) (a : Nat) : (s.bump a).fwSwitch = s.fwSwitch := rfl
@[simp] theorem State.bump_sent (s : State) (a : Nat) : (s.bump a).sent = s.sent := rfl
@[simp] theorem State.bump_padSafeAck (s : State) (a : Nat) : (s.bump a).padSafeAck = s.padSafeAck := rfl
@[simp] theorem State.bump_padHealth (s : State) (a : Nat) : (s.bump a).padHealth = s.padHealth := rfl
@[simp] theorem State.bump_padFaultN (s : State) (a : Nat) : (s.bump a).padFaultN = s.padFaultN := rfl
@[simp] theorem State.bump_padPwrGood (s : State) (a : Nat) : (s.bump a).padPwrGood = s.padPwrGood := rfl
@[simp] theorem State.bump_ports (s : State) (a : Nat) : (s.bump a).ports = s.ports := rfl
@[simp] theorem State.bump_dmx (s : State) (a : Nat) : (s.bump a).dmx = s.dmx := rfl
@[simp] theorem State.bump_saps (s : State) (a : Nat) : (s.bump a).saps = s.saps := rfl
@[simp] theorem State.bump_diag (s : State) (a : Nat) : (s.bump a).diag = s.diag := rfl
@[simp] theorem State.bump_leafTemp (s : State) (a : Nat) : (s.bump a).leafTemp = s.leafTemp := rfl
@[simp] theorem State.bump_nodeTemp (s : State) (a : Nat) : (s.bump a).nodeTemp = s.nodeTemp := rfl
@[simp] theorem State.bump_leafStatus (s : State) (a : Nat) : (s.bump a).leafStatus = s.leafStatus := rfl
@[simp] theorem State.bump_swTable (s : State) (a : Nat) : (s.bump a).swTable = s.swTable := rfl
@[simp] theorem State.bump_tcSync (s : State) (a : Nat) : (s.bump a).tcSync = s.tcSync := rfl
@[simp] theorem State.bump_ptps (s : State) (a : Nat) : (s.bump a).ptps = s.ptps := rfl
@[simp] theorem State.bump_peerDelay (s : State) (a : Nat) : (s.bump a).peerDelay = s.peerDelay := rfl
@[simp] theorem State.bump_pdelayNext (s : State) (a : Nat) : (s.bump a).pdelayNext = s.pdelayNext := rfl
@[simp] theorem State.bump_pdelaySeq (s : State) (a : Nat) : (s.bump a).pdelaySeq = s.pdelaySeq := rfl
@[simp] theorem State.bump_ppsLast (s : State) (a : Nat) : (s.bump a).ppsLast = s.ppsLast := rfl
@[simp] theorem State.bump_ppsGood (s : State) (a : Nat) : (s.bump a).ppsGood = s.ppsGood := rfl
@[simp] theorem State.bump_ppsRun (s : State) (a : Nat) : (s.bump a).ppsRun = s.ppsRun := rfl
@[simp] theorem State.bump_ppsLostAt (s : State) (a : Nat) : (s.bump a).ppsLostAt = s.ppsLostAt := rfl
@[simp] theorem State.bump_ppsOut (s : State) (a : Nat) : (s.bump a).ppsOut = s.ppsOut := rfl
@[simp] theorem State.bump_settingsBody (s : State) (a : Nat) : (s.bump a).settingsBody = s.settingsBody := rfl
@[simp] theorem State.bump_e131tx (s : State) (a : Nat) : (s.bump a).e131tx = s.e131tx := rfl
@[simp] theorem State.bump_e131rx (s : State) (a : Nat) : (s.bump a).e131rx = s.e131rx := rfl
@[simp] theorem State.bump_capE131 (s : State) (a : Nat) : (s.bump a).capE131 = s.capE131 := rfl
@[simp] theorem State.bump_capDmx (s : State) (a : Nat) : (s.bump a).capDmx = s.capDmx := rfl
@[simp] theorem State.bump_trunks (s : State) (a : Nat) : (s.bump a).trunks = s.trunks := rfl
@[simp] theorem State.bump_inputs (s : State) (a : Nat) : (s.bump a).inputs = s.inputs := rfl
@[simp] theorem State.bump_rasters (s : State) (a : Nat) : (s.bump a).rasters = s.rasters := rfl
@[simp] theorem State.bump_rasterOut (s : State) (a : Nat) : (s.bump a).rasterOut = s.rasterOut := rfl
@[simp] theorem State.bump_shedLeaves (s : State) (a : Nat) : (s.bump a).shedLeaves = s.shedLeaves := rfl
@[simp] theorem State.bump_thin (s : State) (a : Nat) : (s.bump a).thin = s.thin := rfl
@[simp] theorem State.bump_safetySeed (s : State) (a : Nat) : (s.bump a).safetySeed = s.safetySeed := rfl
@[simp] theorem State.bump_chk (s : State) (a : Nat) : (s.bump a).chk = s.chk := rfl
@[simp] theorem State.bump_eccSeen (s : State) (a : Nat) : (s.bump a).eccSeen = s.eccSeen := rfl
@[simp] theorem State.bump_scrubAt (s : State) (a : Nat) : (s.bump a).scrubAt = s.scrubAt := rfl
@[simp] theorem State.bump_hwCopy (s : State) (a : Nat) : (s.bump a).hwCopy = s.hwCopy := rfl
@[simp] theorem State.bump_qbs (s : State) (a : Nat) : (s.bump a).qbs = s.qbs := rfl
@[simp] theorem State.bump_scheds (s : State) (a : Nat) : (s.bump a).scheds = s.scheds := rfl
@[simp] theorem State.bump_icus (s : State) (a : Nat) : (s.bump a).icus = s.icus := rfl
@[simp] theorem State.bump_guests (s : State) (a : Nat) : (s.bump a).guests = s.guests := rfl
@[simp] theorem State.bump_grovePos (s : State) (a : Nat) : (s.bump a).grovePos = s.grovePos := rfl
@[simp] theorem State.bump_skipSeen (s : State) (a : Nat) : (s.bump a).skipSeen = s.skipSeen := rfl
@[simp] theorem State.bump_twin (s : State) (a : Nat) : (s.bump a).twin = s.twin := rfl
@[simp] theorem State.bump_bridge (s : State) (a : Nat) : (s.bump a).bridge = s.bridge := rfl
@[simp] theorem State.bump_grove (s : State) (a : Nat) : (s.bump a).grove = s.grove := rfl
@[simp] theorem State.bump_safe (s : State) (a : Nat) : (s.bump a).safe = s.safe := rfl
@[simp] theorem State.bump_stem (s : State) (a : Nat) : (s.bump a).stem = s.stem := rfl
@[simp] theorem State.bump_upd (s : State) (a : Nat) : (s.bump a).upd = s.upd := rfl
@[simp] theorem State.bump_ring (s : State) (a : Nat) : (s.bump a).ring = s.ring := rfl
@[simp] theorem State.bump_life (s : State) (a : Nat) : (s.bump a).life = s.life := rfl
@[simp] theorem State.bump_seed (s : State) (a : Nat) : (s.bump a).seed = s.seed := rfl

@[simp] theorem State.setAxis_held (s : State) (n : Nat) (a : AxisSt) : (s.setAxis n a).held = s.held := rfl
@[simp] theorem State.setAxis_free (s : State) (n : Nat) (a : AxisSt) : (s.setAxis n a).free = s.free := rfl
@[simp] theorem State.setAxis_freeCtr (s : State) (n : Nat) (a : AxisSt) : (s.setAxis n a).freeCtr = s.freeCtr := rfl
@[simp] theorem State.setAxis_cyc (s : State) (n : Nat) (a : AxisSt) : (s.setAxis n a).cyc = s.cyc := rfl
@[simp] theorem State.setAxis_regs (s : State) (n : Nat) (a : AxisSt) : (s.setAxis n a).regs = s.regs := rfl
@[simp] theorem State.setAxis_pend (s : State) (n : Nat) (a : AxisSt) : (s.setAxis n a).pend = s.pend := rfl
@[simp] theorem State.setAxis_act (s : State) (n : Nat) (a : AxisSt) : (s.setAxis n a).act = s.act := rfl
@[simp] theorem State.setAxis_latch (s : State) (n : Nat) (a : AxisSt) : (s.setAxis n a).latch = s.latch := rfl
@[simp] theorem State.setAxis_rdata (s : State) (n : Nat) (a : AxisSt) : (s.setAxis n a).rdata = s.rdata := rfl
@[simp] theorem State.setAxis_tag (s : State) (n : Nat) (a : AxisSt) : (s.setAxis n a).tag = s.tag := rfl
@[simp] theorem State.setAxis_axes (s : State) (n : Nat) (a : AxisSt) : (s.setAxis n a).axes = s.axes.set n a := rfl
@[simp] theorem State.setAxis_capture (s : State) (n : Nat) (a : AxisSt) : (s.setAxis n a).capture = s.capture := rfl
@[simp] theorem State.setAxis_rels (s : State) (n : Nat) (a : AxisSt) : (s.setAxis n a).rels = s.rels := rfl
@[simp] theorem State.setAxis_schedQ (s : State) (n : Nat) (a : AxisSt) : (s.setAxis n a).schedQ = s.schedQ := rfl
@[simp] theorem State.setAxis_frameCnt (s : State) (n : Nat) (a : AxisSt) : (s.setAxis n a).frameCnt = s.frameCnt := rfl
@[simp] theorem State.setAxis_cadence (s : State) (n : Nat) (a : AxisSt) : (s.setAxis n a).cadence = s.cadence := rfl
@[simp] theorem State.setAxis_epochLate (s : State) (n : Nat) (a : AxisSt) : (s.setAxis n a).epochLate = s.epochLate := rfl
@[simp] theorem State.setAxis_events (s : State) (n : Nat) (a : AxisSt) : (s.setAxis n a).events = s.events := rfl
@[simp] theorem State.setAxis_fwSwitch (s : State) (n : Nat) (a : AxisSt) : (s.setAxis n a).fwSwitch = s.fwSwitch := rfl
@[simp] theorem State.setAxis_sent (s : State) (n : Nat) (a : AxisSt) : (s.setAxis n a).sent = s.sent := rfl
@[simp] theorem State.setAxis_padSafeAck (s : State) (n : Nat) (a : AxisSt) : (s.setAxis n a).padSafeAck = s.padSafeAck := rfl
@[simp] theorem State.setAxis_padHealth (s : State) (n : Nat) (a : AxisSt) : (s.setAxis n a).padHealth = s.padHealth := rfl
@[simp] theorem State.setAxis_padFaultN (s : State) (n : Nat) (a : AxisSt) : (s.setAxis n a).padFaultN = s.padFaultN := rfl
@[simp] theorem State.setAxis_padPwrGood (s : State) (n : Nat) (a : AxisSt) : (s.setAxis n a).padPwrGood = s.padPwrGood := rfl
@[simp] theorem State.setAxis_ports (s : State) (n : Nat) (a : AxisSt) : (s.setAxis n a).ports = s.ports := rfl
@[simp] theorem State.setAxis_dmx (s : State) (n : Nat) (a : AxisSt) : (s.setAxis n a).dmx = s.dmx := rfl
@[simp] theorem State.setAxis_saps (s : State) (n : Nat) (a : AxisSt) : (s.setAxis n a).saps = s.saps := rfl
@[simp] theorem State.setAxis_diag (s : State) (n : Nat) (a : AxisSt) : (s.setAxis n a).diag = s.diag := rfl
@[simp] theorem State.setAxis_leafTemp (s : State) (n : Nat) (a : AxisSt) : (s.setAxis n a).leafTemp = s.leafTemp := rfl
@[simp] theorem State.setAxis_nodeTemp (s : State) (n : Nat) (a : AxisSt) : (s.setAxis n a).nodeTemp = s.nodeTemp := rfl
@[simp] theorem State.setAxis_leafStatus (s : State) (n : Nat) (a : AxisSt) : (s.setAxis n a).leafStatus = s.leafStatus := rfl
@[simp] theorem State.setAxis_swTable (s : State) (n : Nat) (a : AxisSt) : (s.setAxis n a).swTable = s.swTable := rfl
@[simp] theorem State.setAxis_tcSync (s : State) (n : Nat) (a : AxisSt) : (s.setAxis n a).tcSync = s.tcSync := rfl
@[simp] theorem State.setAxis_ptps (s : State) (n : Nat) (a : AxisSt) : (s.setAxis n a).ptps = s.ptps := rfl
@[simp] theorem State.setAxis_peerDelay (s : State) (n : Nat) (a : AxisSt) : (s.setAxis n a).peerDelay = s.peerDelay := rfl
@[simp] theorem State.setAxis_pdelayNext (s : State) (n : Nat) (a : AxisSt) : (s.setAxis n a).pdelayNext = s.pdelayNext := rfl
@[simp] theorem State.setAxis_pdelaySeq (s : State) (n : Nat) (a : AxisSt) : (s.setAxis n a).pdelaySeq = s.pdelaySeq := rfl
@[simp] theorem State.setAxis_ppsLast (s : State) (n : Nat) (a : AxisSt) : (s.setAxis n a).ppsLast = s.ppsLast := rfl
@[simp] theorem State.setAxis_ppsGood (s : State) (n : Nat) (a : AxisSt) : (s.setAxis n a).ppsGood = s.ppsGood := rfl
@[simp] theorem State.setAxis_ppsRun (s : State) (n : Nat) (a : AxisSt) : (s.setAxis n a).ppsRun = s.ppsRun := rfl
@[simp] theorem State.setAxis_ppsLostAt (s : State) (n : Nat) (a : AxisSt) : (s.setAxis n a).ppsLostAt = s.ppsLostAt := rfl
@[simp] theorem State.setAxis_ppsOut (s : State) (n : Nat) (a : AxisSt) : (s.setAxis n a).ppsOut = s.ppsOut := rfl
@[simp] theorem State.setAxis_settingsBody (s : State) (n : Nat) (a : AxisSt) : (s.setAxis n a).settingsBody = s.settingsBody := rfl
@[simp] theorem State.setAxis_e131tx (s : State) (n : Nat) (a : AxisSt) : (s.setAxis n a).e131tx = s.e131tx := rfl
@[simp] theorem State.setAxis_e131rx (s : State) (n : Nat) (a : AxisSt) : (s.setAxis n a).e131rx = s.e131rx := rfl
@[simp] theorem State.setAxis_capE131 (s : State) (n : Nat) (a : AxisSt) : (s.setAxis n a).capE131 = s.capE131 := rfl
@[simp] theorem State.setAxis_capDmx (s : State) (n : Nat) (a : AxisSt) : (s.setAxis n a).capDmx = s.capDmx := rfl
@[simp] theorem State.setAxis_trunks (s : State) (n : Nat) (a : AxisSt) : (s.setAxis n a).trunks = s.trunks := rfl
@[simp] theorem State.setAxis_inputs (s : State) (n : Nat) (a : AxisSt) : (s.setAxis n a).inputs = s.inputs := rfl
@[simp] theorem State.setAxis_rasters (s : State) (n : Nat) (a : AxisSt) : (s.setAxis n a).rasters = s.rasters := rfl
@[simp] theorem State.setAxis_rasterOut (s : State) (n : Nat) (a : AxisSt) : (s.setAxis n a).rasterOut = s.rasterOut := rfl
@[simp] theorem State.setAxis_shedLeaves (s : State) (n : Nat) (a : AxisSt) : (s.setAxis n a).shedLeaves = s.shedLeaves := rfl
@[simp] theorem State.setAxis_thin (s : State) (n : Nat) (a : AxisSt) : (s.setAxis n a).thin = s.thin := rfl
@[simp] theorem State.setAxis_safetySeed (s : State) (n : Nat) (a : AxisSt) : (s.setAxis n a).safetySeed = s.safetySeed := rfl
@[simp] theorem State.setAxis_chk (s : State) (n : Nat) (a : AxisSt) : (s.setAxis n a).chk = s.chk := rfl
@[simp] theorem State.setAxis_eccSeen (s : State) (n : Nat) (a : AxisSt) : (s.setAxis n a).eccSeen = s.eccSeen := rfl
@[simp] theorem State.setAxis_scrubAt (s : State) (n : Nat) (a : AxisSt) : (s.setAxis n a).scrubAt = s.scrubAt := rfl
@[simp] theorem State.setAxis_hwCopy (s : State) (n : Nat) (a : AxisSt) : (s.setAxis n a).hwCopy = s.hwCopy := rfl
@[simp] theorem State.setAxis_qbs (s : State) (n : Nat) (a : AxisSt) : (s.setAxis n a).qbs = s.qbs := rfl
@[simp] theorem State.setAxis_scheds (s : State) (n : Nat) (a : AxisSt) : (s.setAxis n a).scheds = s.scheds := rfl
@[simp] theorem State.setAxis_icus (s : State) (n : Nat) (a : AxisSt) : (s.setAxis n a).icus = s.icus := rfl
@[simp] theorem State.setAxis_guests (s : State) (n : Nat) (a : AxisSt) : (s.setAxis n a).guests = s.guests := rfl
@[simp] theorem State.setAxis_grovePos (s : State) (n : Nat) (a : AxisSt) : (s.setAxis n a).grovePos = s.grovePos := rfl
@[simp] theorem State.setAxis_skipSeen (s : State) (n : Nat) (a : AxisSt) : (s.setAxis n a).skipSeen = s.skipSeen := rfl
@[simp] theorem State.setAxis_twin (s : State) (n : Nat) (a : AxisSt) : (s.setAxis n a).twin = s.twin := rfl
@[simp] theorem State.setAxis_bridge (s : State) (n : Nat) (a : AxisSt) : (s.setAxis n a).bridge = s.bridge := rfl
@[simp] theorem State.setAxis_grove (s : State) (n : Nat) (a : AxisSt) : (s.setAxis n a).grove = s.grove := rfl
@[simp] theorem State.setAxis_safe (s : State) (n : Nat) (a : AxisSt) : (s.setAxis n a).safe = s.safe := rfl
@[simp] theorem State.setAxis_stem (s : State) (n : Nat) (a : AxisSt) : (s.setAxis n a).stem = s.stem := rfl
@[simp] theorem State.setAxis_upd (s : State) (n : Nat) (a : AxisSt) : (s.setAxis n a).upd = s.upd := rfl
@[simp] theorem State.setAxis_ring (s : State) (n : Nat) (a : AxisSt) : (s.setAxis n a).ring = s.ring := rfl
@[simp] theorem State.setAxis_life (s : State) (n : Nat) (a : AxisSt) : (s.setAxis n a).life = s.life := rfl
@[simp] theorem State.setAxis_seed (s : State) (n : Nat) (a : AxisSt) : (s.setAxis n a).seed = s.seed := rfl

@[simp] theorem State.emit_held (s : State) (x : Sent) : (s.emit x).held = s.held := rfl
@[simp] theorem State.emit_free (s : State) (x : Sent) : (s.emit x).free = s.free := rfl
@[simp] theorem State.emit_freeCtr (s : State) (x : Sent) : (s.emit x).freeCtr = s.freeCtr := rfl
@[simp] theorem State.emit_cyc (s : State) (x : Sent) : (s.emit x).cyc = s.cyc := rfl
@[simp] theorem State.emit_regs (s : State) (x : Sent) : (s.emit x).regs = s.regs := rfl
@[simp] theorem State.emit_pend (s : State) (x : Sent) : (s.emit x).pend = s.pend := rfl
@[simp] theorem State.emit_act (s : State) (x : Sent) : (s.emit x).act = s.act := rfl
@[simp] theorem State.emit_latch (s : State) (x : Sent) : (s.emit x).latch = s.latch := rfl
@[simp] theorem State.emit_rdata (s : State) (x : Sent) : (s.emit x).rdata = s.rdata := rfl
@[simp] theorem State.emit_tag (s : State) (x : Sent) : (s.emit x).tag = s.tag := rfl
@[simp] theorem State.emit_axes (s : State) (x : Sent) : (s.emit x).axes = s.axes := rfl
@[simp] theorem State.emit_capture (s : State) (x : Sent) : (s.emit x).capture = s.capture := rfl
@[simp] theorem State.emit_rels (s : State) (x : Sent) : (s.emit x).rels = s.rels := rfl
@[simp] theorem State.emit_schedQ (s : State) (x : Sent) : (s.emit x).schedQ = s.schedQ := rfl
@[simp] theorem State.emit_frameCnt (s : State) (x : Sent) : (s.emit x).frameCnt = s.frameCnt := rfl
@[simp] theorem State.emit_cadence (s : State) (x : Sent) : (s.emit x).cadence = s.cadence := rfl
@[simp] theorem State.emit_epochLate (s : State) (x : Sent) : (s.emit x).epochLate = s.epochLate := rfl
@[simp] theorem State.emit_events (s : State) (x : Sent) : (s.emit x).events = s.events := rfl
@[simp] theorem State.emit_fwSwitch (s : State) (x : Sent) : (s.emit x).fwSwitch = s.fwSwitch := rfl
@[simp] theorem State.emit_sent (s : State) (x : Sent) : (s.emit x).sent = s.sent ++ [x] := rfl
@[simp] theorem State.emit_padSafeAck (s : State) (x : Sent) : (s.emit x).padSafeAck = s.padSafeAck := rfl
@[simp] theorem State.emit_padHealth (s : State) (x : Sent) : (s.emit x).padHealth = s.padHealth := rfl
@[simp] theorem State.emit_padFaultN (s : State) (x : Sent) : (s.emit x).padFaultN = s.padFaultN := rfl
@[simp] theorem State.emit_padPwrGood (s : State) (x : Sent) : (s.emit x).padPwrGood = s.padPwrGood := rfl
@[simp] theorem State.emit_ports (s : State) (x : Sent) : (s.emit x).ports = s.ports := rfl
@[simp] theorem State.emit_dmx (s : State) (x : Sent) : (s.emit x).dmx = s.dmx := rfl
@[simp] theorem State.emit_saps (s : State) (x : Sent) : (s.emit x).saps = s.saps := rfl
@[simp] theorem State.emit_diag (s : State) (x : Sent) : (s.emit x).diag = s.diag := rfl
@[simp] theorem State.emit_leafTemp (s : State) (x : Sent) : (s.emit x).leafTemp = s.leafTemp := rfl
@[simp] theorem State.emit_nodeTemp (s : State) (x : Sent) : (s.emit x).nodeTemp = s.nodeTemp := rfl
@[simp] theorem State.emit_leafStatus (s : State) (x : Sent) : (s.emit x).leafStatus = s.leafStatus := rfl
@[simp] theorem State.emit_swTable (s : State) (x : Sent) : (s.emit x).swTable = s.swTable := rfl
@[simp] theorem State.emit_tcSync (s : State) (x : Sent) : (s.emit x).tcSync = s.tcSync := rfl
@[simp] theorem State.emit_ptps (s : State) (x : Sent) : (s.emit x).ptps = s.ptps := rfl
@[simp] theorem State.emit_peerDelay (s : State) (x : Sent) : (s.emit x).peerDelay = s.peerDelay := rfl
@[simp] theorem State.emit_pdelayNext (s : State) (x : Sent) : (s.emit x).pdelayNext = s.pdelayNext := rfl
@[simp] theorem State.emit_pdelaySeq (s : State) (x : Sent) : (s.emit x).pdelaySeq = s.pdelaySeq := rfl
@[simp] theorem State.emit_ppsLast (s : State) (x : Sent) : (s.emit x).ppsLast = s.ppsLast := rfl
@[simp] theorem State.emit_ppsGood (s : State) (x : Sent) : (s.emit x).ppsGood = s.ppsGood := rfl
@[simp] theorem State.emit_ppsRun (s : State) (x : Sent) : (s.emit x).ppsRun = s.ppsRun := rfl
@[simp] theorem State.emit_ppsLostAt (s : State) (x : Sent) : (s.emit x).ppsLostAt = s.ppsLostAt := rfl
@[simp] theorem State.emit_ppsOut (s : State) (x : Sent) : (s.emit x).ppsOut = s.ppsOut := rfl
@[simp] theorem State.emit_settingsBody (s : State) (x : Sent) : (s.emit x).settingsBody = s.settingsBody := rfl
@[simp] theorem State.emit_e131tx (s : State) (x : Sent) : (s.emit x).e131tx = s.e131tx := rfl
@[simp] theorem State.emit_e131rx (s : State) (x : Sent) : (s.emit x).e131rx = s.e131rx := rfl
@[simp] theorem State.emit_capE131 (s : State) (x : Sent) : (s.emit x).capE131 = s.capE131 := rfl
@[simp] theorem State.emit_capDmx (s : State) (x : Sent) : (s.emit x).capDmx = s.capDmx := rfl
@[simp] theorem State.emit_trunks (s : State) (x : Sent) : (s.emit x).trunks = s.trunks := rfl
@[simp] theorem State.emit_inputs (s : State) (x : Sent) : (s.emit x).inputs = s.inputs := rfl
@[simp] theorem State.emit_rasters (s : State) (x : Sent) : (s.emit x).rasters = s.rasters := rfl
@[simp] theorem State.emit_rasterOut (s : State) (x : Sent) : (s.emit x).rasterOut = s.rasterOut := rfl
@[simp] theorem State.emit_shedLeaves (s : State) (x : Sent) : (s.emit x).shedLeaves = s.shedLeaves := rfl
@[simp] theorem State.emit_thin (s : State) (x : Sent) : (s.emit x).thin = s.thin := rfl
@[simp] theorem State.emit_safetySeed (s : State) (x : Sent) : (s.emit x).safetySeed = s.safetySeed := rfl
@[simp] theorem State.emit_chk (s : State) (x : Sent) : (s.emit x).chk = s.chk := rfl
@[simp] theorem State.emit_eccSeen (s : State) (x : Sent) : (s.emit x).eccSeen = s.eccSeen := rfl
@[simp] theorem State.emit_scrubAt (s : State) (x : Sent) : (s.emit x).scrubAt = s.scrubAt := rfl
@[simp] theorem State.emit_hwCopy (s : State) (x : Sent) : (s.emit x).hwCopy = s.hwCopy := rfl
@[simp] theorem State.emit_qbs (s : State) (x : Sent) : (s.emit x).qbs = s.qbs := rfl
@[simp] theorem State.emit_scheds (s : State) (x : Sent) : (s.emit x).scheds = s.scheds := rfl
@[simp] theorem State.emit_icus (s : State) (x : Sent) : (s.emit x).icus = s.icus := rfl
@[simp] theorem State.emit_guests (s : State) (x : Sent) : (s.emit x).guests = s.guests := rfl
@[simp] theorem State.emit_grovePos (s : State) (x : Sent) : (s.emit x).grovePos = s.grovePos := rfl
@[simp] theorem State.emit_skipSeen (s : State) (x : Sent) : (s.emit x).skipSeen = s.skipSeen := rfl
@[simp] theorem State.emit_twin (s : State) (x : Sent) : (s.emit x).twin = s.twin := rfl
@[simp] theorem State.emit_bridge (s : State) (x : Sent) : (s.emit x).bridge = s.bridge := rfl
@[simp] theorem State.emit_grove (s : State) (x : Sent) : (s.emit x).grove = s.grove := rfl
@[simp] theorem State.emit_safe (s : State) (x : Sent) : (s.emit x).safe = s.safe := rfl
@[simp] theorem State.emit_stem (s : State) (x : Sent) : (s.emit x).stem = s.stem := rfl
@[simp] theorem State.emit_upd (s : State) (x : Sent) : (s.emit x).upd = s.upd := rfl
@[simp] theorem State.emit_ring (s : State) (x : Sent) : (s.emit x).ring = s.ring := rfl
@[simp] theorem State.emit_life (s : State) (x : Sent) : (s.emit x).life = s.life := rfl
@[simp] theorem State.emit_seed (s : State) (x : Sent) : (s.emit x).seed = s.seed := rfl

@[simp] theorem State.nextTag_held (s : State) : (s.nextTag).held = s.held := rfl
@[simp] theorem State.nextTag_free (s : State) : (s.nextTag).free = s.free := rfl
@[simp] theorem State.nextTag_freeCtr (s : State) : (s.nextTag).freeCtr = s.freeCtr := rfl
@[simp] theorem State.nextTag_cyc (s : State) : (s.nextTag).cyc = s.cyc := rfl
@[simp] theorem State.nextTag_regs (s : State) : (s.nextTag).regs = s.regs := rfl
@[simp] theorem State.nextTag_pend (s : State) : (s.nextTag).pend = s.pend := rfl
@[simp] theorem State.nextTag_act (s : State) : (s.nextTag).act = s.act := rfl
@[simp] theorem State.nextTag_latch (s : State) : (s.nextTag).latch = s.latch := rfl
@[simp] theorem State.nextTag_rdata (s : State) : (s.nextTag).rdata = s.rdata := rfl
@[simp] theorem State.nextTag_tag (s : State) : (s.nextTag).tag = s.tag + 1 := rfl
@[simp] theorem State.nextTag_axes (s : State) : (s.nextTag).axes = s.axes := rfl
@[simp] theorem State.nextTag_capture (s : State) : (s.nextTag).capture = s.capture := rfl
@[simp] theorem State.nextTag_rels (s : State) : (s.nextTag).rels = s.rels := rfl
@[simp] theorem State.nextTag_schedQ (s : State) : (s.nextTag).schedQ = s.schedQ := rfl
@[simp] theorem State.nextTag_frameCnt (s : State) : (s.nextTag).frameCnt = s.frameCnt := rfl
@[simp] theorem State.nextTag_cadence (s : State) : (s.nextTag).cadence = s.cadence := rfl
@[simp] theorem State.nextTag_epochLate (s : State) : (s.nextTag).epochLate = s.epochLate := rfl
@[simp] theorem State.nextTag_events (s : State) : (s.nextTag).events = s.events := rfl
@[simp] theorem State.nextTag_fwSwitch (s : State) : (s.nextTag).fwSwitch = s.fwSwitch := rfl
@[simp] theorem State.nextTag_sent (s : State) : (s.nextTag).sent = s.sent := rfl
@[simp] theorem State.nextTag_padSafeAck (s : State) : (s.nextTag).padSafeAck = s.padSafeAck := rfl
@[simp] theorem State.nextTag_padHealth (s : State) : (s.nextTag).padHealth = s.padHealth := rfl
@[simp] theorem State.nextTag_padFaultN (s : State) : (s.nextTag).padFaultN = s.padFaultN := rfl
@[simp] theorem State.nextTag_padPwrGood (s : State) : (s.nextTag).padPwrGood = s.padPwrGood := rfl
@[simp] theorem State.nextTag_ports (s : State) : (s.nextTag).ports = s.ports := rfl
@[simp] theorem State.nextTag_dmx (s : State) : (s.nextTag).dmx = s.dmx := rfl
@[simp] theorem State.nextTag_saps (s : State) : (s.nextTag).saps = s.saps := rfl
@[simp] theorem State.nextTag_diag (s : State) : (s.nextTag).diag = s.diag := rfl
@[simp] theorem State.nextTag_leafTemp (s : State) : (s.nextTag).leafTemp = s.leafTemp := rfl
@[simp] theorem State.nextTag_nodeTemp (s : State) : (s.nextTag).nodeTemp = s.nodeTemp := rfl
@[simp] theorem State.nextTag_leafStatus (s : State) : (s.nextTag).leafStatus = s.leafStatus := rfl
@[simp] theorem State.nextTag_swTable (s : State) : (s.nextTag).swTable = s.swTable := rfl
@[simp] theorem State.nextTag_tcSync (s : State) : (s.nextTag).tcSync = s.tcSync := rfl
@[simp] theorem State.nextTag_ptps (s : State) : (s.nextTag).ptps = s.ptps := rfl
@[simp] theorem State.nextTag_peerDelay (s : State) : (s.nextTag).peerDelay = s.peerDelay := rfl
@[simp] theorem State.nextTag_pdelayNext (s : State) : (s.nextTag).pdelayNext = s.pdelayNext := rfl
@[simp] theorem State.nextTag_pdelaySeq (s : State) : (s.nextTag).pdelaySeq = s.pdelaySeq := rfl
@[simp] theorem State.nextTag_ppsLast (s : State) : (s.nextTag).ppsLast = s.ppsLast := rfl
@[simp] theorem State.nextTag_ppsGood (s : State) : (s.nextTag).ppsGood = s.ppsGood := rfl
@[simp] theorem State.nextTag_ppsRun (s : State) : (s.nextTag).ppsRun = s.ppsRun := rfl
@[simp] theorem State.nextTag_ppsLostAt (s : State) : (s.nextTag).ppsLostAt = s.ppsLostAt := rfl
@[simp] theorem State.nextTag_ppsOut (s : State) : (s.nextTag).ppsOut = s.ppsOut := rfl
@[simp] theorem State.nextTag_settingsBody (s : State) : (s.nextTag).settingsBody = s.settingsBody := rfl
@[simp] theorem State.nextTag_e131tx (s : State) : (s.nextTag).e131tx = s.e131tx := rfl
@[simp] theorem State.nextTag_e131rx (s : State) : (s.nextTag).e131rx = s.e131rx := rfl
@[simp] theorem State.nextTag_capE131 (s : State) : (s.nextTag).capE131 = s.capE131 := rfl
@[simp] theorem State.nextTag_capDmx (s : State) : (s.nextTag).capDmx = s.capDmx := rfl
@[simp] theorem State.nextTag_trunks (s : State) : (s.nextTag).trunks = s.trunks := rfl
@[simp] theorem State.nextTag_inputs (s : State) : (s.nextTag).inputs = s.inputs := rfl
@[simp] theorem State.nextTag_rasters (s : State) : (s.nextTag).rasters = s.rasters := rfl
@[simp] theorem State.nextTag_rasterOut (s : State) : (s.nextTag).rasterOut = s.rasterOut := rfl
@[simp] theorem State.nextTag_shedLeaves (s : State) : (s.nextTag).shedLeaves = s.shedLeaves := rfl
@[simp] theorem State.nextTag_thin (s : State) : (s.nextTag).thin = s.thin := rfl
@[simp] theorem State.nextTag_safetySeed (s : State) : (s.nextTag).safetySeed = s.safetySeed := rfl
@[simp] theorem State.nextTag_chk (s : State) : (s.nextTag).chk = s.chk := rfl
@[simp] theorem State.nextTag_eccSeen (s : State) : (s.nextTag).eccSeen = s.eccSeen := rfl
@[simp] theorem State.nextTag_scrubAt (s : State) : (s.nextTag).scrubAt = s.scrubAt := rfl
@[simp] theorem State.nextTag_hwCopy (s : State) : (s.nextTag).hwCopy = s.hwCopy := rfl
@[simp] theorem State.nextTag_qbs (s : State) : (s.nextTag).qbs = s.qbs := rfl
@[simp] theorem State.nextTag_scheds (s : State) : (s.nextTag).scheds = s.scheds := rfl
@[simp] theorem State.nextTag_icus (s : State) : (s.nextTag).icus = s.icus := rfl
@[simp] theorem State.nextTag_guests (s : State) : (s.nextTag).guests = s.guests := rfl
@[simp] theorem State.nextTag_grovePos (s : State) : (s.nextTag).grovePos = s.grovePos := rfl
@[simp] theorem State.nextTag_skipSeen (s : State) : (s.nextTag).skipSeen = s.skipSeen := rfl
@[simp] theorem State.nextTag_twin (s : State) : (s.nextTag).twin = s.twin := rfl
@[simp] theorem State.nextTag_bridge (s : State) : (s.nextTag).bridge = s.bridge := rfl
@[simp] theorem State.nextTag_grove (s : State) : (s.nextTag).grove = s.grove := rfl
@[simp] theorem State.nextTag_safe (s : State) : (s.nextTag).safe = s.safe := rfl
@[simp] theorem State.nextTag_stem (s : State) : (s.nextTag).stem = s.stem := rfl
@[simp] theorem State.nextTag_upd (s : State) : (s.nextTag).upd = s.upd := rfl
@[simp] theorem State.nextTag_ring (s : State) : (s.nextTag).ring = s.ring := rfl
@[simp] theorem State.nextTag_life (s : State) : (s.nextTag).life = s.life := rfl
@[simp] theorem State.nextTag_seed (s : State) : (s.nextTag).seed = s.seed := rfl

@[simp] theorem State.draw_held (s : State) (n : Nat) : (s.draw n).2.held = s.held := rfl
@[simp] theorem State.draw_free (s : State) (n : Nat) : (s.draw n).2.free = s.free := rfl
@[simp] theorem State.draw_freeCtr (s : State) (n : Nat) : (s.draw n).2.freeCtr = s.freeCtr + 1 := rfl
@[simp] theorem State.draw_cyc (s : State) (n : Nat) : (s.draw n).2.cyc = s.cyc := rfl
@[simp] theorem State.draw_regs (s : State) (n : Nat) : (s.draw n).2.regs = s.regs := rfl
@[simp] theorem State.draw_pend (s : State) (n : Nat) : (s.draw n).2.pend = s.pend := rfl
@[simp] theorem State.draw_act (s : State) (n : Nat) : (s.draw n).2.act = s.act := rfl
@[simp] theorem State.draw_latch (s : State) (n : Nat) : (s.draw n).2.latch = s.latch := rfl
@[simp] theorem State.draw_rdata (s : State) (n : Nat) : (s.draw n).2.rdata = s.rdata := rfl
@[simp] theorem State.draw_tag (s : State) (n : Nat) : (s.draw n).2.tag = s.tag := rfl
@[simp] theorem State.draw_axes (s : State) (n : Nat) : (s.draw n).2.axes = s.axes := rfl
@[simp] theorem State.draw_capture (s : State) (n : Nat) : (s.draw n).2.capture = s.capture := rfl
@[simp] theorem State.draw_rels (s : State) (n : Nat) : (s.draw n).2.rels = s.rels := rfl
@[simp] theorem State.draw_schedQ (s : State) (n : Nat) : (s.draw n).2.schedQ = s.schedQ := rfl
@[simp] theorem State.draw_frameCnt (s : State) (n : Nat) : (s.draw n).2.frameCnt = s.frameCnt := rfl
@[simp] theorem State.draw_cadence (s : State) (n : Nat) : (s.draw n).2.cadence = s.cadence := rfl
@[simp] theorem State.draw_epochLate (s : State) (n : Nat) : (s.draw n).2.epochLate = s.epochLate := rfl
@[simp] theorem State.draw_events (s : State) (n : Nat) : (s.draw n).2.events = s.events := rfl
@[simp] theorem State.draw_fwSwitch (s : State) (n : Nat) : (s.draw n).2.fwSwitch = s.fwSwitch := rfl
@[simp] theorem State.draw_sent (s : State) (n : Nat) : (s.draw n).2.sent = s.sent := rfl
@[simp] theorem State.draw_padSafeAck (s : State) (n : Nat) : (s.draw n).2.padSafeAck = s.padSafeAck := rfl
@[simp] theorem State.draw_padHealth (s : State) (n : Nat) : (s.draw n).2.padHealth = s.padHealth := rfl
@[simp] theorem State.draw_padFaultN (s : State) (n : Nat) : (s.draw n).2.padFaultN = s.padFaultN := rfl
@[simp] theorem State.draw_padPwrGood (s : State) (n : Nat) : (s.draw n).2.padPwrGood = s.padPwrGood := rfl
@[simp] theorem State.draw_ports (s : State) (n : Nat) : (s.draw n).2.ports = s.ports := rfl
@[simp] theorem State.draw_dmx (s : State) (n : Nat) : (s.draw n).2.dmx = s.dmx := rfl
@[simp] theorem State.draw_saps (s : State) (n : Nat) : (s.draw n).2.saps = s.saps := rfl
@[simp] theorem State.draw_diag (s : State) (n : Nat) : (s.draw n).2.diag = s.diag := rfl
@[simp] theorem State.draw_leafTemp (s : State) (n : Nat) : (s.draw n).2.leafTemp = s.leafTemp := rfl
@[simp] theorem State.draw_nodeTemp (s : State) (n : Nat) : (s.draw n).2.nodeTemp = s.nodeTemp := rfl
@[simp] theorem State.draw_leafStatus (s : State) (n : Nat) : (s.draw n).2.leafStatus = s.leafStatus := rfl
@[simp] theorem State.draw_swTable (s : State) (n : Nat) : (s.draw n).2.swTable = s.swTable := rfl
@[simp] theorem State.draw_tcSync (s : State) (n : Nat) : (s.draw n).2.tcSync = s.tcSync := rfl
@[simp] theorem State.draw_ptps (s : State) (n : Nat) : (s.draw n).2.ptps = s.ptps := rfl
@[simp] theorem State.draw_peerDelay (s : State) (n : Nat) : (s.draw n).2.peerDelay = s.peerDelay := rfl
@[simp] theorem State.draw_pdelayNext (s : State) (n : Nat) : (s.draw n).2.pdelayNext = s.pdelayNext := rfl
@[simp] theorem State.draw_pdelaySeq (s : State) (n : Nat) : (s.draw n).2.pdelaySeq = s.pdelaySeq := rfl
@[simp] theorem State.draw_ppsLast (s : State) (n : Nat) : (s.draw n).2.ppsLast = s.ppsLast := rfl
@[simp] theorem State.draw_ppsGood (s : State) (n : Nat) : (s.draw n).2.ppsGood = s.ppsGood := rfl
@[simp] theorem State.draw_ppsRun (s : State) (n : Nat) : (s.draw n).2.ppsRun = s.ppsRun := rfl
@[simp] theorem State.draw_ppsLostAt (s : State) (n : Nat) : (s.draw n).2.ppsLostAt = s.ppsLostAt := rfl
@[simp] theorem State.draw_ppsOut (s : State) (n : Nat) : (s.draw n).2.ppsOut = s.ppsOut := rfl
@[simp] theorem State.draw_settingsBody (s : State) (n : Nat) : (s.draw n).2.settingsBody = s.settingsBody := rfl
@[simp] theorem State.draw_e131tx (s : State) (n : Nat) : (s.draw n).2.e131tx = s.e131tx := rfl
@[simp] theorem State.draw_e131rx (s : State) (n : Nat) : (s.draw n).2.e131rx = s.e131rx := rfl
@[simp] theorem State.draw_capE131 (s : State) (n : Nat) : (s.draw n).2.capE131 = s.capE131 := rfl
@[simp] theorem State.draw_capDmx (s : State) (n : Nat) : (s.draw n).2.capDmx = s.capDmx := rfl
@[simp] theorem State.draw_trunks (s : State) (n : Nat) : (s.draw n).2.trunks = s.trunks := rfl
@[simp] theorem State.draw_inputs (s : State) (n : Nat) : (s.draw n).2.inputs = s.inputs := rfl
@[simp] theorem State.draw_rasters (s : State) (n : Nat) : (s.draw n).2.rasters = s.rasters := rfl
@[simp] theorem State.draw_rasterOut (s : State) (n : Nat) : (s.draw n).2.rasterOut = s.rasterOut := rfl
@[simp] theorem State.draw_shedLeaves (s : State) (n : Nat) : (s.draw n).2.shedLeaves = s.shedLeaves := rfl
@[simp] theorem State.draw_thin (s : State) (n : Nat) : (s.draw n).2.thin = s.thin := rfl
@[simp] theorem State.draw_safetySeed (s : State) (n : Nat) : (s.draw n).2.safetySeed = s.safetySeed := rfl
@[simp] theorem State.draw_chk (s : State) (n : Nat) : (s.draw n).2.chk = s.chk := rfl
@[simp] theorem State.draw_eccSeen (s : State) (n : Nat) : (s.draw n).2.eccSeen = s.eccSeen := rfl
@[simp] theorem State.draw_scrubAt (s : State) (n : Nat) : (s.draw n).2.scrubAt = s.scrubAt := rfl
@[simp] theorem State.draw_hwCopy (s : State) (n : Nat) : (s.draw n).2.hwCopy = s.hwCopy := rfl
@[simp] theorem State.draw_qbs (s : State) (n : Nat) : (s.draw n).2.qbs = s.qbs := rfl
@[simp] theorem State.draw_scheds (s : State) (n : Nat) : (s.draw n).2.scheds = s.scheds := rfl
@[simp] theorem State.draw_icus (s : State) (n : Nat) : (s.draw n).2.icus = s.icus := rfl
@[simp] theorem State.draw_guests (s : State) (n : Nat) : (s.draw n).2.guests = s.guests := rfl
@[simp] theorem State.draw_grovePos (s : State) (n : Nat) : (s.draw n).2.grovePos = s.grovePos := rfl
@[simp] theorem State.draw_skipSeen (s : State) (n : Nat) : (s.draw n).2.skipSeen = s.skipSeen := rfl
@[simp] theorem State.draw_twin (s : State) (n : Nat) : (s.draw n).2.twin = s.twin := rfl
@[simp] theorem State.draw_bridge (s : State) (n : Nat) : (s.draw n).2.bridge = s.bridge := rfl
@[simp] theorem State.draw_grove (s : State) (n : Nat) : (s.draw n).2.grove = s.grove := rfl
@[simp] theorem State.draw_safe (s : State) (n : Nat) : (s.draw n).2.safe = s.safe := rfl
@[simp] theorem State.draw_stem (s : State) (n : Nat) : (s.draw n).2.stem = s.stem := rfl
@[simp] theorem State.draw_upd (s : State) (n : Nat) : (s.draw n).2.upd = s.upd := rfl
@[simp] theorem State.draw_ring (s : State) (n : Nat) : (s.draw n).2.ring = s.ring := rfl
@[simp] theorem State.draw_life (s : State) (n : Nat) : (s.draw n).2.life = s.life := rfl
@[simp] theorem State.draw_seed (s : State) (n : Nat) : (s.draw n).2.seed = s.seed := rfl

end Sys2Proof.Machine
end

