-- ==== Sys2Proof/Laws/Tab.lean ====
section
/-! SUPPORT. Sparse tables: what a read gives after a write. -/

namespace Sys2Proof.Machine

@[simp] theorem Tab.find_nil {α : Type} (k : Nat) : Tab.find? ([] : Tab α) k = none := rfl

theorem Tab.find_set {α : Type} (l : Tab α) (k j : Nat) (v : α) :
    Tab.find? (Tab.set l k v) j = if k = j then some v else Tab.find? l j := by
  induction l with
  | nil => simp [Tab.set, Tab.find?]
  | cons c r ih =>
    obtain ⟨i, w⟩ := c
    unfold Tab.set
    repeat' split
    all_goals simp_all [Tab.find?]
    all_goals intros
    all_goals first | (exfalso; omega) | (split <;> first | rfl | (exfalso; omega))

@[simp] theorem Tab.find_set_self {α : Type} (l : Tab α) (k : Nat) (v : α) : Tab.find? (Tab.set l k v) k = some v := by
  simp [Tab.find_set]

theorem Tab.find_set_ne {α : Type} (l : Tab α) (k j : Nat) (v : α) (h : k ≠ j) : Tab.find? (Tab.set l k v) j = Tab.find? l j := by
  simp [Tab.find_set, h]

@[simp] theorem Tab.get_set_self {α : Type} (d : α) (l : Tab α) (k : Nat) (v : α) : Tab.get d (Tab.set l k v) k = v := by
  simp [Tab.get]

theorem Tab.get_set {α : Type} (d : α) (l : Tab α) (k j : Nat) (v : α) : Tab.get d (Tab.set l k v) j = if k = j then v else Tab.get d l j := by
  unfold Tab.get
  rw [Tab.find_set]
  split <;> rfl

theorem Tab.get_set_ne {α : Type} (d : α) (l : Tab α) (k j : Nat) (v : α) (h : k ≠ j) : Tab.get d (Tab.set l k v) j = Tab.get d l j := by
  simp [Tab.get_set, h]

theorem Tab.find_erase {α : Type} (l : Tab α) (k j : Nat) : Tab.find? (Tab.erase l k) j = if k = j then none else Tab.find? l j := by
  induction l with
  | nil => simp [Tab.erase]
  | cons c r ih =>
    obtain ⟨i, w⟩ := c
    unfold Tab.erase
    split
    · subst_vars
      rw [ih]
      split
      · rfl
      · simp [Tab.find?, *]
    · simp only [Tab.find?]
      rw [ih]
      split
      · subst_vars
        split
        · omega
        · rfl
      · rfl

end Sys2Proof.Machine
end

