-- ==== Sys2Proof/Laws/Reg.lean ====
section
/-! SUPPORT. Registers and their fields: what a read gives after each update, and what events and attention leave. -/

namespace Sys2Proof.Machine

/-! ### Bits -/

theorem getBits_lt (x lo len : Nat) : getBits x lo len < 2 ^ len := Nat.mod_lt _ (Nat.two_pow_pos _)

theorem getBits_setBits_self (x lo len v : Nat) : getBits (setBits x lo len v) lo len = v % 2 ^ len := by
  unfold getBits setBits
  rw [Nat.add_mul_div_left _ _ (Nat.two_pow_pos _), Nat.div_eq_of_lt (Nat.mod_lt _ (Nat.two_pow_pos _)), Nat.zero_add, Nat.add_mul_mod_self_left,
    Nat.mod_mod]

theorem setBits_lt (x lo len v : Nat) (hx : x < 2 ^ 32) (h : lo + len ≤ 32) : setBits x lo len v < 2 ^ 32 := by
  unfold setBits
  obtain ⟨k, hk⟩ := Nat.le.dest h
  have e : (2 : Nat) ^ 32 = 2 ^ lo * (2 ^ len * 2 ^ k) := by rw [← Nat.mul_assoc, ← Nat.pow_add, ← Nat.pow_add, hk]
  have h1 : x / 2 ^ lo / 2 ^ len < 2 ^ k := by
    rw [Nat.div_div_eq_div_mul, Nat.div_lt_iff_lt_mul (Nat.mul_pos (Nat.two_pow_pos _) (Nat.two_pow_pos _))]
    rw [e] at hx
    calc x < 2 ^ lo * (2 ^ len * 2 ^ k) := hx
      _ = 2 ^ k * (2 ^ lo * 2 ^ len) := by rw [← Nat.mul_assoc, Nat.mul_comm]
  have h2 : v % 2 ^ len < 2 ^ len := Nat.mod_lt _ (Nat.two_pow_pos _)
  have h3 : v % 2 ^ len + 2 ^ len * (x / 2 ^ lo / 2 ^ len) < 2 ^ len * 2 ^ k := by
    calc v % 2 ^ len + 2 ^ len * (x / 2 ^ lo / 2 ^ len) < 2 ^ len + 2 ^ len * (x / 2 ^ lo / 2 ^ len) := by omega
      _ = 2 ^ len * (x / 2 ^ lo / 2 ^ len + 1) := by rw [Nat.mul_add, Nat.mul_one, Nat.add_comm]
      _ ≤ 2 ^ len * 2 ^ k := Nat.mul_le_mul_left _ h1
  have h4 : x % 2 ^ lo < 2 ^ lo := Nat.mod_lt _ (Nat.two_pow_pos _)
  rw [e]
  calc x % 2 ^ lo + 2 ^ lo * (v % 2 ^ len + 2 ^ len * (x / 2 ^ lo / 2 ^ len))
      < 2 ^ lo + 2 ^ lo * (v % 2 ^ len + 2 ^ len * (x / 2 ^ lo / 2 ^ len)) := by omega
    _ = 2 ^ lo * (v % 2 ^ len + 2 ^ len * (x / 2 ^ lo / 2 ^ len) + 1) := by rw [Nat.mul_add _ _ 1, Nat.mul_one, Nat.add_comm]
    _ ≤ 2 ^ lo * (2 ^ len * 2 ^ k) := Nat.mul_le_mul_left _ h3

theorem testBit_setBits (x lo len v i : Nat) :
    (setBits x lo len v).testBit i = if i < lo then x.testBit i else if i < lo + len then v.testBit (i - lo) else x.testBit i := by
  have e : setBits x lo len v = 2 ^ lo * (2 ^ len * (x / 2 ^ lo / 2 ^ len) + v % 2 ^ len) + x % 2 ^ lo := by
    unfold setBits
    rw [Nat.add_comm (x % 2 ^ lo), Nat.add_comm (v % 2 ^ len)]
  rw [e, Nat.testBit_two_pow_mul_add _ (Nat.mod_lt _ (Nat.two_pow_pos _))]
  split
  · simp [Nat.testBit_mod_two_pow, *]
  · rw [Nat.testBit_two_pow_mul_add _ (Nat.mod_lt _ (Nat.two_pow_pos _))]
    by_cases h : i < lo + len
    · rw [if_pos h, if_pos (by omega), Nat.testBit_mod_two_pow]
      simp only [Bool.and_eq_right_iff_imp, decide_eq_true_eq]
      intro
      omega
    · rw [if_neg h, if_neg (by omega), Nat.testBit_div_two_pow, Nat.testBit_div_two_pow]
      congr 1
      omega

/-- Setting bits leaves the bits beside them. -/
theorem getBits_setBits_ne (x lo len v lo' len' : Nat) (h : lo' + len' ≤ lo ∨ lo + len ≤ lo') : getBits (setBits x lo len v) lo' len' = getBits x lo' len' := by
  apply Nat.eq_of_testBit_eq
  intro i
  unfold getBits
  rw [Nat.testBit_mod_two_pow, Nat.testBit_mod_two_pow, Nat.testBit_div_two_pow, Nat.testBit_div_two_pow, testBit_setBits]
  by_cases hi : i < len'
  · congr 1
    repeat' split
    all_goals first | rfl | (exfalso; omega)
  · simp [hi]

/-! ### Words -/

theorem State.reg_setReg (s : State) (a b : Nat) (w : Word) : (s.setReg a w).reg b = if a = b then w else s.reg b := by
  unfold State.reg
  rw [State.setReg_regs, Tab.find_set]
  by_cases h : a = b
  · rw [if_pos h, if_pos h]
  · rw [if_neg h, if_neg h]

@[simp] theorem State.reg_setReg_self (s : State) (a : Nat) (w : Word) : (s.setReg a w).reg a = w := by simp [State.reg_setReg]
theorem State.reg_setReg_ne (s : State) (a b : Nat) (w : Word) (h : a ≠ b) : (s.setReg a w).reg b = s.reg b := by simp [State.reg_setReg, h]

theorem State.reg_setRegN (s : State) (a b v : Nat) : (s.setRegN a v).reg b = if a = b then BitVec.ofNat 32 v else s.reg b := State.reg_setReg _ _ _ _

theorem State.regN_setRegN (s : State) (a b v : Nat) : (s.setRegN a v).regN b = if a = b then v % 2 ^ 32 else s.regN b := by
  unfold State.regN
  rw [State.reg_setRegN]
  split
  · rw [BitVec.toNat_ofNat]
  · rfl

theorem State.reg_fset_ne (s : State) (f : Field) (b v : Nat) (h : f.addr ≠ b) : (s.fset f v).reg b = s.reg b := State.reg_setReg_ne _ _ _ _ h
theorem State.reg_bumpBy_ne (s : State) (a b n : Nat) (h : a ≠ b) : (s.bumpBy a n).reg b = s.reg b := State.reg_setReg_ne _ _ _ _ h
theorem State.reg_bump_ne (s : State) (a b : Nat) (h : a ≠ b) : (s.bump a).reg b = s.reg b := State.reg_setReg_ne _ _ _ _ h

theorem State.regN_lt (s : State) (a : Nat) : s.regN a < 2 ^ 32 := (s.reg a).isLt

/-- A counter register saturates. -/
theorem State.regN_bump (s : State) (a : Nat) : (s.bump a).regN a = min 0xFFFFFFFF (s.regN a + 1) := by
  unfold State.bump State.bumpBy
  rw [State.regN_setRegN, if_pos rfl]
  unfold satTo
  exact Nat.mod_eq_of_lt (by omega)

/-! ### Fields -/

theorem State.fget_def (s : State) (f : Field) : s.fget f = getBits (s.reg f.addr).toNat f.lo f.len := rfl

theorem State.fget_congr (s t : State) (f : Field) (h : s.reg f.addr = t.reg f.addr) : s.fget f = t.fget f := by
  rw [State.fget_def, State.fget_def, h]

theorem State.fbit_congr (s t : State) (f : Field) (h : s.reg f.addr = t.reg f.addr) : s.fbit f = t.fbit f := by
  unfold State.fbit
  rw [State.fget_congr s t f h]

/-- A field reads what was set. -/
theorem State.fget_fset_self (s : State) (f : Field) (v : Nat) (h : f.lo + f.len ≤ 32) : (s.fset f v).fget f = v % 2 ^ f.len := by
  unfold State.fget State.fset
  rw [State.regN_setRegN, if_pos rfl, Nat.mod_eq_of_lt (setBits_lt _ _ _ _ (s.regN_lt _) h), getBits_setBits_self]

theorem State.fget_fset_ne (s : State) (f g : Field) (v : Nat) (h : f.addr ≠ g.addr) : (s.fset f v).fget g = s.fget g :=
  State.fget_congr _ _ _ (State.reg_fset_ne s f g.addr v h)

/-- Setting a field leaves the other fields of its register. -/
theorem State.fget_fset_beside (s : State) (f g : Field) (v : Nat) (ha : f.addr = g.addr) (h : f.lo + f.len ≤ 32)
    (hd : g.lo + g.len ≤ f.lo ∨ f.lo + f.len ≤ g.lo) : (s.fset f v).fget g = s.fget g := by
  unfold State.fget State.fset
  rw [State.regN_setRegN, if_pos ha, Nat.mod_eq_of_lt (setBits_lt _ _ _ _ (s.regN_lt _) h), getBits_setBits_ne _ _ _ _ _ _ hd, ha]

theorem State.fbit_fset_self (s : State) (f : Field) (v : Nat) (h : f.lo + f.len ≤ 32) : (s.fset f v).fbit f = (v % 2 ^ f.len != 0) := by
  unfold State.fbit
  rw [State.fget_fset_self s f v h]

theorem State.fbit_fsetB_self (s : State) (f : Field) (b : Bool) (h : f.lo + 1 ≤ 32) (hl : f.len = 1) : (s.fsetB f b).fbit f = b := by
  unfold State.fsetB
  rw [State.fbit_fset_self s f _ (by omega), hl]
  cases b <;> rfl

/-! ### Events and attention -/

/-- An event changes registers only in `REC_LOST_CNT` and `REC_STATUS`. -/
theorem State.reg_pushEvent (s : State) (e : Event) (a : Nat) (h1 : a ≠ Reg.recLostCnt) (h2 : a ≠ Reg.recStatus) : (s.pushEvent e).reg a = s.reg a := by
  unfold State.pushEvent
  dsimp only
  split
  · rfl
  · show ((s.bump Reg.recLostCnt).fset Reg.RecStatus.lost 1).reg a = s.reg a
    rw [State.reg_fset_ne _ _ _ _ (Ne.symm h2), State.reg_bump_ne _ _ _ (Ne.symm h1)]

theorem State.reg_rootEvent (s : State) (base code cls : Nat) (args : List Byte) (a : Nat) (h1 : a ≠ Reg.recLostCnt) (h2 : a ≠ Reg.recStatus) :
    (s.rootEvent base code cls args).reg a = s.reg a := State.reg_pushEvent s _ a h1 h2

theorem State.reg_trunkEvent (s : State) (t : Trunk) (base code cls : Nat) (args : List Byte) (a : Nat) (h1 : a ≠ Reg.recLostCnt) (h2 : a ≠ Reg.recStatus) :
    (s.trunkEvent t base code cls args).reg a = s.reg a := State.reg_pushEvent s _ a h1 h2

theorem State.reg_statusEvent (s : State) (f : Field) (cls a : Nat) (h1 : a ≠ Reg.recLostCnt) (h2 : a ≠ Reg.recStatus) :
    (s.statusEvent f cls).reg a = s.reg a := State.reg_pushEvent s _ a h1 h2

/-- A status bit that sets and its event leave every register but the bit's own and those of the event queue. -/
theorem State.reg_flag (s : State) (f : Field) (cls a : Nat) (h : f.addr ≠ a) (h1 : a ≠ Reg.recLostCnt) (h2 : a ≠ Reg.recStatus) :
    (s.flag f cls).reg a = s.reg a := by
  unfold State.flag
  rw [State.reg_statusEvent _ _ _ _ h1 h2, State.reg_fset_ne _ _ _ _ h]

/-- A field of a register read after a status bit sets. -/
theorem State.fget_flag (s : State) (f g : Field) (cls : Nat) (h1 : g.addr ≠ Reg.recLostCnt) (h2 : g.addr ≠ Reg.recStatus) :
    (s.flag f cls).fget g = (s.fset f 1).fget g := State.fget_congr _ _ _ (State.reg_statusEvent _ _ _ _ h1 h2)

/-- An event changes nothing but the event queue and its registers. -/
theorem State.pushEvent_rest (s : State) (e : Event) :
    s.pushEvent e = { s with regs := (s.pushEvent e).regs, cyc := (s.pushEvent e).cyc, events := (s.pushEvent e).events, ring := (s.pushEvent e).ring } := by
  unfold State.pushEvent
  dsimp only
  split <;> rfl

theorem State.rootEvent_rest (s : State) (base code cls : Nat) (args : List Byte) :
    s.rootEvent base code cls args = { s with regs := (s.rootEvent base code cls args).regs, cyc := (s.rootEvent base code cls args).cyc, events := (s.rootEvent base code cls args).events,
                                              ring := (s.rootEvent base code cls args).ring } := State.pushEvent_rest _ _

theorem State.trunkEvent_rest (s : State) (t : Trunk) (base code cls : Nat) (args : List Byte) :
    s.trunkEvent t base code cls args = { s with regs := (s.trunkEvent t base code cls args).regs, cyc := (s.trunkEvent t base code cls args).cyc, events := (s.trunkEvent t base code cls args).events,
                                                 ring := (s.trunkEvent t base code cls args).ring } := State.pushEvent_rest _ _

theorem State.flag_rest (s : State) (f : Field) (cls : Nat) :
    s.flag f cls = { s with regs := (s.flag f cls).regs, cyc := (s.flag f cls).cyc, events := (s.flag f cls).events, ring := (s.flag f cls).ring } := by
  unfold State.flag State.statusEvent
  rw [State.pushEvent_rest]
  rfl

/-! ### Replies and attention: the registers of the Stem block (0x5_0000) and the Stem state, and nothing else -/

theorem State.reg_replyWrite (s : State) (r : Reply) (err : Bool) (a : Nat) (h : a / 65536 ≠ 5) (hc : err = true → r.chan < 20) :
    (s.replyWrite r err).reg a = s.reg a := by
  unfold State.replyWrite
  split
  · next he =>
    have := hc he
    show (((s.fset _ 0).fset _ 1).reg a) = _
    rw [State.reg_fset_ne _ _ _ _ (by intro e; simp only [Reg.StemRingStatus.dmaErr, Reg.stemRingStatus] at e; omega),
      State.reg_fset_ne _ _ _ _ (by intro e; simp only [Reg.StemRingStatus.running, Reg.stemRingStatus] at e; omega)]
  · rfl

theorem State.replyWrite_rest (s : State) (r : Reply) (err : Bool) :
    s.replyWrite r err = { s with regs := (s.replyWrite r err).regs, cyc := (s.replyWrite r err).cyc, stem := (s.replyWrite r err).stem } := by
  cases err <;> rfl

theorem State.reg_reply (s : State) (c tag opcode code : Nat) (result data : List Byte) (w : Bool) (a : Nat) (h : a / 65536 ≠ 5) :
    (s.reply c tag opcode code result data w).reg a = s.reg a := by
  have h1 : Reg.stemCmdCnt ≠ a := by intro e; subst e; exact h rfl
  have h2 : Reg.stemErrCnt ≠ a := by intro e; subst e; exact h rfl
  have hw (u : State) (r : Reply) (f : Bool) (hr : r.chan = c) : (u.replyWrite r (decide (c < 16) && f)).reg a = u.reg a :=
    State.reg_replyWrite _ _ _ _ h (by intro e; simp only [Bool.and_eq_true, decide_eq_true_eq] at e; omega)
  unfold State.reply
  dsimp only
  split
  · rw [State.reg_fset_ne _ _ _ _ (by intro e; simp only [Reg.StemRingStatus.inFlight, Reg.stemRingStatus] at e; omega)]
    split
    · rw [State.reg_bump_ne _ _ _ h2, State.reg_bump_ne _ _ _ h1, hw _ _ _ rfl]
      rfl
    · rw [State.reg_bump_ne _ _ _ h1, hw _ _ _ rfl]
      rfl
  · show State.reg (if _ then State.bump _ _ else _) a = _
    split
    · rw [State.reg_bump_ne _ _ _ h2, State.reg_bump_ne _ _ _ h1, hw _ _ _ rfl]
      rfl
    · rw [State.reg_bump_ne _ _ _ h1, hw _ _ _ rfl]
      rfl

theorem State.reply_rest (s : State) (c tag opcode code : Nat) (result data : List Byte) (w : Bool) :
    s.reply c tag opcode code result data w =
      { s with regs := (s.reply c tag opcode code result data w).regs, cyc := (s.reply c tag opcode code result data w).cyc,
               stem := (s.reply c tag opcode code result data w).stem } := by
  unfold State.reply
  dsimp only
  rw [State.replyWrite_rest]
  repeat' split
  all_goals rfl

/-- A reply is written, with its channel, its slot and phase, its tag, opcode and completion code, unless a PCIe error meets its write. -/
theorem State.reply_replies (s : State) (c tag opcode code : Nat) (result data : List Byte) (w : Bool)
    (f : Flight) (hf : f = (s.stem.flights.find? (fun f => f.chan == c && f.tag == tag)).getD { chan := c, tag := tag, opcode := opcode })
    (he : f.replyErr = false) :
    (s.reply c tag opcode code result data w).stem.replies =
      s.stem.replies ++ [{ chan := c, slot := if c < 16 then f.index % s.fget (Reg.StemRingCfg.entries c) else 0,
                           phase := decide (c < 16) && f.index / s.fget (Reg.StemRingCfg.entries c) % 2 == 0,
                           status := s.attnWord c * 65536 + code, tag := tag, opcode := opcode, windfall := w, result := result, data := data }] := by
  unfold State.reply
  dsimp only
  rw [← hf, he]
  simp only [Bool.and_false, decide_eq_true_eq]
  unfold State.replyWrite
  repeat' split
  all_goals first | rfl | contradiction

theorem State.watchCheck_all (P : State → Prop) (s : State) (hs : P s) (h : ∀ s c w, P s → P (s.watchReply c w 0)) : P s.watchCheck := by
  unfold State.watchCheck
  have go (l : Tab Watch) (u : State) (hu : P u) : P (l.foldl (fun s cw => if s.watchMet cw.1 cw.2 then s.watchReply cw.1 cw.2 0 else s) u) := by
    induction l generalizing u with
    | nil => exact hu
    | cons a r ih =>
      apply ih
      dsimp only
      split
      · exact h _ _ _ hu
      · exact hu
  exact go _ _ hs

/-- Attention changes registers only in the Stem block. -/
theorem State.reg_attn (s : State) (k a : Nat) (h : a / 65536 ≠ 5) : (s.attn k).reg a = s.reg a := by
  unfold State.attn
  refine State.watchCheck_all (fun u => u.reg a = s.reg a) _ ?_ ?_
  · have go (l : List Nat) (hl : ∀ c ∈ l, c < 20) (u : State) (hu : u.reg a = s.reg a) :
        (l.foldl (fun s c => s.fset ⟨Reg.stemAttn c, 16 + k, 1⟩ 1) u).reg a = s.reg a := by
      induction l generalizing u with
      | nil => exact hu
      | cons c r ih =>
        refine ih (fun c hc => hl c (List.mem_cons_of_mem _ hc)) _ ?_
        rw [State.reg_fset_ne _ _ _ _ ?_]
        · exact hu
        · have := hl c (List.mem_cons_self ..)
          intro e
          simp only [Reg.stemAttn] at e
          omega
    exact go _ (fun c hc => List.mem_range.1 hc) s rfl
  · intro u c w hu
    unfold State.watchReply
    dsimp only
    show State.reg (State.reply _ _ _ _ _ _ _ _) a = _
    rw [State.reg_reply _ _ _ _ _ _ _ _ _ h]
    exact hu

theorem State.attn_rest (s : State) (k : Nat) : s.attn k = { s with regs := (s.attn k).regs, cyc := (s.attn k).cyc, stem := (s.attn k).stem } := by
  unfold State.attn
  refine State.watchCheck_all (fun u => u = { s with regs := u.regs, cyc := u.cyc, stem := u.stem }) _ ?_ ?_
  · have go (l : List Nat) (u : State) (hu : u = { s with regs := u.regs, cyc := u.cyc, stem := u.stem }) :
        (l.foldl (fun s c => s.fset ⟨Reg.stemAttn c, 16 + k, 1⟩ 1) u) =
          { s with regs := (l.foldl (fun s c => s.fset ⟨Reg.stemAttn c, 16 + k, 1⟩ 1) u).regs, cyc := (l.foldl (fun s c => s.fset ⟨Reg.stemAttn c, 16 + k, 1⟩ 1) u).cyc, stem := (l.foldl (fun s c => s.fset ⟨Reg.stemAttn c, 16 + k, 1⟩ 1) u).stem } := by
      induction l generalizing u with
      | nil => exact hu
      | cons c r ih =>
        apply ih
        rw [hu]
        rfl
    exact go _ s rfl
  · intro u c w hu
    unfold State.watchReply
    dsimp only
    rw [State.reply_rest, hu]

theorem State.fget_attn (s : State) (k : Nat) (f : Field) (h : f.addr / 65536 ≠ 5) : (s.attn k).fget f = s.fget f :=
  State.fget_congr _ _ _ (State.reg_attn s k _ h)

/-! ### Fields beside an update -/

theorem State.fget_setRegN_ne (s : State) (a v : Nat) (f : Field) (h : a ≠ f.addr) : (s.setRegN a v).fget f = s.fget f :=
  State.fget_congr _ _ _ (State.reg_setReg_ne _ _ _ _ h)

theorem State.reg_setRegN_ne (s : State) (a v b : Nat) (h : a ≠ b) : (s.setRegN a v).reg b = s.reg b := State.reg_setReg_ne _ _ _ _ h

theorem State.fget_bump_ne (s : State) (a : Nat) (f : Field) (h : a ≠ f.addr) : (s.bump a).fget f = s.fget f :=
  State.fget_congr _ _ _ (State.reg_bump_ne _ _ _ h)

theorem State.fget_rootEvent (s : State) (b c l : Nat) (a : List Byte) (f : Field) 
    (h1 : f.addr ≠ Reg.recLostCnt) (h2 : f.addr ≠ Reg.recStatus) : (s.rootEvent b c l a).fget f = s.fget f :=
  State.fget_congr _ _ _ (State.reg_rootEvent _ _ _ _ _ _ h1 h2)

theorem State.fget_statusEvent (s : State) (g : Field) (l : Nat) (f : Field) 
    (h1 : f.addr ≠ Reg.recLostCnt) (h2 : f.addr ≠ Reg.recStatus) : (s.statusEvent g l).fget f = s.fget f :=
  State.fget_congr _ _ _ (State.reg_statusEvent _ _ _ _ h1 h2)

theorem State.fget_trunkEvent (s : State) (t : Trunk) (b c l : Nat) (a : List Byte) (f : Field) 
    (h1 : f.addr ≠ Reg.recLostCnt) (h2 : f.addr ≠ Reg.recStatus) : (s.trunkEvent t b c l a).fget f = s.fget f :=
  State.fget_congr _ _ _ (State.reg_trunkEvent _ _ _ _ _ _ _ h1 h2)

theorem State.fget_reply (s : State) (c tag opcode code : Nat) (r d : List Byte) (w : Bool) (f : Field) (h : f.addr / 65536 ≠ 5) : (s.reply c tag opcode code r d w).fget f = s.fget f :=
  State.fget_congr _ _ _ (State.reg_reply _ _ _ _ _ _ _ _ _ h)

theorem State.fbit_fset_ne (s : State) (f g : Field) (v : Nat) (h : f.addr ≠ g.addr) : (s.fset f v).fbit g = s.fbit g :=
  State.fbit_congr _ _ _ (State.reg_fset_ne _ _ _ _ h)

end Sys2Proof.Machine
end

