-- ==== Sys2Proof/Laws/Residue.lean ====
section
/-! SUPPORT. Residue checking (R94): a sound lane passes its checker, and an error of one bit in a value fails it. -/

set_option linter.unusedSimpArgs false

namespace Sys2Proof.Machine

/-- The residue beside a value is that of the word. -/
def valSound (v : LaneVal) : Prop := v.res = residue7 v.word

/-- Every operand's residue is that of its word. -/
def laneSound : LaneOp → Prop
  | .add x y | .sub x y | .mul x y | .minOp x y | .maxOp x y | .cmp x y => valSound x ∧ valSound y
  | .mac a x y => valSound a ∧ valSound x ∧ valSound y
  | .rnd x | .rcp x | .sqrt x => valSound x
  | .cvt16 _ => True
  | .avg t _ => valSound t

theorem residue7_cast (x : Int) : ((residue7 x : Nat) : Int) = x % 7 := Int.toNat_of_nonneg (Int.emod_nonneg _ (by decide))

theorem laneLoad_sound (x : Int) : valSound (laneLoad x) := rfl

/-- Two natural numbers agree modulo 7 where they do as integers. -/
theorem mod7_eq (a b : Nat) (h : ((a : Nat) : Int) % 7 = (b : Int) % 7) : a % 7 = b % 7 := by omega

theorem emod7_mul (x y : Int) : (x % 7) * (y % 7) % 7 = x * y % 7 := (Int.mul_emod x y 7).symm

/-- A rounded product or accumulator with the bits it drops gives back the biased value. -/
theorem rnd28_side (p : Int) : 2 ^ 28 * rnd p 28 + (p + 2 ^ 27) % 2 ^ 28 = p + 2 ^ 27 := by unfold rnd; omega

/-- R94: a lane that computes what R92 states passes its check. -/
theorem laneOk_run (op : LaneOp) (h : laneSound op) : laneOk op (laneRun op) = true := by
  unfold laneOk
  cases op with
  | add x y =>
    obtain ⟨hx, hy⟩ := h
    rw [valSound] at hx hy
    unfold lanePredicts laneRun laneLimit
    dsimp only
    rw [hx, hy, beq_self_eq_true, Bool.and_true, beq_iff_eq]
    apply mod7_eq
    simp only [Int.natCast_add, Int.natCast_mul, Int.natCast_pow, Int.cast_ofNat_Int, residue7_cast]
    omega
  | sub x y =>
    obtain ⟨hx, hy⟩ := h
    rw [valSound] at hx hy
    unfold lanePredicts laneRun laneLimit
    dsimp only
    rw [hx, hy, beq_self_eq_true, Bool.and_true, beq_iff_eq]
    apply mod7_eq
    simp only [Int.natCast_add, Int.natCast_mul, Int.natCast_pow, Int.cast_ofNat_Int, residue7_cast]
    omega
  | mul x y =>
    obtain ⟨hx, hy⟩ := h
    rw [valSound] at hx hy
    unfold lanePredicts laneRun laneLimit
    dsimp only
    rw [hx, hy, beq_self_eq_true, Bool.and_true, beq_iff_eq]
    apply mod7_eq
    have e := rnd28_side (x.word * y.word)
    have m := emod7_mul x.word y.word
    simp only [Int.natCast_add, Int.natCast_mul, Int.natCast_pow, Int.cast_ofNat_Int, residue7_cast]
    omega
  | mac a x y =>
    obtain ⟨ha, hx, hy⟩ := h
    rw [valSound] at ha hx hy
    unfold lanePredicts laneRun laneLimit
    dsimp only
    rw [ha, hx, hy, beq_self_eq_true, Bool.and_true, beq_iff_eq]
    apply mod7_eq
    have m := emod7_mul x.word y.word
    simp only [Int.natCast_add, Int.natCast_mul, Int.natCast_pow, Int.cast_ofNat_Int, residue7_cast]
    omega
  | rnd a =>
    rw [laneSound, valSound] at h
    unfold lanePredicts laneRun laneLimit
    dsimp only
    rw [h, beq_self_eq_true, Bool.and_true, beq_iff_eq]
    apply mod7_eq
    have e := rnd28_side a.word
    simp only [Int.natCast_add, Int.natCast_mul, Int.natCast_pow, Int.cast_ofNat_Int, residue7_cast]
    omega
  | rcp x =>
    rw [laneSound, valSound] at h
    unfold lanePredicts laneRun laneLimit
    dsimp only
    rw [h, beq_self_eq_true, Bool.and_true, beq_iff_eq]
    apply mod7_eq
    have m := emod7_mul ((2 ^ 57 + x.word) / (2 * x.word)) x.word
    simp only [Int.natCast_add, Int.natCast_mul, Int.natCast_pow, Int.cast_ofNat_Int, residue7_cast]
    omega
  | sqrt x =>
    rw [laneSound, valSound] at h
    unfold lanePredicts laneRun laneLimit
    dsimp only
    rw [h, beq_self_eq_true, Bool.and_true, beq_iff_eq]
    apply mod7_eq
    have m := emod7_mul (twSqrt x.word) (twSqrt x.word)
    simp only [Int.natCast_add, Int.natCast_mul, Int.natCast_pow, Int.cast_ofNat_Int, residue7_cast]
    omega
  | avg t n =>
    rw [laneSound, valSound] at h
    unfold lanePredicts laneRun laneLimit
    dsimp only
    rw [h, beq_self_eq_true, Bool.and_true, beq_iff_eq]
    apply mod7_eq
    have m := Int.mul_emod (avg t.word n) (2 * (n : Int)) 7
    have m' := Int.mul_emod (avg t.word n % 7) (2 * (n : Int)) 7
    rw [Int.emod_emod] at m'
    simp only [Int.natCast_add, Int.natCast_mul, Int.natCast_pow, Int.cast_ofNat_Int, residue7_cast]
    omega
  | cvt16 _ | minOp _ _ | maxOp _ _ | cmp _ _ => simp [lanePredicts, laneLimit]

/-- No power of two is a multiple of 7: an error of one bit in a word changes its residue. -/
theorem residue7_bit (x : Int) (k : Nat) : residue7 (x + 2 ^ k) ≠ residue7 x ∧ residue7 (x - 2 ^ k) ≠ residue7 x := by
  have h : ((2 : Int) ^ k) % 7 = 1 ∨ ((2 : Int) ^ k) % 7 = 2 ∨ ((2 : Int) ^ k) % 7 = 4 := by
    induction k with
    | zero => left; rfl
    | succ n ih => rw [Int.pow_succ]; omega
  have c := residue7_cast
  constructor <;> intro e <;> have e' := congrArg (fun n : Nat => (n : Int)) e <;> simp only [c] at e' <;> omega

/-- R94: a sum with a single wrong bit fails the check. -/
theorem laneOk_add_bit (x y : LaneVal) (h : laneSound (.add x y)) (k : Nat) (w s : Int) :
    laneOk (.add x y) ⟨x.word + y.word + 2 ^ k, s, w⟩ = false := by
  obtain ⟨hx, hy⟩ := h
  simp only [laneOk, lanePredicts, valSound] at *
  rw [hx, hy, Bool.and_eq_false_iff]
  left
  rw [beq_eq_false_iff_ne]
  intro e
  apply (residue7_bit (x.word + y.word) k).1
  have e' := congrArg (fun n : Nat => (n : Int)) e
  have c := residue7_cast
  have l (z : Int) : residue7 z < 7 := by have := c z; omega
  push_cast [c] at e'
  have := l (x.word + y.word + 2 ^ k)
  have := l (x.word + y.word)
  have := c (x.word + y.word)
  have := c (x.word + y.word + 2 ^ k)
  omega

end Sys2Proof.Machine
end

