-- ==== Sys2Proof/Tests/Slice0.lean ====
section
/-! SUPPORT. Tests: what `WellFormed` refuses, a witness of the hypotheses of every clause of the statements (`wit_<statement>_<clause>`),
and small tests of single commands whose results are the spec's. -/

namespace Sys2Proof.Tests

-- One theorem after the other: elaborated side by side they would ask for more threads than a data limit allows.
set_option Elab.async false

open Sys2Proof.Machine

/-- A module out of reset with nothing written. -/
def run : State := { State.reset with held := false }

/-- Sets fields, and words, of a state. -/
def fs (l : List (Field × Nat)) (s : State) : State := l.foldl (fun s p => s.fset p.1 p.2) s
def rs (l : List (Nat × Word)) (s : State) : State := l.foldl (fun s p => s.setReg p.1 p.2) s

/-- A record of `n` bytes, zero but for those listed. -/
def rb (n : Nat) (l : Tab Nat) : List Byte := (List.range n).map (fun i => BitVec.ofNat 8 (l.get 0 i))

/-- A seed with a record of most kinds: epochs of FREE at 60 Hz, an Ethernet port of each speed in use, DMX512, E1.31 and sap
lines, one leaf, canvas, raster and guest core. -/
def seed0 : Seed :=
  { profile := rb 64 [(8, 17)], cadences := [rb 32 [(0, 17), (4, 60), (8, 1)]],
    axes := (List.range 18).map fun n => Tab.get []
      [(4, rb 64 [(1, 0x10)]), (5, rb 64 [(1, 0x20)]), (13, rb 64 [(1, 0x50)]), (14, rb 64 [(1, 0x58)]), (15, rb 64 [(1, 0x60), (0x13, 30)])] n,
    ports := [rb 64 [(0, 1), (6, 1), (0x0E, 1), (0x19, 16), (0x1C, 0xEE), (0x1D, 5), (0x29, 0xFF), (0x39, 2)],
      rb 64 [(0, 2), (0x0E, 1), (0x1C, 0xEE), (0x1D, 5), (0x30, 64), (0x39, 9)], rb 64 [(0, 2), (1, 1), (0x0E, 1), (0x1C, 0xEE), (0x1D, 5), (0x39, 10)],
      rb 64 [(0, 6), (0x29, 1)], rb 64 [(0, 6), (1, 1), (0x28, 1)], rb 64 [(0, 9), (0x28, 1), (0x2A, 2), (0x39, 1)], rb 64 [(0, 5), (0x2A, 8)]],
    leaves := [rb 64 [(6, 1), (8, 1), (11, 1), (0x1C, 1)]],
    canvases := [rb 64 [(0, 16), (2, 16), (0x24, 8), (0x26, 8)]], rasters := [rb 64 []], guests := [rb 64 [(0, 6), (0x1A, 1)]] }

/-- A module that runs it; with FREE locked and three links up; with a tree epoch to come; with an active generator. -/
def seeded : State := { run with seed := some seed0 }
def up : State :=
  fs [(Reg.PortStatus.link 0, 1), (Reg.PortStatus.link 16, 1), (Reg.PortStatus.link 17, 1), (Reg.AxisStatus.state 17, 2)] seeded
def ep : State := fs [(Reg.AxisStatus.state 17, 2), (Reg.CmpStatus.stateA, 4)] { seeded with twin.loaded := [0] }
def rasterOn : State :=
  fs [(Reg.CmpStatus.stateA, 4), (Reg.AxisStatus.state 17, 2)]
    { seeded with act := [(Reg.rastCtrl .a 0, BitVec.ofNat 32 (setBits 0 (Reg.RastCtrl.enable .a 0).lo (Reg.RastCtrl.enable .a 0).len 1)),
        (Reg.rastTimingV .a 0, BitVec.ofNat 32 (setBits 0 (Reg.RastTimingV.vTotal .a 0).lo (Reg.RastTimingV.vTotal .a 0).len 1125))] }

/-- A grove of two trees, the first its master, and the state of each. -/
def groveSeed : Seed :=
  { seed0 with flags := 1, groves := [rb 64 [(1, 1), (2, 1), (8, 1), (0x16, 7)], rb 64 [(0, 1), (8, 1), (0x16, 7), (0x22, 1)]],
               axes := seed0.axes.set 0 (rb 64 [(1, 1)]) }
def grove0 : State := fs [(Reg.AxisStatus.state 17, 2)] { run with seed := some groveSeed, grovePos := 0 }
def grove1 : State := { grove0 with grovePos := 1 }
def groveUp1 : State := fs [(Reg.PortStatus.link 48, 1)] grove0

/-- A Stem channel that runs, and a command on it. -/
def host : State := fs [(Reg.StemRingStatus.running 0, 1)] run
def hdr : StemHdr := { chan := 0, tag := 5 }

/-- A grove link header, an Ethernet frame of the least length, a sap reply of node 0 (R264), a RETURN frame of leaf 0 (R237). -/
def gh (type : Nat) : GroveHdr := { type := type, groveId := 0, src := 0, dst := 0xFF, sequence := 0 }
def fr : EthFrame := { dst := 2, src := 4, etype := 0x1234, payload := List.replicate 46 0 }
def sapFrame : List Byte :=
  let b := [0, 0, 0, 0x84, 0, 0, 24] ++ List.replicate 24 0
  b ++ beBytes 2 (sapCrc b)
def retFrame : List Byte :=
  let b := rb 48 [(0, 0x12), (0x17, 0x10), (0x22, 9), (0x23, 0xC4)]
  b ++ beBytes 4 (crc32c (beBytes 4 0 ++ b))

/-- A received E1.31 source. -/
def src7 : E131Src := { cid := 7, priority := 100, slots := [], lastAt := 0 }

/-- The nine bytes "123456789". -/
def nine : List Byte := (List.range 9).map (fun i => BitVec.ofNat 8 (0x31 + i))

/-! ### Ill-formed commands are refused -/

/-- A header whose tag does not fit. -/
def badHdr : StemHdr := { chan := 0, tag := 2 ^ 32 }

theorem test_wf_addresses : (Instr.registerWrite (2 ^ 40) 0).wf = false ∧ (Instr.registerWrite 2 0).wf = false ∧ (Instr.readClear ⟨false, 1⟩ 0).wf = false ∧ (Instr.readClear ⟨true, (2 ^ 24)⟩ 0).wf = false ∧
    (Instr.loWordRead ⟨false, 3⟩).wf = false ∧ (Instr.bar0Write 2 0).wf = false ∧ (Instr.readReg hdr (2 ^ 40) 4).wf = false ∧
    (Instr.readMem hdr 0 (2 ^ 32)).wf = false ∧ (Instr.writeReg hdr 0 (List.replicate 16385 0)).wf = false ∧
    (Instr.writeMem hdr (2 ^ 40) []).wf = false ∧ (Instr.guestAccessFault .a 0 (2 ^ 32) true).wf = false ∧
    (Instr.guestRegisterWrite .a 0 2 0).wf = false ∧ (Instr.guestRegisterWrite .a 0 (2 ^ 32) 0).wf = false ∧
    (Instr.patrolScrubRead none (some { memory := 0, unit := 0, addr := 2 ^ 40, wrote := 0, flips := 0 })).wf = false ∧
    (Instr.canvasFrameComplete .a ⟨0, [(0, { memory := 0, unit := 0, addr := 0, wrote := 2 ^ 40, flips := 0 })], []⟩).wf = false := by decide +kernel

theorem test_wf_positions : (Instr.axisLock 0 (2 ^ 96) 0).wf = false ∧ (Instr.axisStep 0 (2 ^ 96)).wf = false ∧
    (Instr.imageActivate hdr 1 0 (2 ^ 96) (List.replicate 16 0)).wf = false ∧ (Instr.imageActivate hdr 1 256 0 (List.replicate 16 0)).wf = false ∧
    (Instr.imageActivate hdr 1 0 0 []).wf = false := by decide +kernel

theorem test_wf_stem : (Instr.nop badHdr).wf = false ∧ (Instr.watch hdr 0 0 (2 ^ 32)).wf = false ∧ (Instr.settingsRead hdr (2 ^ 32)).wf = false ∧
    (Instr.heartwoodWrite hdr ⟨2 ^ 64, 0, []⟩).wf = false ∧ (Instr.settingsWrite hdr ⟨0, 2 ^ 64, []⟩).wf = false ∧
    (Instr.imageStage hdr 256 ⟨0, 0, []⟩).wf = false ∧ (Instr.imageConfirm hdr 256 []).wf = false ∧
    (Instr.imageConfirm hdr 1 (List.replicate 33 0)).wf = false ∧ (Instr.imageDiscard hdr 256).wf = false ∧
    (Instr.imagePrepared 256).wf = false ∧ (Instr.bistRun hdr 256 0 0 0 0).wf = false ∧ (Instr.bistRun hdr 0 256 0 0 0).wf = false ∧
    (Instr.bistRun hdr 0 0 (2 ^ 16) 0 0).wf = false ∧ (Instr.bistRun hdr 0 0 0 256 0).wf = false ∧ (Instr.bistRun hdr 0 0 0 0 (2 ^ 32)).wf = false ∧
    (Instr.calRun hdr 256 0 0).wf = false ∧ (Instr.calRun hdr 0 (2 ^ 16) 0).wf = false ∧ (Instr.stemUdpDatagram ⟨0, (2 ^ 128)⟩ 0 0 false true).wf = false ∧
    (Instr.stemUdpDatagram ⟨0, 0⟩ (2 ^ 16) 0 false true).wf = false ∧ (Instr.stemUdpDatagram ⟨0, 0⟩ 0 (2 ^ 32) false true).wf = false := by decide +kernel

theorem test_wf_payloads : payloadOk (List.replicate 65537 0) = false ∧ slotsOk (List.replicate 513 0) = false ∧
    (Instr.dmxInputPacket 0 0 (List.replicate 513 0) true 0 0).wf = false ∧ (Instr.e131PacketReceive 1 0 ⟨0, 0⟩ (some (List.replicate 513 0)) true).wf = false := by
  decide +kernel

theorem test_wf_lines : (Instr.frameReceive 0 { fr with dst := 2 ^ 48 }).wf = false ∧ (Instr.frameReceive 0 { fr with src := 2 ^ 48 }).wf = false ∧
    (Instr.frameReceive 0 { fr with etype := 2 ^ 16 }).wf = false ∧ (Instr.cutThroughStart 0 1 ⟨{ fr with tags := 3 }, 0⟩).wf = false ∧ (Instr.cutThroughStart 0 1 ⟨fr, (2 ^ 14)⟩).wf = false ∧
    (Instr.addressAgeout 0 (2 ^ 48)).wf = false ∧ (Instr.frameLaunch (2 ^ 16)).wf = false ∧ (Instr.t1sCollision 0 (2 ^ 20)).wf = false ∧
    (Instr.e131PacketReceive (2 ^ 16) 0 ⟨0, 0⟩ (some []) true).wf = false ∧ (Instr.e131PacketReceive 0 0 ⟨0, (2 ^ 16)⟩ none true).wf = false ∧ (Instr.e131SourceLost 0 (2 ^ 128)).wf = false ∧
    (Instr.e131Repeat (2 ^ 16)).wf = false ∧ (Instr.e131PacketReceive 0 0 ⟨256, 0⟩ (some []) true).wf = false := by decide +kernel

theorem test_wf_grove : (Instr.groveFrameDiscard { gh 256 with groveId := 0 }).wf = false ∧ (Instr.groveFrameDiscard { gh 1 with groveId := 2 ^ 32 }).wf = false ∧
    (Instr.groveFrameDiscard { gh 1 with src := 256 }).wf = false ∧ (Instr.groveFrameDiscard { gh 1 with dst := 256 }).wf = false ∧
    (Instr.groveFrameDiscard { gh 1 with sequence := 2 ^ 32 }).wf = false ∧ (Instr.heartbeatReceive (gh 1) true false false (2 ^ 128) 0).wf = false ∧
    (Instr.takeoverMessageReceive (gh 2) true (2 ^ 64)).wf = false ∧ (Instr.ringMessageReceive (gh 3) 256 0 0 0 0 []).wf = false ∧
    (Instr.graftMessageReceive (gh 16) ⟨256, 0, 0, 0, 0, 0, []⟩).wf = false ∧ (Instr.graftMessageReceive (gh 16) ⟨0, 0, 0, 2 ^ 24, 0, 0, []⟩).wf = false ∧
    (Instr.graftRequest 0 none false (2 ^ 24) 0 0 []).wf = false ∧ (Instr.graftRequest 0 none false 0 (2 ^ 32) 0 []).wf = false ∧
    (Instr.graftRequest 0 none false 0 0 65537 []).wf = false ∧ (Instr.graftRepeat (2 ^ 32)).wf = false ∧
    (Instr.tunnelMessageReceive (gh 17) 256 false 0 0 0 0 []).wf = false ∧ (Instr.updateGoReceive (gh 32) false { cls := 256 }).wf = false ∧
    (Instr.updateGoReceive (gh 32) false { cls := 1, position := 2 ^ 96 }).wf = false ∧
    (Instr.updateGoReceive (gh 32) false { cls := 1, digest := List.replicate 33 0 }).wf = false := by decide +kernel

theorem test_wf_others : (Instr.epoch (.port (2 ^ 16))).wf = false ∧ (Instr.taskCompletion .a 0 true (.leaf (2 ^ 25))).wf = false ∧
    (Instr.taskCompletion .a 0 true (.burst (2 ^ 16))).wf = false ∧ (Instr.workItemRerun .a (2 ^ 25) none).wf = false ∧
    (Instr.workItemRerun .a 0 (some ⟨⟨0, 0, 0, 0⟩, .avg ⟨0, 0⟩ 0, ⟨0, 0, 0⟩⟩)).wf = false ∧
    (Instr.taskCompletion .a 0 true (.residue 0 ⟨⟨0, 0, 0, 0⟩, .add ⟨0, 8⟩ ⟨0, 0⟩, ⟨0, 0, 0⟩⟩)).wf = false ∧
    (Instr.mainsZeroCrossing (2 ^ 16)).wf = false ∧ (Instr.videoRefEdge 0 true (2 ^ 16)).wf = false ∧ (Instr.ltcFrame 0 46 0 0 0 true).wf = false ∧
    (Instr.ptpAnnounceReceive 0 { (default : PtpAnnounce) with gmId := 2 ^ 64 }).wf = false ∧
    (Instr.ptpSyncReceive 0 { seq := 2 ^ 16, origin := 0, corr := 0 } 0).wf = false ∧ (Instr.ptpSyncReceive 0 { seq := 0, origin := 0, corr := 0 } 163840).wf = false ∧
    (Instr.ptpDelayReqReceive 0 ⟨(2 ^ 80), 0⟩ 0).wf = false ∧ (Instr.ptpPdelayReceive 0 true ⟨0, (2 ^ 16)⟩ 0).wf = false ∧ (Instr.eccCorrEvent (some .a) ⟨0, (some 1)⟩).wf = false ∧
    (Instr.arbitrationVote .a (2 ^ 16) 0 0).wf = false ∧ (Instr.arbitrationVote .a 0 (2 ^ 48) 0).wf = false ∧
    (Instr.guestSendGo .a 0 (2 ^ 32) 0 0).wf = false ∧ (Instr.inputFrameComplete (2 ^ 16) 0 0 {} true []).wf = false ∧ (Instr.inputFrameComplete 0 0 0 {} true [2 ^ 16]).wf = false := by decide +kernel

/-- And a command of each shape that fits is well formed. -/
theorem test_wf_accepts : (Instr.registerWrite 0x14 0).wf = true ∧ (Instr.axisLock 0 (2 ^ 96 - 1) 0).wf = true ∧ (Instr.nop hdr).wf = true ∧
    (Instr.frameReceive 0 fr).wf = true ∧ (Instr.groveFrameDiscard (gh 1)).wf = true ∧
    (Instr.imageActivate hdr 1 17 0 (List.replicate 16 0)).wf = true := by decide +kernel

/-! ### The spec's worked examples and check values -/

/-- R402: the check column, over the nine bytes "123456789". -/
theorem test_check_values : crc (fixedAlg 0) nine = 0xE3069283 ∧ crc (fixedAlg 1) nine = 0xCBF43926 ∧ crc (fixedAlg 2) nine = 0x29B1 ∧
    crc (fixedAlg 3) nine = 0x995DC9BBDF1939FA := by decide +kernel

/-- R45's example: 59.94 Hz on PTP0 with anchor 0. -/
def seed5994 : Seed := { cadences := [rb 32 [(4, 0x60), (5, 0xEA), (8, 0xE9), (9, 3)]] }

theorem test_cadence_5994 : seed5994.cadIndex 0 (1712004220 * second) = some 102617635564 ∧
    posForm 0 (seed5994.cadPos 0 102617635565) = 0x0000660B1C7C008FAFDAAAAA := by decide +kernel

/-- R111's example: the green channel. -/
theorem test_bilinear : bilerp 67108864 134217728 33554432 268435456 16384 49152 = 90177536 := by decide +kernel

/-- R122 to R124's example: gain, derate, intensity and the conditioned drive. -/
theorem test_conditioning : twMul 90177536 (30720 * 8192) = 84541440 ∧ derate (rb 64 [(4, 0xFF), (5, 0xFF), (6, 0xFF), (7, 0xFF), (8, 0xFF), (9, 0xFF)]) 9140 = 225485783 ∧
    intensity 0x8000 0x6000 225485783 = 169114337 ∧ twMul 84541440 169114337 = 53261107 := by decide +kernel

/-- R131's example: the first two frames. -/
theorem test_quantise : quantise 1 16 53261107 0 = (13003, 100) ∧ quantise 1 16 53261107 100 = (13003, 200) := by decide +kernel

/-- R355's example: 7,920 entries, 1,125 of them written from 0x3EDC. -/
theorem test_queue_pointers : ptrNext 7920 13 0x3EDC = 0x3EDD ∧ ptrAdvance 7920 13 20 0x3EDC = 0 ∧ ptrAdvance 7920 13 1125 0x3EDC = 0x0451 ∧
    ptrFill 7920 13 0x0451 0x3EDC = 1125 := by decide +kernel

/-! ### Single commands -/

/-- The state a command leaves. -/
def after (c : Instr) (s : State) : State := match exec c s with | .next t => t | _ => s

/-- R3: a write leaves a read-only register as it was. -/
theorem test_register_read_only : (after (.registerWrite Reg.treeReady 0xFFFFFFFF) run).regN Reg.treeReady = run.regN Reg.treeReady := by decide +kernel

/-- R344, R381: `ICU_MASK_CLR` clears what it names, and a read of it reads the mask. -/
theorem test_mask_clear : (after (.registerWrite (Reg.icuMaskClr .a 0) 1) (fs [(Reg.CmpStatus.stateA, 4)] run)).reg (Reg.icuMaskSet .a 0) = 0xFFFFFFFE := by
  decide +kernel

/-- R414, R35: PWR_GOOD boots the ROM, and FREE reads LOCKED. -/
theorem test_power_on : (after .pwrGoodRise State.reset).held = false ∧ (after .pwrGoodRise State.reset).axisState 17 = 2 ∧
    (after .pwrGoodRise State.reset).fbit Reg.TreeReady.rootRom = true := by decide +kernel

/-- R389, R392: NOP replies 0, and an opcode that is not defined 0x0101, with the command's tag. -/
theorem test_nop_reply : (after (.nop hdr) host).stem.replies.map (fun r => (r.tag, r.status % 65536)) = [(5, 0)] ∧
    (after (.stemOpcode hdr 0x7777) host).stem.replies.map (fun r => (r.tag, r.status % 65536)) = [(5, 0x0101)] := by decide +kernel

/-- R159, R161: three samples of 10,000 ohms are not an alarm, the fourth is. -/
theorem test_alarm_debounce : (after (.safetyLoopSample 10000 5000) { run with safe.loopRun := [(1, 2), (0, 4)] }).alarmOn = false ∧
    (after (.safetyLoopSample 10000 5000) { run with safe.loopRun := [(1, 3), (0, 4)] }).alarmOn = true := by decide +kernel

/-- R341: the claim of source 5 of core 0 names it, valid and not masked, and ends its pending bit. -/
theorem test_claim : (after (.icuClaim .a 0) (rs [(Reg.icuPendSet .a 0, 0x20), (Reg.icuMaskSet .a 0, 0)] run)).rdata.map (fun w => w.toNat % 1024) = [5] ∧
    (after (.icuClaim .a 0) (rs [(Reg.icuPendSet .a 0, 0x20), (Reg.icuMaskSet .a 0, 0)] run)).reg (Reg.icuPendSet .a 0) = 0 := by decide +kernel

/-- R284: time of day is refused at an instance that is no grandmaster. -/
theorem test_tod_refused : (after (.setTod 0 false) run).fbit Reg.TimeStatus.gmRefused = true := by decide +kernel

/-- R443, R446: a module in MAKE takes the owner key and goes to FIELD; one in FIELD does not. -/
theorem test_provision : (after (.lifeProvision hdr (List.replicate 32 7)) host).life.fuse = 2 ∧
    (after (.lifeProvision hdr (List.replicate 32 7)) { host with life.fuse := 2 }).stem.replies.map (fun r => decide (r.status % 65536 = 0)) = [false] := by
  decide +kernel

/-- R41: a step of a module that is not held, with no command, moves FREE by 2.5 ns. -/
theorem test_tick : (match step run with | .next t => t.free | _ => 0) = 163840 := by decide +kernel

/-- R243: a due DMX512 frame starts. -/
theorem test_dmx_start : ((after (.dmxFrameStart 0) { up with dmx := [(0, { queue := [{ data := [0, 9] }] })] }).dmxSt 0).last = [0, 9] := by decide +kernel

/-- R296, R327: a trunk that is alone and lost is in TEST, and no trunk is in service. -/
theorem test_keepalive : (after (.trunkKeepaliveLoss .a) (fs [(Reg.CmpStatus.stateA, 4), (Reg.TreeMode.redundancy, 1)] run)).trunkState .a = 1 ∧
    (after (.trunkKeepaliveLoss .a) (fs [(Reg.CmpStatus.stateA, 4), (Reg.TreeMode.redundancy, 1)] run)).noTrunk = true := by decide +kernel

/-- R393, R394: four bytes written to the DRAM of trunk A stand there in their order. -/
theorem test_write_mem :
    let t := after (.writeMem hdr 0x1000000000 [1, 2, 3, 4]) (fs [(Reg.TreeMode.redundancy, 2), (Reg.CmpStatus.stateA, 4)] host)
    t.mem = [(0x1000000000, 1), (0x1000000001, 2), (0x1000000002, 3), (0x1000000003, 4)] := by decide +kernel

/-! ### Witnesses of the hypotheses, clause by clause -/

set_option linter.unusedVariables false

theorem wit_StepRunsFrontCommand_1_1 : ∃ (c : Instr) (r : List Instr) (s : State), s.pending = c :: r :=
  ⟨.ocxoReady, [], { run with pending := [.ocxoReady] }, by decide +kernel⟩

theorem wit_IdleStep_1_1 : ∃ (s : State), s.pending = [] ∧ s.held = false :=
  ⟨run, by decide +kernel⟩

theorem wit_AxisCommandsComplete_1_1 : ∃ (n : Fin 18) (pos : Nat) (rate : Int) (s : State), s.held = false ∧ s.axisState n = 1 ∧ n.val ≠ 12 :=
  ⟨0, 5000, 0, fs [(Reg.AxisStatus.state 0, 1)] run, by decide +kernel⟩

theorem wit_AxisCommandsComplete_2_1 : ∃ (n : Fin 18) (pos : Nat) (rate : Int) (s : State), s.held = false ∧ s.axisState n = 3 :=
  ⟨0, 5000, 0, fs [(Reg.AxisStatus.state 0, 3)] run, by decide +kernel⟩

theorem wit_AxisCommandsComplete_3_1 : ∃ (n : Fin 18) (s : State), s.held = false ∧ n.val ≠ 17 ∧ s.axisState n = 2 :=
  ⟨0, fs [(Reg.AxisStatus.state 0, 2)] run, by decide +kernel⟩

theorem wit_AxisCommandsComplete_4_1 : ∃ (n : Fin 18) (pos : Nat) (s : State), s.held = false ∧ n.val ≠ 17 ∧ s.axisState n = 2 :=
  ⟨0, 5000, fs [(Reg.AxisStatus.state 0, 2)] run, by decide +kernel⟩

theorem wit_AxisCommandsComplete_5_1 : ∃ (n : Fin 18) (s : State), s.held = false ∧ n.val ≠ 17 ∧ s.axisState n ≠ 0 :=
  ⟨0, fs [(Reg.AxisStatus.state 0, 2)] run, by decide +kernel⟩

theorem wit_AxisCommandsComplete_6_1 : ∃ (n : Fin 18) (halt : Bool) (s : State), s.held = false ∧ (¬ (halt = true ∧ (n.val = s.epochAxis ∨ s.governsRaster n = true))) :=
  ⟨0, true, run, by decide +kernel⟩

theorem wit_AxisCommandsComplete_7_1 : ∃ (n : Fin 18) (s : State), s.held = false :=
  ⟨0, run, by decide +kernel⟩

theorem wit_AxisCommandsComplete_8_1 : ∃ (s : State), s.held = false :=
  ⟨run, by decide +kernel⟩

theorem wit_AxisReferencesComplete_1_1 : ∃ (volts : Nat) (s : State), s.held = false ∧ (s.axisState 12 = 1 ∨ s.axisState 12 = 3) ∧ (s.axis 12).lastAt ≠ 0 ∧ 7 ≤ (s.axis 12).good ∧ State.crossingGood volts (s.free - (s.axis 12).lastAt) (s.axis 12).lastPeriod = true :=
  ⟨230, fs [(Reg.AxisStatus.state 12, 1)] { run with free := 1000 + second / 50, axes := [(12, { lastAt := 1000, good := 7 })] }, by decide +kernel⟩

theorem wit_AxisReferencesComplete_2_1 : ∃ (line : Fin 8) (lines : Nat) (s : State), s.held = false ∧ s.axisState (4 + line.val) = 1 ∧ 0x10 ≤ s.sd.axisSource (4 + line.val) ∧ s.sd.axisSource (4 + line.val) ≤ 0x17 ∧ (s.axis (4 + line.val)).lastAt ≠ 0 ∧ (s.axis (4 + line.val)).lastPeriod ≠ 0 ∧ (s.axis (4 + line.val)).lines = lines ∧ 1 ≤ (s.axis (4 + line.val)).good ∧ within100ppm (s.free - (s.axis (4 + line.val)).lastAt) (s.axis (4 + line.val)).lastPeriod = true ∧ (s.sd.axisFlags (4 + line.val) % 2 = 1 → s.hasPos (s.sd.alignPtp (4 + line.val)) = true) :=
  ⟨0, 1125, fs [(Reg.AxisStatus.state 4, 1)] { seeded with free := 1000 + 65536 * 16683350, axes := [(4, { lastAt := 1000, lastPeriod := 65536 * 16683350, lines := 1125, good := 1 })] }, by decide +kernel⟩

theorem wit_AxisReferencesComplete_3_1 : ∃ (line : Fin 8) (lines : Nat) (s : State), s.held = false ∧ s.axisState (4 + line.val) = 2 ∧ ((0x10 ≤ s.sd.axisSource (4 + line.val) ∧ s.sd.axisSource (4 + line.val) ≤ 0x17) ∨ s.sd.axisSource (4 + line.val) = 0x30) :=
  ⟨0, 1125, fs [(Reg.AxisStatus.state 4, 2)] { seeded with axes := [(4, { lastAt := 1000, lastRef := 3, adv := 9, nLines := 1125 })] }, by decide +kernel⟩

theorem wit_AxisReferencesComplete_4_1 : ∃ (line : Fin 8) (rtp : Word) (lines : Nat) (s : State), s.held = false ∧ s.axisState (4 + line.val) ≠ 0 ∧ 0x20 ≤ s.sd.axisSource (4 + line.val) ∧ s.sd.axisSource (4 + line.val) ≤ 0x2F ∧ s.hasPos (s.sd.alignPtp (4 + line.val)) = true :=
  ⟨1, 0, 750, fs [(Reg.AxisStatus.state 5, 1), (Reg.AxisStatus.state 0, 2)] seeded, by decide +kernel⟩

theorem wit_AxisReferencesComplete_6_1 : ∃ (slot : Fin 2) (s : State), s.held = false ∧ s.axisState (13 + slot.val) ≠ 0 ∧ s.sd.axisSource (13 + slot.val) = 0x58 :=
  ⟨1, fs [(Reg.AxisStatus.state 14, 1)] seeded, by decide +kernel⟩

theorem wit_AxisReferencesComplete_7_1 : ∃ (tc : Fin 2) (hh : Nat) (mm : Nat) (ss : Nat) (ff : Nat) (f : Nat) (s : State), s.held = false ∧ s.axisState (15 + tc.val) ≠ 0 ∧ State.tcFrame (s.sd.tcRate (15 + tc.val)) (s.sd.axisFlags (15 + tc.val) / 2 % 2 == 1) hh mm ss ff = some f :=
  ⟨0, 1, 0, 0, 0, 108000, fs [(Reg.AxisStatus.state 15, 1)] seeded, by decide +kernel⟩

theorem wit_EventSlotsComplete_1_1 : ∃ (m : Fin 256) (s : State), s.held = false ∧ s.evtState m ≠ 1 ∧ s.evtRefused m = false :=
  ⟨0, fs [(Reg.AxisEvtCtrl.axis 0, 17), (Reg.AxisEvtCtrl.actRecord 0, 1), (Reg.AxisStatus.state 17, 2)] run, by decide +kernel⟩

theorem wit_EventSlotsComplete_2_1 : ∃ (m : Fin 256) (s : State), s.held = false ∧ s.evtState m = 1 ∧ s.evtDue m = false :=
  ⟨0, fs [(Reg.AxisEvtStatus.state 0, 1)] run, by decide +kernel⟩

theorem wit_EventSlotsComplete_2_2 : ∃ (m : Fin 256) (s : State), s.held = false ∧ s.evtState m = 1 ∧ s.evtDue m = true :=
  ⟨0, fs [(Reg.AxisEvtCtrl.axis 0, 17), (Reg.AxisEvtCtrl.actRecord 0, 1), (Reg.AxisStatus.state 17, 2), (Reg.AxisEvtStatus.state 0, 1)] run, by decide +kernel⟩

theorem wit_EventSlotsComplete_3_1 : ∃ (m : Fin 256) (s : State), s.held = false ∧ s.evtState m = 1 :=
  ⟨0, fs [(Reg.AxisEvtCtrl.axis 0, 17), (Reg.AxisEvtCtrl.actRecord 0, 1), (Reg.AxisStatus.state 17, 2), (Reg.AxisEvtStatus.state 0, 1)] run, by decide +kernel⟩

theorem wit_EventSlotsComplete_4_1 : ∃ (m : Fin 256) (s : State), s.held = false ∧ s.evtDue m = true ∧ s.internalDue (s.evtAxis m) = false ∧ (∀ j < 256, s.evtBefore m j = false) ∧ s.evtLate m = false :=
  ⟨0, fs [(Reg.AxisEvtCtrl.axis 0, 17), (Reg.AxisEvtCtrl.actRecord 0, 1), (Reg.AxisStatus.state 17, 2), (Reg.AxisEvtStatus.state 0, 1)] run, by decide +kernel⟩

theorem wit_InterruptCommandsComplete_1_1 : ∃ (k : Trunk) (i : Fin 1024) (s : State), s.held = false ∧ srcReserved i = false ∧ srcLevel i = false :=
  ⟨.a, 10, run, by decide +kernel⟩

theorem wit_InterruptCommandsComplete_2_1 : ∃ (k : Trunk) (i : Fin 1024) (level : Bool) (s : State), s.held = false ∧ srcReserved i = false ∧ srcLevel i = true :=
  ⟨.a, 1, true, run, by decide +kernel⟩

theorem wit_InterruptCommandsComplete_3_1 : ∃ (k : Trunk) (c : Fin 8) (i : Nat) (s : State), s.held = false ∧ (∀ j < 1024, s.lateMasked k c j = false) ∧ i < 1024 ∧ s.deliverable k c i = true ∧ (∀ j < i, s.deliverable k c j = false) :=
  ⟨.a, 0, 0, rs [(Reg.icuPendSet .a 0, 1), (Reg.icuMaskSet .a 0, 0xFFFFFFFE)] run, by decide +kernel⟩

theorem wit_InterruptCommandsComplete_4_1 : ∃ (k : Trunk) (c : Fin 8) (i : Fin 1024) (s : State), s.held = false ∧ (s.icu k).serving.contains (i.val, c.val) = true :=
  ⟨.a, 0, 0, { run with icus := [(0, { serving := [(0, 0)] })] }, by decide +kernel⟩

theorem wit_InterruptCommandsComplete_5_1 : ∃ (k : Trunk) (x : Option (Fin 8)) (w : Fin 32) (v : Word) (s : State), s.held = false :=
  ⟨.a, none, 0, 1, run, by decide +kernel⟩

theorem wit_InterruptCommandsComplete_6_1 : ∃ (k : Trunk) (x : Option (Fin 8)) (w : Fin 32) (v : Word) (s : State), s.held = false :=
  ⟨.a, some 6, 0, 1, run, by decide +kernel⟩

theorem wit_InterruptCommandsComplete_7_1 : ∃ (k : Trunk) (x : Option (Fin 8)) (w : Fin 32) (v : Word) (s : State), s.held = false :=
  ⟨.a, some 0, 0, 1, run, by decide +kernel⟩

theorem wit_InterruptCommandsComplete_8_1 : ∃ (k : Trunk) (x : Option (Fin 8)) (w : Fin 32) (v : Word) (s : State), s.held = false :=
  ⟨.a, none, 0, 1, run, by decide +kernel⟩

theorem wit_InterruptCommandsComplete_9_1 : ∃ (k : Trunk) (x : Option (Fin 8)) (j : Fin 512) (v : Word) (s : State), s.held = false ∧ State.isGuest x = true :=
  ⟨.a, some 6, 0, 0, run, by decide +kernel⟩

theorem wit_InterruptCommandsComplete_9_2 : ∃ (k : Trunk) (x : Option (Fin 8)) (j : Fin 512) (v : Word) (s : State), s.held = false ∧ State.isGuest x = false ∧ v.toNat % 8 < 6 ∧ j.val ≠ 448 ∧ j.val ≠ 449 :=
  ⟨.a, none, 0, 5, run, by decide +kernel⟩

theorem wit_InterruptCommandsComplete_10_1 : ∃ (k : Trunk) (c : Fin 8) (g : Fin 16) (e : Nat) (s : State), s.held = false ∧ (s.icu k).holds.find? (c.val * 16 + g.val) = some e ∧ e ≤ s.free :=
  ⟨.a, 0, 0, 0, { run with icus := [(0, { holds := [(0, 0)] })] }, by decide +kernel⟩

theorem wit_GuestCommandsComplete_1_1 : ∃ (k : Trunk) (c : Fin 2) (s : State), s.held = false ∧ s.guestState k c = 1 :=
  ⟨.a, 0, fs [(Reg.TrkGuestStatus.state .a 0, 1)] run, by decide +kernel⟩

theorem wit_GuestCommandsComplete_2_1 : ∃ (k : Trunk) (c : Fin 2) (a : Nat) (w : Bool) (s : State), s.held = false ∧ s.guestState k c = 1 ∧ guestMayAccess (guestPart s c).2 c a w = false :=
  ⟨.a, 0, 0xF0000000, true, fs [(Reg.TrkGuestStatus.state .a 0, 1)] run, by decide +kernel⟩

theorem wit_GuestCommandsComplete_3_1 : ∃ (k : Trunk) (c : Fin 2) (off : Nat) (v : Word) (s : State), s.held = false ∧ s.guestState k c = 1 ∧ guestMayWrite c off = true :=
  ⟨.a, 0, Reg.trkMasterInt .a - trunkBase .a, 1, fs [(Reg.TrkGuestStatus.state .a 0, 1)] run, by decide +kernel⟩

theorem wit_GuestCommandsComplete_4_1 : ∃ (k : Trunk) (c : Fin 8) (g : BitVec 64) (s : State), s.held = false ∧ (c.val < 6 ∨ s.guestState k (c.val - 6) = 1 ∧ g.toNat ≤ (s.guest k (c.val - 6)).epoch * 2 ^ 24 + (2 ^ 24 - 1)) :=
  ⟨.a, 6, 0xFFFFFF, fs [(Reg.TrkGuestStatus.state .a 0, 1)] run, by decide +kernel⟩

theorem wit_GuestCommandsComplete_5_1 : ∃ (k : Trunk) (c : Fin 2) (s : State), s.held = false ∧ (guestRec? s c).isSome = true :=
  ⟨.a, 0, seeded, by decide +kernel⟩

theorem wit_GuestCommandsComplete_6_1 : ∃ (k : Trunk) (c : Fin 2) (a : Nat) (n : Nat) (p : Nat) (s : State), s.held = false ∧ s.guestState k c = 1 :=
  ⟨.a, 0, 0, 64, 0, fs [(Reg.TrkGuestStatus.state .a 0, 1)] run, by decide +kernel⟩

theorem wit_QueueBlockCommandsComplete_1_1 : ∃ (q : QbId) (d : List Byte) (sop : Bool) (eop : Bool) (err : Bool) (s : State), s.held = false ∧ s.qbPresent (qbKey q) = true ∧ (s.qb (qbKey q)).held = [] ∧ (s.qb (qbKey q)).entries.length < s.fget (qbGeomDepth (qbKey q)) ∧ s.qbFillAt (qbKey q) < s.fget (qbGeomDepth (qbKey q)) :=
  ⟨.trunk .a 0 0, [1], true, true, false, fs [(qbGeomDepth 1000, 4)] run, by decide +kernel⟩

theorem wit_QueueBlockCommandsComplete_2_1 : ∃ (q : QbId) (d : List Byte) (sop : Bool) (eop : Bool) (err : Bool) (s : State), s.held = false ∧ s.qbPresent (qbKey q) = true ∧ s.fget (qbGeomDepth (qbKey q)) ≤ (s.qb (qbKey q)).entries.length :=
  ⟨.trunk .a 0 0, [1], true, true, false, fs [(qbGeomDepth 1000, 4)] { run with qbs := [(1000, { entries := [{}, {}, {}, {}] })] }, by decide +kernel⟩

theorem wit_QueueBlockCommandsComplete_3_1 : ∃ (q : QbId) (e : QbEntry) (r : List QbEntry) (s : State), s.held = false ∧ (s.qb (qbKey q)).entries = e :: r ∧ s.qbFillAt (qbKey q) ≠ 0 ∧ ((s.qb (qbKey q)).started = true ∨ qbVisible (s.fget (qbThreshold (qbKey q))) 0 (e :: r) = true) :=
  ⟨.trunk .a 0 0, { eop := true }, [], { run with qbs := [(1000, { fill := 1, entries := [{ eop := true }] })] }, by decide +kernel⟩

theorem wit_QueueBlockCommandsComplete_4_1 : ∃ (q : QbId) (since : Nat) (s : State), s.held = false ∧ (s.qb (qbKey q)).since = some since ∧ s.fget (qbStaleUs (qbKey q)) ≠ 0 ∧ since + s.fget (qbStaleUs (qbKey q)) * 65536000 ≤ s.free ∧ s.fbit (qbStatusBit (qbKey q) 29) = false :=
  ⟨.trunk .a 0 0, 0, fs [(qbStaleUs 1000, 1)] { run with free := 65536000, qbs := [(1000, { since := some 0 })] }, by decide +kernel⟩

theorem wit_SchedulerCommandsComplete_1_1 : ∃ (k : Trunk) (slot : Fin 4096) (flag : Fin 64) (s : State), s.held = false ∧ ((s.sched k).task slot).state = 1 ∧ (s.sched k).ready.length < 1024 ∧ Task.holds { (s.sched k).task slot with flags := ((s.sched k).task slot).flags ||| BitVec.ofNat 64 (2 ^ flag.val) } = true :=
  ⟨.a, 0, 0, { run with scheds := [(0, { tasks := [(0, { state := 1, mask := 1 })] })] }, by decide +kernel⟩

theorem wit_SchedulerCommandsComplete_2_1 : ∃ (k : Trunk) (slot : Nat) (s : State), s.held = false ∧ (s.sched k).ready = [slot] ∧ (s.sched k).held = [] ∧ 2 ≤ ((s.sched k).task slot).target ∧ (s.sched k).items (64 + (((s.sched k).task slot).target - 2)) < 4 ∧ (s.sched k).flowBusy s.free ((s.sched k).task slot).flow = false ∧ (s.sched k).inService < 256 ∧ ((s.sched k).now s.free).used = [] ∧ ((s.sched k).task slot).readyAt ≠ s.free :=
  ⟨.a, 0, { run with free := 5, scheds := [(0, { tasks := [(0, { state := 2, target := 2 })], ready := [0] })] }, by decide +kernel⟩

theorem wit_SchedulerCommandsComplete_3_1 : ∃ (k : Trunk) (slot : Fin 4096) (s : State), s.held = false ∧ ((s.sched k).task slot).state = 2 ∧ ((s.sched k).task slot).target = 0 ∧ ((s.sched k).task slot).aged = false ∧ ((s.sched k).task slot).readyAt + 65536 * 163840 ≤ s.free :=
  ⟨.a, 0, { run with free := 65536 * 163840, scheds := [(0, { tasks := [(0, { state := 2 })], ready := [0] })] }, by decide +kernel⟩

theorem wit_CheckCommandsComplete_1_1 : ∃ (e : Option Trunk) (n : Fin 16) (s : State), s.held = false ∧ State.chkHere e n = true ∧ s.chkBad e n = false :=
  ⟨none, 0, fs [(⟨chkBase none 0, 0, 3⟩, 1)] run, by decide +kernel⟩

theorem wit_CheckCommandsComplete_2_1 : ∃ (e : Option Trunk) (n : Fin 16) (v : Word) (s : State), s.held = false ∧ State.chkHere e n = true ∧ s.chkCfgF e n 12 2 ≠ 2 ∧ (s.chkSt e n).tail = [] :=
  ⟨none, 0, 0x55, fs [(⟨chkBase none 0, 0, 3⟩, 1)] run, by decide +kernel⟩

theorem wit_CheckCommandsComplete_3_1 : ∃ (e : Option Trunk) (n : Fin 16) (s : State), s.held = false ∧ State.chkHere e n = true ∧ s.chkCfgF e n 12 2 ≠ 2 :=
  ⟨none, 0, fs [(⟨chkBase none 0, 0, 3⟩, 1)] run, by decide +kernel⟩

theorem wit_CheckCommandsComplete_4_1 : ∃ (e : Option Trunk) (n : Fin 16) (v : Word) (s : State), s.held = false ∧ State.chkHere e n = true ∧ s.chkBusy e n = false ∧ (s.chkAlg e n).width = 64 :=
  ⟨none, 0, 5, fs [(⟨chkBase none 0, 28, 2⟩, 3)] run, by decide +kernel⟩

theorem wit_CheckCommandsComplete_6_1 : ∃ (e : Option Trunk) (m : Fin 16) (n : Nat) (unit : Nat) (addr : Nat) (s : State), s.held = false ∧ s.events.length < 4096 ∧ s.eccSeen.get (0, none, 0, 0) (State.dieOf e * 16 + m.val) = (n + 1, none, unit, addr) :=
  ⟨none, 0, 0, 0, 0, { run with eccSeen := [(0, (1, none, 0, 0))] }, by decide +kernel⟩

theorem wit_CheckCommandsComplete_7_1 : ∃ (e : Option Trunk) (m : Fin 16) (b : BitVec 12) (s : State), s.held = false ∧ s.events.length < 4096 ∧ (s.eccSeen.get (0, none, 0, 0) 15).2.1 = none :=
  ⟨none, 0, 1, run, by decide +kernel⟩

theorem wit_TwinCommandsComplete_1_1 : ∃ (k : Trunk) (u : CUnit) (r : List CUnit) (s : State), s.held = false ∧ s.twin.outbox.get [] k.idx = u :: r ∧ s.inService k = true ∧ s.compareActive = true ∧ u.solo = false ∧ s.twin.dropCopies = [] ∧ s.fbit Reg.CmpStatus.etcHold = false ∧ s.twin.waiting = [] ∧ s.etc = false ∧ u.out.data.length ≤ 2 ^ 26 ∧ s.cyc.report = none :=
  ⟨.a, { code := 0, seq := 0, out := {} }, [], fs [(Reg.CmpStatus.stateA, 4), (Reg.CmpStatus.stateB, 3), (Reg.TreeMode.compareActive, 1)] { run with twin.outbox := [(0, [{ code := 0, seq := 0, out := {} }])] }, by decide +kernel⟩

theorem wit_TwinCommandsComplete_2_1 : ∃ (h : HeldCopy) (s : State), s.held = false ∧ s.twin.waiting = [h] ∧ h.queued = false ∧ s.twin.arb = [] ∧ s.twin.arbDone = [] ∧ s.twin.etcHeld = [] ∧ s.bridge.graftCopies = [] ∧ h.at_ + s.fget Reg.CmpCtrl.window * 65536000 ≤ s.free :=
  ⟨{ from_ := .a, unit := { code := 0, seq := 0, out := {} }, at_ := 0 }, { run with free := second, twin.waiting := [{ from_ := .a, unit := { code := 0, seq := 0, out := {} }, at_ := 0 }] }, by decide +kernel⟩

theorem wit_TwinCommandsComplete_3_1 : ∃ (u : ArbUnit) (x : BitVec 64) (s : State), s.held = false ∧ s.twin.arb = [u] ∧ u.voteA = none ∧ u.voteB = none :=
  ⟨{ code := 0, seq := 0 }, 5, { run with twin.arb := [{ code := 0, seq := 0 }] }, by decide +kernel⟩

theorem wit_TwinCommandsComplete_4_1 : ∃ (u : ArbUnit) (s : State), s.held = false ∧ s.twin.arb = [u] ∧ u.voteA = none ∧ u.voteB = none ∧ u.asked + 80 * 65536000 ≤ s.free :=
  ⟨{ code := 0, seq := 0 }, { run with free := second, twin.arb := [{ code := 0, seq := 0 }] }, by decide +kernel⟩

theorem wit_TwinCommandsComplete_5_1 : ∃ (k : Trunk) (up : Bool) (lane : Fin 34) (s : State), s.held = false ∧ ((s.twin.laneReplays.get [] ((k.idx * 2 + up.toNat) * 64 + lane.val)).filter (fun x => s.free < x + 1000000 * 65536)).length < 15 :=
  ⟨.a, true, 0, run, by decide +kernel⟩

theorem wit_TwinCommandsComplete_6_1 : ∃ (k : Trunk) (s : State), s.held = false ∧ 3 ≤ s.trunkState k ∧ s.trunkState k.other = 0 ∧ s.redundancy = 1 ∧ s.compareActive = false :=
  ⟨.a, fs [(Reg.CmpStatus.stateA, 4), (Reg.TreeMode.redundancy, 1)] run, by decide +kernel⟩

theorem wit_TwinCommandsComplete_7_1 : ∃ (k : Trunk) (s : State), s.held = false ∧ s.trunkState k = 1 ∧ s.twin.retryAt.get 0 k.idx = 0 ∧ s.twin.tested.contains k.idx = false ∧ s.twin.testFails.get 0 k.idx < 2 :=
  ⟨.a, fs [(Reg.CmpStatus.stateA, 1)] run, by decide +kernel⟩

theorem wit_TwinCommandsComplete_8_1 : ∃ (k : Trunk) (s : State), s.held = false ∧ s.trunkState k = 1 ∧ s.twin.retryAt.get 0 k.idx = 0 ∧ s.twin.tested.contains k.idx = false ∧ s.fget (Reg.BistTrunkHealth.boughFailed k.idx) = 0 ∧ s.inService k.other = false ∧ s.twin.loaded.contains k.idx = false :=
  ⟨.a, fs [(Reg.CmpStatus.stateA, 1)] run, by decide +kernel⟩

theorem wit_TwinCommandsComplete_9_1 : ∃ (k : Trunk) (s : State), s.held = false ∧ s.trunkState k = 1 ∧ s.twin.retryAt.get 0 k.idx ≠ 0 ∧ s.twin.retryAt.get 0 k.idx ≤ s.free :=
  ⟨.a, fs [(Reg.CmpStatus.stateA, 1)] { run with free := 5, twin.retryAt := [(0, 5)] }, by decide +kernel⟩

theorem wit_TwinCommandsComplete_10_1 : ∃ (s : State), s.held = false ∧ s.joining.isSome = true ∧ s.fget Reg.CmpResync.phase = 1 :=
  ⟨fs [(Reg.CmpStatus.stateA, 2), (Reg.CmpResync.phase, 1)] run, by decide +kernel⟩

theorem wit_TwinCommandsComplete_11_1 : ∃ (k : Trunk) (s : State), s.held = false ∧ s.joining = some k ∧ s.fget Reg.CmpResync.phase = 1 ∧ s.twin.resyncAt + 10 * second ≤ s.free :=
  ⟨.a, fs [(Reg.CmpStatus.stateA, 2), (Reg.CmpResync.phase, 1)] { run with free := 10 * second }, by decide +kernel⟩

theorem wit_TwinCommandsComplete_12_1 : ∃ (s : State), s.held = false :=
  ⟨run, by decide +kernel⟩

theorem wit_TwinCommandsComplete_13_1 : ∃ (s : State), s.held = false ∧ s.compareActive = true :=
  ⟨fs [(Reg.TreeMode.compareActive, 1)] run, by decide +kernel⟩

theorem wit_TwinCommandsComplete_14_1 : ∃ (k : Trunk) (s : State), s.held = false ∧ s.trunkState k = 0 ∧ s.fbit Reg.TreeReady.firmware = true :=
  ⟨.a, fs [(Reg.TreeReady.firmware, 1)] run, by decide +kernel⟩

theorem wit_TwinCommandsComplete_15_1 : ∃ (k : Trunk) (s : State), s.held = false ∧ s.fget Reg.LifeState.state = 3 :=
  ⟨.a, fs [(Reg.LifeState.state, 3)] run, by decide +kernel⟩

theorem wit_PortTransmitCommandsComplete_1_1 : ∃ (rec : Nat) (f : OutFrame) (r : List OutFrame) (s : State), s.held = false ∧ 1 ≤ portKind (s.portRec rec) ∧ portKind (s.portRec rec) ≤ 4 ∧ (s.port (s.ethOfRec rec)).timed = f :: r ∧ s.due f = true ∧ s.lineFree (s.ethOfRec rec) = true :=
  ⟨0, {}, [], { up with ports := [(0, { timed := [{}] })] }, by decide +kernel⟩

theorem wit_PortTransmitCommandsComplete_2_1 : ∃ (rec : Nat) (s : State), s.held = false ∧ 1 ≤ portKind (s.portRec rec) ∧ portKind (s.portRec rec) ≤ 4 ∧ s.txBlocked (s.ethOfRec rec) = true :=
  ⟨0, seeded, by decide +kernel⟩

theorem wit_PortTransmitCommandsComplete_3_1 : ∃ (n : Fin 58) (x : TxSt) (s : State), s.held = false ∧ (s.port n).tx = some x ∧ (s.port n).timed = [] ∧ (s.port n).untimed = [] ∧ (s.port n).pauseOut = [] ∧ s.stillIn n x = false :=
  ⟨0, {}, { run with ports := [(0, { tx := some {} })] }, by decide +kernel⟩

theorem wit_PortTransmitCommandsComplete_4_1 : ∃ (n : Fin 58) (u : Untimed) (r : List Untimed) (s : State), s.held = false ∧ s.lineFree n = true ∧ (s.port n).pauseOut = [] ∧ (s.port n).untimed = u :: r ∧ s.guardOk n u.frame.len = true ∧ ptpAt u.frame = none ∧ u.stamp = none :=
  ⟨0, { frame := fr }, [], { up with ports := [(0, { untimed := [{ frame := fr }] })] }, by decide +kernel⟩

theorem wit_PortTransmitCommandsComplete_5_1 : ∃ (i : Fin 58) (e : Fin 58) (f : EthFrame) (got : Nat) (s : State), s.held = false ∧ s.cutOk i e f got = true :=
  ⟨16, 17, { fr with dst := 6 }, 64, { up with swTable := [{ group := 0, addr := 6, port := 17, at_ := 0 }] }, by decide +kernel⟩

theorem wit_PortTransmitCommandsComplete_6_1 : ∃ (n : Fin 58) (time : BitVec 16) (s : State), s.held = false ∧ s.ethRec? n ≠ none ∧ s.linkUp n = true ∧ portPauseHonoured (s.ethRec n) = true ∧ s.fbit (Reg.PortStatus.pauseIgnored n) = false ∧ time.toNat ≠ 0 :=
  ⟨0, 5, up, by decide +kernel⟩

theorem wit_PortTransmitCommandsComplete_7_1 : ∃ (n : Fin 58) (s : State), s.held = false ∧ (s.port n).pauseEnd ≠ 0 ∧ (s.port n).pauseEnd ≤ s.free ∧ (s.port n).timed = [] ∧ (s.port n).untimed = [] ∧ (s.port n).pauseOut = [] :=
  ⟨0, { { run with free := 5 } with ports := [(0, { pauseEnd := 1 })] }, by decide +kernel⟩

theorem wit_PortTransmitCommandsComplete_8_1 : ∃ (n : Fin 58) (s : State), s.held = false ∧ (s.port n).pauseEnd ≠ 0 ∧ ethPauseWd (s.ethRec n) ≠ 0xFFFF ∧ (s.port n).heldFrom + ethPauseWd (s.ethRec n) * 1000000 * 65536 ≤ s.free ∧ (s.port n).timed = [] ∧ (s.port n).untimed = [] ∧ (s.port n).pauseOut = [] :=
  ⟨0, { { seeded with free := second } with ports := [(0, { pauseEnd := 1 })] }, by decide +kernel⟩

theorem wit_PortTransmitCommandsComplete_9_1 : ∃ (n : Fin 58) (s : State), s.held = false ∧ s.ethRec? n ≠ none :=
  ⟨0, seeded, by decide +kernel⟩

theorem wit_PortTransmitCommandsComplete_10_1 : ∃ (n : Fin 58) (s : State), s.held = false ∧ (s.port n).pausing ≠ [] ∧ (s.port n).pauseNext ≤ s.free :=
  ⟨0, { run with ports := [(0, { pausing := [1] })] }, by decide +kernel⟩

theorem wit_PortTransmitCommandsComplete_11_1 : ∃ (g : Fin 8) (bit : Nat) (x : TxSt) (s : State), s.held = false ∧ (s.port (50 + g.val)).tx = some x :=
  ⟨0, 5, {}, { run with ports := [(50, { tx := some {} })] }, by decide +kernel⟩

theorem wit_PortTransmitCommandsComplete_11_2 : ∃ (g : Fin 8) (bit : Nat) (x : TxSt) (s : State), s.held = false ∧ (s.port (50 + g.val)).tx = some x ∧ bit < 512 ∧ (s.port (50 + g.val)).attempts + 1 < 16 :=
  ⟨0, 5, {}, { run with ports := [(50, { tx := some {} })] }, by decide +kernel⟩

theorem wit_PortTransmitCommandsComplete_12_1 : ∃ (g : Fin 8) (s : State), s.held = false ∧ (s.port (50 + g.val)).backoffEnd ≤ s.free ∧ (s.port (50 + g.val)).timed = [] ∧ (s.port (50 + g.val)).untimed = [] ∧ (s.port (50 + g.val)).pauseOut = [] :=
  ⟨0, run, by decide +kernel⟩

theorem wit_PortTransmitCommandsComplete_13_1 : ∃ (g : Fin 8) (s : State), s.held = false ∧ (s.port (50 + g.val)).timed = [] ∧ (s.port (50 + g.val)).untimed = [] ∧ (s.port (50 + g.val)).pauseOut = [] :=
  ⟨0, run, by decide +kernel⟩

theorem wit_PortReceiveCommandsComplete_1_1 : ∃ (n : Fin 58) (f : EthFrame) (s : State), s.held = false ∧ s.ethRec? n ≠ none ∧ s.linkUp n = true ∧ 64 ≤ f.len ∧ f.len ≤ portMaxFrame (s.ethRec n) ∧ f.fcsOk = true ∧ udpBad f = false ∧ f.etype ≠ 0x8808 ∧ (n.val < 16 ∨ 50 ≤ n.val) ∧ f.dst = s.portMac n ∧ State.ringBuffers (s.port n) + (f.len + 255) / 256 ≤ (portRingSize (s.ethRec n) + 255) / 256 :=
  ⟨0, fr, up, by decide +kernel⟩

theorem wit_PortReceiveCommandsComplete_2_1 : ∃ (n : Fin 58) (up : Bool) (s : State), s.held = false ∧ s.ethRec? n ≠ none :=
  ⟨0, true, seeded, by decide +kernel⟩

theorem wit_PortReceiveCommandsComplete_3_1 : ∃ (n : Fin 58) (s : State), s.held = false ∧ (s.port n).fallback = true ∧ s.linkUp n = true ∧ (s.port n).upSince + second ≤ s.free :=
  ⟨0, { { up with free := second } with ports := [(0, { fallback := true })] }, by decide +kernel⟩

theorem wit_PortReceiveCommandsComplete_4_1 : ∃ (n : Fin 58) (off : Bool) (s : State), s.held = false ∧ s.ethRec? n ≠ none :=
  ⟨0, true, seeded, by decide +kernel⟩

theorem wit_PortReceiveCommandsComplete_5_1 : ∃ (s : State), s.held = false :=
  ⟨run, by decide +kernel⟩

theorem wit_PortReceiveCommandsComplete_6_1 : ∃ (g : Fin 16) (a : Nat) (s : State), s.held = false ∧ s.fget Reg.SwCtrl.ageTime ≠ 0 :=
  ⟨0, 5, fs [(Reg.SwCtrl.ageTime, 300)] run, by decide +kernel⟩

theorem wit_PortReceiveCommandsComplete_7_1 : ∃ (n : Fin 58) (s : State), s.held = false ∧ s.ethRec? n ≠ none :=
  ⟨0, seeded, by decide +kernel⟩

theorem wit_DmxCommandsComplete_1_1 : ∃ (n : Fin 16) (f : OutFrame) (s : State), s.held = false ∧ s.dmxHeld n = false ∧ (s.dmxSt n).queue = [f] ∧ s.due f = true ∧ (s.dmxSt n).cur = none ∧ (s.dmxSt n).rdm = none :=
  ⟨0, {}, { up with dmx := [(0, { queue := [{}] })] }, by decide +kernel⟩

theorem wit_DmxCommandsComplete_2_1 : ∃ (n : Fin 16) (s : State), s.held = false ∧ (s.dmxSt n).endsAt ≤ s.free :=
  ⟨0, run, by decide +kernel⟩

theorem wit_DmxCommandsComplete_3_1 : ∃ (n : Fin 16) (s : State), s.held = false ∧ s.dmxHeld n = false ∧ (s.dmxSt n).cur = none ∧ (s.dmxSt n).rdm = none ∧ (s.dmxSt n).repeating = false ∧ (s.dmxSt n).last ≠ [] ∧ (∀ f ∈ (s.dmxSt n).queue, s.due f = false) ∧ dmxRepeatMs (s.dmxRec n) ≠ 0xFFFF ∧ (s.dmxSt n).lastStart + dmxRepeatMs (s.dmxRec n) * 1000 * usRaw ≤ s.free :=
  ⟨0, { { seeded with free := second } with dmx := [(0, { last := [1] })] }, by decide +kernel⟩

theorem wit_DmxCommandsComplete_4_1 : ∃ (n : Fin 16) (q : RdmReq) (r : List RdmReq) (s : State), s.held = false ∧ (s.dmxSt n).rdmQ = q :: r ∧ q.step ≠ 1 ∧ s.dmxIdle n = true ∧ (s.dmxBound n = true → (s.dmxSt n).ended = true) ∧ s.gapHolds n (State.rdmWait (s.dmxRec n) q.data.length (State.rdmDisc q) + 257 * 44 * usRaw) = true :=
  ⟨0, {}, [], { seeded with dmx := [(0, { rdmQ := [{}] })] }, by decide +kernel⟩

theorem wit_DmxCommandsComplete_5_1 : ∃ (n : Fin 16) (q : RdmReq) (ack : Bool) (d : List Byte) (s : State), s.held = false ∧ (s.dmxSt n).rdm = some q ∧ q.origin = 4 ∧ q.lo = s.grovePos ∧ q.tag < 16 :=
  ⟨0, { origin := 4, lo := 0xFF }, true, [], { run with dmx := [(0, { rdm := some { origin := 4, lo := 0xFF } })] }, by decide +kernel⟩

theorem wit_DmxCommandsComplete_6_1 : ∃ (n : Fin 16) (q : RdmReq) (s : State), s.held = false ∧ (s.dmxSt n).rdm = some q ∧ q.retried = false ∧ (s.dmxSt n).rdmAt + State.rdmWait (s.dmxRec n) q.data.length (State.rdmDisc q) ≤ s.free :=
  ⟨0, {}, { { run with free := second } with dmx := [(0, { rdm := some {} })] }, by decide +kernel⟩

theorem wit_DmxCommandsComplete_7_1 : ∃ (n : Fin 16) (q : RdmReq) (r : List RdmReq) (s : State), s.held = false ∧ (s.dmxSt n).rdmQ = q :: r ∧ q.asked + second ≤ s.free ∧ q.origin = 4 :=
  ⟨0, { origin := 4 }, [], { { run with free := second } with dmx := [(0, { rdmQ := [{ origin := 4 }] })] }, by decide +kernel⟩

theorem wit_DmxCommandsComplete_8_1 : ∃ (n : Fin 16) (s : State), s.held = false ∧ dmxRdm (s.dmxRec n) = true ∧ s.fbit (Reg.DmxStatus.discBusy n) = false :=
  ⟨0, seeded, by decide +kernel⟩

theorem wit_DmxCommandsComplete_9_1 : ∃ (n : Fin 16) (l : List Byte) (b : Nat) (m : Nat) (s : State), s.held = false ∧ (s.dmxRec? n).isSome = true ∧ dmxInput (s.dmxRec n) = true ∧ s.bridge.tunLive = [] ∧ 24 ≤ l.length ∧ l.length ≤ 512 :=
  ⟨1, List.replicate 24 0, 100, 20, seeded, by decide +kernel⟩

theorem wit_DmxCommandsComplete_10_1 : ∃ (n : Fin 16) (f : TunFrame) (s : State), s.held = false ∧ (s.dmxSt n).tun = some f ∧ s.dmxIdle n = true ∧ (s.dmxBound n = true → s.gapHolds n ((f.brk + f.mab + f.data.length * 44) * usRaw) = true) :=
  ⟨0, { brk := 92, mab := 12, data := [0] }, { seeded with dmx := [(0, { tun := some { brk := 92, mab := 12, data := [0] } })] }, by decide +kernel⟩

theorem wit_DmxCommandsComplete_11_1 : ∃ (u : Nat) (c : Nat) (p : Nat) (sy : Nat) (l : List Byte) (s : State), s.held = false ∧ s.e131Joined u = true ∧ (s.e131rx.get [] u).find? (fun x => x.cid == c) = none :=
  ⟨1, 7, 100, 0, [1], seeded, by decide +kernel⟩

theorem wit_DmxCommandsComplete_11_2 : ∃ (u : Nat) (c : Nat) (p : Nat) (sy : Nat) (l : List Byte) (s : State) (x : E131Src), s.held = false ∧ s.e131Joined u = true ∧ (s.e131rx.get [] u).find? (fun x => x.cid == c) = some x ∧ x.sync = sy :=
  ⟨1, 7, 100, 0, [1], { seeded with e131rx := [(1, [src7])] }, src7, by decide +kernel⟩

theorem wit_DmxCommandsComplete_12_1 : ∃ (u : Nat) (c : Nat) (p : Nat) (sy : Nat) (s : State), s.held = false :=
  ⟨1, 7, 100, 0, run, by decide +kernel⟩

theorem wit_DmxCommandsComplete_13_1 : ∃ (u : Nat) (c : Nat) (x : E131Src) (s : State), s.held = false ∧ (s.e131rx.get [] u).find? (fun x => x.cid == c) = some x ∧ x.lastAt + 5 * second / 2 ≤ s.free :=
  ⟨1, 7, src7, { run with free := 10 * second, e131rx := [(1, [src7])] }, by decide +kernel⟩

theorem wit_DmxCommandsComplete_14_1 : ∃ (u : Nat) (s : State), s.held = false ∧ (s.e131tx.get ({} : E131Tx) u).packet ≠ [] ∧ (s.e131tx.get ({} : E131Tx) u).lastAt + second ≤ s.free ∧ s.linkUp (s.e131Port (s.e131tx.get ({} : E131Tx) u).group) = true ∧ State.queueFill (s.port (s.e131Port (s.e131tx.get ({} : E131Tx) u).group)) + (ethOf (s.e131Frame (s.e131tx.get ({} : E131Tx) u).group (e131WithSeq (s.e131tx.get ({} : E131Tx) u).packet (s.e131tx.get ({} : E131Tx) ((e131Key (s.e131tx.get ({} : E131Tx) u).packet).2)).seq))).len ≤ portQueueSize (s.ethRec (s.e131Port (s.e131tx.get ({} : E131Tx) u).group)) - portMaxFrame (s.ethRec (s.e131Port (s.e131tx.get ({} : E131Tx) u).group)) :=
  ⟨1, { up with free := 2 * second, e131tx := [(1, { packet := List.replicate 126 0 })] }, by decide +kernel⟩

theorem wit_SapCommandsComplete_1_1 : ∃ (n : Fin 64) (f : OutFrame) (s : State), s.held = false ∧ s.sapHeld n = false ∧ (s.sapSt n).window = none ∧ (s.sapSt n).cur = none ∧ (s.sapSt n).queue = [f] ∧ f.part = 0 ∧ s.due f = true :=
  ⟨0, {}, { up with saps := [(0, { queue := [{}] })] }, by decide +kernel⟩

theorem wit_SapCommandsComplete_2_1 : ∃ (n : Fin 64) (b : SapBurst) (s : State), s.held = false ∧ (s.sapSt n).cur = some b ∧ b.head.parts ≤ b.next ∧ (∀ p ∈ s.basePos b.head.base, b.free - 2 * sapChars (s.sapRec n) 1 ≤ (p : Int)) :=
  ⟨0, { head := {}, next := 1 }, { run with saps := [(0, { cur := some { head := {}, next := 1 } })] }, by decide +kernel⟩

theorem wit_SapCommandsComplete_3_1 : ∃ (n : Fin 64) (rec : Nat) (s : State), s.held = false ∧ s.sapRec? n = some rec ∧ sapNodes (s.sapRec n) ≠ 0 ∧ s.sapHeld n = false ∧ (s.sapSt n).cur = none ∧ (s.sapSt n).window = none ∧ s.nextLaunchOf rec (s.sapSt n).queue = none ∧ s.pollDue n ((s.sapSt n).pollNext % sapNodes (s.sapRec n)) = true :=
  ⟨0, 6, { seeded with free := second }, by decide +kernel⟩

theorem wit_SapCommandsComplete_4_1 : ∃ (n : Fin 64) (w : SapWindow) (f : List Byte) (p : List Byte) (s : State), s.held = false ∧ (s.sapSt n).window = some w ∧ w.opens ≤ s.free ∧ s.free ≤ w.fin ∧ (w.ident = false ∧ State.sapReplyOk w.node f = some (0x84, p) ∧ p.length = 24 ∨ w.ident = true ∧ State.sapReplyOk w.node f = some (0x86, p) ∧ p.length = 16) :=
  ⟨0, { node := 0 }, sapFrame, List.replicate 24 0, { run with saps := [(0, { window := some { node := 0 } })] }, by decide +kernel⟩

theorem wit_SapCommandsComplete_5_1 : ∃ (n : Fin 64) (w : SapWindow) (s : State), s.held = false ∧ (s.sapSt n).window = some w ∧ w.fin ≤ s.free :=
  ⟨0, { node := 0 }, { run with saps := [(0, { window := some { node := 0 } })] }, by decide +kernel⟩

theorem wit_PtpCommandsComplete_1_1 : ∃ (i : Fin 4) (s : State), s.held = false ∧ (∀ j < 4, (s.ptp j).running = false) :=
  ⟨0, run, by decide +kernel⟩

theorem wit_PtpCommandsComplete_2_1 : ∃ (i : Fin 4) (s : State), s.held = false ∧ (s.ptp i).running = true :=
  ⟨0, { run with ptps := [(0, { running := true })] }, by decide +kernel⟩

theorem wit_PtpCommandsComplete_3_1 : ∃ (i : Fin 4) (a : PtpAnnounce) (s : State), s.held = false ∧ 4 ≤ s.ptpState i ∧ (s.ptp i).foreign = [] :=
  ⟨0, default, fs [(Reg.TimePtpStatus.portState 0, 4)] run, by decide +kernel⟩

theorem wit_PtpCommandsComplete_4_1 : ∃ (i : Fin 4) (m : PtpEvent) (sub : Nat) (s : State), s.held = false ∧ 8 ≤ s.ptpState i ∧ m.twoStep = true :=
  ⟨0, { seq := 1, origin := 0, corr := 0, twoStep := true }, 0, fs [(Reg.TimePtpStatus.portState 0, 8)] run, by decide +kernel⟩

theorem wit_PtpCommandsComplete_5_1 : ∃ (i : Fin 4) (m : PtpEvent) (sub : Nat) (s : State), s.held = false ∧ 8 ≤ s.ptpState i ∧ m.twoStep = false :=
  ⟨0, { seq := 1, origin := 0, corr := 0 }, 7, fs [(Reg.TimePtpStatus.portState 0, 8)] run, by decide +kernel⟩

theorem wit_PtpCommandsComplete_6_1 : ∃ (i : Fin 4) (m : PtpEvent) (t2 : Int) (c : Int) (s : State), s.held = false ∧ 8 ≤ s.ptpState i ∧ (s.ptp i).d = none ∧ (s.ptp i).two = some (m.seq, t2, c) :=
  ⟨0, { seq := 1, origin := 0, corr := 0 }, 7, 0, fs [(Reg.TimePtpStatus.portState 0, 8)] { run with ptps := [(0, { two := some (1, 7, 0) })] }, by decide +kernel⟩

theorem wit_PtpCommandsComplete_7_1 : ∃ (i : Fin 4) (seq : Nat) (t4 : Int) (corr : Int) (t3 : Int) (df : Int) (s : State), s.held = false ∧ 8 ≤ s.ptpState i ∧ (s.ptp i).d = none ∧ (s.ptp i).p2p = false ∧ (s.ptp i).req = some (seq, t3) ∧ (s.ptp i).diff = some df :=
  ⟨0, 1, 9, 0, 4, 3, fs [(Reg.TimePtpStatus.portState 0, 9)] { run with ptps := [(0, { req := some (1, 4), diff := some 3 })] }, by decide +kernel⟩

theorem wit_PtpCommandsComplete_8_1 : ∃ (i : Fin 4) (src : Nat) (seq : Nat) (sub : Nat) (s : State), s.held = false ∧ s.ptpState i = 6 ∧ (s.ptp i).p2p = false ∧ Safety.admits s (s.ptp i).port (ethOf (s.ptpOut i 9 seq 0 ((s.ptp i).logOf 8 0 (-3)) (ptpStamp (s.ingressTime i sub) ++ beBytes 10 src))).len :=
  ⟨0, 1, 0, 0, fs [(Reg.TimePtpStatus.portState 0, 6)] up, by unfold Safety.admits; decide +kernel⟩

theorem wit_PtpCommandsComplete_9_1 : ∃ (port : Fin 50) (src : Nat) (seq : Nat) (m : Int) (s : State), s.held = false ∧ s.fget Reg.TimeTcCtrl.tcMode = 2 ∧ (∀ j < 4, (s.ptp j).running = false) ∧ Safety.admits s port (ethOf (s.pdelayOut port 3 seq (List.replicate 10 0 ++ beBytes 10 src))).len :=
  ⟨0, 1, 0, 9, fs [(Reg.TimeTcCtrl.tcMode, 2)] up, by unfold Safety.admits; decide +kernel⟩

theorem wit_PtpCommandsComplete_9_2 : ∃ (port : Fin 50) (src : Nat) (seq : Nat) (m : Int) (s : State), s.held = false ∧ s.fget Reg.TimeTcCtrl.tcMode = 2 ∧ (∀ j < 4, (s.ptp j).running = false) :=
  ⟨0, 1, 0, 9, fs [(Reg.TimeTcCtrl.tcMode, 2)] up, by decide +kernel⟩

theorem wit_PtpCommandsComplete_10_1 : ∃ (i : Fin 4) (s : State), s.held = false :=
  ⟨0, run, by decide +kernel⟩

theorem wit_PtpCommandsComplete_11_1 : ∃ (i : Fin 4) (s : State), s.held = false ∧ s.ptpState i = 6 ∧ (s.ptp i).annNext ≤ s.free ∧ Safety.admits s (s.ptp i).port (ethOf (s.ptpOut i 0xB (s.ptp i).annSeq s.announceFlags ((s.ptp i).logOf 24 1 (-2)) (s.announceBody i))).len :=
  ⟨0, fs [(Reg.TimePtpStatus.portState 0, 6)] up, by unfold Safety.admits; decide +kernel⟩

theorem wit_PtpCommandsComplete_12_1 : ∃ (i : Fin 4) (s : State), s.held = false ∧ s.ptpState i = 6 ∧ (s.ptp i).syncNext ≤ s.free ∧ Safety.admits s (s.ptp i).port (ethOf (s.ptpOut i 0 ((s.ptp i).syncSeq) ((s.ptp i).cfgF (Reg.TimePtpCfg.twoStep i) * 512) ((s.ptp i).logOf 16 0 (-3)) (List.replicate 10 0))).len :=
  ⟨0, fs [(Reg.TimePtpStatus.portState 0, 6)] up, by unfold Safety.admits; decide +kernel⟩

theorem wit_PtpCommandsComplete_13_1 : ∃ (i : Fin 4) (s : State), s.held = false ∧ 8 ≤ s.ptpState i ∧ (s.ptp i).reqNext ≤ s.free ∧ Safety.admits s (s.ptp i).port (ethOf (s.ptpOut i (if (s.ptp i).p2p then 2 else 1) ((s.ptp i).reqSeq) 0 0x7F (List.replicate (if (s.ptp i).p2p then 20 else 10) 0))).len :=
  ⟨0, fs [(Reg.TimePtpStatus.portState 0, 9)] up, by unfold Safety.admits; decide +kernel⟩

theorem wit_PtpCommandsComplete_14_1 : ∃ (i : Fin 4) (s : State), s.held = false ∧ s.ptpState i = 4 ∧ (s.ptp i).role = 1 ∧ (s.ptp i).foreign = [] ∧ (s.ptp i).lastAnn + 3 * (s.ptp i).annRaw ≤ s.free :=
  ⟨0, fs [(Reg.TimePtpStatus.portState 0, 4)] { { run with ptps := [(0, { cfg := BitVec.ofNat 32 (setBits 0 (Reg.TimePtpCfg.role 0).lo 2 1) })] } with free := 100 * second }, by decide +kernel⟩

theorem wit_PtpCommandsComplete_15_1 : ∃ (i : Fin 4) (s : State), s.held = false ∧ 8 ≤ s.ptpState i ∧ s.axisState i = 2 ∧ (s.ptp i).lastSync + 3 * (s.ptp i).annRaw ≤ s.free :=
  ⟨0, fs [(Reg.TimePtpStatus.portState 0, 9), (Reg.AxisStatus.state 0, 2)] { run with free := 100 * second }, by decide +kernel⟩

theorem wit_PulseCommandsComplete_1_1 : ∃ (s : State), s.held = false ∧ 2 ≤ s.ppsRun ∧ second ≤ (s.free - s.ppsLast) + 65536000 ∧ s.free - s.ppsLast ≤ second + 65536000 ∧ (∀ i < 4, (s.ptp i).todAt = none ∧ s.ptpState i ≠ 6) :=
  ⟨{ run with free := second, ppsRun := 2 }, by decide +kernel⟩

theorem wit_PulseCommandsComplete_2_1 : ∃ (s : State), s.held = false ∧ s.ppsOk = true ∧ s.ppsGood + 2 * second ≤ s.free ∧ (∀ i < 4, s.ptpState i ≠ 6) :=
  ⟨fs [(Reg.TimeStatus.ppsValid, 1)] { run with free := 2 * second }, by decide +kernel⟩

theorem wit_PulseCommandsComplete_3_1 : ∃ (i : Fin 4) (s : State), s.held = false ∧ (s.ptpState i = 6 ∨ s.ptpState i = 7) :=
  ⟨0, fs [(Reg.TimePtpStatus.portState 0, 6), (Reg.TimeStatus.ppsValid, 1)] { run with ppsGood := 0 }, by decide +kernel⟩

theorem wit_PulseCommandsComplete_3_2 : ∃ (i : Fin 4) (s : State), s.held = false ∧ (s.ptpState i = 6 ∨ s.ptpState i = 7) ∧ s.ppsOk = true :=
  ⟨0, fs [(Reg.TimePtpStatus.portState 0, 6), (Reg.TimeStatus.ppsValid, 1)] { run with ppsGood := 0 }, by decide +kernel⟩

theorem wit_PulseCommandsComplete_4_1 : ∃ (i : Fin 4) (p : Bool) (s : State), s.held = false ∧ s.ptpState i ≠ 6 ∧ s.ptpState i ≠ 7 :=
  ⟨0, false, run, by decide +kernel⟩

theorem wit_PulseCommandsComplete_5_1 : ∃ (s : State), s.held = false ∧ s.fget Reg.TimeCtrl.ppsOutSrc = 4 ∧ s.hasPos 17 = true ∧ s.axisPos 17 % second ≤ 524288 ∧ s.ppsOut ≠ some (s.axisPos 17 / second) :=
  ⟨fs [(Reg.TimeCtrl.ppsOutSrc, 4), (Reg.AxisStatus.state 17, 2)] run, by decide +kernel⟩

theorem wit_PulseCommandsComplete_6_1 : ∃ (s : State), s.held = false :=
  ⟨run, by decide +kernel⟩

theorem wit_PulseCommandsComplete_7_1 : ∃ (s : State), s.held = false ∧ s.fbit Reg.TimeCtrl.tenMInEn = true ∧ s.fbit Reg.TimeStatus.tenMLock = false :=
  ⟨fs [(Reg.TimeCtrl.tenMInEn, 1)] run, by decide +kernel⟩

theorem wit_PulseCommandsComplete_8_1 : ∃ (s : State), s.held = false ∧ s.fbit Reg.TimeCtrl.tenMInEn = true :=
  ⟨fs [(Reg.TimeCtrl.tenMInEn, 1)] run, by decide +kernel⟩

theorem wit_CrownCommandsComplete_1_1 : ∃ (k : Trunk) (c : Fin 8) (f : CanvasFrame) (r : List CanvasFrame) (s : State), s.held = false ∧ (s.trunk k).composing.get [] c = f :: r :=
  ⟨.a, 0, {}, [], { run with trunks := [(0, { composing := [(0, [{}])] })] }, by decide +kernel⟩

theorem wit_CrownCommandsComplete_2_1 : ∃ (k : Trunk) (c : Fin 8) (ws : List (Fin 32 × EccRead)) (bs : List HwRead) (f : CanvasFrame) (r : List CanvasFrame) (s : State), s.held = false ∧ (s.trunk k).composing.get [] c = f :: r ∧ s.compareActive = false :=
  ⟨.a, 0, [], [], {}, [], { run with trunks := [(0, { composing := [(0, [{}])] })] }, by decide +kernel⟩

theorem wit_CrownCommandsComplete_3_1 : ∃ (k : Trunk) (mask : BitVec 8) (s : State), s.held = false ∧ s.mirrored k = true ∧ s.fbit (Reg.CrownCommitStatus.busy k) = false ∧ mask ≠ 0 :=
  ⟨.a, 1, fs [(Reg.CmpStatus.stateA, 4)] run, by decide +kernel⟩

theorem wit_CrownCommandsComplete_4_1 : ∃ (k : Trunk) (mask : BitVec 8) (s : State), s.held = false ∧ s.mirrored k = true ∧ s.fbit (Reg.CrownCommitStatus.busy k) = true :=
  ⟨.a, 1, fs [(Reg.CmpStatus.stateA, 4), (Reg.CrownCommitStatus.busy .a, 1)] run, by decide +kernel⟩

theorem wit_CrownCommandsComplete_5_1 : ∃ (k : Trunk) (s : State), s.held = false ∧ s.fbit (Reg.CrownCommitStatus.busy k) = true :=
  ⟨.a, fs [(Reg.CrownCommitStatus.busy .a, 1)] run, by decide +kernel⟩

theorem wit_CrownCommandsComplete_6_1 : ∃ (k : Trunk) (n : Fin 32) (s : State), s.held = false ∧ s.mirrored k = true ∧ (s.layerSt k n).awaiting = true :=
  ⟨.a, 0, fs [(Reg.CmpStatus.stateA, 4)] { run with trunks := [(0, { layers := [(0, { awaiting := true })] })] }, by decide +kernel⟩

theorem wit_CrownCommandsComplete_7_1 : ∃ (rec : Nat) (w : Nat) (h : Nat) (f : InputForm) (data : List Nat) (s : State), s.held = false ∧ ∃ n < s.layerCount, layerSource (s.layerRec n) = rec ∧ s.layerTakes n w h f = true :=
  ⟨0, 16, 16, { rgb := true, sampling := 2, depth := 10 }, [], { run with seed := some { seed0 with layers := [rb 64 [(7, 0x80), (8, 16), (10, 16)]] } }, by decide +kernel⟩

theorem wit_CrownCommandsComplete_7_2 : ∃ (rec : Nat) (w : Nat) (h : Nat) (f : InputForm) (data : List Nat) (s : State), s.held = false ∧ (∀ n < s.layerCount, layerSource (s.layerRec n) = rec → s.layerTakes n w h f = false) :=
  ⟨0, 1, 1, {}, [], run, by decide +kernel⟩

theorem wit_RasterCommandsComplete_1_1 : ∃ (k : Trunk) (g : Fin 8) (s : State), s.held = false ∧ s.mirrored k = true ∧ s.rastRec? k g ≠ none ∧ s.fbit (Reg.RastStatus.busy k g) = false :=
  ⟨.a, 0, fs [(Reg.CmpStatus.stateA, 4)] seeded, by decide +kernel⟩

theorem wit_RasterCommandsComplete_2_1 : ∃ (k : Trunk) (g : Fin 8) (s : State), s.held = false ∧ s.fbit (Reg.RastStatus.busy k g) = true :=
  ⟨.a, 0, fs [(Reg.RastStatus.busy .a 0, 1)] run, by decide +kernel⟩

theorem wit_RasterCommandsComplete_3_1 : ∃ (k : Trunk) (g : Fin 8) (bs : List HwRead) (f : RastFrame) (s : State), s.held = false ∧ s.computes k = true ∧ s.rastActive k g = true ∧ (s.compareActive = false ∨ bs = []) ∧ (s.rastSt k g).cur = some f ∧ s.readDue f (s.rastSt k g).line = true ∧ s.rastReady k f = true ∧ (s.rastSt k g).line + 1 < f.vTotal ∧ (s.rastSt k g).line < f.vStart :=
  ⟨.a, 0, [], { vTotal := 10, vStart := 5, vActive := 2 }, { rasterOn with rasters := [(0, { cur := some { vTotal := 10, vStart := 5, vActive := 2 } })] }, by decide +kernel⟩

theorem wit_RasterCommandsComplete_4_1 : ∃ (k : Trunk) (g : Fin 8) (bs : List HwRead) (f : RastFrame) (s : State), s.held = false ∧ s.computes k = true ∧ s.rastActive k g = true ∧ (s.compareActive = false ∨ bs = []) ∧ (s.rastSt k g).cur = some f ∧ s.readDue f (s.rastSt k g).line = true ∧ s.rastReady k f = true ∧ (s.rastSt k g).line + 1 < f.vTotal ∧ f.vStart ≤ (s.rastSt k g).line ∧ (s.rastSt k g).line < f.vStart + f.vActive :=
  ⟨.a, 0, [], { vTotal := 10, vStart := 5, vActive := 2 }, { rasterOn with rasters := [(0, { cur := some { vTotal := 10, vStart := 5, vActive := 2 }, line := 5 })] }, by decide +kernel⟩

theorem wit_RasterCommandsComplete_5_1 : ∃ (k : Trunk) (g : Fin 8) (tap : Option (List (BitVec 16))) (f : RastFrame) (src : Option Nat) (s : State), s.held = false ∧ s.noTrunk = false ∧ s.padFrame (s.padTrunk k) g = some (f, src) ∧ s.padDue f ((s.rastOut (s.rastKey k g)).line) = true ∧ ((s.rastOut (s.rastKey k g)).line) + 1 < f.vTotal :=
  ⟨.a, 0, none, { vTotal := 10, vStart := 5, vActive := 2 }, none, { rasterOn with rasters := [(0, { cur := some { vTotal := 10, vStart := 5, vActive := 2 } })] }, by decide +kernel⟩

theorem wit_AlarmCommandsComplete_1_1 : ∃ (k : Trunk) (r : HwRead) (s : State), s.held = false ∧ (r.flips = [] ∨ s.hwFailed k r = none) :=
  ⟨.a, { block := 0 }, run, by decide +kernel⟩

theorem wit_AlarmCommandsComplete_3_1 : ∃ (h : StemHdr) (c : Chunk) (s : State), Safety.stemRuns s h c.data.length false ∧ s.stem.chunks.find? 0x40 = none ∧ c.off = 0 ∧ c.data.length < c.objLen :=
  ⟨hdr, { objLen := 2, off := 0, data := [1] }, host, by unfold Safety.stemRuns; decide +kernel⟩

theorem wit_AlarmCommandsComplete_4_1 : ∃ (h : StemHdr) (c : Chunk) (s : State), Safety.stemRuns s h c.data.length false ∧ s.stem.chunks.find? 0x40 = none ∧ c.off = 0 ∧ c.data.length = c.objLen :=
  ⟨hdr, { objLen := 1, off := 0, data := [1] }, host, by unfold Safety.stemRuns; decide +kernel⟩

theorem wit_AlarmCommandsComplete_5_1 : ∃ (a : Nat) (b : Nat) (s : State), s.held = false :=
  ⟨0, 0, run, by decide +kernel⟩

theorem wit_AlarmCommandsComplete_6_1 : ∃ (a : Nat) (b : Nat) (s : State), s.held = false ∧ loopRunNext (s.safe.loopRun.getD 0 (0, 0)) (loopClass a) = (1, 4) ∧ s.fbit Reg.TreeSafeStatus.evaluation = false ∧ s.alarmOn = false :=
  ⟨10000, 10000, { run with safe.loopRun := [(1, 3), (0, 0)] }, by decide +kernel⟩

theorem wit_AlarmCommandsComplete_7_1 : ∃ (k : Trunk) (s : State), s.held = false ∧ s.alarmOn = true ∧ s.computes k = true ∧ (s.trunk k).safePacked = false :=
  ⟨.a, fs [(Reg.TreeSafeStatus.alarm, 1), (Reg.CmpStatus.stateA, 4)] run, by decide +kernel⟩

theorem wit_AlarmCommandsComplete_8_1 : ∃ (s : State), s.held = false ∧ s.rootPacks = true ∧ s.safe.packerNext ≤ s.free :=
  ⟨fs [(Reg.TreeSafeStatus.alarm, 1)] { run with safetySeed := some {} }, by decide +kernel⟩

theorem wit_AlarmCommandsComplete_9_1 : ∃ (s : State), s.held = false ∧ s.alarmOn = true ∧ s.fbit Reg.TreeSafeStatus.evaluation = false :=
  ⟨fs [(Reg.TreeSafeStatus.alarm, 1), (Reg.TreeSafeCtrl.autoRelease, 1)] { run with free := second }, by decide +kernel⟩

theorem wit_AlarmCommandsComplete_9_2 : ∃ (s : State), s.held = false ∧ s.alarmOn = true ∧ s.fbit Reg.TreeSafeStatus.evaluation = false ∧ s.fbit Reg.TreeSafeCtrl.autoRelease = true ∧ s.safe.evalNoSince + second ≤ s.free :=
  ⟨fs [(Reg.TreeSafeStatus.alarm, 1), (Reg.TreeSafeCtrl.autoRelease, 1)] { run with free := second }, by decide +kernel⟩

theorem wit_ThermalCommandsComplete_1_1 : ∃ (b : Int) (x : Int) (y : Int) (z : Int) (s : State), s.held = false ∧ b < 11000 ∧ x < 12500 ∧ y < 12500 ∧ z < 12500 :=
  ⟨10999, 12499, 12499, 12499, run, by decide +kernel⟩

theorem wit_ThermalCommandsComplete_2_1 : ∃ (b : Int) (x : Int) (y : Int) (z : Int) (s : State), s.held = true :=
  ⟨0, 0, 0, 0, State.reset, by decide +kernel⟩

theorem wit_ThermalCommandsComplete_3_1 : ∃ (s : State), s.held = false ∧ s.life.hot = true :=
  ⟨{ run with life.hot := true }, by decide +kernel⟩

theorem wit_ThermalCommandsComplete_4_1 : ∃ (s : State), s.held = false ∧ s.waited s.life.coolSince 10 = true :=
  ⟨{ run with free := 10 * second, life.coolSince := some 0 }, by decide +kernel⟩

theorem wit_ThermalCommandsComplete_5_1 : ∃ (s : State), s.held = false ∧ s.fbit Reg.PsuStatus.trunksOff = true ∧ s.waited s.life.diesCool 60 = true ∧ s.twin.started = true ∧ s.seed = none :=
  ⟨fs [(Reg.PsuStatus.trunksOff, 1)] { run with free := 60 * second, life.diesCool := some 0, twin.started := true }, by decide +kernel⟩

theorem wit_ThermalCommandsComplete_6_1 : ∃ (c : Bool) (s : State), s.held = false :=
  ⟨true, run, by decide +kernel⟩

theorem wit_GroveCommandsComplete_1_1 : ∃ (s : State), s.held = false ∧ s.sd.isGrove = true ∧ s.grove.hbNext ≤ s.free :=
  ⟨groveUp1, by decide +kernel⟩

theorem wit_GroveCommandsComplete_2_1 : ∃ (h : GroveHdr) (al : Bool) (tk : Bool) (id : Nat) (k : Nat) (s : State), s.held = false ∧ s.groveOk h 1 = true ∧ s.fromPartner h = true :=
  ⟨gh 1, false, false, 0, 0, fs [(Reg.CmpGroveStatus.paired, 1)] run, by decide +kernel⟩

theorem wit_GroveCommandsComplete_3_1 : ∃ (h : GroveHdr) (al : Bool) (tk : Bool) (id : Nat) (k : Nat) (s : State), s.held = false ∧ s.groveOk h 1 = true ∧ s.fromPartner h = true :=
  ⟨gh 1, false, false, 0, 0, fs [(Reg.CmpGroveStatus.paired, 1)] run, by decide +kernel⟩

theorem wit_GroveCommandsComplete_4_1 : ∃ (s : State), s.held = false ∧ s.fbit Reg.CmpGroveStatus.paired = true ∧ s.grove.hbLast + 500 * 65536000 ≤ s.free ∧ s.grove.partnerGone = false :=
  ⟨fs [(Reg.CmpGroveStatus.paired, 1), (Reg.CmpStatus.stateA, 4)] { run with free := second, seed := some {} }, by decide +kernel⟩

theorem wit_GroveCommandsComplete_5_1 : ∃ (s : State), s.held = false ∧ s.grove.returning = true ∧ s.grove.returnLeft = 0 ∧ s.grove.backK = none :=
  ⟨{ run with grove.returning := true }, by decide +kernel⟩

theorem wit_GroveCommandsComplete_6_1 : ∃ (h : GroveHdr) (k : Nat) (s : State), s.held = false ∧ s.groveOk h 2 = true ∧ s.fromPartner h = true ∧ s.grove.returning = true ∧ s.grove.backK = some k :=
  ⟨gh 2, 4, fs [(Reg.CmpGroveStatus.paired, 1), (Reg.CmpGroveStatus.takeover, 1)] { run with grove.returning := true, grove.backK := some 4 }, by decide +kernel⟩

theorem wit_GroveCommandsComplete_6_2 : ∃ (h : GroveHdr) (k : Nat) (s : State), s.held = false ∧ s.groveOk h 2 = true ∧ s.fromPartner h = true ∧ s.fbit Reg.CmpGroveStatus.takeover = true ∧ s.grove.hbSeed = ofBe s.sd.seedId :=
  ⟨gh 2, 4, fs [(Reg.CmpGroveStatus.paired, 1), (Reg.CmpGroveStatus.takeover, 1)] { run with grove.returning := true, grove.backK := some 4 }, by decide +kernel⟩

theorem wit_GroveCommandsComplete_7_1 : ∃ (h : GroveHdr) (port : Nat) (len : Nat) (launch : Nat) (off : Nat) (d : List Byte) (s : State), s.held = false ∧ s.groveOk h 3 = true ∧ port < 32 ∧ (s.ethRec? (16 + port)).isSome = true ∧ s.pastLimit { portRec := (s.ethRec? (16 + port)).getD 0, launch := launch, base := portBase (s.ethRec (16 + port)) } = false ∧ State.queueFill (s.port (16 + port)) + (len + 4) ≤ portQueueSize (s.ethRec (16 + port)) :=
  ⟨gh 3, 0, 64, 0, 0, [], seeded, by decide +kernel⟩

theorem wit_GroveCommandsComplete_7_2 : ∃ (h : GroveHdr) (port : Nat) (len : Nat) (launch : Nat) (off : Nat) (d : List Byte) (s : State) (part : _), s.held = false ∧ s.groveOk h 3 = true ∧ port < 32 ∧ (s.ethRec? (16 + port)).isSome = true ∧ s.grove.ringParts = [] ∧ (part = 1 ∨ part = 2) :=
  ⟨gh 3, 0, 64, 0, 0, [], seeded, 1, by decide +kernel⟩

theorem wit_GroveCommandsComplete_8_1 : ∃ (s : State), s.held = false :=
  ⟨run, by decide +kernel⟩

theorem wit_GroveCommandsComplete_9_1 : ∃ (h : GroveHdr) (s : State), s.held = false ∧ (s.groveOk h h.type = false ∨ h.type ∉ [1, 2, 3, 0x10, 0x11, 0x20]) :=
  ⟨{ gh 1 with checkOk := false }, run, by decide +kernel⟩

theorem wit_GraftCommandsComplete_1_1 : ∃ (i : Fin 8) (w : Bool) (leaf : Nat) (off : Nat) (len : Nat) (d : List Byte) (port : Nat) (dest : Nat) (s : State), s.held = false ∧ s.graftRemote i = none ∧ s.graftPath leaf = .leafcast port dest ∧ 1 ≤ len ∧ len ≤ 256 ∧ off + len ≤ 0x40000 ∧ s.bridge.grafts = [] ∧ s.bridge.prefetch = [] ∧ s.bridge.windfalls = [] :=
  ⟨0, false, 0, 0, 4, [], 0, 0x01000001, seeded, by decide +kernel⟩

theorem wit_GraftCommandsComplete_2_1 : ∃ (i : Fin 8) (k : Trunk) (w : Bool) (leaf : Nat) (off : Nat) (len : Nat) (d : List Byte) (s : State), s.held = false ∧ 2 ≤ i.val ∧ s.redundancy = 0 ∧ s.inService .a = true ∧ s.inService .b = true ∧ s.bridge.graftSolo = [] ∧ s.bridge.graftCopies = [] :=
  ⟨2, .a, false, 0, 0, 4, [], fs [(Reg.CmpStatus.stateA, 4), (Reg.CmpStatus.stateB, 3)] run, by decide +kernel⟩

theorem wit_GraftCommandsComplete_3_1 : ∃ (x : GraftTx) (a : GraftAnswer) (s : State), s.held = false ∧ s.bridge.grafts = [x] ∧ x.phase = 1 ∧ x.remote = none ∧ s.graftRdm x.leaf = false ∧ x.replyTo = .init ∧ x.write = true ∧ a.checks = true ∧ a.nack = false :=
  ⟨{ phase := 1, write := true }, {}, { run with bridge.grafts := [{ phase := 1, write := true }] }, by decide +kernel⟩

theorem wit_GraftCommandsComplete_4_1 : ∃ (x : GraftTx) (port : Nat) (dest : Nat) (s : State), s.held = false ∧ s.bridge.grafts = [x] ∧ x.phase = 1 ∧ x.remote = none ∧ x.copies < 3 ∧ x.sentAt + 20 * 1000000 * 65536 ≤ s.free ∧ s.graftPath x.leaf = .leafcast port dest :=
  ⟨{ phase := 1 }, 0, 0x01000001, { { seeded with free := second } with bridge.grafts := [{ phase := 1 }] }, by decide +kernel⟩

theorem wit_GraftCommandsComplete_5_1 : ∃ (x : GraftTx) (s : State), s.held = false ∧ s.bridge.grafts = [x] ∧ x.phase ≠ 0 ∧ x.replyTo = .init ∧ x.issuedAt + s.fget Reg.GraftCtrl.timeoutMs * 1000000 * 65536 ≤ s.free :=
  ⟨{ phase := 1 }, { { run with free := 100 * second } with bridge.grafts := [{ phase := 1 }] }, by decide +kernel⟩

theorem wit_GraftCommandsComplete_6_1 : ∃ (h : GroveHdr) (m : GraftMsg) (x : GraftTx) (s : State), s.held = false ∧ s.groveOk h 0x10 = true ∧ s.bridge.grafts = [x] ∧ x.tag = m.tag ∧ x.remote = some h.src ∧ x.phase = 1 ∧ m.op = 5 :=
  ⟨gh 0x10, { op := 5, tag := 0, leaf := 0, offset := 0, length := 4 }, { phase := 1, remote := some 0 }, { run with bridge.grafts := [{ phase := 1, remote := some 0 }] }, by decide +kernel⟩

theorem wit_GraftCommandsComplete_6_2 : ∃ (h : GroveHdr) (m : GraftMsg) (x : GraftTx) (s : State), s.held = false ∧ s.groveOk h 0x10 = true ∧ s.bridge.grafts = [x] ∧ x.tag = m.tag ∧ x.remote = some h.src ∧ x.phase = 1 ∧ m.op = (if x.write then 4 else 3) :=
  ⟨gh 0x10, { op := 3, tag := 0, leaf := 0, offset := 0, length := 4 }, { phase := 1, remote := some 0 }, { run with bridge.grafts := [{ phase := 1, remote := some 0 }] }, by decide +kernel⟩

theorem wit_GraftCommandsComplete_7_1 : ∃ (h : GroveHdr) (m : GraftMsg) (port : Nat) (dest : Nat) (s : State), s.held = false ∧ s.groveOk h 0x10 = true ∧ s.bridge.grafts = [] ∧ s.bridge.prefetch = [] ∧ s.bridge.windfalls = [] ∧ (m.op = 1 ∨ m.op = 2) ∧ s.graftPath m.leaf = .leafcast port dest ∧ 1 ≤ m.length ∧ m.length ≤ 256 ∧ m.offset + m.length ≤ 0x40000 :=
  ⟨gh 0x10, { op := 1, tag := 0, leaf := 0, offset := 0, length := 4 }, 0, 0x01000001, seeded, by decide +kernel⟩

theorem wit_GraftCommandsComplete_8_1 : ∃ (x : GraftTx) (p : Nat) (s : State), s.held = false ∧ s.bridge.grafts = [x] ∧ x.phase = 2 ∧ x.remote = some p ∧ x.againAt ≤ s.free ∧ x.aborts < s.fget Reg.GraftCtrl.retryMax :=
  ⟨{ phase := 2, remote := some 1 }, 1, fs [(Reg.GraftCtrl.retryMax, 3)] { run with bridge.grafts := [{ phase := 2, remote := some 1 }] }, by decide +kernel⟩

theorem wit_GraftCommandsComplete_9_1 : ∃ (s : State), s.held = false :=
  ⟨run, by decide +kernel⟩

theorem wit_GraftCommandsComplete_10_1 : ∃ (s : State), s.held = false :=
  ⟨run, by decide +kernel⟩

theorem wit_GraftCommandsComplete_11_1 : ∃ (r : Fin 16) (v : Word) (s : State), s.held = false :=
  ⟨0, 0, run, by decide +kernel⟩

theorem wit_GraftCommandsComplete_12_1 : ∃ (h : GroveHdr) (tun : Nat) (brk : Nat) (mab : Nat) (sc : Byte) (port : Fin 16) (l : List Byte) (s : State), s.held = false ∧ s.groveOk h 0x11 = true ∧ s.dmxOutput port = true ∧ sc ≠ 0xCC :=
  ⟨gh 0x11, 0, 100, 20, 0, 0, [1], seeded, by decide +kernel⟩

theorem wit_GraftCommandsComplete_12_2 : ∃ (h : GroveHdr) (tun : Nat) (brk : Nat) (mab : Nat) (sc : Byte) (port : Fin 16) (l : List Byte) (s : State), s.held = false ∧ s.groveOk h 0x11 = true ∧ s.dmxOutput port = true ∧ sc = 0xCC ∧ dmxRdm (s.dmxRec port) = true :=
  ⟨gh 0x11, 0, 100, 20, 0xCC, 0, [1], seeded, by decide +kernel⟩

theorem wit_StemCommandsComplete_1_1 : ∃ (h : StemHdr) (s : State), Safety.stemRuns s h 0 false :=
  ⟨hdr, host, by unfold Safety.stemRuns; decide +kernel⟩

theorem wit_StemCommandsComplete_2_1 : ∃ (h : StemHdr) (op : BitVec 16) (s : State), Safety.stemRuns s h 0 false :=
  ⟨hdr, 0x7777, host, by unfold Safety.stemRuns; decide +kernel⟩

theorem wit_StemCommandsComplete_3_1 : ∃ (h : StemHdr) (m : BitVec 16) (e : BitVec 16) (ms : Nat) (s : State), Safety.stemRuns s h 0 false ∧ s.stem.watches.find? h.chan = none ∧ s.attnWord h.chan &&& m.toNat = e.toNat ∧ ms ≠ 0 ∧ ms ≤ 60000 :=
  ⟨hdr, 0, 0, 5, host, by unfold Safety.stemRuns; decide +kernel⟩

theorem wit_StemCommandsComplete_4_1 : ∃ (h : StemHdr) (m : BitVec 16) (e : BitVec 16) (ms : Nat) (s : State), Safety.stemRuns s h 0 false ∧ s.stem.watches.find? h.chan = none ∧ ms ≤ 60000 ∧ s.attnWord h.chan &&& m.toNat ≠ e.toNat :=
  ⟨hdr, 0, 1, 0, host, by unfold Safety.stemRuns; decide +kernel⟩

theorem wit_StemCommandsComplete_4_2 : ∃ (h : StemHdr) (m : BitVec 16) (e : BitVec 16) (ms : Nat) (s : State), Safety.stemRuns s h 0 false ∧ s.stem.watches.find? h.chan = none ∧ ms ≤ 60000 ∧ s.attnWord h.chan &&& m.toNat = e.toNat ∧ ms = 0 :=
  ⟨hdr, 0, 0, 0, host, by unfold Safety.stemRuns; decide +kernel⟩

theorem wit_StemCommandsComplete_5_1 : ∃ (c : Fin 20) (w : Watch) (s : State), s.held = false ∧ s.stem.watches.find? c = some w ∧ w.deadline ≤ s.free ∧ (∀ f ∈ s.stem.flights, f.chan = c.val → f.tag = w.tag → f.replyErr = false) :=
  ⟨0, { tag := 1, mask := 0, expected := 0, start := 0, deadline := 0 }, { run with stem.watches := [(0, { tag := 1, mask := 0, expected := 0, start := 0, deadline := 0 })] }, by decide +kernel⟩

theorem wit_StemCommandsComplete_6_1 : ∃ (h : StemHdr) (m : BitVec 16) (s : State), Safety.stemRuns s h 0 false :=
  ⟨hdr, 0, host, by unfold Safety.stemRuns; decide +kernel⟩

theorem wit_StemCommandsComplete_7_1 : ∃ (h : StemHdr) (s : State), Safety.stemRuns s h 0 false :=
  ⟨hdr, host, by unfold Safety.stemRuns; decide +kernel⟩

theorem wit_StemCommandsComplete_7_2 : ∃ (h : StemHdr) (s : State) (c : BitVec 16), Safety.stemRuns s h 0 false ∧ c ≠ 0x0416 :=
  ⟨hdr, host, 0x0415, by unfold Safety.stemRuns; decide +kernel⟩

theorem wit_StemCommandsComplete_8_1 : ∃ (r : Fin 16) (s : State), s.held = false ∧ s.fbit (Reg.StemRingCfg.enable r) = false ∧ s.ringCheck r = true :=
  ⟨0, fs [(Reg.StemRingCfg.entries 0, 16)] run, by decide +kernel⟩

theorem wit_StemCommandsComplete_9_1 : ∃ (r : Fin 16) (c : BitVec 16) (err : Bool) (s : State), s.held = false ∧ s.fbit (Reg.StemRingStatus.running r) = true ∧ ((c.toNat + 65536 - s.fget (Reg.StemRingHead.head r)) % 65536) ≤ s.fget (Reg.StemRingCfg.entries r) ∧ (err = false ∨ ((c.toNat + 65536 - s.fget (Reg.StemRingHead.head r)) % 65536) = 0) :=
  ⟨0, 0, true, host, by decide +kernel⟩

theorem wit_StemCommandsComplete_9_2 : ∃ (r : Fin 16) (c : BitVec 16) (err : Bool) (s : State), s.held = false ∧ s.fbit (Reg.StemRingStatus.running r) = true ∧ ((c.toNat + 65536 - s.fget (Reg.StemRingHead.head r)) % 65536) ≤ s.fget (Reg.StemRingCfg.entries r) ∧ err = true ∧ ((c.toNat + 65536 - s.fget (Reg.StemRingHead.head r)) % 65536) ≠ 0 :=
  ⟨0, 1, true, fs [(Reg.StemRingCfg.entries 0, 16)] host, by decide +kernel⟩

theorem wit_StemCommandsComplete_9_3 : ∃ (r : Fin 16) (c : BitVec 16) (err : Bool) (s : State), s.held = false ∧ s.fbit (Reg.StemRingStatus.running r) = true ∧ s.fget (Reg.StemRingCfg.entries r) < ((c.toNat + 65536 - s.fget (Reg.StemRingHead.head r)) % 65536) :=
  ⟨0, 17, false, fs [(Reg.StemRingCfg.entries 0, 16)] host, by decide +kernel⟩

theorem wit_StemCommandsComplete_10_1 : ∃ (h : StemHdr) (s : State), Safety.stemRuns s { h with replyErr := false } 0 false ∧ h.replyErr = true ∧ h.chan.val < 16 ∧ (∀ f ∈ s.stem.flights, f.chan = h.chan.val → f.tag ≠ h.tag) :=
  ⟨{ hdr with replyErr := true }, host, by unfold Safety.stemRuns; decide +kernel⟩

theorem wit_StemCommandsComplete_11_1 : ∃ (h : StemHdr) (a : Nat) (l : List Word) (s : State), Safety.stemRuns s { h with bufferErr := false } (4 * l.length) false ∧ h.bufferErr = true ∧ h.chan.val < 16 ∧ 2 < l.length :=
  ⟨{ hdr with bufferErr := true }, 0, [0, 0, 0], host, by unfold Safety.stemRuns; decide +kernel⟩

theorem wit_StemCommandsComplete_12_1 : ∃ (port : Fin 48) (peer : Nat) (src : Nat) (tag : Nat) (s : State), s.held = false ∧ s.fbit Reg.StemCtrl.udpEn = true ∧ s.fbit Reg.TreeReady.recovery = false ∧ peer ∈ s.stemPeers ∧ (∀ k < 4, (s.stem.sessions.get ({} : Session) k).openS = false) :=
  ⟨0, 1, 2, 3, fs [(Reg.StemCtrl.udpEn, 1)] { run with settingsBody := [6, 0, 0, 0, 20, 0, 0, 0] ++ List.replicate 4 0 ++ leBytes 16 1 ++ List.replicate 4 0 }, by decide +kernel⟩

theorem wit_StemCommandsComplete_13_1 : ∃ (k : Fin 4) (s : State), s.held = false ∧ (s.stem.sessions.get ({} : Session) k).openS = true ∧ (s.stem.sessions.get ({} : Session) k).last + 60 * second ≤ s.free :=
  ⟨0, { run with free := 60 * second, stem.sessions := [(0, { openS := true })] }, by decide +kernel⟩

theorem wit_StemCommandsComplete_14_1 : ∃ (k : Fin 3) (v : Word) (s : State), s.held = false ∧ (v.toNat % 2 ^ 18 * 2 ^ 22 < 0x5000000 ∨ 0x1000000000 ≤ v.toNat % 2 ^ 18 * 2 ^ 22 ∧ v.toNat % 2 ^ 18 * 2 ^ 22 < 0x2100000000) :=
  ⟨0, 0, run, by decide +kernel⟩

theorem wit_RegisterCommandsComplete_1_1 : ∃ (a : Nat) (v : Word) (s : State), s.held = false ∧ Safety.plainRoot a ∧ s.cyc.again.get [] a = [] :=
  ⟨Reg.lifeUpdCtrl, 1, run, by unfold Safety.plainRoot; decide +kernel⟩

theorem wit_RegisterCommandsComplete_2_1 : ∃ (k : Trunk) (off : Nat) (v : Word) (s : State), s.held = false ∧ off < 0x1000000 ∧ Safety.plainTrunk off ∧ s.trunkTakes k = true ∧ s.cyc.again.get [] (trunkBase k + off) = [] :=
  ⟨.a, 0x40000, 1, fs [(Reg.CmpStatus.stateA, 4)] run, by unfold Safety.plainTrunk; decide +kernel⟩

theorem wit_RegisterCommandsComplete_2_2 : ∃ (k : Trunk) (off : Nat) (v : Word) (s : State), s.held = false ∧ off < 0x1000000 ∧ s.trunkTakes k = false :=
  ⟨.a, 0x40000, 1, run, by decide +kernel⟩

theorem wit_RegisterCommandsComplete_3_1 : ∃ (off : Nat) (v : Word) (s : State), s.held = false ∧ Safety.plainTrunk off ∧ s.mirrored .a = true ∧ s.mirrored .b = true ∧ s.noTrunk = false ∧ s.cyc.again.get [] (trunkBase .a + off) = [] ∧ s.cyc.again.get [] (trunkBase .b + off) = [] :=
  ⟨0x40000, 1, fs [(Reg.CmpStatus.stateA, 4), (Reg.CmpStatus.stateB, 3)] run, by unfold Safety.plainTrunk; decide +kernel⟩

theorem wit_RegisterCommandsComplete_4_1 : ∃ (bar : Bool) (addr : Nat) (a : Nat) (ev : Word) (s : State), s.held = false ∧ Safety.names s bar addr a ∧ s.readAddr a = none :=
  ⟨true, 0x400000, 0x1000000, 1, fs [(Reg.StemWin.base 1, 4), (Reg.StemWin.enable 1, 1)] run, by unfold Safety.names; decide +kernel⟩

theorem wit_RegisterCommandsComplete_5_1 : ∃ (addr : Nat) (a : Nat) (ev : Word) (s : State), s.held = false ∧ s.bar0Map addr = some a ∧ 0x4000000 ≤ a :=
  ⟨0x400000, 0x1000000000, 1, fs [(Reg.StemWin.base 1, 0x4000), (Reg.StemWin.enable 1, 1)] run, by decide +kernel⟩

theorem wit_RegisterCommandsComplete_6_1 : ∃ (bar : Bool) (addr : Nat) (a : Nat) (b : Nat) (ev : Word) (r : RegRow) (s : State), s.held = false ∧ Safety.names s bar addr a ∧ s.readAddr a = some b ∧ State.claimAt b = none ∧ isLatched b = false ∧ regRow b = some r :=
  ⟨false, Reg.treeMode, Reg.treeMode, Reg.treeMode, 0, (regRow Reg.treeMode).getD ⟨0, [], []⟩, run, by unfold Safety.names; decide +kernel⟩

theorem wit_RegisterCommandsComplete_7_1 : ∃ (bar : Bool) (addr : Nat) (a : Nat) (b : Nat) (i : Nat) (s : State), s.held = false ∧ Safety.names s bar addr a ∧ s.readAddr a = some b ∧ State.claimAt b = none ∧ i < latchSpan b :=
  ⟨false, Reg.axisEpochCntLo, Reg.axisEpochCntLo, Reg.axisEpochCntLo, 0, run, by unfold Safety.names; decide +kernel⟩

theorem wit_RegisterCommandsComplete_8_1 : ∃ (a : Nat) (v : Word) (s : State), s.held = false ∧ s.schedQ = [(a, v)] ∧ s.cyc.issued < 4 ∧ Safety.plainRoot a ∧ s.cyc.again.get [] a = [] :=
  ⟨Reg.lifeUpdCtrl, 1, { run with schedQ := [(Reg.lifeUpdCtrl, 1)] }, by unfold Safety.plainRoot; decide +kernel⟩

theorem wit_RegisterCommandsComplete_8_2 : ∃ (a : Nat) (v : Word) (s : State), s.held = false ∧ s.cyc.issued = 4 :=
  ⟨0, 1, { run with schedQ := [(Reg.lifeUpdCtrl, 1)], cyc.issued := 4 }, by decide +kernel⟩

theorem wit_RegisterCommandsComplete_9_1 : ∃ (off : Nat) (a : Nat) (v : Word) (s : State), s.held = false ∧ s.bar0Map off = some a ∧ Safety.plainRoot a ∧ s.cyc.again.get [] a = [] :=
  ⟨Reg.lifeUpdCtrl, Reg.lifeUpdCtrl, 1, run, by unfold Safety.plainRoot; decide +kernel⟩

theorem wit_RegisterCommandsComplete_9_2 : ∃ (off : Nat) (a : Nat) (v : Word) (s : State), s.held = false ∧ s.bar0Map off = some a ∧ 0x4000000 ≤ a :=
  ⟨0x400000, 0x1000000000, 1, fs [(Reg.StemWin.base 1, 0x4000), (Reg.StemWin.enable 1, 1)] run, by decide +kernel⟩

theorem wit_RegisterCommandsComplete_10_1 : ∃ (h : StemHdr) (a : Nat) (n : Nat) (s : State), Safety.stemRuns s h n true :=
  ⟨hdr, Reg.treeMode, 4, host, by unfold Safety.stemRuns; decide +kernel⟩

theorem wit_RegisterCommandsComplete_10_2 : ∃ (h : StemHdr) (a : Nat) (n : Nat) (s : State) (b : _), Safety.stemRuns s h n true ∧ n = 4 ∧ s.regCode a n = 0 ∧ a / 0x10000 ≠ 5 ∧ s.readAddr a = some b ∧ State.claimAt b = none :=
  ⟨hdr, Reg.treeMode, 4, host, Reg.treeMode, by unfold Safety.stemRuns; decide +kernel⟩

theorem wit_RegisterCommandsComplete_11_1 : ∃ (h : StemHdr) (a : Nat) (l : List Word) (s : State), Safety.stemRuns s h (4 * l.length) false :=
  ⟨hdr, Reg.lifeUpdCtrl, [1], host, by unfold Safety.stemRuns; decide +kernel⟩

theorem wit_RegisterCommandsComplete_11_2 : ∃ (h : StemHdr) (a : Nat) (l : List Word) (s : State) (v : _), Safety.stemRuns s h (4 * l.length) false ∧ l = [v] ∧ Safety.plainRoot a ∧ s.cyc.again.get [] a = [] :=
  ⟨hdr, Reg.lifeUpdCtrl, [1], host, 1, by unfold Safety.stemRuns Safety.plainRoot; decide +kernel⟩

theorem wit_MemoryCommandsComplete_1_1 : ∃ (h : StemHdr) (a : Nat) (n : Nat) (s : State), Safety.stemRuns s h n true ∧ 1 ≤ n ∧ 0x1000000000 ≤ a ∧ a + n ≤ 0x1800000000 :=
  ⟨hdr, 0x1000000000, 4, host, by unfold Safety.stemRuns; decide +kernel⟩

theorem wit_MemoryCommandsComplete_2_1 : ∃ (h : StemHdr) (k : Trunk) (o : Nat) (d : List Byte) (s : State), Safety.Inv s ∧ Safety.stemRuns s h d.length false ∧ h.twin = false ∧ 1 ≤ d.length ∧ o + d.length ≤ 2 ^ 35 ∧ s.redundancy = 2 ∧ s.compareActive = false ∧ s.trunkTakes k = true :=
  ⟨hdr, .a, 0, [1], fs [(Reg.TreeMode.redundancy, 2), (Reg.CmpStatus.stateA, 4)] host, by unfold Safety.stemRuns; decide +kernel⟩

theorem wit_MemoryCommandsComplete_3_1 : ∃ (h : StemHdr) (o : Nat) (d : List Byte) (s : State), Safety.Inv s ∧ Safety.stemRuns s h d.length false ∧ h.twin = true ∧ 1 ≤ d.length ∧ o + d.length ≤ 2 ^ 35 ∧ s.mirrored .a = true ∧ s.mirrored .b = true :=
  ⟨{ hdr with twin := true }, 0, [1], fs [(Reg.CmpStatus.stateA, 4), (Reg.CmpStatus.stateB, 3)] host, by unfold Safety.stemRuns; decide +kernel⟩

theorem wit_ImageCommandsComplete_1_1 : ∃ (h : StemHdr) (cls : Nat) (c : Chunk) (s : State), Safety.stemRuns s h c.data.length false ∧ cls ≤ 2 ∧ s.stem.chunks.find? 0x100 = none ∧ c.off = 0 ∧ c.data.length < c.objLen :=
  ⟨hdr, 2, { objLen := 2, off := 0, data := [1] }, host, by unfold Safety.stemRuns; decide +kernel⟩

theorem wit_ImageCommandsComplete_2_1 : ∃ (h : StemHdr) (cls : Nat) (c : Chunk) (s : State), Safety.stemRuns s h c.data.length false ∧ cls ≤ 1 ∧ s.stem.chunks.find? 0x100 = none ∧ c.off = 0 ∧ c.data.length = c.objLen ∧ (s.slots cls).lock = false :=
  ⟨hdr, 1, { objLen := 1, off := 0, data := [1] }, host, by unfold Safety.stemRuns; decide +kernel⟩

theorem wit_ImageCommandsComplete_3_1 : ∃ (h : StemHdr) (axis : Nat) (pos : Nat) (d : List Byte) (s : State), Safety.stemRuns s h 0 false ∧ s.inGrove = false ∧ (s.slots 0).lock = true ∧ d.take 16 = (s.slots 0).stagedDig.take 16 :=
  ⟨hdr, 17, 0, [], { host with upd.store := [(0, { lock := true })] }, by unfold Safety.stemRuns; decide +kernel⟩

theorem wit_ImageCommandsComplete_4_1 : ∃ (h : StemHdr) (cls : Nat) (axis : Nat) (pos : Nat) (d : List Byte) (s : State), Safety.stemRuns s h 0 false ∧ s.inGrove = false ∧ (cls = 1 ∨ cls = 2) ∧ (s.slots cls).lock = true ∧ d.take 16 = (s.slots cls).stagedDig.take 16 ∧ s.actCode cls axis pos = 0 :=
  ⟨hdr, 1, 17, 0, [], { host with upd.store := [(1, { lock := true })] }, by unfold Safety.stemRuns; decide +kernel⟩

theorem wit_ImageCommandsComplete_5_1 : ∃ (h : StemHdr) (cls : Nat) (d : List Byte) (s : State), Safety.stemRuns s h 0 false ∧ (cls = 1 ∨ cls = 2) ∧ (s.slots cls).confirmed = false ∧ d.take 16 = (s.slots cls).runDig.take 16 :=
  ⟨hdr, 1, [], { host with upd.store := [(1, { confirmed := false })] }, by unfold Safety.stemRuns; decide +kernel⟩

theorem wit_ImageCommandsComplete_6_1 : ∃ (h : StemHdr) (cls : Nat) (s : State), Safety.stemRuns s h 0 false ∧ cls ≤ 2 ∧ s.upd.armed.find? cls = none :=
  ⟨hdr, 1, host, by unfold Safety.stemRuns; decide +kernel⟩

theorem wit_ImageCommandsComplete_7_1 : ∃ (h : StemHdr) (n : Nat) (s : State), Safety.stemRuns s h n true ∧ s.settingsBody.length ≤ n :=
  ⟨hdr, 64, host, by unfold Safety.stemRuns; decide +kernel⟩

theorem wit_ImageCommandsComplete_8_1 : ∃ (h : StemHdr) (c : Chunk) (s : State), Safety.stemRuns s h c.data.length false ∧ s.stem.chunks.find? 0x111 = none ∧ c.off = 0 ∧ c.data.length = c.objLen :=
  ⟨hdr, { objLen := 1, off := 0, data := [1] }, host, by unfold Safety.stemRuns; decide +kernel⟩

theorem wit_ActivationCommandsComplete_1_1 : ∃ (cls : Nat) (a : Armed) (s : State), s.held = false ∧ s.upd.armed.find? cls = some a ∧ a.prepared = false ∧ s.inGrove = false :=
  ⟨1, {}, { run with upd.armed := [(1, {})] }, by decide +kernel⟩

theorem wit_ActivationCommandsComplete_2_1 : ∃ (a : Armed) (s : State), s.held = false ∧ s.upd.armed.find? 1 = some a ∧ s.actReached 1 a = true ∧ a.prepared = true ∧ s.inGrove = false ∧ a.fallback = false :=
  ⟨{ prepared := true }, fs [(Reg.AxisStatus.state 17, 2)] { run with upd.armed := [(1, { prepared := true })] }, by decide +kernel⟩

theorem wit_ActivationCommandsComplete_3_1 : ∃ (a : Armed) (s : State), s.held = false ∧ s.upd.armed.find? 2 = some a ∧ s.actReached 2 a = true ∧ a.prepared = true ∧ s.inGrove = false ∧ seedDigest (s.nextImage 2 a) = a.digest :=
  ⟨{ prepared := true, digest := seedDigest [] }, fs [(Reg.AxisStatus.state 17, 2)] { run with upd.armed := [(2, { prepared := true, digest := seedDigest [] })] }, by decide +kernel⟩

theorem wit_ActivationCommandsComplete_3_2 : ∃ (a : Armed) (s : State), s.held = false ∧ s.upd.armed.find? 2 = some a ∧ s.actReached 2 a = true ∧ a.prepared = true ∧ s.inGrove = false ∧ seedDigest (s.nextImage 2 a) ≠ a.digest :=
  ⟨{ prepared := true }, fs [(Reg.AxisStatus.state 17, 2)] { run with upd.armed := [(2, { prepared := true })] }, by decide +kernel⟩

theorem wit_ActivationCommandsComplete_4_1 : ∃ (s : State), s.held = false ∧ s.fwSwitch = true ∧ (s.slots 1).confirmed = true ∧ s.upd.fwFormat = s.upd.fwFormatOld ∧ s.settingsReadable = true ∧ s.twin.started = true :=
  ⟨{ run with fwSwitch := true, twin.started := true }, by decide +kernel⟩

theorem wit_ActivationCommandsComplete_5_1 : ∃ (s : State), s.held = false ∧ s.inWindow 1 = true ∧ s.fwHealthy = true :=
  ⟨fs [(Reg.CmpStatus.stateA, 4), (Reg.TreeReady.firmware, 1)] { run with free := 10 * second, upd.store := [(1, { confirmed := false })], upd.confirmEnd := [(1, 20 * second)], upd.trunkUp := [(0, 0)] }, by decide +kernel⟩

theorem wit_ActivationCommandsComplete_6_1 : ∃ (s : State), s.held = false ∧ s.inWindow 2 = true ∧ s.seedHealthy = true ∧ s.upd.healthSent = false ∧ s.inGrove = false :=
  ⟨fs [(Reg.CmpStatus.stateA, 4)] { run with free := 60 * second, seed := some {}, upd.store := [(2, { confirmed := false })], upd.confirmEnd := [(2, 100 * second)] }, by decide +kernel⟩

theorem wit_ActivationCommandsComplete_7_1 : ∃ (e : Nat) (s : State), s.held = false ∧ (s.slots 1).confirmed = false ∧ s.upd.confirmEnd.find? 1 = some e ∧ e ≤ s.free ∧ s.upd.armed.find? 1 = none ∧ s.upd.fellBack.contains 1 = false :=
  ⟨0, { run with upd.store := [(1, { confirmed := false })], upd.confirmEnd := [(1, 0)] }, by decide +kernel⟩

theorem wit_UpdateCommandsComplete_1_1 : ∃ (h : GroveHdr) (m : UpdMsg) (s : State), s.held = false ∧ s.groveOk h 0x20 = true ∧ s.fromMaster h m = true ∧ s.isMaster = false ∧ m.fallback = false ∧ (s.slots m.cls).lock = true ∧ (s.slots m.cls).stagedDig = m.digest ∧ s.actCode m.cls m.axis m.position = 0 :=
  ⟨gh 0x20, { cls := 2, axis := 0 }, { grove1 with upd.store := [(2, { lock := true })] }, by decide +kernel⟩

theorem wit_UpdateCommandsComplete_2_1 : ∃ (h : GroveHdr) (m : UpdMsg) (s : State), s.held = false ∧ s.groveOk h 0x20 = true ∧ s.inGrove = true ∧ s.isMaster = true :=
  ⟨{ gh 0x20 with src := 1 }, { cls := 2 }, { grove0 with upd.armed := [(2, {})] }, by decide +kernel⟩

theorem wit_UpdateCommandsComplete_2_2 : ∃ (h : GroveHdr) (m : UpdMsg) (s : State) (a : Armed), s.held = false ∧ s.groveOk h 0x20 = true ∧ s.inGrove = true ∧ s.isMaster = true ∧ s.upd.armed.find? m.cls = some a ∧ a.digest = m.digest ∧ s.allTrees (h.src :: a.acks) = false :=
  ⟨{ gh 0x20 with src := 1 }, { cls := 2 }, { grove0 with upd.armed := [(2, {})] }, {}, by decide +kernel⟩

theorem wit_UpdateCommandsComplete_3_1 : ∃ (h : GroveHdr) (m : UpdMsg) (a : Armed) (s : State), s.held = false ∧ s.groveOk h 0x20 = true ∧ s.fromMaster h m = true ∧ s.upd.armed.find? m.cls = some a ∧ a.digest = m.digest :=
  ⟨gh 0x20, { cls := 2, axis := 0 }, {}, { grove1 with upd.armed := [(2, {})] }, by decide +kernel⟩

theorem wit_UpdateCommandsComplete_4_1 : ∃ (h : GroveHdr) (m : UpdMsg) (s : State), s.held = false ∧ s.groveOk h 0x20 = true ∧ s.inGrove = true ∧ s.isMaster = true ∧ m.cls = 2 ∧ m.code = 0 ∧ s.allTrees (h.src :: s.upd.groveWell) = false :=
  ⟨{ gh 0x20 with src := 1 }, { cls := 2, axis := 0 }, grove0, by decide +kernel⟩

theorem wit_UpdateCommandsComplete_5_1 : ∃ (h : GroveHdr) (m : UpdMsg) (s : State), s.held = false ∧ s.groveOk h 0x20 = true ∧ s.fromMaster h m = true ∧ m.cls = 2 ∧ (s.slots 2).confirmed = false ∧ m.digest = (s.slots 2).runDig :=
  ⟨gh 0x20, { cls := 2, axis := 0 }, { grove1 with upd.store := [(2, { confirmed := false })] }, by decide +kernel⟩

theorem wit_UpdateCommandsComplete_6_1 : ∃ (cls : Nat) (a : Armed) (s : State), s.held = false ∧ s.upd.armed.find? cls = some a ∧ s.inGrove = true ∧ s.isMaster = true ∧ a.go = false ∧ posRaw a.axis a.pos ≤ s.axisPos a.axis + s.msUnits a.axis 100 :=
  ⟨2, {}, fs [(Reg.AxisStatus.state 17, 2)] { grove0 with upd.armed := [(2, {})] }, by decide +kernel⟩

theorem wit_UpdateCommandsComplete_7_1 : ∃ (cls : Nat) (a : Armed) (s : State), s.held = false ∧ s.upd.armed.find? cls = some a ∧ s.inGrove = true ∧ s.isMaster = false ∧ a.acked = true ∧ a.go = false ∧ posRaw a.axis a.pos ≤ s.axisPos a.axis :=
  ⟨2, { acked := true }, fs [(Reg.AxisStatus.state 17, 2)] { grove1 with upd.armed := [(2, { acked := true })] }, by decide +kernel⟩

theorem wit_UpdateCommandsComplete_8_1 : ∃ (e : Nat) (s : State), s.held = false ∧ s.inGrove = true ∧ (s.slots 2).confirmed = false ∧ s.upd.confirmEnd.find? 2 = some e ∧ e + 10 * second ≤ s.free ∧ s.upd.armed.find? 2 = none ∧ (s.slots 2).prev ≠ [] :=
  ⟨0, { grove1 with free := 10 * second, upd.store := [(2, { confirmed := false, prev := [0] })], upd.confirmEnd := [(2, 0)] }, by decide +kernel⟩

theorem wit_LifeCommandsComplete_1_1 : ∃ (h : StemHdr) (key : List Byte) (s : State), Safety.stemRuns s h key.length false ∧ s.lifeState = 1 ∧ key.length = 32 ∧ s.ownerKey = none :=
  ⟨hdr, List.replicate 32 0, host, by unfold Safety.stemRuns; decide +kernel⟩

theorem wit_LifeCommandsComplete_2_1 : ∃ (h : StemHdr) (p : List Byte) (s : State), Safety.stemRuns s h p.length false ∧ (s.lifeState = 2 ∨ s.lifeState = 3) :=
  ⟨hdr, [], { host with life.fuse := 2 }, by unfold Safety.stemRuns; decide +kernel⟩

theorem wit_LifeCommandsComplete_3_1 : ∃ (h : StemHdr) (p : List Byte) (s : State), Safety.stemRuns s h p.length false ∧ s.lifeState = 2 :=
  ⟨hdr, [], { host with life.fuse := 2 }, by unfold Safety.stemRuns; decide +kernel⟩

theorem wit_LifeCommandsComplete_4_1 : ∃ (h : StemHdr) (p : List Byte) (s : State), Safety.stemRuns s h p.length false ∧ s.lifeState = 3 :=
  ⟨hdr, [], { host with life.fuse := 2, life.service := true }, by unfold Safety.stemRuns; decide +kernel⟩

theorem wit_LifeCommandsComplete_5_1 : ∃ (h : StemHdr) (p : List Byte) (s : State), Safety.stemRuns s h p.length false ∧ (s.lifeState = 0 ∨ s.lifeState = 1) :=
  ⟨hdr, [], host, by unfold Safety.stemRuns; decide +kernel⟩

theorem wit_LifeCommandsComplete_6_1 : ∃ (h : StemHdr) (p : List Byte) (s : State), Safety.stemRuns s h p.length false ∧ (s.lifeState = 2 ∨ s.lifeState = 3) :=
  ⟨hdr, [], { host with life.fuse := 2 }, by unfold Safety.stemRuns; decide +kernel⟩

theorem wit_TestCommandsComplete_1_1 : ∃ (h : StemHdr) (kind : Nat) (trunk : Nat) (index : Nat) (pattern : Nat) (ms : Nat) (s : State), Safety.stemRuns s h 0 false ∧ s.lifeState ≠ 2 ∧ index < ([68, 8, 16, 14] : List Nat).getD kind 0 ∧ trunk ≤ 1 ∧ pattern ≤ 1 ∧ (pattern = 1 → kind = 3) ∧ 1 ≤ ms ∧ ms ≤ 60000 ∧ s.life.bist = none ∧ s.life.bistHeld = [] ∧ s.regionIdle kind trunk index = true :=
  ⟨hdr, 0, 0, 0, 0, 1, host, by unfold Safety.stemRuns; decide +kernel⟩

theorem wit_TestCommandsComplete_2_1 : ∃ (e : Nat) (b : Nat) (y : Nat) (ok : Bool) (r : BistRun) (s : State), s.held = false ∧ s.life.bist = some r ∧ r.endAt ≤ s.free :=
  ⟨0, 0, 0, true, { kind := 0, trunk := 0, index := 0, chan := 0, tag := 5, endAt := 0 }, { run with life.bist := some { kind := 0, trunk := 0, index := 0, chan := 0, tag := 5, endAt := 0 } }, by decide +kernel⟩

theorem wit_TestCommandsComplete_3_1 : ∃ (s : State), s.held = false ∧ s.inService .a = true :=
  ⟨fs [(Reg.CmpStatus.stateA, 4)] run, by decide +kernel⟩

theorem wit_TestCommandsComplete_4_1 : ∃ (s : State), s.held = false ∧ s.inService .b = true :=
  ⟨fs [(Reg.CmpStatus.stateB, 4)] run, by decide +kernel⟩

theorem wit_TestCommandsComplete_5_1 : ∃ (k : Trunk) (n : Nat) (s : State), s.held = false :=
  ⟨.a, 1, run, by decide +kernel⟩

theorem wit_TestCommandsComplete_6_1 : ∃ (k : Trunk) (a : Nat) (s : State), s.held = false ∧ s.life.laneErrAt.find? k.idx = some a ∧ a + 60 * second ≤ s.free :=
  ⟨.a, 0, { run with free := 60 * second, life.laneErrAt := [(0, 0)] }, by decide +kernel⟩

theorem wit_TestCommandsComplete_7_1 : ∃ (h : StemHdr) (item : Nat) (index : Nat) (skew : Int) (s : State), Safety.stemRuns s h 0 false ∧ (s.lifeState = 2 ∨ s.lifeState = 3) ∧ (item = 0 ∧ index = 0 ∨ item = 1 ∧ (index < 58 ∨ 64 ≤ index ∧ index < 72) ∨ item = 2 ∧ index < 64) ∧ s.life.cals = [] ∧ s.fbit Reg.TimeStatus.tenMLock = true ∧ s.fbit Reg.TimeStatus.ppsValid = true :=
  ⟨hdr, 0, 0, 0, fs [(Reg.TimeStatus.tenMLock, 1), (Reg.TimeStatus.ppsValid, 1)] { host with life.fuse := 2 }, by unfold Safety.stemRuns; decide +kernel⟩

theorem wit_TestCommandsComplete_8_1 : ∃ (x : Int) (y : Int) (n : Nat) (c : CalRun) (r : List CalRun) (s : State), s.held = false ∧ s.life.cals = c :: r ∧ c.n + 1 ≠ 1024 ∧ c.n + 1 ≠ 1280 :=
  ⟨0, 0, 0, { item := 0, index := 0, skew := 0, chan := 0, tag := 5, start := 0 }, [], { run with life.cals := [{ item := 0, index := 0, skew := 0, chan := 0, tag := 5, start := 0 }] }, by decide +kernel⟩

theorem wit_TestCommandsComplete_9_1 : ∃ (x : Int) (y : Int) (n : Nat) (c : CalRun) (r : List CalRun) (s : State), s.held = false ∧ s.life.cals = c :: r ∧ c.item = 0 ∧ c.n + 1 = 1024 :=
  ⟨0, 0, 0, { item := 0, index := 0, skew := 0, chan := 0, tag := 5, start := 0, n := 1023 }, [], { run with life.cals := [{ item := 0, index := 0, skew := 0, chan := 0, tag := 5, start := 0, n := 1023 }] }, by decide +kernel⟩

theorem wit_TestCommandsComplete_10_1 : ∃ (c : CalRun) (s : State), s.held = false ∧ s.life.cals = [c] ∧ c.start + 60 * second ≤ s.free :=
  ⟨{ item := 0, index := 0, skew := 0, chan := 0, tag := 5, start := 0 }, { run with free := 60 * second, life.cals := [{ item := 0, index := 0, skew := 0, chan := 0, tag := 5, start := 0 }] }, by decide +kernel⟩

theorem wit_PowerCommandsComplete_1_1 : ∃ (s : State), s.padPwrGood = false ∧ s.life.tooHot = false ∧ s.life.resetLow = false :=
  ⟨State.reset, by decide +kernel⟩

theorem wit_PowerCommandsComplete_2_1 : ∃ (s : State), s.padPwrGood = true :=
  ⟨{ run with padPwrGood := true }, by decide +kernel⟩

theorem wit_PowerCommandsComplete_3_1 : ∃ (ns : Nat) (s : State), 1000 ≤ ns ∧ s.life.resetLow = false ∧ s.padPwrGood = true :=
  ⟨1000, { run with padPwrGood := true }, by decide +kernel⟩

theorem wit_PowerCommandsComplete_4_1 : ∃ (s : State), s.life.resetLow = true ∧ s.padPwrGood = true :=
  ⟨{ State.reset with padPwrGood := true, life.resetLow := true }, by decide +kernel⟩

theorem wit_PowerCommandsComplete_5_1 : ∃ (s : State), s.held = false ∧ s.fbit Reg.TreeReady.rootRom = true ∧ s.fbit Reg.TreeReady.firmware = false ∧ s.fwSwitch = false ∧ s.settingsReadable = true :=
  ⟨fs [(Reg.TreeReady.rootRom, 1)] run, by decide +kernel⟩

theorem wit_PowerCommandsComplete_6_1 : ∃ (k : Trunk) (s : State), s.held = false ∧ s.seed.isSome = true ∧ s.fbit Reg.TreeReady.firmware = true ∧ s.twin.loaded.contains k.idx = false :=
  ⟨.a, fs [(Reg.TreeReady.firmware, 1)] { run with seed := some {} }, by decide +kernel⟩

theorem wit_PowerCommandsComplete_7_1 : ∃ (us : Nat) (ov : Bool) (s : State), s.held = false ∧ us < 20000 :=
  ⟨0, false, run, by decide +kernel⟩

theorem wit_PowerCommandsComplete_8_1 : ∃ (s : State), s.held = false :=
  ⟨run, by decide +kernel⟩

theorem wit_PowerCommandsComplete_9_1 : ∃ (us : Nat) (s : State), s.held = false ∧ 10000 ≤ us ∧ s.life.auxOffAt = none :=
  ⟨10000, run, by decide +kernel⟩

theorem wit_PowerCommandsComplete_10_1 : ∃ (a : Nat) (s : State), s.held = false ∧ s.life.auxOffAt = some a ∧ a + second ≤ s.free :=
  ⟨0, { run with free := second, life.auxOffAt := some 0 }, by decide +kernel⟩

theorem wit_RecordCommandsComplete_1_1 : ∃ (e : Event) (r : List Event) (s : State), s.held = false ∧ s.events = e :: r ∧ s.fbit Reg.TreeReady.record = true ∧ s.fget Reg.RecStatus.frozen = 0 ∧ s.fbit Reg.RecStatus.openF = false ∧ State.triggers e = false :=
  ⟨{ code := 0 }, [], fs [(Reg.TreeReady.record, 1)] { run with events := [{ code := 0 }] }, by decide +kernel⟩

theorem wit_RecordCommandsComplete_2_1 : ∃ (s : State), s.held = false ∧ s.events.length < 4096 :=
  ⟨run, by decide +kernel⟩

theorem wit_RecordCommandsComplete_3_1 : ∃ (k : Fin 4) (s : State), s.held = false ∧ s.slotFrozen k = true :=
  ⟨0, fs [(Reg.RecStatus.frozen, 1)] run, by decide +kernel⟩

theorem wit_EpochCommandsComplete_1_1 : ∃ (k : Nat) (s : State), s.held = false ∧ s.seed.isSome = true ∧ s.twin.loaded ≠ [] ∧ s.pointDue 99 s.sd.epochCadence = some k :=
  ⟨0, ep, by decide +kernel⟩

theorem wit_EpochCommandsComplete_2_1 : ∃ (c : Fin 8) (k : Nat) (s : State), s.held = false ∧ s.seed.isSome = true ∧ s.twin.loaded ≠ [] ∧ c.val < s.canvasCount ∧ s.pointDue (State.epochKey (.canvas c)) (s.cadenceOf (State.epochKey (.canvas c))) = some k :=
  ⟨0, 0, ep, by decide +kernel⟩

theorem wit_EpochCommandsComplete_3_1 : ∃ (p : Nat) (k : Nat) (s : State), s.held = false ∧ s.seed.isSome = true ∧ s.twin.loaded ≠ [] ∧ s.portIdxs.contains p = true ∧ portCadence (s.portRec p) ≠ 0xFF ∧ s.pointDue (State.epochKey (.port p)) (s.cadenceOf (State.epochKey (.port p))) = some k :=
  ⟨0, 0, ep, by decide +kernel⟩

theorem wit_EpochCommandsComplete_4_1 : ∃ (x : Trunk) (g : Fin 8) (k : Nat) (s : State), s.held = false ∧ s.seed.isSome = true ∧ s.twin.loaded ≠ [] ∧ s.rastActive x g = true ∧ s.pointDue (State.epochKey (.raster x g)) (s.cadenceOf (State.epochKey (.raster x g))) = some k :=
  ⟨.a, 0, 0, { rasterOn with twin.loaded := [0] }, by decide +kernel⟩

theorem wit_EpochCommandsComplete_5_1 : ∃ (k : Trunk) (slot : Fin 4096) (f : Bool) (w : Work) (s : State), s.held = false ∧ ((s.sched k).task slot).state = 3 :=
  ⟨.a, 0, true, .none, { run with scheds := [(0, { tasks := [(0, { state := 3 })] })] }, by decide +kernel⟩

theorem wit_EpochCommandsComplete_5_2 : ∃ (k : Trunk) (slot : Fin 4096) (f : Bool) (w : Work) (s : State) (leaf : _) (c : _), s.held = false ∧ ((s.sched k).task slot).state = 3 ∧ w = .residue leaf c ∧ laneOk c.op c.got = false :=
  ⟨.a, 0, true, .residue 0 { place := ⟨0, 0, 0, 0⟩, op := .add ⟨1, 1⟩ ⟨1, 1⟩, got := ⟨2, 0, 3⟩ }, { run with scheds := [(0, { tasks := [(0, { state := 3 })] })] }, 0, { place := ⟨0, 0, 0, 0⟩, op := .add ⟨1, 1⟩ ⟨1, 1⟩, got := ⟨2, 0, 3⟩ }, by decide +kernel⟩

theorem wit_EpochCommandsComplete_5_3 : ∃ (k : Trunk) (slot : Fin 4096) (f : Bool) (w : Work) (s : State) (leaf : _) (e : _) (j : _) (j2 : _) (fs : _), s.held = false ∧ ((s.sched k).task slot).state = 3 ∧ w = .leaf leaf ∧ (s.trunk k).epochs = [e] ∧ e.jobs = [j, j2] ∧ j.leaf = leaf ∧ j.codes = none ∧ j.rerun = false ∧ j2.leaf ≠ leaf ∧ j2.codes = none ∧ s.viewFrames k e j = some fs :=
  ⟨.a, 0, true, .leaf 0, { run with trunks := [(0, { epochs := [{ jobs := [{ leaf := 0 }, { leaf := 1 }] }] })], scheds := [(0, { tasks := [(0, { state := 3 })] })] }, 0, { jobs := [{ leaf := 0 }, { leaf := 1 }] }, { leaf := 0 }, { leaf := 1 }, [none], by decide +kernel⟩

theorem wit_EpochCommandsComplete_6_1 : ∃ (k : Trunk) (leaf : Nat) (e : PortJob) (j : Job) (j2 : Job) (fs : List (Option CanvasFrame)) (s : State), s.held = false ∧ (s.trunk k).epochs = [e] ∧ e.jobs = [j, j2] ∧ j.leaf = leaf ∧ j.codes = none ∧ j.rerun = true ∧ j2.leaf ≠ leaf ∧ j2.codes = none ∧ s.viewFrames k e j = some fs :=
  ⟨.a, 0, { jobs := [{ leaf := 0, rerun := true }, { leaf := 1 }] }, { leaf := 0, rerun := true }, { leaf := 1 }, [none], { run with trunks := [(0, { epochs := [{ jobs := [{ leaf := 0, rerun := true }, { leaf := 1 }] }] })] }, by decide +kernel⟩

theorem wit_EpochCommandsComplete_6_2 : ∃ (k : Trunk) (leaf : Nat) (e : PortJob) (j : Job) (j2 : Job) (fs : List (Option CanvasFrame)) (s : State) (c : LaneCheck), s.held = false ∧ (s.trunk k).epochs = [e] ∧ e.jobs = [j, j2] ∧ j.leaf = leaf ∧ j.codes = none ∧ j.rerun = true ∧ j2.leaf ≠ leaf ∧ j2.codes = none ∧ laneOk c.op c.got = false ∧ s.compareActive = false :=
  ⟨.a, 0, { jobs := [{ leaf := 0, rerun := true }, { leaf := 1 }] }, { leaf := 0, rerun := true }, { leaf := 1 }, [none], { run with trunks := [(0, { epochs := [{ jobs := [{ leaf := 0, rerun := true }, { leaf := 1 }] }] })] }, { place := ⟨0, 0, 0, 0⟩, op := .add ⟨1, 1⟩ ⟨1, 1⟩, got := ⟨2, 0, 3⟩ }, by decide +kernel⟩

theorem wit_EpochCommandsComplete_7_1 : ∃ (f : List Byte) (s : State), s.held = false ∧ f.length < 36 :=
  ⟨[], run, by decide +kernel⟩

theorem wit_EpochCommandsComplete_8_1 : ∃ (f : List Byte) (i : Nat) (s : State), s.held = false ∧ 36 ≤ f.length ∧ ofBe (f.drop (f.length - 4)) = crc32c (beBytes 4 (ofBe (slice f 0x14 3)) ++ f.take (f.length - 4)) ∧ u8 f 0 = 0x12 ∧ u8 f 0x17 = 0x10 ∧ f.length = 32 + 16 + (ofBe (slice f 0x18 2) + 3) / 4 + 4 ∧ s.returnLeaf (ofBe (slice f 2 2)) (ofBe (slice f 0x14 3)) = some i :=
  ⟨retFrame, 0, seeded, by decide +kernel⟩

theorem wit_ReservedEncodingKeepsField_1_1 : ∃ (a : Nat) (w : Nat) (v : Nat) (r : RegRow) (f : Fld), w < 2 ^ 32 ∧ v < 2 ^ 32 ∧ regRow a = some r ∧ f ∈ r.flds ∧ (f.acc = .rw ∨ f.acc = .rws) :=
  ⟨Reg.sapCtrl 0, 0, 1, (regRow (Reg.sapCtrl 0)).getD ⟨0, [], []⟩, (((regRow (Reg.sapCtrl 0)).getD ⟨0, [], []⟩).flds.find? (fun f => f.acc == .rw || f.acc == .rws)).getD ⟨0, 0, .ro, 0, []⟩, by decide +kernel⟩

theorem wit_ReservedEncodingKeepsField_2_1 : ∃ (a : Nat) (v : Nat) (r : RegRow) (s : State), v < 2 ^ 32 ∧ regRow a = some r :=
  ⟨Reg.sapCtrl 0, 1, (regRow (Reg.sapCtrl 0)).getD ⟨0, [], []⟩, run, by decide +kernel⟩

theorem wit_UnoccupiedAddress_1_1 : ∃ (a : Nat) (v : Word) (ev : Word) (s : State), s.held = false ∧ a < 0x3000000 ∧ regRow a = none :=
  ⟨0x2FFFFFC, 0, 1, run, by decide +kernel⟩

theorem wit_ScalerCoefficientsSum_1_1 : ∃ (t : Nat) (phase : Nat), 2 ≤ t ∧ t ≤ 8 ∧ phase < 64 :=
  ⟨2, 63, by decide +kernel⟩

theorem wit_ScalerCoefficientsSum_2_1 : ∃ (k : Trunk) (t : Nat) (phase : Nat) (w : Nat) (s : State), s.trunkClosed k = false ∧ 2 ≤ t ∧ t ≤ 8 ∧ phase < 64 ∧ w < 4 :=
  ⟨.a, 8, 63, 3, fs [(Reg.CmpStatus.stateA, 4)] run, by decide +kernel⟩

theorem wit_GraftInitiatorTree_1_1 : ∃ (i : Fin 8) (w : Bool) (leaf : Nat) (off : Nat) (len : Nat) (d : List Byte) (s : State) (port : _) (dest : _), s.held = false ∧ 1 ≤ len ∧ len ≤ 256 ∧ off + len ≤ 0x40000 ∧ s.bridge.grafts = [] ∧ s.bridge.prefetch = [] ∧ s.bridge.windfalls = [] ∧ (s.fbit (Reg.GraftSel.remote i) = false ∨ s.fget (Reg.GraftSel.position i) = s.grovePos) ∧ s.graftPath leaf = .leafcast port dest :=
  ⟨0, false, 0, 0, 256, [], grove1, 0, 0x01000001, by decide +kernel⟩

theorem wit_EventQueue_1_1 : ∃ (e : Event) (s : State), s.events.length < 4096 :=
  ⟨{ code := 0 }, run, by decide +kernel⟩

theorem wit_EventQueue_2_1 : ∃ (e : Event) (s : State), 4096 ≤ s.events.length :=
  ⟨{ code := 0 }, { run with events := List.replicate 4096 { code := 0 } }, by decide +kernel⟩

/-! ### Witnesses by hand -/

theorem wit_StepKeepsMemoryCanonical : ∃ s t : State, Safety.Inv s ∧ step s = .next t :=
  ⟨{ run with pending := [.ocxoReady] }, _, by decide +kernel, rfl⟩

theorem wit_HeldModuleIgnores : ∃ (c : Instr) (s : State), s.held = true ∧ c ≠ .pwrGoodRise ∧ c ≠ .pwrGoodFall ∧
    (∀ ns, c ≠ .resetNAssert ns) ∧ c ≠ .resetNRelease ∧ ∀ b x y z, c ≠ .thermalSample b x y z :=
  by
  refine ⟨.ocxoReady, State.reset, rfl, by decide, by decide, ?_, by decide, ?_⟩
  · intro _ h; cases h
  · intro _ _ _ _ h; cases h

theorem wit_FrameMemoryAndClock : ∃ (c : Instr) (s t : State), exec c s = .next t ∧ Safety.Part.mem ∉ Safety.touches c ∧
    Safety.Part.clock ∉ Safety.touches c := ⟨.ocxoReady, run, _, rfl, by decide, by decide⟩

theorem wit_FrameAxesAndTime : ∃ (c : Instr) (s t : State) (p : Safety.Part), exec c s = .next t ∧
    p ∈ [Safety.Part.axes, .cadence, .ptp] ∧ p ∉ Safety.touches c := ⟨.ocxoReady, run, _, .axes, rfl, by decide, by decide⟩

theorem wit_FrameComputation : ∃ (c : Instr) (s t : State) (p : Safety.Part), exec c s = .next t ∧
    p ∈ [Safety.Part.scheds, .guests, .icus, .qbs, .chk, .ecc] ∧ p ∉ Safety.touches c := ⟨.ocxoReady, run, _, .icus, rfl, by decide, by decide⟩

theorem wit_FramePictures : ∃ (c : Instr) (s t : State) (p : Safety.Part), exec c s = .next t ∧
    p ∈ [Safety.Part.trunks, .rasters, .rasterOut, .shadow, .rels, .capture, .inputs, .heartwood] ∧ p ∉ Safety.touches c :=
  ⟨.ocxoReady, run, _, .trunks, rfl, by decide, by decide⟩

theorem wit_FrameLines : ∃ (c : Instr) (s t : State) (p : Safety.Part), exec c s = .next t ∧
    p ∈ [Safety.Part.leaves, .nodes, .ports, .switch, .dmx, .saps, .e131] ∧ p ∉ Safety.touches c :=
  ⟨.ocxoReady, run, _, .ports, rfl, by decide, by decide⟩

theorem wit_FrameTwinAndGrove : ∃ (c : Instr) (s t : State) (p : Safety.Part), exec c s = .next t ∧
    p ∈ [Safety.Part.twin, .bridge, .grove, .safe] ∧ p ∉ Safety.touches c := ⟨.ocxoReady, run, _, .twin, rfl, by decide, by decide⟩

theorem wit_FrameHost : ∃ (c : Instr) (s t : State) (p : Safety.Part), exec c s = .next t ∧
    p ∈ [Safety.Part.stem, .upd, .life, .record, .seed, .pads, .bus, .tags, .sent, .draws] ∧ p ∉ Safety.touches c :=
  ⟨.axisSnap 0, run, _, .stem, rfl, by decide, by decide⟩

theorem wit_FrameRegisters_1 : ∃ (c : Instr) (s t : State), exec c s = .next t ∧ Safety.Part.regs ∉ Safety.touches c :=
  ⟨.layerReady .a 0, run, _, rfl, by decide⟩

theorem wit_FrameRegisters_2 : ∃ (c : Instr) (s t : State) (l : List Nat) (a : Nat), exec c s = .next t ∧ Safety.regBlocks c = some l ∧
    Safety.blockOf a ∉ l := ⟨.axisSnap 0, run, _, _, 0, rfl, rfl, by decide⟩

/-- The instance is open, so each of the four has a position. -/
theorem wit_AxisReferencesComplete_5_1 : ∃ (slot : Fin 2) (rtp : Word) (s : State), s.held = false ∧ (s.axisState 13 = 1 ∨ s.axisState 13 = 2) ∧
    s.sd.axisSource 13 = 0x50 + slot.val ∧ s.hasPos (State.aesInstance slot) = true := by
  refine ⟨0, 0, fs [(Reg.AxisStatus.state 13, 1), (Reg.AxisStatus.state 0, 2), (Reg.AxisStatus.state 1, 2), (Reg.AxisStatus.state 2, 2),
    (Reg.AxisStatus.state 3, 2)] seeded, by decide +kernel, by decide +kernel, by decide +kernel, ?_⟩
  have h : State.aesInstance ((0 : Fin 2) : Nat) < 4 := Nat.mod_lt _ (by decide)
  generalize State.aesInstance ((0 : Fin 2) : Nat) = x at h
  match x, h with
  | 0, _ => decide +kernel
  | 1, _ => decide +kernel
  | 2, _ => decide +kernel
  | 3, _ => decide +kernel

theorem wit_AlarmEvaluation_1 : ∃ (x y : Nat) (s t : State), s.held = false ∧ exec (.safetyLoopSample x y) s = .next t :=
  ⟨0, 0, run, _, rfl, rfl⟩

theorem wit_HealthPad_2 : ∃ (k : Trunk) (n : Nat) (s t : State), s.held = false ∧ exec (.onlineLaneError k n) s = .next t :=
  ⟨.a, 1, run, _, rfl, rfl⟩

theorem wit_HealthPad_3 : ∃ (k : Trunk) (a : Nat) (s t : State), s.held = false ∧ s.life.laneErrAt.find? k.idx = some a ∧
    a + 60 * second ≤ s.free ∧ exec (.laneErrorWindowExpiry k) s = .next t :=
  ⟨.a, 0, { run with free := 60 * second, life.laneErrAt := [(0, 0)] }, _, rfl, rfl, by decide, rfl⟩

/-- Two units whose check values differ, and the votes of a unit. -/
def uA : CUnit := { code := 0, seq := 0, out := {} }
def uB : CUnit := { code := 0, seq := 1, out := {} }
def votes (u : ArbUnit) (x : BitVec 64) : Nat :=
  ([u.copyA.map CUnit.crc, u.copyB.map CUnit.crc, u.voteA.join, u.voteB.join].filter (· == some x)).length

theorem wit_ArbitrationOutcomes_1 : ∃ (u : ArbUnit) (x : BitVec 64), 3 ≤ votes u x :=
  ⟨{ code := 0, seq := 0, copyA := some uA, copyB := some uA, voteA := some (some uA.crc) }, uA.crc, by decide +kernel⟩

theorem wit_ArbitrationOutcomes_2 : ∃ u : ArbUnit, (∀ x, ¬ 3 ≤ votes u x) ∧ u.copyA.isSome = true ∧ u.copyB.isSome = true ∧
    u.copyA.map CUnit.crc = u.voteA.join ∧ u.copyB.map CUnit.crc = u.voteB.join := by
  refine ⟨{ code := 0, seq := 0, copyA := some uA, copyB := some uB, voteA := some (some uA.crc), voteB := some (some uB.crc) }, ?_, rfl, rfl, rfl, rfl⟩
  have hne : uA.crc ≠ uB.crc := by decide +kernel
  intro x
  by_cases h1 : uA.crc = x <;> by_cases h2 : uB.crc = x <;> simp [votes, h1, h2]
  exact hne (h1.trans h2.symm)

theorem wit_ArbitrationOutcomes_3 : ∃ u : ArbUnit, (∀ x, ¬ 3 ≤ votes u x) ∧ u.copyA.isSome = true ∧ u.copyA.map CUnit.crc = u.voteA.join ∧
    ¬ (u.copyB.isSome = true ∧ u.copyB.map CUnit.crc = u.voteB.join) := by
  refine ⟨{ code := 0, seq := 0, copyA := some uA, voteA := some (some uA.crc) }, ?_, rfl, rfl, by decide⟩
  intro x
  by_cases h1 : uA.crc = x <;> simp [votes, h1]

theorem wit_ArbitrationOutcomes_4 : ∃ u : ArbUnit, (∀ x, ¬ 3 ≤ votes u x) ∧ u.copyB.isSome = true ∧ u.copyB.map CUnit.crc = u.voteB.join ∧
    ¬ (u.copyA.isSome = true ∧ u.copyA.map CUnit.crc = u.voteA.join) := by
  refine ⟨{ code := 0, seq := 0, copyB := some uB, voteB := some (some uB.crc) }, ?_, rfl, rfl, by decide⟩
  intro x
  by_cases h1 : uB.crc = x <;> simp [votes, h1]

theorem wit_ArbitrationOutcomes_5 : ∃ u : ArbUnit, (∀ x, ¬ 3 ≤ votes u x) ∧ ¬ (u.copyA.isSome = true ∧ u.copyA.map CUnit.crc = u.voteA.join) ∧
    ¬ (u.copyB.isSome = true ∧ u.copyB.map CUnit.crc = u.voteB.join) :=
  ⟨{ code := 0, seq := 0 }, fun x => by simp [votes], by decide, by decide⟩

theorem wit_ClaimRecord_1 : ∃ (k : Trunk) (c : Fin 8) (s : State), s.held = false ∧ (∀ j < 1024, s.lateMasked k c j = false) ∧
    ∀ j < 1024, s.deliverable k c j = false := ⟨.a, 0, run, by decide +kernel⟩

theorem wit_ClaimRecord_2 : ∃ (k : Trunk) (c : Fin 8) (s : State) (i : Nat), s.held = false ∧ (∀ j < 1024, s.lateMasked k c j = false) ∧
    i < 1024 ∧ s.deliverable k c i = true ∧ ∀ j < i, s.deliverable k c j = false :=
  ⟨.a, 0, rs [(Reg.icuPendSet .a 0, 2), (Reg.icuMaskSet .a 0, 0xFFFFFFFD)] run, 1, by decide +kernel⟩

theorem wit_SpareRoleMoves_1 : ∃ s : State, (s.capture.epoch % 4096 = 0 ∨ s.twin.sparePend = true) ∧ s.fbit Reg.CmpStatus.arbBusy = false :=
  ⟨run, by decide +kernel⟩

theorem wit_SpareRoleMoves_2 : ∃ s : State, (s.capture.epoch % 4096 = 0 ∨ s.twin.sparePend = true) ∧ s.fbit Reg.CmpStatus.arbBusy = true :=
  ⟨fs [(Reg.CmpStatus.arbBusy, 1)] run, by decide +kernel⟩

theorem wit_SpareRoleMoves_3 : ∃ s : State, s.capture.epoch % 4096 ≠ 0 ∧ s.twin.sparePend = false :=
  ⟨{ run with capture := { epoch := 1 } }, by decide +kernel⟩

theorem wit_GraftInitiatorTree_1_2 : ∃ (i : Fin 8) (s : State), s.held = false ∧ s.bridge.grafts = [] ∧ s.bridge.prefetch = [] ∧
    s.bridge.windfalls = [] ∧ s.fbit (Reg.GraftSel.remote i) = true ∧ s.fget (Reg.GraftSel.position i) ≠ s.grovePos ∧ s.sd.isGrove = true ∧
    s.sd.groveRec (s.fget (Reg.GraftSel.position i)) ≠ [] :=
  ⟨0, fs [(Reg.GraftSel.remote 0, 1)] grove1, by decide +kernel⟩


/-- A read of an array's word whose check bit 0 has changed since it was written. -/
def flip64 : EccRead := { memory := 1, unit := 0, addr := 0, wrote := 0, flips := BitVec.ofNat 72 (2 ^ 64) }

theorem wit_CheckCommandsComplete_5_1 : ∃ (e : Option Trunk) (x : EccRead) (b : Nat) (s : State), s.held = false ∧
    s.regN (State.eccBase e + 0x14) / 2 ^ 31 ≠ 0 ∧ s.eccRead x = .corrected b :=
  ⟨none, flip64, 64, rs [(State.eccBase none + 0x14, 0x80000000)] run, by decide +kernel, by decide +kernel,
    State.eccRead_checkBit _ flip64 0 (by decide) rfl (by decide)⟩

theorem wit_AlarmCommandsComplete_2_1 : ∃ (k : Trunk) (r : HwRead) (p : Nat × Nat × Nat) (s : State), s.held = false ∧ s.mirrored k = true ∧
    s.hwFailed k r = some p ∧ s.compareActive = false :=
  ⟨.a, { block := 0, flips := [32768] }, (0, 0, 0), fs [(Reg.CmpStatus.stateA, 4)] seeded, by decide +kernel, by decide +kernel,
    State.hwFailed_checkBit _ _ 0 32768 _ (by decide) (by decide +kernel), by decide +kernel⟩

end Sys2Proof.Tests
end

section
/-! PROOFS. The spare role (R8, R9), temperatures and module faults (R21, R326, R470, R473, R474). -/

namespace Sys2Proof.Machine

/-! ### The spare role -/

/-- R9: no move is due. -/
theorem State.moveSpare_notDue (s : State) (he : s.capture.epoch % 4096 ≠ 0) (hp : s.twin.sparePend = false) : s.moveSpare = s := by
  unfold State.moveSpare
  rw [if_pos ⟨he, by simp [hp]⟩]

/-- R8, R9: a move that is due waits for the end of an arbitration, and goes to the next bough in both trunks where there is none. -/
theorem State.moveSpare_due (s : State) (hd : s.capture.epoch % 4096 = 0 ∨ s.twin.sparePend = true) :
    s.moveSpare = if s.fbit Reg.CmpStatus.arbBusy then { s with twin.sparePend := true } else
      { (s.fset Reg.TreeMode.spareBoughB (s.fget Reg.TreeMode.spareBoughB + 1)).fset Reg.TreeMode.spareBoughA
          (s.fget Reg.TreeMode.spareBoughA + 1) with twin.sparePend := false } := by
  have due : ¬(s.capture.epoch % 4096 ≠ 0 ∧ (!s.twin.sparePend) = true) := by
    rintro ⟨he, hp⟩
    rcases hd with h | h
    · exact he h
    · rw [h] at hp
      exact Bool.noConfusion hp
  unfold State.moveSpare
  rw [if_neg due]
  dsimp only
  rw [State.fget_fset_beside s Reg.TreeMode.spareBoughB Reg.TreeMode.spareBoughA _ rfl (by decide) (by decide)]

/-- Settles O59, by the cases of a move that is due or not, and of an arbitration in progress. -/
theorem spareRoleMoves : Obligations.SpareRoleMoves := by
  unfold Obligations.SpareRoleMoves
  intro s
  refine ⟨fun hd ha => ?_, fun hd ha => by rw [s.moveSpare_due hd, if_pos ha], s.moveSpare_notDue⟩
  rw [s.moveSpare_due hd, if_neg (by simp [ha])]
  refine ⟨?_, ?_, rfl⟩
  · exact State.fget_fset_self _ Reg.TreeMode.spareBoughA _ (by decide)
  · exact (State.fget_fset_beside _ Reg.TreeMode.spareBoughA Reg.TreeMode.spareBoughB _ rfl (by decide) (by decide)).trans
      (State.fget_fset_self s Reg.TreeMode.spareBoughB _ (by decide))

/-! ### What the shared operations leave of the registers and of the life-cycle part -/

theorem act_of_running (s : State) (f : State → State) (h : s.held = false) : act s f = .next (f s) := by simp [act, h]

/-- A fold leaves a register that each of its steps leaves. -/
theorem State.reg_foldl {α : Type} (f : State → α → State) (a : Nat) (hf : ∀ u x, (f u x).reg a = u.reg a) (l : List α) (s : State) :
    (l.foldl f s).reg a = s.reg a := by
  induction l generalizing s with
  | nil => rfl
  | cons x r ih => exact (ih _).trans (hf s x)

theorem State.attn_life (s : State) (k : Nat) : (s.attn k).life = s.life := by rw [State.attn_rest]
theorem State.attn_padFaultN (s : State) (k : Nat) : (s.attn k).padFaultN = s.padFaultN := by rw [State.attn_rest]

theorem State.reg_setReady (s : State) (f : Field) (b : Bool) (a : Nat) (hf : f.addr ≠ a) (h : a / 65536 ≠ 5) :
    (s.setReady f b).reg a = s.reg a := by
  unfold State.setReady
  split
  · rfl
  · exact (State.reg_attn _ _ _ h).trans (State.reg_fset_ne _ _ _ _ hf)

/-- What follows the trunks' states changes registers only in `TREE_MODE`, `TREE_READY` and the Stem block. -/
theorem State.reg_refresh (s : State) (a : Nat) (hm : Reg.treeMode ≠ a) (hr : Reg.treeReady ≠ a) (h : a / 65536 ≠ 5) :
    s.refresh.reg a = s.reg a := by
  unfold State.refresh
  refine (State.reg_setReady _ _ _ _ hr h).trans ?_
  rw [State.reg_setReady _ _ _ _ hr h, State.reg_setReady _ _ _ _ hr h]
  simp only [State.fsetB]
  rw [State.reg_fset_ne _ _ _ _ hm, State.reg_fset_ne _ _ _ _ hm, State.reg_fset_ne _ _ _ _ hm, State.reg_fset_ne _ _ _ _ hm]
  rfl

/-- The end of a trunk's work in hand changes no register but `CMP_HOLDOFF`. -/
theorem State.reg_clearWork (s : State) (t : Trunk) (a : Nat) (h : Reg.cmpHoldoff ≠ a) : (s.clearWork t).reg a = s.reg a := by
  unfold State.clearWork
  dsimp only
  split
  · exact State.reg_fset_ne _ _ _ _ h
  · rfl

theorem State.reg_setTrunkState (s : State) (t : Trunk) (v a : Nat) (h : Reg.cmpStatus ≠ a) : (s.setTrunkState t v).reg a = s.reg a := by
  cases t <;> exact State.reg_fset_ne _ _ _ _ h

theorem State.setTrunkState_seed (s : State) (t : Trunk) (v : Nat) : (s.setTrunkState t v).seed = s.seed := by cases t <;> rfl

theorem State.faultPad_seed (s : State) : s.faultPad.seed = s.seed := rfl

theorem State.trunkState_congr (s u : State) (t : Trunk) (h : s.reg Reg.cmpStatus = u.reg Reg.cmpStatus) : s.trunkState t = u.trunkState t := by
  cases t <;> exact State.fget_congr _ _ _ h

/-- A trunk is in the state it has entered; the other one stays in its own. -/
theorem State.trunkState_setTrunkState (s : State) (t k : Trunk) (v : Nat) :
    (s.setTrunkState t v).trunkState k = if t = k then v % 8 else s.trunkState k := by
  cases t <;> cases k
  · exact State.fget_fset_self s Reg.CmpStatus.stateA v (by decide)
  · exact State.fget_fset_beside s Reg.CmpStatus.stateA Reg.CmpStatus.stateB v rfl (by decide) (by decide)
  · exact State.fget_fset_beside s Reg.CmpStatus.stateB Reg.CmpStatus.stateA v rfl (by decide) (by decide)
  · exact State.fget_fset_self s Reg.CmpStatus.stateB v (by decide)

/-- Bits of `CMP_STATUS` below the states leave them. -/
theorem State.trunkState_fset (s : State) (f : Field) (v : Nat) (t : Trunk) (ha : f.addr = Reg.cmpStatus) (h : f.lo + f.len ≤ 26) :
    (s.fset f v).trunkState t = s.trunkState t := by
  cases t
  · exact State.fget_fset_beside s f Reg.CmpStatus.stateA v ha (by omega) (.inr h)
  · exact State.fget_fset_beside s f Reg.CmpStatus.stateB v ha (by omega) (.inr (Nat.le_trans h (by decide)))

/-! ### The trunks load again -/

/-- R415: a trunk that is not DOWN goes to TEST without its work in hand: what `State.reloadTrunks` does for each trunk. -/
def State.trunkToTest (s : State) (t : Trunk) : State := if s.trunkState t = 0 then s else (s.clearWork t).setTrunkState t 1

theorem State.reg_trunkToTest (s : State) (t : Trunk) (a : Nat) (hc : Reg.cmpStatus ≠ a) (hh : Reg.cmpHoldoff ≠ a) :
    (s.trunkToTest t).reg a = s.reg a := by
  unfold State.trunkToTest
  split
  · rfl
  · rw [State.reg_setTrunkState _ _ _ _ hc, State.reg_clearWork _ _ _ hh]

theorem State.clearWork_seed (s : State) (t : Trunk) : (s.clearWork t).seed = s.seed := by
  unfold State.clearWork
  dsimp only
  split <;> rfl

theorem State.trunkToTest_seed (s : State) (t : Trunk) : (s.trunkToTest t).seed = s.seed := by
  unfold State.trunkToTest
  split
  · rfl
  · rw [State.setTrunkState_seed, State.clearWork_seed]

theorem State.trunkState_trunkToTest (s : State) (t k : Trunk) :
    (s.trunkToTest t).trunkState k = if t = k ∧ s.trunkState k ≠ 0 then 1 else s.trunkState k := by
  unfold State.trunkToTest
  split
  · next h0 =>
    rw [if_neg]
    rintro ⟨rfl, h⟩
    exact h h0
  · next h0 =>
    rw [State.trunkState_setTrunkState, State.trunkState_congr _ s k (State.reg_clearWork _ _ _ (by decide))]
    by_cases hk : t = k
    · subst hk
      rw [if_pos rfl, if_pos ⟨rfl, h0⟩]
    · rw [if_neg hk, if_neg fun h => hk h.1]

/-- R415, R474: where no seed stands, both trunks go to TEST, the compare stage is cleared, and the tree's registers follow. -/
theorem State.reloadTrunks_noSeed (s : State) (hs : s.seed = none) :
    ∃ tw, s.reloadTrunks = ((({ (s.trunkToTest .a).trunkToTest .b with twin := tw }.fset Reg.CmpStatus.arbBusy 0).fset Reg.CmpStatus.etcHold 0).fset
      Reg.CmpResync.phase 0).refresh := by
  have h2 : ((s.trunkToTest .a).trunkToTest .b).seed = none := by rw [State.trunkToTest_seed, State.trunkToTest_seed, hs]
  have fold : [Trunk.a, Trunk.b].foldl (fun s t => if s.trunkState t = 0 then s else (s.clearWork t).setTrunkState t 1) s =
    (s.trunkToTest .a).trunkToTest .b := rfl
  unfold State.reloadTrunks
  rw [fold]
  generalize (s.trunkToTest .a).trunkToTest .b = u at h2
  simp only [State.fset_seed, h2]
  exact ⟨_, rfl⟩

/-- R415, R474: a trunk that was not DOWN is in TEST. -/
theorem State.trunkState_reloadTrunks (s : State) (k : Trunk) (hs : s.seed = none) (h : s.trunkState k ≠ 0) : s.reloadTrunks.trunkState k = 1 := by
  obtain ⟨tw, e⟩ := s.reloadTrunks_noSeed hs
  have hb : ((s.trunkToTest .a).trunkToTest .b).trunkState k = 1 := by
    cases k <;> simp [State.trunkState_trunkToTest, h]
  rw [e, State.trunkState_congr _ _ k (State.reg_refresh _ _ (by decide) (by decide) (by decide)),
    State.trunkState_congr _ _ k (State.reg_fset_ne _ _ _ _ (by decide)), State.trunkState_fset _ _ _ _ rfl (by decide),
    State.trunkState_fset _ _ _ _ rfl (by decide)]
  exact (State.trunkState_congr _ _ k rfl).trans hb

/-- Registers beyond the tree (0x0), Stem (0x5) and compare (0x7) blocks stay. -/
theorem State.reg_reloadTrunks (s : State) (a : Nat) (hs : s.seed = none) (ha : a / 65536 ∉ [0, 5, 7]) : s.reloadTrunks.reg a = s.reg a := by
  have ne (b : Nat) (hb : b / 65536 ∈ [0, 5, 7]) : b ≠ a := by
    rintro rfl
    exact ha hb
  obtain ⟨tw, e⟩ := s.reloadTrunks_noSeed hs
  rw [e, State.reg_refresh _ _ (ne _ (by decide)) (ne _ (by decide)) (fun h5 => ha (by simp [h5])), State.reg_fset_ne _ _ _ _ (ne _ (by decide)),
    State.reg_fset_ne _ _ _ _ (ne _ (by decide)), State.reg_fset_ne _ _ _ _ (ne _ (by decide))]
  refine Eq.trans rfl ((State.reg_trunkToTest _ .b a (ne _ (by decide)) (ne _ (by decide))).trans ?_)
  exact State.reg_trunkToTest _ .a a (ne _ (by decide)) (ne _ (by decide))

/-! ### A measurement -/

theorem calQual_block (k : Nat) : State.calQual k / 65536 = 0x15 := by
  unfold State.calQual Reg.calTbQual Reg.calPortQual Reg.calSap
  split
  · rfl
  · split <;> omega

/-- R454: a stale item changes registers only in the Stem, calibration and record blocks. -/
theorem State.reg_calStale (s : State) (a : Nat) (ha : a / 65536 ∉ [0x5, 0x15, 0x16]) : s.calStale.reg a = s.reg a := by
  have ne (b : Nat) (hb : b / 65536 ∈ [0x5, 0x15, 0x16]) : a ≠ b := by
    rintro rfl
    exact ha hb
  unfold State.calStale
  apply State.reg_foldl
  intro u k
  dsimp only
  split
  · rfl
  · unfold State.attnTime
    rw [State.reg_attn _ _ _ (fun h5 => ha (by simp [h5])), State.reg_rootEvent _ _ _ _ _ _ (ne _ (by decide)) (ne _ (by decide)),
      State.reg_fset_ne _ _ _ _ (ne _ (by simp [calQual_block])).symm]

/-- The highest baseplate temperature beside, a measurement stands in its four registers (R479). -/
theorem State.reg_tempRegs (s : State) (b x y z : Int) (a : Nat) (h : Reg.psuTempMax ≠ a) :
    (s.tempRegs b x y z).reg a = ((((s.fset Reg.PsuTempBase.temp (unsigned 16 b)).fset Reg.PsuTempA.temp (unsigned 16 x)).fset
      Reg.PsuTempB.temp (unsigned 16 y)).fset Reg.PsuTempRoot.temp (unsigned 16 z)).reg a := by
  unfold State.tempRegs
  dsimp only
  split
  · exact State.reg_fset_ne _ _ _ _ h
  · rfl

/-- R21, R473, R474: below the limits that switch something off, a measurement leaves in the power block what `State.tempRegs` and the
warning leave. -/
theorem State.reg_thermalSample (s : State) (b x y z : Int) (a : Nat) (hb : b < 11000) (hx : x < 12500) (hy : y < 12500) (hz : z < 12500)
    (ha : a / 65536 = 0x17) :
    (s.thermalSample b x y z).reg a = ((s.tempRegs b x y z).fsetB Reg.PsuStatus.thermalWarn (decide (9000 ≤ b))).reg a := by
  unfold State.thermalSample
  dsimp only
  rw [if_neg (by omega), if_neg (by omega), State.reg_calStale _ _ (by simp [ha])]
  have mode (u : State) (w : Bool) : (u.fsetB Reg.TreeMode.thermalWarn w).reg a = u.reg a :=
    State.reg_fset_ne _ _ _ _ (by rintro rfl; exact absurd ha (by decide))
  split
  · exact (State.reg_attn _ _ _ (by omega)).trans (mode _ _)
  · exact mode _ _

theorem unsigned_mod (n : Nat) (v : Int) : unsigned n v % 2 ^ n = unsigned n v := by
  have pos : (0 : Int) < (2 ^ n : Nat) := Int.natCast_pos.mpr (Nat.two_pow_pos n)
  have nonneg := Int.emod_nonneg v (Int.ne_of_gt pos)
  have below := Int.emod_lt_of_pos v pos
  exact Nat.mod_eq_of_lt ((Int.toNat_lt nonneg).mpr below)

/-- R473, R479: a measurement below the limits stands in its registers. -/
theorem State.fget_thermalSample (s : State) (b x y z : Int) (hb : b < 11000) (hx : x < 12500) (hy : y < 12500) (hz : z < 12500) :
    let t := s.thermalSample b x y z
    t.fget Reg.PsuTempBase.temp = unsigned 16 b ∧ t.fget Reg.PsuTempA.temp = unsigned 16 x ∧ t.fget Reg.PsuTempB.temp = unsigned 16 y ∧
      t.fget Reg.PsuTempRoot.temp = unsigned 16 z := by
  have read (f : Field) (ha : f.addr / 65536 = 0x17) (hw : Reg.psuStatus ≠ f.addr) (hm : Reg.psuTempMax ≠ f.addr) :
      (s.thermalSample b x y z).fget f = ((((s.fset Reg.PsuTempBase.temp (unsigned 16 b)).fset Reg.PsuTempA.temp (unsigned 16 x)).fset
        Reg.PsuTempB.temp (unsigned 16 y)).fset Reg.PsuTempRoot.temp (unsigned 16 z)).fget f :=
    State.fget_congr _ _ _ <| (s.reg_thermalSample b x y z _ hb hx hy hz ha).trans <|
      (State.reg_fset_ne _ _ _ _ hw).trans (s.reg_tempRegs b x y z _ hm)
  have len (v : Int) (f : Field) (h : f.len = 16) : unsigned 16 v % 2 ^ f.len = unsigned 16 v := by rw [h, unsigned_mod]
  refine ⟨?_, ?_, ?_, ?_⟩ <;> simp (disch := decide) only [read, State.fget_fset_self, State.fget_fset_ne, len]

/-- R473: a measurement below the limits warns from 90 °C. -/
theorem State.fbit_thermalSample_warn (s : State) (b x y z : Int) (hb : b < 11000) (hx : x < 12500) (hy : y < 12500) (hz : z < 12500) :
    (s.thermalSample b x y z).fbit Reg.PsuStatus.thermalWarn = decide (9000 ≤ b) :=
  (State.fbit_congr _ _ _ (s.reg_thermalSample b x y z _ hb hx hy hz (by decide))).trans (State.fbit_fsetB_self _ _ _ (by decide) rfl)

/-! ### Throttling, recovery and module faults -/

/-- R21, R26: both status bits show the twig clock. -/
theorem State.fbit_throttle (s : State) (on : Bool) :
    (s.throttle on).fbit Reg.PsuStatus.throttled = on ∧ (s.throttle on).fbit Reg.TreeMode.throttled = on :=
  ⟨(State.fbit_fset_ne _ _ _ _ (by decide)).trans (State.fbit_fsetB_self _ _ _ (by decide) rfl), State.fbit_fsetB_self _ _ _ (by decide) rfl⟩

/-- R474: 60 s after everything has cooled, the trunks of a show that has started load again. -/
theorem State.thermalBack_started (s : State) (ho : s.fbit Reg.PsuStatus.trunksOff = true) (hw : s.waited s.life.diesCool 60 = true)
    (hs : s.twin.started = true) :
    s.thermalBack = (((s.fset Reg.PsuStatus.trunksOff 0).faultPad.setTrunkState .a 1).setTrunkState .b 1).reloadTrunks := by
  unfold State.thermalBack
  rw [if_neg (by simp [ho, hw])]
  exact if_neg (by simp [State.faultPad, hs])

theorem State.thermalBack_noSeed (s : State) (ho : s.fbit Reg.PsuStatus.trunksOff = true) (hw : s.waited s.life.diesCool 60 = true)
    (hs : s.twin.started = true) (hd : s.seed = none) :
    s.thermalBack.fbit Reg.PsuStatus.trunksOff = false ∧ ∀ k, s.thermalBack.trunkState k = 1 := by
  rw [s.thermalBack_started ho hw hs]
  have seed : (((s.fset Reg.PsuStatus.trunksOff 0).faultPad.setTrunkState .a 1).setTrunkState .b 1).seed = none := by
    rw [State.setTrunkState_seed, State.setTrunkState_seed, State.faultPad_seed, State.fset_seed, hd]
  constructor
  · rw [State.fbit_congr _ _ _ (State.reg_reloadTrunks _ _ seed (by decide)), State.fbit_congr _ _ _ (State.reg_setTrunkState _ .b 1 _ (by decide)),
      State.fbit_congr _ _ _ (State.reg_setTrunkState _ .a 1 _ (by decide))]
    exact State.fbit_fset_self s Reg.PsuStatus.trunksOff 0 (by decide)
  · intro k
    refine State.trunkState_reloadTrunks _ k seed ?_
    cases k <;> simp [State.trunkState_setTrunkState]

/-- R326, R470: a fault of class MODULE pulls FAULT_N low. -/
theorem State.moduleFault_shows (s : State) (c : Bool) : (s.moduleFault c).life.moduleFault = true ∧ (s.moduleFault c).padFaultN = false := by
  unfold State.moduleFault State.attnFault State.faultPad
  rw [State.attn_life, State.attn_padFaultN]
  exact ⟨rfl, by simp⟩

/-! ### The statement -/

/-- Settles O35, clause by clause: each command is its operation on a module that runs, and the operation's lemma says what stands then. -/
theorem thermalCommandsComplete : Obligations.ThermalCommandsComplete := by
  unfold Obligations.ThermalCommandsComplete
  refine ⟨?sample, ?cooling, ?engage, ?release, ?recovery, ?fault⟩
  case sample =>
    intro b x y z s h hb hx hy hz
    obtain ⟨h1, h2, h3, h4⟩ := s.fget_thermalSample b x y z hb hx hy hz
    exact ⟨s.thermalSample b x y z, if_neg (by simp [h]), h1, h2, h3, h4, s.fbit_thermalSample_warn b x y z hb hx hy hz⟩
  case cooling =>
    intro b x y z s h
    exact if_pos h
  case engage =>
    intro s h hot
    have e : s.throttleOn = s.throttle true := if_pos hot
    exact ⟨s.throttle true, e ▸ act_of_running s State.throttleOn h, s.fbit_throttle true⟩
  case release =>
    intro s h cool
    have e : s.throttleOff = { s.throttle false with life.hot := false } := if_pos cool
    exact ⟨{ s.throttle false with life.hot := false }, e ▸ act_of_running s State.throttleOff h, (s.fbit_throttle false).1, rfl⟩
  case recovery =>
    intro s h ho hw hs hd
    obtain ⟨off, test⟩ := s.thermalBack_noSeed ho hw hs hd
    exact ⟨s.thermalBack, act_of_running s State.thermalBack h, off, test .a, test .b⟩
  case fault =>
    intro c s h
    exact ⟨s.moduleFault c, act_of_running s (·.moduleFault c) h, s.moduleFault_shows c⟩

end Sys2Proof.Machine
end

section
/-! PROOFS. The pixel path: CYLINDER (R103), POINT (R110) and the calibration gain (R122). -/

namespace Sys2Proof.Machine

/-! ### Saturating operations that mark what saturated -/

/-- `mul` and `add` of one normalised coordinate (R103), each giving its exact value: neither saturates. -/
def MulAddExact (k x c : Int) : Prop := twMul k x = rnd (k * x) 28 ∧ twAdd (twMul k x) c = twMul k x + c

theorem svMul_unmarked (x y : Int) : svMul (x, false) (y, false) = (twMul x y, decide (twMul x y ≠ rnd (x * y) 28)) := rfl

theorem svAdd_unmarked_right (x y : Int) (m : Bool) : svAdd (x, m) (y, false) = (twAdd x y, m || decide (twAdd x y ≠ x + y)) := by
  rw [svAdd, Bool.or_false]
  rfl

theorem svMulAdd_value (k x c : Int) : (svAdd (svMul (k, false) (x, false)) (c, false)).1 = twAdd (twMul k x) c := rfl

/-- The mark stays off where neither the product nor the sum saturates, and only there. -/
theorem svMulAdd_unmarked_iff (k x c : Int) : (svAdd (svMul (k, false) (x, false)) (c, false)).2 = false ↔ MulAddExact k x c := by
  rw [svMul_unmarked, svAdd_unmarked_right]
  simp [MulAddExact]

/-! ### CYLINDER (R103) -/

theorem cylinder_of_exact (pp : List Byte) (a b : Int) (hs : MulAddExact (i32 pp 0) a (i32 pp 4)) (ht : MulAddExact (i32 pp 8) b (i32 pp 12)) :
    cylinder pp a b = some (twAdd (twMul (i32 pp 0) a) (i32 pp 4) % 2 ^ 28, twAdd (twMul (i32 pp 8) b) (i32 pp 12)) := by
  rw [← svMulAdd_unmarked_iff] at hs ht
  simp [cylinder, normal, hs, ht, svMulAdd_value]

theorem cylinder_of_saturated (pp : List Byte) (a b : Int)
    (h : ¬(MulAddExact (i32 pp 0) a (i32 pp 4) ∧ MulAddExact (i32 pp 8) b (i32 pp 12))) : cylinder pp a b = none := by
  rw [← svMulAdd_unmarked_iff, ← svMulAdd_unmarked_iff, Classical.not_and_iff_not_or_not, Bool.not_eq_false, Bool.not_eq_false] at h
  obtain hs | ht := h
  · simp [cylinder, normal, hs]
  · simp [cylinder, normal, ht]

/-! ### POINT (R110) and the calibration gain (R122) -/

/-- The arithmetic shift of a 16.16 coordinate gives its integer pixel. With Mathlib in scope the shift count reads as an `Int`, without it
as a `Nat`; by the sign of `u` both are `Int.shiftRight`. -/
theorem shiftRight_sixteen (u : Int) : u >>> 16 = u / 65536 := by
  have core : u >>> 16 = Int.shiftRight u 16 := by
    cases u with
    | ofNat n => rfl
    | negSucc n => rfl
  exact core.trans (Int.shiftRight_eq_div_pow u 16)

theorem sample_point (f : CanvasFrame) (edge footprint : Nat) (u v : Int) :
    sample f 0 edge footprint u v = tap f edge (u >>> 16) (v >>> 16) := by
  rw [shiftRight_sixteen, shiftRight_sixteen]
  rfl

theorem gainStep_getElem? (cal : Option (List Byte)) (d : List Int) (e : Nat) (he : e < d.length) :
    (gainStep cal d)[e]? = some (min (twMul d[e] (calGain cal e * 8192)) (2 ^ 28)) := by
  rw [gainStep, List.getElem?_mapIdx, List.getElem?_eq_getElem he]
  rfl

/-! ### The statement -/

/-- Settles O51: CYLINDER clips where one of its four operations saturates, and else S is the remainder of the sum by 2^28; POINT and the gain
hold by the lemma of each. -/
theorem pixelPathSteps : Obligations.PixelPathSteps := by
  unfold Obligations.PixelPathSteps
  refine ⟨?cylinder, sample_point, gainStep_getElem?⟩
  case cylinder =>
    intro pp a b
    constructor
    · rintro ⟨mulS, mulT, addS, addT⟩
      refine ⟨_, _, cylinder_of_exact pp a b ⟨mulS, addS⟩ ⟨mulT, addT⟩, rfl, ?_⟩
      omega
    · intro saturated
      apply cylinder_of_saturated
      rintro ⟨⟨mulS, addS⟩, mulT, addT⟩
      exact saturated ⟨mulS, mulT, addS, addT⟩

end Sys2Proof.Machine
end

section
/-! PROOFS. The pixel path: dither and quantise (R131). -/

namespace Sys2Proof.Machine

/-! ### The shifts of R131

With Mathlib in scope the shift count of an integer reads as an `Int`, without it as a `Nat`; by the sign of `u` the two agree. -/

theorem shiftRight_twentyEight (u : Int) : u >>> 28 = u / 2 ^ 28 := by
  have core : u >>> 28 = u >>> (28 : Nat) := by cases u <;> rfl
  exact core.trans (Int.shiftRight_eq_div_pow u 28)

theorem shiftRight_twelve (u : Int) : u >>> 12 = u / 4096 := by
  have core : u >>> 12 = u >>> (12 : Nat) := by cases u <;> rfl
  exact core.trans (Int.shiftRight_eq_div_pow u 12)

/-! ### The code and the residual of a drive -/

theorem two_pow_sub_one_cast (b : Nat) : ((2 ^ b - 1 : Nat) : Int) = 2 ^ b - 1 := by
  rw [Int.natCast_sub Nat.one_le_two_pow, Int.natCast_pow]
  rfl

/-- A drive scaled to the full code is not negative. -/
theorem scaledDrive_nonneg (b : Nat) {d : Int} (hd : 0 ≤ d) : 0 ≤ d * (2 ^ b - 1) := by
  rw [← two_pow_sub_one_cast]
  exact Int.mul_nonneg hd (Int.natCast_nonneg _)

theorem quantise_off (b r : Nat) (d : Int) : quantise 0 b d r = ((rnd (d * (2 ^ b - 1)) 28).toNat, r) := rfl

theorem quantise_diffused_code {m : Nat} (hm : m ≠ 0) (b r : Nat) {d : Int} (hd : 0 ≤ d) :
    ((quantise m b d r).1 : Int) = (d * (2 ^ b - 1) + r * 4096) / 2 ^ 28 := by
  have hp := scaledDrive_nonneg b hd
  rw [quantise, if_neg hm]
  exact Int.toNat_of_nonneg (by omega)

theorem quantise_diffused_residual {m : Nat} (hm : m ≠ 0) (b r : Nat) {d : Int} (hd : 0 ≤ d) :
    ((quantise m b d r).2 : Int) = (d * (2 ^ b - 1) + r * 4096 - (quantise m b d r).1 * 2 ^ 28) / 4096 := by
  rw [quantise_diffused_code hm b r hd, quantise, if_neg hm]
  exact Int.toNat_of_nonneg (by omega)

/-- In every mode the code is the scaled drive plus a part less than one code, rounded down: half a code without dither, else the residual. -/
theorem quantise_code (m b : Nat) {r : Nat} {d : Int} (hd : 0 ≤ d) (hr : r < 65536) :
    ∃ c : Int, 0 ≤ c ∧ c < 2 ^ 28 ∧ ((quantise m b d r).1 : Int) = (d * (2 ^ b - 1) + c) / 2 ^ 28 := by
  by_cases hm : m = 0
  case pos =>
    subst hm
    have hp := scaledDrive_nonneg b hd
    refine ⟨2 ^ 27, by decide, by decide, ?_⟩
    rw [quantise_off]
    exact Int.toNat_of_nonneg (by rw [rnd]; omega)
  case neg => exact ⟨r * 4096, by omega, by omega, quantise_diffused_code hm b r hd⟩

theorem quantise_code_le (m b : Nat) {r : Nat} {d : Int} (hd : 0 ≤ d) (hd1 : d ≤ 2 ^ 28) (hr : r < 65536) :
    (quantise m b d r).1 ≤ 2 ^ b - 1 := by
  obtain ⟨c, -, hc, hq⟩ := quantise_code m b hd hr
  rw [← two_pow_sub_one_cast] at hq
  have hp := Int.mul_le_mul_of_nonneg_right hd1 (Int.natCast_nonneg (2 ^ b - 1))
  omega

theorem quantise_residual_lt (m b : Nat) {r : Nat} {d : Int} (hd : 0 ≤ d) (hr : r < 65536) : (quantise m b d r).2 < 65536 := by
  by_cases hm : m = 0
  case pos => rwa [hm, quantise_off]
  case neg =>
    have hcode := quantise_diffused_code hm b r hd
    have hres := quantise_diffused_residual hm b r hd
    omega

theorem quantise_zero (m b : Nat) {r : Nat} (hr : r < 65536) : (quantise m b 0 r).1 = 0 := by
  obtain ⟨c, hc0, hc, hq⟩ := quantise_code m b (Int.le_refl 0) hr
  omega

theorem quantise_one (m b : Nat) {r : Nat} (hr : r < 65536) : (quantise m b (2 ^ 28) r).1 = 2 ^ b - 1 := by
  obtain ⟨c, hc0, hc, hq⟩ := quantise_code m b (d := 2 ^ 28) (by decide) hr
  rw [← two_pow_sub_one_cast] at hq
  omega

/-! ### The statement -/

/-- Settles O52, clause by clause: the equations of the two modes, with R131's shifts as divisions, and the bounds and end values, which hold
in every mode since what is added before rounding down is less than one code. -/
theorem quantiseCodes : Obligations.QuantiseCodes := by
  unfold Obligations.QuantiseCodes
  refine ⟨?off, ?diffused, ?bounds, ?ends⟩
  case off => exact fun b r d _ => quantise_off b r d
  case diffused =>
    intro m b r d hm hd
    rw [shiftRight_twentyEight, shiftRight_twelve]
    exact ⟨quantise_diffused_code hm b r hd, quantise_diffused_residual hm b r hd⟩
  case bounds => exact fun m b r d hd hd1 hr => ⟨quantise_code_le m b hd hd1 hr, quantise_residual_lt m b hd hr⟩
  case ends => exact fun m b r hr => ⟨quantise_zero m b hr, quantise_one m b hr⟩

end Sys2Proof.Machine
end

section
/-! PROOFS. Raster outputs: the commit and its check (R194), the reading of a line (R157, R188, R192) and the pad (R193). -/

namespace Sys2Proof.Machine

/-! ### The check of a commit (R194) -/

/-- R194: what `RAST_n_STATUS` shows of commits: whether a check is in progress, and the code of the last one. -/
def State.commitCheck (s : State) (t : Trunk) (g : Nat) : Bool × Nat := (s.fbit (Reg.RastStatus.busy t g), s.fget (Reg.RastStatus.code t g))

theorem State.commitCheck_of_reg {s u : State} {t : Trunk} {g : Nat} (h : u.reg (Reg.rastStatus t g) = s.reg (Reg.rastStatus t g)) :
    u.commitCheck t g = s.commitCheck t g :=
  Prod.ext (State.fbit_congr u s (Reg.RastStatus.busy t g) h) (State.fget_congr u s (Reg.RastStatus.code t g) h)

/-- The status bits between `busy` and `code` leave both. -/
theorem State.commitCheck_fset (s : State) (t : Trunk) (g lo len v : Nat) (hl : 1 ≤ lo) (hh : lo + len ≤ 16) :
    (s.fset ⟨Reg.rastStatus t g, lo, len⟩ v).commitCheck t g = s.commitCheck t g :=
  have inWord : lo + len ≤ 32 := by omega
  Prod.ext (congrArg (· != 0) (State.fget_fset_beside s _ (Reg.RastStatus.busy t g) v rfl inWord (.inl hl)))
    (State.fget_fset_beside s _ (Reg.RastStatus.code t g) v rfl inWord (.inr hh))

/-- The end of a check: it is no longer in progress, and its code stands. -/
theorem State.commitCheck_done (s : State) (t : Trunk) (g code : Nat) :
    ((s.fset (Reg.RastStatus.busy t g) 0).fset (Reg.RastStatus.code t g) code).commitCheck t g = (false, code % 65536) := by
  have inWord : (Reg.RastStatus.code t g).lo + (Reg.RastStatus.code t g).len ≤ 32 := Nat.le_refl 32
  have busy : (s.fset (Reg.RastStatus.busy t g) 0).fget (Reg.RastStatus.busy t g) = 0 := State.fget_fset_self s _ 0 (Nat.le_add_left 1 31)
  have beside := State.fget_fset_beside (s.fset (Reg.RastStatus.busy t g) 0) (Reg.RastStatus.code t g) (Reg.RastStatus.busy t g) code rfl inWord
    (.inl (Nat.le_add_left 1 15))
  exact Prod.ext (congrArg (· != 0) (beside.trans busy)) (State.fget_fset_self _ _ code inWord)

theorem State.commitCheck_putRast (s : State) (t k : Trunk) (g n : Nat) (x : RastSt) :
    (s.putRast k n x).commitCheck t g = s.commitCheck t g := rfl

theorem State.commitCheck_setRegN (s : State) (a v : Nat) (t : Trunk) (g : Nat) (h : a ≠ Reg.rastStatus t g) :
    (s.setRegN a v).commitCheck t g = s.commitCheck t g := State.commitCheck_of_reg (State.reg_setRegN_ne s a v _ h)

theorem State.commitCheck_rastCount (s : State) (t : Trunk) (g : Nat) : (s.rastCount t g).commitCheck t g = s.commitCheck t g := by
  unfold State.rastCount
  dsimp only
  split
  · unfold State.countFrom
    split <;> rfl
  · rfl

theorem State.commitCheck_rastTake (s : State) (t : Trunk) (g : Nat) : (s.rastTake t g).commitCheck t g = s.commitCheck t g := by
  have moved : ((s.pendToAct (rastRegs t g)).fset (Reg.RastStatus.pending t g) 0).commitCheck t g = s.commitCheck t g :=
    State.commitCheck_fset _ t g _ _ _ (by decide) (by decide)
  unfold State.rastTake State.rastFresh
  dsimp only
  repeat' split
  all_goals simp only [State.commitCheck_rastCount, State.commitCheck_putRast, moved]

theorem State.commitCheck_flip (s : State) (t : Trunk) (g : Nat) (l : Option Nat) : (s.flip t g l).commitCheck t g = s.commitCheck t g := by
  have ne (n : Nat) (hn : n ≠ 0x60004) : trunkBase t + n + g * 0x100 ≠ Reg.rastStatus t g := by
    unfold Reg.rastStatus
    omega
  have counted (v : Nat) : (s.setRegN (Reg.rastFlipCnt t g) v).commitCheck t g = s.commitCheck t g :=
    State.commitCheck_setRegN _ _ _ _ _ (ne _ (by decide))
  unfold State.flip
  dsimp only
  split
  · unfold State.setReg96
    rw [State.commitCheck_setRegN _ (Reg.rastFlipTsHi t g) _ _ _ (ne _ (by decide)),
      State.commitCheck_setRegN _ (Reg.rastFlipTsMid t g) _ _ _ (ne _ (by decide)), State.commitCheck_setRegN _ (Reg.rastFlipTsLo t g) _ _ _ (ne _ (by decide)), counted]
  · exact counted _

/-- R195, R196: what a latch brings into force changes other bits of the status and other registers. -/
theorem State.commitCheck_latchTake (s : State) (t : Trunk) (g : Nat) (f : RastFrame) (tag : Nat) :
    (s.latchTake t g f tag).commitCheck t g = s.commitCheck t g := by
  have inUse (u : State) : (u.fset (Reg.RastStatus.fbPrevInUse t g) 1).commitCheck t g = u.commitCheck t g :=
    State.commitCheck_fset _ t g _ _ _ (by decide) (by decide)
  unfold State.latchTake State.rastRecad
  dsimp only
  repeat' split
  all_goals simp only [inUse, State.commitCheck_flip, State.commitCheck_putRast, State.commitCheck_rastTake]

/-- R194: a commit of a generator the seed binds, while no check is in progress, makes it busy. -/
theorem State.fbit_busy_rastCommitWrite (s : State) (t : Trunk) (g : Nat) (hr : s.rastRec? t g ≠ none)
    (hb : s.fbit (Reg.RastStatus.busy t g) = false) : (s.rastCommitWrite t g).fbit (Reg.RastStatus.busy t g) = true := by
  unfold State.rastCommitWrite
  rw [if_neg hr, if_neg (by simp [hb])]
  exact State.fbit_fset_self s (Reg.RastStatus.busy t g) 1 (Nat.le_add_left 1 31)

/-- R194: a check in progress ends with its code, whatever its outcome brings about. -/
theorem State.commitCheck_rastCommitDone (s : State) (t : Trunk) (g : Nat) (hb : s.fbit (Reg.RastStatus.busy t g) = true) :
    (s.rastCommitDone t g).commitCheck t g = (false, s.rastCheck t g % 65536) := by
  have notRecord (a : Nat) (ha : a < 0x1000000) : Reg.rastStatus t g ≠ a := by
    cases t <;> simp only [Reg.rastStatus, trunkBase] <;> omega
  unfold State.rastCommitDone
  rw [if_neg (by simp [hb])]
  rw [← State.commitCheck_done s t g (s.rastCheck t g)]
  dsimp only
  generalize (s.fset (Reg.RastStatus.busy t g) 0).fset (Reg.RastStatus.code t g) (s.rastCheck t g) = u
  split
  case isTrue =>
    have refused : (u.fset (Reg.RastStatus.refused t g) 1).commitCheck t g = u.commitCheck t g :=
      State.commitCheck_fset u t g _ _ _ (by decide) (by decide)
    rw [← refused]
    exact State.commitCheck_of_reg (State.reg_trunkEvent _ _ _ _ _ _ _ (notRecord _ (by decide)) (notRecord _ (by decide)))
  case isFalse =>
    have pended : ((u.shadowToPend (rastRegs t g)).fset (Reg.RastStatus.pending t g) 1).commitCheck t g = u.commitCheck t g :=
      State.commitCheck_fset _ t g _ _ _ (by decide) (by decide)
    repeat' split
    all_goals simp only [State.commitCheck_latchTake, State.commitCheck_rastTake, State.commitCheck_putRast, pended]

/-! ### What a report leaves (R157) -/

/-- What counting, recording and raising attention for an error leaves: all but the registers, the event queue, the ring record and Stem, and
of the registers those of the tree (0x0) and compare (0x7) blocks and the states of the axes. The launch base of a frame is any number, so
the status address that it stands for may lie in a block that a report writes: there the two bits of the state stay. -/
structure State.OnlyReported (s u : State) : Prop where
  rest : u = { s with regs := u.regs, cyc := u.cyc, events := u.events, ring := u.ring, stem := u.stem }
  regs : ∀ a, a / 65536 = 0 ∨ a / 65536 = 7 → u.reg a = s.reg a
  axes : ∀ n, u.axisState n = s.axisState n

namespace State.OnlyReported

theorem refl (s : State) : s.OnlyReported s := ⟨rfl, fun _ _ => rfl, fun _ => rfl⟩

theorem trans {s u v : State} (h : s.OnlyReported u) (k : u.OnlyReported v) : s.OnlyReported v where
  rest := by rw [k.rest, h.rest]
  regs a ha := (k.regs a ha).trans (h.regs a ha)
  axes n := (k.axes n).trans (h.axes n)

theorem stem (s : State) (x : StemSt) : s.OnlyReported { s with stem := x } := ⟨rfl, fun _ _ => rfl, fun _ => rfl⟩

/-- A register of another block, at an offset where no axis keeps its state. -/
theorem setRegN (s : State) (a v : Nat) (hb : ¬(a / 65536 = 0 ∨ a / 65536 = 7)) (hx : a % 32 ≠ 4) : s.OnlyReported (s.setRegN a v) where
  rest := rfl
  regs b h := State.reg_setRegN_ne s a v b (by rintro rfl; exact hb h)
  axes n := State.fget_setRegN_ne s a v _ (by
    simp only [Reg.AxisStatus.state, Reg.axisStatus]
    omega)

theorem bump (s : State) (a : Nat) (hb : ¬(a / 65536 = 0 ∨ a / 65536 = 7)) (hx : a % 32 ≠ 4) : s.OnlyReported (s.bump a) := setRegN s a _ hb hx

/-- A field of another block, above the two bits of an axis state. -/
theorem fset (s : State) (f : Field) (v : Nat) (hb : ¬(f.addr / 65536 = 0 ∨ f.addr / 65536 = 7)) (hl : 2 ≤ f.lo) (hh : f.lo + f.len ≤ 32) :
    s.OnlyReported (s.fset f v) where
  rest := rfl
  regs b h := State.reg_fset_ne s f b v (by rintro rfl; exact hb h)
  axes n := by
    by_cases h : f.addr = Reg.axisStatus n
    · exact State.fget_fset_beside s f (Reg.AxisStatus.state n) v h hh (.inl hl)
    · exact State.fget_fset_ne s f (Reg.AxisStatus.state n) v h

theorem pushEvent (s : State) (e : Event) : s.OnlyReported (s.pushEvent e) := by
  unfold State.pushEvent
  dsimp only
  split
  · exact ⟨rfl, fun _ _ => rfl, fun _ => rfl⟩
  · have lost : s.OnlyReported ((s.bump Reg.recLostCnt).fset Reg.RecStatus.lost 1) :=
      (bump s _ (by decide) (by decide)).trans (fset _ _ _ (by decide) (by decide) (by decide))
    exact ⟨by rw [lost.rest], lost.regs, lost.axes⟩

/-! #### Attention and the replies of held WATCHes -/

/-- A field of a ring's status register, at an offset where no axis keeps its state. -/
theorem fset_ring (s : State) (r lo len v : Nat) (hr : r < 20) : s.OnlyReported (s.fset ⟨Reg.stemRingStatus r, lo, len⟩ v) where
  rest := rfl
  regs b h := State.reg_fset_ne s _ b v (by
    rintro rfl
    simp only [Reg.stemRingStatus] at h
    omega)
  axes n := State.fget_fset_ne s _ (Reg.AxisStatus.state n) v (by
    simp only [Reg.AxisStatus.state, Reg.axisStatus, Reg.stemRingStatus]
    omega)

theorem replyWrite (s : State) (r : Reply) (err : Bool) (hc : err = true → r.chan < 20) : s.OnlyReported (s.replyWrite r err) := by
  unfold State.replyWrite
  split
  · next he =>
    exact ((fset_ring s _ _ _ _ (hc he)).trans (fset_ring _ _ _ _ _ (hc he))).trans (stem _ _)
  · exact stem s _

theorem reply (s : State) (c tag opcode code : Nat) (result data : List Byte) (w : Bool) :
    s.OnlyReported (s.reply c tag opcode code result data w) := by
  have counted (u : State) (h : s.OnlyReported u) :
      s.OnlyReported (if 0x100 ≤ code then (u.bump Reg.stemCmdCnt).bump Reg.stemErrCnt else u.bump Reg.stemCmdCnt) := by
    have one := h.trans (bump u Reg.stemCmdCnt (by decide) (by decide))
    split
    · exact one.trans (bump _ Reg.stemErrCnt (by decide) (by decide))
    · exact one
  unfold State.reply
  dsimp only
  have written (r : Reply) (x : StemSt) (e : Bool) (hr : r.chan = c) :
      s.OnlyReported ({ s with stem := x }.replyWrite r (decide (c < 16) && e)) :=
    (stem s x).trans (replyWrite _ _ _ (by
      intro he
      simp only [Bool.and_eq_true, decide_eq_true_eq] at he
      omega))
  split
  · exact (counted _ (written _ _ _ rfl)).trans (fset_ring _ _ _ _ _ (by omega))
  · exact (counted _ (written _ _ _ rfl)).trans (stem _ _)

theorem attn (s : State) (k : Nat) (hk : k < 16) : s.OnlyReported (s.attn k) := by
  have raised (l : List Nat) (hl : ∀ c ∈ l, c < 20) (u : State) (hu : s.OnlyReported u) :
      s.OnlyReported (l.foldl (fun s c => s.fset ⟨Reg.stemAttn c, 16 + k, 1⟩ 1) u) := by
    induction l generalizing u with
    | nil => exact hu
    | cons c r ih =>
      have hc := hl c (List.mem_cons_self ..)
      refine ih (fun c hc => hl c (List.mem_cons_of_mem _ hc)) _ (hu.trans (fset u ⟨Reg.stemAttn c, 16 + k, 1⟩ 1 ?_ ?_ ?_))
      · simp only [Reg.stemAttn]
        omega
      · exact Nat.le_add_right_of_le (by decide)
      · show 16 + k + 1 ≤ 32
        omega
  unfold State.attn
  exact State.watchCheck_all s.OnlyReported _ (raised _ (fun c hc => List.mem_range.1 hc) s (refl s))
    fun u c w hu => hu.trans ((reply u c _ _ _ _ _ _).trans (stem _ _))

/-! #### What a generator's reading depends on -/

section
variable {s u : State} (h : s.OnlyReported u)
include h

theorem fget (f : Field) (hb : f.addr / 65536 = 0 ∨ f.addr / 65536 = 7) : u.fget f = s.fget f := State.fget_congr _ _ _ (h.regs _ hb)

theorem rasters : u.rasters = s.rasters := by rw [h.rest]
theorem twin : u.twin = s.twin := by rw [h.rest]
theorem rastSt (t : Trunk) (g : Nat) : u.rastSt t g = s.rastSt t g := by
  simp only [State.rastSt, h.rasters]

theorem compareActive : u.compareActive = s.compareActive := congrArg (· != 0) (h.fget Reg.TreeMode.compareActive (.inl rfl))

theorem computes (t : Trunk) : u.computes t = s.computes t := by
  have state : u.trunkState t = s.trunkState t := by cases t <;> exact h.fget _ (.inr rfl)
  have redundancy : u.redundancy = s.redundancy := h.fget _ (.inl rfl)
  have switching : u.fwSwitch = s.fwSwitch := by rw [h.rest]
  simp only [State.computes, state, redundancy, switching, h.twin]

theorem rastRec? (t : Trunk) (g : Nat) : u.rastRec? t g = s.rastRec? t g := by
  have redundancy : u.redundancy = s.redundancy := h.fget _ (.inl rfl)
  have records : u.rasterRecs = s.rasterRecs := by rw [h.rest]; rfl
  simp only [State.rastRec?, records, redundancy]

theorem rastActive (t : Trunk) (g : Nat) : u.rastActive t g = s.rastActive t g := by
  have active (f : Field) : u.aget f = s.aget f := by rw [h.rest]; rfl
  simp only [State.rastActive, h.rastRec?, active]

theorem basePos (base : Nat) : u.basePos base = s.basePos base := by
  have locked (n : Nat) : u.hasPos n = s.hasPos n := by simp only [State.hasPos, h.axes]
  have free : u.free = s.free := by rw [h.rest]
  have axis (n : Nat) : u.axis n = s.axis n := by rw [h.rest]; rfl
  simp only [State.basePos, State.axisPos, locked, free, axis]

theorem readDue (f : RastFrame) (j : Nat) : u.readDue f j = s.readDue f j := by simp only [State.readDue, State.nsCome, h.basePos]

theorem rastReady (t : Trunk) (f : RastFrame) : u.rastReady t f = s.rastReady t f := by rw [h.rest]; rfl

end

/-- R157: while no frames are compared, a failed block is counted and reported, and no trunk yields. -/
theorem hwReport (s : State) (t : Trunk) (b : Nat) (p : Nat × Nat × Nat) (inForce : Bool) (hc : s.compareActive = false) :
    s.OnlyReported (s.hwReport t b p inForce) := by
  have counted : s.OnlyReported (s.bump (Reg.crownHwErrCnt t)) := by
    cases t <;> exact bump s _ (by decide) (by decide)
  have reported (e : Event) : s.OnlyReported ((s.bump (Reg.crownHwErrCnt t)).pushEvent e).attnFault :=
    (counted.trans (pushEvent _ e)).trans (attn _ 0 (by decide))
  have alone (u : State) (h : s.OnlyReported u) : u.yieldOn t 3 = u := if_pos (by rw [h.compareActive, hc]; rfl)
  unfold State.hwReport
  dsimp only
  unfold State.trunkEvent
  rw [alone _ (reported _)]
  exact reported _

theorem foldl_fst {α β : Type} {s : State} (f : State × β → α → State × β) (hf : ∀ a x, s.OnlyReported a.1 → s.OnlyReported (f a x).1)
    (l : List α) (a : State × β) (ha : s.OnlyReported a.1) : s.OnlyReported (l.foldl f a).1 := by
  induction l generalizing a with
  | nil => exact ha
  | cons x r ih => exact ih _ (hf a x ha)

theorem hwReads (s : State) (t : Trunk) (c which : Nat) (l : List HwRead) (h : s.compareActive = false ∨ l = []) :
    s.OnlyReported (s.hwReads t c which l).1 := by
  obtain hc | rfl := h
  · unfold State.hwReads
    refine foldl_fst _ (fun a r ha => ?_) l (s, []) (refl s)
    repeat' split
    · exact ha
    · exact ha.trans (hwReport _ _ _ _ _ (ha.compareActive.trans hc))
    · exact ha
  · exact refl s

end State.OnlyReported

/-! ### The trunks that run an output -/

/-- What an update leaves in each trunk, it leaves where it reaches the trunks of an output. -/
theorem State.onRast_eq {α : Type} (p : State → α) (f : Trunk → State → State) (hf : ∀ t u, p (f t u) = p u) (s : State) (t : Trunk) :
    p (s.onRast t f) = p s := by
  unfold State.onRast State.onTrunks
  dsimp only
  repeat' split
  all_goals simp only [hf]

/-- A scan position that the root marks changes the tag, the root's side and what its events set. -/
theorem State.rastMark_eq {α : Type} (p : State → α) (hp : ∀ u : State, p u.nextTag = p u) (ho : ∀ (u : State) k o, p (u.putRastOut k o) = p u)
    (he : ∀ (u : State) t g i, p (u.rastEvent t g i) = p u) (s : State) (t : Trunk) (g : Nat) (f : RastFrame) (j : Nat) :
    p (s.rastMark t g f j) = p s := by
  unfold State.rastMark
  dsimp only
  refine (apply_ite p _ s _).trans ?_
  rw [State.onRast_eq p, ho, hp, ite_self]
  intro k u
  repeat' split
  all_goals simp only [he]

theorem State.rastMark_rasters (s : State) (t : Trunk) (g : Nat) (f : RastFrame) (j : Nat) : (s.rastMark t g f j).rasters = s.rasters :=
  State.rastMark_eq State.rasters (fun _ => rfl) (fun _ _ _ => rfl) (fun _ _ _ _ => rfl) s t g f j

theorem State.rastMark_twin (s : State) (t : Trunk) (g : Nat) (f : RastFrame) (j : Nat) : (s.rastMark t g f j).twin = s.twin :=
  State.rastMark_eq State.twin (fun _ => rfl) (fun _ _ _ => rfl) (fun _ _ _ _ => rfl) s t g f j

/-! ### The reading of a line (R188, R192) -/

theorem State.rastSt_putRast (s : State) (t : Trunk) (g : Nat) (x : RastSt) : (s.putRast t g x).rastSt t g = x := Tab.get_set_self _ _ _ _

theorem State.putRast_twin (s : State) (t : Trunk) (g : Nat) (x : RastSt) : (s.putRast t g x).twin = s.twin := rfl

theorem State.putTrunk_twin (s : State) (t : Trunk) (x : TrunkSt) : (s.putTrunk t x).twin = s.twin := rfl

/-- R302: a unit joins those the trunk has handed over. -/
theorem State.outbox_handOver (s : State) (t : Trunk) (u : CUnit) :
    (s.handOver t u).twin.outbox.get [] t.idx = s.twin.outbox.get [] t.idx ++ [u] := Tab.get_set_self _ _ _ _

theorem State.rastSt_rastMark (s : State) (t : Trunk) (g : Nat) (f : RastFrame) (j : Nat) : (s.rastMark t g f j).rastSt t g = s.rastSt t g := by
  simp only [State.rastSt, State.rastMark_rasters]

/-- R188: a blanking line before the picture: the scan goes on to the next line. -/
theorem State.rastSt_rastScan_blanking (s : State) (t : Trunk) (g : Nat) (f : RastFrame) (bad : List Nat)
    (hv : (s.rastSt t g).line < f.vStart) (hn : (s.rastSt t g).line + 1 < f.vTotal) :
    (s.rastScan t g f bad).rastSt t g = { s.rastSt t g with line := (s.rastSt t g).line + 1 } := by
  have blanking : (!(decide (f.vStart ≤ (s.rastSt t g).line) && decide ((s.rastSt t g).line < f.vStart + f.vActive))) = true := by
    simp [Nat.not_le.2 hv]
  unfold State.rastScan
  dsimp only
  rw [if_pos blanking, if_neg (by omega), if_neg (by simp; omega), State.rastSt_putRast, State.rastSt_rastMark]
  rfl

/-- R192: the compare unit of an active line. -/
def State.lineUnit (s : State) (t : Trunk) (g : Nat) (f : RastFrame) (j : Nat) (bad : List Nat) : CUnit :=
  let q := f.n * f.vTotal + j
  { code := 0x0A00 + g, seq := q,
    out := { data := lineCodes (s.scanLine t g f j (s.rastSubst f) bad q), seq := q, len := f.vTotal, burst := f.n, part := j } }

/-- R188, R192: an active line: it is handed over as a compare unit, and the scan goes on to the next line. -/
theorem State.rastScan_active (s : State) (t : Trunk) (g : Nat) (f : RastFrame) (bad : List Nat)
    (hv : f.vStart ≤ (s.rastSt t g).line) (ha : (s.rastSt t g).line < f.vStart + f.vActive) (hn : (s.rastSt t g).line + 1 < f.vTotal) :
    ((s.rastScan t g f bad).rastSt t g).line = (s.rastSt t g).line + 1 ∧
      (s.rastScan t g f bad).twin.outbox.get [] t.idx = s.twin.outbox.get [] t.idx ++
        [(s.fset (Reg.RastStatus.fbPrevInUse t g) 0).lineUnit t g f (s.rastSt t g).line bad] := by
  have active : ¬(!(decide (f.vStart ≤ (s.rastSt t g).line) && decide ((s.rastSt t g).line < f.vStart + f.vActive))) = true := by
    simp [hv, ha]
  unfold State.rastScan
  extract_lets j cleared act last subst q l codes shown tr kept handed x0 x1 read marked passed x
  have hread : read.twin = handed.twin := (congrArg State.twin (if_neg active)).trans (State.putRast_twin _ _ _ _)
  have hpassed : passed = marked := if_neg (by
    rw [beq_iff_eq]
    exact Nat.ne_of_lt ha)
  rw [if_neg (Nat.not_le.2 hn)]
  constructor
  · rw [State.rastSt_putRast]
  · have hkept : kept.twin = s.twin := (State.putTrunk_twin _ _ _).trans ((State.fsetB_twin _ _ _).trans (State.fset_twin _ _ _))
    rw [State.putRast_twin, hpassed, State.rastMark_twin read t g f j, hread, State.outbox_handOver, hkept]
    rfl

/-- R188: a generator that has a frame in hand reads its next line, once that is due and its canvas frame is complete. -/
theorem State.rastRead_due (s : State) (t : Trunk) (g : Nat) (f : RastFrame) (bad : List Nat) (hc : s.computes t = true)
    (ha : s.rastActive t g = true) (hf : (s.rastSt t g).cur = some f) (hd : s.readDue f (s.rastSt t g).line = true)
    (hr : s.rastReady t f = true) : s.rastRead t g bad = s.rastScan t g f bad := by
  unfold State.rastRead
  dsimp only
  rw [if_neg (by simp [hc, ha]), hf]
  exact if_pos (by rw [hd, hr]; rfl)

/-- R157, R188: while no frames are compared, or where no heartwood block is read, the blocks read for a line change nothing that its
reading depends on. -/
theorem State.rastReadLine_due (s : State) (t : Trunk) (g : Nat) (bs : List HwRead) (f : RastFrame) (hc : s.computes t = true)
    (ha : s.rastActive t g = true) (hb : s.compareActive = false ∨ bs = []) (hf : (s.rastSt t g).cur = some f)
    (hd : s.readDue f (s.rastSt t g).line = true) (hr : s.rastReady t f = true) :
    ∃ u bad, s.OnlyReported u ∧ s.rastReadLine t g bs = u.rastScan t g f bad := by
  have h := State.OnlyReported.hwReads s t (s.ownCanvas (rasterCanvas (s.rastRec t g))) 1 bs hb
  refine ⟨_, _, h, State.rastRead_due _ t g f _ ?_ ?_ ?_ ?_ ?_⟩
  · rw [h.computes, hc]
  · rw [h.rastActive, ha]
  · rw [h.rastSt, hf]
  · rw [h.readDue, h.rastSt, hd]
  · rw [h.rastReady, hr]

/-! ### The pad (R193, R201, R202) -/

/-- The pad follows an output under one key, whichever trunk's generator it follows. -/
theorem State.rastKey_padTrunk (s : State) (t : Trunk) (g : Nat) : s.rastKey (s.padTrunk t) g = s.rastKey t g := by
  unfold State.rastKey
  split
  · rw [State.padTrunk, if_pos (.inl ‹_›)]
  · rfl

/-- An update of one output's root side that keeps its frame keeps every output's frame. -/
theorem State.rastOut_putRastOut_frame (s : State) (k n : Nat) (x : RasterOut) (h : x.frame = (s.rastOut k).frame) :
    ((s.putRastOut k x).rastOut n).frame = (s.rastOut n).frame := by
  simp only [State.rastOut, State.putRastOut, Tab.get_set]
  split
  · subst_vars
    exact h
  · rfl

theorem State.rastOut_putRastOut (s : State) (k : Nat) (x : RasterOut) : (s.putRastOut k x).rastOut k = x := Tab.get_set_self _ _ _ _

theorem State.sendSdi_sent (s : State) (t : Trunk) (g : Nat) (f : RastFrame) (j : Nat) (active black : Bool) (codes : List Nat) :
    ∃ out, (s.sendSdi t g f j active black codes).sent = s.sent ++ [.raster t g j black out] := ⟨_, rfl⟩

theorem State.rastOut_sendSdi_frame (s : State) (t : Trunk) (g : Nat) (f : RastFrame) (j : Nat) (active black : Bool) (codes : List Nat) (n : Nat) :
    ((s.sendSdi t g f j active black codes).rastOut n).frame = (s.rastOut n).frame :=
  State.rastOut_putRastOut_frame s _ n _ rfl

theorem State.rastOut_foldl_emit {α : Type} (x : State → α → Sent) (l : List α) (s : State) (n : Nat) :
    (l.foldl (fun s a => s.emit (x s a)) s).rastOut n = s.rastOut n := by
  induction l generalizing s with
  | nil => rfl
  | cons a r ih => exact ih _

theorem State.rastOut_sendIp_frame (s : State) (t : Trunk) (g : Nat) (f : RastFrame) (j : Nat) (black : Bool) (codes : List Nat) (n : Nat) :
    ((s.sendIp t g f j black codes).rastOut n).frame = (s.rastOut n).frame := by
  unfold State.sendIp
  dsimp only
  exact (congrArg RasterOut.frame (State.rastOut_foldl_emit (fun s p => _) _ _ n)).trans (State.rastOut_putRastOut_frame s _ n _ rfl)

/-- The root's side of the raster outputs, and what has left the module. -/
def State.padSide (s : State) : Tab RasterOut × List Sent := (s.rasterOut, s.sent)

theorem State.rastOut_of_padSide {s u : State} (h : u.padSide = s.padSide) (k : Nat) : u.rastOut k = s.rastOut k :=
  congrArg (Tab.get ({} : RasterOut) · k) (Prod.mk.inj h).1

theorem State.padSide_nextTag (s : State) : s.nextTag.padSide = s.padSide := rfl

theorem State.padSide_rastEvent (s : State) (t : Trunk) (g i : Nat) : (s.rastEvent t g i).padSide = s.padSide := rfl

theorem State.padSide_onRast (f : Trunk → State → State) (hf : ∀ t u, (f t u).padSide = u.padSide) (s : State) (t : Trunk) :
    (s.onRast t f).padSide = s.padSide := State.onRast_eq State.padSide f hf s t

/-- R193: the next line of the frame at the pad leaves once it is due, and the pad goes on to the line after it. A frame or an underrun line
counted in the trunks changes nothing on the root's side. -/
theorem State.rastPad_due (s : State) (t : Trunk) (g : Nat) (tap : Option (List (BitVec 16))) (f : RastFrame) (src : Option Nat)
    (hs : s.noTrunk = false) (hf : s.padFrame (s.padTrunk t) g = some (f, src)) (hd : s.padDue f (s.rastOut (s.rastKey t g)).line = true)
    (hn : (s.rastOut (s.rastKey t g)).line + 1 < f.vTotal) :
    ∃ (u : State) (o : RasterOut), s.rastPad t g tap = u.putRastOut (s.rastKey t g) o ∧ o.line = (s.rastOut (s.rastKey t g)).line + 1 ∧
      o.frame = (s.rastOut (s.rastKey t g)).frame ∧
      (State.isSdi (s.rastRec (s.padTrunk t) g) = true →
        ∃ black out, u.sent = s.sent ++ [.raster (s.padTrunk t) g (s.rastOut (s.rastKey t g)).line black out]) := by
  rw [← s.rastKey_padTrunk t] at hd hn ⊢
  have atPad : (if s.noTrunk then none else s.padFrame (s.padTrunk t) g) = some (f, src) := by rw [hs]; exact hf
  unfold State.rastPad
  extract_lets p k j r
  split
  case h_1 absent => exact nomatch atPad.symm.trans absent
  case h_2 f' src' present =>
    cases Option.some.inj (atPad.symm.trans present)
    rw [if_neg (by rw [hd]; decide)]
    extract_lets counted active line black codes reported sent o seen run ends left
    have hends : ends = false := decide_eq_false (Nat.not_le.2 hn)
    have hcounted : counted.padSide = s.padSide := by
      unfold counted
      split
      · exact State.padSide_onRast _ (by intro _ _; rfl) s p
      · rfl
    have hreported : reported.padSide = s.padSide := by
      unfold reported
      split
      · rw [State.padSide_onRast _ (by intro k u; exact (State.padSide_rastEvent _ k g 3).trans rfl), State.padSide_nextTag, hcounted]
      · exact hcounted
    have hframe : o.frame = (s.rastOut k).frame := by
      rw [← State.rastOut_of_padSide hreported k]
      unfold o sent
      repeat' split
      · exact State.rastOut_sendSdi_frame reported p g f j active black codes k
      · exact State.rastOut_sendIp_frame reported p g f j black codes k
      · rfl
    refine ⟨sent, _, if_neg (by rw [hends]; decide), if_neg (by rw [hends]; decide), (if_neg (by rw [hends]; decide)).trans hframe, fun sdi => ?_⟩
    obtain ⟨out, hout⟩ := State.sendSdi_sent reported p g f j active black codes
    have hsent : sent = reported.sendSdi p g f j active black codes := if_pos sdi
    exact ⟨black, out, by rw [hsent, hout, (Prod.mk.inj hreported).2]⟩

/-! ### The statement -/

/-- Settles O33, clause by clause: each command is its operation on a module that runs, and the operation's lemma says what stands then. -/
theorem rasterCommandsComplete : Obligations.RasterCommandsComplete := by
  unfold Obligations.RasterCommandsComplete
  refine ⟨?commit, ?checked, ?blanking, ?active, ?pad⟩
  case commit =>
    intro k g s h hm hr hb
    refine ⟨_, act_of_running s _ h, ?_⟩
    rw [if_pos hm]
    exact s.fbit_busy_rastCommitWrite k g hr hb
  case checked =>
    intro k g s h hb
    obtain ⟨hbusy, hcode⟩ := Prod.mk.inj (s.commitCheck_rastCommitDone k g hb)
    exact ⟨_, act_of_running s (·.rastCommitDone k g) h, hbusy, hcode⟩
  case blanking =>
    intro k g bs f s h hc ha hbs hf hd hr hn hv
    obtain ⟨u, bad, hu, hread⟩ := s.rastReadLine_due k g bs f hc ha hbs hf hd hr
    rw [← hu.rastSt] at hf hn hv ⊢
    have next := u.rastSt_rastScan_blanking k g f bad hv hn
    exact ⟨_, act_of_running s (·.rastReadLine k g bs) h, by rw [hread, next, hf], by rw [hread, next]⟩
  case active =>
    intro k g bs f s h hc ha hbs hf hd hr hn hv hl
    obtain ⟨u, bad, hu, hread⟩ := s.rastReadLine_due k g bs f hc ha hbs hf hd hr
    rw [← hu.rastSt] at hn hv hl ⊢
    obtain ⟨next, unit⟩ := u.rastScan_active k g f bad hv hl hn
    rw [← hread] at next unit
    exact ⟨_, _, act_of_running s (·.rastReadLine k g bs) h, next, hu.twin ▸ unit, rfl, rfl⟩
  case pad =>
    intro k g tap f src s h hs hf j hd hn
    obtain ⟨u, o, hpad, hline, hframe, hsent⟩ := s.rastPad_due k g tap f src hs hf hd hn
    refine ⟨_, act_of_running s (·.rastPad k g tap) h, ?_⟩
    rw [hpad, State.rastOut_putRastOut]
    exact ⟨hline, hframe, hsent⟩

end Sys2Proof.Machine
end

section
/-! PROOFS. The line parts of a state: ports, switch, DMX512 and sap lines, E1.31 streams, and the reports of leaves and nodes, seen through
what a list of parts gives up. -/

namespace Sys2Proof.Machine

open Sys2Proof.Safety (Part)

/-- The parts that the frame of the lines speaks of. -/
def lineParts : List Part := [.leaves, .nodes, .ports, .switch, .dmx, .saps, .e131]

/-- The value of a part; `none` where `K` gives the part up. -/
def kept {α : Type} (K : List Part) (p : Part) (x : α) : Option α := if p ∈ K then none else some x

@[simp] theorem kept_of_mem {α : Type} {K : List Part} {p : Part} (h : p ∈ K) (x : α) : kept K p x = none := if_pos h

theorem kept_eq_iff {α : Type} {K : List Part} {p : Part} (h : p ∉ K) (x y : α) : kept K p x = kept K p y ↔ x = y := by simp [kept, h]

/-- What is kept of the line parts. -/
structure LineView where
  leaves : Option (Tab (List (Int × Nat × Nat)) × Tab (Nat × List Nat) × List Nat × List Nat)
  nodes : Option (Tab (List (Int × Nat × Nat)) × Tab (List Byte))
  ports : Option (Tab PortSt)
  switch : Option (List SwEntry × List (Nat × List Byte × Nat × Nat))
  dmx : Option (Tab DmxSt)
  saps : Option (Tab SapSt)
  e131 : Option (Tab (List E131Src) × Tab E131Tx)

/-- The view of the seven parts, each from the fields of `State` that `Safety.Part.same` gives it. -/
def lineView (K : List Part) (leaves : Tab (List (Int × Nat × Nat)) × Tab (Nat × List Nat) × List Nat × List Nat)
    (nodes : Tab (List (Int × Nat × Nat)) × Tab (List Byte)) (ports : Tab PortSt) (switch : List SwEntry × List (Nat × List Byte × Nat × Nat))
    (dmx : Tab DmxSt) (saps : Tab SapSt) (e131 : Tab (List E131Src) × Tab E131Tx) : LineView :=
  ⟨kept K .leaves leaves, kept K .nodes nodes, kept K .ports ports, kept K .switch switch, kept K .dmx dmx, kept K .saps saps, kept K .e131 e131⟩

/-- The line parts of a state, but for those that `K` gives up. An operation that touches no part outside `K` keeps this view. -/
def State.lines (K : List Part) : State → LineView
  | { leafTemp, leafStatus, thin, shedLeaves, nodeTemp, diag, ports, swTable, tcSync, dmx, saps, e131rx, e131tx, .. } =>
    lineView K (leafTemp, leafStatus, thin, shedLeaves) (nodeTemp, diag) ports (swTable, tcSync) dmx saps (e131rx, e131tx)

/-! ### Updates of a state -/

/-- The view of an update is the view of its fields; `lineView_self` and the lemmas after it read it as the view of the state updated. -/
@[simp] theorem State.lines_mk : type_of% @State.lines.eq_1 := State.lines.eq_1

@[simp] theorem lineView_self (K : List Part) (s : State) :
    lineView K (s.leafTemp, s.leafStatus, s.thin, s.shedLeaves) (s.nodeTemp, s.diag) s.ports (s.swTable, s.tcSync) s.dmx s.saps (s.e131rx, s.e131tx) =
      s.lines K := rfl

@[simp] theorem lineView_leaves {K : List Part} (hK : .leaves ∈ K) (s : State) (x) :
    lineView K x (s.nodeTemp, s.diag) s.ports (s.swTable, s.tcSync) s.dmx s.saps (s.e131rx, s.e131tx) = s.lines K := by
  simp only [← lineView_self K s, lineView, kept_of_mem hK]

@[simp] theorem lineView_nodes {K : List Part} (hK : .nodes ∈ K) (s : State) (x) :
    lineView K (s.leafTemp, s.leafStatus, s.thin, s.shedLeaves) x s.ports (s.swTable, s.tcSync) s.dmx s.saps (s.e131rx, s.e131tx) = s.lines K := by
  simp only [← lineView_self K s, lineView, kept_of_mem hK]

@[simp] theorem lineView_ports {K : List Part} (hK : .ports ∈ K) (s : State) (x) :
    lineView K (s.leafTemp, s.leafStatus, s.thin, s.shedLeaves) (s.nodeTemp, s.diag) x (s.swTable, s.tcSync) s.dmx s.saps (s.e131rx, s.e131tx) =
      s.lines K := by
  simp only [← lineView_self K s, lineView, kept_of_mem hK]

@[simp] theorem lineView_switch {K : List Part} (hK : .switch ∈ K) (s : State) (x) :
    lineView K (s.leafTemp, s.leafStatus, s.thin, s.shedLeaves) (s.nodeTemp, s.diag) s.ports x s.dmx s.saps (s.e131rx, s.e131tx) = s.lines K := by
  simp only [← lineView_self K s, lineView, kept_of_mem hK]

@[simp] theorem lineView_dmx {K : List Part} (hK : .dmx ∈ K) (s : State) (x) :
    lineView K (s.leafTemp, s.leafStatus, s.thin, s.shedLeaves) (s.nodeTemp, s.diag) s.ports (s.swTable, s.tcSync) x s.saps (s.e131rx, s.e131tx) =
      s.lines K := by
  simp only [← lineView_self K s, lineView, kept_of_mem hK]

@[simp] theorem lineView_saps {K : List Part} (hK : .saps ∈ K) (s : State) (x) :
    lineView K (s.leafTemp, s.leafStatus, s.thin, s.shedLeaves) (s.nodeTemp, s.diag) s.ports (s.swTable, s.tcSync) s.dmx x (s.e131rx, s.e131tx) =
      s.lines K := by
  simp only [← lineView_self K s, lineView, kept_of_mem hK]

@[simp] theorem lineView_e131 {K : List Part} (hK : .e131 ∈ K) (s : State) (x) :
    lineView K (s.leafTemp, s.leafStatus, s.thin, s.shedLeaves) (s.nodeTemp, s.diag) s.ports (s.swTable, s.tcSync) s.dmx s.saps x = s.lines K := by
  simp only [← lineView_self K s, lineView, kept_of_mem hK]

/-- The queues of all outputs change at once. -/
theorem lineView_outputs {K : List Part} (hK : .ports ∈ K ∧ .dmx ∈ K ∧ .saps ∈ K) (s : State) (x y z) :
    lineView K (s.leafTemp, s.leafStatus, s.thin, s.shedLeaves) (s.nodeTemp, s.diag) x (s.swTable, s.tcSync) y z (s.e131rx, s.e131tx) = s.lines K := by
  simp only [← lineView_self K s, lineView, kept_of_mem hK.1, kept_of_mem hK.2.1, kept_of_mem hK.2.2]

/-! ### Branches and folds -/

@[simp] theorem State.lines_ite {c : Prop} [Decidable c] (K : List Part) (s t : State) :
    (if c then s else t).lines K = if c then s.lines K else t.lines K := apply_ite _ _ _ _

/-- A fold keeps what each of its steps keeps. -/
theorem foldl_keeps {α β γ : Type} (v : β → γ) (f : β → α → β) (hf : ∀ b a, v (f b a) = v b) (l : List α) (b : β) : v (l.foldl f b) = v b := by
  induction l generalizing b with
  | nil => rfl
  | cons a r ih => exact (ih _).trans (hf b a)

variable (K : List Part)

@[simp] theorem State.foldl_lines {α : Type} (f : State → α → State) (hf : ∀ u x, (f u x).lines K = u.lines K) (l : List α) (s : State) :
    (l.foldl f s).lines K = s.lines K := foldl_keeps (State.lines K) f hf l s

theorem State.foldl_fst_lines {α β : Type} (f : State × β → α → State × β) (hf : ∀ a x, (f a x).1.lines K = a.1.lines K) (l : List α) (a : State × β) :
    (l.foldl f a).1.lines K = a.1.lines K := foldl_keeps (fun a => a.1.lines K) f hf l a

theorem State.foldl_snd_lines {α β : Type} (f : β × State → α → β × State) (hf : ∀ a x, (f a x).2.lines K = a.2.lines K) (l : List α) (a : β × State) :
    (l.foldl f a).2.lines K = a.2.lines K := foldl_keeps (fun a => a.2.lines K) f hf l a

/-! ### The frame from the view -/

section
variable {K} {s t : State}

/-- Where every line part is given up, the view says nothing. -/
theorem lines_of_all (hK : lineParts ⊆ K) : t.lines K = s.lines K := by
  simp only [lineParts, List.cons_subset] at hK
  simp only [← lineView_self, lineView, kept_of_mem, hK]

/-- A part that is not given up stands alike in two states of one view. -/
theorem same_of_lines (h : t.lines K = s.lines K) {p : Part} (hp : p ∈ lineParts) (hK : p ∉ K) : p.same s t := by
  simp only [← lineView_self, lineView, LineView.mk.injEq] at h
  obtain ⟨leaves, nodes, ports, switch, dmx, saps, e131⟩ := h
  simp only [lineParts, List.mem_cons, List.not_mem_nil, or_false] at hp
  rcases hp with rfl | rfl | rfl | rfl | rfl | rfl | rfl
  · simpa [kept_eq_iff hK, Part.same] using leaves
  · simpa [kept_eq_iff hK, Part.same] using nodes
  · exact (kept_eq_iff hK _ _).1 ports
  · simpa [kept_eq_iff hK, Part.same] using switch
  · exact (kept_eq_iff hK _ _).1 dmx
  · exact (kept_eq_iff hK _ _).1 saps
  · simpa [kept_eq_iff hK, Part.same] using e131

end

end Sys2Proof.Machine
end


section
/-! PROOFS. What the operations of registers, axes, memory, the crown, interrupts, rasters, schedulers, guest cores and queue blocks
keep of the line parts, one lemma an operation: it gives up the parts that the operation touches. -/

namespace Sys2Proof.Machine

open Sys2Proof.Safety (Part)

variable (K : List Part)

/-! ### Registers, logs, replies and attention -/

@[simp] theorem State.setReg_lines (s : State) (a : Nat) (w : Word) : (s.setReg a w).lines K = s.lines K := by simp [State.setReg]
@[simp] theorem State.setRegN_lines (s : State) (a v : Nat) : (s.setRegN a v).lines K = s.lines K := by simp [State.setRegN]
@[simp] theorem State.noteSet_lines (s : State) (f : Field) (v : Nat) : (s.noteSet f v).lines K = s.lines K := by simp [State.noteSet]

@[simp] theorem State.keepAgain_lines (s : State) (a : Nat) (l : List (Nat × Nat)) : (s.keepAgain a l).lines K = s.lines K := by
  simp [State.keepAgain]

@[simp] theorem State.fset_lines (s : State) (f : Field) (v : Nat) : (s.fset f v).lines K = s.lines K := by simp [State.fset]
@[simp] theorem State.fsetB_lines (s : State) (f : Field) (b : Bool) : (s.fsetB f b).lines K = s.lines K := by simp [State.fsetB]
@[simp] theorem State.bumpBy_lines (s : State) (a n : Nat) : (s.bumpBy a n).lines K = s.lines K := by simp [State.bumpBy]
@[simp] theorem State.bump_lines (s : State) (a : Nat) : (s.bump a).lines K = s.lines K := by simp [State.bump]
@[simp] theorem State.fmax_lines (s : State) (f : Field) (v : Nat) : (s.fmax f v).lines K = s.lines K := by simp [State.fmax]
@[simp] theorem State.regMax_lines (s : State) (a v : Nat) : (s.regMax a v).lines K = s.lines K := by simp [State.regMax]
@[simp] theorem State.setReg64_lines (s : State) (lo hi v : Nat) : (s.setReg64 lo hi v).lines K = s.lines K := by simp [State.setReg64]
@[simp] theorem State.setReg96_lines (s : State) (lo mid hi v : Nat) : (s.setReg96 lo mid hi v).lines K = s.lines K := by simp [State.setReg96]
@[simp] theorem State.shadowToPend_lines (s : State) (as : List Nat) : (s.shadowToPend as).lines K = s.lines K := by simp [State.shadowToPend]
@[simp] theorem State.pendToAct_lines (s : State) (as : List Nat) : (s.pendToAct as).lines K = s.lines K := by simp [State.pendToAct]
@[simp] theorem State.setShadow_lines (s : State) (a v : Nat) : (s.setShadow a v).lines K = s.lines K := by simp [State.setShadow]
@[simp] theorem State.nextTag_lines (s : State) : s.nextTag.lines K = s.lines K := by simp [State.nextTag]
@[simp] theorem State.onTrunks_lines (s : State) (p : State → Trunk → Bool) (f : Trunk → State → State) (hf : ∀ k u, (f k u).lines K = u.lines K) :
    (s.onTrunks p f).lines K = s.lines K := by simp [State.onTrunks, hf]
@[simp] theorem State.draw_lines (s : State) (n : Nat) : (s.draw n).2.lines K = s.lines K := by simp [State.draw]
@[simp] theorem State.emit_lines (s : State) (x : Sent) : (s.emit x).lines K = s.lines K := by simp [State.emit]
@[simp] theorem State.setAxis_lines (s : State) (n : Nat) (a : AxisSt) : (s.setAxis n a).lines K = s.lines K := by simp [State.setAxis]
@[simp] theorem State.pushEvent_lines (s : State) (e : Event) : (s.pushEvent e).lines K = s.lines K := by simp [State.pushEvent]
@[simp] theorem State.rootEvent_lines (s : State) (base code cls : Nat) (args : List Byte) :
    (s.rootEvent base code cls args).lines K = s.lines K := by simp [State.rootEvent]
@[simp] theorem State.trunkEvent_lines (s : State) (t : Trunk) (base code cls : Nat) (args : List Byte) :
    (s.trunkEvent t base code cls args).lines K = s.lines K := by simp [State.trunkEvent]
@[simp] theorem State.statusEvent_lines (s : State) (f : Field) (cls : Nat) : (s.statusEvent f cls).lines K = s.lines K := by simp [State.statusEvent]
@[simp] theorem State.flag_lines (s : State) (f : Field) (cls : Nat) : (s.flag f cls).lines K = s.lines K := by simp [State.flag]
@[simp] theorem State.ringStop_lines (s : State) (r : Nat) (f : Field) : (s.ringStop r f).lines K = s.lines K := by simp [State.ringStop]
@[simp] theorem State.replyWrite_lines (s : State) (r : Reply) (err : Bool) : (s.replyWrite r err).lines K = s.lines K := by simp [State.replyWrite]
@[simp] theorem State.reply_lines (s : State) (c tag opcode code : Nat) (result data : List Byte) (windfall : Bool) :
    (s.reply c tag opcode code result data windfall).lines K = s.lines K := by simp [State.reply]

@[simp] theorem State.watchReply_lines (s : State) (c : Nat) (w : Watch) (code : Nat) : (s.watchReply c w code).lines K = s.lines K := by
  simp [State.watchReply]

@[simp] theorem State.watchCheck_lines (s : State) : s.watchCheck.lines K = s.lines K := by simp [State.watchCheck]
@[simp] theorem State.attn_lines (s : State) (k : Nat) : (s.attn k).lines K = s.lines K := by simp [State.attn]
@[simp] theorem State.attnFault_lines (s : State) : s.attnFault.lines K = s.lines K := by simp [State.attnFault]
@[simp] theorem State.attnFailover_lines (s : State) : s.attnFailover.lines K = s.lines K := by simp [State.attnFailover]
@[simp] theorem State.attnSafety_lines (s : State) : s.attnSafety.lines K = s.lines K := by simp [State.attnSafety]
@[simp] theorem State.attnReady_lines (s : State) : s.attnReady.lines K = s.lines K := by simp [State.attnReady]
@[simp] theorem State.attnLeaf_lines (s : State) : s.attnLeaf.lines K = s.lines K := by simp [State.attnLeaf]
@[simp] theorem State.attnTime_lines (s : State) : s.attnTime.lines K = s.lines K := by simp [State.attnTime]
@[simp] theorem State.attnUpdate_lines (s : State) : s.attnUpdate.lines K = s.lines K := by simp [State.attnUpdate]
@[simp] theorem State.attnRecord_lines (s : State) : s.attnRecord.lines K = s.lines K := by simp [State.attnRecord]
@[simp] theorem State.attnBridge_lines (s : State) : s.attnBridge.lines K = s.lines K := by simp [State.attnBridge]
@[simp] theorem State.attnThermal_lines (s : State) : s.attnThermal.lines K = s.lines K := by simp [State.attnThermal]
@[simp] theorem State.setReady_lines (s : State) (f : Field) (b : Bool) : (s.setReady f b).lines K = s.lines K := by simp [State.setReady]

/-! ### Show axes -/

@[simp] theorem State.countFrom_lines (s : State) (key p : Nat) : (s.countFrom key p).lines K = s.lines K := by
  unfold State.countFrom
  split <;> simp

@[simp] theorem State.rebaseCadences_lines (s : State) (n : Nat) : (s.rebaseCadences n).lines K = s.lines K := by simp [State.rebaseCadences]
@[simp] theorem State.setAxisState_lines (s : State) (n v : Nat) : (s.setAxisState n v).lines K = s.lines K := by simp [State.setAxisState]
@[simp] theorem State.rasterStep_lines (s : State) (n : Nat) : (s.rasterStep n).lines K = s.lines K := by simp [State.rasterStep]
@[simp] theorem State.recordStep_lines (s : State) (n : Nat) (fwd : Bool) : (s.recordStep n fwd).lines K = s.lines K := by simp [State.recordStep]
@[simp] theorem State.takePos_lines (s : State) (n p thr : Nat) : (s.takePos n p thr).lines K = s.lines K := by simp [State.takePos]
@[simp] theorem State.setRate_lines (s : State) (n adv : Nat) : (s.setRate n adv).lines K = s.lines K := by simp [State.setRate]

@[simp] theorem State.lockAxis_lines (s : State) (n p adv : Nat) : (s.lockAxis n p adv).lines K = s.lines K := by
  unfold State.lockAxis
  split <;> simp

@[simp] theorem State.fallBack_lines (s : State) (n : Nat) : (s.fallBack n).lines K = s.lines K := by simp [State.fallBack]
@[simp] theorem State.loseAxis_lines (s : State) (n : Nat) : (s.loseAxis n).lines K = s.lines K := by simp [State.loseAxis]
@[simp] theorem State.stepAxis_lines (s : State) (n p : Nat) : (s.stepAxis n p).lines K = s.lines K := by simp [State.stepAxis]
@[simp] theorem State.relockAxis_lines (s : State) (n : Nat) : (s.relockAxis n).lines K = s.lines K := by simp [State.relockAxis]
@[simp] theorem State.snapAxis_lines (s : State) (n : Nat) : (s.snapAxis n).lines K = s.lines K := by simp [State.snapAxis]
@[simp] theorem State.snapAll_lines (s : State) : s.snapAll.lines K = s.lines K := by simp [State.snapAll]

@[simp] theorem State.writeHoldMode_lines (s : State) (n : Nat) (halt : Bool) : (s.writeHoldMode n halt).lines K = s.lines K := by
  simp [State.writeHoldMode]

@[simp] theorem State.pendBit_lines (s : State) (t : Trunk) (src : Nat) : (s.pendBit t src).lines K = s.lines K := by simp [State.pendBit]
@[simp] theorem State.pendSource_lines (s : State) (t : Trunk) (src : Nat) : (s.pendSource t src).lines K = s.lines K := by simp [State.pendSource]
@[simp] theorem State.pendBoth_lines (s : State) (src : Nat) : (s.pendBoth src).lines K = s.lines K := by simp [State.pendBoth]
@[simp] theorem State.evtActions_lines (s : State) (m : Nat) : (s.evtActions m).lines K = s.lines K := by simp [State.evtActions]
@[simp] theorem State.evtFire_lines (s : State) (m : Nat) : (s.evtFire m).lines K = s.lines K := by simp [State.evtFire]
@[simp] theorem State.evtArmOp_lines (s : State) (m : Nat) : (s.evtArmOp m).lines K = s.lines K := by simp [State.evtArmOp]
@[simp] theorem State.evtDisarmOp_lines (s : State) (m : Nat) : (s.evtDisarmOp m).lines K = s.lines K := by simp [State.evtDisarmOp]
@[simp] theorem State.evtBothOp_lines (s : State) (m : Nat) : (s.evtBothOp m).lines K = s.lines K := by simp [State.evtBothOp]
@[simp] theorem State.mainsFollow_lines (s : State) (gap : Nat) : (s.mainsFollow gap).lines K = s.lines K := by simp [State.mainsFollow]
@[simp] theorem State.mainsCross_lines (s : State) (volts : Nat) : (s.mainsCross volts).lines K = s.lines K := by simp [State.mainsCross]

/-! ### Launch bases -/

@[simp] theorem State.safetyLaunched_lines (s : State) (rec : Nat) : (s.safetyLaunched rec).lines K = s.lines K := by
  unfold State.safetyLaunched
  split <;> simp

/-! ### Memory -/

@[simp] theorem State.memWrite_lines (s : State) (a : Nat) (l : List Byte) : (s.memWrite a l).lines K = s.lines K := by simp [State.memWrite]
@[simp] theorem State.memClear_lines (s : State) (a n : Nat) : (s.memClear a n).lines K = s.lines K := by simp [State.memClear]
@[simp] theorem State.memCopy_lines (s : State) (src dst n : Nat) : (s.memCopy src dst n).lines K = s.lines K := by simp [State.memCopy]
@[simp] theorem State.putTrunk_lines (s : State) (t : Trunk) (x : TrunkSt) : (s.putTrunk t x).lines K = s.lines K := by simp [State.putTrunk]

/-! ### The crown of a trunk -/

@[simp] theorem State.putLayer_lines (s : State) (t : Trunk) (n : Nat) (x : LayerSt) : (s.putLayer t n x).lines K = s.lines K := by
  simp [State.putLayer]

@[simp] theorem State.commitWrite_lines (s : State) (t : Trunk) (mask : Nat) : (s.commitWrite t mask).lines K = s.lines K := by
  simp [State.commitWrite]

@[simp] theorem State.pendCommit_lines (s : State) (t : Trunk) (mask : Nat) : (s.pendCommit t mask).lines K = s.lines K := by simp [State.pendCommit]
@[simp] theorem State.layerCommit_lines (s : State) (t : Trunk) (n : Nat) : (s.layerCommit t n).lines K = s.lines K := by simp [State.layerCommit]
@[simp] theorem State.commitDone_lines (s : State) (t : Trunk) : (s.commitDone t).lines K = s.lines K := by simp [State.commitDone]
@[simp] theorem State.layerReadyOp_lines (s : State) (t : Trunk) (n : Nat) : (s.layerReadyOp t n).lines K = s.lines K := by simp [State.layerReadyOp]

@[simp] theorem State.layerActivate_lines (s : State) (t : Trunk) (n : Nat) : (s.layerActivate t n).lines K = s.lines K := by
  simp [State.layerActivate]

@[simp] theorem State.layerCap_lines (s : State) (t : Trunk) (n : Nat) : (s.layerCap t n).lines K = s.lines K := by simp [State.layerCap]

@[simp] theorem State.canvasActivate_lines (s : State) (t : Trunk) (c : Nat) : (s.canvasActivate t c).lines K = s.lines K := by
  simp [State.canvasActivate]

@[simp] theorem State.layerRelease_lines (s : State) (t : Trunk) (n : Nat) : (s.layerRelease t n).lines K = s.lines K := by simp [State.layerRelease]
@[simp] theorem State.layerLate_lines (s : State) (t : Trunk) (n : Nat) : (s.layerLate t n).lines K = s.lines K := by simp [State.layerLate]
@[simp] theorem State.layerEff_lines (s : State) (t : Trunk) (c : Nat) : (s.layerEff t c).lines K = s.lines K := by simp [State.layerEff]
@[simp] theorem State.seedLayer_lines (s : State) (t : Trunk) (n : Nat) : (s.seedLayer t n).lines K = s.lines K := by simp [State.seedLayer]
@[simp] theorem State.seedCanvas_lines (s : State) (t : Trunk) (c : Nat) : (s.seedCanvas t c).lines K = s.lines K := by simp [State.seedCanvas]

@[simp] theorem State.seedCanvases_lines (s : State) (t : Trunk) (p : Nat → Bool) : (s.seedCanvases t p).lines K = s.lines K := by
  simp [State.seedCanvases]

@[simp] theorem State.canvasCompose_lines (s : State) (t : Trunk) (c k pos : Nat) : (s.canvasCompose t c k pos).lines K = s.lines K := by
  simp [State.canvasCompose]

@[simp] theorem State.frameDone_lines (s : State) (t : Trunk) (c : Nat) (failed bad : List Nat) :
    (s.frameDone t c failed bad).lines K = s.lines K := by
  unfold State.frameDone
  split <;> simp

theorem State.freeBuffer_lines {s v : State} {t : Trunk} {c : Nat} (hs : s.freeBuffer t c = some v) : v.lines K = s.lines K := by
  unfold State.freeBuffer at hs
  dsimp only at hs
  split at hs
  · cases hs; rfl
  · split at hs
    · cases hs; simp
    · contradiction

@[simp] theorem State.canvasEpoch_lines (s : State) (t : Trunk) (c k pos : Nat) (thin : Bool) : (s.canvasEpoch t c k pos thin).lines K = s.lines K := by
  unfold State.canvasEpoch
  dsimp only
  split
  · simp
  · split
    · simp
    case h_2 v hv => simp [State.freeBuffer_lines K hv]

@[simp] theorem State.inputFrame_lines (s : State) (rec w h : Nat) (f : InputForm) (whole : Bool) (data : List Nat) :
    (s.inputFrame rec w h f whole data).lines K = s.lines K := by simp [State.inputFrame]

/-! ### Interrupt controllers -/

@[simp] theorem State.setPend_lines (s : State) (t : Trunk) (i : Nat) (b : Bool) : (s.setPend t i b).lines K = s.lines K := by simp [State.setPend]
@[simp] theorem State.putIcu_lines (s : State) (t : Trunk) (x : IcuSt) : (s.putIcu t x).lines K = s.lines K := by simp [State.putIcu]
@[simp] theorem State.claimGive_lines (s : State) (t : Trunk) (c w : Nat) : (s.claimGive t c w).lines K = s.lines K := by simp [State.claimGive]
@[simp] theorem State.claimTake_lines (s : State) (t : Trunk) (c i : Nat) : (s.claimTake t c i).lines K = s.lines K := by simp [State.claimTake]

@[simp] theorem State.claim_lines (s : State) (t : Trunk) (c : Nat) : (s.claim t c).lines K = s.lines K := by
  unfold State.claim
  dsimp only
  repeat' split
  all_goals simp

@[simp] theorem State.atOnce_lines (s : State) (t : Trunk) (i : Nat) : (s.atOnce t i).lines K = s.lines K := by simp [State.atOnce]
@[simp] theorem State.completeSrc_lines (s : State) (t : Trunk) (c i : Nat) : (s.completeSrc t c i).lines K = s.lines K := by simp [State.completeSrc]

@[simp] theorem State.srcEdge_lines (s : State) (t : Trunk) (i : Nat) (level : Bool) : (s.srcEdge t i level).lines K = s.lines K := by
  simp [State.srcEdge]

@[simp] theorem State.maskApply_lines (s : State) (t : Trunk) (set : Bool) (w : Nat) (v : Word) : (s.maskApply t set w v).lines K = s.lines K := by
  simp [State.maskApply]

@[simp] theorem State.maskWrite_lines (s : State) (t : Trunk) (set : Bool) (writer : Option (Fin 8)) (w : Nat) (v : Word) :
    (s.maskWrite t set writer w v).lines K = s.lines K := by simp [State.maskWrite]
@[simp] theorem State.pendSetWrite_lines (s : State) (t : Trunk) (writer : Option (Fin 8)) (w : Nat) (v : Word) :
    (s.pendSetWrite t writer w v).lines K = s.lines K := by simp [State.pendSetWrite]
@[simp] theorem State.pendClrWrite_lines (s : State) (t : Trunk) (writer : Option (Fin 8)) (w : Nat) (v : Word) :
    (s.pendClrWrite t writer w v).lines K = s.lines K := by simp [State.pendClrWrite]
@[simp] theorem State.routeWrite_lines (s : State) (t : Trunk) (writer : Option (Fin 8)) (k : Nat) (v : Word) :
    (s.routeWrite t writer k v).lines K = s.lines K := by simp [State.routeWrite]

@[simp] theorem State.modExpire_lines (s : State) (t : Trunk) (c g : Nat) : (s.modExpire t c g).lines K = s.lines K := by
  unfold State.modExpire
  dsimp only
  repeat' split
  all_goals simp

@[simp] theorem State.icuCapture_lines (s : State) (t : Trunk) : (s.icuCapture t).lines K = s.lines K := by simp [State.icuCapture]

/-! ### Raster outputs -/

@[simp] theorem State.putRast_lines (s : State) (t : Trunk) (g : Nat) (x : RastSt) : (s.putRast t g x).lines K = s.lines K := by simp [State.putRast]
@[simp] theorem State.putRastOut_lines (s : State) (k : Nat) (x : RasterOut) : (s.putRastOut k x).lines K = s.lines K := by simp [State.putRastOut]
@[simp] theorem State.onRast_lines (s : State) (t : Trunk) (f : Trunk → State → State) (hf : ∀ k u, (f k u).lines K = u.lines K) :
    (s.onRast t f).lines K = s.lines K := by simp [State.onRast, hf]
@[simp] theorem State.rastEvent_lines (s : State) (t : Trunk) (g i : Nat) : (s.rastEvent t g i).lines K = s.lines K := by simp [State.rastEvent]
@[simp] theorem State.rastCount_lines (s : State) (t : Trunk) (g : Nat) : (s.rastCount t g).lines K = s.lines K := by simp [State.rastCount]
@[simp] theorem State.rastFresh_lines (s : State) (t : Trunk) (g : Nat) : (s.rastFresh t g).lines K = s.lines K := by simp [State.rastFresh]
@[simp] theorem State.rastTake_lines (s : State) (t : Trunk) (g : Nat) : (s.rastTake t g).lines K = s.lines K := by simp [State.rastTake]

@[simp] theorem State.rastCommitWrite_lines (s : State) (t : Trunk) (g : Nat) : (s.rastCommitWrite t g).lines K = s.lines K := by
  simp [State.rastCommitWrite]

@[simp] theorem State.flip_lines (s : State) (t : Trunk) (g : Nat) (l : Option Nat) : (s.flip t g l).lines K = s.lines K := by
  unfold State.flip
  split <;> simp

@[simp] theorem State.rastRecad_lines (s : State) (t : Trunk) (g : Nat) (next : Option (Nat × Nat)) :
    (s.rastRecad t g next).lines K = s.lines K := by simp [State.rastRecad]
@[simp] theorem State.latchTake_lines (s : State) (t : Trunk) (g : Nat) (f : RastFrame) (tag : Nat) :
    (s.latchTake t g f tag).lines K = s.lines K := by simp [State.latchTake]

@[simp] theorem State.rastCommitDone_lines (s : State) (t : Trunk) (g : Nat) : (s.rastCommitDone t g).lines K = s.lines K := by
  unfold State.rastCommitDone
  dsimp only
  repeat' split
  all_goals simp

@[simp] theorem State.handOver_lines (s : State) (t : Trunk) (u : CUnit) : (s.handOver t u).lines K = s.lines K := by simp [State.handOver]

@[simp] theorem State.rastBegin_lines (s : State) (t : Trunk) (g : Nat) (n : RastFrame × RastSt) : (s.rastBegin t g n).lines K = s.lines K := by
  simp [State.rastBegin]

@[simp] theorem State.rastMark_lines (s : State) (t : Trunk) (g : Nat) (f : RastFrame) (j : Nat) : (s.rastMark t g f j).lines K = s.lines K := by
  simp [State.rastMark]

@[simp] theorem State.rastLatch_lines (s : State) (t : Trunk) (g : Nat) (f : RastFrame) : (s.rastLatch t g f).lines K = s.lines K := by
  simp [State.rastLatch]

@[simp] theorem State.rastScan_lines (s : State) (t : Trunk) (g : Nat) (f : RastFrame) (bad : List Nat) :
    (s.rastScan t g f bad).lines K = s.lines K := by simp [State.rastScan]

@[simp] theorem State.rastRead_lines (s : State) (t : Trunk) (g : Nat) (bad : List Nat) : (s.rastRead t g bad).lines K = s.lines K := by
  unfold State.rastRead
  dsimp only
  repeat' split
  all_goals simp

@[simp] theorem State.enqueueLine_lines (s : State) (k n j : Nat) (data : List Byte) : (s.enqueueLine k n j data).lines K = s.lines K := by
  simp [State.enqueueLine]

@[simp] theorem State.freezeCheck_lines (s : State) (t : Trunk) (g pad src : Nat) : (s.freezeCheck t g pad src).lines K = s.lines K := by
  simp [State.freezeCheck]

@[simp] theorem State.sendSdi_lines (s : State) (t : Trunk) (g : Nat) (f : RastFrame) (j : Nat) (active black : Bool) (codes : List Nat) :
    (s.sendSdi t g f j active black codes).lines K = s.lines K := by simp [State.sendSdi]
@[simp] theorem State.sendIp_lines (s : State) (t : Trunk) (g : Nat) (f : RastFrame) (j : Nat) (black : Bool) (codes : List Nat) :
    (s.sendIp t g f j black codes).lines K = s.lines K := by simp [State.sendIp]

@[simp] theorem State.rastPad_lines (s : State) (t : Trunk) (g : Nat) (tap : Option (List (BitVec 16))) :
    (s.rastPad t g tap).lines K = s.lines K := by
  unfold State.rastPad
  dsimp only
  repeat' split
  all_goals simp

@[simp] theorem State.rastEpoch_lines (s : State) (t : Trunk) (g k : Nat) : (s.rastEpoch t g k).lines K = s.lines K := by simp [State.rastEpoch]

/-! ### Schedulers -/

@[simp] theorem State.putSched_lines (s : State) (t : Trunk) (x : SchedSt) : (s.putSched t x).lines K = s.lines K := by simp [State.putSched]

@[simp] theorem State.post_lines (s : State) (t : Trunk) (slot flag : Nat) (again : Bool) : (s.post t slot flag again).lines K = s.lines K := by
  simp [State.post]

@[simp] theorem State.unhold_lines (s : State) (t : Trunk) : (s.unhold t).lines K = s.lines K := by simp [State.unhold]
@[simp] theorem State.dispatch_lines (s : State) (t : Trunk) : (s.dispatch t).lines K = s.lines K := by simp [State.dispatch]

@[simp] theorem State.complete_lines (s : State) (t : Trunk) (slot : Nat) (free : Bool) : (s.complete t slot free).lines K = s.lines K := by
  simp [State.complete]

@[simp] theorem State.age_lines (s : State) (t : Trunk) (slot : Nat) : (s.age t slot).lines K = s.lines K := by simp [State.age]
@[simp] theorem State.schedEpoch_lines (s : State) (t : Trunk) : (s.schedEpoch t).lines K = s.lines K := by simp [State.schedEpoch]

/-! ### Guest cores -/

@[simp] theorem State.putGuest_lines (s : State) (t : Trunk) (c : Nat) (g : GuestSt) : (s.putGuest t c g).lines K = s.lines K := by
  simp [State.putGuest]

@[simp] theorem State.setGuestState_lines (s : State) (t : Trunk) (c v : Nat) : (s.setGuestState t c v).lines K = s.lines K := by
  simp [State.setGuestState]

@[simp] theorem State.guestWfi_lines (s : State) (t : Trunk) (c : Nat) : (s.guestWfi t c).lines K = s.lines K := by simp [State.guestWfi]
@[simp] theorem State.guestFault_lines (s : State) (t : Trunk) (c addr : Nat) (write : Bool) :
    (s.guestFault t c addr write).lines K = s.lines K := by simp [State.guestFault]

@[simp] theorem State.guestPost_lines (s : State) (t : Trunk) (c off : Nat) (v : Word) : (s.guestPost t c off v).lines K = s.lines K := by
  simp [State.guestPost]

@[simp] theorem State.gcmpReach_lines (s : State) (t : Trunk) (core : Nat) (gcmp : BitVec 64) : (s.gcmpReach t core gcmp).lines K = s.lines K := by
  simp [State.gcmpReach]

@[simp] theorem State.guestAct_lines (s : State) (t : Trunk) (c : Nat) (f : GuestSt → GuestSt) : (s.guestAct t c f).lines K = s.lines K := by
  simp [State.guestAct]

@[simp] theorem State.guestBell_lines (s : State) (t : Trunk) (c : Nat) : (s.guestBell t c).lines K = s.lines K := by simp [State.guestBell]

@[simp] theorem State.guestSend_lines (s : State) (t : Trunk) (c addr len port : Nat) : (s.guestSend t c addr len port).lines K = s.lines K := by
  simp [State.guestSend]

@[simp] theorem State.guestLoad_lines (s : State) (t : Trunk) (c : Nat) : (s.guestLoad t c).lines K = s.lines K := by
  unfold State.guestLoad
  split <;> simp

@[simp] theorem State.unitSeq_lines (s : State) (t : Trunk) (code : Nat) : (s.unitSeq t code).2.lines K = s.lines K := by simp [State.unitSeq]
@[simp] theorem State.guestFrame_lines (s : State) (t : Trunk) (c : Nat) : (s.guestFrame t c).lines K = s.lines K := by simp [State.guestFrame]

/-! ### E1.31 streams -/

@[simp] theorem State.e131Stamp_lines (s : State) (rec : Nat) (p : List Byte) (hK : .e131 ∈ K) : (s.e131Stamp rec p).2.lines K = s.lines K := by
  simp [State.e131Stamp, hK]

@[simp] theorem State.e131Rx_lines (s : State) (univ cid priority sync : Nat) (slots : Option (List Byte)) (checks : Bool) (hK : .e131 ∈ K) :
    (s.e131Rx univ cid priority sync slots checks).lines K = s.lines K := by
  unfold State.e131Rx
  dsimp only
  repeat' split
  all_goals simp [hK]

@[simp] theorem State.e131Lost_lines (s : State) (univ cid : Nat) (hK : .e131 ∈ K) : (s.e131Lost univ cid).lines K = s.lines K := by
  unfold State.e131Lost
  dsimp only
  repeat' split
  all_goals simp [hK]

@[simp] theorem State.e131Capture_lines (s : State) : s.e131Capture.lines K = s.lines K := by simp [State.e131Capture]

/-! ### Queue blocks -/

@[simp] theorem State.putQb_lines (s : State) (k : Nat) (q : QbSt) : (s.putQb k q).lines K = s.lines K := by simp [State.putQb]
@[simp] theorem State.qbPush_lines (s : State) (k : Nat) (l : List QbEntry) : (s.qbPush k l).lines K = s.lines K := by simp [State.qbPush]
@[simp] theorem State.qbDrop_lines (s : State) (k n : Nat) : (s.qbDrop k n).lines K = s.lines K := by simp [State.qbDrop]
@[simp] theorem State.qbPushAt_lines (s : State) (k i : Nat) (l : List QbEntry) : (s.qbPushAt k i l).lines K = s.lines K := by simp [State.qbPushAt]
@[simp] theorem State.qbBack_lines (s : State) (k : Nat) (l : List QbEntry) : (s.qbBack k l).lines K = s.lines K := by simp [State.qbBack]
@[simp] theorem State.qbWriteOp_lines (s : State) (k : Nat) (e : QbEntry) : (s.qbWriteOp k e).lines K = s.lines K := by simp [State.qbWriteOp]

@[simp] theorem State.qbReadOp_lines (s : State) (k : Nat) : (s.qbReadOp k).lines K = s.lines K := by
  unfold State.qbReadOp
  dsimp only
  repeat' split
  all_goals simp

@[simp] theorem State.qbStaleOp_lines (s : State) (k : Nat) : (s.qbStaleOp k).lines K = s.lines K := by
  unfold State.qbStaleOp
  split <;> simp

end Sys2Proof.Machine
end

section
/-! PROOFS. What the operations of the port fabric, the Stem host interface, the graft bridge, DMX512 ports and sap lines
keep of the line parts, one lemma an operation: it gives up the parts that the operation touches. -/

namespace Sys2Proof.Machine

open Sys2Proof.Safety (Part)

variable (K : List Part)

/-! ### The port fabric -/

@[simp] theorem State.qbFollow_lines (s : State) (k : Nat) (old : List (List QbEntry)) (new : List (List QbEntry)) :
    (s.qbFollow k old new).lines K = s.lines K := by simp [State.qbFollow]

@[simp] theorem State.setPort_lines (s : State) (n : Nat) (p : PortSt) (hK : .ports ∈ K) : (s.setPort n p).lines K = s.lines K := by
  simp [State.setPort, hK]

@[simp] theorem State.putPort_lines (s : State) (n : Nat) (p : PortSt) (hK : .ports ∈ K) : (s.putPort n p).lines K = s.lines K := by
  simp [State.putPort, hK]

@[simp] theorem State.bump64_lines (s : State) (lo hi n : Nat) : (s.bump64 lo hi n).lines K = s.lines K := by simp [State.bump64]
@[simp] theorem State.dropBit_lines (s : State) (n : Nat) : (s.dropBit n).lines K = s.lines K := by simp [State.dropBit]
@[simp] theorem State.txCount_lines (s : State) (n len : Nat) : (s.txCount n len).lines K = s.lines K := by simp [State.txCount]

@[simp] theorem State.sendPause_lines (s : State) (n time : Nat) (hK : .ports ∈ K) : (s.sendPause n time).lines K = s.lines K := by
  simp [State.sendPause, hK]

@[simp] theorem State.pauseOn_lines (s : State) (i e : Nat) (hK : .ports ∈ K) : (s.pauseOn i e).lines K = s.lines K := by simp [State.pauseOn, hK]
@[simp] theorem State.pauseOff_lines (s : State) (e : Nat) (hK : .ports ∈ K) : (s.pauseOff e).lines K = s.lines K := by simp [State.pauseOff, hK]

@[simp] theorem State.congestion_lines (s : State) (n : Nat) (hK : .ports ∈ K) : (s.congestion n).lines K = s.lines K := by
  simp [State.congestion, hK]

@[simp] theorem State.enqueueEth_lines (s : State) (n : Nat) (f : OutFrame) (hK : .ports ∈ K) : (s.enqueueEth n f).lines K = s.lines K := by
  simp [State.enqueueEth, hK]

@[simp] theorem State.enqueueUntimed_lines (s : State) (n : Nat) (u : Untimed) (hK : .ports ∈ K) : (s.enqueueUntimed n u).lines K = s.lines K := by
  simp [State.enqueueUntimed, hK]

@[simp] theorem State.sendFrame_lines (s : State) (n : Nat) (l : List Byte) (stamp : optParam (Option (Nat × Nat × Nat)) none) (hK : .ports ∈ K) :
    (s.sendFrame n l stamp).lines K = s.lines K := by simp [State.sendFrame, hK]
@[simp] theorem State.sendGrove_lines (s : State) (type dst : Nat) (data : List Byte) (hK : .ports ∈ K) :
    (s.sendGrove type dst data).lines K = s.lines K := by simp [State.sendGrove, hK]

@[simp] theorem State.sendRing_lines (s : State) (port : Nat) (f : OutFrame) (hK : .ports ∈ K) : (s.sendRing port f).lines K = s.lines K := by
  simp [State.sendRing, hK]

@[simp] theorem State.moveRing_lines (s : State) (n : Nat) (f : OutFrame) (hK : .ports ∈ K) : (s.moveRing n f).lines K = s.lines K := by
  simp [State.moveRing, hK]

@[simp] theorem State.enqueueTimed_lines (s : State) (n : Nat) (f : OutFrame) (hK : .ports ∈ K) : (s.enqueueTimed n f).lines K = s.lines K := by
  simp [State.enqueueTimed, hK]

@[simp] theorem State.tcCorrect_lines (s : State) (e : Nat) (u : Untimed) (hK : .switch ∈ K) : (s.tcCorrect e u).2.lines K = s.lines K := by
  unfold State.tcCorrect
  dsimp only
  repeat' split
  all_goals simp [hK]

@[simp] theorem State.markDue_lines (s : State) (n : Nat) (held : Bool) (own : Option Nat) (hK : .ports ∈ K) :
    (s.markDue n held own).lines K = s.lines K := by simp [State.markDue, hK]

@[simp] theorem State.timedBytes_lines (s : State) (f : OutFrame) (hK : .e131 ∈ K) : (s.timedBytes f).2.lines K = s.lines K := by
  unfold State.timedBytes
  split <;> simp [hK]

@[simp] theorem State.startTimed_lines (s : State) (n : Nat) (f : OutFrame) (rest : List OutFrame) (hK : .ports ∈ K ∧ .e131 ∈ K) :
    (s.startTimed n f rest).lines K = s.lines K := by simp [State.startTimed, hK]

@[simp] theorem State.stampOut_lines (s : State) (n : Nat) (u : Untimed) (hK : .ports ∈ K) : (s.stampOut n u).2.lines K = s.lines K := by
  unfold State.stampOut
  dsimp only
  repeat' split
  all_goals simp [hK]

@[simp] theorem State.startUntimed_lines (s : State) (n : Nat) (u : Untimed) (rest : List Untimed) (hK : .ports ∈ K ∧ .switch ∈ K) :
    (s.startUntimed n u rest).lines K = s.lines K := by simp [State.startUntimed, hK]

@[simp] theorem State.countDefer_lines (s : State) (n : Nat) (hK : .ports ∈ K) : (s.countDefer n).lines K = s.lines K := by
  simp [State.countDefer, hK]

@[simp] theorem State.tryUntimed_lines (s : State) (n : Nat) (hK : .ports ∈ K ∧ .switch ∈ K) : (s.tryUntimed n).lines K = s.lines K := by
  unfold State.tryUntimed
  dsimp only
  repeat' split
  all_goals simp [hK]

@[simp] theorem State.chooseNext_lines (s : State) (n : Nat) (hK : .ports ∈ K ∧ .switch ∈ K ∧ .e131 ∈ K) : (s.chooseNext n).lines K = s.lines K := by
  unfold State.chooseNext
  split <;> simp [hK]

@[simp] theorem State.launchEth_lines (s : State) (n : Nat) (hK : .ports ∈ K ∧ .e131 ∈ K) : (s.launchEth n).lines K = s.lines K := by
  unfold State.launchEth
  split <;> simp [hK]

@[simp] theorem State.dropExpired_lines (s : State) (n : Nat) (hK : .ports ∈ K) : (s.dropExpired n).lines K = s.lines K := by
  simp [State.dropExpired, hK]

@[simp] theorem State.cutLeaves_lines (s : State) (n : Nat) (t : TxSt) : (s.cutLeaves n t).lines K = s.lines K := by
  unfold State.cutLeaves
  split <;> simp

@[simp] theorem State.stompEnds_lines (s : State) (n : Nat) (t : TxSt) : (s.stompEnds n t).lines K = s.lines K := by
  unfold State.stompEnds
  split <;> simp

@[simp] theorem State.txEnd_lines (s : State) (n : Nat) (hK : .ports ∈ K ∧ .switch ∈ K ∧ .e131 ∈ K) : (s.txEnd n).lines K = s.lines K := by
  unfold State.txEnd
  split <;> simp [hK]

@[simp] theorem State.pauseEnds_lines (s : State) (n : Nat) (hK : .ports ∈ K ∧ .switch ∈ K ∧ .e131 ∈ K) : (s.pauseEnds n).lines K = s.lines K := by
  simp [State.pauseEnds, hK]

@[simp] theorem State.pauseAct_lines (s : State) (n time : Nat) (hK : .ports ∈ K ∧ .switch ∈ K ∧ .e131 ∈ K) :
    (s.pauseAct n time).lines K = s.lines K := by simp [State.pauseAct, hK]
@[simp] theorem State.pauseExpire_lines (s : State) (n : Nat) (hK : .ports ∈ K ∧ .switch ∈ K ∧ .e131 ∈ K) :
    (s.pauseExpire n).lines K = s.lines K := by simp [State.pauseExpire, hK]

@[simp] theorem State.pauseTrip_lines (s : State) (n : Nat) (hK : .ports ∈ K ∧ .switch ∈ K ∧ .e131 ∈ K) : (s.pauseTrip n).lines K = s.lines K := by
  simp [State.pauseTrip, hK]

@[simp] theorem State.cutRest_lines (s : State) (n : Nat) (bad : Bool) (hK : .ports ∈ K) : (s.cutRest n bad).lines K = s.lines K := by
  refine State.foldl_lines K _ (fun u e => ?_) _ _
  dsimp only
  repeat' split
  all_goals simp [hK]

@[simp] theorem State.beginFallback_lines (s : State) (n : Nat) (hK : .ports ∈ K ∧ .switch ∈ K) : (s.beginFallback n).lines K = s.lines K := by
  simp [State.beginFallback, hK]

@[simp] theorem State.linkTo_lines (s : State) (n : Nat) (up : Bool) (hK : .ports ∈ K ∧ .switch ∈ K) : (s.linkTo n up).lines K = s.lines K := by
  simp [State.linkTo, hK]

@[simp] theorem State.linkApply_lines (s : State) (n : Nat) (hK : .ports ∈ K ∧ .switch ∈ K) : (s.linkApply n).lines K = s.lines K := by
  simp [State.linkApply, hK]

@[simp] theorem State.disableWrite_lines (s : State) (n : Nat) (off : Bool) (hK : .ports ∈ K ∧ .switch ∈ K) :
    (s.disableWrite n off).lines K = s.lines K := by simp [State.disableWrite, hK]
@[simp] theorem State.rearmWrite_lines (s : State) (n : Nat) : (s.rearmWrite n).lines K = s.lines K := by simp [State.rearmWrite]
@[simp] theorem State.swFlush_lines (s : State) (hK : .switch ∈ K) : s.swFlush.lines K = s.lines K := by simp [State.swFlush, hK]
@[simp] theorem State.learn_lines (s : State) (g a n : Nat) (hK : .switch ∈ K) : (s.learn g a n).lines K = s.lines K := by simp [State.learn, hK]
@[simp] theorem State.blockThreshold_lines (s : State) (n e : Nat) : (s.blockThreshold n e).lines K = s.lines K := by simp [State.blockThreshold]

@[simp] theorem State.forward_lines (s : State) (n : Nat) (f : EthFrame) (e : Nat) (hK : .ports ∈ K) : (s.forward n f e).lines K = s.lines K := by
  simp [State.forward, hK]

@[simp] theorem State.ringEnter_lines (s : State) (n : Nat) (f : EthFrame) (hK : .ports ∈ K) : (s.ringEnter n f).lines K = s.lines K := by
  simp [State.ringEnter, hK]

@[simp] theorem State.ringTake_lines (s : State) (n : Nat) (hK : .ports ∈ K) : (s.ringTake n).lines K = s.lines K := by
  unfold State.ringTake
  dsimp only
  repeat' split
  all_goals simp [hK]

@[simp] theorem State.qbReadNext_lines (s : State) (k : Nat) (hK : .ports ∈ K) : (s.qbReadNext k).lines K = s.lines K := by
  simp [State.qbReadNext, hK]

@[simp] theorem State.switchFrame_lines (s : State) (n : Nat) (f : EthFrame) (hK : .ports ∈ K ∧ .switch ∈ K) :
    (s.switchFrame n f).lines K = s.lines K := by simp [State.switchFrame, hK]
@[simp] theorem State.fecCount_lines (s : State) (n : Nat) (f : EthFrame) : (s.fecCount n f).lines K = s.lines K := by simp [State.fecCount]
@[simp] theorem State.receive_lines (s : State) (n : Nat) (f : EthFrame) (hK : .ports ∈ K ∧ .switch ∈ K ∧ .e131 ∈ K) :
    (s.receive n f).lines K = s.lines K := by simp [State.receive, hK]
@[simp] theorem State.cutStart_lines (s : State) (i e : Nat) (f : EthFrame) (got : Nat) (hK : .ports ∈ K ∧ .switch ∈ K) :
    (s.cutStart i e f got).lines K = s.lines K := by simp [State.cutStart, hK]
@[simp] theorem State.e131Send_lines (s : State) (rec : Nat) (p : List Byte) (hK : .ports ∈ K ∧ .e131 ∈ K) :
    (s.e131Send rec p).lines K = s.lines K := by simp [State.e131Send, hK]

@[simp] theorem State.e131RepeatOp_lines (s : State) (univ : Nat) (hK : .ports ∈ K ∧ .e131 ∈ K) : (s.e131RepeatOp univ).lines K = s.lines K := by
  simp [State.e131RepeatOp, hK]

@[simp] theorem State.backoff_lines (s : State) (n k : Nat) (hK : .ports ∈ K) : (s.backoff n k).lines K = s.lines K := by simp [State.backoff, hK]

@[simp] theorem State.unsend_lines (s : State) (n : Nat) (t : TxSt) (attempts : Nat) (hK : .ports ∈ K) :
    (s.unsend n t attempts).lines K = s.lines K := by
  unfold State.unsend
  dsimp only
  repeat' split
  all_goals simp [hK]

@[simp] theorem State.t1sCollide_lines (s : State) (g bit : Nat) (hK : .ports ∈ K) : (s.t1sCollide g bit).lines K = s.lines K := by
  unfold State.t1sCollide
  dsimp only
  repeat' split
  all_goals simp [hK]

@[simp] theorem State.t1sBackoffEnds_lines (s : State) (g : Nat) (hK : .ports ∈ K ∧ .switch ∈ K ∧ .e131 ∈ K) :
    (s.t1sBackoffEnds g).lines K = s.lines K := by simp [State.t1sBackoffEnds, hK]
@[simp] theorem State.t1sCarrierFalls_lines (s : State) (g : Nat) (hK : .ports ∈ K ∧ .switch ∈ K ∧ .e131 ∈ K) :
    (s.t1sCarrierFalls g).lines K = s.lines K := by simp [State.t1sCarrierFalls, hK]

/-! ### The Stem host interface -/

@[simp] theorem State.startCmd_lines (s : State) (c tag op : Nat) (replyErr : Bool) : (s.startCmd c tag op replyErr).lines K = s.lines K := by
  simp [State.startCmd]

@[simp] theorem State.done_lines (s : State) (h : StemHdr) (op code : Nat) : (s.done h op code).lines K = s.lines K := by simp [State.done]
@[simp] theorem State.refuse_lines (s : State) (h : StemHdr) (op code : Nat) : (s.refuse h op code).lines K = s.lines K := by simp [State.refuse]
@[simp] theorem State.stemCmd_lines (s : State) (h : StemHdr) (op len : Nat) (read : Bool) (i : Instr) (f : State → State) (hf : ∀ u,
    (f u).lines K = u.lines K) :
    (s.stemCmd h op len read i f).lines K = s.lines K := by simp [State.stemCmd, hf]
@[simp] theorem State.chanDrop_lines (s : State) (c : Nat) : (s.chanDrop c).lines K = s.lines K := by simp [State.chanDrop]

@[simp] theorem State.chunkIn_lines (s : State) (h : StemHdr) (op : Nat) (c : Chunk) (take : List Byte → State → State)
    (hf : ∀ l u, (take l u).lines K = u.lines K) : (s.chunkIn h op c take).lines K = s.lines K := by
  unfold State.chunkIn
  dsimp only
  split <;> simp [hf]

@[simp] theorem State.watchOp_lines (s : State) (h : StemHdr) (mask expected timeout : Nat) :
    (s.watchOp h mask expected timeout).lines K = s.lines K := by
  unfold State.watchOp
  dsimp only
  repeat' split
  all_goals simp

@[simp] theorem State.watchExpire_lines (s : State) (c : Nat) : (s.watchExpire c).lines K = s.lines K := by
  unfold State.watchExpire
  split <;> simp

@[simp] theorem State.attnClear_lines (s : State) (c mask : Nat) : (s.attnClear c mask).lines K = s.lines K := by simp [State.attnClear]
@[simp] theorem State.ringOn_lines (s : State) (r : Nat) : (s.ringOn r).lines K = s.lines K := by simp [State.ringOn]
@[simp] theorem State.ringOff_lines (s : State) (r : Nat) : (s.ringOff r).lines K = s.lines K := by simp [State.ringOff]

@[simp] theorem State.doorbell_lines (s : State) (r count : Nat) (err : Bool) : (s.doorbell r count err).lines K = s.lines K := by
  simp [State.doorbell]

@[simp] theorem State.putSession_lines (s : State) (k : Nat) (x : Session) : (s.putSession k x).lines K = s.lines K := by simp [State.putSession]

@[simp] theorem State.datagram_lines (s : State) (via peer port tag : Nat) (csumZero lengthOk : Bool) :
    (s.datagram via peer port tag csumZero lengthOk).lines K = s.lines K := by
  unfold State.datagram
  dsimp only
  repeat' split
  all_goals simp

@[simp] theorem State.sessionEnd_lines (s : State) (k : Nat) : (s.sessionEnd k).lines K = s.lines K := by simp [State.sessionEnd]
@[simp] theorem State.winWrite_lines (s : State) (k : Nat) (v : Word) : (s.winWrite k v).lines K = s.lines K := by simp [State.winWrite]

/-! ### The graft bridge -/

@[simp] theorem State.rdmAsk_lines (s : State) (n : Nat) (q : RdmReq) (dst cc pid : Nat) (pd : List Byte) (hK : .dmx ∈ K) :
    (s.rdmAsk n q dst cc pid pd).lines K = s.lines K := by simp [State.rdmAsk, hK]
@[simp] theorem State.putGrafts_lines (s : State) (l : List GraftTx) : (s.putGrafts l).lines K = s.lines K := by simp [State.putGrafts]
@[simp] theorem State.putGraft_lines (s : State) (x : GraftTx) : (s.putGraft x).lines K = s.lines K := by simp [State.putGraft]

@[simp] theorem State.windfallEvent_lines (s : State) (w : Fetched) (outcome init : Nat) : (s.windfallEvent w outcome init).lines K = s.lines K := by
  simp [State.windfallEvent]

@[simp] theorem State.putWindfalls_lines (s : State) (l : List Fetched) : (s.putWindfalls l).lines K = s.lines K := by simp [State.putWindfalls]

@[simp] theorem State.windfallLost_lines (s : State) (w : Fetched) (outcome : Nat) : (s.windfallLost w outcome).lines K = s.lines K := by
  simp [State.windfallLost]

@[simp] theorem State.windfallIn_lines (s : State) (w : Fetched) : (s.windfallIn w).lines K = s.lines K := by
  unfold State.windfallIn
  split <;> simp

@[simp] theorem State.prefetchOut_lines (s : State) (e : Fetched) : (s.prefetchOut e).lines K = s.lines K := by simp [State.prefetchOut]
@[simp] theorem State.prefetchDrop_lines (s : State) (p : Fetched → Bool) : (s.prefetchDrop p).lines K = s.lines K := by simp [State.prefetchDrop]

@[simp] theorem State.prefetchIn_lines (s : State) (e : Fetched) : (s.prefetchIn e).lines K = s.lines K := by
  unfold State.prefetchIn
  dsimp only
  repeat' split
  all_goals simp

@[simp] theorem State.windfallAge_lines (s : State) : s.windfallAge.lines K = s.lines K := by simp [State.windfallAge]
@[simp] theorem State.prefetchAge_lines (s : State) : s.prefetchAge.lines K = s.lines K := by simp [State.prefetchAge]

@[simp] theorem State.graftFail_lines (s : State) (x : GraftTx) (code reason : Nat) : (s.graftFail x code reason).lines K = s.lines K := by
  simp [State.graftFail]

@[simp] theorem State.sendGraft_lines (s : State) (dst op status tag leaf offset length : Nat) (data : List Byte) (hK : .ports ∈ K) :
    (s.sendGraft dst op status tag leaf offset length data).lines K = s.lines K := by simp [State.sendGraft, hK]

@[simp] theorem State.graftDeliver_lines (s : State) (x : GraftTx) (code : Nat) (data : List Byte) (windfall : Bool) (hK : .ports ∈ K) :
    (s.graftDeliver x code data windfall).lines K = s.lines K := by
  unfold State.graftDeliver
  dsimp only
  repeat' split
  all_goals simp [hK]

@[simp] theorem State.graftEnd_lines (s : State) (x : GraftTx) (code reason : Nat) (data : List Byte) (windfall : Bool) (hK : .ports ∈ K) :
    (s.graftEnd x code reason data windfall).lines K = s.lines K := by simp [State.graftEnd, hK]
@[simp] theorem State.graftSend_lines (s : State) (port leaf : Nat) (l : List Byte) (hK : .ports ∈ K) :
    (s.graftSend port leaf l).lines K = s.lines K := by simp [State.graftSend, hK]
@[simp] theorem State.graftHeld_lines (s : State) (x : GraftTx) : (s.graftHeld x).lines K = s.lines K := by simp [State.graftHeld]

@[simp] theorem State.graftIssued_lines (s : State) (x : GraftTx) (hK : .ports ∈ K) : (s.graftIssued x).lines K = s.lines K := by
  unfold State.graftIssued
  split <;> simp [hK]

@[simp] theorem State.graftIssue_lines (s : State) (x : GraftTx) (hK : .ports ∈ K ∧ .dmx ∈ K) : (s.graftIssue x).lines K = s.lines K := by
  unfold State.graftIssue
  dsimp only
  repeat' split
  all_goals simp [hK]

@[simp] theorem State.graftPump_lines (n : Nat) (s : State) (hK : .ports ∈ K ∧ .dmx ∈ K) : (State.graftPump n s).lines K = s.lines K := by
  induction n generalizing s with
  | zero => rfl
  | succ n ih =>
    unfold State.graftPump
    split <;> simp [ih, hK]

@[simp] theorem State.graftGo_lines (s : State) (hK : .ports ∈ K ∧ .dmx ∈ K) : s.graftGo.lines K = s.lines K := by simp [State.graftGo, hK]
@[simp] theorem State.graftDone_lines (s : State) (x : GraftTx) (code reason : Nat) (data : List Byte) (windfall : Bool)
    (hK : .ports ∈ K ∧ .dmx ∈ K) :
    (s.graftDone x code reason data windfall).lines K = s.lines K := by simp [State.graftDone, hK]

@[simp] theorem State.graftSubmit_lines (s : State) (x : GraftTx) (hK : .ports ∈ K ∧ .dmx ∈ K) : (s.graftSubmit x).lines K = s.lines K := by
  simp [State.graftSubmit, hK]

@[simp] theorem State.sefWrong_lines (s : State) (leaf : Nat) : (s.sefWrong leaf).lines K = s.lines K := by simp [State.sefWrong]

@[simp] theorem State.graftRead_lines (s : State) (x : GraftTx) (data : List Byte) (effect : Bool) (hK : .ports ∈ K ∧ .dmx ∈ K) :
    (s.graftRead x data effect).lines K = s.lines K := by
  unfold State.graftRead
  split <;> simp [hK]

@[simp] theorem State.graftRdmEnd_lines (s : State) (tag code : Nat) (ack : Bool) (data : List Byte) (hK : .ports ∈ K ∧ .dmx ∈ K) :
    (s.graftRdmEnd tag code ack data).lines K = s.lines K := by
  unfold State.graftRdmEnd
  split <;> simp [hK]

@[simp] theorem State.graftWindow_lines (s : State) (hK : .ports ∈ K ∧ .dmx ∈ K) : s.graftWindow.lines K = s.lines K := by
  simp [State.graftWindow, hK]

/-! ### DMX512 ports -/

@[simp] theorem State.putDmx_lines (s : State) (n : Nat) (d : DmxSt) (hK : .dmx ∈ K) : (s.putDmx n d).lines K = s.lines K := by
  simp [State.putDmx, hK]

@[simp] theorem State.enqueueDmx_lines (s : State) (n : Nat) (f : OutFrame) (hK : .dmx ∈ K) : (s.enqueueDmx n f).lines K = s.lines K := by
  simp [State.enqueueDmx, hK]

@[simp] theorem State.supersede_lines (s : State) (n k : Nat) : (s.supersede n k).lines K = s.lines K := by simp [State.supersede]

@[simp] theorem State.dmxPick_lines (s : State) (n : Nat) (hK : .dmx ∈ K) : (s.dmxPick n).2.lines K = s.lines K := by
  unfold State.dmxPick
  dsimp only
  repeat' split
  all_goals simp [hK]

@[simp] theorem State.discoveryEnd_lines (s : State) (n : Nat) (hK : .dmx ∈ K) : (s.discoveryEnd n).lines K = s.lines K := by
  simp [State.discoveryEnd, hK]

@[simp] theorem State.discBranch_lines (s : State) (n lo hi : Nat) (hK : .dmx ∈ K) : (s.discBranch n lo hi).lines K = s.lines K := by
  simp [State.discBranch, hK]

@[simp] theorem State.discoveryStep_lines (s : State) (n : Nat) (q : RdmReq) (collision : Bool) (data : Option (List Byte)) (hK : .dmx ∈ K) :
    (s.discoveryStep n q collision data).lines K = s.lines K := by
  unfold State.discoveryStep
  split <;> simp [hK]

@[simp] theorem State.discoveryStart_lines (s : State) (n : Nat) (hK : .dmx ∈ K) : (s.discoveryStart n).lines K = s.lines K := by
  simp [State.discoveryStart, hK]

@[simp] theorem State.sendTunnel_lines (s : State) (dst tunnel dir brk mab port : Nat) (l : List Byte) (hK : .ports ∈ K) :
    (s.sendTunnel dst tunnel dir brk mab port l).lines K = s.lines K := by simp [State.sendTunnel, hK]
@[simp] theorem State.tunnelResponse_lines (s : State) (pos tunnel : Nat) (l : List Byte) (hK : .ports ∈ K) :
    (s.tunnelResponse pos tunnel l).lines K = s.lines K := by simp [State.tunnelResponse, hK]

@[simp] theorem State.rdmEnd_lines (s : State) (n : Nat) (q : RdmReq) (code : Nat) (ack : Bool) (data : List Byte) (hK : .ports ∈ K ∧ .dmx ∈ K) :
    (s.rdmEnd n q code ack data).lines K = s.lines K := by
  unfold State.rdmEnd
  split <;> simp [hK]

@[simp] theorem State.rdmAbandon_lines (s : State) (n : Nat) (hK : .ports ∈ K ∧ .dmx ∈ K) : (s.rdmAbandon n).lines K = s.lines K := by
  unfold State.rdmAbandon
  split <;> simp [hK]

@[simp] theorem State.dmxBegin_lines (s : State) (n : Nat) (f : OutFrame) (hK : .dmx ∈ K) : (s.dmxBegin n f).lines K = s.lines K := by
  simp [State.dmxBegin, hK]

@[simp] theorem State.dmxStart_lines (s : State) (n : Nat) (hK : .ports ∈ K ∧ .dmx ∈ K) : (s.dmxStart n).lines K = s.lines K := by
  unfold State.dmxStart
  dsimp only
  repeat' split
  all_goals simp [hK]

@[simp] theorem State.dmxEnd_lines (s : State) (n : Nat) (hK : .dmx ∈ K) : (s.dmxEnd n).lines K = s.lines K := by simp [State.dmxEnd, hK]

@[simp] theorem State.dmxRepeatOp_lines (s : State) (n : Nat) (hK : .dmx ∈ K) : (s.dmxRepeatOp n).lines K = s.lines K := by
  simp [State.dmxRepeatOp, hK]

@[simp] theorem State.rdmStart_lines (s : State) (n : Nat) (hK : .dmx ∈ K) : (s.rdmStart n).lines K = s.lines K := by
  unfold State.rdmStart
  dsimp only
  repeat' split
  all_goals simp [hK]

@[simp] theorem State.rdmSilent_lines (s : State) (n : Nat) (hK : .ports ∈ K ∧ .dmx ∈ K) : (s.rdmSilent n).lines K = s.lines K := by
  unfold State.rdmSilent
  dsimp only
  repeat' split
  all_goals simp [hK]

@[simp] theorem State.rdmAnswer_lines (s : State) (n : Nat) (ok ack : Bool) (data : List Byte) (hK : .ports ∈ K ∧ .dmx ∈ K) :
    (s.rdmAnswer n ok ack data).lines K = s.lines K := by
  unfold State.rdmAnswer
  dsimp only
  repeat' split
  all_goals simp [hK]

@[simp] theorem State.rdmTimeout_lines (s : State) (n : Nat) (hK : .ports ∈ K ∧ .dmx ∈ K) : (s.rdmTimeout n).lines K = s.lines K := by
  unfold State.rdmTimeout
  split <;> simp [hK]

@[simp] theorem State.rdmNone_lines (s : State) (n : Nat) (hK : .ports ∈ K ∧ .dmx ∈ K) : (s.rdmNone n).lines K = s.lines K := by
  unfold State.rdmNone
  dsimp only
  repeat' split
  all_goals simp [hK]

@[simp] theorem State.tunnelBad_lines (s : State) : s.tunnelBad.lines K = s.lines K := by simp [State.tunnelBad]
@[simp] theorem State.tunnelDeliver_lines (s : State) (n pos tunnel brk mab : Nat) (l : List Byte) (hK : .dmx ∈ K) :
    (s.tunnelDeliver n pos tunnel brk mab l).lines K = s.lines K := by simp [State.tunnelDeliver, hK]

@[simp] theorem State.tunnelCarry_lines (s : State) (t brk mab : Nat) (l : List Byte) (hK : .ports ∈ K ∧ .dmx ∈ K) :
    (s.tunnelCarry t brk mab l).lines K = s.lines K := by
  unfold State.tunnelCarry
  dsimp only
  repeat' split
  all_goals simp [hK]

@[simp] theorem State.dmxIn_lines (s : State) (n : Nat) (sc : Byte) (slots : List Byte) (ok : Bool) (brk mab : Nat) (hK : .ports ∈ K ∧ .dmx ∈ K) :
    (s.dmxIn n sc slots ok brk mab).lines K = s.lines K := by
  unfold State.dmxIn
  dsimp only
  repeat' split
  all_goals simp [hK]

@[simp] theorem State.tunnelIn_lines (s : State) (pos tunnel : Nat) (response : Bool) (brk mab : Nat) (l : List Byte) (port : Nat)
    (hK : .ports ∈ K ∧ .dmx ∈ K) :
    (s.tunnelIn pos tunnel response brk mab l port).lines K = s.lines K := by simp [State.tunnelIn, hK]

@[simp] theorem State.tunnelSend_lines (s : State) (n : Nat) (hK : .dmx ∈ K) : (s.tunnelSend n).lines K = s.lines K := by
  unfold State.tunnelSend
  dsimp only
  repeat' split
  all_goals simp [hK]

@[simp] theorem State.tunnelCheck_lines (s : State) (t : Nat) : (s.tunnelCheck t).lines K = s.lines K := by simp [State.tunnelCheck]

/-! ### Sap lines -/

@[simp] theorem State.putSap_lines (s : State) (n : Nat) (d : SapSt) (hK : .saps ∈ K) : (s.putSap n d).lines K = s.lines K := by
  simp [State.putSap, hK]

@[simp] theorem State.putNode_lines (s : State) (n node : Nat) (r : List Byte) (hK : .nodes ∈ K) : (s.putNode n node r).lines K = s.lines K := by
  simp [State.putNode, hK]

@[simp] theorem State.sapCheck_lines (s : State) (n : Nat) (ok : Bool) : (s.sapCheck n ok).lines K = s.lines K := by simp [State.sapCheck]

@[simp] theorem State.sapSend_lines (s : State) (n cmd : Nat) (w : List Byte) (hK : .saps ∈ K) : (s.sapSend n cmd w).lines K = s.lines K := by
  simp [State.sapSend, hK]

@[simp] theorem State.dropBurst_lines (s : State) (n : Nat) (f : OutFrame) (hK : .saps ∈ K) : (s.dropBurst n f).lines K = s.lines K := by
  simp [State.dropBurst, hK]

@[simp] theorem State.sapEmit_lines (s : State) (n : Nat) (b : SapBurst) (start : Int) (f : OutFrame) (hK : .saps ∈ K) :
    (s.sapEmit n b start f).lines K = s.lines K := by simp [State.sapEmit, hK]

@[simp] theorem State.sapFlow_lines (fuel : Nat) (s : State) (n : Nat) (late : Bool) (hK : .saps ∈ K) :
    (State.sapFlow fuel s n late).lines K = s.lines K := by
  induction fuel generalizing s with
  | zero => rfl
  | succ fuel ih =>
    unfold State.sapFlow
    dsimp only
    repeat' split
    all_goals simp [ih, hK]

@[simp] theorem State.enqueueSap_lines (s : State) (n : Nat) (f : OutFrame) (hK : .saps ∈ K) : (s.enqueueSap n f).lines K = s.lines K := by
  unfold State.enqueueSap
  dsimp only
  repeat' split
  all_goals simp [hK]

@[simp] theorem State.sapBegin_lines (s : State) (n : Nat) (f : OutFrame) (from_ : Option Int) (hK : .saps ∈ K) :
    (s.sapBegin n f from_).lines K = s.lines K := by simp [State.sapBegin, hK]
@[simp] theorem State.sapAbandon_lines (s : State) (n : Nat) (b : SapBurst) (now : Int) (hK : .saps ∈ K) :
    (s.sapAbandon n b now).2.lines K = s.lines K := by simp [State.sapAbandon, hK]
@[simp] theorem State.sapLate_lines (s : State) (n : Nat) (hK : .saps ∈ K) : (s.sapLate n).lines K = s.lines K := by simp [State.sapLate, hK]

@[simp] theorem State.sapStart_lines (s : State) (n : Nat) (hK : .saps ∈ K) : (s.sapStart n).lines K = s.lines K := by
  unfold State.sapStart
  dsimp only
  repeat' split
  all_goals simp [hK]

@[simp] theorem State.sapEnd_lines (s : State) (n : Nat) (hK : .saps ∈ K) : (s.sapEnd n).lines K = s.lines K := by
  unfold State.sapEnd
  dsimp only
  repeat' split
  all_goals simp [hK]

@[simp] theorem State.sapPollOp_lines (s : State) (n : Nat) (ident : Bool) (hK : .saps ∈ K) : (s.sapPollOp n ident).lines K = s.lines K := by
  unfold State.sapPollOp
  split <;> simp [hK]

@[simp] theorem State.sapChanged_lines (s : State) (n : Nat) : (s.sapChanged n).lines K = s.lines K := by simp [State.sapChanged]
@[simp] theorem State.sapMissing_lines (s : State) (n node : Nat) (on : Bool) (hK : .nodes ∈ K ∧ .saps ∈ K) :
    (s.sapMissing n node on).lines K = s.lines K := by simp [State.sapMissing, hK]
@[simp] theorem State.sapStatusReply_lines (s : State) (n node : Nat) (p : List Byte) (hK : .nodes ∈ K) :
    (s.sapStatusReply n node p).lines K = s.lines K := by simp [State.sapStatusReply, hK]
@[simp] theorem State.sapIdentReply_lines (s : State) (n node : Nat) (p : List Byte) (hK : .nodes ∈ K) :
    (s.sapIdentReply n node p).lines K = s.lines K := by simp [State.sapIdentReply, hK]

@[simp] theorem State.sapReplyOp_lines (s : State) (n : Nat) (f : List Byte) (hK : .nodes ∈ K ∧ .saps ∈ K) :
    (s.sapReplyOp n f).lines K = s.lines K := by
  unfold State.sapReplyOp
  dsimp only
  repeat' split
  all_goals simp [hK]

@[simp] theorem State.sapWindowEnd_lines (s : State) (n : Nat) (hK : .nodes ∈ K ∧ .saps ∈ K) : (s.sapWindowEnd n).lines K = s.lines K := by
  unfold State.sapWindowEnd
  split <;> simp [hK]

@[simp] theorem State.sapHoldWrite_lines (s : State) (n : Nat) (on : Bool) (hK : .saps ∈ K) : (s.sapHoldWrite n on).lines K = s.lines K := by
  simp [State.sapHoldWrite, hK]

end Sys2Proof.Machine
end

section
/-! PROOFS. What the operations of the twin trunks, the pack stage, the work on the leaves, the alarm, grove pairs and register accesses
keep of the line parts, one lemma an operation: it gives up the parts that the operation touches. -/

namespace Sys2Proof.Machine

open Sys2Proof.Safety (Part)

variable (K : List Part)

/-! ### Units let out, and the launch of timed frames -/

@[simp] theorem State.letOut_lines (s : State) (t : Trunk) (u : CUnit) (hK : .ports ∈ K ∧ .dmx ∈ K ∧ .saps ∈ K) :
    (s.letOut t u).lines K = s.lines K := by simp [State.letOut, hK]

theorem State.withdraw_lines {s v : State} {t : Trunk} {u : CUnit} (hs : s.withdraw t u = some v) (hK : .ports ∈ K ∧ .dmx ∈ K ∧ .saps ∈ K) :
    v.lines K = s.lines K := by
  unfold State.withdraw at hs
  dsimp only at hs
  repeat' split at hs
  all_goals first | contradiction | (cases hs; simp [hK])

@[simp] theorem State.launchRec_lines (s : State) (rec : Nat) (hK : .ports ∈ K ∧ .dmx ∈ K ∧ .saps ∈ K ∧ .e131 ∈ K) :
    (s.launchRec rec).lines K = s.lines K := by
  unfold State.launchRec
  dsimp only
  repeat' split
  all_goals simp [hK]

@[simp] theorem State.expireRec_lines (s : State) (rec : Nat) (hK : .ports ∈ K ∧ .saps ∈ K) : (s.expireRec rec).lines K = s.lines K := by
  unfold State.expireRec
  dsimp only
  repeat' split
  all_goals simp [hK]

/-! ### Twin trunks -/

@[simp] theorem State.setTrunkState_lines (s : State) (t : Trunk) (v : Nat) : (s.setTrunkState t v).lines K = s.lines K := by
  unfold State.setTrunkState
  split <;> simp

@[simp] theorem State.refresh_lines (s : State) : s.refresh.lines K = s.lines K := by simp [State.refresh]
@[simp] theorem State.mirrorInto_lines (s : State) (t : Trunk) : (s.mirrorInto t).lines K = s.lines K := by simp [State.mirrorInto]
@[simp] theorem State.noWork_lines (s : State) (t : Trunk) : (s.noWork t).lines K = s.lines K := by simp [State.noWork]
@[simp] theorem State.heldSince_lines (s : State) (at_ : Nat) : (s.heldSince at_).lines K = s.lines K := by simp [State.heldSince]

@[simp] theorem State.compareAbandon_lines (s : State) (t : Trunk) (hK : .ports ∈ K ∧ .dmx ∈ K ∧ .saps ∈ K) :
    (s.compareAbandon t).lines K = s.lines K := by
  unfold State.compareAbandon
  dsimp only
  rw [State.foldl_lines K _ (fun u x => by split <;> simp [hK]), State.foldl_lines K _ (fun u x => ?arb), State.foldl_lines K _ (fun u x => ?waiting)]
  · simp
  case arb => split <;> simp [hK]
  case waiting => simp [hK]

@[simp] theorem State.passRole_lines (s : State) (t : Trunk) : (s.passRole t).lines K = s.lines K := by simp [State.passRole]
@[simp] theorem State.resyncFails_lines (s : State) (t : Trunk) : (s.resyncFails t).lines K = s.lines K := by simp [State.resyncFails]
@[simp] theorem State.countFailover_lines (s : State) : s.countFailover.lines K = s.lines K := by simp [State.countFailover]
@[simp] theorem State.keptSettle_lines (s : State) : s.keptSettle.lines K = s.lines K := by simp [State.keptSettle]
@[simp] theorem State.clearWork_lines (s : State) (t : Trunk) : (s.clearWork t).lines K = s.lines K := by simp [State.clearWork]
@[simp] theorem State.leave_lines (s : State) (t : Trunk) (cause : Nat) (hK : .ports ∈ K ∧ .dmx ∈ K ∧ .saps ∈ K) :
    (s.leave t cause).lines K = s.lines K := by simp [State.leave, hK]
@[simp] theorem State.yieldOn_lines (s : State) (t : Trunk) (cause : Nat) (hK : .ports ∈ K ∧ .dmx ∈ K ∧ .saps ∈ K) :
    (s.yieldOn t cause).lines K = s.lines K := by simp [State.yieldOn, hK]
@[simp] theorem State.startResync_lines (s : State) (t : Trunk) : (s.startResync t).lines K = s.lines K := by simp [State.startResync]
@[simp] theorem State.diverge_lines (s : State) (t : Trunk) (unit : List Byte) (hK : .ports ∈ K ∧ .dmx ∈ K ∧ .saps ∈ K) :
    (s.diverge t unit).lines K = s.lines K := by simp [State.diverge, hK]

@[simp] theorem State.mismatch_lines (s : State) (h : HeldCopy) (second : Option CUnit) (hK : .ports ∈ K ∧ .dmx ∈ K ∧ .saps ∈ K) :
    (s.mismatch h second).lines K = s.lines K := by
  unfold State.mismatch
  extract_lets noted port seq twin missing wd etc first u busy
  have hmissing : missing.lines K = s.lines K := by cases second <;> simp [missing, twin, seq, port, noted]
  have hwd : wd.2.lines K = s.lines K := by
    unfold wd
    split
    · exact hmissing
    · split
      case h_1 v hv => exact (State.withdraw_lines K hv hK).trans hmissing
      · exact hmissing
  simp [busy, etc, hwd]

@[simp] theorem State.compareIn_lines (s : State) (t : Trunk) (u : CUnit) (hK : .ports ∈ K ∧ .dmx ∈ K ∧ .saps ∈ K) :
    (s.compareIn t u).lines K = s.lines K := by
  unfold State.compareIn
  split <;> simp [hK]

@[simp] theorem State.unitArrives_lines (s : State) (t : Trunk) (hK : .ports ∈ K ∧ .dmx ∈ K ∧ .saps ∈ K) :
    (s.unitArrives t).lines K = s.lines K := by
  unfold State.unitArrives
  split <;> simp [hK]

@[simp] theorem State.windowExpires_lines (s : State) (hK : .ports ∈ K ∧ .dmx ∈ K ∧ .saps ∈ K) : s.windowExpires.lines K = s.lines K := by
  simp [State.windowExpires, hK]

@[simp] theorem State.settleUnit_lines (s : State) (u : ArbUnit) (hK : .ports ∈ K ∧ .dmx ∈ K ∧ .saps ∈ K) :
    (s.settleUnit u).lines K = s.lines K := by
  unfold State.settleUnit
  dsimp only
  repeat' split
  all_goals simp [hK]

@[simp] theorem State.etcRelease_lines (s : State) (hK : .ports ∈ K ∧ .dmx ∈ K ∧ .saps ∈ K) : s.etcRelease.lines K = s.lines K := by
  simp [State.etcRelease, hK]

@[simp] theorem State.roundEnds_lines (s : State) (hK : .ports ∈ K ∧ .dmx ∈ K ∧ .saps ∈ K) : s.roundEnds.lines K = s.lines K := by
  unfold State.roundEnds
  dsimp only
  repeat' split
  all_goals simp [hK]

@[simp] theorem State.settle_lines (s : State) (hK : .ports ∈ K ∧ .dmx ∈ K ∧ .saps ∈ K) : s.settle.lines K = s.lines K := by simp [State.settle, hK]
@[simp] theorem State.vote_lines (s : State) (t : Trunk) (code seq : Nat) (crc : BitVec 64) (hK : .ports ∈ K ∧ .dmx ∈ K ∧ .saps ∈ K) :
    (s.vote t code seq crc).lines K = s.lines K := by simp [State.vote, hK]

@[simp] theorem State.votesLate_lines (s : State) (hK : .ports ∈ K ∧ .dmx ∈ K ∧ .saps ∈ K) : s.votesLate.lines K = s.lines K := by
  simp [State.votesLate, hK]

@[simp] theorem State.replay_lines (s : State) (t : Trunk) (up : Bool) (lane : Nat) (hK : .ports ∈ K ∧ .dmx ∈ K ∧ .saps ∈ K) :
    (s.replay t up lane).lines K = s.lines K := by simp [State.replay, hK]
@[simp] theorem State.readyCheck_lines (s : State) (t : Trunk) : (s.readyCheck t).lines K = s.lines K := by simp [State.readyCheck]
@[simp] theorem State.testDone_lines (s : State) (t : Trunk) (pass : Bool) : (s.testDone t pass).lines K = s.lines K := by simp [State.testDone]
@[simp] theorem State.testRetry_lines (s : State) (t : Trunk) : (s.testRetry t).lines K = s.lines K := by simp [State.testRetry]
@[simp] theorem State.bulkDone_lines (s : State) : s.bulkDone.lines K = s.lines K := by simp [State.bulkDone]

@[simp] theorem State.bulkLate_lines (s : State) : s.bulkLate.lines K = s.lines K := by
  unfold State.bulkLate
  split <;> simp

@[simp] theorem State.parkOne_lines (s : State) (t : Trunk) (cause : Nat) (hK : .ports ∈ K ∧ .dmx ∈ K ∧ .saps ∈ K) :
    (s.parkOne t cause).lines K = s.lines K := by simp [State.parkOne, hK]
@[simp] theorem State.freshKeep_lines (s : State) (o half : Trunk) : (s.freshKeep o half).lines K = s.lines K := by simp [State.freshKeep]
@[simp] theorem State.adoptCanvases_lines (s : State) (o half : Trunk) : (s.adoptCanvases o half).lines K = s.lines K := by simp [State.adoptCanvases]
@[simp] theorem State.adoptHalves_lines (s : State) : s.adoptHalves.lines K = s.lines K := by simp [State.adoptHalves]
@[simp] theorem State.failback_lines (s : State) (t : Trunk) : (s.failback t).lines K = s.lines K := by simp [State.failback]

@[simp] theorem State.holdoffEpoch_lines (s : State) : s.holdoffEpoch.lines K = s.lines K := by
  unfold State.holdoffEpoch
  split <;> simp

@[simp] theorem State.pairCounts_lines (s : State) (t : Trunk) : (s.pairCounts t).lines K = s.lines K := by simp [State.pairCounts]

@[simp] theorem State.cutover_lines (s : State) : s.cutover.lines K = s.lines K := by
  unfold State.cutover
  split <;> simp

@[simp] theorem State.comeUp_lines (s : State) : s.comeUp.lines K = s.lines K := by
  unfold State.comeUp
  dsimp only
  repeat' split
  all_goals simp

@[simp] theorem State.swapRoles_lines (s : State) : s.swapRoles.lines K = s.lines K := by simp [State.swapRoles]

@[simp] theorem State.twinEpoch_lines (s : State) (hK : .ports ∈ K ∧ .dmx ∈ K ∧ .saps ∈ K) : s.twinEpoch.lines K = s.lines K := by
  simp [State.twinEpoch, hK]

@[simp] theorem State.rejoin_lines (s : State) (t : Trunk) : (s.rejoin t).lines K = s.lines K := by simp [State.rejoin]
@[simp] theorem State.swapWrite_lines (s : State) : s.swapWrite.lines K = s.lines K := by simp [State.swapWrite]
@[simp] theorem State.parkWrite_lines (s : State) (t : Trunk) : (s.parkWrite t).lines K = s.lines K := by simp [State.parkWrite]

/-! ### Check-value engines and ECC errors -/

@[simp] theorem State.putChk_lines (s : State) (e : Option Trunk) (n : Nat) (x : ChkSt) : (s.putChk e n x).lines K = s.lines K := by
  simp [State.putChk]

@[simp] theorem State.chkFlag_lines (s : State) (e : Option Trunk) (n bit : Nat) (v : Bool) : (s.chkFlag e n bit v).lines K = s.lines K := by
  simp [State.chkFlag]

@[simp] theorem State.chkPut64_lines (s : State) (e : Option Trunk) (n off v : Nat) : (s.chkPut64 e n off v).lines K = s.lines K := by
  simp [State.chkPut64]

@[simp] theorem State.chkAbsorb_lines (s : State) (e : Option Trunk) (n : Nat) (l : List Byte) (data : Bool) :
    (s.chkAbsorb e n l data).lines K = s.lines K := by simp [State.chkAbsorb]
@[simp] theorem State.chkStartOp_lines (s : State) (e : Option Trunk) (n : Nat) : (s.chkStartOp e n).lines K = s.lines K := by simp [State.chkStartOp]

@[simp] theorem State.chkDataOp_lines (s : State) (e : Option Trunk) (n : Nat) (v : Word) : (s.chkDataOp e n v).lines K = s.lines K := by
  simp [State.chkDataOp]

@[simp] theorem State.chkFinishOp_lines (s : State) (e : Option Trunk) (n : Nat) : (s.chkFinishOp e n).lines K = s.lines K := by
  unfold State.chkFinishOp
  dsimp only
  repeat' split
  all_goals simp

@[simp] theorem State.chkStateOp_lines (s : State) (e : Option Trunk) (n : Nat) (hi : Bool) (v : Word) :
    (s.chkStateOp e n hi v).lines K = s.lines K := by simp [State.chkStateOp]
@[simp] theorem State.eccCapture_lines (s : State) (e : Option Trunk) (x : EccRead) (bit : Option Nat) (scrub : Bool) :
    (s.eccCapture e x bit scrub).lines K = s.lines K := by simp [State.eccCapture]
@[simp] theorem State.eccCorrected_lines (s : State) (e : Option Trunk) (x : EccRead) (bit : Nat) (scrub : Bool) :
    (s.eccCorrected e x bit scrub).lines K = s.lines K := by simp [State.eccCorrected]
@[simp] theorem State.eccEvent_lines (s : State) (e : Option Trunk) (m : Nat) : (s.eccEvent e m).lines K = s.lines K := by simp [State.eccEvent]
@[simp] theorem State.eccUncorrEvent_lines (s : State) (e : Option Trunk) (x : EccRead) (scrub : Bool) (outcome : Nat) :
    (s.eccUncorrEvent e x scrub outcome).lines K = s.lines K := by simp [State.eccUncorrEvent]
@[simp] theorem State.eccLine_lines (s : State) (t : Trunk) (x : EccRead) : (s.eccLine t x).lines K = s.lines K := by simp [State.eccLine]
@[simp] theorem State.failItem_lines (s : State) (t : Trunk) (i : Nat) : (s.failItem t i).lines K = s.lines K := by simp [State.failItem]
@[simp] theorem State.tmrEvent_lines (s : State) (block : BitVec 12) : (s.tmrEvent block).lines K = s.lines K := by simp [State.tmrEvent]

@[simp] theorem State.dropItem_lines (s : State) (i : State.RootItem) (hK : .ports ∈ K) : (s.dropItem i).lines K = s.lines K := by
  unfold State.dropItem
  dsimp only
  repeat' split
  all_goals simp [hK]

@[simp] theorem State.eccTrunk_lines (s : State) (t : Trunk) (x : EccRead) (scrub : Bool) (work : State → State)
    (hf : ∀ u, (work u).lines K = u.lines K) (hK : .ports ∈ K ∧ .dmx ∈ K ∧ .saps ∈ K) : (s.eccTrunk t x scrub work).lines K = s.lines K := by
  simp [State.eccTrunk, hf, hK]

@[simp] theorem State.eccUncorr_lines (s : State) (e : Option Trunk) (x : EccRead) (scrub : Bool) (item : Option Nat)
    (hK : .ports ∈ K ∧ .dmx ∈ K ∧ .saps ∈ K) : (s.eccUncorr e x scrub item).lines K = s.lines K := by
  unfold State.eccUncorr
  cases e with
  | none => dsimp only; split <;> simp [hK]
  | some t =>
    refine (State.eccTrunk_lines K _ t x scrub _ (fun u => ?_) hK).trans (by simp)
    cases item with
    | some i => simp
    | none => dsimp only; split <;> simp

@[simp] theorem State.scrubRead_lines (s : State) (e : Option Trunk) (word : Option EccRead) (hK : .ports ∈ K ∧ .dmx ∈ K ∧ .saps ∈ K) :
    (s.scrubRead e word).lines K = s.lines K := by
  unfold State.scrubRead
  dsimp only
  repeat' split
  all_goals simp [hK]

/-! ### The pack stage -/

@[simp] theorem State.keepCodes_lines (s : State) (t : Trunk) (e : PortJob) : (s.keepCodes t e).lines K = s.lines K := by simp [State.keepCodes]
@[simp] theorem State.handAll_lines (s : State) (t : Trunk) (e : PortJob) (safety : Bool) (l : List Packed) :
    (s.handAll t e safety l).lines K = s.lines K := by simp [State.handAll]
@[simp] theorem State.keepEpoch_lines (s : State) (t : Trunk) (e : PortJob) (safety : Bool) (n : Nat) :
    (s.keepEpoch t e safety n).lines K = s.lines K := by simp [State.keepEpoch]
@[simp] theorem State.probeAfter_lines (s : State) (t : Trunk) (rec : Nat) (waits skipped : Bool) :
    (s.probeAfter t rec waits skipped).lines K = s.lines K := by simp [State.probeAfter]

@[simp] theorem State.packPort_lines (s : State) (t : Trunk) (e : PortJob) (safety : Bool) : (s.packPort t e safety).lines K = s.lines K := by
  simp [State.packPort]

/-! ### The work on the leaves -/

@[simp] theorem State.packDone_lines (fuel : Nat) (s : State) (t : Trunk) : (State.packDone fuel s t).lines K = s.lines K := by
  induction fuel generalizing s with
  | zero => rfl
  | succ fuel ih =>
    unfold State.packDone
    dsimp only
    split <;> simp [ih]

@[simp] theorem State.portEpoch_lines (s : State) (t : Trunk) (rec k pos : Nat) : (s.portEpoch t rec k pos).lines K = s.lines K := by
  simp [State.portEpoch]

@[simp] theorem State.quantPixel_lines (s : State) (t : Trunk) (j : Job) (v w : Nat) (der : Int) (d : List Int) :
    (s.quantPixel t j v w der d).2.lines K = s.lines K := by
  simp [State.quantPixel, State.foldl_snd_lines]

@[simp] theorem State.leafView_lines (s : State) (t : Trunk) (e : PortJob) (j : Job) (v : Nat) (der : Int) (f : CanvasFrame) :
    (s.leafView t e j v der f).2.lines K = s.lines K := by
  simp [State.leafView, State.foldl_snd_lines]

@[simp] theorem State.runJob_lines (s : State) (t : Trunk) (e : PortJob) (j : Job) (fs : List (Option CanvasFrame)) :
    (s.runJob t e j fs).2.lines K = s.lines K := by
  unfold State.runJob
  dsimp only
  rw [State.foldl_snd_lines K _ (fun a v => by split <;> simp)]
  simp

@[simp] theorem State.putCodes_lines (s : State) (t : Trunk) (e : PortJob) (j : Job) (j' : Job) : (s.putCodes t e j j').lines K = s.lines K := by
  simp [State.putCodes]

@[simp] theorem State.leafDone_lines (s : State) (t : Trunk) (i : Nat) (rerun : Bool) : (s.leafDone t i rerun).lines K = s.lines K := by
  unfold State.leafDone
  dsimp only
  repeat' split
  all_goals simp

@[simp] theorem State.burstDone_lines (s : State) (t : Trunk) (rec : Nat) : (s.burstDone t rec).lines K = s.lines K := by
  unfold State.burstDone
  split <;> simp

@[simp] theorem State.residueCapture_lines (s : State) (t : Trunk) (c : LaneCheck) : (s.residueCapture t c).lines K = s.lines K := by
  simp [State.residueCapture]

@[simp] theorem State.residueReport_lines (s : State) (t : Trunk) (c : LaneCheck) : (s.residueReport t c).lines K = s.lines K := by
  simp [State.residueReport]

@[simp] theorem State.residueFails_lines (s : State) (t : Trunk) (i : Nat) (c : LaneCheck) (hK : .ports ∈ K ∧ .dmx ∈ K ∧ .saps ∈ K) :
    (s.residueFails t i c).lines K = s.lines K := by simp [State.residueFails, hK]
@[simp] theorem State.laneChecked_lines (s : State) (t : Trunk) (i : Nat) (c : LaneCheck) (hK : .ports ∈ K ∧ .dmx ∈ K ∧ .saps ∈ K) :
    (s.laneChecked t i c).lines K = s.lines K := by simp [State.laneChecked, hK]

@[simp] theorem State.eccDemand_lines (s : State) (t : Trunk) (i : Nat) (x : EccRead) (hK : .ports ∈ K ∧ .dmx ∈ K ∧ .saps ∈ K) :
    (s.eccDemand t i x).lines K = s.lines K := by
  unfold State.eccDemand
  split <;> simp [hK]

@[simp] theorem State.rerunDone_lines (s : State) (t : Trunk) (i : Nat) (c : Option LaneCheck) (hK : .ports ∈ K ∧ .dmx ∈ K ∧ .saps ∈ K) :
    (s.rerunDone t i c).lines K = s.lines K := by
  unfold State.rerunDone
  repeat' split
  all_goals simp [hK]

@[simp] theorem State.doWork_lines (s : State) (t : Trunk) (w : Work) (hK : .ports ∈ K ∧ .dmx ∈ K ∧ .saps ∈ K) :
    (s.doWork t w).lines K = s.lines K := by
  unfold State.doWork
  split <;> simp [hK]

@[simp] theorem State.taskDone_lines (s : State) (t : Trunk) (slot : Nat) (free : Bool) (w : Work) (hK : .ports ∈ K ∧ .dmx ∈ K ∧ .saps ∈ K) :
    (s.taskDone t slot free w).lines K = s.lines K := by simp [State.taskDone, hK]

@[simp] theorem State.diagCodeTo_lines (s : State) (i c code : Nat) (hK : .leaves ∈ K) : (s.diagCodeTo i c code).lines K = s.lines K := by
  simp [State.diagCodeTo, hK]

@[simp] theorem State.lcReturn_lines (s : State) (f : List Byte) (hK : .leaves ∈ K) : (s.lcReturn f).lines K = s.lines K := by
  unfold State.lcReturn
  dsimp only
  repeat' split
  all_goals simp [hK]

/-! ### What the crown reads for a frame -/

@[simp] theorem State.hwReport_lines (s : State) (t : Trunk) (b : Nat) (p : Nat × Nat × Nat) (inForce : Bool)
    (hK : .ports ∈ K ∧ .dmx ∈ K ∧ .saps ∈ K) :
    (s.hwReport t b p inForce).lines K = s.lines K := by simp [State.hwReport, hK]
@[simp] theorem State.hwBlockFails_lines (s : State) (t : Trunk) (b : Nat) (p : Nat × Nat × Nat) (hK : .ports ∈ K ∧ .dmx ∈ K ∧ .saps ∈ K) :
    (s.hwBlockFails t b p).lines K = s.lines K := by simp [State.hwBlockFails, hK]

@[simp] theorem State.hwScrub_lines (s : State) (t : Trunk) (r : HwRead) (hK : .ports ∈ K ∧ .dmx ∈ K ∧ .saps ∈ K) :
    (s.hwScrub t r).lines K = s.lines K := by
  unfold State.hwScrub
  split <;> simp [hK]

@[simp] theorem State.hwReads_lines (s : State) (t : Trunk) (c which : Nat) (l : List HwRead) (hK : .ports ∈ K ∧ .dmx ∈ K ∧ .saps ∈ K) :
    (s.hwReads t c which l).1.lines K = s.lines K := by
  refine State.foldl_fst_lines K _ (fun a r => ?_) _ _
  split
  · rfl
  · split <;> simp [hK]

@[simp] theorem State.fetchWord_lines (s : State) (t : Trunk) (n : Nat) (x : EccRead) (hK : .ports ∈ K ∧ .dmx ∈ K ∧ .saps ∈ K) :
    (s.fetchWord t n x).1.lines K = s.lines K := by
  unfold State.fetchWord
  split <;> simp [hK]

@[simp] theorem State.canvasComplete_lines (s : State) (t : Trunk) (c : Nat) (words : List (Fin 32 × EccRead)) (blocks : List HwRead)
    (hK : .ports ∈ K ∧ .dmx ∈ K ∧ .saps ∈ K) : (s.canvasComplete t c words blocks).lines K = s.lines K := by
  unfold State.canvasComplete
  split
  · rfl
  · simp [hK, State.foldl_fst_lines]

@[simp] theorem State.rastReadLine_lines (s : State) (t : Trunk) (g : Nat) (blocks : List HwRead) (hK : .ports ∈ K ∧ .dmx ∈ K ∧ .saps ∈ K) :
    (s.rastReadLine t g blocks).lines K = s.lines K := by simp [State.rastReadLine, hK]

/-! ### The alarm -/

@[simp] theorem State.hwAccept_lines (s : State) (o : List Byte) : (s.hwAccept o).lines K = s.lines K := by simp [State.hwAccept]
@[simp] theorem State.hwTake_lines (s : State) (h : StemHdr) (o : List Byte) : (s.hwTake h o).lines K = s.lines K := by simp [State.hwTake]
@[simp] theorem State.underSafetySeed_lines (s : State) : s.underSafetySeed.lines K = s.lines K := by simp [State.underSafetySeed]

@[simp] theorem State.purge_lines (s : State) (hK : .ports ∈ K ∧ .dmx ∈ K ∧ .saps ∈ K) : s.purge.lines K = s.lines K := by
  simp only [State.purge, State.lines_mk, lineView_outputs hK]
  simp [hK]

@[simp] theorem State.alarmForce_lines (s : State) (hK : .ports ∈ K ∧ .dmx ∈ K ∧ .saps ∈ K) : s.alarmForce.lines K = s.lines K := by
  simp [State.alarmForce, hK]

@[simp] theorem State.alarmRelease_lines (s : State) : s.alarmRelease.lines K = s.lines K := by simp [State.alarmRelease]
@[simp] theorem State.releaseWrite_lines (s : State) : s.releaseWrite.lines K = s.lines K := by simp [State.releaseWrite]
@[simp] theorem State.loopEvent_lines (s : State) (what : Nat) : (s.loopEvent what).lines K = s.lines K := by simp [State.loopEvent]

@[simp] theorem State.evaluate_lines (s : State) (a b : Nat) (hK : .ports ∈ K ∧ .dmx ∈ K ∧ .saps ∈ K) : (s.evaluate a b).lines K = s.lines K := by
  simp [State.evaluate, hK]

@[simp] theorem State.acceptLoop_lines (s : State) (f : Field) (c : Nat) : (s.acceptLoop f c).lines K = s.lines K := by simp [State.acceptLoop]
@[simp] theorem State.loopSample_lines (s : State) (ohmsA ohmsB : Nat) (hK : .ports ∈ K ∧ .dmx ∈ K ∧ .saps ∈ K) :
    (s.loopSample ohmsA ohmsB).lines K = s.lines K := by simp [State.loopSample, hK]
@[simp] theorem State.safetyPack_lines (s : State) (t : Trunk) : (s.safetyPack t).lines K = s.lines K := by simp [State.safetyPack]
@[simp] theorem State.rootPackRec_lines (s : State) (p rec : Nat) (hK : .ports ∈ K ∧ .dmx ∈ K ∧ .saps ∈ K) :
    (s.rootPackRec p rec).lines K = s.lines K := by simp [State.rootPackRec, hK]

@[simp] theorem State.rootPack_lines (s : State) (hK : .ports ∈ K ∧ .dmx ∈ K ∧ .saps ∈ K) : s.rootPack.lines K = s.lines K := by
  unfold State.rootPack
  split
  · rfl
  · simp only [State.lines_mk, lineView_self]
    exact State.foldl_lines K _ (fun u p => by split <;> simp [hK]) _ _

/-! ### Grove pairs -/

@[simp] theorem State.groveIn_lines (s : State) (h : GroveHdr) (type : Nat) (f : State → State) (hf : ∀ u, (f u).lines K = u.lines K) :
    (s.groveIn h type f).lines K = s.lines K := by simp [State.groveIn, hf]

@[simp] theorem State.takeRecord_lines (s : State) (rec : Nat) : (s.takeRecord rec).lines K = s.lines K := by
  unfold State.takeRecord
  dsimp only
  repeat' split
  all_goals simp

@[simp] theorem State.takeover_lines (s : State) : s.takeover.lines K = s.lines K := by simp [State.takeover]
@[simp] theorem State.losePartner_lines (s : State) : s.losePartner.lines K = s.lines K := by simp [State.losePartner]
@[simp] theorem State.heartbeatOut_lines (s : State) (hK : .ports ∈ K) : s.heartbeatOut.lines K = s.lines K := by simp [State.heartbeatOut, hK]
@[simp] theorem State.heartbeatIn_lines (s : State) (h : GroveHdr) (serving takeover : Bool) (seedId : Nat) :
    (s.heartbeatIn h serving takeover seedId).lines K = s.lines K := by simp [State.heartbeatIn]
@[simp] theorem State.heartbeatLate_lines (s : State) : s.heartbeatLate.lines K = s.lines K := by simp [State.heartbeatLate]

@[simp] theorem State.takeoverMsg_lines (s : State) (action k : Nat) (hK : .ports ∈ K) : (s.takeoverMsg action k).lines K = s.lines K := by
  simp [State.takeoverMsg, hK]

@[simp] theorem State.returnSend_lines (s : State) (hK : .ports ∈ K) : s.returnSend.lines K = s.lines K := by simp [State.returnSend, hK]
@[simp] theorem State.takeoverIn_lines (s : State) (h : GroveHdr) (accept : Bool) (k : Nat) (hK : .ports ∈ K) :
    (s.takeoverIn h accept k).lines K = s.lines K := by simp [State.takeoverIn, hK]

@[simp] theorem State.groveEpoch_lines (s : State) : s.groveEpoch.lines K = s.lines K := by
  unfold State.groveEpoch
  dsimp only
  repeat' split
  all_goals simp

@[simp] theorem State.ringQueue_lines (s : State) (port len launch : Nat) (data : List Byte) (hK : .ports ∈ K) :
    (s.ringQueue port len launch data).lines K = s.lines K := by simp [State.ringQueue, hK]

@[simp] theorem State.ringIn_lines (s : State) (src port part len launch : Nat) (data : List Byte) (hK : .ports ∈ K) :
    (s.ringIn src port part len launch data).lines K = s.lines K := by
  unfold State.ringIn
  dsimp only
  repeat' split
  all_goals simp [hK]

@[simp] theorem State.ringLate_lines (s : State) : s.ringLate.lines K = s.lines K := by simp [State.ringLate]

/-! ### Plain register accesses -/

@[simp] theorem State.plainWrite_lines (s : State) (a v : Nat) : (s.plainWrite a v).lines K = s.lines K := by
  unfold State.plainWrite
  split <;> simp

@[simp] theorem State.plainRead_lines (s : State) (a : Nat) : (s.plainRead a).2.lines K = s.lines K := by
  unfold State.plainRead
  split <;> simp

end Sys2Proof.Machine
end

section
/-! PROOFS. What the operations of epochs, seeds, time, the ring record, images, power, tests and accesses from outside
keep of the line parts, one lemma an operation: it gives up the parts that the operation touches. -/

namespace Sys2Proof.Machine

open Sys2Proof.Safety (Part)

variable (K : List Part)

/-! ### The tree epoch and the epochs of outputs -/

@[simp] theorem State.passPoint_lines (s : State) (key c k : Nat) : (s.passPoint key c k).lines K = s.lines K := by simp [State.passPoint]
@[simp] theorem State.fitOne_lines (s : State) (n : Nat) : (s.fitOne n).lines K = s.lines K := by simp [State.fitOne]
@[simp] theorem State.dmxCapture_lines (s : State) (hK : .dmx ∈ K) : s.dmxCapture.lines K = s.lines K := by simp [State.dmxCapture, hK]
@[simp] theorem State.takeCapture_lines (s : State) (hK : .dmx ∈ K) : s.takeCapture.lines K = s.lines K := by simp [State.takeCapture, hK]
@[simp] theorem State.moveSpare_lines (s : State) : s.moveSpare.lines K = s.lines K := by simp [State.moveSpare]
@[simp] theorem State.shedDecision_lines (s : State) (hK : .leaves ∈ K) : s.shedDecision.lines K = s.lines K := by simp [State.shedDecision, hK]

@[simp] theorem State.chooseCamera_lines (s : State) (t : Trunk) (g : Nat) : (s.chooseCamera t g).lines K = s.lines K := by
  unfold State.chooseCamera
  split <;> simp

@[simp] theorem State.rasterSet_lines (s : State) (t : Trunk) : (s.rasterSet t).lines K = s.lines K := by simp [State.rasterSet]

@[simp] theorem State.crownWrite_lines (s : State) (t : Trunk) (off v : Nat) : (s.crownWrite t off v).lines K = s.lines K := by
  simp [State.crownWrite]

@[simp] theorem State.rastWrite_lines (s : State) (t : Trunk) (off v : Nat) : (s.rastWrite t off v).lines K = s.lines K := by simp [State.rastWrite]

@[simp] theorem State.sendWrite_lines (s : State) (t : Trunk) (c off v : Nat) : (s.sendWrite t c off v).lines K = s.lines K := by
  simp [State.sendWrite]

@[simp] theorem State.keepOld_lines (s : State) (t : Trunk) (off : Nat) : (s.keepOld t off).lines K = s.lines K := by simp [State.keepOld]

@[simp] theorem State.applyPosted_lines (s : State) (t : Trunk) (c off v : Nat) : (s.applyPosted t c off v).lines K = s.lines K := by
  simp [State.applyPosted]

@[simp] theorem State.applyAll_lines (s : State) (t : Trunk) (c : Nat) : (s.applyAll t c).lines K = s.lines K := by simp [State.applyAll]
@[simp] theorem State.overrun_lines (s : State) (t : Trunk) (c : Nat) : (s.overrun t c).lines K = s.lines K := by simp [State.overrun]
@[simp] theorem State.deliver_lines (s : State) (t : Trunk) (c : Nat) : (s.deliver t c).lines K = s.lines K := by simp [State.deliver]
@[simp] theorem State.guestTurn_lines (s : State) (t : Trunk) (c : Nat) : (s.guestTurn t c).lines K = s.lines K := by simp [State.guestTurn]
@[simp] theorem State.guestEpoch_lines (s : State) : s.guestEpoch.lines K = s.lines K := by simp [State.guestEpoch]
@[simp] theorem State.mirrorIdle_lines (s : State) : s.mirrorIdle.lines K = s.lines K := by simp [State.mirrorIdle]

@[simp] theorem State.treeEpoch_lines (s : State) (hK : .leaves ∈ K ∧ .ports ∈ K ∧ .dmx ∈ K ∧ .saps ∈ K) : s.treeEpoch.lines K = s.lines K := by
  unfold State.treeEpoch
  dsimp only
  repeat' split
  all_goals simp [hK]

@[simp] theorem State.epochOf_lines (s : State) (e : EpochOf) : (s.epochOf e).lines K = s.lines K := by
  unfold State.epochOf
  dsimp only
  repeat' split
  all_goals simp

/-! ### Seed activation -/

@[simp] theorem State.startCadences_lines (s : State) (at_ : Option (Nat × Nat)) : (s.startCadences at_).lines K = s.lines K := by
  unfold State.startCadences
  split <;> simp

/-! ### PTP and time references -/

@[simp] theorem State.putPtp_lines (s : State) (i : Nat) (x : PtpSt) : (s.putPtp i x).lines K = s.lines K := by simp [State.putPtp]
@[simp] theorem State.setPtp_lines (s : State) (i v : Nat) : (s.setPtp i v).lines K = s.lines K := by simp [State.setPtp]
@[simp] theorem State.useGm_lines (s : State) (i : Nat) (a : PtpAnnounce) : (s.useGm i a).lines K = s.lines K := by simp [State.useGm]
@[simp] theorem State.ptpHoldover_lines (s : State) (i : Nat) : (s.ptpHoldover i).lines K = s.lines K := by simp [State.ptpHoldover]
@[simp] theorem State.masterLock_lines (s : State) (i : Nat) : (s.masterLock i).lines K = s.lines K := by simp [State.masterLock]
@[simp] theorem State.follow_lines (s : State) (i : Nat) (a : PtpAnnounce) : (s.follow i a).lines K = s.lines K := by simp [State.follow]
@[simp] theorem State.lead_lines (s : State) (i : Nat) : (s.lead i).lines K = s.lines K := by simp [State.lead]
@[simp] theorem State.standAside_lines (s : State) (i : Nat) (a : PtpAnnounce) : (s.standAside i a).lines K = s.lines K := by simp [State.standAside]

@[simp] theorem State.bmca_lines (s : State) (i : Nat) : (s.bmca i).lines K = s.lines K := by
  unfold State.bmca
  split <;> simp

@[simp] theorem State.announceIn_lines (s : State) (i : Nat) (a : PtpAnnounce) : (s.announceIn i a).lines K = s.lines K := by simp [State.announceIn]

@[simp] theorem State.announceLate_lines (s : State) (i : Nat) : (s.announceLate i).lines K = s.lines K := by
  unfold State.announceLate
  dsimp only
  repeat' split
  all_goals simp

@[simp] theorem State.syncLate_lines (s : State) (i : Nat) : (s.syncLate i).lines K = s.lines K := by simp [State.syncLate]

@[simp] theorem State.servo_lines (s : State) (i : Nat) (o t : Int) : (s.servo i o t).lines K = s.lines K := by
  unfold State.servo
  dsimp only
  repeat' split
  all_goals simp

@[simp] theorem State.syncSample_lines (s : State) (i : Nat) (t1 t2 c : Int) : (s.syncSample i t1 t2 c).lines K = s.lines K := by
  unfold State.syncSample
  dsimp only
  repeat' split
  all_goals simp

@[simp] theorem State.delaySample_lines (s : State) (i : Nat) (m : Int) : (s.delaySample i m).lines K = s.lines K := by simp [State.delaySample]
@[simp] theorem State.syncIn_lines (s : State) (i : Nat) (m : PtpEvent) (sub : Nat) : (s.syncIn i m sub).lines K = s.lines K := by simp [State.syncIn]

@[simp] theorem State.followIn_lines (s : State) (i : Nat) (m : PtpEvent) : (s.followIn i m).lines K = s.lines K := by
  unfold State.followIn
  split <;> simp

@[simp] theorem State.delayRespIn_lines (s : State) (i seq : Nat) (t4 corr : Int) : (s.delayRespIn i seq t4 corr).lines K = s.lines K := by
  unfold State.delayRespIn
  dsimp only
  repeat' split
  all_goals simp

@[simp] theorem State.ptpSend_lines (s : State) (i kind seq flags : Nat) (log : Int) (body : List Byte) (stamp : Bool) (hK : .ports ∈ K) :
    (s.ptpSend i kind seq flags log body stamp).lines K = s.lines K := by simp [State.ptpSend, hK]
@[simp] theorem State.pdelaySend_lines (s : State) (n kind seq : Nat) (body : List Byte) (hK : .ports ∈ K) :
    (s.pdelaySend n kind seq body).lines K = s.lines K := by simp [State.pdelaySend, hK]

@[simp] theorem State.pdelayIn_lines (s : State) (port : Nat) (request : Bool) (src seq : Nat) (m : Int) (hK : .ports ∈ K) :
    (s.pdelayIn port request src seq m).lines K = s.lines K := by
  unfold State.pdelayIn
  dsimp only
  repeat' split
  all_goals simp [hK]

@[simp] theorem State.announceOut_lines (s : State) (i : Nat) (hK : .ports ∈ K) : (s.announceOut i).lines K = s.lines K := by
  simp [State.announceOut, hK]

@[simp] theorem State.syncOut_lines (s : State) (i : Nat) (hK : .ports ∈ K) : (s.syncOut i).lines K = s.lines K := by simp [State.syncOut, hK]

@[simp] theorem State.delayReqOut_lines (s : State) (i : Nat) (hK : .ports ∈ K) : (s.delayReqOut i).lines K = s.lines K := by
  simp [State.delayReqOut, hK]

@[simp] theorem State.delayRespOut_lines (s : State) (i src seq sub : Nat) (hK : .ports ∈ K) :
    (s.delayRespOut i src seq sub).lines K = s.lines K := by simp [State.delayRespOut, hK]
@[simp] theorem State.ptpEnable_lines (s : State) (i : Nat) (on : Bool) : (s.ptpEnable i on).lines K = s.lines K := by simp [State.ptpEnable]
@[simp] theorem State.ptpDiscard_lines (s : State) (i : Nat) : (s.ptpDiscard i).lines K = s.lines K := by simp [State.ptpDiscard]
@[simp] theorem State.refEvent_lines (s : State) : s.refEvent.lines K = s.lines K := by simp [State.refEvent]
@[simp] theorem State.setTime_lines (s : State) (i sec : Nat) : (s.setTime i sec).lines K = s.lines K := by simp [State.setTime]

@[simp] theorem State.ppsIn_lines (s : State) : s.ppsIn.lines K = s.lines K := by
  unfold State.ppsIn
  extract_lets gap near counted valid good
  have hcounted : counted.lines K = s.lines K := by simp [counted]
  split
  · exact hcounted
  · rw [State.foldl_lines K _ (fun u i => ?_)]
    · simp [good, valid, hcounted]
    · dsimp only
      cases (u.ptp i).todAt <;> simp

@[simp] theorem State.ppsLose_lines (s : State) : s.ppsLose.lines K = s.lines K := by simp [State.ppsLose]
@[simp] theorem State.setTod_lines (s : State) (i : Nat) (atPps : Bool) : (s.setTod i atPps).lines K = s.lines K := by simp [State.setTod]
@[simp] theorem State.ppsOutEdge_lines (s : State) : s.ppsOutEdge.lines K = s.lines K := by simp [State.ppsOutEdge]
@[simp] theorem State.tenMLocks_lines (s : State) : s.tenMLocks.lines K = s.lines K := by simp [State.tenMLocks]
@[simp] theorem State.tenMLoses_lines (s : State) : s.tenMLoses.lines K = s.lines K := by simp [State.tenMLoses]

/-! ### The ring record -/

@[simp] theorem State.openSlot_lines (s : State) (k t : Nat) : (s.openSlot k t).lines K = s.lines K := by simp [State.openSlot]
@[simp] theorem State.freezeOpen_lines (s : State) : s.freezeOpen.lines K = s.lines K := by simp [State.freezeOpen]

@[simp] theorem State.recordNext_lines (s : State) : s.recordNext.lines K = s.lines K := by
  unfold State.recordNext
  dsimp only
  repeat' split
  all_goals simp

@[simp] theorem State.recFreeze_lines (s : State) : s.recFreeze.lines K = s.lines K := by simp [State.recFreeze]
@[simp] theorem State.recThaw_lines (s : State) (k : Nat) : (s.recThaw k).lines K = s.lines K := by simp [State.recThaw]

/-! ### Settings -/

@[simp] theorem State.useSettings_lines (s : State) : s.useSettings.lines K = s.lines K := by
  unfold State.useSettings
  dsimp only
  repeat' split
  all_goals simp

@[simp] theorem State.writeGen_lines (s : State) (state : Nat) (body : List Byte) : (s.writeGen state body).lines K = s.lines K := by
  simp [State.writeGen]

@[simp] theorem State.writeSettings_lines (s : State) (body : List Byte) : (s.writeSettings body).lines K = s.lines K := by simp [State.writeSettings]

@[simp] theorem State.shadowLive_lines (s : State) (key : Option (List Byte)) : (s.shadowLive key).lines K = s.lines K := by
  unfold State.shadowLive
  dsimp only
  repeat' split
  all_goals simp

@[simp] theorem State.shadowDrop_lines (s : State) : s.shadowDrop.lines K = s.lines K := by simp [State.shadowDrop]

@[simp] theorem State.loadImage_lines (s : State) (addrs : List Nat) (v : List Byte) : (s.loadImage addrs v).lines K = s.lines K :=
  State.foldl_lines K _ (fun u x => by split <;> simp) _ _

@[simp] theorem State.loadRecord_lines (s : State) (r : Nat × Bool × List Byte) : (s.loadRecord r).lines K = s.lines K := by
  unfold State.loadRecord
  split <;> simp

@[simp] theorem State.loadSettings_lines (s : State) (cold : Bool) : (s.loadSettings cold).lines K = s.lines K := by simp [State.loadSettings]
@[simp] theorem State.lifeRefresh_lines (s : State) : s.lifeRefresh.lines K = s.lines K := by simp [State.lifeRefresh]

/-! ### The image store -/

@[simp] theorem State.setDigest_lines (s : State) (base : Nat) (d : List Byte) : (s.setDigest base d).lines K = s.lines K := by simp [State.setDigest]
@[simp] theorem State.updRegs_lines (s : State) : s.updRegs.lines K = s.lines K := by simp [State.updRegs]
@[simp] theorem State.putSlots_lines (s : State) (cls : Nat) (x : ImgSlots) : (s.putSlots cls x).lines K = s.lines K := by simp [State.putSlots]
@[simp] theorem State.putArmed_lines (s : State) (cls : Nat) (a : Armed) : (s.putArmed cls a).lines K = s.lines K := by simp [State.putArmed]
@[simp] theorem State.disarm_lines (s : State) (cls : Nat) : (s.disarm cls).lines K = s.lines K := by simp [State.disarm]

@[simp] theorem State.seedRefused_lines (s : State) (img : List Byte) (f : Nat × Nat × Nat) : (s.seedRefused img f).lines K = s.lines K := by
  simp [State.seedRefused]

@[simp] theorem State.stageImage_lines (s : State) (h : StemHdr) (cls : Nat) (img : List Byte) : (s.stageImage h cls img).lines K = s.lines K := by
  simp [State.stageImage]

@[simp] theorem State.stageTake_lines (s : State) (h : StemHdr) (cls : Nat) (img : List Byte) : (s.stageTake h cls img).lines K = s.lines K := by
  unfold State.stageTake
  dsimp only
  repeat' split
  all_goals simp

@[simp] theorem State.sendUpd_lines (s : State) (dst op cls code : Nat) (a : Armed) (hK : .ports ∈ K) :
    (s.sendUpd dst op cls code a).lines K = s.lines K := by simp [State.sendUpd, hK]

@[simp] theorem State.answerAct_lines (s : State) (a : Armed) (code : Nat) : (s.answerAct a code).lines K = s.lines K := by
  unfold State.answerAct
  split <;> simp

@[simp] theorem State.checkGo_lines (s : State) (cls : Nat) (hK : .ports ∈ K) : (s.checkGo cls).lines K = s.lines K := by
  unfold State.checkGo
  split <;> simp [hK]

@[simp] theorem State.acknowledge_lines (s : State) (cls : Nat) (hK : .ports ∈ K) : (s.acknowledge cls).lines K = s.lines K := by
  unfold State.acknowledge
  split <;> simp [hK]

@[simp] theorem State.writeNow_lines (s : State) (cls : Nat) : (s.writeNow cls).lines K = s.lines K := by simp [State.writeNow]
@[simp] theorem State.activateCmd_lines (s : State) (h : StemHdr) (cls axis pos : Nat) (digest : List Byte) (hK : .ports ∈ K) :
    (s.activateCmd h cls axis pos digest).lines K = s.lines K := by simp [State.activateCmd, hK]

@[simp] theorem State.prepared_lines (s : State) (cls : Nat) (hK : .ports ∈ K) : (s.prepared cls).lines K = s.lines K := by
  unfold State.prepared
  split <;> simp [hK]

@[simp] theorem State.actFails_lines (s : State) (cls code : Nat) : (s.actFails cls code).lines K = s.lines K := by
  unfold State.actFails
  split <;> simp

@[simp] theorem State.storeSafety_lines (s : State) (img : List Byte) : (s.storeSafety img).lines K = s.lines K := by simp [State.storeSafety]
@[simp] theorem State.confirm_lines (s : State) (cls : Nat) : (s.confirm cls).lines K = s.lines K := by simp [State.confirm]
@[simp] theorem State.reportHealth_lines (s : State) (hK : .ports ∈ K) : s.reportHealth.lines K = s.lines K := by simp [State.reportHealth, hK]

@[simp] theorem State.imageConfirmation_lines (s : State) (cls : Nat) (hK : .ports ∈ K) : (s.imageConfirmation cls).lines K = s.lines K := by
  simp [State.imageConfirmation, hK]

@[simp] theorem State.confirmCmd_lines (s : State) (h : StemHdr) (cls : Nat) (digest : List Byte) :
    (s.confirmCmd h cls digest).lines K = s.lines K := by simp [State.confirmCmd]
@[simp] theorem State.fallbackEffects_lines (s : State) (cls : Nat) : (s.fallbackEffects cls).lines K = s.lines K := by simp [State.fallbackEffects]

@[simp] theorem State.armFallback_lines (s : State) (cls axis pos : Nat) (go : Bool) : (s.armFallback cls axis pos go).lines K = s.lines K := by
  simp [State.armFallback]

@[simp] theorem State.imageFallback_lines (s : State) (cls : Nat) (hK : .ports ∈ K) : (s.imageFallback cls).lines K = s.lines K := by
  unfold State.imageFallback
  dsimp only
  repeat' split
  all_goals simp [hK]

@[simp] theorem State.fallbackAlone_lines (s : State) (cls : Nat) : (s.fallbackAlone cls).lines K = s.lines K := by simp [State.fallbackAlone]

@[simp] theorem State.discardCmd_lines (s : State) (h : StemHdr) (cls : Nat) (hK : .ports ∈ K) : (s.discardCmd h cls).lines K = s.lines K := by
  unfold State.discardCmd
  dsimp only
  repeat' split
  all_goals simp [hK]

@[simp] theorem State.updActivate_lines (s : State) (h : GroveHdr) (m : UpdMsg) (hK : .ports ∈ K) : (s.updActivate h m).lines K = s.lines K := by
  simp [State.updActivate, hK]

@[simp] theorem State.updAck_lines (s : State) (h : GroveHdr) (refuse : Bool) (m : UpdMsg) (hK : .ports ∈ K) :
    (s.updAck h refuse m).lines K = s.lines K := by
  unfold State.updAck
  repeat' split
  all_goals simp [hK]

@[simp] theorem State.updGo_lines (s : State) (h : GroveHdr) (cancel : Bool) (m : UpdMsg) : (s.updGo h cancel m).lines K = s.lines K := by
  unfold State.updGo
  repeat' split
  all_goals simp

@[simp] theorem State.goDeadline_lines (s : State) (cls : Nat) (hK : .ports ∈ K) : (s.goDeadline cls).lines K = s.lines K := by
  unfold State.goDeadline
  split <;> simp [hK]

@[simp] theorem State.noGo_lines (s : State) (cls : Nat) (hK : .ports ∈ K) : (s.noGo cls).lines K = s.lines K := by
  unfold State.noGo
  split <;> simp [hK]

@[simp] theorem State.updHealth_lines (s : State) (h : GroveHdr) (m : UpdMsg) (hK : .ports ∈ K) : (s.updHealth h m).lines K = s.lines K := by
  simp [State.updHealth, hK]

@[simp] theorem State.updConfirm_lines (s : State) (h : GroveHdr) (m : UpdMsg) : (s.updConfirm h m).lines K = s.lines K := by simp [State.updConfirm]

/-! ### Power and reset -/

@[simp] theorem State.faultPad_lines (s : State) : s.faultPad.lines K = s.lines K := by simp [State.faultPad]
@[simp] theorem State.freshNonce_lines (s : State) : s.freshNonce.lines K = s.lines K := by simp [State.freshNonce]
@[simp] theorem State.calFuses_lines (s : State) : s.calFuses.lines K = s.lines K := by simp [State.calFuses]
@[simp] theorem State.bootLoader_lines (s : State) : s.bootLoader.lines K = s.lines K := by simp [State.bootLoader]
@[simp] theorem State.bootSeed_lines (s : State) : s.bootSeed.lines K = s.lines K := by simp [State.bootSeed]
@[simp] theorem State.safetySeedEvent_lines (s : State) (f : Nat × Nat × Nat) (repaired : Bool) :
    (s.safetySeedEvent f repaired).lines K = s.lines K := by simp [State.safetySeedEvent]

@[simp] theorem State.safetySeedCheck_lines (s : State) : s.safetySeedCheck.lines K = s.lines K := by
  unfold State.safetySeedCheck
  dsimp only
  repeat' split
  all_goals simp

@[simp] theorem State.closeSegment_lines (s : State) : s.closeSegment.lines K = s.lines K := by simp [State.closeSegment]
@[simp] theorem State.romBoot_lines (s : State) (cold : Bool) : (s.romBoot cold).lines K = s.lines K := by simp [State.romBoot]

@[simp] theorem State.powerDown_lines (s : State) (hK : .ports ∈ K ∧ .dmx ∈ K ∧ .saps ∈ K) : s.powerDown.lines K = s.lines K := by
  simp only [State.powerDown, State.lines_mk, lineView_outputs hK]
  simp

@[simp] theorem State.dip_lines (s : State) : s.dip.lines K = s.lines K := by simp [State.dip]
@[simp] theorem State.mainsOut_lines (s : State) (us : Nat) (overVolt : Bool) (hK : .ports ∈ K ∧ .dmx ∈ K ∧ .saps ∈ K) :
    (s.mainsOut us overVolt).lines K = s.lines K := by simp [State.mainsOut, hK]
@[simp] theorem State.auxTrip_lines (s : State) (us : Nat) : (s.auxTrip us).lines K = s.lines K := by simp [State.auxTrip]

@[simp] theorem State.auxBack_lines (s : State) : s.auxBack.lines K = s.lines K := by
  unfold State.auxBack
  split <;> simp

@[simp] theorem State.resetRelease_lines (s : State) : s.resetRelease.lines K = s.lines K := by simp [State.resetRelease]
@[simp] theorem State.seedLoaded_lines (s : State) (t : Trunk) : (s.seedLoaded t).lines K = s.lines K := by simp [State.seedLoaded]

/-! ### Commands of the graft bridge -/

@[simp] theorem State.graftPair_lines (s : State) (t : Trunk) (x : GraftTx) (hK : .ports ∈ K ∧ .dmx ∈ K ∧ .saps ∈ K) :
    (s.graftPair t x).lines K = s.lines K := by
  unfold State.graftPair
  dsimp only
  repeat' split
  all_goals simp [hK]

@[simp] theorem State.graftRequest_lines (s : State) (i : Nat) (core : Option Trunk) (x : GraftTx) (hK : .ports ∈ K ∧ .dmx ∈ K ∧ .saps ∈ K) :
    (s.graftRequest i core x).lines K = s.lines K := by
  unfold State.graftRequest
  split <;> simp [hK]

@[simp] theorem State.graftAnswer_lines (s : State) (tag : Nat) (a : GraftAnswer) (hK : .ports ∈ K ∧ .dmx ∈ K) :
    (s.graftAnswer tag a).lines K = s.lines K := by
  unfold State.graftAnswer
  split <;> simp [hK]

@[simp] theorem State.graftAgain_lines (s : State) (tag : Nat) (hK : .ports ∈ K) : (s.graftAgain tag).lines K = s.lines K := by
  unfold State.graftAgain
  repeat' split
  all_goals simp [hK]

@[simp] theorem State.graftLate_lines (s : State) (tag : Nat) (hK : .ports ∈ K ∧ .dmx ∈ K) : (s.graftLate tag).lines K = s.lines K := by
  unfold State.graftLate
  split <;> simp [hK]

@[simp] theorem State.graftAbort_lines (s : State) (x : GraftTx) (hK : .ports ∈ K) : (s.graftAbort x).lines K = s.lines K := by
  simp [State.graftAbort, hK]

@[simp] theorem State.graftInbound_lines (s : State) (pos : Nat) (m : GraftMsg) (hK : .ports ∈ K ∧ .dmx ∈ K) :
    (s.graftInbound pos m).lines K = s.lines K := by simp [State.graftInbound, hK]

@[simp] theorem State.graftMessage_lines (s : State) (pos : Nat) (m : GraftMsg) (hK : .ports ∈ K ∧ .dmx ∈ K) :
    (s.graftMessage pos m).lines K = s.lines K := by
  unfold State.graftMessage
  dsimp only
  repeat' split
  all_goals simp [hK]

@[simp] theorem State.graftReissue_lines (s : State) (tag : Nat) (hK : .ports ∈ K ∧ .dmx ∈ K) : (s.graftReissue tag).lines K = s.lines K := by
  unfold State.graftReissue
  split <;> simp [hK]

@[simp] theorem State.graftAttr_lines (s : State) (r : Nat) (v : Word) : (s.graftAttr r v).lines K = s.lines K := by simp [State.graftAttr]

/-! ### Temperatures and trunk shutdown -/

@[simp] theorem State.calStale_lines (s : State) : s.calStale.lines K = s.lines K := by simp [State.calStale]
@[simp] theorem State.trunksOff_lines (s : State) : s.trunksOff.lines K = s.lines K := by simp [State.trunksOff]

@[simp] theorem State.tempRegs_lines (s : State) (base dieA dieB dieRoot : Int) : (s.tempRegs base dieA dieB dieRoot).lines K = s.lines K := by
  simp [State.tempRegs]

@[simp] theorem State.thermalSample_lines (s : State) (base dieA dieB dieRoot : Int) (hK : .ports ∈ K ∧ .dmx ∈ K ∧ .saps ∈ K) :
    (s.thermalSample base dieA dieB dieRoot).lines K = s.lines K := by simp [State.thermalSample, hK]
@[simp] theorem State.throttle_lines (s : State) (on : Bool) : (s.throttle on).lines K = s.lines K := by simp [State.throttle]
@[simp] theorem State.throttleOn_lines (s : State) : s.throttleOn.lines K = s.lines K := by simp [State.throttleOn]
@[simp] theorem State.throttleOff_lines (s : State) : s.throttleOff.lines K = s.lines K := by simp [State.throttleOff]

@[simp] theorem State.moduleFault_lines (s : State) (switchCore : Bool) : (s.moduleFault switchCore).lines K = s.lines K := by
  simp [State.moduleFault]

/-! ### Life cycle, self-test and calibration -/

@[simp] theorem State.lifeDone_lines (s : State) (h : StemHdr) (op code : Nat) : (s.lifeDone h op code).lines K = s.lines K := by
  simp [State.lifeDone]

@[simp] theorem State.signedCmd_lines (s : State) (h : StemHdr) (op : Nat) (p : List Byte) (f : State → State) (hf : ∀ u, (f u).lines K = u.lines K) :
    (s.signedCmd h op p f).lines K = s.lines K := by simp [State.signedCmd, hf]

@[simp] theorem State.lifeProvision_lines (s : State) (h : StemHdr) (key : List Byte) : (s.lifeProvision h key).lines K = s.lines K := by
  simp [State.lifeProvision]

@[simp] theorem State.lifeRekey_lines (s : State) (h : StemHdr) (p : List Byte) : (s.lifeRekey h p).lines K = s.lines K := by simp [State.lifeRekey]
@[simp] theorem State.lifeService_lines (s : State) (h : StemHdr) (leave : Bool) (p : List Byte) :
    (s.lifeService h leave p).lines K = s.lines K := by simp [State.lifeService]
@[simp] theorem State.bistRun_lines (s : State) (h : StemHdr) (kind trunk index pattern ms : Nat) :
    (s.bistRun h kind trunk index pattern ms).lines K = s.lines K := by simp [State.bistRun]

@[simp] theorem State.bistEnd_lines (s : State) (errors bits eye : Nat) (restored : Bool) :
    (s.bistEnd errors bits eye restored).lines K = s.lines K := by
  unfold State.bistEnd
  split <;> simp

@[simp] theorem State.vectorPass_lines (s : State) (t : Trunk) (pass : Bool) : (s.vectorPass t pass).lines K = s.lines K := by simp [State.vectorPass]
@[simp] theorem State.laneError_lines (s : State) (t : Trunk) (bits : Nat) : (s.laneError t bits).lines K = s.lines K := by simp [State.laneError]

@[simp] theorem State.laneQuiet_lines (s : State) (t : Trunk) : (s.laneQuiet t).lines K = s.lines K := by
  unfold State.laneQuiet
  split <;> simp

@[simp] theorem State.calBegin_lines (n : Nat) (s : State) : (State.calBegin n s).lines K = s.lines K := by
  induction n generalizing s with
  | zero => rfl
  | succ n ih =>
    unfold State.calBegin
    split <;> simp [ih]

@[simp] theorem State.calRun_lines (s : State) (h : StemHdr) (item index : Nat) (skew : Int) : (s.calRun h item index skew).lines K = s.lines K := by
  simp [State.calRun]

@[simp] theorem State.calEnd_lines (s : State) (c : CalRun) (code : Nat) : (s.calEnd c code).lines K = s.lines K := by simp [State.calEnd]

@[simp] theorem State.calPass_lines (s : State) (c : CalRun) (resE resI : Int) : (s.calPass c resE resI).lines K = s.lines K := by
  simp [State.calPass]

@[simp] theorem State.calPhase_lines (s : State) (c : CalRun) : (s.calPhase c).lines K = s.lines K := by simp [State.calPhase]

@[simp] theorem State.calSample_lines (s : State) (egress ingress : Int) (errors : Nat) :
    (s.calSample egress ingress errors).lines K = s.lines K := by
  unfold State.calSample
  split <;> simp

@[simp] theorem State.calLate_lines (s : State) : s.calLate.lines K = s.lines K := by
  unfold State.calLate
  split <;> simp

/-! ### Accesses from outside -/

@[simp] theorem State.axisWrite_lines (s : State) (a : Nat) (v : Word) : (s.axisWrite a v).lines K = s.lines K := by simp [State.axisWrite]
@[simp] theorem State.ringCfg_lines (s : State) (r : Nat) (v : Word) : (s.ringCfg r v).lines K = s.lines K := by simp [State.ringCfg]
@[simp] theorem State.stemWrite_lines (s : State) (a : Nat) (v : Word) : (s.stemWrite a v).lines K = s.lines K := by simp [State.stemWrite]

@[simp] theorem State.logWrite_lines (s : State) (f : Field) (v : Nat) (lo hi : Int) : (s.logWrite f v lo hi).lines K = s.lines K := by
  simp [State.logWrite]

@[simp] theorem State.intvWrite_lines (s : State) (i v : Nat) : (s.intvWrite i v).lines K = s.lines K := by simp [State.intvWrite]
@[simp] theorem State.timeWrite_lines (s : State) (a : Nat) (v : Word) : (s.timeWrite a v).lines K = s.lines K := by simp [State.timeWrite]
@[simp] theorem State.cmpWrite_lines (s : State) (v : Word) : (s.cmpWrite v).lines K = s.lines K := by simp [State.cmpWrite]
@[simp] theorem State.chkWrite_lines (s : State) (a n : Nat) (v : Word) : (s.chkWrite a n v).lines K = s.lines K := by simp [State.chkWrite]

@[simp] theorem State.calWrite_lines (s : State) (a : Nat) (v : Word) : (s.calWrite a v).lines K = s.lines K := by
  unfold State.calWrite
  split <;> simp

@[simp] theorem State.rootWrite_lines (s : State) (a : Nat) (v : Word) (hK : .ports ∈ K ∧ .switch ∈ K ∧ .dmx ∈ K ∧ .saps ∈ K) :
    (s.rootWrite a v).lines K = s.lines K := by
  unfold State.rootWrite
  dsimp only
  repeat' split
  all_goals simp [hK]

@[simp] theorem State.icuWrite_lines (s : State) (t : Trunk) (off : Nat) (v : Word) : (s.icuWrite t off v).lines K = s.lines K := by
  simp [State.icuWrite]

@[simp] theorem State.guestWrite_lines (s : State) (t : Trunk) (c off : Nat) (v : Word) : (s.guestWrite t c off v).lines K = s.lines K := by
  simp [State.guestWrite]

@[simp] theorem State.trunkWrite_lines (s : State) (t : Trunk) (off : Nat) (v : Word) : (s.trunkWrite t off v).lines K = s.lines K := by
  unfold State.trunkWrite
  split <;> simp

@[simp] theorem State.keepSet_lines (s0 s : State) (a : Nat) : (s0.keepSet s a).lines K = s.lines K := by
  unfold State.keepSet
  split <;> simp

@[simp] theorem State.rootStore_lines (s : State) (a : Nat) (v : Word) (hK : .ports ∈ K ∧ .switch ∈ K ∧ .dmx ∈ K ∧ .saps ∈ K) :
    (s.rootStore a v).lines K = s.lines K := by simp [State.rootStore, hK]

@[simp] theorem State.trunkStore_lines (s : State) (t : Trunk) (off : Nat) (v : Word) : (s.trunkStore t off v).lines K = s.lines K := by
  simp [State.trunkStore]

@[simp] theorem State.wordWrite_lines (s : State) (a : Nat) (v : Word) (hK : .ports ∈ K ∧ .switch ∈ K ∧ .dmx ∈ K ∧ .saps ∈ K) :
    (s.wordWrite a v).lines K = s.lines K := by simp [State.wordWrite, hK]
@[simp] theorem State.busWrite_lines (s : State) (a : Nat) (v : Word) (hK : .ports ∈ K ∧ .switch ∈ K ∧ .dmx ∈ K ∧ .saps ∈ K) :
    (s.busWrite a v).lines K = s.lines K := by simp [State.busWrite, hK]
@[simp] theorem State.readClear_lines (s : State) (b : Nat) : (s.readClear b).lines K = s.lines K := by simp [State.readClear]
@[simp] theorem State.readLatch_lines (s : State) (b : Nat) : (s.readLatch b).lines K = s.lines K := by simp [State.readLatch]
@[simp] theorem State.clearTwin_lines (s : State) (f : State → Nat → State) (a b : Nat) (hf : ∀ u k, (f u k).lines K = u.lines K) :
    (s.clearTwin f a b).lines K = s.lines K := by simp [State.clearTwin, hf]

@[simp] theorem State.wordRead_lines (s : State) (a : Nat) : (s.wordRead a).lines K = s.lines K := by
  unfold State.wordRead
  dsimp only
  repeat' split
  all_goals simp

@[simp] theorem State.eventsAt_lines (v : Word) (s : State) (b : Nat) : (State.eventsAt v s b).lines K = s.lines K := by
  unfold State.eventsAt
  split <;> simp

@[simp] theorem State.eventsAfter_lines (s : State) (a : Nat) (v : Word) : (s.eventsAfter a v).lines K = s.lines K := by
  unfold State.eventsAfter
  split <;> simp

@[simp] theorem State.issueWrites_lines (s : State) (hK : .ports ∈ K ∧ .switch ∈ K ∧ .dmx ∈ K ∧ .saps ∈ K) : s.issueWrites.lines K = s.lines K := by
  simp [State.issueWrites, hK]

@[simp] theorem State.barWrite_lines (s : State) (off : Nat) (v : Word) (hK : .ports ∈ K ∧ .switch ∈ K ∧ .dmx ∈ K ∧ .saps ∈ K) :
    (s.barWrite off v).lines K = s.lines K := by
  unfold State.barWrite
  split <;> simp [hK]

@[simp] theorem State.hostRead_lines (s : State) (bar : Bool) (addr : Nat) (events : Word) : (s.hostRead bar addr events).lines K = s.lines K := by
  unfold State.hostRead
  split <;> simp

@[simp] theorem State.readReg_lines (s : State) (h : StemHdr) (addr len : Nat) : (s.readReg h addr len).lines K = s.lines K := by
  simp [State.readReg, State.foldl_snd_lines]

@[simp] theorem State.writeReg_lines (s : State) (h : StemHdr) (addr : Nat) (data : List Word)
    (hK : .ports ∈ K ∧ .switch ∈ K ∧ .dmx ∈ K ∧ .saps ∈ K) :
    (s.writeReg h addr data).lines K = s.lines K := by simp [State.writeReg, hK]
@[simp] theorem State.graftMem_lines (s : State) (h : StemHdr) (write : Bool) (addr len : Nat) (data : List Byte) (hK : .ports ∈ K ∧ .dmx ∈ K) :
    (s.graftMem h write addr len data).lines K = s.lines K := by simp [State.graftMem, hK]
@[simp] theorem State.readMem_lines (s : State) (h : StemHdr) (addr len : Nat) (hK : .ports ∈ K ∧ .dmx ∈ K) :
    (s.readMem h addr len).lines K = s.lines K := by simp [State.readMem, hK]

@[simp] theorem State.writeMem_lines (s : State) (h : StemHdr) (addr : Nat) (data : List Byte) (hK : .ports ∈ K ∧ .dmx ∈ K) :
    (s.writeMem h addr data).lines K = s.lines K := by
  unfold State.writeMem
  repeat' split
  all_goals simp [hK]

/-! ### References of the count axes -/

@[simp] theorem State.countRef_lines (s : State) (n : Nat) (ready : Bool) (p adv : Nat) : (s.countRef n ready p adv).lines K = s.lines K := by
  simp [State.countRef]

@[simp] theorem State.frameStart_lines (s : State) (n at_ k : Nat) (off : Int) : (s.frameStart n at_ k off).lines K = s.lines K := by
  simp [State.frameStart]

@[simp] theorem State.videoEdge_lines (s : State) (n : Nat) (start : Bool) (lines : Nat) : (s.videoEdge n start lines).lines K = s.lines K := by
  unfold State.videoEdge
  dsimp only
  repeat' split
  all_goals simp

@[simp] theorem State.st2110In_lines (s : State) (n rtp k : Nat) : (s.st2110In n rtp k).lines K = s.lines K := by simp [State.st2110In]
@[simp] theorem State.aesAxis_lines (s : State) (slot rtp n : Nat) : (s.aesAxis slot rtp n).lines K = s.lines K := by simp [State.aesAxis]
@[simp] theorem State.aesIn_lines (s : State) (slot rtp : Nat) : (s.aesIn slot rtp).lines K = s.lines K := by simp [State.aesIn]
@[simp] theorem State.wclkIn_lines (s : State) (n : Nat) : (s.wclkIn n).lines K = s.lines K := by simp [State.wclkIn]

@[simp] theorem State.ltcIn_lines (s : State) (n hh mm ss ff : Nat) (readable : Bool) : (s.ltcIn n hh mm ss ff readable).lines K = s.lines K := by
  unfold State.ltcIn
  dsimp only
  repeat' split
  all_goals simp

end Sys2Proof.Machine
end

section
/-! PROOFS. The frame of the lines: each command keeps what `Safety.touches` does not give up of the line parts. -/

namespace Sys2Proof.Machine

/-- A command keeps the line parts that its row of the table does not name: by the lemmas of its meaning's operations, but for the commands
whose row names them all. -/
theorem exec_lines {c : Instr} {s t : State} (h : exec c s = .next t) : t.lines (Safety.touches c) = s.lines (Safety.touches c) := by
  cases c
  case thermalRecovery | firmwareRestart | reset | lifeScrap | pwrGoodRise | resetNAssert | imageActivation | firmwareReady =>
    exact lines_of_all (by simp [lineParts, Safety.touches, Safety.allParts])
  case thermalSample =>
    unfold exec execThermalSample at h
    dsimp only at h
    split at h <;> cases h <;> simp [Safety.touches]
  case eccCorrEvent e site =>
    cases h
    cases site.tmr <;> simp [Safety.touches]
  all_goals
    cases h
    simp [Safety.touches]

/-- Settles O13: a line part that the table does not name stands in the view that the command keeps. -/
theorem frameLines : Obligations.FrameLines := by
  unfold Obligations.FrameLines
  intro c s t h p hp hc
  exact same_of_lines (exec_lines h) hp hc

end Sys2Proof.Machine
end

section
/-! PROOFS. The port fabric: reception, links and the switch (R209, R210, R219, R220, R222, R318). -/

namespace Sys2Proof.Machine

/-! ### What the commands read of a port and its operations keep -/

/-- What reception and the link of port `n` rest on: its ring, pad side and fault, its `disable` and `link` bits, the time, where its seed
record and addresses come from, and the life-cycle part with the self-test that may hold its pads. -/
structure PortView where
  ring : List RingFrame
  phys : Bool
  faulted : Bool
  ctrl : Word
  link : Bool
  free : Nat
  seeds : Option Seed × Option Seed × Nat × List Byte
  life : LifeSt

namespace PortView

def withPort (v : PortView) (p : PortSt) : PortView := { v with ring := p.ring, phys := p.phys, faulted := p.faulted }
def withRing (v : PortView) (l : List RingFrame) : PortView := { v with ring := l }
def withLink (v : PortView) (up : Bool) : PortView := { v with link := up }

end PortView

def State.portView (n : Nat) (s : State) : PortView :=
  { ring := (s.port n).ring, phys := (s.port n).phys, faulted := (s.port n).faulted, ctrl := s.reg (Reg.portCtrl n), link := s.linkUp n,
    free := s.free, seeds := (s.seed, s.safetySeed, s.grovePos, s.settingsBody), life := s.life }

/-- What else than registers the view of a port is made of. -/
def State.portSource (s : State) : Tab PortSt × Nat × Option Seed × Option Seed × Nat × List Byte × LifeSt :=
  (s.ports, s.free, s.seed, s.safetySeed, s.grovePos, s.settingsBody, s.life)

/-- The register at `a` is neither `PORT_n_CTRL` nor `PORT_n_STATUS`. -/
def apart (n a : Nat) : Prop := a ≠ Reg.portCtrl n ∧ a ≠ Reg.portStatus n

theorem apart_below {n a : Nat} (h : a < 0x100000) : apart n a := by
  unfold apart Reg.portCtrl Reg.portStatus
  omega

theorem apart_above {n a : Nat} (hn : n < 58) (h : 0x104000 ≤ a) : apart n a := by
  unfold apart Reg.portCtrl Reg.portStatus
  omega

/-- A register of a port from offset 8 on. -/
theorem apart_port {n : Nat} (m off : Nat) (h : 8 ≤ off ∧ off < 0x100) : apart n (0x100000 + off + m * 0x100) := by
  unfold apart Reg.portCtrl Reg.portStatus
  omega

theorem portView_congr {n : Nat} {s t : State} (hp : t.portSource = s.portSource) (hr : ∀ a, ¬ apart n a → t.reg a = s.reg a) :
    t.portView n = s.portView n := by
  simp only [State.portSource, Prod.mk.injEq] at hp
  obtain ⟨ports, free, seed, safety, grove, settings, life⟩ := hp
  have hs : t.reg (Reg.PortStatus.link n).addr = s.reg (Reg.PortStatus.link n).addr := hr _ (fun h => h.2 rfl)
  have hc : t.reg (Reg.portCtrl n) = s.reg (Reg.portCtrl n) := hr _ (fun h => h.1 rfl)
  simp only [State.portView, State.port, State.linkUp, ports, free, seed, safety, grove, settings, life, hc, State.fbit_congr _ _ _ hs]

theorem ne_of_apart {n a b : Nat} (ha : apart n a) (hb : ¬ apart n b) : a ≠ b := fun h => hb (h ▸ ha)

/-- The seed record and the addresses of a port follow from where the view says they come from. -/
theorem ethRec?_congr {n : Nat} {s t : State} (h : (t.portView n).seeds = (s.portView n).seeds) (m : Nat) : t.ethRec? m = s.ethRec? m := by
  simp only [State.portView, Prod.mk.injEq] at h
  obtain ⟨seed, safety, grove, -⟩ := h
  simp only [State.ethRec?, State.portOf?, State.portIdxs, State.portRec, State.sd, seed, safety, grove]

theorem ethRec_congr {n : Nat} {s t : State} (h : (t.portView n).seeds = (s.portView n).seeds) (m : Nat) : t.ethRec m = s.ethRec m := by
  unfold State.ethRec
  rw [ethRec?_congr h]
  simp only [State.portView, Prod.mk.injEq] at h
  obtain ⟨seed, safety, -, -⟩ := h
  simp only [State.portRec, State.sd, seed, safety]

theorem ring_of_view {n : Nat} {s t : State} (h : t.portView n = s.portView n) : (t.port n).ring = (s.port n).ring := congrArg PortView.ring h
theorem free_of_view {n : Nat} {s t : State} (h : t.portView n = s.portView n) : t.free = s.free := congrArg PortView.free h

theorem portMac_congr {n : Nat} {s t : State} (h : (t.portView n).seeds = (s.portView n).seeds) (m : Nat) : t.portMac m = s.portMac m := by
  unfold State.portMac
  rw [ethRec_congr h]
  simp only [State.portView, Prod.mk.injEq] at h
  obtain ⟨-, -, -, settings⟩ := h
  simp only [State.baseMac, State.setting, settings]

section
variable {n : Nat} (s : State)

/-! #### Registers, events and attention -/

theorem portView_setRegN (a v : Nat) (h : apart n a) : (s.setRegN a v).portView n = s.portView n :=
  portView_congr rfl fun _ hb => State.reg_setRegN_ne _ _ _ _ (ne_of_apart h hb)

theorem portView_fset (f : Field) (v : Nat) (h : apart n f.addr) : (s.fset f v).portView n = s.portView n :=
  portView_congr rfl fun _ hb => State.reg_fset_ne _ _ _ _ (ne_of_apart h hb)

/-- A field below `link` of a port's status register. -/
theorem portView_fset_status (f : Field) (v m : Nat) (ha : f.addr = Reg.portStatus m) (hl : f.lo + f.len ≤ 15) :
    (s.fset f v).portView n = s.portView n := by
  have hc : (s.fset f v).reg (Reg.portCtrl n) = s.reg (Reg.portCtrl n) :=
    State.reg_fset_ne _ _ _ _ (by rw [ha]; unfold Reg.portStatus Reg.portCtrl; omega)
  have hlink : (s.fset f v).linkUp n = s.linkUp n := by
    unfold State.linkUp State.fbit
    by_cases h : m = n
    · rw [State.fget_fset_beside s f (Reg.PortStatus.link n) v (by rw [ha, h]; rfl) (by omega) (.inr hl)]
    · rw [State.fget_fset_ne s f (Reg.PortStatus.link n) v (by rw [ha]; unfold Reg.PortStatus.link Reg.portStatus; dsimp only; omega)]
  simp only [State.portView, hc, hlink]
  rfl

theorem portView_flag (f : Field) (cls : Nat) (hn : n < 58) : (s.flag f cls).portView n = (s.fset f 1).portView n :=
  portView_congr (by rw [State.flag_rest]; rfl) fun _ ha =>
    State.reg_statusEvent _ _ _ _ (ne_of_apart (apart_above hn (by decide)) ha).symm (ne_of_apart (apart_above hn (by decide)) ha).symm

theorem portView_attn (k : Nat) : (s.attn k).portView n = s.portView n :=
  portView_congr (by rw [State.attn_rest]; rfl) fun _ ha => State.reg_attn _ _ _ fun hb => ha (apart_below (by omega))

theorem portView_setReady (f : Field) (b : Bool) (h : apart n f.addr) : (s.setReady f b).portView n = s.portView n := by
  unfold State.setReady
  split
  · rfl
  · exact (portView_attn _ 3).trans (portView_fset s f _ h)

theorem portView_pendSource (t : Trunk) (i : Nat) (hn : n < 58) : (s.pendSource t i).portView n = s.portView n := by
  refine portView_setRegN _ _ _ (apart_above hn ?_)
  unfold Reg.icuPendSet trunkBase
  cases t <;> dsimp only <;> omega

theorem portView_pendBoth (i : Nat) (hn : n < 58) : (s.pendBoth i).portView n = s.portView n :=
  (portView_pendSource _ .b i hn).trans (portView_pendSource s.nextTag .a i hn)

/-! #### Queue blocks -/

/-- The registers of the queue blocks lie below those of the ports, or in a trunk's range. -/
theorem apart_qbBase (k : Nat) (hn : n < 58) (off : Nat) (ho : off < 0x40) : apart n (qbBase k + off) := by
  unfold qbBase Reg.qbTCfg trunkBase
  dsimp only
  split
  · exact apart_below (by omega)
  · split <;> exact apart_above hn (by omega)

theorem portView_fmax (f : Field) (v : Nat) (h : apart n f.addr) : (s.fmax f v).portView n = s.portView n := by
  unfold State.fmax
  split
  · exact portView_fset s f v h
  · rfl

theorem portView_putQb (k : Nat) (q : QbSt) (hn : n < 58) : (s.putQb k q).portView n = s.portView n := by
  have field (u : State) (off lo len v : Nat) (ho : off < 0x40) : (u.fset ⟨qbBase k + off, lo, len⟩ v).portView n = u.portView n :=
    portView_fset u _ v (apart_qbBase k hn off ho)
  have bit (u : State) (i v : Nat) : (u.fset (qbStatusBit k i) v).portView n = u.portView n := field u 0x18 i 1 v (by decide)
  unfold State.putQb
  extract_lets was now q1 q2 stored entries filled stepped flagged
  have h : flagged.portView n = s.portView n := calc
    flagged.portView n = stepped.portView n := (bit _ 30 _).trans (bit _ 31 _)
    _ = filled.portView n := field _ 0x10 0 25 _ (by decide)
    _ = stored.portView n := (portView_fmax _ _ _ (apart_qbBase k hn 12 (by decide))).trans (field _ 8 0 24 _ (by decide))
    _ = s.portView n := rfl
  split
  · exact (bit _ 29 0).trans h
  · exact h

theorem portView_qbPushAt (k i : Nat) (l : List QbEntry) (hn : n < 58) : (s.qbPushAt k i l).portView n = s.portView n :=
  portView_putQb s k _ hn

theorem portView_qbFollow (k : Nat) (old new : List (List QbEntry)) (hn : n < 58) : (s.qbFollow k old new).portView n = s.portView n := by
  unfold State.qbFollow
  split
  · rfl
  · split
    · exact portView_putQb s k _ hn
    · split
      · exact portView_putQb s k _ hn
      · rfl

/-! #### The port -/

theorem ports_of_lines {s t : State} (h : t.lines [] = s.lines []) (m : Nat) : t.port m = s.port m :=
  congrArg (Tab.get ({} : PortSt) · m) (show t.ports = s.ports from same_of_lines h (p := .ports) (by decide) (by decide))

theorem State.port_putPort (m : Nat) (p : PortSt) : (s.putPort m p).port n = if m = n then p else s.port n := by
  unfold State.putPort
  extract_lets old sent received
  have h : received.port n = s.port n := ports_of_lines (by simp [received, sent]) n
  rw [← h]
  exact Tab.get_set _ _ _ _ _

theorem portView_setPort (m : Nat) (p : PortSt) :
    (s.setPort m p).portView n = if m = n then (s.portView n).withPort p else s.portView n := by
  unfold State.setPort
  extract_lets old stored filled ringed paused pausing
  have hstored : stored.portView n =
      if m = n then (s.portView n).withPort p else s.portView n := by
    have port : stored.port n = if m = n then p else s.port n := Tab.get_set _ _ _ _ _
    simp only [State.portView, port]
    split <;> rfl
  have hfills : ringed.portView n = stored.portView n :=
    (portView_fset _ _ _ (apart_port _ 0xC (by decide))).trans
      (portView_fset _ _ _ (apart_port _ 0x8 (by decide)))
  have hpauses : pausing.portView n = ringed.portView n :=
    (portView_fset_status _ (Reg.PortStatus.txPausing m) _ m rfl (Nat.le_of_ble_eq_true rfl)).trans
      (portView_fset_status _ (Reg.PortStatus.rxPaused m) _ m rfl (Nat.le_of_ble_eq_true rfl))
  refine Eq.trans ?_ (hpauses.trans (hfills.trans hstored))
  exact portView_setRegN _ _ _ (apart_below (by decide))

/-- An update of a port shows in its own view, by the fields that the view has. -/
theorem portView_putPort_eq (m : Nat) (p : PortSt) (hn : n < 58) :
    (s.putPort m p).portView n = if m = n then (s.portView n).withPort p else s.portView n := by
  unfold State.putPort
  extract_lets old sent received
  have h : received.portView n = s.portView n := (portView_qbFollow _ _ _ _ hn).trans (portView_qbFollow _ _ _ _ hn)
  rw [← h]
  exact portView_setPort received m p

theorem portView_putPort (m : Nat) (p : PortSt) (hn : n < 58) (hr : p.ring = (s.port m).ring) (hp : p.phys = (s.port m).phys)
    (hf : p.faulted = (s.port m).faulted) : (s.putPort m p).portView n = s.portView n := by
  rw [portView_putPort_eq s m p hn, PortView.withPort, hr, hp, hf]
  split
  · subst_vars
    rfl
  · rfl

theorem portView_bump (a : Nat) (h : apart n a) : (s.bump a).portView n = s.portView n := portView_setRegN _ _ _ h

theorem portView_dropBit (m : Nat) : (s.dropBit m).portView n = s.portView n :=
  portView_fset_status s (Reg.PortStatus.drop m) 1 m rfl (Nat.le_of_ble_eq_true rfl)

/-! #### Queues, PAUSE and ring messages -/

theorem portView_sendPause (m time : Nat) (hn : n < 58) : (s.sendPause m time).portView n = s.portView n := by
  unfold State.sendPause
  split
  · extract_lets port started counted
    have hstarted : started.portView n = s.portView n := portView_putPort s m _ hn rfl rfl rfl
    show counted.portView n = s.portView n
    unfold counted
    split
    · exact (portView_bump started (Reg.portTxPauseZero m) (apart_port _ 0x5C (by decide))).trans hstarted
    · exact (portView_bump started (Reg.portTxPause m) (apart_port _ 0x58 (by decide))).trans hstarted
  · exact portView_putPort s m _ hn rfl rfl rfl

theorem portView_pauseOff (e : Nat) (hn : n < 58) : (s.pauseOff e).portView n = s.portView n := by
  refine foldl_keeps (State.portView n) _ (fun u i => ?_) _ _
  have h := portView_putPort u i { u.port i with pausing := (u.port i).pausing.filter (· != e) } hn rfl rfl rfl
  dsimp only
  split
  · split
    · exact (portView_sendPause _ i 0 hn).trans h
    · exact h
  · rfl

theorem portView_congestion (m : Nat) (hn : n < 58) : (s.congestion m).portView n = s.portView n := by
  unfold State.congestion
  dsimp only
  split
  · rfl
  · split
    · exact (portView_pauseOff _ m hn).trans (portView_putPort s m _ hn rfl rfl rfl)
    · split
      · exact portView_putPort s m _ hn rfl rfl rfl
      · rfl

theorem portView_enqueueEth (m : Nat) (f : OutFrame) (hn : n < 58) : (s.enqueueEth m f).portView n = s.portView n := by
  unfold State.enqueueEth
  dsimp only
  split
  · exact (portView_dropBit _ m).trans (portView_bump s _ (apart_port _ 0x68 (by decide)))
  · exact (portView_congestion _ m hn).trans (portView_putPort s m _ hn rfl rfl rfl)

theorem portView_enqueueUntimed (m : Nat) (u : Untimed) (hn : n < 58) : (s.enqueueUntimed m u).portView n = s.portView n := by
  unfold State.enqueueUntimed
  dsimp only
  split
  · exact (portView_dropBit _ m).trans (portView_bump s _ (apart_port _ 0x6C (by decide)))
  · exact (portView_congestion _ m hn).trans (portView_putPort s m _ hn rfl rfl rfl)

theorem portView_sendGrove (type dst : Nat) (data : List Byte) (hn : n < 58) : (s.sendGrove type dst data).portView n = s.portView n :=
  foldl_keeps (State.portView n) _ (fun u l => portView_enqueueUntimed u l _ hn) _ _

theorem portView_sendRing (m : Nat) (f : OutFrame) (hn : n < 58) : (s.sendRing m f).portView n = s.portView n := by
  unfold State.sendRing
  dsimp only
  split
  · exact portView_sendGrove s _ _ _ hn
  · exact (portView_sendGrove _ _ _ _ hn).trans (portView_sendGrove s _ _ _ hn)

theorem portView_moveRing (m : Nat) (f : OutFrame) (hn : n < 58) : (s.moveRing m f).portView n = s.portView n := by
  have h := portView_bump (n := n) s Reg.cmpRingMoveCnt (apart_below (by decide))
  unfold State.moveRing
  dsimp only
  split
  · exact (portView_enqueueEth _ _ _ hn).trans h
  · exact (portView_sendRing _ _ _ hn).trans h

theorem portView_markDue (m : Nat) (held : Bool) (own : Option Nat) (hn : n < 58) : (s.markDue m held own).portView n = s.portView n :=
  portView_putPort s m _ hn rfl rfl rfl

theorem portView_cutRest (m : Nat) (bad : Bool) (hn : n < 58) : (s.cutRest m bad).portView n = s.portView n := by
  refine foldl_keeps (State.portView n) _ (fun u e => ?_) _ _
  split
  · split
    · split
      · rfl
      · extract_lets rest pushed port
        have hpushed : pushed.portView n = u.portView n := by
          unfold pushed
          split
          · exact portView_qbPushAt u e _ _ hn
          · rfl
        refine Eq.trans ?_ hpushed
        exact portView_putPort pushed e _ hn rfl rfl rfl
    · rfl
  · rfl

/-- The address table counts its entries beside the ports. -/
theorem portView_entries (v : Nat) : (s.fset Reg.SwStatus.entries v).portView n = s.portView n :=
  portView_fset s _ v (apart_below (by decide))

theorem portView_beginFallback (m : Nat) (hn : n < 58) : (s.beginFallback m).portView n = s.portView n := by
  unfold State.beginFallback
  split
  · rfl
  · refine (foldl_keeps (State.portView n) _ (fun u f => portView_moveRing u m f hn) _ _).trans ?_
    exact (portView_entries _ _).trans ((portView_congestion _ m hn).trans (portView_putPort s m _ hn rfl rfl rfl))

/-! ### Links (R220, R318) -/

theorem portView_fsetB_link (up : Bool) : (s.fsetB (Reg.PortStatus.link n) up).portView n = (s.portView n).withLink up := by
  have hc : (s.fsetB (Reg.PortStatus.link n) up).reg (Reg.portCtrl n) = s.reg (Reg.portCtrl n) :=
    State.reg_fset_ne _ _ _ _ (by unfold Reg.PortStatus.link Reg.portStatus Reg.portCtrl; dsimp only; omega)
  have hlink : (s.fsetB (Reg.PortStatus.link n) up).linkUp n = up := State.fbit_fsetB_self s _ up (Nat.le_of_ble_eq_true rfl) rfl
  simp only [State.portView, hc, hlink]
  rfl

/-- R220: a link that comes up or goes down changes nothing else of what the view shows. -/
theorem portView_linkTo (up : Bool) (hn : n < 58) (hr : s.ethRec? n ≠ none) : (s.linkTo n up).portView n = (s.portView n).withLink up := by
  unfold State.linkTo
  split
  case isTrue h =>
    obtain rfl := h.resolve_right hr
    rfl
  case isFalse =>
    extract_lets linked locked told attended links marked upPort cut downPort freed heard
    have hlocked : locked.portView n = (s.portView n).withLink up :=
      (portView_fset_status _ (Reg.PortStatus.fecLock n) _ n rfl (Nat.le_of_ble_eq_true rfl)).trans (portView_fsetB_link s up)
    have htold : told.portView n = locked.portView n :=
      (portView_setReady _ Reg.TreeReady.portsAll _ (apart_below (by decide))).trans
        ((portView_pendBoth _ _ hn).trans ((portView_flag locked _ 0 hn).trans
          (portView_fset_status locked (Reg.PortStatus.linkChg n) 1 n rfl (Nat.le_of_ble_eq_true rfl))))
    have hattended : attended.portView n = told.portView n := by
      unfold attended
      split
      · exact portView_attn told 4
      · exact portView_attn told 0
    have hlinks : links.portView n = attended.portView n := by
      have field (v : Nat) : (attended.fset Reg.CmpGroveStatus.linksUp v).portView n = attended.portView n :=
        portView_fset _ _ v (apart_below (by decide))
      unfold links
      split
      · exact field _
      · split
        · exact field _
        · rfl
    refine Eq.trans ?_ (hlinks.trans (hattended.trans (htold.trans hlocked)))
    split
    · refine Eq.trans ?_ (portView_markDue links n true none hn)
      exact portView_putPort marked n _ hn rfl rfl rfl
    · refine (portView_beginFallback heard n hn).trans ?_
      refine (portView_fset_status freed (Reg.PortStatus.pauseIgnored n) 0 n rfl (Nat.le_of_ble_eq_true rfl)).trans ?_
      refine Eq.trans ?_ (portView_cutRest links n true hn)
      exact portView_putPort cut n _ hn rfl rfl rfl

/-- R220: the link follows the pad side, `disable`, the fault and the pads that R449 holds. -/
theorem portView_linkApply (hn : n < 58) (hr : s.ethRec? n ≠ none) :
    (s.linkApply n).portView n =
      (s.portView n).withLink ((s.port n).phys && !s.fbit (Reg.PortCtrl.disable n) && !(s.port n).faulted && !s.ethHeld n) :=
  portView_linkTo s _ hn hr

end

theorem ethHeld_congr {n : Nat} {s t : State} (h : (t.portView n).life = (s.portView n).life) (m : Nat) : t.ethHeld m = s.ethHeld m := by
  have life : t.life = s.life := h
  simp only [State.ethHeld, State.bankHeld, life]

/-- R220, R318: the link of a port after an update of its pad side or fault. -/
theorem portView_putPort_linkApply {n : Nat} (s : State) (p : PortSt) (hn : n < 58) (hr : s.ethRec? n ≠ none) :
    ((s.putPort n p).linkApply n).portView n =
      ((s.portView n).withPort p).withLink (p.phys && !s.fbit (Reg.PortCtrl.disable n) && !p.faulted && !s.ethHeld n) := by
  have view : (s.putPort n p).portView n = (s.portView n).withPort p := by rw [portView_putPort_eq s n p hn, if_pos rfl]
  have port : (s.putPort n p).port n = p := by rw [State.port_putPort, if_pos rfl]
  have present : (s.putPort n p).ethRec? n ≠ none := by rwa [ethRec?_congr (n := n) (s := s) (by rw [view]; rfl)]
  have disabled : (s.putPort n p).fbit (Reg.PortCtrl.disable n) = s.fbit (Reg.PortCtrl.disable n) :=
    State.fbit_congr _ _ _ (congrArg PortView.ctrl view)
  rw [portView_linkApply _ hn present, view, port, disabled, ethHeld_congr (n := n) (s := s) (by rw [view]; rfl)]

/-- R318: the fault of a port holds its link down, and its timed frames move. -/
theorem portView_fault {n : Nat} (s : State) (hn : n < 58) (hr : s.ethRec? n ≠ none) :
    ((((s.putPort n { s.port n with faulted := true }).linkApply n).beginFallback n).attnLeaf).portView n =
      ((s.portView n).withPort { s.port n with faulted := true }).withLink false := by
  refine (portView_attn _ 4).trans ((portView_beginFallback _ n hn).trans ((portView_putPort_linkApply s _ hn hr).trans ?_))
  simp

/-- R220, R223: a write of `disable` stands. -/
theorem disable_disableWrite {n : Nat} (s : State) (off : Bool) (hn : n < 58) (hr : s.ethRec? n ≠ none) :
    (s.disableWrite n off).fbit (Reg.PortCtrl.disable n) = off := by
  have written : (s.disableWrite n off) = (s.fsetB (Reg.PortCtrl.disable n) off).linkApply n := if_neg hr
  have view := portView_linkApply (s.fsetB (Reg.PortCtrl.disable n) off) hn hr
  rw [written, State.fbit_congr _ _ (Reg.PortCtrl.disable n) (congrArg PortView.ctrl view)]
  exact State.fbit_fsetB_self s (Reg.PortCtrl.disable n) off (Nat.le_of_ble_eq_true rfl) rfl

/-! ### Reception (R209, R210, R219) -/

section
variable {n : Nat} (s : State)

theorem portView_bumpBy (a k : Nat) (h : apart n a) : (s.bumpBy a k).portView n = s.portView n := portView_setRegN _ _ _ h

theorem portView_fecCount (f : EthFrame) : (s.fecCount n f).portView n = s.portView n := by
  unfold State.fecCount
  split
  · rfl
  · exact (portView_bumpBy _ (Reg.portFecUncorr n) _ (apart_port _ 0x88 (by decide))).trans
      (portView_bumpBy s (Reg.portFecCorr n) _ (apart_port _ 0x84 (by decide)))

theorem portView_learn (g a m : Nat) : (s.learn g a m).portView n = s.portView n := by
  unfold State.learn
  repeat' split
  · rfl
  · rfl
  · exact portView_bump s _ (apart_below (by decide))
  · extract_lets stored counted
    have hcounted : counted.portView n = s.portView n := portView_entries stored _
    split
    · exact (portView_fset _ Reg.SwStatus.tableFull 1
        (apart_below (by decide))).trans hcounted
    · exact hcounted

/-- R219: a frame that the free buffers hold enters the ring whole, and nothing else of the view changes. -/
theorem portView_ringEnter (f : EthFrame) (hn : n < 58) (hu : udpBad f = false) (hl : 0 < f.len)
    (hroom : State.ringBuffers (s.port n) + (f.len + 255) / 256 ≤ (portRingSize (s.ethRec n) + 255) / 256) :
    (s.ringEnter n f).portView n =
      (s.portView n).withRing ((s.port n).ring ++ [{ frame := f, at_ := s.free, bufs := (f.len + 255) / 256 }]) := by
  unfold State.ringEnter
  dsimp only
  rw [if_neg (by simp [hu]), if_neg (by omega), if_neg (by omega), portView_putPort_eq _ _ _ hn, if_pos rfl]
  rfl

/-- R210: a frame for the port's own address is forwarded nowhere. -/
theorem forwardTo_own (f : EthFrame) (h : f.dst = s.portMac n) : s.forwardTo n f = [] := by
  unfold State.forwardTo
  exact if_pos (.inr (.inl h))

/-- R210: a frame for the port's own address is delivered at the port. -/
theorem portView_switchFrame_own (f : EthFrame) (hn : n < 58) (hu : udpBad f = false) (hl : 0 < f.len) (hd : f.dst = s.portMac n)
    (hroom : State.ringBuffers (s.port n) + (f.len + 255) / 256 ≤ (portRingSize (s.ethRec n) + 255) / 256) :
    (s.switchFrame n f).portView n =
      (s.portView n).withRing ((s.port n).ring ++ [{ frame := f, at_ := s.free, bufs := (f.len + 255) / 256 }]) := by
  unfold State.switchFrame
  extract_lets g grove cut learned delivered
  have hlearned : learned.portView n = s.portView n := by
    unfold learned
    split
    · rfl
    · exact portView_learn s _ _ _
  clear_value learned
  have hdelivered : delivered.portView n =
      (s.portView n).withRing ((s.port n).ring ++ [{ frame := f, at_ := s.free, bufs := (f.len + 255) / 256 }]) := by
    have hseeds := congrArg PortView.seeds hlearned
    have hring := ring_of_view hlearned
    have hmac : learned.portMac n = f.dst := (portMac_congr hseeds n).trans hd.symm
    have hentered := portView_ringEnter learned f hn hu hl (by
      unfold State.ringBuffers at hroom ⊢
      rw [hring, ethRec_congr hseeds]
      exact hroom)
    rw [hlearned, hring, free_of_view hlearned] at hentered
    have entered : delivered = learned.ringEnter n f := if_pos (by simp [hmac])
    rw [entered, hentered]
  split
  · exact hdelivered
  · have hseeds : (delivered.portView n).seeds = (s.portView n).seeds := by rw [hdelivered]; rfl
    rw [forwardTo_own delivered f (hd.trans (portMac_congr hseeds n).symm)]
    exact hdelivered

theorem portView_bump64 (lo hi k : Nat) (hlo : apart n lo) (hhi : apart n hi) : (s.bump64 lo hi k).portView n = s.portView n :=
  (portView_setRegN _ hi _ hhi).trans (portView_setRegN s lo _ hlo)

/-- R209, R210, R219: a good frame for the address of a port that is no grove link and no ring port enters its receive ring. -/
theorem ring_receive_own (f : EthFrame) (hn : n < 58) (hr : s.ethRec? n ≠ none) (hup : s.linkUp n = true) (hmin : 64 ≤ f.len)
    (hmax : f.len ≤ portMaxFrame (s.ethRec n)) (hfcs : f.fcsOk = true) (hu : udpBad f = false) (het : f.etype ≠ 0x8808)
    (hport : n < 16 ∨ 50 ≤ n) (hd : f.dst = s.portMac n)
    (hroom : State.ringBuffers (s.port n) + (f.len + 255) / 256 ≤ (portRingSize (s.ethRec n) + 255) / 256) :
    ((s.receive n f).port n).ring =
      (s.port n).ring ++ [{ frame := { f with fecCorr := 0, fecUncorr := 0 }, at_ := s.free, bufs := (f.len + 255) / 256 }] := by
  unfold State.receive
  rw [if_neg (by simp [hr, hup])]
  extract_lets r fec good done cut counted
  have hcounted : counted.portView n = s.portView n := by
    refine (portView_bump64 _ _ _ _ (apart_port _ 0x20 (by decide)) (apart_port _ 0x24 (by decide))).trans ?_
    refine (portView_bump cut (Reg.portRxFrames n) (apart_port _ 0x30 (by decide))).trans ?_
    exact (portView_cutRest fec n _ hn).trans (portView_fecCount s f)
  clear_value counted
  have hseeds := congrArg PortView.seeds hcounted
  have hring := ring_of_view hcounted
  have hswitched := portView_switchFrame_own counted good hn hu (Nat.lt_of_lt_of_le (by decide) hmin) (hd.trans (portMac_congr hseeds n).symm) (by
    unfold State.ringBuffers at hroom ⊢
    rw [hring, ethRec_congr hseeds]
    exact hroom)
  have hdone : (done (counted.switchFrame n good)).portView n = (counted.switchFrame n good).portView n := portView_putPort _ n _ hn rfl rfl rfl
  have lengthOk : ¬(good.len < 64 ∨ portMaxFrame r < good.len) := not_or.2 ⟨Nat.not_lt.2 hmin, Nat.not_lt.2 hmax⟩
  have typeOk : ¬good.etype = 0x8808 := het
  rw [if_neg lengthOk, if_neg (by simp [good, hfcs]), if_neg typeOk, if_neg (by omega), if_neg (by omega), ring_of_view hdone]
  rw [hring, free_of_view hcounted] at hswitched
  exact congrArg PortView.ring hswitched

end

/-! ### The statement -/

/-- Settles O27, clause by clause: each command is its operation on a module that runs, and the view of the port shows what the operation
leaves. -/
theorem portReceiveCommandsComplete : Obligations.PortReceiveCommandsComplete := by
  unfold Obligations.PortReceiveCommandsComplete
  refine ⟨?receive, ?link, ?back, ?disable, ?flush, ?age, ?fault⟩
  case receive =>
    intro n f s h hr hup hmin hmax hfcs hu het hport hd hroom
    exact ⟨_, act_of_running s (·.receive n f) h, ring_receive_own s f n.isLt hr hup hmin hmax hfcs hu het hport hd hroom⟩
  case link =>
    intro n up s h hr
    have view := portView_putPort_linkApply s { s.port n with phys := up } n.isLt hr
    show ∃ t, execLinkChange n up s = .next t ∧ _
    unfold execLinkChange
    refine ⟨_, act_of_running s _ h, ?_⟩
    rw [if_neg hr]
    exact ⟨congrArg PortView.phys view, congrArg PortView.link view⟩
  case back =>
    intro n s h hf hup hs
    refine ⟨_, act_of_running s _ h, ?_⟩
    rw [if_pos ⟨hf, hup, hs⟩, State.port_putPort, if_pos rfl]
  case disable =>
    intro n off s h hr
    exact ⟨_, act_of_running s (·.disableWrite n off) h, disable_disableWrite s off n.isLt hr⟩
  case flush =>
    intro s h
    exact ⟨_, act_of_running s (·.swFlush) h, rfl, State.fget_fset_self _ Reg.SwStatus.entries 0 (by decide)⟩
  case age =>
    intro g a s h ht
    show ∃ t, execAddressAgeout g a s = .next t ∧ _
    unfold execAddressAgeout
    refine ⟨_, act_of_running s _ h, ?_⟩
    rw [if_neg ht]
    rfl
  case fault =>
    intro n s h hr
    have view := portView_fault s n.isLt hr
    show ∃ t, execPortDatapathFault n s = .next t ∧ _
    unfold execPortDatapathFault
    refine ⟨_, act_of_running s _ h, ?_⟩
    rw [if_neg hr]
    exact ⟨congrArg PortView.faulted view, congrArg PortView.link view⟩

end Sys2Proof.Machine
end

section
/-! PROOFS. DMX512 ports, the RDM controller, tunnels and E1.31 streams (R240, R241, R243 to R245, R247, R378). -/

namespace Sys2Proof.Machine

/-! ### What the shared operations leave of a DMX512 port and of what has left the module -/

@[simp] theorem State.dmxSt_putDmx (s : State) (n : Nat) (d : DmxSt) : (s.putDmx n d).dmxSt n = d := Tab.get_set_self _ _ _ _
@[simp] theorem State.putDmx_sent (s : State) (n : Nat) (d : DmxSt) : (s.putDmx n d).sent = s.sent := rfl
@[simp] theorem State.putDmx_grovePos (s : State) (n : Nat) (d : DmxSt) : (s.putDmx n d).grovePos = s.grovePos := rfl
@[simp] theorem State.dmxRec_putDmx (s : State) (n : Nat) (d : DmxSt) (m : Nat) : (s.putDmx n d).dmxRec m = s.dmxRec m := rfl

@[simp] theorem State.dmxSt_bump (s : State) (a n : Nat) : (s.bump a).dmxSt n = s.dmxSt n := rfl
@[simp] theorem State.dmxRec_bump (s : State) (a n : Nat) : (s.bump a).dmxRec n = s.dmxRec n := rfl
@[simp] theorem State.dmxSt_emit (s : State) (x : Sent) (n : Nat) : (s.emit x).dmxSt n = s.dmxSt n := rfl
@[simp] theorem State.dmxSt_fset (s : State) (f : Field) (v n : Nat) : (s.fset f v).dmxSt n = s.dmxSt n := rfl

/-- An update of a port changes no register but its status. -/
theorem State.reg_putDmx (s : State) (n : Nat) (d : DmxSt) (a : Nat) (h : Reg.dmxStatus n ≠ a) : (s.putDmx n d).reg a = s.reg a :=
  (State.reg_fset_ne _ _ _ _ h).trans (State.reg_fset_ne _ _ _ _ h)

/-- A counter of the port counts on beside an update of the port. -/
theorem State.regN_bump_putDmx (s : State) (n : Nat) (d : DmxSt) (a : Nat) (h : Reg.dmxStatus n ≠ a) :
    ((s.putDmx n d).bump a).regN a = min 0xFFFFFFFF (s.regN a + 1) := by
  rw [State.regN_bump, State.regN, State.reg_putDmx s n d a h]
  rfl

@[simp] theorem State.dmxSt_supersede (s : State) (m k n : Nat) : (s.supersede m k).dmxSt n = s.dmxSt n := by
  unfold State.supersede
  split <;> rfl

@[simp] theorem State.supersede_sent (s : State) (m k : Nat) : (s.supersede m k).sent = s.sent := by
  unfold State.supersede
  split <;> rfl

@[simp] theorem State.dmxRec_supersede (s : State) (m k n : Nat) : (s.supersede m k).dmxRec n = s.dmxRec n := by
  unfold State.supersede
  split <;> rfl

@[simp] theorem State.dmxSt_safetyLaunched (s : State) (rec n : Nat) : (s.safetyLaunched rec).dmxSt n = s.dmxSt n := by
  unfold State.safetyLaunched
  dsimp only
  repeat' split
  all_goals rfl

@[simp] theorem State.safetyLaunched_sent (s : State) (rec : Nat) : (s.safetyLaunched rec).sent = s.sent := by
  unfold State.safetyLaunched
  dsimp only
  repeat' split
  all_goals rfl

/-! ### Frames (R243) -/

/-- R243: a due frame that waits alone is the one that starts, and it supersedes none. -/
theorem State.dmxPick_alone (s : State) (n : Nat) (f : OutFrame) (hq : (s.dmxSt n).queue = [f]) (hd : s.due f = true) :
    s.dmxPick n = (some f, s.putDmx n (s.dmxSt n)) := by
  unfold State.dmxPick
  extract_lets d dueF rest held k
  have hdue : dueF = [f] := by simp [dueF, d, hq, hd]
  have hrest : rest = [] := by simp [rest, d, hq, hd]
  have hk : k = 0 := by
    unfold k
    rw [hdue]
    cases hs : f.safety <;> simp [hs]
  have hsame : { d with queue := [f] } = s.dmxSt n := by rw [← hq]
  rw [hk, hdue, hrest, ← hsame]
  rfl

/-- R243: what a frame that starts its break leaves of its port, and what leaves the module. -/
theorem State.dmxBegin_starts (s : State) (n : Nat) (f : OutFrame) :
    ((s.dmxBegin n f).dmxSt n).cur = some f ∧ ((s.dmxBegin n f).dmxSt n).queue = (s.dmxSt n).queue.drop 1 ∧
      ((s.dmxBegin n f).dmxSt n).last = f.data ∧
      (s.dmxBegin n f).sent = s.sent ++ [.dmx n false (dmxBreak (s.dmxRec n)) (dmxMab (s.dmxRec n)) f.data] := by
  unfold State.dmxBegin
  dsimp only
  split <;> simp

theorem State.rdmAbandon_none (s : State) (n : Nat) (h : (s.dmxSt n).rdm = none) : s.rdmAbandon n = s := by
  unfold State.rdmAbandon
  rw [h]

/-- R243: on an idle or repeating line a due frame that waits alone starts its break. -/
theorem State.dmxStart_alone (s : State) (n : Nat) (f : OutFrame) (hh : s.dmxHeld n = false) (hq : (s.dmxSt n).queue = [f])
    (hd : s.due f = true) (hc : (s.dmxSt n).cur = none) (hr : (s.dmxSt n).rdm = none) :
    ∃ u : State, s.dmxStart n = u.dmxBegin n f ∧ u.dmxSt n = s.dmxSt n ∧ u.sent = s.sent ∧ u.dmxRec n = s.dmxRec n := by
  unfold State.dmxStart
  rw [if_neg (by simp [hh]), s.dmxPick_alone n f hq hd]
  simp only [State.dmxSt_putDmx, hc]
  rw [State.rdmAbandon_none]
  · refine ⟨_, rfl, ?_⟩
    split <;> simp
  · split <;> simpa using hr

/-- R243: once the time of the frame on the line has run, it ends. -/
theorem State.dmxEnd_over (s : State) (n : Nat) (ht : (s.dmxSt n).endsAt ≤ s.free) :
    s.dmxEnd n = s.putDmx n { s.dmxSt n with
      cur := none, repeating := false, ended := (s.dmxSt n).ended || (s.dmxSt n).cur.isSome || (s.dmxSt n).repeating } :=
  if_neg (Nat.not_lt.2 ht)

/-- R243: a port with no frame that is due sends its last one again once its interval has passed. -/
theorem State.dmxRepeatOp_due (s : State) (n : Nat) (hh : s.dmxHeld n = false) (hc : (s.dmxSt n).cur = none) (hr : (s.dmxSt n).rdm = none)
    (hp : (s.dmxSt n).repeating = false) (hl : (s.dmxSt n).last ≠ []) (hq : ∀ f ∈ (s.dmxSt n).queue, s.due f = false)
    (hm : dmxRepeatMs (s.dmxRec n) ≠ 0xFFFF) (ht : (s.dmxSt n).lastStart + dmxRepeatMs (s.dmxRec n) * 1000 * usRaw ≤ s.free) :
    s.dmxRepeatOp n =
      (s.putDmx n { State.takeLine (s.dmxSt n) s.free (dmxBreak (s.dmxRec n)) (dmxMab (s.dmxRec n)) (s.dmxSt n).last.length with
        repeating := true, lastStart := s.free }).emit (.dmx n false (dmxBreak (s.dmxRec n)) (dmxMab (s.dmxRec n)) (s.dmxSt n).last) := by
  unfold State.dmxRepeatOp
  dsimp only
  rw [if_neg]
  simpa [hh, hc, hr, hp, hl, hm, Nat.not_lt.2 ht] using hq

/-! ### RDM (R244, R247, R378) -/

/-- R244: a request that the gap before the next launch holds goes out on an idle line. -/
theorem State.rdmStart_gap (s : State) (n : Nat) (q : RdmReq) (r : List RdmReq) (hq : (s.dmxSt n).rdmQ = q :: r) (hs : q.step ≠ 1)
    (hi : s.dmxIdle n = true) (hb : s.dmxBound n = true → (s.dmxSt n).ended = true)
    (hg : s.gapHolds n (State.rdmWait (s.dmxRec n) q.data.length (State.rdmDisc q) + 257 * 44 * usRaw) = true) :
    s.rdmStart n = (s.putDmx n { s.dmxSt n with rdmQ := r, rdm := some q, rdmAt := s.free }).emit
      (.dmx n true (dmxBreak (s.dmxRec n)) (dmxMab (s.dmxRec n)) q.data) := by
  unfold State.rdmStart
  simp only [hq]
  rw [if_neg (by simpa [hi, hg] using hb), if_neg hs, if_neg hs]

/-- R378: a response to the tunnel's source in this tree leaves its port. -/
theorem State.tunnelResponse_own (s : State) (tunnel : Nat) (l : List Byte) :
    s.tunnelResponse s.grovePos tunnel l =
      s.emit (.dmx (s.fget (Reg.GraftTun.srcPort tunnel)) true (dmxBreak (s.dmxRec (s.fget (Reg.GraftTun.srcPort tunnel))))
        (dmxMab (s.dmxRec (s.fget (Reg.GraftTun.srcPort tunnel)))) l) := if_pos rfl

/-- R244, R378: the end of a transaction that serves a tunnel. -/
theorem State.rdmEnd_tunnel (s : State) (n : Nat) (q : RdmReq) (code : Nat) (ack : Bool) (l : List Byte) (ho : q.origin = 4) :
    s.rdmEnd n q code ack l = if code = 0 then s.tunnelResponse q.lo q.tag l else s := by
  unfold State.rdmEnd
  rw [ho]
  rfl

/-- R244: a response whose checksum holds ends its transaction, and counts. -/
theorem State.rdmAnswer_ok (s : State) (n : Nat) (q : RdmReq) (ack : Bool) (l : List Byte) (hq : (s.dmxSt n).rdm = some q) :
    s.rdmAnswer n true ack l = ((s.putDmx n { s.dmxSt n with rdm := none }).bump (Reg.dmxRdmOk n)).rdmEnd n q 0 ack l := by
  unfold State.rdmAnswer
  simp only [hq, if_true]

/-- The tunnels' registers stand beside those of the DMX512 ports. -/
theorem State.srcPort_rdmOk (s : State) (n : Nat) (d : DmxSt) (tunnel : Nat) (hn : n < 16) :
    ((s.putDmx n d).bump (Reg.dmxRdmOk n)).fget (Reg.GraftTun.srcPort tunnel) = s.fget (Reg.GraftTun.srcPort tunnel) := by
  obtain ⟨counter, status⟩ : Reg.dmxRdmOk n ≠ Reg.graftTun tunnel ∧ Reg.dmxStatus n ≠ Reg.graftTun tunnel := by
    unfold Reg.dmxRdmOk Reg.dmxStatus Reg.graftTun
    omega
  exact State.fget_congr _ _ _ ((State.reg_bump_ne _ _ _ counter).trans (s.reg_putDmx n d _ status))

/-- R378: the response to a request of a tunnel from this tree leaves the tunnel's source port. -/
theorem State.rdmAnswer_tunnel (s : State) (n : Nat) (q : RdmReq) (ack : Bool) (l : List Byte) (hn : n < 16) (hq : (s.dmxSt n).rdm = some q)
    (ho : q.origin = 4) (hlo : q.lo = s.grovePos) :
    s.rdmAnswer n true ack l = ((s.putDmx n { s.dmxSt n with rdm := none }).bump (Reg.dmxRdmOk n)).emit
      (.dmx (s.fget (Reg.GraftTun.srcPort q.tag)) true (dmxBreak (s.dmxRec (s.fget (Reg.GraftTun.srcPort q.tag))))
        (dmxMab (s.dmxRec (s.fget (Reg.GraftTun.srcPort q.tag)))) l) := by
  have response := ((s.putDmx n { s.dmxSt n with rdm := none }).bump (Reg.dmxRdmOk n)).tunnelResponse_own q.tag l
  rw [s.srcPort_rdmOk n _ q.tag hn, State.bump_grovePos, State.putDmx_grovePos, ← hlo] at response
  rw [s.rdmAnswer_ok n q ack l hq, State.rdmEnd_tunnel _ _ _ _ _ _ ho, if_pos rfl, response, State.dmxRec_bump, State.dmxRec_putDmx]

/-- R244: a request that could not start within a second is given up, and counts. -/
theorem State.rdmNone_late (s : State) (n : Nat) (q : RdmReq) (r : List RdmReq) (hq : (s.dmxSt n).rdmQ = q :: r) (ht : q.asked + second ≤ s.free) :
    s.rdmNone n = ((s.putDmx n { s.dmxSt n with rdmQ := r }).bump (Reg.dmxRdmTimeout n)).rdmEnd n q 0x0606 false [] := by
  unfold State.rdmNone
  simp only [hq]
  rw [if_pos ht]

/-- R244: a first response window that passes puts the request back in front, once more. -/
theorem State.rdmSilent_first (s : State) (n : Nat) (q : RdmReq) (hq : (s.dmxSt n).rdm = some q) (hr : q.retried = false) :
    s.rdmSilent n = s.putDmx n { s.dmxSt n with rdm := none, rdmQ := { q with retried := true, asked := s.free } :: (s.dmxSt n).rdmQ } := by
  unfold State.rdmSilent
  simp only [hq]
  rw [if_neg (by simp [hr])]

/-- R244: the response window of the request on the line has passed. -/
theorem State.rdmTimeout_late (s : State) (n : Nat) (q : RdmReq) (hq : (s.dmxSt n).rdm = some q)
    (ht : (s.dmxSt n).rdmAt + State.rdmWait (s.dmxRec n) q.data.length (State.rdmDisc q) ≤ s.free) : s.rdmTimeout n = s.rdmSilent n := by
  unfold State.rdmTimeout
  simp only [hq]
  rw [if_pos ht]

/-- R244: a request joins those of its port. -/
theorem State.rdmQ_rdmAsk (s : State) (n : Nat) (q : RdmReq) (dst cc pid : Nat) (pd : List Byte) :
    ((s.rdmAsk n q dst cc pid pd).dmxSt n).rdmQ = (s.dmxSt n).rdmQ ++
      [{ q with data := rdmMessage dst rdmSource ((s.dmxSt n).tn % 256) cc pid pd, asked := s.free }] :=
  congrArg DmxSt.rdmQ (Tab.get_set_self _ _ _ _)

/-- R247: discovery that starts asks its first request, and reads as busy. -/
theorem State.discoveryStart_idle (s : State) (n : Nat) (hr : dmxRdm (s.dmxRec n) = true) (hb : s.fbit (Reg.DmxStatus.discBusy n) = false) :
    s.discoveryStart n = ((s.putDmx n { s.dmxSt n with finding := [] }).fset (Reg.DmxStatus.discBusy n) 1).rdmAsk n { origin := 3, step := 1 }
      (2 ^ 48 - 1) 0x10 3 [] := by
  unfold State.discoveryStart
  rw [if_neg (by simp [hr, hb])]

/-! ### Inputs and tunnels (R245, R378) -/

/-- R245: a packet of slots on an input that feeds no tunnel is the port's newest. -/
theorem State.dmxIn_slots (s : State) (n : Nat) (l : List Byte) (b m : Nat) (hp : (s.dmxRec? n).isSome = true) (hi : dmxInput (s.dmxRec n) = true)
    (ht : s.bridge.tunLive = []) (hmin : 24 ≤ l.length) (hmax : l.length ≤ 512) :
    s.dmxIn n 0 l true b m =
      (s.nextTag.putDmx n { s.dmxSt n with rx := l, rxAt := s.free, rxLast := some s.free }).bump (Reg.dmxRxFrames n) := by
  unfold State.dmxIn
  rw [if_neg (by simp [hi, Option.isSome_iff_ne_none.1 hp]), if_neg (by decide), ht]
  dsimp only [List.find?_nil]
  rw [if_neg (by simp), if_neg (by omega)]

/-- R378: the tunnelled frame that waits leaves on an idle line, in a gap where the port has leaves. -/
theorem State.tunnelSend_idle (s : State) (n : Nat) (f : TunFrame) (hf : (s.dmxSt n).tun = some f) (hi : s.dmxIdle n = true)
    (hg : s.dmxBound n = true → s.gapHolds n ((f.brk + f.mab + f.data.length * 44) * usRaw) = true) :
    s.tunnelSend n = ((s.putDmx n { State.takeLine (s.dmxSt n) s.free f.brk f.mab f.data.length with tun := none, repeating := true }).emit
      (.tunnel n f.brk f.mab f.data)).bump Reg.graftTunTxCnt := by
  unfold State.tunnelSend
  simp only [hf]
  rw [if_neg (by simpa [hi] using hg)]

/-! ### Received universes (R241) -/

theorem Tab.find_map {α β : Type} (f : α → β) (l : Tab α) (k : Nat) : Tab.find? (l.map fun e => (e.1, f e.2)) k = (Tab.find? l k).map f := by
  induction l with
  | nil => rfl
  | cons e r ih =>
    simp only [List.map_cons, Tab.find?]
    split
    · rfl
    · exact ih

theorem Tab.get_map {α β : Type} (f : α → β) (d : α) (l : Tab α) (k : Nat) :
    Tab.get (f d) (l.map fun e => (e.1, f e.2)) k = f (Tab.get d l k) := by
  unfold Tab.get
  rw [Tab.find_map, Option.getD_map]

/-- R241: data of a source, known or new, that names its synchronisation universe as before or has met no synchronisation packet: it is held
back where the source is synchronised, and else taken at once. -/
theorem State.e131Rx_data (s : State) (u c p sy : Nat) (l : List Byte) (x : E131Src) (hj : s.e131Joined u = true)
    (hx : ((s.e131rx.get [] u).find? (·.cid == c)).getD { cid := c, priority := p, slots := l, lastAt := s.free } = x)
    (hs : x.sync = sy ∨ x.syncAt = none) :
    (s.e131Rx u c p sy (some l) true).e131rx.get [] u =
      (if s.e131Synced { x with sync := sy } then { x with priority := p, lastAt := s.free, sync := sy, held := some l }
       else { x with priority := p, lastAt := s.free, sync := sy, slots := l, held := none }) ::
        (s.e131rx.get [] u).filter (fun y => y.cid != c) := by
  have kept : (if x.sync = sy then x.syncAt else none) = x.syncAt := by
    split
    · rfl
    · exact (hs.resolve_left ‹_›).symm
  unfold State.e131Rx
  rw [if_neg (by decide)]
  dsimp only
  rw [if_neg (by simp [hj]), hx, kept]
  exact Tab.get_set_self _ _ _ _

/-- R241: a synchronisation packet reaches every source of its CID and universe. -/
theorem State.e131Rx_sync (s : State) (u c p sy v : Nat) :
    (s.e131Rx u c p sy none true).e131rx.get [] v = (s.e131rx.get [] v).map (fun x =>
      if x.cid = c ∧ x.sync = u then { x with slots := x.held.getD x.slots, held := none, syncAt := some s.free } else x) :=
  Tab.get_map (List.map _) [] s.e131rx v

/-- R241: a source without packets for 2.5 s is lost. -/
theorem State.e131Lost_late (s : State) (u c : Nat) (x : E131Src) (hx : (s.e131rx.get [] u).find? (fun x => x.cid == c) = some x)
    (ht : x.lastAt + 5 * second / 2 ≤ s.free) :
    (s.e131Lost u c).e131rx.get [] u = (s.e131rx.get [] u).filter (fun y => y.cid != c) := by
  unfold State.e131Lost
  simp only [hx]
  rw [if_pos ht]
  exact Tab.get_set_self _ _ _ _

/-! ### Sent universes (R240): what waits untimed at a port -/

/-- An update of a port that keeps its untimed frames keeps those of every port. -/
theorem State.untimed_putPort (s : State) (n : Nat) (p : PortSt) (h : p.untimed = (s.port n).untimed) (m : Nat) :
    ((s.putPort n p).port m).untimed = (s.port m).untimed := by
  rw [State.port_putPort]
  split
  · subst_vars
    exact h
  · rfl

theorem State.port_bump (s : State) (a m : Nat) : (s.bump a).port m = s.port m := rfl
theorem State.port_emit (s : State) (x : Sent) (m : Nat) : (s.emit x).port m = s.port m := rfl

theorem State.untimed_sendPause (s : State) (n time m : Nat) : ((s.sendPause n time).port m).untimed = (s.port m).untimed := by
  unfold State.sendPause
  dsimp only
  split
  · split <;> rw [State.port_emit, State.port_bump, State.untimed_putPort] <;> rfl
  · rw [State.untimed_putPort]
    rfl

theorem State.untimed_pauseOff (s : State) (e m : Nat) : ((s.pauseOff e).port m).untimed = (s.port m).untimed := by
  refine foldl_keeps (fun u : State => (u.port m).untimed) _ (fun u i => ?_) _ _
  dsimp only
  split
  · split
    · rw [State.untimed_sendPause, State.untimed_putPort]
      rfl
    · rw [State.untimed_putPort]
      rfl
  · rfl

theorem State.untimed_congestion (s : State) (n m : Nat) : ((s.congestion n).port m).untimed = (s.port m).untimed := by
  unfold State.congestion
  dsimp only
  repeat' split
  · rfl
  · rw [State.untimed_pauseOff, State.untimed_putPort]
    rfl
  · rw [State.untimed_putPort]
    rfl
  · rfl

/-- R212, R220: a frame that the queue of a port with its link up has room for joins those that wait there. -/
theorem State.untimed_enqueueUntimed (s : State) (n : Nat) (u : Untimed) (hl : s.linkUp n = true)
    (hr : State.queueFill (s.port n) + u.frame.len ≤ portQueueSize (s.ethRec n) - portMaxFrame (s.ethRec n)) :
    ((s.enqueueUntimed n u).port n).untimed = (s.port n).untimed ++ [u] := by
  unfold State.enqueueUntimed
  dsimp only
  rw [if_neg (by simp [hl, hr]), State.untimed_congestion, State.port_putPort, if_pos rfl]

theorem State.sendFrame_e131tx (s : State) (n : Nat) (l : List Byte) : (s.sendFrame n l).e131tx = s.e131tx :=
  (same_of_lines (State.sendFrame_lines [.ports] s n l none (by decide)) (p := .e131) (by decide) (by decide)).2

/-- R240: a universe's last packet leaves again once a second has passed. -/
theorem State.e131RepeatOp_due (s : State) (u : Nat) (hp : (s.e131tx.get ({} : E131Tx) u).packet ≠ [])
    (ht : (s.e131tx.get ({} : E131Tx) u).lastAt + second ≤ s.free) :
    s.e131RepeatOp u = s.e131Send (s.e131tx.get ({} : E131Tx) u).group (s.e131tx.get ({} : E131Tx) u).packet :=
  if_neg (by simp [hp, ht])

/-- R240: a packet takes the next number of the sequence it counts in. -/
theorem State.seq_e131Send (s : State) (rec : Nat) (p : List Byte) :
    ((s.e131Send rec p).e131tx.get ({} : E131Tx) (e131Key p).2).seq = ((s.e131tx.get ({} : E131Tx) (e131Key p).2).seq + 1) % 256 := by
  unfold State.e131Send
  rw [State.sendFrame_e131tx]
  exact congrArg E131Tx.seq (Tab.get_set_self _ _ _ _)

/-- R240: the packet leaves on its group's port, where its queue has room. -/
theorem State.untimed_e131Send (s : State) (rec : Nat) (p : List Byte) (hl : s.linkUp (s.e131Port rec) = true)
    (hr : State.queueFill (s.port (s.e131Port rec)) + (ethOf (s.e131Frame rec (s.e131Stamp rec p).1)).len ≤
      portQueueSize (s.ethRec (s.e131Port rec)) - portMaxFrame (s.ethRec (s.e131Port rec))) :
    ((s.e131Send rec p).port (s.e131Port rec)).untimed =
      (s.port (s.e131Port rec)).untimed ++ [{ frame := ethOf (s.e131Frame rec (s.e131Stamp rec p).1), at_ := s.free }] :=
  State.untimed_enqueueUntimed (s.e131Stamp rec p).2 (s.e131Port rec) _ hl hr

/-! ### The statement -/

/-- Settles O28, clause by clause: each command is its operation on a module that runs, and the operation's lemma says what stands then. -/
theorem dmxCommandsComplete : Obligations.DmxCommandsComplete := by
  unfold Obligations.DmxCommandsComplete
  refine ⟨?starts, ?ends, ?repeats, ?request, ?answered, ?again, ?noGap, ?discovery, ?input, ?tunnel, ?data, ?sync, ?lost, ?repeated⟩
  case starts =>
    intro n f s h hh hq hd hc hr
    obtain ⟨u, hu, hst, hsent, hrec⟩ := s.dmxStart_alone n f hh hq hd hc hr
    obtain ⟨cur, queue, last, sent⟩ := u.dmxBegin_starts n f
    refine ⟨_, act_of_running s (·.dmxStart n) h, ?_⟩
    rw [hu]
    exact ⟨cur, by rw [queue, hst, hq]; rfl, last, by rw [sent, hsent, hrec]⟩
  case ends =>
    intro n s h ht
    refine ⟨_, act_of_running s (·.dmxEnd n) h, ?_⟩
    rw [s.dmxEnd_over n ht]
    simp
  case repeats =>
    intro n s h hh hc hr hp hl hq hm ht
    refine ⟨_, act_of_running s (·.dmxRepeatOp n) h, ?_⟩
    simp [s.dmxRepeatOp_due n hh hc hr hp hl hq hm ht]
  case request =>
    intro n q r s h hq hs hi hb hg
    refine ⟨_, act_of_running s (·.rdmStart n) h, ?_⟩
    simp [s.rdmStart_gap n q r hq hs hi hb hg]
  case answered =>
    intro n q ack d s h hq ho hlo _
    refine ⟨_, act_of_running s (·.rdmAnswer n true ack d) h, ?_⟩
    rw [s.rdmAnswer_tunnel n q ack d n.isLt hq ho hlo]
    refine ⟨by simp, by simp, ?_⟩
    exact s.regN_bump_putDmx n _ (Reg.dmxRdmOk n) (by unfold Reg.dmxStatus Reg.dmxRdmOk; omega)
  case again =>
    intro n q s h hq hr ht
    refine ⟨_, act_of_running s (·.rdmTimeout n) h, ?_⟩
    rw [s.rdmTimeout_late n q hq ht, s.rdmSilent_first n q hq hr]
    simp
  case noGap =>
    intro n q r s h hq ht ho
    refine ⟨_, act_of_running s (·.rdmNone n) h, ?_⟩
    rw [s.rdmNone_late n q r hq ht, State.rdmEnd_tunnel _ _ _ _ _ _ ho, if_neg (by decide)]
    exact ⟨by simp, s.regN_bump_putDmx n _ (Reg.dmxRdmTimeout n) (by unfold Reg.dmxStatus Reg.dmxRdmTimeout; omega)⟩
  case discovery =>
    intro n s h hr hb
    refine ⟨_, act_of_running s (·.discoveryStart n) h, ?_⟩
    rw [s.discoveryStart_idle n hr hb]
    constructor
    · exact (State.fbit_congr _ _ _ rfl).trans (State.fbit_fset_self _ (Reg.DmxStatus.discBusy n) 1 (Nat.le_of_ble_eq_true rfl))
    · rw [State.rdmQ_rdmAsk, List.length_append, State.dmxSt_fset, State.dmxSt_putDmx]
      rfl
  case input =>
    intro n l b m s h hp hi ht hmin hmax
    refine ⟨_, act_of_running s (·.dmxIn n 0 l true b m) h, ?_⟩
    rw [s.dmxIn_slots n l b m hp hi ht hmin hmax]
    simp
  case tunnel =>
    intro n f s h hf hi hg
    refine ⟨_, act_of_running s (·.tunnelSend n) h, ?_⟩
    simp [s.tunnelSend_idle n f hf hi hg]
  case data =>
    intro u c p sy l s h hj
    have taken := act_of_running s (·.e131Rx u c p sy (some l) true) h
    constructor
    · intro hx
      refine ⟨_, taken, ?_⟩
      rw [s.e131Rx_data u c p sy l { cid := c, priority := p, slots := l, lastAt := s.free } hj (by simp [hx]) (.inr rfl),
        if_neg (by simp [State.e131Synced])]
    · rintro x hx rfl
      exact ⟨_, taken, s.e131Rx_data u c p x.sync l x hj (by simp [hx]) (.inl rfl)⟩
  case sync =>
    intro u c p sy s h
    exact ⟨_, act_of_running s (·.e131Rx u c p sy none true) h, s.e131Rx_sync u c p sy⟩
  case lost =>
    intro u c x s h hx ht
    exact ⟨_, act_of_running s (·.e131Lost u c) h, s.e131Lost_late u c x hx ht⟩
  case repeated =>
    intro u s h hp ht x k m f hl hr
    refine ⟨_, act_of_running s (·.e131RepeatOp u) h, ?_⟩
    rw [s.e131RepeatOp_due u hp ht]
    exact ⟨s.untimed_e131Send x.group x.packet hl hr, s.seq_e131Send x.group x.packet⟩

end Sys2Proof.Machine
end

section
/-! PROOFS. Sap lines: bursts, polls, replies and turnaround windows (R255, R263, R267, R268). -/

namespace Sys2Proof.Machine

open Sys2Proof.Safety (Part)

/-! ### What the shared operations leave of a sap line -/

@[simp] theorem State.sapSt_putSap (s : State) (n : Nat) (d : SapSt) : (s.putSap n d).sapSt n = d := Tab.get_set_self _ _ _ _
@[simp] theorem State.sapSt_bump (s : State) (a n : Nat) : (s.bump a).sapSt n = s.sapSt n := rfl
@[simp] theorem State.sapSt_fset (s : State) (f : Field) (v n : Nat) : (s.fset f v).sapSt n = s.sapSt n := rfl
@[simp] theorem State.sapSt_fsetB (s : State) (f : Field) (b : Bool) (n : Nat) : (s.fsetB f b).sapSt n = s.sapSt n := rfl
@[simp] theorem State.sapSt_emit (s : State) (x : Sent) (n : Nat) : (s.emit x).sapSt n = s.sapSt n := rfl

@[simp] theorem State.regN_putSap (s : State) (n : Nat) (d : SapSt) (a : Nat) : (s.putSap n d).regN a = s.regN a := rfl
@[simp] theorem State.regN_sapLate (s : State) (n a : Nat) : (s.sapLate n).regN a = s.regN a := rfl

/-- An operation that keeps the sap lines' part keeps every line. -/
theorem State.sapSt_of_lines {K : List Part} {s t : State} (h : t.lines K = s.lines K) (hK : .saps ∉ K) (n : Nat) : t.sapSt n = s.sapSt n :=
  congrArg (Tab.get ({} : SapSt) · n) (show t.saps = s.saps from same_of_lines h (p := .saps) (by decide) hK)

@[simp] theorem State.sapSt_sapCheck (s : State) (m : Nat) (ok : Bool) (n : Nat) : (s.sapCheck m ok).sapSt n = s.sapSt n :=
  State.sapSt_of_lines (State.sapCheck_lines [] s m ok) (by decide) n

@[simp] theorem State.sapSt_sapChanged (s : State) (m n : Nat) : (s.sapChanged m).sapSt n = s.sapSt n :=
  State.sapSt_of_lines (State.sapChanged_lines [] s m) (by decide) n

@[simp] theorem State.sapSt_safetyLaunched (s : State) (rec n : Nat) : (s.safetyLaunched rec).sapSt n = s.sapSt n :=
  State.sapSt_of_lines (State.safetyLaunched_lines [] s rec) (by decide) n

@[simp] theorem State.sapSt_sapStatusReply (s : State) (m node : Nat) (p : List Byte) (n : Nat) :
    (s.sapStatusReply m node p).sapSt n = s.sapSt n :=
  State.sapSt_of_lines (State.sapStatusReply_lines [.nodes] s m node p (by decide)) (by decide) n

@[simp] theorem State.sapSt_sapIdentReply (s : State) (m node : Nat) (p : List Byte) (n : Nat) :
    (s.sapIdentReply m node p).sapSt n = s.sapSt n :=
  State.sapSt_of_lines (State.sapIdentReply_lines [.nodes] s m node p (by decide)) (by decide) n

/-- R249: a frame that goes out moves the running disparity of its line only. -/
@[simp] theorem State.sapSt_sapSend (s : State) (n cmd : Nat) (w : List Byte) :
    (s.sapSend n cmd w).sapSt n = { s.sapSt n with rd := (codeGroups (s.sapSt n).rd w).2 } := by
  simp [State.sapSend]

@[simp] theorem State.cur_sapLate (s : State) (n : Nat) : ((s.sapLate n).sapSt n).cur = (s.sapSt n).cur := by
  simp [State.sapLate]

@[simp] theorem State.window_sapLate (s : State) (n : Nat) : ((s.sapLate n).sapSt n).window = (s.sapSt n).window := by
  simp [State.sapLate]

/-- R267, R268: `missing` of a node opens and closes no window. -/
@[simp] theorem State.window_sapMissing (s : State) (n node : Nat) (on : Bool) :
    ((s.sapMissing n node on).sapSt n).window = (s.sapSt n).window := by
  unfold State.sapMissing
  extract_lets r noted c counted line identified
  have kept : counted.sapSt n = s.sapSt n := rfl
  split
  · rfl
  · rw [State.sapSt_sapChanged]
    unfold identified line
    split <;> simp [kept]

/-! ### Bursts (R255) -/

/-- R54: while a launch base has a position, what leaves the axes and FREE leaves that position. -/
theorem State.basePos_unique {s t : State} {base p q : Nat} (axes : t.axes = s.axes) (free : t.free = s.free) (hs : s.basePos base = some p)
    (ht : t.basePos base = some q) : q = p := by
  have place (u : State) (r : Nat) (h : u.basePos base = some r) : r = if base = 17 then u.free else (u.axis base).pos := by
    obtain ⟨locked, here⟩ := Option.ite_none_right_eq_some.1 h
    obtain rfl := Option.some.inj here
    unfold State.axisPos
    by_cases onFree : base = 17
    · subst base
      simp [locked]
    · simp [onFree, locked]
  rw [place s p hs, place t q ht, State.axis, State.axis, axes, free]

/-- R52: a due frame's base has a position, at or past its launch time. -/
theorem State.basePos_of_due (s : State) (f : OutFrame) (hd : s.due f = true) :
    ∃ p, s.basePos f.base = some p ∧ f.launch * 65536 ≤ p := by
  unfold State.due at hd
  split at hd
  · exact ⟨_, ‹_›, of_decide_eq_true hd⟩
  · cases hd

/-- R255: a frame of a burst leaves the queue, and the turn passes to the frame after it. -/
theorem State.sapEmit_passes (s : State) (n : Nat) (b : SapBurst) (start : Int) (f : OutFrame) :
    ∃ c, ((s.sapEmit n b start f).sapSt n).cur = some c ∧ c.head = b.head ∧ c.next = f.part + 1 ∧
      ((s.sapEmit n b start f).sapSt n).queue = (s.sapSt n).queue.filter (· != f) := by
  unfold State.sapEmit
  dsimp only
  split
  · exact ⟨{ b with next := f.part + 1 }, by simp⟩
  · split <;> simp

theorem sameBurst_self (f : OutFrame) : sameBurst f f = true := by simp [sameBurst]

/-- R255: with its frame alone in the queue, a burst whose turn has come on its base sends it. -/
theorem State.sapFlow_alone (s : State) (n : Nat) (b : SapBurst) (hc : (s.sapSt n).cur = some b) (hq : (s.sapSt n).queue = [b.head])
    (hp : b.head.part = b.next) (ht : ∀ p ∈ s.basePos b.head.base, b.free ≤ (p : Int)) :
    ∃ start, State.sapFlow 1 s n false = s.sapEmit n b start b.head := by
  refine ⟨b.free, ?_⟩
  unfold State.sapFlow
  simp only [hc, hq, List.find?_cons, sameBurst_self, hp, beq_self_eq_true, Bool.and_self]
  rw [if_neg]
  · rfl
  · split
    · exact Int.not_lt.2 (ht _ ‹_›)
    · exact Int.lt_irrefl _

/-- R255: a due burst of one frame that waits alone starts with that frame. -/
theorem State.sapBegin_alone (s : State) (n : Nat) (f : OutFrame) (hq : (s.sapSt n).queue = [f]) (hf : f.part = 0) (hd : s.due f = true) :
    ∃ b, ((s.sapBegin n f none).sapSt n).cur = some b ∧ b.head = f ∧ b.next = 1 ∧ ((s.sapBegin n f none).sapSt n).queue = [] := by
  obtain ⟨p, hp, hl⟩ := s.basePos_of_due f hd
  unfold State.sapBegin
  extract_lets late counted now start line started sent
  obtain ⟨axes, free, kept⟩ : counted.axes = s.axes ∧ counted.free = s.free ∧ line = s.sapSt n := by
    unfold line counted
    split <;> exact ⟨rfl, rfl, rfl⟩
  have due : ((f.launch * 65536 : Nat) : Int) ≤ p := Int.ofNat_le.2 hl
  have hnow : now ≤ p := by
    unfold now
    split
    next q hq => exact Int.ofNat_le.2 (Nat.le_of_eq (State.basePos_unique axes free hp hq))
    next => exact due
  have hstart : start ≤ p := by
    unfold start
    simp only [Option.getD_none]
    split
    · exact Int.max_le.2 ⟨hnow, due⟩
    · exact due
  have begun : started.sapSt n = { s.sapSt n with cur := some { head := f, free := start, start := start } } := by
    simp [started, kept]
  obtain ⟨place, flow⟩ := started.sapFlow_alone n { head := f, free := start, start := start } (by rw [begun]) (by rw [begun]; exact hq) hf
    (fun q hq => by rw [State.basePos_unique (t := started) axes free hp hq]; exact hstart)
  obtain ⟨b, cur, head, next, queue⟩ := started.sapEmit_passes n { head := f, free := start, start := start } place f
  have left : sent.sapSt n = (started.sapEmit n { head := f, free := start, start := start } place f).sapSt n := congrArg (State.sapSt · n) flow
  have last : (if f.safety then sent.safetyLaunched f.portRec else sent).sapSt n = sent.sapSt n := by split <;> simp
  rw [last, left]
  exact ⟨b, cur, head, by rw [next, hf], by rw [queue, begun]; simp [hq]⟩

/-- R255: on a free line a due burst that waits alone is the one that starts. -/
theorem State.sapStart_alone (s : State) (n : Nat) (f : OutFrame) (hh : s.sapHeld n = false) (hw : (s.sapSt n).window = none)
    (hc : (s.sapSt n).cur = none) (hq : (s.sapSt n).queue = [f]) (hf : f.part = 0) (hd : s.due f = true) :
    s.sapStart n = s.sapBegin n f none := by
  unfold State.sapStart
  extract_lets d dueF
  have hdue : dueF = [f] := by simp [dueF, d, hq, hf, hd]
  rw [if_neg (by simp [d, hh, hw]), hdue]
  cases hs : f.safety <;> simp [hs, d, hc]

/-- R255, R271: a burst ends once its last frame has gone out, and counts. -/
theorem State.sapEnd_over (s : State) (n : Nat) (b : SapBurst) (hc : (s.sapSt n).cur = some b) (hn : b.head.parts ≤ b.next)
    (ht : ∀ p ∈ s.basePos b.head.base, b.free - 2 * sapChars (s.sapRec n) 1 ≤ (p : Int)) :
    ((s.sapEnd n).sapSt n).cur = none ∧
      (s.sapEnd n).regN (Reg.sapTxBursts n) = min 0xFFFFFFFF (s.regN (Reg.sapTxBursts n) + 1) := by
  have apart : Reg.sapTakeSlip n ≠ Reg.sapTxBursts n ∧ Reg.sapStatus n ≠ Reg.sapTxBursts n := by
    unfold Reg.sapTakeSlip Reg.sapTxBursts Reg.sapStatus
    omega
  unfold State.sapEnd
  simp only [hc]
  rw [if_neg]
  · refine ⟨by simp, ?_⟩
    rw [State.regN_sapLate, State.regN_putSap, ← State.regN_bump]
    split
    · exact congrArg BitVec.toNat ((State.reg_fset_ne _ _ _ _ apart.2).trans (State.reg_bump_ne _ _ _ apart.1))
    · rfl
  · rw [not_or]
    refine ⟨Nat.not_lt.2 hn, ?_⟩
    split
    · simpa using ht _ ‹_›
    · decide

/-! ### Turnaround windows (R263, R267, R268) -/

/-- R263, R267: a poll with no launch in sight opens the window of the node it asks. -/
theorem State.sapPollOp_opens (s : State) (n rec : Nat) (hr : s.sapRec? n = some rec) (hn : sapNodes (s.sapRec n) ≠ 0)
    (hh : s.sapHeld n = false) (hc : (s.sapSt n).cur = none) (hw : (s.sapSt n).window = none) (hl : s.nextLaunchOf rec (s.sapSt n).queue = none)
    (hd : s.pollDue n ((s.sapSt n).pollNext % sapNodes (s.sapRec n)) = true) :
    ((s.sapPollOp n false).sapSt n).window = some {
      node := (s.sapSt n).pollNext % sapNodes (s.sapRec n), opens := s.free + sapChars (s.sapRec n) 14 + sapUis (s.sapRec n) 2,
      fin := s.free + sapPollTime (s.sapRec n) } := by
  have next : s.sapNext n false = some ((s.sapSt n).pollNext % sapNodes (s.sapRec n)) := by simp [State.sapNext, hn]
  unfold State.sapPollOp
  simp only [hr, next, hl]
  rw [if_neg (by simp [hh, hc, hw, hd])]
  simp

/-- R248: from 2 UI after the poll to its end, the window has the line's DE low. -/
theorem State.sapDe_open (s : State) (n : Nat) (w : SapWindow) (hw : (s.sapSt n).window = some w) (ho : w.opens ≤ s.free) (hf : s.free ≤ w.fin) :
    s.sapDe n = false := by
  simp [State.sapDe, hw, ho, hf]

/-- R268: a reply within the window that verifies, a STATUS to a POLL or an IDENT to an IDENT, is taken. -/
theorem State.sapReplyOp_taken (s : State) (n : Nat) (w : SapWindow) (f p : List Byte) (hw : (s.sapSt n).window = some w)
    (ho : w.opens ≤ s.free) (hf : s.free ≤ w.fin)
    (hr : w.ident = false ∧ State.sapReplyOk w.node f = some (0x84, p) ∧ p.length = 24 ∨
      w.ident = true ∧ State.sapReplyOk w.node f = some (0x86, p) ∧ p.length = 16) :
    ((s.sapReplyOp n f).sapSt n).window = some { w with got := true } := by
  unfold State.sapReplyOp
  simp only [hw]
  rw [if_neg (by simp [s.sapDe_open n w hw ho hf])]
  obtain ⟨asked, reply, len⟩ | ⟨asked, reply, len⟩ := hr
  · simp only [reply]
    rw [if_pos (by simp [asked, len])]
    simp
  · simp only [reply]
    rw [if_neg (by simp), if_pos (by simp [asked, len])]
    simp

/-- R263, R268: at its end the window closes, with or without a reply. -/
theorem State.sapWindowEnd_closes (s : State) (n : Nat) (w : SapWindow) (hw : (s.sapSt n).window = some w) (ht : w.fin ≤ s.free) :
    ((s.sapWindowEnd n).sapSt n).window = none := by
  unfold State.sapWindowEnd
  simp only [hw]
  rw [if_neg (Nat.not_lt.2 ht)]
  repeat' split
  all_goals simp

/-! ### The statement -/

/-- Settles O29, clause by clause: each command is its operation on a module that runs, and the operation's lemma says what stands then. -/
theorem sapCommandsComplete : Obligations.SapCommandsComplete := by
  unfold Obligations.SapCommandsComplete
  refine ⟨?starts, ?ends, ?polls, ?reply, ?closes⟩
  case starts =>
    intro n f s h hh hw hc hq hf hd
    obtain ⟨b, begun⟩ := s.sapBegin_alone n f hq hf hd
    refine ⟨_, b, act_of_running s (·.sapStart n) h, ?_⟩
    rw [s.sapStart_alone n f hh hw hc hq hf hd]
    exact begun
  case ends =>
    intro n b s h hc hn ht
    exact ⟨_, act_of_running s (·.sapEnd n) h, s.sapEnd_over n b hc hn ht⟩
  case polls =>
    intro n rec s h hr hn hh hc hw hl node hd
    exact ⟨_, act_of_running s (·.sapPollOp n false) h, s.sapPollOp_opens n rec hr hn hh hc hw hl hd⟩
  case reply =>
    intro n w f p s h hw ho hf hr
    exact ⟨_, act_of_running s (·.sapReplyOp n f) h, s.sapReplyOp_taken n w f p hw ho hf hr⟩
  case closes =>
    intro n w s h hw ht
    exact ⟨_, act_of_running s (·.sapWindowEnd n) h, s.sapWindowEnd_closes n w hw ht⟩

end Sys2Proof.Machine
end

section
/-! PROOFS. FREE (R272), and what the operations of registers, axes, queue blocks, the host interface, ports, PTP, the graft bridge,
DMX512 ports and sap lines leave of it, one lemma an operation. -/

namespace Sys2Proof.Machine

/-- FREE as a value of its own type, apart from the numbers that an operation reckons with it. -/
structure Clock where
  free : Nat

def State.clock : State → Clock
  | { free, .. } => ⟨free⟩

/-! ### Updates of a state, branches and folds -/

/-- The clock of an update is its field; `clock_self` reads it as the clock of the state updated. -/
@[simp] theorem State.clock_mk : type_of% @State.clock.eq_1 := State.clock.eq_1

@[simp] theorem clock_self (s : State) : (⟨s.free⟩ : Clock) = s.clock := by
  cases s
  rfl

@[simp] theorem State.clock_ite {c : Prop} [Decidable c] (s t : State) : (if c then s else t).clock = if c then s.clock else t.clock :=
  apply_ite _ _ _ _

@[simp] theorem State.foldl_clock {α : Type} (f : State → α → State) (hf : ∀ u x, (f u x).clock = u.clock) (l : List α) (s : State) :
    (l.foldl f s).clock = s.clock := foldl_keeps State.clock f hf l s

theorem State.foldl_fst_clock {α β : Type} (f : State × β → α → State × β) (hf : ∀ a x, (f a x).1.clock = a.1.clock) (l : List α) (a : State × β) :
    (l.foldl f a).1.clock = a.1.clock := foldl_keeps (fun a => a.1.clock) f hf l a

theorem State.foldl_snd_clock {α β : Type} (f : β × State → α → β × State) (hf : ∀ a x, (f a x).2.clock = a.2.clock) (l : List α) (a : β × State) :
    (l.foldl f a).2.clock = a.2.clock := foldl_keeps (fun a => a.2.clock) f hf l a

/-! ### Registers, logs, replies and attention -/

@[simp] theorem State.setReg_clock (s : State) (a : Nat) (w : Word) : (s.setReg a w).clock = s.clock := by simp [State.setReg]
@[simp] theorem State.setRegN_clock (s : State) (a v : Nat) : (s.setRegN a v).clock = s.clock := by simp [State.setRegN]
@[simp] theorem State.noteSet_clock (s : State) (f : Field) (v : Nat) : (s.noteSet f v).clock = s.clock := by simp [State.noteSet]
@[simp] theorem State.keepAgain_clock (s : State) (a : Nat) (l : List (Nat × Nat)) : (s.keepAgain a l).clock = s.clock := by simp [State.keepAgain]
@[simp] theorem State.fset_clock (s : State) (f : Field) (v : Nat) : (s.fset f v).clock = s.clock := by simp [State.fset]
@[simp] theorem State.fsetB_clock (s : State) (f : Field) (b : Bool) : (s.fsetB f b).clock = s.clock := by simp [State.fsetB]
@[simp] theorem State.bumpBy_clock (s : State) (a n : Nat) : (s.bumpBy a n).clock = s.clock := by simp [State.bumpBy]
@[simp] theorem State.bump_clock (s : State) (a : Nat) : (s.bump a).clock = s.clock := by simp [State.bump]
@[simp] theorem State.fmax_clock (s : State) (f : Field) (v : Nat) : (s.fmax f v).clock = s.clock := by simp [State.fmax]
@[simp] theorem State.regMax_clock (s : State) (a v : Nat) : (s.regMax a v).clock = s.clock := by simp [State.regMax]
@[simp] theorem State.setReg64_clock (s : State) (lo hi v : Nat) : (s.setReg64 lo hi v).clock = s.clock := by simp [State.setReg64]
@[simp] theorem State.setReg96_clock (s : State) (lo mid hi v : Nat) : (s.setReg96 lo mid hi v).clock = s.clock := by simp [State.setReg96]
@[simp] theorem State.shadowToPend_clock (s : State) (as : List Nat) : (s.shadowToPend as).clock = s.clock := by simp [State.shadowToPend]
@[simp] theorem State.pendToAct_clock (s : State) (as : List Nat) : (s.pendToAct as).clock = s.clock := by simp [State.pendToAct]
@[simp] theorem State.setShadow_clock (s : State) (a v : Nat) : (s.setShadow a v).clock = s.clock := by simp [State.setShadow]
@[simp] theorem State.nextTag_clock (s : State) : s.nextTag.clock = s.clock := by simp [State.nextTag]

@[simp] theorem State.onTrunks_clock (s : State) (p : State → Trunk → Bool) (f : Trunk → State → State) (hf : ∀ k u, (f k u).clock = u.clock) :
    (s.onTrunks p f).clock = s.clock := by simp [State.onTrunks, hf]

@[simp] theorem State.draw_clock (s : State) (n : Nat) : (s.draw n).2.clock = s.clock := by simp [State.draw]
@[simp] theorem State.emit_clock (s : State) (x : Sent) : (s.emit x).clock = s.clock := by simp [State.emit]
@[simp] theorem State.setAxis_clock (s : State) (n : Nat) (a : AxisSt) : (s.setAxis n a).clock = s.clock := by simp [State.setAxis]
@[simp] theorem State.pushEvent_clock (s : State) (e : Event) : (s.pushEvent e).clock = s.clock := by simp [State.pushEvent]

@[simp] theorem State.rootEvent_clock (s : State) (base code cls : Nat) (args : List Byte) : (s.rootEvent base code cls args).clock = s.clock := by
  simp [State.rootEvent]

@[simp] theorem State.trunkEvent_clock (s : State) (t : Trunk) (base code cls : Nat) (args : List Byte) :
    (s.trunkEvent t base code cls args).clock = s.clock := by simp [State.trunkEvent]

@[simp] theorem State.statusEvent_clock (s : State) (f : Field) (cls : Nat) : (s.statusEvent f cls).clock = s.clock := by simp [State.statusEvent]
@[simp] theorem State.flag_clock (s : State) (f : Field) (cls : Nat) : (s.flag f cls).clock = s.clock := by simp [State.flag]
@[simp] theorem State.ringStop_clock (s : State) (r : Nat) (f : Field) : (s.ringStop r f).clock = s.clock := by simp [State.ringStop]
@[simp] theorem State.replyWrite_clock (s : State) (r : Reply) (err : Bool) : (s.replyWrite r err).clock = s.clock := by simp [State.replyWrite]

@[simp] theorem State.reply_clock (s : State) (c tag opcode code : Nat) (result data : List Byte) (windfall : Bool) :
    (s.reply c tag opcode code result data windfall).clock = s.clock := by simp [State.reply]

@[simp] theorem State.watchReply_clock (s : State) (c : Nat) (w : Watch) (code : Nat) : (s.watchReply c w code).clock = s.clock := by
  simp [State.watchReply]

@[simp] theorem State.watchCheck_clock (s : State) : s.watchCheck.clock = s.clock := by simp [State.watchCheck]
@[simp] theorem State.attn_clock (s : State) (k : Nat) : (s.attn k).clock = s.clock := by simp [State.attn]
@[simp] theorem State.attnFault_clock (s : State) : s.attnFault.clock = s.clock := by simp [State.attnFault]
@[simp] theorem State.attnFailover_clock (s : State) : s.attnFailover.clock = s.clock := by simp [State.attnFailover]
@[simp] theorem State.attnSafety_clock (s : State) : s.attnSafety.clock = s.clock := by simp [State.attnSafety]
@[simp] theorem State.attnReady_clock (s : State) : s.attnReady.clock = s.clock := by simp [State.attnReady]
@[simp] theorem State.attnLeaf_clock (s : State) : s.attnLeaf.clock = s.clock := by simp [State.attnLeaf]
@[simp] theorem State.attnTime_clock (s : State) : s.attnTime.clock = s.clock := by simp [State.attnTime]
@[simp] theorem State.attnUpdate_clock (s : State) : s.attnUpdate.clock = s.clock := by simp [State.attnUpdate]
@[simp] theorem State.attnRecord_clock (s : State) : s.attnRecord.clock = s.clock := by simp [State.attnRecord]
@[simp] theorem State.attnBridge_clock (s : State) : s.attnBridge.clock = s.clock := by simp [State.attnBridge]
@[simp] theorem State.attnThermal_clock (s : State) : s.attnThermal.clock = s.clock := by simp [State.attnThermal]
@[simp] theorem State.setReady_clock (s : State) (f : Field) (b : Bool) : (s.setReady f b).clock = s.clock := by simp [State.setReady]

/-! ### Show axes -/

@[simp] theorem State.countFrom_clock (s : State) (key p : Nat) : (s.countFrom key p).clock = s.clock := by
  unfold State.countFrom
  split <;> simp

@[simp] theorem State.rebaseCadences_clock (s : State) (n : Nat) : (s.rebaseCadences n).clock = s.clock := by simp [State.rebaseCadences]
@[simp] theorem State.setAxisState_clock (s : State) (n v : Nat) : (s.setAxisState n v).clock = s.clock := by simp [State.setAxisState]
@[simp] theorem State.rasterStep_clock (s : State) (n : Nat) : (s.rasterStep n).clock = s.clock := by simp [State.rasterStep]
@[simp] theorem State.recordStep_clock (s : State) (n : Nat) (fwd : Bool) : (s.recordStep n fwd).clock = s.clock := by simp [State.recordStep]
@[simp] theorem State.takePos_clock (s : State) (n p thr : Nat) : (s.takePos n p thr).clock = s.clock := by simp [State.takePos]
@[simp] theorem State.setRate_clock (s : State) (n adv : Nat) : (s.setRate n adv).clock = s.clock := by simp [State.setRate]

@[simp] theorem State.lockAxis_clock (s : State) (n p adv : Nat) : (s.lockAxis n p adv).clock = s.clock := by
  unfold State.lockAxis
  split <;> simp

@[simp] theorem State.fallBack_clock (s : State) (n : Nat) : (s.fallBack n).clock = s.clock := by simp [State.fallBack]
@[simp] theorem State.loseAxis_clock (s : State) (n : Nat) : (s.loseAxis n).clock = s.clock := by simp [State.loseAxis]
@[simp] theorem State.stepAxis_clock (s : State) (n p : Nat) : (s.stepAxis n p).clock = s.clock := by simp [State.stepAxis]
@[simp] theorem State.relockAxis_clock (s : State) (n : Nat) : (s.relockAxis n).clock = s.clock := by simp [State.relockAxis]
@[simp] theorem State.snapAxis_clock (s : State) (n : Nat) : (s.snapAxis n).clock = s.clock := by simp [State.snapAxis]
@[simp] theorem State.snapAll_clock (s : State) : s.snapAll.clock = s.clock := by simp [State.snapAll]

@[simp] theorem State.writeHoldMode_clock (s : State) (n : Nat) (halt : Bool) : (s.writeHoldMode n halt).clock = s.clock := by
  simp [State.writeHoldMode]

@[simp] theorem State.pendBit_clock (s : State) (t : Trunk) (src : Nat) : (s.pendBit t src).clock = s.clock := by simp [State.pendBit]
@[simp] theorem State.pendSource_clock (s : State) (t : Trunk) (src : Nat) : (s.pendSource t src).clock = s.clock := by simp [State.pendSource]
@[simp] theorem State.pendBoth_clock (s : State) (src : Nat) : (s.pendBoth src).clock = s.clock := by simp [State.pendBoth]
@[simp] theorem State.evtActions_clock (s : State) (m : Nat) : (s.evtActions m).clock = s.clock := by simp [State.evtActions]
@[simp] theorem State.evtFire_clock (s : State) (m : Nat) : (s.evtFire m).clock = s.clock := by simp [State.evtFire]
@[simp] theorem State.evtArmOp_clock (s : State) (m : Nat) : (s.evtArmOp m).clock = s.clock := by simp [State.evtArmOp]
@[simp] theorem State.evtDisarmOp_clock (s : State) (m : Nat) : (s.evtDisarmOp m).clock = s.clock := by simp [State.evtDisarmOp]
@[simp] theorem State.evtBothOp_clock (s : State) (m : Nat) : (s.evtBothOp m).clock = s.clock := by simp [State.evtBothOp]
@[simp] theorem State.mainsFollow_clock (s : State) (gap : Nat) : (s.mainsFollow gap).clock = s.clock := by simp [State.mainsFollow]
@[simp] theorem State.mainsCross_clock (s : State) (volts : Nat) : (s.mainsCross volts).clock = s.clock := by simp [State.mainsCross]

/-! ### Queue blocks -/

@[simp] theorem State.putQb_clock (s : State) (k : Nat) (q : QbSt) : (s.putQb k q).clock = s.clock := by simp [State.putQb]
@[simp] theorem State.qbPush_clock (s : State) (k : Nat) (l : List QbEntry) : (s.qbPush k l).clock = s.clock := by simp [State.qbPush]
@[simp] theorem State.qbDrop_clock (s : State) (k n : Nat) : (s.qbDrop k n).clock = s.clock := by simp [State.qbDrop]
@[simp] theorem State.qbPushAt_clock (s : State) (k i : Nat) (l : List QbEntry) : (s.qbPushAt k i l).clock = s.clock := by simp [State.qbPushAt]
@[simp] theorem State.qbBack_clock (s : State) (k : Nat) (l : List QbEntry) : (s.qbBack k l).clock = s.clock := by simp [State.qbBack]
@[simp] theorem State.qbWriteOp_clock (s : State) (k : Nat) (e : QbEntry) : (s.qbWriteOp k e).clock = s.clock := by simp [State.qbWriteOp]

@[simp] theorem State.qbReadOp_clock (s : State) (k : Nat) : (s.qbReadOp k).clock = s.clock := by
  unfold State.qbReadOp
  dsimp only
  repeat' split
  all_goals simp

@[simp] theorem State.qbStaleOp_clock (s : State) (k : Nat) : (s.qbStaleOp k).clock = s.clock := by
  unfold State.qbStaleOp
  split <;> simp

/-! ### Launch bases -/

@[simp] theorem State.safetyLaunched_clock (s : State) (rec : Nat) : (s.safetyLaunched rec).clock = s.clock := by
  unfold State.safetyLaunched
  split <;> simp

/-! ### The Stem host interface -/

@[simp] theorem State.startCmd_clock (s : State) (c tag op : Nat) (replyErr : Bool) : (s.startCmd c tag op replyErr).clock = s.clock := by
  simp [State.startCmd]

@[simp] theorem State.done_clock (s : State) (h : StemHdr) (op code : Nat) : (s.done h op code).clock = s.clock := by simp [State.done]
@[simp] theorem State.refuse_clock (s : State) (h : StemHdr) (op code : Nat) : (s.refuse h op code).clock = s.clock := by simp [State.refuse]

@[simp] theorem State.stemCmd_clock (s : State) (h : StemHdr) (op len : Nat) (read : Bool) (i : Instr) (f : State → State) (hf : ∀ u,
    (f u).clock = u.clock) :
    (s.stemCmd h op len read i f).clock = s.clock := by simp [State.stemCmd, hf]

@[simp] theorem State.chanDrop_clock (s : State) (c : Nat) : (s.chanDrop c).clock = s.clock := by simp [State.chanDrop]

@[simp] theorem State.chunkIn_clock (s : State) (h : StemHdr) (op : Nat) (c : Chunk) (take : List Byte → State → State) (hf : ∀ l u,
    (take l u).clock = u.clock) :
    (s.chunkIn h op c take).clock = s.clock := by
  unfold State.chunkIn
  dsimp only
  split <;> simp [hf]

@[simp] theorem State.watchOp_clock (s : State) (h : StemHdr) (mask expected timeout : Nat) :
    (s.watchOp h mask expected timeout).clock = s.clock := by
  unfold State.watchOp
  dsimp only
  repeat' split
  all_goals simp

@[simp] theorem State.watchExpire_clock (s : State) (c : Nat) : (s.watchExpire c).clock = s.clock := by
  unfold State.watchExpire
  split <;> simp

@[simp] theorem State.attnClear_clock (s : State) (c mask : Nat) : (s.attnClear c mask).clock = s.clock := by simp [State.attnClear]
@[simp] theorem State.ringOn_clock (s : State) (r : Nat) : (s.ringOn r).clock = s.clock := by simp [State.ringOn]
@[simp] theorem State.ringOff_clock (s : State) (r : Nat) : (s.ringOff r).clock = s.clock := by simp [State.ringOff]
@[simp] theorem State.doorbell_clock (s : State) (r count : Nat) (err : Bool) : (s.doorbell r count err).clock = s.clock := by simp [State.doorbell]
@[simp] theorem State.putSession_clock (s : State) (k : Nat) (x : Session) : (s.putSession k x).clock = s.clock := by simp [State.putSession]

@[simp] theorem State.datagram_clock (s : State) (via peer port tag : Nat) (csumZero lengthOk : Bool) :
    (s.datagram via peer port tag csumZero lengthOk).clock = s.clock := by
  unfold State.datagram
  dsimp only
  repeat' split
  all_goals simp

@[simp] theorem State.sessionEnd_clock (s : State) (k : Nat) : (s.sessionEnd k).clock = s.clock := by simp [State.sessionEnd]
@[simp] theorem State.winWrite_clock (s : State) (k : Nat) (v : Word) : (s.winWrite k v).clock = s.clock := by simp [State.winWrite]

/-! ### E1.31 streams -/

@[simp] theorem State.e131Stamp_clock (s : State) (rec : Nat) (p : List Byte) : (s.e131Stamp rec p).2.clock = s.clock := by simp [State.e131Stamp]

@[simp] theorem State.e131Rx_clock (s : State) (univ cid priority sync : Nat) (slots : Option (List Byte)) (checks : Bool) :
    (s.e131Rx univ cid priority sync slots checks).clock = s.clock := by
  unfold State.e131Rx
  dsimp only
  repeat' split
  all_goals simp

@[simp] theorem State.e131Lost_clock (s : State) (univ cid : Nat) : (s.e131Lost univ cid).clock = s.clock := by
  unfold State.e131Lost
  dsimp only
  repeat' split
  all_goals simp

@[simp] theorem State.e131Capture_clock (s : State) : s.e131Capture.clock = s.clock := by simp [State.e131Capture]

/-! ### The port fabric -/

@[simp] theorem State.qbFollow_clock (s : State) (k : Nat) (old : List (List QbEntry)) (new : List (List QbEntry)) :
    (s.qbFollow k old new).clock = s.clock := by simp [State.qbFollow]

@[simp] theorem State.setPort_clock (s : State) (n : Nat) (p : PortSt) : (s.setPort n p).clock = s.clock := by simp [State.setPort]
@[simp] theorem State.putPort_clock (s : State) (n : Nat) (p : PortSt) : (s.putPort n p).clock = s.clock := by simp [State.putPort]
@[simp] theorem State.bump64_clock (s : State) (lo hi n : Nat) : (s.bump64 lo hi n).clock = s.clock := by simp [State.bump64]
@[simp] theorem State.dropBit_clock (s : State) (n : Nat) : (s.dropBit n).clock = s.clock := by simp [State.dropBit]
@[simp] theorem State.txCount_clock (s : State) (n len : Nat) : (s.txCount n len).clock = s.clock := by simp [State.txCount]
@[simp] theorem State.sendPause_clock (s : State) (n time : Nat) : (s.sendPause n time).clock = s.clock := by simp [State.sendPause]
@[simp] theorem State.pauseOn_clock (s : State) (i e : Nat) : (s.pauseOn i e).clock = s.clock := by simp [State.pauseOn]
@[simp] theorem State.pauseOff_clock (s : State) (e : Nat) : (s.pauseOff e).clock = s.clock := by simp [State.pauseOff]
@[simp] theorem State.congestion_clock (s : State) (n : Nat) : (s.congestion n).clock = s.clock := by simp [State.congestion]
@[simp] theorem State.enqueueEth_clock (s : State) (n : Nat) (f : OutFrame) : (s.enqueueEth n f).clock = s.clock := by simp [State.enqueueEth]

@[simp] theorem State.enqueueUntimed_clock (s : State) (n : Nat) (u : Untimed) : (s.enqueueUntimed n u).clock = s.clock := by
  simp [State.enqueueUntimed]

@[simp] theorem State.sendFrame_clock (s : State) (n : Nat) (l : List Byte) (stamp : optParam (Option (Nat × Nat × Nat)) none) :
    (s.sendFrame n l stamp).clock = s.clock := by simp [State.sendFrame]

@[simp] theorem State.sendGrove_clock (s : State) (type dst : Nat) (data : List Byte) : (s.sendGrove type dst data).clock = s.clock := by
  simp [State.sendGrove]

@[simp] theorem State.sendRing_clock (s : State) (port : Nat) (f : OutFrame) : (s.sendRing port f).clock = s.clock := by simp [State.sendRing]
@[simp] theorem State.moveRing_clock (s : State) (n : Nat) (f : OutFrame) : (s.moveRing n f).clock = s.clock := by simp [State.moveRing]
@[simp] theorem State.enqueueTimed_clock (s : State) (n : Nat) (f : OutFrame) : (s.enqueueTimed n f).clock = s.clock := by simp [State.enqueueTimed]

@[simp] theorem State.tcCorrect_clock (s : State) (e : Nat) (u : Untimed) : (s.tcCorrect e u).2.clock = s.clock := by
  unfold State.tcCorrect
  dsimp only
  repeat' split
  all_goals simp

@[simp] theorem State.markDue_clock (s : State) (n : Nat) (held : Bool) (own : Option Nat) : (s.markDue n held own).clock = s.clock := by
  simp [State.markDue]

@[simp] theorem State.timedBytes_clock (s : State) (f : OutFrame) : (s.timedBytes f).2.clock = s.clock := by
  unfold State.timedBytes
  split <;> simp

@[simp] theorem State.startTimed_clock (s : State) (n : Nat) (f : OutFrame) (rest : List OutFrame) : (s.startTimed n f rest).clock = s.clock := by
  simp [State.startTimed]

@[simp] theorem State.stampOut_clock (s : State) (n : Nat) (u : Untimed) : (s.stampOut n u).2.clock = s.clock := by
  unfold State.stampOut
  dsimp only
  repeat' split
  all_goals simp

@[simp] theorem State.startUntimed_clock (s : State) (n : Nat) (u : Untimed) (rest : List Untimed) : (s.startUntimed n u rest).clock = s.clock := by
  simp [State.startUntimed]

@[simp] theorem State.countDefer_clock (s : State) (n : Nat) : (s.countDefer n).clock = s.clock := by simp [State.countDefer]

@[simp] theorem State.tryUntimed_clock (s : State) (n : Nat) : (s.tryUntimed n).clock = s.clock := by
  unfold State.tryUntimed
  dsimp only
  repeat' split
  all_goals simp

@[simp] theorem State.chooseNext_clock (s : State) (n : Nat) : (s.chooseNext n).clock = s.clock := by
  unfold State.chooseNext
  split <;> simp

@[simp] theorem State.launchEth_clock (s : State) (n : Nat) : (s.launchEth n).clock = s.clock := by
  unfold State.launchEth
  split <;> simp

@[simp] theorem State.dropExpired_clock (s : State) (n : Nat) : (s.dropExpired n).clock = s.clock := by simp [State.dropExpired]

@[simp] theorem State.cutLeaves_clock (s : State) (n : Nat) (t : TxSt) : (s.cutLeaves n t).clock = s.clock := by
  unfold State.cutLeaves
  split <;> simp

@[simp] theorem State.stompEnds_clock (s : State) (n : Nat) (t : TxSt) : (s.stompEnds n t).clock = s.clock := by
  unfold State.stompEnds
  split <;> simp

@[simp] theorem State.txEnd_clock (s : State) (n : Nat) : (s.txEnd n).clock = s.clock := by
  unfold State.txEnd
  split <;> simp

@[simp] theorem State.pauseEnds_clock (s : State) (n : Nat) : (s.pauseEnds n).clock = s.clock := by simp [State.pauseEnds]
@[simp] theorem State.pauseAct_clock (s : State) (n time : Nat) : (s.pauseAct n time).clock = s.clock := by simp [State.pauseAct]
@[simp] theorem State.pauseExpire_clock (s : State) (n : Nat) : (s.pauseExpire n).clock = s.clock := by simp [State.pauseExpire]
@[simp] theorem State.pauseTrip_clock (s : State) (n : Nat) : (s.pauseTrip n).clock = s.clock := by simp [State.pauseTrip]

@[simp] theorem State.cutRest_clock (s : State) (n : Nat) (bad : Bool) : (s.cutRest n bad).clock = s.clock := by
  refine State.foldl_clock _ (fun u e => ?_) _ _
  dsimp only
  repeat' split
  all_goals simp

@[simp] theorem State.beginFallback_clock (s : State) (n : Nat) : (s.beginFallback n).clock = s.clock := by simp [State.beginFallback]
@[simp] theorem State.linkTo_clock (s : State) (n : Nat) (up : Bool) : (s.linkTo n up).clock = s.clock := by simp [State.linkTo]
@[simp] theorem State.linkApply_clock (s : State) (n : Nat) : (s.linkApply n).clock = s.clock := by simp [State.linkApply]
@[simp] theorem State.disableWrite_clock (s : State) (n : Nat) (off : Bool) : (s.disableWrite n off).clock = s.clock := by simp [State.disableWrite]
@[simp] theorem State.rearmWrite_clock (s : State) (n : Nat) : (s.rearmWrite n).clock = s.clock := by simp [State.rearmWrite]
@[simp] theorem State.swFlush_clock (s : State) : s.swFlush.clock = s.clock := by simp [State.swFlush]
@[simp] theorem State.learn_clock (s : State) (g a n : Nat) : (s.learn g a n).clock = s.clock := by simp [State.learn]
@[simp] theorem State.blockThreshold_clock (s : State) (n e : Nat) : (s.blockThreshold n e).clock = s.clock := by simp [State.blockThreshold]
@[simp] theorem State.forward_clock (s : State) (n : Nat) (f : EthFrame) (e : Nat) : (s.forward n f e).clock = s.clock := by simp [State.forward]
@[simp] theorem State.ringEnter_clock (s : State) (n : Nat) (f : EthFrame) : (s.ringEnter n f).clock = s.clock := by simp [State.ringEnter]

@[simp] theorem State.ringTake_clock (s : State) (n : Nat) : (s.ringTake n).clock = s.clock := by
  unfold State.ringTake
  dsimp only
  repeat' split
  all_goals simp

@[simp] theorem State.qbReadNext_clock (s : State) (k : Nat) : (s.qbReadNext k).clock = s.clock := by simp [State.qbReadNext]
@[simp] theorem State.switchFrame_clock (s : State) (n : Nat) (f : EthFrame) : (s.switchFrame n f).clock = s.clock := by simp [State.switchFrame]
@[simp] theorem State.fecCount_clock (s : State) (n : Nat) (f : EthFrame) : (s.fecCount n f).clock = s.clock := by simp [State.fecCount]
@[simp] theorem State.receive_clock (s : State) (n : Nat) (f : EthFrame) : (s.receive n f).clock = s.clock := by simp [State.receive]

@[simp] theorem State.cutStart_clock (s : State) (i e : Nat) (f : EthFrame) (got : Nat) : (s.cutStart i e f got).clock = s.clock := by
  simp [State.cutStart]

@[simp] theorem State.e131Send_clock (s : State) (rec : Nat) (p : List Byte) : (s.e131Send rec p).clock = s.clock := by simp [State.e131Send]
@[simp] theorem State.e131RepeatOp_clock (s : State) (univ : Nat) : (s.e131RepeatOp univ).clock = s.clock := by simp [State.e131RepeatOp]
@[simp] theorem State.e131Terminate_clock (s : State) : s.e131Terminate.clock = s.clock := by simp [State.e131Terminate]
@[simp] theorem State.backoff_clock (s : State) (n k : Nat) : (s.backoff n k).clock = s.clock := by simp [State.backoff]

@[simp] theorem State.unsend_clock (s : State) (n : Nat) (t : TxSt) (attempts : Nat) : (s.unsend n t attempts).clock = s.clock := by
  unfold State.unsend
  dsimp only
  repeat' split
  all_goals simp

@[simp] theorem State.t1sCollide_clock (s : State) (g bit : Nat) : (s.t1sCollide g bit).clock = s.clock := by
  unfold State.t1sCollide
  dsimp only
  repeat' split
  all_goals simp

@[simp] theorem State.t1sBackoffEnds_clock (s : State) (g : Nat) : (s.t1sBackoffEnds g).clock = s.clock := by simp [State.t1sBackoffEnds]
@[simp] theorem State.t1sCarrierFalls_clock (s : State) (g : Nat) : (s.t1sCarrierFalls g).clock = s.clock := by simp [State.t1sCarrierFalls]

/-! ### PTP -/

@[simp] theorem State.putPtp_clock (s : State) (i : Nat) (x : PtpSt) : (s.putPtp i x).clock = s.clock := by simp [State.putPtp]
@[simp] theorem State.setPtp_clock (s : State) (i v : Nat) : (s.setPtp i v).clock = s.clock := by simp [State.setPtp]
@[simp] theorem State.useGm_clock (s : State) (i : Nat) (a : PtpAnnounce) : (s.useGm i a).clock = s.clock := by simp [State.useGm]
@[simp] theorem State.ptpHoldover_clock (s : State) (i : Nat) : (s.ptpHoldover i).clock = s.clock := by simp [State.ptpHoldover]
@[simp] theorem State.masterLock_clock (s : State) (i : Nat) : (s.masterLock i).clock = s.clock := by simp [State.masterLock]
@[simp] theorem State.follow_clock (s : State) (i : Nat) (a : PtpAnnounce) : (s.follow i a).clock = s.clock := by simp [State.follow]
@[simp] theorem State.lead_clock (s : State) (i : Nat) : (s.lead i).clock = s.clock := by simp [State.lead]
@[simp] theorem State.standAside_clock (s : State) (i : Nat) (a : PtpAnnounce) : (s.standAside i a).clock = s.clock := by simp [State.standAside]

@[simp] theorem State.bmca_clock (s : State) (i : Nat) : (s.bmca i).clock = s.clock := by
  unfold State.bmca
  split <;> simp

@[simp] theorem State.announceIn_clock (s : State) (i : Nat) (a : PtpAnnounce) : (s.announceIn i a).clock = s.clock := by simp [State.announceIn]

@[simp] theorem State.announceLate_clock (s : State) (i : Nat) : (s.announceLate i).clock = s.clock := by
  unfold State.announceLate
  dsimp only
  repeat' split
  all_goals simp

@[simp] theorem State.syncLate_clock (s : State) (i : Nat) : (s.syncLate i).clock = s.clock := by simp [State.syncLate]

@[simp] theorem State.servo_clock (s : State) (i : Nat) (o t : Int) : (s.servo i o t).clock = s.clock := by
  unfold State.servo
  dsimp only
  repeat' split
  all_goals simp

@[simp] theorem State.syncSample_clock (s : State) (i : Nat) (t1 t2 c : Int) : (s.syncSample i t1 t2 c).clock = s.clock := by
  unfold State.syncSample
  dsimp only
  repeat' split
  all_goals simp

@[simp] theorem State.delaySample_clock (s : State) (i : Nat) (m : Int) : (s.delaySample i m).clock = s.clock := by simp [State.delaySample]
@[simp] theorem State.syncIn_clock (s : State) (i : Nat) (m : PtpEvent) (sub : Nat) : (s.syncIn i m sub).clock = s.clock := by simp [State.syncIn]

@[simp] theorem State.followIn_clock (s : State) (i : Nat) (m : PtpEvent) : (s.followIn i m).clock = s.clock := by
  unfold State.followIn
  split <;> simp

@[simp] theorem State.delayRespIn_clock (s : State) (i seq : Nat) (t4 corr : Int) : (s.delayRespIn i seq t4 corr).clock = s.clock := by
  unfold State.delayRespIn
  dsimp only
  repeat' split
  all_goals simp

@[simp] theorem State.ptpSend_clock (s : State) (i kind seq flags : Nat) (log : Int) (body : List Byte) (stamp : Bool) :
    (s.ptpSend i kind seq flags log body stamp).clock = s.clock := by simp [State.ptpSend]

@[simp] theorem State.pdelaySend_clock (s : State) (n kind seq : Nat) (body : List Byte) : (s.pdelaySend n kind seq body).clock = s.clock := by
  simp [State.pdelaySend]

@[simp] theorem State.pdelayIn_clock (s : State) (port : Nat) (request : Bool) (src seq : Nat) (m : Int) :
    (s.pdelayIn port request src seq m).clock = s.clock := by
  unfold State.pdelayIn
  dsimp only
  repeat' split
  all_goals simp

@[simp] theorem State.announceOut_clock (s : State) (i : Nat) : (s.announceOut i).clock = s.clock := by simp [State.announceOut]
@[simp] theorem State.syncOut_clock (s : State) (i : Nat) : (s.syncOut i).clock = s.clock := by simp [State.syncOut]
@[simp] theorem State.delayReqOut_clock (s : State) (i : Nat) : (s.delayReqOut i).clock = s.clock := by simp [State.delayReqOut]

@[simp] theorem State.delayRespOut_clock (s : State) (i src seq sub : Nat) : (s.delayRespOut i src seq sub).clock = s.clock := by
  simp [State.delayRespOut]

@[simp] theorem State.ptpEnable_clock (s : State) (i : Nat) (on : Bool) : (s.ptpEnable i on).clock = s.clock := by simp [State.ptpEnable]
@[simp] theorem State.ptpDiscard_clock (s : State) (i : Nat) : (s.ptpDiscard i).clock = s.clock := by simp [State.ptpDiscard]
@[simp] theorem State.refEvent_clock (s : State) : s.refEvent.clock = s.clock := by simp [State.refEvent]
@[simp] theorem State.setTime_clock (s : State) (i sec : Nat) : (s.setTime i sec).clock = s.clock := by simp [State.setTime]

@[simp] theorem State.ppsIn_clock (s : State) : s.ppsIn.clock = s.clock := by
  unfold State.ppsIn
  extract_lets gap near counted valid good
  have hcounted : counted.clock = s.clock := by simp [counted]
  split
  · exact hcounted
  · rw [State.foldl_clock _ (fun u i => ?_)]
    · simp [good, valid, hcounted]
    · dsimp only
      cases (u.ptp i).todAt <;> simp

@[simp] theorem State.ppsLose_clock (s : State) : s.ppsLose.clock = s.clock := by simp [State.ppsLose]
@[simp] theorem State.setTod_clock (s : State) (i : Nat) (atPps : Bool) : (s.setTod i atPps).clock = s.clock := by simp [State.setTod]
@[simp] theorem State.ppsOutEdge_clock (s : State) : s.ppsOutEdge.clock = s.clock := by simp [State.ppsOutEdge]
@[simp] theorem State.tenMLocks_clock (s : State) : s.tenMLocks.clock = s.clock := by simp [State.tenMLocks]
@[simp] theorem State.tenMLoses_clock (s : State) : s.tenMLoses.clock = s.clock := by simp [State.tenMLoses]

/-! ### The graft bridge -/

@[simp] theorem State.rdmAsk_clock (s : State) (n : Nat) (q : RdmReq) (dst cc pid : Nat) (pd : List Byte) :
    (s.rdmAsk n q dst cc pid pd).clock = s.clock := by simp [State.rdmAsk]

@[simp] theorem State.putGrafts_clock (s : State) (l : List GraftTx) : (s.putGrafts l).clock = s.clock := by simp [State.putGrafts]
@[simp] theorem State.putGraft_clock (s : State) (x : GraftTx) : (s.putGraft x).clock = s.clock := by simp [State.putGraft]

@[simp] theorem State.windfallEvent_clock (s : State) (w : Fetched) (outcome init : Nat) : (s.windfallEvent w outcome init).clock = s.clock := by
  simp [State.windfallEvent]

@[simp] theorem State.putWindfalls_clock (s : State) (l : List Fetched) : (s.putWindfalls l).clock = s.clock := by simp [State.putWindfalls]

@[simp] theorem State.windfallLost_clock (s : State) (w : Fetched) (outcome : Nat) : (s.windfallLost w outcome).clock = s.clock := by
  simp [State.windfallLost]

@[simp] theorem State.windfallIn_clock (s : State) (w : Fetched) : (s.windfallIn w).clock = s.clock := by
  unfold State.windfallIn
  split <;> simp

@[simp] theorem State.prefetchOut_clock (s : State) (e : Fetched) : (s.prefetchOut e).clock = s.clock := by simp [State.prefetchOut]
@[simp] theorem State.prefetchDrop_clock (s : State) (p : Fetched → Bool) : (s.prefetchDrop p).clock = s.clock := by simp [State.prefetchDrop]

@[simp] theorem State.prefetchIn_clock (s : State) (e : Fetched) : (s.prefetchIn e).clock = s.clock := by
  unfold State.prefetchIn
  dsimp only
  repeat' split
  all_goals simp

@[simp] theorem State.windfallAge_clock (s : State) : s.windfallAge.clock = s.clock := by simp [State.windfallAge]
@[simp] theorem State.prefetchAge_clock (s : State) : s.prefetchAge.clock = s.clock := by simp [State.prefetchAge]

@[simp] theorem State.graftFail_clock (s : State) (x : GraftTx) (code reason : Nat) : (s.graftFail x code reason).clock = s.clock := by
  simp [State.graftFail]

@[simp] theorem State.sendGraft_clock (s : State) (dst op status tag leaf offset length : Nat) (data : List Byte) :
    (s.sendGraft dst op status tag leaf offset length data).clock = s.clock := by simp [State.sendGraft]

@[simp] theorem State.graftDeliver_clock (s : State) (x : GraftTx) (code : Nat) (data : List Byte) (windfall : Bool) :
    (s.graftDeliver x code data windfall).clock = s.clock := by
  unfold State.graftDeliver
  dsimp only
  repeat' split
  all_goals simp

@[simp] theorem State.graftEnd_clock (s : State) (x : GraftTx) (code reason : Nat) (data : List Byte) (windfall : Bool) :
    (s.graftEnd x code reason data windfall).clock = s.clock := by simp [State.graftEnd]

@[simp] theorem State.graftSend_clock (s : State) (port leaf : Nat) (l : List Byte) : (s.graftSend port leaf l).clock = s.clock := by
  simp [State.graftSend]

@[simp] theorem State.graftHeld_clock (s : State) (x : GraftTx) : (s.graftHeld x).clock = s.clock := by simp [State.graftHeld]

@[simp] theorem State.graftIssued_clock (s : State) (x : GraftTx) : (s.graftIssued x).clock = s.clock := by
  unfold State.graftIssued
  split <;> simp

@[simp] theorem State.graftIssue_clock (s : State) (x : GraftTx) : (s.graftIssue x).clock = s.clock := by
  unfold State.graftIssue
  dsimp only
  repeat' split
  all_goals simp

@[simp] theorem State.graftPump_clock (n : Nat) (s : State) : (State.graftPump n s).clock = s.clock := by
  induction n generalizing s with
  | zero => rfl
  | succ n ih =>
    unfold State.graftPump
    split <;> simp [ih]

@[simp] theorem State.graftGo_clock (s : State) : s.graftGo.clock = s.clock := by simp [State.graftGo]

@[simp] theorem State.graftDone_clock (s : State) (x : GraftTx) (code reason : Nat) (data : List Byte) (windfall : Bool) :
    (s.graftDone x code reason data windfall).clock = s.clock := by simp [State.graftDone]

@[simp] theorem State.graftSubmit_clock (s : State) (x : GraftTx) : (s.graftSubmit x).clock = s.clock := by simp [State.graftSubmit]
@[simp] theorem State.sefWrong_clock (s : State) (leaf : Nat) : (s.sefWrong leaf).clock = s.clock := by simp [State.sefWrong]

@[simp] theorem State.graftRead_clock (s : State) (x : GraftTx) (data : List Byte) (effect : Bool) : (s.graftRead x data effect).clock = s.clock := by
  unfold State.graftRead
  split <;> simp

@[simp] theorem State.graftRdmEnd_clock (s : State) (tag code : Nat) (ack : Bool) (data : List Byte) :
    (s.graftRdmEnd tag code ack data).clock = s.clock := by
  unfold State.graftRdmEnd
  split <;> simp

@[simp] theorem State.graftWindow_clock (s : State) : s.graftWindow.clock = s.clock := by simp [State.graftWindow]

/-! ### DMX512 ports -/

@[simp] theorem State.putDmx_clock (s : State) (n : Nat) (d : DmxSt) : (s.putDmx n d).clock = s.clock := by simp [State.putDmx]
@[simp] theorem State.enqueueDmx_clock (s : State) (n : Nat) (f : OutFrame) : (s.enqueueDmx n f).clock = s.clock := by simp [State.enqueueDmx]
@[simp] theorem State.supersede_clock (s : State) (n k : Nat) : (s.supersede n k).clock = s.clock := by simp [State.supersede]

@[simp] theorem State.dmxPick_clock (s : State) (n : Nat) : (s.dmxPick n).2.clock = s.clock := by
  unfold State.dmxPick
  dsimp only
  repeat' split
  all_goals simp

@[simp] theorem State.discoveryEnd_clock (s : State) (n : Nat) : (s.discoveryEnd n).clock = s.clock := by simp [State.discoveryEnd]
@[simp] theorem State.discBranch_clock (s : State) (n lo hi : Nat) : (s.discBranch n lo hi).clock = s.clock := by simp [State.discBranch]

@[simp] theorem State.discoveryStep_clock (s : State) (n : Nat) (q : RdmReq) (collision : Bool) (data : Option (List Byte)) :
    (s.discoveryStep n q collision data).clock = s.clock := by
  unfold State.discoveryStep
  split <;> simp

@[simp] theorem State.discoveryStart_clock (s : State) (n : Nat) : (s.discoveryStart n).clock = s.clock := by simp [State.discoveryStart]

@[simp] theorem State.sendTunnel_clock (s : State) (dst tunnel dir brk mab port : Nat) (l : List Byte) :
    (s.sendTunnel dst tunnel dir brk mab port l).clock = s.clock := by simp [State.sendTunnel]

@[simp] theorem State.tunnelResponse_clock (s : State) (pos tunnel : Nat) (l : List Byte) : (s.tunnelResponse pos tunnel l).clock = s.clock := by
  simp [State.tunnelResponse]

@[simp] theorem State.rdmEnd_clock (s : State) (n : Nat) (q : RdmReq) (code : Nat) (ack : Bool) (data : List Byte) :
    (s.rdmEnd n q code ack data).clock = s.clock := by
  unfold State.rdmEnd
  split <;> simp

@[simp] theorem State.rdmAbandon_clock (s : State) (n : Nat) : (s.rdmAbandon n).clock = s.clock := by
  unfold State.rdmAbandon
  split <;> simp

@[simp] theorem State.dmxBegin_clock (s : State) (n : Nat) (f : OutFrame) : (s.dmxBegin n f).clock = s.clock := by simp [State.dmxBegin]

@[simp] theorem State.dmxStart_clock (s : State) (n : Nat) : (s.dmxStart n).clock = s.clock := by
  unfold State.dmxStart
  dsimp only
  repeat' split
  all_goals simp

@[simp] theorem State.dmxEnd_clock (s : State) (n : Nat) : (s.dmxEnd n).clock = s.clock := by simp [State.dmxEnd]
@[simp] theorem State.dmxRepeatOp_clock (s : State) (n : Nat) : (s.dmxRepeatOp n).clock = s.clock := by simp [State.dmxRepeatOp]

@[simp] theorem State.rdmStart_clock (s : State) (n : Nat) : (s.rdmStart n).clock = s.clock := by
  unfold State.rdmStart
  dsimp only
  repeat' split
  all_goals simp

@[simp] theorem State.rdmSilent_clock (s : State) (n : Nat) : (s.rdmSilent n).clock = s.clock := by
  unfold State.rdmSilent
  dsimp only
  repeat' split
  all_goals simp

@[simp] theorem State.rdmAnswer_clock (s : State) (n : Nat) (ok ack : Bool) (data : List Byte) : (s.rdmAnswer n ok ack data).clock = s.clock := by
  unfold State.rdmAnswer
  dsimp only
  repeat' split
  all_goals simp

@[simp] theorem State.rdmTimeout_clock (s : State) (n : Nat) : (s.rdmTimeout n).clock = s.clock := by
  unfold State.rdmTimeout
  split <;> simp

@[simp] theorem State.rdmNone_clock (s : State) (n : Nat) : (s.rdmNone n).clock = s.clock := by
  unfold State.rdmNone
  dsimp only
  repeat' split
  all_goals simp

@[simp] theorem State.tunnelBad_clock (s : State) : s.tunnelBad.clock = s.clock := by simp [State.tunnelBad]

@[simp] theorem State.tunnelDeliver_clock (s : State) (n pos tunnel brk mab : Nat) (l : List Byte) :
    (s.tunnelDeliver n pos tunnel brk mab l).clock = s.clock := by simp [State.tunnelDeliver]

@[simp] theorem State.tunnelCarry_clock (s : State) (t brk mab : Nat) (l : List Byte) : (s.tunnelCarry t brk mab l).clock = s.clock := by
  unfold State.tunnelCarry
  dsimp only
  repeat' split
  all_goals simp

@[simp] theorem State.dmxIn_clock (s : State) (n : Nat) (sc : Byte) (slots : List Byte) (ok : Bool) (brk mab : Nat) :
    (s.dmxIn n sc slots ok brk mab).clock = s.clock := by
  unfold State.dmxIn
  dsimp only
  repeat' split
  all_goals simp

@[simp] theorem State.tunnelIn_clock (s : State) (pos tunnel : Nat) (response : Bool) (brk mab : Nat) (l : List Byte) (port : Nat) :
    (s.tunnelIn pos tunnel response brk mab l port).clock = s.clock := by simp [State.tunnelIn]

@[simp] theorem State.tunnelSend_clock (s : State) (n : Nat) : (s.tunnelSend n).clock = s.clock := by
  unfold State.tunnelSend
  dsimp only
  repeat' split
  all_goals simp

@[simp] theorem State.tunnelCheck_clock (s : State) (t : Nat) : (s.tunnelCheck t).clock = s.clock := by simp [State.tunnelCheck]

/-! ### Sap lines -/

@[simp] theorem State.putSap_clock (s : State) (n : Nat) (d : SapSt) : (s.putSap n d).clock = s.clock := by simp [State.putSap]
@[simp] theorem State.putNode_clock (s : State) (n node : Nat) (r : List Byte) : (s.putNode n node r).clock = s.clock := by simp [State.putNode]
@[simp] theorem State.sapCheck_clock (s : State) (n : Nat) (ok : Bool) : (s.sapCheck n ok).clock = s.clock := by simp [State.sapCheck]
@[simp] theorem State.sapSend_clock (s : State) (n cmd : Nat) (w : List Byte) : (s.sapSend n cmd w).clock = s.clock := by simp [State.sapSend]
@[simp] theorem State.dropBurst_clock (s : State) (n : Nat) (f : OutFrame) : (s.dropBurst n f).clock = s.clock := by simp [State.dropBurst]

@[simp] theorem State.sapEmit_clock (s : State) (n : Nat) (b : SapBurst) (start : Int) (f : OutFrame) : (s.sapEmit n b start f).clock = s.clock := by
  simp [State.sapEmit]

@[simp] theorem State.sapFlow_clock (fuel : Nat) (s : State) (n : Nat) (late : Bool) : (State.sapFlow fuel s n late).clock = s.clock := by
  induction fuel generalizing s with
  | zero => rfl
  | succ fuel ih =>
    unfold State.sapFlow
    dsimp only
    repeat' split
    all_goals simp [ih]

@[simp] theorem State.enqueueSap_clock (s : State) (n : Nat) (f : OutFrame) : (s.enqueueSap n f).clock = s.clock := by
  unfold State.enqueueSap
  dsimp only
  repeat' split
  all_goals simp

@[simp] theorem State.sapBegin_clock (s : State) (n : Nat) (f : OutFrame) (from_ : Option Int) : (s.sapBegin n f from_).clock = s.clock := by
  simp [State.sapBegin]

@[simp] theorem State.sapAbandon_clock (s : State) (n : Nat) (b : SapBurst) (now : Int) : (s.sapAbandon n b now).2.clock = s.clock := by
  simp [State.sapAbandon]

@[simp] theorem State.sapLate_clock (s : State) (n : Nat) : (s.sapLate n).clock = s.clock := by simp [State.sapLate]

@[simp] theorem State.sapStart_clock (s : State) (n : Nat) : (s.sapStart n).clock = s.clock := by
  unfold State.sapStart
  dsimp only
  repeat' split
  all_goals simp

@[simp] theorem State.sapEnd_clock (s : State) (n : Nat) : (s.sapEnd n).clock = s.clock := by
  unfold State.sapEnd
  dsimp only
  repeat' split
  all_goals simp

@[simp] theorem State.sapPollOp_clock (s : State) (n : Nat) (ident : Bool) : (s.sapPollOp n ident).clock = s.clock := by
  unfold State.sapPollOp
  split <;> simp

@[simp] theorem State.sapChanged_clock (s : State) (n : Nat) : (s.sapChanged n).clock = s.clock := by simp [State.sapChanged]
@[simp] theorem State.sapMissing_clock (s : State) (n node : Nat) (on : Bool) : (s.sapMissing n node on).clock = s.clock := by simp [State.sapMissing]

@[simp] theorem State.sapStatusReply_clock (s : State) (n node : Nat) (p : List Byte) : (s.sapStatusReply n node p).clock = s.clock := by
  simp [State.sapStatusReply]

@[simp] theorem State.sapIdentReply_clock (s : State) (n node : Nat) (p : List Byte) : (s.sapIdentReply n node p).clock = s.clock := by
  simp [State.sapIdentReply]

@[simp] theorem State.sapReplyOp_clock (s : State) (n : Nat) (f : List Byte) : (s.sapReplyOp n f).clock = s.clock := by
  unfold State.sapReplyOp
  dsimp only
  repeat' split
  all_goals simp

@[simp] theorem State.sapWindowEnd_clock (s : State) (n : Nat) : (s.sapWindowEnd n).clock = s.clock := by
  unfold State.sapWindowEnd
  split <;> simp

@[simp] theorem State.sapHoldWrite_clock (s : State) (n : Nat) (on : Bool) : (s.sapHoldWrite n on).clock = s.clock := by simp [State.sapHoldWrite]

end Sys2Proof.Machine
end

section
/-! PROOFS. FREE, and what the operations of memory, the crown, rasters, interrupts, schedulers, guest cores, the twin trunks, check
units, the leaves' work, the alarm and the grove leave of it, one lemma an operation. -/

namespace Sys2Proof.Machine

/-! ### Memory -/

@[simp] theorem State.memWrite_clock (s : State) (a : Nat) (l : List Byte) : (s.memWrite a l).clock = s.clock := by simp [State.memWrite]
@[simp] theorem State.memClear_clock (s : State) (a n : Nat) : (s.memClear a n).clock = s.clock := by simp [State.memClear]
@[simp] theorem State.memCopy_clock (s : State) (src dst n : Nat) : (s.memCopy src dst n).clock = s.clock := by simp [State.memCopy]
@[simp] theorem State.putTrunk_clock (s : State) (t : Trunk) (x : TrunkSt) : (s.putTrunk t x).clock = s.clock := by simp [State.putTrunk]

/-! ### The crown of a trunk -/

@[simp] theorem State.putLayer_clock (s : State) (t : Trunk) (n : Nat) (x : LayerSt) : (s.putLayer t n x).clock = s.clock := by simp [State.putLayer]
@[simp] theorem State.commitWrite_clock (s : State) (t : Trunk) (mask : Nat) : (s.commitWrite t mask).clock = s.clock := by simp [State.commitWrite]
@[simp] theorem State.pendCommit_clock (s : State) (t : Trunk) (mask : Nat) : (s.pendCommit t mask).clock = s.clock := by simp [State.pendCommit]
@[simp] theorem State.layerCommit_clock (s : State) (t : Trunk) (n : Nat) : (s.layerCommit t n).clock = s.clock := by simp [State.layerCommit]
@[simp] theorem State.commitDone_clock (s : State) (t : Trunk) : (s.commitDone t).clock = s.clock := by simp [State.commitDone]
@[simp] theorem State.layerReadyOp_clock (s : State) (t : Trunk) (n : Nat) : (s.layerReadyOp t n).clock = s.clock := by simp [State.layerReadyOp]
@[simp] theorem State.layerActivate_clock (s : State) (t : Trunk) (n : Nat) : (s.layerActivate t n).clock = s.clock := by simp [State.layerActivate]
@[simp] theorem State.layerCap_clock (s : State) (t : Trunk) (n : Nat) : (s.layerCap t n).clock = s.clock := by simp [State.layerCap]

@[simp] theorem State.canvasActivate_clock (s : State) (t : Trunk) (c : Nat) : (s.canvasActivate t c).clock = s.clock := by
  simp [State.canvasActivate]

@[simp] theorem State.layerRelease_clock (s : State) (t : Trunk) (n : Nat) : (s.layerRelease t n).clock = s.clock := by simp [State.layerRelease]
@[simp] theorem State.layerLate_clock (s : State) (t : Trunk) (n : Nat) : (s.layerLate t n).clock = s.clock := by simp [State.layerLate]
@[simp] theorem State.layerEff_clock (s : State) (t : Trunk) (c : Nat) : (s.layerEff t c).clock = s.clock := by simp [State.layerEff]
@[simp] theorem State.seedLayer_clock (s : State) (t : Trunk) (n : Nat) : (s.seedLayer t n).clock = s.clock := by simp [State.seedLayer]
@[simp] theorem State.seedCanvas_clock (s : State) (t : Trunk) (c : Nat) : (s.seedCanvas t c).clock = s.clock := by simp [State.seedCanvas]

@[simp] theorem State.seedCanvases_clock (s : State) (t : Trunk) (p : Nat → Bool) : (s.seedCanvases t p).clock = s.clock := by
  simp [State.seedCanvases]

@[simp] theorem State.seedPool_clock (s : State) (t : Trunk) : (s.seedPool t).clock = s.clock := by simp [State.seedPool]

@[simp] theorem State.canvasCompose_clock (s : State) (t : Trunk) (c k pos : Nat) : (s.canvasCompose t c k pos).clock = s.clock := by
  simp [State.canvasCompose]

@[simp] theorem State.frameDone_clock (s : State) (t : Trunk) (c : Nat) (failed bad : List Nat) : (s.frameDone t c failed bad).clock = s.clock := by
  unfold State.frameDone
  split <;> simp

theorem State.freeBuffer_clock {s v : State} {t : Trunk} {c : Nat} (hs : s.freeBuffer t c = some v) : v.clock = s.clock := by
  unfold State.freeBuffer at hs
  dsimp only at hs
  split at hs
  · cases hs; rfl
  · split at hs
    · cases hs; simp
    · contradiction

@[simp] theorem State.canvasEpoch_clock (s : State) (t : Trunk) (c k pos : Nat) (thin : Bool) : (s.canvasEpoch t c k pos thin).clock = s.clock := by
  unfold State.canvasEpoch
  dsimp only
  split
  · simp
  · split
    · simp
    case h_2 v hv => simp [State.freeBuffer_clock hv]

@[simp] theorem State.inputFrame_clock (s : State) (rec w h : Nat) (f : InputForm) (whole : Bool) (data : List Nat) :
    (s.inputFrame rec w h f whole data).clock = s.clock := by simp [State.inputFrame]

/-! ### Raster outputs -/

@[simp] theorem State.putRast_clock (s : State) (t : Trunk) (g : Nat) (x : RastSt) : (s.putRast t g x).clock = s.clock := by simp [State.putRast]
@[simp] theorem State.putRastOut_clock (s : State) (k : Nat) (x : RasterOut) : (s.putRastOut k x).clock = s.clock := by simp [State.putRastOut]

@[simp] theorem State.onRast_clock (s : State) (t : Trunk) (f : Trunk → State → State) (hf : ∀ k u, (f k u).clock = u.clock) :
    (s.onRast t f).clock = s.clock := by simp [State.onRast, hf]

@[simp] theorem State.rastEvent_clock (s : State) (t : Trunk) (g i : Nat) : (s.rastEvent t g i).clock = s.clock := by simp [State.rastEvent]
@[simp] theorem State.rastCount_clock (s : State) (t : Trunk) (g : Nat) : (s.rastCount t g).clock = s.clock := by simp [State.rastCount]
@[simp] theorem State.rastFresh_clock (s : State) (t : Trunk) (g : Nat) : (s.rastFresh t g).clock = s.clock := by simp [State.rastFresh]
@[simp] theorem State.rastTake_clock (s : State) (t : Trunk) (g : Nat) : (s.rastTake t g).clock = s.clock := by simp [State.rastTake]

@[simp] theorem State.rastCommitWrite_clock (s : State) (t : Trunk) (g : Nat) : (s.rastCommitWrite t g).clock = s.clock := by
  simp [State.rastCommitWrite]

@[simp] theorem State.flip_clock (s : State) (t : Trunk) (g : Nat) (l : Option Nat) : (s.flip t g l).clock = s.clock := by
  unfold State.flip
  split <;> simp

@[simp] theorem State.rastRecad_clock (s : State) (t : Trunk) (g : Nat) (next : Option (Nat × Nat)) : (s.rastRecad t g next).clock = s.clock := by
  simp [State.rastRecad]

@[simp] theorem State.latchTake_clock (s : State) (t : Trunk) (g : Nat) (f : RastFrame) (tag : Nat) : (s.latchTake t g f tag).clock = s.clock := by
  simp [State.latchTake]

@[simp] theorem State.rastCommitDone_clock (s : State) (t : Trunk) (g : Nat) : (s.rastCommitDone t g).clock = s.clock := by
  unfold State.rastCommitDone
  dsimp only
  repeat' split
  all_goals simp

@[simp] theorem State.handOver_clock (s : State) (t : Trunk) (u : CUnit) : (s.handOver t u).clock = s.clock := by simp [State.handOver]

@[simp] theorem State.rastBegin_clock (s : State) (t : Trunk) (g : Nat) (n : RastFrame × RastSt) : (s.rastBegin t g n).clock = s.clock := by
  simp [State.rastBegin]

@[simp] theorem State.rastMark_clock (s : State) (t : Trunk) (g : Nat) (f : RastFrame) (j : Nat) : (s.rastMark t g f j).clock = s.clock := by
  simp [State.rastMark]

@[simp] theorem State.rastLatch_clock (s : State) (t : Trunk) (g : Nat) (f : RastFrame) : (s.rastLatch t g f).clock = s.clock := by
  simp [State.rastLatch]

@[simp] theorem State.rastScan_clock (s : State) (t : Trunk) (g : Nat) (f : RastFrame) (bad : List Nat) : (s.rastScan t g f bad).clock = s.clock := by
  simp [State.rastScan]

@[simp] theorem State.rastRead_clock (s : State) (t : Trunk) (g : Nat) (bad : List Nat) : (s.rastRead t g bad).clock = s.clock := by
  unfold State.rastRead
  dsimp only
  repeat' split
  all_goals simp

@[simp] theorem State.enqueueLine_clock (s : State) (k n j : Nat) (data : List Byte) : (s.enqueueLine k n j data).clock = s.clock := by
  simp [State.enqueueLine]

@[simp] theorem State.freezeCheck_clock (s : State) (t : Trunk) (g pad src : Nat) : (s.freezeCheck t g pad src).clock = s.clock := by
  simp [State.freezeCheck]

@[simp] theorem State.sendSdi_clock (s : State) (t : Trunk) (g : Nat) (f : RastFrame) (j : Nat) (active black : Bool) (codes : List Nat) :
    (s.sendSdi t g f j active black codes).clock = s.clock := by simp [State.sendSdi]

@[simp] theorem State.sendIp_clock (s : State) (t : Trunk) (g : Nat) (f : RastFrame) (j : Nat) (black : Bool) (codes : List Nat) :
    (s.sendIp t g f j black codes).clock = s.clock := by simp [State.sendIp]

@[simp] theorem State.rastPad_clock (s : State) (t : Trunk) (g : Nat) (tap : Option (List (BitVec 16))) : (s.rastPad t g tap).clock = s.clock := by
  unfold State.rastPad
  dsimp only
  repeat' split
  all_goals simp

@[simp] theorem State.rastEpoch_clock (s : State) (t : Trunk) (g k : Nat) : (s.rastEpoch t g k).clock = s.clock := by simp [State.rastEpoch]

/-! ### What leaves the compare stage -/

@[simp] theorem State.letOut_clock (s : State) (t : Trunk) (u : CUnit) : (s.letOut t u).clock = s.clock := by simp [State.letOut]

theorem State.withdraw_clock {s v : State} {t : Trunk} {u : CUnit} (hs : s.withdraw t u = some v) : v.clock = s.clock := by
  unfold State.withdraw at hs
  dsimp only at hs
  repeat' split at hs
  all_goals cases hs
  all_goals simp

@[simp] theorem State.launchRec_clock (s : State) (rec : Nat) : (s.launchRec rec).clock = s.clock := by
  unfold State.launchRec
  dsimp only
  repeat' split
  all_goals simp

@[simp] theorem State.expireRec_clock (s : State) (rec : Nat) : (s.expireRec rec).clock = s.clock := by
  unfold State.expireRec
  dsimp only
  repeat' split
  all_goals simp

/-! ### Interrupt controllers -/

@[simp] theorem State.setPend_clock (s : State) (t : Trunk) (i : Nat) (b : Bool) : (s.setPend t i b).clock = s.clock := by simp [State.setPend]
@[simp] theorem State.putIcu_clock (s : State) (t : Trunk) (x : IcuSt) : (s.putIcu t x).clock = s.clock := by simp [State.putIcu]
@[simp] theorem State.claimGive_clock (s : State) (t : Trunk) (c w : Nat) : (s.claimGive t c w).clock = s.clock := by simp [State.claimGive]
@[simp] theorem State.claimTake_clock (s : State) (t : Trunk) (c i : Nat) : (s.claimTake t c i).clock = s.clock := by simp [State.claimTake]

@[simp] theorem State.claim_clock (s : State) (t : Trunk) (c : Nat) : (s.claim t c).clock = s.clock := by
  unfold State.claim
  dsimp only
  repeat' split
  all_goals simp

@[simp] theorem State.atOnce_clock (s : State) (t : Trunk) (i : Nat) : (s.atOnce t i).clock = s.clock := by simp [State.atOnce]
@[simp] theorem State.completeSrc_clock (s : State) (t : Trunk) (c i : Nat) : (s.completeSrc t c i).clock = s.clock := by simp [State.completeSrc]

@[simp] theorem State.srcEdge_clock (s : State) (t : Trunk) (i : Nat) (level : Bool) : (s.srcEdge t i level).clock = s.clock := by
  simp [State.srcEdge]

@[simp] theorem State.maskApply_clock (s : State) (t : Trunk) (set : Bool) (w : Nat) (v : Word) : (s.maskApply t set w v).clock = s.clock := by
  simp [State.maskApply]

@[simp] theorem State.maskWrite_clock (s : State) (t : Trunk) (set : Bool) (writer : Option (Fin 8)) (w : Nat) (v : Word) :
    (s.maskWrite t set writer w v).clock = s.clock := by simp [State.maskWrite]

@[simp] theorem State.pendSetWrite_clock (s : State) (t : Trunk) (writer : Option (Fin 8)) (w : Nat) (v : Word) :
    (s.pendSetWrite t writer w v).clock = s.clock := by simp [State.pendSetWrite]

@[simp] theorem State.pendClrWrite_clock (s : State) (t : Trunk) (writer : Option (Fin 8)) (w : Nat) (v : Word) :
    (s.pendClrWrite t writer w v).clock = s.clock := by simp [State.pendClrWrite]

@[simp] theorem State.routeWrite_clock (s : State) (t : Trunk) (writer : Option (Fin 8)) (k : Nat) (v : Word) :
    (s.routeWrite t writer k v).clock = s.clock := by simp [State.routeWrite]

@[simp] theorem State.modExpire_clock (s : State) (t : Trunk) (c g : Nat) : (s.modExpire t c g).clock = s.clock := by
  unfold State.modExpire
  dsimp only
  repeat' split
  all_goals simp

@[simp] theorem State.icuCapture_clock (s : State) (t : Trunk) : (s.icuCapture t).clock = s.clock := by simp [State.icuCapture]

/-! ### Schedulers -/

@[simp] theorem State.putSched_clock (s : State) (t : Trunk) (x : SchedSt) : (s.putSched t x).clock = s.clock := by simp [State.putSched]

@[simp] theorem State.post_clock (s : State) (t : Trunk) (slot flag : Nat) (again : Bool) : (s.post t slot flag again).clock = s.clock := by
  simp [State.post]

@[simp] theorem State.unhold_clock (s : State) (t : Trunk) : (s.unhold t).clock = s.clock := by simp [State.unhold]
@[simp] theorem State.dispatch_clock (s : State) (t : Trunk) : (s.dispatch t).clock = s.clock := by simp [State.dispatch]

@[simp] theorem State.complete_clock (s : State) (t : Trunk) (slot : Nat) (free : Bool) : (s.complete t slot free).clock = s.clock := by
  simp [State.complete]

@[simp] theorem State.age_clock (s : State) (t : Trunk) (slot : Nat) : (s.age t slot).clock = s.clock := by simp [State.age]
@[simp] theorem State.schedEpoch_clock (s : State) (t : Trunk) : (s.schedEpoch t).clock = s.clock := by simp [State.schedEpoch]

/-! ### Guest cores -/

@[simp] theorem State.putGuest_clock (s : State) (t : Trunk) (c : Nat) (g : GuestSt) : (s.putGuest t c g).clock = s.clock := by simp [State.putGuest]

@[simp] theorem State.setGuestState_clock (s : State) (t : Trunk) (c v : Nat) : (s.setGuestState t c v).clock = s.clock := by
  simp [State.setGuestState]

@[simp] theorem State.guestWfi_clock (s : State) (t : Trunk) (c : Nat) : (s.guestWfi t c).clock = s.clock := by simp [State.guestWfi]

@[simp] theorem State.guestFault_clock (s : State) (t : Trunk) (c addr : Nat) (write : Bool) : (s.guestFault t c addr write).clock = s.clock := by
  simp [State.guestFault]

@[simp] theorem State.guestPost_clock (s : State) (t : Trunk) (c off : Nat) (v : Word) : (s.guestPost t c off v).clock = s.clock := by
  simp [State.guestPost]

@[simp] theorem State.gcmpReach_clock (s : State) (t : Trunk) (core : Nat) (gcmp : BitVec 64) : (s.gcmpReach t core gcmp).clock = s.clock := by
  simp [State.gcmpReach]

@[simp] theorem State.guestAct_clock (s : State) (t : Trunk) (c : Nat) (f : GuestSt → GuestSt) : (s.guestAct t c f).clock = s.clock := by
  simp [State.guestAct]

@[simp] theorem State.guestBell_clock (s : State) (t : Trunk) (c : Nat) : (s.guestBell t c).clock = s.clock := by simp [State.guestBell]

@[simp] theorem State.guestSend_clock (s : State) (t : Trunk) (c addr len port : Nat) : (s.guestSend t c addr len port).clock = s.clock := by
  simp [State.guestSend]

@[simp] theorem State.guestLoad_clock (s : State) (t : Trunk) (c : Nat) : (s.guestLoad t c).clock = s.clock := by
  unfold State.guestLoad
  split <;> simp

@[simp] theorem State.unitSeq_clock (s : State) (t : Trunk) (code : Nat) : (s.unitSeq t code).2.clock = s.clock := by simp [State.unitSeq]
@[simp] theorem State.guestFrame_clock (s : State) (t : Trunk) (c : Nat) : (s.guestFrame t c).clock = s.clock := by simp [State.guestFrame]

/-! ### Twin trunks -/

@[simp] theorem State.setTrunkState_clock (s : State) (t : Trunk) (v : Nat) : (s.setTrunkState t v).clock = s.clock := by
  unfold State.setTrunkState
  split <;> simp

@[simp] theorem State.refresh_clock (s : State) : s.refresh.clock = s.clock := by simp [State.refresh]
@[simp] theorem State.mirrorInto_clock (s : State) (t : Trunk) : (s.mirrorInto t).clock = s.clock := by simp [State.mirrorInto]
@[simp] theorem State.noWork_clock (s : State) (t : Trunk) : (s.noWork t).clock = s.clock := by simp [State.noWork]
@[simp] theorem State.heldSince_clock (s : State) (at_ : Nat) : (s.heldSince at_).clock = s.clock := by simp [State.heldSince]

@[simp] theorem State.compareAbandon_clock (s : State) (t : Trunk) : (s.compareAbandon t).clock = s.clock := by
  unfold State.compareAbandon
  dsimp only
  rw [State.foldl_clock _ (fun u x => by split <;> simp), State.foldl_clock _ (fun u x => ?arb), State.foldl_clock _ (fun u x => ?waiting)]
  · simp
  case arb => split <;> simp
  case waiting => simp

@[simp] theorem State.passRole_clock (s : State) (t : Trunk) : (s.passRole t).clock = s.clock := by simp [State.passRole]
@[simp] theorem State.resyncFails_clock (s : State) (t : Trunk) : (s.resyncFails t).clock = s.clock := by simp [State.resyncFails]
@[simp] theorem State.countFailover_clock (s : State) : s.countFailover.clock = s.clock := by simp [State.countFailover]
@[simp] theorem State.keptSettle_clock (s : State) : s.keptSettle.clock = s.clock := by simp [State.keptSettle]
@[simp] theorem State.clearWork_clock (s : State) (t : Trunk) : (s.clearWork t).clock = s.clock := by simp [State.clearWork]
@[simp] theorem State.leave_clock (s : State) (t : Trunk) (cause : Nat) : (s.leave t cause).clock = s.clock := by simp [State.leave]
@[simp] theorem State.yieldOn_clock (s : State) (t : Trunk) (cause : Nat) : (s.yieldOn t cause).clock = s.clock := by simp [State.yieldOn]
@[simp] theorem State.startResync_clock (s : State) (t : Trunk) : (s.startResync t).clock = s.clock := by simp [State.startResync]
@[simp] theorem State.diverge_clock (s : State) (t : Trunk) (unit : List Byte) : (s.diverge t unit).clock = s.clock := by simp [State.diverge]

@[simp] theorem State.mismatch_clock (s : State) (h : HeldCopy) (second : Option CUnit) : (s.mismatch h second).clock = s.clock := by
  unfold State.mismatch
  extract_lets noted port seq twin missing wd etc first u busy
  have hmissing : missing.clock = s.clock := by cases second <;> simp [missing, twin, seq, port, noted]
  have hwd : wd.2.clock = s.clock := by
    unfold wd
    split
    · exact hmissing
    · split
      case h_1 v hv => exact (State.withdraw_clock hv).trans hmissing
      · exact hmissing
  simp [busy, etc, hwd]

@[simp] theorem State.compareIn_clock (s : State) (t : Trunk) (u : CUnit) : (s.compareIn t u).clock = s.clock := by
  unfold State.compareIn
  split <;> simp

@[simp] theorem State.unitArrives_clock (s : State) (t : Trunk) : (s.unitArrives t).clock = s.clock := by
  unfold State.unitArrives
  split <;> simp

@[simp] theorem State.windowExpires_clock (s : State) : s.windowExpires.clock = s.clock := by simp [State.windowExpires]

@[simp] theorem State.settleUnit_clock (s : State) (u : ArbUnit) : (s.settleUnit u).clock = s.clock := by
  unfold State.settleUnit
  dsimp only
  repeat' split
  all_goals simp

@[simp] theorem State.etcRelease_clock (s : State) : s.etcRelease.clock = s.clock := by simp [State.etcRelease]

@[simp] theorem State.roundEnds_clock (s : State) : s.roundEnds.clock = s.clock := by
  unfold State.roundEnds
  dsimp only
  repeat' split
  all_goals simp

@[simp] theorem State.settle_clock (s : State) : s.settle.clock = s.clock := by simp [State.settle]

@[simp] theorem State.vote_clock (s : State) (t : Trunk) (code seq : Nat) (crc : BitVec 64) : (s.vote t code seq crc).clock = s.clock := by
  simp [State.vote]

@[simp] theorem State.votesLate_clock (s : State) : s.votesLate.clock = s.clock := by simp [State.votesLate]
@[simp] theorem State.replay_clock (s : State) (t : Trunk) (up : Bool) (lane : Nat) : (s.replay t up lane).clock = s.clock := by simp [State.replay]
@[simp] theorem State.readyCheck_clock (s : State) (t : Trunk) : (s.readyCheck t).clock = s.clock := by simp [State.readyCheck]
@[simp] theorem State.testDone_clock (s : State) (t : Trunk) (pass : Bool) : (s.testDone t pass).clock = s.clock := by simp [State.testDone]
@[simp] theorem State.testRetry_clock (s : State) (t : Trunk) : (s.testRetry t).clock = s.clock := by simp [State.testRetry]
@[simp] theorem State.bulkDone_clock (s : State) : s.bulkDone.clock = s.clock := by simp [State.bulkDone]

@[simp] theorem State.bulkLate_clock (s : State) : s.bulkLate.clock = s.clock := by
  unfold State.bulkLate
  split <;> simp

@[simp] theorem State.parkOne_clock (s : State) (t : Trunk) (cause : Nat) : (s.parkOne t cause).clock = s.clock := by simp [State.parkOne]
@[simp] theorem State.freshKeep_clock (s : State) (o half : Trunk) : (s.freshKeep o half).clock = s.clock := by simp [State.freshKeep]
@[simp] theorem State.adoptCanvases_clock (s : State) (o half : Trunk) : (s.adoptCanvases o half).clock = s.clock := by simp [State.adoptCanvases]
@[simp] theorem State.adoptHalves_clock (s : State) : s.adoptHalves.clock = s.clock := by simp [State.adoptHalves]
@[simp] theorem State.failback_clock (s : State) (t : Trunk) : (s.failback t).clock = s.clock := by simp [State.failback]

@[simp] theorem State.holdoffEpoch_clock (s : State) : s.holdoffEpoch.clock = s.clock := by
  unfold State.holdoffEpoch
  split <;> simp

@[simp] theorem State.pairCounts_clock (s : State) (t : Trunk) : (s.pairCounts t).clock = s.clock := by simp [State.pairCounts]

@[simp] theorem State.cutover_clock (s : State) : s.cutover.clock = s.clock := by
  unfold State.cutover
  split <;> simp

@[simp] theorem State.comeUp_clock (s : State) : s.comeUp.clock = s.clock := by
  unfold State.comeUp
  dsimp only
  repeat' split
  all_goals simp

@[simp] theorem State.swapRoles_clock (s : State) : s.swapRoles.clock = s.clock := by simp [State.swapRoles]
@[simp] theorem State.twinEpoch_clock (s : State) : s.twinEpoch.clock = s.clock := by simp [State.twinEpoch]
@[simp] theorem State.rejoin_clock (s : State) (t : Trunk) : (s.rejoin t).clock = s.clock := by simp [State.rejoin]
@[simp] theorem State.swapWrite_clock (s : State) : s.swapWrite.clock = s.clock := by simp [State.swapWrite]
@[simp] theorem State.parkWrite_clock (s : State) (t : Trunk) : (s.parkWrite t).clock = s.clock := by simp [State.parkWrite]

/-! ### Check-value engines and ECC errors -/

@[simp] theorem State.putChk_clock (s : State) (e : Option Trunk) (n : Nat) (x : ChkSt) : (s.putChk e n x).clock = s.clock := by simp [State.putChk]

@[simp] theorem State.chkFlag_clock (s : State) (e : Option Trunk) (n bit : Nat) (v : Bool) : (s.chkFlag e n bit v).clock = s.clock := by
  simp [State.chkFlag]

@[simp] theorem State.chkPut64_clock (s : State) (e : Option Trunk) (n off v : Nat) : (s.chkPut64 e n off v).clock = s.clock := by
  simp [State.chkPut64]

@[simp] theorem State.chkAbsorb_clock (s : State) (e : Option Trunk) (n : Nat) (l : List Byte) (data : Bool) :
    (s.chkAbsorb e n l data).clock = s.clock := by simp [State.chkAbsorb]

@[simp] theorem State.chkStartOp_clock (s : State) (e : Option Trunk) (n : Nat) : (s.chkStartOp e n).clock = s.clock := by simp [State.chkStartOp]

@[simp] theorem State.chkDataOp_clock (s : State) (e : Option Trunk) (n : Nat) (v : Word) : (s.chkDataOp e n v).clock = s.clock := by
  simp [State.chkDataOp]

@[simp] theorem State.chkFinishOp_clock (s : State) (e : Option Trunk) (n : Nat) : (s.chkFinishOp e n).clock = s.clock := by
  unfold State.chkFinishOp
  dsimp only
  repeat' split
  all_goals simp

@[simp] theorem State.chkStateOp_clock (s : State) (e : Option Trunk) (n : Nat) (hi : Bool) (v : Word) : (s.chkStateOp e n hi v).clock = s.clock := by
  simp [State.chkStateOp]

@[simp] theorem State.eccCapture_clock (s : State) (e : Option Trunk) (x : EccRead) (bit : Option Nat) (scrub : Bool) :
    (s.eccCapture e x bit scrub).clock = s.clock := by simp [State.eccCapture]

@[simp] theorem State.eccCorrected_clock (s : State) (e : Option Trunk) (x : EccRead) (bit : Nat) (scrub : Bool) :
    (s.eccCorrected e x bit scrub).clock = s.clock := by simp [State.eccCorrected]

@[simp] theorem State.eccEvent_clock (s : State) (e : Option Trunk) (m : Nat) : (s.eccEvent e m).clock = s.clock := by simp [State.eccEvent]

@[simp] theorem State.eccUncorrEvent_clock (s : State) (e : Option Trunk) (x : EccRead) (scrub : Bool) (outcome : Nat) :
    (s.eccUncorrEvent e x scrub outcome).clock = s.clock := by simp [State.eccUncorrEvent]

@[simp] theorem State.eccLine_clock (s : State) (t : Trunk) (x : EccRead) : (s.eccLine t x).clock = s.clock := by simp [State.eccLine]
@[simp] theorem State.failItem_clock (s : State) (t : Trunk) (i : Nat) : (s.failItem t i).clock = s.clock := by simp [State.failItem]
@[simp] theorem State.tmrEvent_clock (s : State) (block : BitVec 12) : (s.tmrEvent block).clock = s.clock := by simp [State.tmrEvent]

@[simp] theorem State.dropItem_clock (s : State) (i : State.RootItem) : (s.dropItem i).clock = s.clock := by
  unfold State.dropItem
  dsimp only
  repeat' split
  all_goals simp

@[simp] theorem State.eccTrunk_clock (s : State) (t : Trunk) (x : EccRead) (scrub : Bool) (work : State → State) (hf : ∀ u,
    (work u).clock = u.clock) :
    (s.eccTrunk t x scrub work).clock = s.clock := by simp [State.eccTrunk, hf]

@[simp] theorem State.eccUncorr_clock (s : State) (e : Option Trunk) (x : EccRead) (scrub : Bool) (item : Option Nat) :
    (s.eccUncorr e x scrub item).clock = s.clock := by
  unfold State.eccUncorr
  cases e with
  | none => dsimp only; split <;> simp
  | some t =>
    refine (State.eccTrunk_clock _ t x scrub _ (fun u => ?_)).trans (by simp)
    cases item with
    | some i => simp
    | none => dsimp only; split <;> simp

@[simp] theorem State.scrubRead_clock (s : State) (e : Option Trunk) (word : Option EccRead) : (s.scrubRead e word).clock = s.clock := by
  unfold State.scrubRead
  dsimp only
  repeat' split
  all_goals simp

/-! ### The pack stage -/

@[simp] theorem State.keepCodes_clock (s : State) (t : Trunk) (e : PortJob) : (s.keepCodes t e).clock = s.clock := by simp [State.keepCodes]

@[simp] theorem State.handAll_clock (s : State) (t : Trunk) (e : PortJob) (safety : Bool) (l : List Packed) :
    (s.handAll t e safety l).clock = s.clock := by simp [State.handAll]

@[simp] theorem State.keepEpoch_clock (s : State) (t : Trunk) (e : PortJob) (safety : Bool) (n : Nat) :
    (s.keepEpoch t e safety n).clock = s.clock := by simp [State.keepEpoch]

@[simp] theorem State.probeAfter_clock (s : State) (t : Trunk) (rec : Nat) (waits skipped : Bool) :
    (s.probeAfter t rec waits skipped).clock = s.clock := by simp [State.probeAfter]

@[simp] theorem State.packPort_clock (s : State) (t : Trunk) (e : PortJob) (safety : Bool) : (s.packPort t e safety).clock = s.clock := by
  simp [State.packPort]

/-! ### The work on the leaves -/

@[simp] theorem State.packDone_clock (fuel : Nat) (s : State) (t : Trunk) : (State.packDone fuel s t).clock = s.clock := by
  induction fuel generalizing s with
  | zero => rfl
  | succ fuel ih =>
    unfold State.packDone
    dsimp only
    split <;> simp [ih]

@[simp] theorem State.portEpoch_clock (s : State) (t : Trunk) (rec k pos : Nat) : (s.portEpoch t rec k pos).clock = s.clock := by
  simp [State.portEpoch]

@[simp] theorem State.quantPixel_clock (s : State) (t : Trunk) (j : Job) (v w : Nat) (der : Int) (d : List Int) :
    (s.quantPixel t j v w der d).2.clock = s.clock := by simp [State.quantPixel, State.foldl_snd_clock]

@[simp] theorem State.leafView_clock (s : State) (t : Trunk) (e : PortJob) (j : Job) (v : Nat) (der : Int) (f : CanvasFrame) :
    (s.leafView t e j v der f).2.clock = s.clock := by simp [State.leafView, State.foldl_snd_clock]

@[simp] theorem State.runJob_clock (s : State) (t : Trunk) (e : PortJob) (j : Job) (fs : List (Option CanvasFrame)) :
    (s.runJob t e j fs).2.clock = s.clock := by
  unfold State.runJob
  dsimp only
  rw [State.foldl_snd_clock _ (fun a v => by split <;> simp)]
  simp

@[simp] theorem State.putCodes_clock (s : State) (t : Trunk) (e : PortJob) (j : Job) (j' : Job) : (s.putCodes t e j j').clock = s.clock := by
  simp [State.putCodes]

@[simp] theorem State.leafDone_clock (s : State) (t : Trunk) (i : Nat) (rerun : Bool) : (s.leafDone t i rerun).clock = s.clock := by
  unfold State.leafDone
  dsimp only
  repeat' split
  all_goals simp

@[simp] theorem State.burstDone_clock (s : State) (t : Trunk) (rec : Nat) : (s.burstDone t rec).clock = s.clock := by
  unfold State.burstDone
  split <;> simp

@[simp] theorem State.residueCapture_clock (s : State) (t : Trunk) (c : LaneCheck) : (s.residueCapture t c).clock = s.clock := by
  simp [State.residueCapture]

@[simp] theorem State.residueReport_clock (s : State) (t : Trunk) (c : LaneCheck) : (s.residueReport t c).clock = s.clock := by
  simp [State.residueReport]

@[simp] theorem State.residueFails_clock (s : State) (t : Trunk) (i : Nat) (c : LaneCheck) : (s.residueFails t i c).clock = s.clock := by
  simp [State.residueFails]

@[simp] theorem State.laneChecked_clock (s : State) (t : Trunk) (i : Nat) (c : LaneCheck) : (s.laneChecked t i c).clock = s.clock := by
  simp [State.laneChecked]

@[simp] theorem State.eccDemand_clock (s : State) (t : Trunk) (i : Nat) (x : EccRead) : (s.eccDemand t i x).clock = s.clock := by
  unfold State.eccDemand
  split <;> simp

@[simp] theorem State.rerunDone_clock (s : State) (t : Trunk) (i : Nat) (c : Option LaneCheck) : (s.rerunDone t i c).clock = s.clock := by
  unfold State.rerunDone
  repeat' split
  all_goals simp

@[simp] theorem State.doWork_clock (s : State) (t : Trunk) (w : Work) : (s.doWork t w).clock = s.clock := by
  unfold State.doWork
  split <;> simp

@[simp] theorem State.taskDone_clock (s : State) (t : Trunk) (slot : Nat) (free : Bool) (w : Work) : (s.taskDone t slot free w).clock = s.clock := by
  simp [State.taskDone]

@[simp] theorem State.diagCodeTo_clock (s : State) (i c code : Nat) : (s.diagCodeTo i c code).clock = s.clock := by simp [State.diagCodeTo]

@[simp] theorem State.lcReturn_clock (s : State) (f : List Byte) : (s.lcReturn f).clock = s.clock := by
  unfold State.lcReturn
  dsimp only
  repeat' split
  all_goals simp

/-! ### What the crown reads for a frame -/

@[simp] theorem State.hwReport_clock (s : State) (t : Trunk) (b : Nat) (p : Nat × Nat × Nat) (inForce : Bool) :
    (s.hwReport t b p inForce).clock = s.clock := by simp [State.hwReport]

@[simp] theorem State.hwBlockFails_clock (s : State) (t : Trunk) (b : Nat) (p : Nat × Nat × Nat) : (s.hwBlockFails t b p).clock = s.clock := by
  simp [State.hwBlockFails]

@[simp] theorem State.hwScrub_clock (s : State) (t : Trunk) (r : HwRead) : (s.hwScrub t r).clock = s.clock := by
  unfold State.hwScrub
  split <;> simp

@[simp] theorem State.hwReads_clock (s : State) (t : Trunk) (c which : Nat) (l : List HwRead) : (s.hwReads t c which l).1.clock = s.clock := by
  refine State.foldl_fst_clock _ (fun a r => ?_) _ _
  split
  · rfl
  · split <;> simp

@[simp] theorem State.fetchWord_clock (s : State) (t : Trunk) (n : Nat) (x : EccRead) : (s.fetchWord t n x).1.clock = s.clock := by
  unfold State.fetchWord
  split <;> simp

@[simp] theorem State.canvasComplete_clock (s : State) (t : Trunk) (c : Nat) (words : List (Fin 32 × EccRead)) (blocks : List HwRead) :
    (s.canvasComplete t c words blocks).clock = s.clock := by
  unfold State.canvasComplete
  split
  · rfl
  · simp [State.foldl_fst_clock]

@[simp] theorem State.rastReadLine_clock (s : State) (t : Trunk) (g : Nat) (blocks : List HwRead) : (s.rastReadLine t g blocks).clock = s.clock := by
  simp [State.rastReadLine]

/-! ### The alarm -/

@[simp] theorem State.hwAccept_clock (s : State) (o : List Byte) : (s.hwAccept o).clock = s.clock := by simp [State.hwAccept]
@[simp] theorem State.hwTake_clock (s : State) (h : StemHdr) (o : List Byte) : (s.hwTake h o).clock = s.clock := by simp [State.hwTake]
@[simp] theorem State.purge_clock (s : State) : s.purge.clock = s.clock := by simp [State.purge]
@[simp] theorem State.alarmForce_clock (s : State) : s.alarmForce.clock = s.clock := by simp [State.alarmForce]
@[simp] theorem State.alarmRelease_clock (s : State) : s.alarmRelease.clock = s.clock := by simp [State.alarmRelease]
@[simp] theorem State.releaseWrite_clock (s : State) : s.releaseWrite.clock = s.clock := by simp [State.releaseWrite]
@[simp] theorem State.loopEvent_clock (s : State) (what : Nat) : (s.loopEvent what).clock = s.clock := by simp [State.loopEvent]
@[simp] theorem State.evaluate_clock (s : State) (a b : Nat) : (s.evaluate a b).clock = s.clock := by simp [State.evaluate]
@[simp] theorem State.acceptLoop_clock (s : State) (f : Field) (c : Nat) : (s.acceptLoop f c).clock = s.clock := by simp [State.acceptLoop]
@[simp] theorem State.loopSample_clock (s : State) (ohmsA ohmsB : Nat) : (s.loopSample ohmsA ohmsB).clock = s.clock := by simp [State.loopSample]
@[simp] theorem State.safetyPack_clock (s : State) (t : Trunk) : (s.safetyPack t).clock = s.clock := by simp [State.safetyPack]
@[simp] theorem State.rootPackRec_clock (s : State) (p rec : Nat) : (s.rootPackRec p rec).clock = s.clock := by simp [State.rootPackRec]

@[simp] theorem State.rootPack_clock (s : State) : s.rootPack.clock = s.clock := by
  unfold State.rootPack
  split
  · rfl
  · simp only [State.clock_mk, clock_self]
    exact State.foldl_clock _ (fun u p => by split <;> simp) _ _

/-! ### Grove pairs -/

@[simp] theorem State.groveIn_clock (s : State) (h : GroveHdr) (type : Nat) (f : State → State) (hf : ∀ u, (f u).clock = u.clock) :
    (s.groveIn h type f).clock = s.clock := by simp [State.groveIn, hf]

@[simp] theorem State.takeRecord_clock (s : State) (rec : Nat) : (s.takeRecord rec).clock = s.clock := by
  unfold State.takeRecord
  dsimp only
  repeat' split
  all_goals simp

@[simp] theorem State.takeover_clock (s : State) : s.takeover.clock = s.clock := by simp [State.takeover]
@[simp] theorem State.losePartner_clock (s : State) : s.losePartner.clock = s.clock := by simp [State.losePartner]
@[simp] theorem State.heartbeatOut_clock (s : State) : s.heartbeatOut.clock = s.clock := by simp [State.heartbeatOut]

@[simp] theorem State.heartbeatIn_clock (s : State) (h : GroveHdr) (serving takeover : Bool) (seedId : Nat) :
    (s.heartbeatIn h serving takeover seedId).clock = s.clock := by simp [State.heartbeatIn]

@[simp] theorem State.heartbeatLate_clock (s : State) : s.heartbeatLate.clock = s.clock := by simp [State.heartbeatLate]
@[simp] theorem State.takeoverMsg_clock (s : State) (action k : Nat) : (s.takeoverMsg action k).clock = s.clock := by simp [State.takeoverMsg]
@[simp] theorem State.returnSend_clock (s : State) : s.returnSend.clock = s.clock := by simp [State.returnSend]

@[simp] theorem State.takeoverIn_clock (s : State) (h : GroveHdr) (accept : Bool) (k : Nat) : (s.takeoverIn h accept k).clock = s.clock := by
  simp [State.takeoverIn]

@[simp] theorem State.groveEpoch_clock (s : State) : s.groveEpoch.clock = s.clock := by
  unfold State.groveEpoch
  dsimp only
  repeat' split
  all_goals simp

@[simp] theorem State.ringQueue_clock (s : State) (port len launch : Nat) (data : List Byte) :
    (s.ringQueue port len launch data).clock = s.clock := by simp [State.ringQueue]

@[simp] theorem State.ringIn_clock (s : State) (src port part len launch : Nat) (data : List Byte) :
    (s.ringIn src port part len launch data).clock = s.clock := by
  unfold State.ringIn
  dsimp only
  repeat' split
  all_goals simp

@[simp] theorem State.ringLate_clock (s : State) : s.ringLate.clock = s.clock := by simp [State.ringLate]

/-! ### Plain register accesses -/

@[simp] theorem State.plainWrite_clock (s : State) (a v : Nat) : (s.plainWrite a v).clock = s.clock := by
  unfold State.plainWrite
  split <;> simp

@[simp] theorem State.plainRead_clock (s : State) (a : Nat) : (s.plainRead a).2.clock = s.clock := by
  unfold State.plainRead
  split <;> simp

end Sys2Proof.Machine
end

section
/-! PROOFS. FREE, and what the operations of epochs, seeds, the ring record, settings, images, bring-up, temperatures, tests and accesses
from outside leave of it, one lemma an operation. A reset has none: it may clear FREE. -/

namespace Sys2Proof.Machine

/-! ### The tree epoch and the epochs of outputs -/

@[simp] theorem State.passPoint_clock (s : State) (key c k : Nat) : (s.passPoint key c k).clock = s.clock := by simp [State.passPoint]
@[simp] theorem State.fitOne_clock (s : State) (n : Nat) : (s.fitOne n).clock = s.clock := by simp [State.fitOne]
@[simp] theorem State.dmxCapture_clock (s : State) : s.dmxCapture.clock = s.clock := by simp [State.dmxCapture]
@[simp] theorem State.takeCapture_clock (s : State) : s.takeCapture.clock = s.clock := by simp [State.takeCapture]
@[simp] theorem State.moveSpare_clock (s : State) : s.moveSpare.clock = s.clock := by simp [State.moveSpare]
@[simp] theorem State.shedDecision_clock (s : State) : s.shedDecision.clock = s.clock := by simp [State.shedDecision]

@[simp] theorem State.chooseCamera_clock (s : State) (t : Trunk) (g : Nat) : (s.chooseCamera t g).clock = s.clock := by
  unfold State.chooseCamera
  split <;> simp

@[simp] theorem State.rasterSet_clock (s : State) (t : Trunk) : (s.rasterSet t).clock = s.clock := by simp [State.rasterSet]
@[simp] theorem State.crownWrite_clock (s : State) (t : Trunk) (off v : Nat) : (s.crownWrite t off v).clock = s.clock := by simp [State.crownWrite]
@[simp] theorem State.rastWrite_clock (s : State) (t : Trunk) (off v : Nat) : (s.rastWrite t off v).clock = s.clock := by simp [State.rastWrite]
@[simp] theorem State.sendWrite_clock (s : State) (t : Trunk) (c off v : Nat) : (s.sendWrite t c off v).clock = s.clock := by simp [State.sendWrite]
@[simp] theorem State.keepOld_clock (s : State) (t : Trunk) (off : Nat) : (s.keepOld t off).clock = s.clock := by simp [State.keepOld]

@[simp] theorem State.applyPosted_clock (s : State) (t : Trunk) (c off v : Nat) : (s.applyPosted t c off v).clock = s.clock := by
  simp [State.applyPosted]

@[simp] theorem State.applyAll_clock (s : State) (t : Trunk) (c : Nat) : (s.applyAll t c).clock = s.clock := by simp [State.applyAll]
@[simp] theorem State.overrun_clock (s : State) (t : Trunk) (c : Nat) : (s.overrun t c).clock = s.clock := by simp [State.overrun]
@[simp] theorem State.deliver_clock (s : State) (t : Trunk) (c : Nat) : (s.deliver t c).clock = s.clock := by simp [State.deliver]
@[simp] theorem State.guestTurn_clock (s : State) (t : Trunk) (c : Nat) : (s.guestTurn t c).clock = s.clock := by simp [State.guestTurn]
@[simp] theorem State.guestEpoch_clock (s : State) : s.guestEpoch.clock = s.clock := by simp [State.guestEpoch]
@[simp] theorem State.mirrorIdle_clock (s : State) : s.mirrorIdle.clock = s.clock := by simp [State.mirrorIdle]

@[simp] theorem State.treeEpoch_clock (s : State) : s.treeEpoch.clock = s.clock := by
  unfold State.treeEpoch
  dsimp only
  repeat' split
  all_goals simp

@[simp] theorem State.epochOf_clock (s : State) (e : EpochOf) : (s.epochOf e).clock = s.clock := by
  unfold State.epochOf
  dsimp only
  repeat' split
  all_goals simp

/-! ### Seed activation -/

@[simp] theorem State.dropRegs_clock (s : State) (p : Nat → Bool) : (s.dropRegs p).clock = s.clock := by simp [State.dropRegs]
@[simp] theorem State.settleUnits_clock (s : State) : s.settleUnits.clock = s.clock := by simp [State.settleUnits]
@[simp] theorem State.keepFrames_clock (s : State) (old : State) : (s.keepFrames old).clock = s.clock := by simp [State.keepFrames]
@[simp] theorem State.seedModes_clock (s : State) (d : Seed) : (s.seedModes d).clock = s.clock := by simp [State.seedModes]
@[simp] theorem State.bindAxis_clock (s : State) (n : Nat) : (s.bindAxis n).clock = s.clock := by simp [State.bindAxis]

@[simp] theorem State.startCadences_clock (s : State) (at_ : Option (Nat × Nat)) : (s.startCadences at_).clock = s.clock := by
  unfold State.startCadences
  split <;> simp

@[simp] theorem State.setQb_clock (s : State) (k depth : Nat) (wide : Bool) (thr stale : Nat) : (s.setQb k depth wide thr stale).clock = s.clock := by
  simp [State.setQb]

@[simp] theorem State.portBlocks_clock (s : State) (n : Nat) : (s.portBlocks n).clock = s.clock := by simp [State.portBlocks]

@[simp] theorem State.seedPorts_clock (s : State) : s.seedPorts.clock = s.clock := by
  unfold State.seedPorts
  extract_lets emptied ports dmx saps joined tunnels
  have hports : ports.clock = s.clock := (State.foldl_clock _ (fun u n => by dsimp only; split <;> simp) _ _).trans (by simp [emptied])
  have hdmx : dmx.clock = ports.clock := State.foldl_clock _ (fun u n => by split <;> simp) _ _
  have hsaps : saps.clock = dmx.clock := State.foldl_clock _ (fun u n => by split <;> simp) _ _
  have htunnels : tunnels.clock = saps.clock := (State.foldl_clock _ (fun u n => by simp) _ _).trans (by simp [joined])
  simp [htunnels, hsaps, hdmx, hports]

@[simp] theorem State.seedRaster_clock (s : State) (t : Trunk) (g : Nat) (r : List Byte) : (s.seedRaster t g r).clock = s.clock := by
  simp [State.seedRaster]

@[simp] theorem State.seedGuest_clock (s : State) (t : Trunk) (c : Nat) : (s.seedGuest t c).clock = s.clock := by simp [State.seedGuest]
@[simp] theorem State.seedTrunkRegs_clock (s : State) (t : Trunk) : (s.seedTrunkRegs t).clock = s.clock := by simp [State.seedTrunkRegs]

@[simp] theorem State.seedRasters_clock (s : State) (t : Trunk) : (s.seedRasters t).clock = s.clock := by
  refine State.foldl_clock _ (fun u g => ?_) _ _
  split <;> simp

@[simp] theorem State.seedPictures_clock (s : State) (t : Trunk) : (s.seedPictures t).clock = s.clock := by simp [State.seedPictures]
@[simp] theorem State.seedBlocks_clock (s : State) (t : Trunk) : (s.seedBlocks t).clock = s.clock := by simp [State.seedBlocks]
@[simp] theorem State.seedTrunk_clock (s : State) (t : Trunk) : (s.seedTrunk t).clock = s.clock := by simp [State.seedTrunk]
@[simp] theorem State.seedTwin_clock (s : State) : s.seedTwin.clock = s.clock := by simp [State.seedTwin]
@[simp] theorem State.seedGrove_clock (s : State) : s.seedGrove.clock = s.clock := by simp [State.seedGrove]

@[simp] theorem State.activateSeed_clock (s : State) (d : Seed) (at_ : Option (Nat × Nat)) : (s.activateSeed d at_).clock = s.clock := by
  simp [State.activateSeed]

/-! ### The ring record -/

@[simp] theorem State.openSlot_clock (s : State) (k t : Nat) : (s.openSlot k t).clock = s.clock := by simp [State.openSlot]
@[simp] theorem State.freezeOpen_clock (s : State) : s.freezeOpen.clock = s.clock := by simp [State.freezeOpen]

@[simp] theorem State.recordNext_clock (s : State) : s.recordNext.clock = s.clock := by
  unfold State.recordNext
  dsimp only
  repeat' split
  all_goals simp

@[simp] theorem State.recFreeze_clock (s : State) : s.recFreeze.clock = s.clock := by simp [State.recFreeze]
@[simp] theorem State.recThaw_clock (s : State) (k : Nat) : (s.recThaw k).clock = s.clock := by simp [State.recThaw]

/-! ### Settings -/

@[simp] theorem State.useSettings_clock (s : State) : s.useSettings.clock = s.clock := by
  unfold State.useSettings
  dsimp only
  repeat' split
  all_goals simp

@[simp] theorem State.writeGen_clock (s : State) (state : Nat) (body : List Byte) : (s.writeGen state body).clock = s.clock := by
  simp [State.writeGen]

@[simp] theorem State.writeSettings_clock (s : State) (body : List Byte) : (s.writeSettings body).clock = s.clock := by simp [State.writeSettings]

@[simp] theorem State.shadowLive_clock (s : State) (key : Option (List Byte)) : (s.shadowLive key).clock = s.clock := by
  unfold State.shadowLive
  dsimp only
  repeat' split
  all_goals simp

@[simp] theorem State.shadowDrop_clock (s : State) : s.shadowDrop.clock = s.clock := by simp [State.shadowDrop]

@[simp] theorem State.loadImage_clock (s : State) (addrs : List Nat) (v : List Byte) : (s.loadImage addrs v).clock = s.clock :=
  State.foldl_clock _ (fun u x => by split <;> simp) _ _

@[simp] theorem State.loadRecord_clock (s : State) (r : Nat × Bool × List Byte) : (s.loadRecord r).clock = s.clock := by
  unfold State.loadRecord
  split <;> simp

@[simp] theorem State.loadSettings_clock (s : State) (cold : Bool) : (s.loadSettings cold).clock = s.clock := by simp [State.loadSettings]
@[simp] theorem State.lifeRefresh_clock (s : State) : s.lifeRefresh.clock = s.clock := by simp [State.lifeRefresh]

/-! ### The image store -/

@[simp] theorem State.setDigest_clock (s : State) (base : Nat) (d : List Byte) : (s.setDigest base d).clock = s.clock := by simp [State.setDigest]
@[simp] theorem State.updRegs_clock (s : State) : s.updRegs.clock = s.clock := by simp [State.updRegs]
@[simp] theorem State.putSlots_clock (s : State) (cls : Nat) (x : ImgSlots) : (s.putSlots cls x).clock = s.clock := by simp [State.putSlots]
@[simp] theorem State.putArmed_clock (s : State) (cls : Nat) (a : Armed) : (s.putArmed cls a).clock = s.clock := by simp [State.putArmed]
@[simp] theorem State.disarm_clock (s : State) (cls : Nat) : (s.disarm cls).clock = s.clock := by simp [State.disarm]

@[simp] theorem State.seedRefused_clock (s : State) (img : List Byte) (f : Nat × Nat × Nat) : (s.seedRefused img f).clock = s.clock := by
  simp [State.seedRefused]

@[simp] theorem State.stageImage_clock (s : State) (h : StemHdr) (cls : Nat) (img : List Byte) : (s.stageImage h cls img).clock = s.clock := by
  simp [State.stageImage]

@[simp] theorem State.stageTake_clock (s : State) (h : StemHdr) (cls : Nat) (img : List Byte) : (s.stageTake h cls img).clock = s.clock := by
  unfold State.stageTake
  dsimp only
  repeat' split
  all_goals simp

@[simp] theorem State.sendUpd_clock (s : State) (dst op cls code : Nat) (a : Armed) : (s.sendUpd dst op cls code a).clock = s.clock := by
  simp [State.sendUpd]

@[simp] theorem State.answerAct_clock (s : State) (a : Armed) (code : Nat) : (s.answerAct a code).clock = s.clock := by
  unfold State.answerAct
  split <;> simp

@[simp] theorem State.checkGo_clock (s : State) (cls : Nat) : (s.checkGo cls).clock = s.clock := by
  unfold State.checkGo
  split <;> simp

@[simp] theorem State.acknowledge_clock (s : State) (cls : Nat) : (s.acknowledge cls).clock = s.clock := by
  unfold State.acknowledge
  split <;> simp

@[simp] theorem State.writeNow_clock (s : State) (cls : Nat) : (s.writeNow cls).clock = s.clock := by simp [State.writeNow]

@[simp] theorem State.activateCmd_clock (s : State) (h : StemHdr) (cls axis pos : Nat) (digest : List Byte) :
    (s.activateCmd h cls axis pos digest).clock = s.clock := by simp [State.activateCmd]

@[simp] theorem State.prepared_clock (s : State) (cls : Nat) : (s.prepared cls).clock = s.clock := by
  unfold State.prepared
  split <;> simp

@[simp] theorem State.actFails_clock (s : State) (cls code : Nat) : (s.actFails cls code).clock = s.clock := by
  unfold State.actFails
  split <;> simp

@[simp] theorem State.switchSlots_clock (s : State) (cls : Nat) (fallback : Bool) : (s.switchSlots cls fallback).clock = s.clock := by
  simp [State.switchSlots]

@[simp] theorem State.seedIn_clock (s : State) (d : Seed) (at_ : Option (Nat × Nat)) : (s.seedIn d at_).clock = s.clock := by simp [State.seedIn]
@[simp] theorem State.switchSeed_clock (s : State) (a : Armed) : (s.switchSeed a).clock = s.clock := by simp [State.switchSeed]
@[simp] theorem State.switchFirmware_clock (s : State) (a : Armed) : (s.switchFirmware a).clock = s.clock := by simp [State.switchFirmware]

@[simp] theorem State.imageActivation_clock (s : State) (cls : Nat) : (s.imageActivation cls).clock = s.clock := by
  unfold State.imageActivation
  split <;> simp

@[simp] theorem State.storeSafety_clock (s : State) (img : List Byte) : (s.storeSafety img).clock = s.clock := by simp [State.storeSafety]
@[simp] theorem State.confirm_clock (s : State) (cls : Nat) : (s.confirm cls).clock = s.clock := by simp [State.confirm]
@[simp] theorem State.reportHealth_clock (s : State) : s.reportHealth.clock = s.clock := by simp [State.reportHealth]
@[simp] theorem State.imageConfirmation_clock (s : State) (cls : Nat) : (s.imageConfirmation cls).clock = s.clock := by simp [State.imageConfirmation]

@[simp] theorem State.confirmCmd_clock (s : State) (h : StemHdr) (cls : Nat) (digest : List Byte) : (s.confirmCmd h cls digest).clock = s.clock := by
  simp [State.confirmCmd]

@[simp] theorem State.fallbackEffects_clock (s : State) (cls : Nat) : (s.fallbackEffects cls).clock = s.clock := by simp [State.fallbackEffects]

@[simp] theorem State.armFallback_clock (s : State) (cls axis pos : Nat) (go : Bool) : (s.armFallback cls axis pos go).clock = s.clock := by
  simp [State.armFallback]

@[simp] theorem State.imageFallback_clock (s : State) (cls : Nat) : (s.imageFallback cls).clock = s.clock := by
  unfold State.imageFallback
  dsimp only
  repeat' split
  all_goals simp

@[simp] theorem State.fallbackAlone_clock (s : State) (cls : Nat) : (s.fallbackAlone cls).clock = s.clock := by simp [State.fallbackAlone]
@[simp] theorem State.settingsCheck_clock (s : State) : s.settingsCheck.clock = s.clock := by simp [State.settingsCheck]

@[simp] theorem State.startShow_clock (s : State) : s.startShow.clock = s.clock := by
  unfold State.startShow
  dsimp only
  repeat' split
  all_goals simp

@[simp] theorem State.reloadTrunks_clock (s : State) : s.reloadTrunks.clock = s.clock := by
  unfold State.reloadTrunks
  dsimp only
  repeat' split
  all_goals simp

@[simp] theorem State.firmwareRestart_clock (s : State) : s.firmwareRestart.clock = s.clock := by simp [State.firmwareRestart]

@[simp] theorem State.discardCmd_clock (s : State) (h : StemHdr) (cls : Nat) : (s.discardCmd h cls).clock = s.clock := by
  unfold State.discardCmd
  dsimp only
  repeat' split
  all_goals simp

@[simp] theorem State.updActivate_clock (s : State) (h : GroveHdr) (m : UpdMsg) : (s.updActivate h m).clock = s.clock := by simp [State.updActivate]

@[simp] theorem State.updAck_clock (s : State) (h : GroveHdr) (refuse : Bool) (m : UpdMsg) : (s.updAck h refuse m).clock = s.clock := by
  unfold State.updAck
  repeat' split
  all_goals simp

@[simp] theorem State.updGo_clock (s : State) (h : GroveHdr) (cancel : Bool) (m : UpdMsg) : (s.updGo h cancel m).clock = s.clock := by
  unfold State.updGo
  repeat' split
  all_goals simp

@[simp] theorem State.goDeadline_clock (s : State) (cls : Nat) : (s.goDeadline cls).clock = s.clock := by
  unfold State.goDeadline
  split <;> simp

@[simp] theorem State.noGo_clock (s : State) (cls : Nat) : (s.noGo cls).clock = s.clock := by
  unfold State.noGo
  split <;> simp

@[simp] theorem State.updHealth_clock (s : State) (h : GroveHdr) (m : UpdMsg) : (s.updHealth h m).clock = s.clock := by simp [State.updHealth]
@[simp] theorem State.updConfirm_clock (s : State) (h : GroveHdr) (m : UpdMsg) : (s.updConfirm h m).clock = s.clock := by simp [State.updConfirm]

/-! ### Power and bring-up -/

@[simp] theorem State.faultPad_clock (s : State) : s.faultPad.clock = s.clock := by simp [State.faultPad]
@[simp] theorem State.freshNonce_clock (s : State) : s.freshNonce.clock = s.clock := by simp [State.freshNonce]
@[simp] theorem State.calFuses_clock (s : State) : s.calFuses.clock = s.clock := by simp [State.calFuses]
@[simp] theorem State.bootLoader_clock (s : State) : s.bootLoader.clock = s.clock := by simp [State.bootLoader]
@[simp] theorem State.bootSeed_clock (s : State) : s.bootSeed.clock = s.clock := by simp [State.bootSeed]

@[simp] theorem State.safetySeedEvent_clock (s : State) (f : Nat × Nat × Nat) (repaired : Bool) : (s.safetySeedEvent f repaired).clock = s.clock := by
  simp [State.safetySeedEvent]

@[simp] theorem State.safetySeedCheck_clock (s : State) : s.safetySeedCheck.clock = s.clock := by
  unfold State.safetySeedCheck
  dsimp only
  repeat' split
  all_goals simp

@[simp] theorem State.closeSegment_clock (s : State) : s.closeSegment.clock = s.clock := by simp [State.closeSegment]
@[simp] theorem State.romBoot_clock (s : State) (cold : Bool) : (s.romBoot cold).clock = s.clock := by simp [State.romBoot]
@[simp] theorem State.powerDown_clock (s : State) : s.powerDown.clock = s.clock := by simp [State.powerDown]
@[simp] theorem State.dip_clock (s : State) : s.dip.clock = s.clock := by simp [State.dip]
@[simp] theorem State.mainsOut_clock (s : State) (us : Nat) (overVolt : Bool) : (s.mainsOut us overVolt).clock = s.clock := by simp [State.mainsOut]
@[simp] theorem State.auxTrip_clock (s : State) (us : Nat) : (s.auxTrip us).clock = s.clock := by simp [State.auxTrip]

@[simp] theorem State.auxBack_clock (s : State) : s.auxBack.clock = s.clock := by
  unfold State.auxBack
  split <;> simp

@[simp] theorem State.resetRelease_clock (s : State) : s.resetRelease.clock = s.clock := by simp [State.resetRelease]
@[simp] theorem State.firmwareUp_clock (s : State) : s.firmwareUp.clock = s.clock := by simp [State.firmwareUp]
@[simp] theorem State.seedLoaded_clock (s : State) (t : Trunk) : (s.seedLoaded t).clock = s.clock := by simp [State.seedLoaded]

/-! ### Bridge commands -/

@[simp] theorem State.graftPair_clock (s : State) (t : Trunk) (x : GraftTx) : (s.graftPair t x).clock = s.clock := by
  unfold State.graftPair
  dsimp only
  repeat' split
  all_goals simp

@[simp] theorem State.graftRequest_clock (s : State) (i : Nat) (core : Option Trunk) (x : GraftTx) : (s.graftRequest i core x).clock = s.clock := by
  unfold State.graftRequest
  split <;> simp

@[simp] theorem State.graftAnswer_clock (s : State) (tag : Nat) (a : GraftAnswer) : (s.graftAnswer tag a).clock = s.clock := by
  unfold State.graftAnswer
  split <;> simp

@[simp] theorem State.graftAgain_clock (s : State) (tag : Nat) : (s.graftAgain tag).clock = s.clock := by
  unfold State.graftAgain
  repeat' split
  all_goals simp

@[simp] theorem State.graftLate_clock (s : State) (tag : Nat) : (s.graftLate tag).clock = s.clock := by
  unfold State.graftLate
  split <;> simp

@[simp] theorem State.graftAbort_clock (s : State) (x : GraftTx) : (s.graftAbort x).clock = s.clock := by simp [State.graftAbort]

@[simp] theorem State.graftInbound_clock (s : State) (pos : Nat) (m : GraftMsg) : (s.graftInbound pos m).clock = s.clock := by
  simp [State.graftInbound]

@[simp] theorem State.graftMessage_clock (s : State) (pos : Nat) (m : GraftMsg) : (s.graftMessage pos m).clock = s.clock := by
  unfold State.graftMessage
  dsimp only
  repeat' split
  all_goals simp

@[simp] theorem State.graftReissue_clock (s : State) (tag : Nat) : (s.graftReissue tag).clock = s.clock := by
  unfold State.graftReissue
  split <;> simp

@[simp] theorem State.graftAttr_clock (s : State) (r : Nat) (v : Word) : (s.graftAttr r v).clock = s.clock := by simp [State.graftAttr]

/-! ### Temperatures and trunk shutdown -/

@[simp] theorem State.calStale_clock (s : State) : s.calStale.clock = s.clock := by simp [State.calStale]
@[simp] theorem State.trunksOff_clock (s : State) : s.trunksOff.clock = s.clock := by simp [State.trunksOff]

@[simp] theorem State.tempRegs_clock (s : State) (base dieA dieB dieRoot : Int) : (s.tempRegs base dieA dieB dieRoot).clock = s.clock := by
  simp [State.tempRegs]

@[simp] theorem State.thermalSample_clock (s : State) (base dieA dieB dieRoot : Int) : (s.thermalSample base dieA dieB dieRoot).clock = s.clock := by
  simp [State.thermalSample]

@[simp] theorem State.throttle_clock (s : State) (on : Bool) : (s.throttle on).clock = s.clock := by simp [State.throttle]
@[simp] theorem State.throttleOn_clock (s : State) : s.throttleOn.clock = s.clock := by simp [State.throttleOn]
@[simp] theorem State.throttleOff_clock (s : State) : s.throttleOff.clock = s.clock := by simp [State.throttleOff]
@[simp] theorem State.thermalBack_clock (s : State) : s.thermalBack.clock = s.clock := by simp [State.thermalBack]
@[simp] theorem State.moduleFault_clock (s : State) (switchCore : Bool) : (s.moduleFault switchCore).clock = s.clock := by simp [State.moduleFault]

/-! ### Life cycle, self-test and calibration -/

@[simp] theorem State.lifeDone_clock (s : State) (h : StemHdr) (op code : Nat) : (s.lifeDone h op code).clock = s.clock := by simp [State.lifeDone]

@[simp] theorem State.signedCmd_clock (s : State) (h : StemHdr) (op : Nat) (p : List Byte) (f : State → State) (hf : ∀ u, (f u).clock = u.clock) :
    (s.signedCmd h op p f).clock = s.clock := by simp [State.signedCmd, hf]

@[simp] theorem State.lifeProvision_clock (s : State) (h : StemHdr) (key : List Byte) : (s.lifeProvision h key).clock = s.clock := by
  simp [State.lifeProvision]

@[simp] theorem State.lifeRekey_clock (s : State) (h : StemHdr) (p : List Byte) : (s.lifeRekey h p).clock = s.clock := by simp [State.lifeRekey]

@[simp] theorem State.lifeService_clock (s : State) (h : StemHdr) (leave : Bool) (p : List Byte) : (s.lifeService h leave p).clock = s.clock := by
  simp [State.lifeService]

@[simp] theorem State.bistRun_clock (s : State) (h : StemHdr) (kind trunk index pattern ms : Nat) :
    (s.bistRun h kind trunk index pattern ms).clock = s.clock := by simp [State.bistRun]

@[simp] theorem State.bistEnd_clock (s : State) (errors bits eye : Nat) (restored : Bool) : (s.bistEnd errors bits eye restored).clock = s.clock := by
  unfold State.bistEnd
  split <;> simp

@[simp] theorem State.vectorPass_clock (s : State) (t : Trunk) (pass : Bool) : (s.vectorPass t pass).clock = s.clock := by simp [State.vectorPass]
@[simp] theorem State.laneError_clock (s : State) (t : Trunk) (bits : Nat) : (s.laneError t bits).clock = s.clock := by simp [State.laneError]

@[simp] theorem State.laneQuiet_clock (s : State) (t : Trunk) : (s.laneQuiet t).clock = s.clock := by
  unfold State.laneQuiet
  split <;> simp

@[simp] theorem State.calBegin_clock (n : Nat) (s : State) : (State.calBegin n s).clock = s.clock := by
  induction n generalizing s with
  | zero => rfl
  | succ n ih =>
    unfold State.calBegin
    split <;> simp [ih]

@[simp] theorem State.calRun_clock (s : State) (h : StemHdr) (item index : Nat) (skew : Int) : (s.calRun h item index skew).clock = s.clock := by
  simp [State.calRun]

@[simp] theorem State.calEnd_clock (s : State) (c : CalRun) (code : Nat) : (s.calEnd c code).clock = s.clock := by simp [State.calEnd]
@[simp] theorem State.calPass_clock (s : State) (c : CalRun) (resE resI : Int) : (s.calPass c resE resI).clock = s.clock := by simp [State.calPass]
@[simp] theorem State.calPhase_clock (s : State) (c : CalRun) : (s.calPhase c).clock = s.clock := by simp [State.calPhase]

@[simp] theorem State.calSample_clock (s : State) (egress ingress : Int) (errors : Nat) : (s.calSample egress ingress errors).clock = s.clock := by
  unfold State.calSample
  split <;> simp

@[simp] theorem State.calLate_clock (s : State) : s.calLate.clock = s.clock := by
  unfold State.calLate
  split <;> simp

/-! ### Accesses from outside -/

@[simp] theorem State.axisWrite_clock (s : State) (a : Nat) (v : Word) : (s.axisWrite a v).clock = s.clock := by simp [State.axisWrite]
@[simp] theorem State.ringCfg_clock (s : State) (r : Nat) (v : Word) : (s.ringCfg r v).clock = s.clock := by simp [State.ringCfg]
@[simp] theorem State.stemWrite_clock (s : State) (a : Nat) (v : Word) : (s.stemWrite a v).clock = s.clock := by simp [State.stemWrite]

@[simp] theorem State.logWrite_clock (s : State) (f : Field) (v : Nat) (lo hi : Int) : (s.logWrite f v lo hi).clock = s.clock := by
  simp [State.logWrite]

@[simp] theorem State.intvWrite_clock (s : State) (i v : Nat) : (s.intvWrite i v).clock = s.clock := by simp [State.intvWrite]
@[simp] theorem State.timeWrite_clock (s : State) (a : Nat) (v : Word) : (s.timeWrite a v).clock = s.clock := by simp [State.timeWrite]
@[simp] theorem State.cmpWrite_clock (s : State) (v : Word) : (s.cmpWrite v).clock = s.clock := by simp [State.cmpWrite]
@[simp] theorem State.chkWrite_clock (s : State) (a n : Nat) (v : Word) : (s.chkWrite a n v).clock = s.clock := by simp [State.chkWrite]

@[simp] theorem State.calWrite_clock (s : State) (a : Nat) (v : Word) : (s.calWrite a v).clock = s.clock := by
  unfold State.calWrite
  split <;> simp

@[simp] theorem State.rootWrite_clock (s : State) (a : Nat) (v : Word) : (s.rootWrite a v).clock = s.clock := by
  unfold State.rootWrite
  dsimp only
  repeat' split
  all_goals simp

@[simp] theorem State.icuWrite_clock (s : State) (t : Trunk) (off : Nat) (v : Word) : (s.icuWrite t off v).clock = s.clock := by simp [State.icuWrite]

@[simp] theorem State.guestWrite_clock (s : State) (t : Trunk) (c off : Nat) (v : Word) : (s.guestWrite t c off v).clock = s.clock := by
  simp [State.guestWrite]

@[simp] theorem State.trunkWrite_clock (s : State) (t : Trunk) (off : Nat) (v : Word) : (s.trunkWrite t off v).clock = s.clock := by
  unfold State.trunkWrite
  split <;> simp

@[simp] theorem State.keepSet_clock (s0 s : State) (a : Nat) : (s0.keepSet s a).clock = s.clock := by
  unfold State.keepSet
  split <;> simp

@[simp] theorem State.rootStore_clock (s : State) (a : Nat) (v : Word) : (s.rootStore a v).clock = s.clock := by simp [State.rootStore]

@[simp] theorem State.trunkStore_clock (s : State) (t : Trunk) (off : Nat) (v : Word) : (s.trunkStore t off v).clock = s.clock := by
  simp [State.trunkStore]

@[simp] theorem State.wordWrite_clock (s : State) (a : Nat) (v : Word) : (s.wordWrite a v).clock = s.clock := by simp [State.wordWrite]
@[simp] theorem State.busWrite_clock (s : State) (a : Nat) (v : Word) : (s.busWrite a v).clock = s.clock := by simp [State.busWrite]
@[simp] theorem State.readClear_clock (s : State) (b : Nat) : (s.readClear b).clock = s.clock := by simp [State.readClear]
@[simp] theorem State.readLatch_clock (s : State) (b : Nat) : (s.readLatch b).clock = s.clock := by simp [State.readLatch]

@[simp] theorem State.clearTwin_clock (s : State) (f : State → Nat → State) (a b : Nat) (hf : ∀ u k, (f u k).clock = u.clock) :
    (s.clearTwin f a b).clock = s.clock := by simp [State.clearTwin, hf]

@[simp] theorem State.wordRead_clock (s : State) (a : Nat) : (s.wordRead a).clock = s.clock := by
  unfold State.wordRead
  dsimp only
  repeat' split
  all_goals simp

@[simp] theorem State.eventsAt_clock (v : Word) (s : State) (b : Nat) : (State.eventsAt v s b).clock = s.clock := by
  unfold State.eventsAt
  split <;> simp

@[simp] theorem State.eventsAfter_clock (s : State) (a : Nat) (v : Word) : (s.eventsAfter a v).clock = s.clock := by
  unfold State.eventsAfter
  split <;> simp

@[simp] theorem State.issueWrites_clock (s : State) : s.issueWrites.clock = s.clock := by simp [State.issueWrites]

@[simp] theorem State.barWrite_clock (s : State) (off : Nat) (v : Word) : (s.barWrite off v).clock = s.clock := by
  unfold State.barWrite
  split <;> simp

@[simp] theorem State.hostRead_clock (s : State) (bar : Bool) (addr : Nat) (events : Word) : (s.hostRead bar addr events).clock = s.clock := by
  unfold State.hostRead
  split <;> simp

@[simp] theorem State.readReg_clock (s : State) (h : StemHdr) (addr len : Nat) : (s.readReg h addr len).clock = s.clock := by
  simp [State.readReg, State.foldl_snd_clock]

@[simp] theorem State.writeReg_clock (s : State) (h : StemHdr) (addr : Nat) (data : List Word) : (s.writeReg h addr data).clock = s.clock := by
  simp [State.writeReg]

@[simp] theorem State.graftMem_clock (s : State) (h : StemHdr) (write : Bool) (addr len : Nat) (data : List Byte) :
    (s.graftMem h write addr len data).clock = s.clock := by simp [State.graftMem]

@[simp] theorem State.readMem_clock (s : State) (h : StemHdr) (addr len : Nat) : (s.readMem h addr len).clock = s.clock := by simp [State.readMem]

@[simp] theorem State.writeMem_clock (s : State) (h : StemHdr) (addr : Nat) (data : List Byte) : (s.writeMem h addr data).clock = s.clock := by
  unfold State.writeMem
  repeat' split
  all_goals simp

/-! ### References of the count axes -/

@[simp] theorem State.countRef_clock (s : State) (n : Nat) (ready : Bool) (p adv : Nat) : (s.countRef n ready p adv).clock = s.clock := by
  simp [State.countRef]

@[simp] theorem State.frameStart_clock (s : State) (n at_ k : Nat) (off : Int) : (s.frameStart n at_ k off).clock = s.clock := by
  simp [State.frameStart]

@[simp] theorem State.videoEdge_clock (s : State) (n : Nat) (start : Bool) (lines : Nat) : (s.videoEdge n start lines).clock = s.clock := by
  unfold State.videoEdge
  dsimp only
  repeat' split
  all_goals simp

@[simp] theorem State.st2110In_clock (s : State) (n rtp k : Nat) : (s.st2110In n rtp k).clock = s.clock := by simp [State.st2110In]
@[simp] theorem State.aesAxis_clock (s : State) (slot rtp n : Nat) : (s.aesAxis slot rtp n).clock = s.clock := by simp [State.aesAxis]
@[simp] theorem State.aesIn_clock (s : State) (slot rtp : Nat) : (s.aesIn slot rtp).clock = s.clock := by simp [State.aesIn]
@[simp] theorem State.wclkIn_clock (s : State) (n : Nat) : (s.wclkIn n).clock = s.clock := by simp [State.wclkIn]

@[simp] theorem State.ltcIn_clock (s : State) (n hh mm ss ff : Nat) (readable : Bool) : (s.ltcIn n hh mm ss ff readable).clock = s.clock := by
  unfold State.ltcIn
  dsimp only
  repeat' split
  all_goals simp

end Sys2Proof.Machine
end

section
/-! PROOFS. The frame of memory and FREE: each command keeps what `Safety.touches` does not give up of them. -/

namespace Sys2Proof.Machine

open Sys2Proof.Safety (Part)

/-- A command that stores nothing leaves memory: by the lemmas of its meaning's operations. -/
theorem exec_mem {c : Instr} {s t : State} (h : exec c s = .next t) (hc : Part.mem ∉ Safety.touches c) : t.mem = s.mem := by
  cases c
  case reset | lifeScrap | pwrGoodRise | resetNAssert | treeEpoch | canvasFrameComplete | taskCompletion | patrolScrubRead | workItemRerun |
      heartwoodScrub | linkReplay | trunkKeepaliveLoss | thermalSample | thermalRecovery | firmwareRestart | rasterLineRead | arbitrationVote |
      voteTimeout | writeMem | imageActivation | firmwareReady => simp [Safety.touches, Safety.allParts] at hc
  case eccCorrEvent e site =>
    cases h
    cases site.tmr <;> simp [apply_ite State.mem]
  all_goals
    cases h
    simp [apply_ite State.mem]

/-- R272: FREE stands but under the commands of power and reset. -/
theorem exec_clock {c : Instr} {s t : State} (h : exec c s = .next t) (hc : Part.clock ∉ Safety.touches c) : t.clock = s.clock := by
  cases c
  case reset | lifeScrap | pwrGoodRise | resetNAssert => simp [Safety.touches, Safety.allParts] at hc
  case thermalSample =>
    unfold exec execThermalSample at h
    dsimp only at h
    split at h <;> cases h <;> simp
  case eccCorrEvent e site =>
    cases h
    cases site.tmr <;> simp
  all_goals
    cases h
    simp

/-- Settles O9: memory by `exec_mem`, and with it every byte that is read of it; FREE by `exec_clock`. -/
theorem frameMemoryAndClock : Obligations.FrameMemoryAndClock := by
  unfold Obligations.FrameMemoryAndClock
  intro c s t h
  refine ⟨fun hc => ?_, fun hc => congrArg Clock.free (exec_clock h hc)⟩
  have hm := exec_mem h hc
  exact ⟨hm, fun a => by rw [hm]⟩

end Sys2Proof.Machine
end

section
/-! PROOFS. The pulse, the time of day and the 10 MHz reference (R274, R282, R284, R289). -/

namespace Sys2Proof.Machine

/-! ### What the operations of registers and axes leave of the PTP clocks -/

@[simp] theorem State.ptps_ite {c : Prop} [Decidable c] (s t : State) : (if c then s else t).ptps = if c then s.ptps else t.ptps :=
  apply_ite _ _ _ _

@[simp] theorem State.foldl_ptps {α : Type} (f : State → α → State) (hf : ∀ u x, (f u x).ptps = u.ptps) (l : List α) (s : State) :
    (l.foldl f s).ptps = s.ptps := foldl_keeps State.ptps f hf l s

@[simp] theorem State.attn_ptps (s : State) (k : Nat) : (s.attn k).ptps = s.ptps := by rw [State.attn_rest]
@[simp] theorem State.rootEvent_ptps (s : State) (base code cls : Nat) (args : List Byte) : (s.rootEvent base code cls args).ptps = s.ptps := by
  rw [State.rootEvent_rest]
@[simp] theorem State.flag_ptps (s : State) (f : Field) (cls : Nat) : (s.flag f cls).ptps = s.ptps := by rw [State.flag_rest]

@[simp] theorem State.countFrom_ptps (s : State) (key p : Nat) : (s.countFrom key p).ptps = s.ptps := by
  unfold State.countFrom
  split <;> rfl

@[simp] theorem State.rebaseCadences_ptps (s : State) (n : Nat) : (s.rebaseCadences n).ptps = s.ptps := by simp [State.rebaseCadences]
@[simp] theorem State.setAxisState_ptps (s : State) (n v : Nat) : (s.setAxisState n v).ptps = s.ptps := by simp [State.setAxisState, State.attnTime]
@[simp] theorem State.recordStep_ptps (s : State) (n : Nat) (fwd : Bool) : (s.recordStep n fwd).ptps = s.ptps := by
  simp [State.recordStep, State.rasterStep, State.attnTime]
@[simp] theorem State.takePos_ptps (s : State) (n p thr : Nat) : (s.takePos n p thr).ptps = s.ptps := by simp [State.takePos]
@[simp] theorem State.setRate_ptps (s : State) (n adv : Nat) : (s.setRate n adv).ptps = s.ptps := rfl

@[simp] theorem State.lockAxis_ptps (s : State) (n p adv : Nat) : (s.lockAxis n p adv).ptps = s.ptps := by
  unfold State.lockAxis
  split <;> simp

@[simp] theorem State.stepAxis_ptps (s : State) (n p : Nat) : (s.stepAxis n p).ptps = s.ptps := by simp [State.stepAxis]
@[simp] theorem State.masterLock_ptps (s : State) (i : Nat) : (s.masterLock i).ptps = s.ptps := by simp [State.masterLock]

theorem State.ptp_congr {s u : State} (h : u.ptps = s.ptps) (i : Nat) : u.ptp i = s.ptp i := congrArg (Tab.get ({} : PtpSt) · i) h

@[simp] theorem State.ptp_putPtp (s : State) (i : Nat) (x : PtpSt) : (s.putPtp i x).ptp i = x := Tab.get_set_self _ _ _ _

/-! ### Registers of the time block (0x6_0000) -/

/-- An event of the time block with its attention leaves the block's registers. -/
theorem State.timeReg_rootEvent (s : State) {a : Nat} (h : a / 65536 = 6) (base code cls : Nat) (args : List Byte) :
    (s.rootEvent base code cls args).attnTime.reg a = s.reg a :=
  (State.reg_attn _ _ _ (by omega)).trans (State.reg_rootEvent _ _ _ _ _ _ (by rintro rfl; cases h) (by rintro rfl; cases h))

theorem State.reg_refEvent (s : State) (a : Nat) (h : a / 65536 = 6) : s.refEvent.reg a = s.reg a := State.timeReg_rootEvent s h _ _ _ _

theorem State.refEvent_rest (s : State) : s.refEvent = { s with
    regs := s.refEvent.regs, cyc := s.refEvent.cyc, events := s.refEvent.events, ring := s.refEvent.ring, stem := s.refEvent.stem } := by
  unfold State.refEvent State.attnTime
  rw [State.attn_rest, State.rootEvent_rest]

theorem timePtpStatus_block {i : Nat} (h : i < 4) : Reg.timePtpStatus i / 65536 = 6 := by
  unfold Reg.timePtpStatus
  omega

/-- A field of `TIME_STATUS` is set beside the states of the PTP clocks. -/
theorem State.ptpState_fset_timeStatus (s : State) (f : Field) (v i : Nat) (hf : f.addr = Reg.timeStatus) : (s.fset f v).ptpState i = s.ptpState i :=
  State.fget_fset_ne _ _ _ _ (by rw [hf]; simp only [Reg.timeStatus, Reg.TimePtpStatus.portState, Reg.timePtpStatus]; omega)

/-- A flag cleared stays cleared when another flag of its register is set. -/
theorem State.fbit_clear_then_set (s : State) (f g : Field) (ha : g.addr = f.addr) (hf : f.lo + f.len ≤ 32) (hg : g.lo + g.len ≤ 32)
    (hd : f.lo + f.len ≤ g.lo ∨ g.lo + g.len ≤ f.lo) : ((s.fset f 0).fset g 1).fbit f = false := by
  unfold State.fbit
  rw [State.fget_fset_beside _ _ _ _ ha hg hd, State.fget_fset_self s f 0 hf, Nat.zero_mod]
  rfl

/-! ### The pulse (R282) -/

theorem foldl_fixed_of_mem {α β : Type} {f : β → α → β} {b : β} {l : List α} (h : ∀ a ∈ l, f b a = b) : l.foldl f b = b := by
  induction l with
  | nil => rfl
  | cons a r ih =>
    rw [List.foldl_cons, h a (List.mem_cons_self ..)]
    exact ih fun x hx => h x (List.mem_cons_of_mem _ hx)

/-- R282: what an edge that leaves the pulse valid does, before the grandmasters take it. -/
def State.pulseValid (s : State) : State :=
  let s := { s with ppsLast := s.free, ppsRun := s.ppsRun + 1 }
  let s := if s.ppsOk then s else (s.fset Reg.TimeStatus.ppsValid 1).refEvent
  { s with ppsLostAt := none, ppsGood := s.free }

theorem State.pulseValid_shows (s : State) : s.pulseValid.ppsOk = true ∧ s.pulseValid.ppsLast = s.free ∧ s.pulseValid.ppsRun = s.ppsRun + 1 ∧
    s.pulseValid.ptps = s.ptps ∧ ∀ i < 4, s.pulseValid.ptpState i = s.ptpState i := by
  unfold State.pulseValid
  extract_lets counted valid
  by_cases hc : counted.ppsOk = true
  · have hv : valid = counted := if_pos hc
    rw [hv]
    exact ⟨hc, rfl, rfl, rfl, fun _ _ => rfl⟩
  · have hv : valid = (counted.fset Reg.TimeStatus.ppsValid 1).refEvent := if_neg hc
    rw [hv]
    refine ⟨?_, by rw [State.refEvent_rest]; rfl, by rw [State.refEvent_rest]; rfl, by rw [State.refEvent_rest]; rfl, fun i hi => ?_⟩
    · refine (State.fbit_congr _ (counted.fset Reg.TimeStatus.ppsValid 1) _ (State.reg_refEvent _ _ (by decide))).trans ?_
      exact State.fbit_fset_self counted Reg.TimeStatus.ppsValid 1 (by decide)
    · refine (State.fget_congr _ (counted.fset Reg.TimeStatus.ppsValid 1) _ (State.reg_refEvent _ _ (timePtpStatus_block hi))).trans ?_
      exact State.ptpState_fset_timeStatus counted _ _ _ rfl

/-- R282: the third edge 1 s after the one before makes the pulse valid; where no grandmaster waits for it or follows it, it does no more. -/
theorem State.ppsIn_third (s : State) (hr : 2 ≤ s.ppsRun) (hlo : second ≤ (s.free - s.ppsLast) + 65536000)
    (hhi : s.free - s.ppsLast ≤ second + 65536000) (hi : ∀ i < 4, (s.ptp i).todAt = none ∧ s.ptpState i ≠ 6) : s.ppsIn = s.pulseValid := by
  obtain ⟨-, -, -, hptps, hstate⟩ := s.pulseValid_shows
  have near : decide (s.ppsRun ≠ 0 ∧ second ≤ s.free - s.ppsLast + 65536000 ∧ s.free - s.ppsLast ≤ second + 65536000) = true :=
    decide_eq_true ⟨by omega, hlo, hhi⟩
  have late : ¬ s.ppsRun + 1 < 3 := by omega
  unfold State.ppsIn
  simp only [near, late, if_true, Bool.not_true, decide_false, Bool.and_false, Bool.or_false, Bool.false_eq_true, if_false]
  refine foldl_fixed_of_mem (b := s.pulseValid) fun i hm => ?_
  have h4 : i < 4 := by simp at hm; omega
  obtain ⟨htod, hgm⟩ := hi i h4
  simp only [State.ptp_congr hptps i, htod, hstate i h4, hgm, false_and, if_false]

/-- R282: what the loss of the pulse does, before the grandmasters that follow it go into holdover. -/
def State.pulseInvalid (s : State) : State :=
  ({ s.fset Reg.TimeStatus.ppsValid 0 with ppsRun := 0, ppsLostAt := some s.free }.flag Reg.TimeStatus.ppsLost 0).attnTime

theorem State.pulseInvalid_shows (s : State) : s.pulseInvalid.ppsOk = false ∧ s.pulseInvalid.ppsLostAt = some s.free ∧
    ∀ i < 4, s.pulseInvalid.ptpState i = s.ptpState i := by
  have hreg (a : Nat) (h : a / 65536 = 6) : s.pulseInvalid.reg a = ((s.fset Reg.TimeStatus.ppsValid 0).fset Reg.TimeStatus.ppsLost 1).reg a :=
    (State.reg_attn _ _ _ (by omega)).trans (State.reg_statusEvent _ _ _ _ (by rintro rfl; cases h) (by rintro rfl; cases h))
  refine ⟨?_, ?_, fun i hi => ?_⟩
  · refine (State.fbit_congr _ _ _ (hreg _ (by decide))).trans ?_
    exact s.fbit_clear_then_set Reg.TimeStatus.ppsValid Reg.TimeStatus.ppsLost rfl (by decide) (by decide) (by decide)
  · unfold State.pulseInvalid State.attnTime
    rw [State.attn_rest, State.flag_rest]
  · refine (State.fget_congr _ _ _ (hreg _ (timePtpStatus_block hi))).trans ?_
    exact (State.ptpState_fset_timeStatus _ _ _ _ rfl).trans (State.ptpState_fset_timeStatus _ _ _ _ rfl)

/-- R282: without a valid edge for 2 s the pulse is lost; where no grandmaster follows it, that is all. -/
theorem State.ppsLose_late (s : State) (hv : s.ppsOk = true) (ht : s.ppsGood + 2 * second ≤ s.free) (hi : ∀ i < 4, s.ptpState i ≠ 6) :
    s.ppsLose = s.pulseInvalid := by
  obtain ⟨-, -, hstate⟩ := s.pulseInvalid_shows
  unfold State.ppsLose
  rw [if_neg (by simp [hv, ht])]
  refine foldl_fixed_of_mem (b := s.pulseInvalid) fun i hm => ?_
  have h4 : i < 4 := by simp at hm; omega
  simp only [hstate i h4, hi i h4, false_and, if_false]

/-! ### The time of day (R284) -/

theorem State.ptp_setTime (s : State) (i sec : Nat) : (s.setTime i sec).ptp i =
    { s.ptp i with base := (sec * second : Nat), acc := 0, tod := true, todAt := none, good := 0 } := by
  unfold State.setTime
  dsimp only
  rw [State.ptp_congr (State.masterLock_ptps _ i), State.ptp_congr (State.stepAxis_ptps _ i _), State.ptp_putPtp]

/-- R284: a grandmaster takes its time of day, at once or at the next valid pulse. -/
theorem State.setTod_grandmaster (s : State) (i : Nat) (atPps : Bool) (hm : s.ptpState i = 6 ∨ s.ptpState i = 7)
    (hp : atPps = true → s.ppsOk = true) :
    s.setTod i atPps = if atPps then s.putPtp i { s.ptp i with todAt := some (s.regN Reg.timeGmSecLo + 2 ^ 32 * s.fget Reg.TimeGmSecHi.sec) }
      else s.setTime i (s.regN Reg.timeGmSecLo + 2 ^ 32 * s.fget Reg.TimeGmSecHi.sec) := by
  unfold State.setTod
  refine if_neg ?_
  cases atPps
  · simpa using fun h6 => hm.resolve_left h6
  · simpa [hp] using fun h6 => hm.resolve_left h6

theorem State.setTod_refused (s : State) (i : Nat) (atPps : Bool) (h6 : s.ptpState i ≠ 6) (h7 : s.ptpState i ≠ 7) :
    s.setTod i atPps = s.fset Reg.TimeStatus.gmRefused 1 := by
  unfold State.setTod
  exact if_pos (by simp [h6, h7])

/-! ### Outputs and references (R274, R289) -/

/-- R289: PPS_OUT follows FREE, and gives its edge once at each whole second. -/
theorem State.ppsOutEdge_free (s : State) (hc : s.fget Reg.TimeCtrl.ppsOutSrc = 4) (hp : s.hasPos 17 = true)
    (hn : s.axisPos 17 % second ≤ 524288) (ho : s.ppsOut ≠ some (s.axisPos 17 / second)) :
    s.ppsOutEdge = { s with ppsOut := some (s.axisPos 17 / second) }.emit .pps := by
  unfold State.ppsOutEdge
  simp only [hc, if_true]
  exact if_pos ⟨Nat.le_refl 4, hp, hn, ho⟩

theorem State.tenMLock_tenMLocks (s : State) (he : s.fbit Reg.TimeCtrl.tenMInEn = true) (hl : s.fbit Reg.TimeStatus.tenMLock = false) :
    s.tenMLocks.fbit Reg.TimeStatus.tenMLock = true := by
  unfold State.tenMLocks
  rw [if_pos (by simp [he, hl])]
  refine (State.fbit_congr _ _ _ (State.reg_refEvent _ _ (by decide))).trans ?_
  exact State.fbit_fset_self s Reg.TimeStatus.tenMLock 1 (by decide)

theorem State.tenMLoses_shows (s : State) (he : s.fbit Reg.TimeCtrl.tenMInEn = true) :
    s.tenMLoses.fbit Reg.TimeStatus.tenMLock = false ∧ s.tenMLoses.fbit Reg.TimeStatus.tenMLost = true := by
  have hreg : s.tenMLoses.reg Reg.timeStatus = ((s.fset Reg.TimeStatus.tenMLock 0).fset Reg.TimeStatus.tenMLost 1).reg Reg.timeStatus := by
    unfold State.tenMLoses
    rw [if_neg (by simp [he])]
    dsimp only
    split
    · exact (State.reg_attn _ _ _ (by decide)).trans (State.reg_statusEvent _ _ _ _ (by decide) (by decide))
    · exact State.reg_statusEvent _ _ _ _ (by decide) (by decide)
  constructor
  · refine (State.fbit_congr _ _ _ hreg).trans ?_
    exact s.fbit_clear_then_set Reg.TimeStatus.tenMLock Reg.TimeStatus.tenMLost rfl (by decide) (by decide) (by decide)
  · exact (State.fbit_congr _ _ _ hreg).trans (State.fbit_fset_self _ Reg.TimeStatus.tenMLost 1 (by decide))

/-! ### The statement -/

/-- Settles O31, clause by clause: each command is its operation on a module that runs, and the operation's lemma says what stands then. -/
theorem pulseCommandsComplete : Obligations.PulseCommandsComplete := by
  unfold Obligations.PulseCommandsComplete
  refine ⟨?edge, ?lost, ?taken, ?refused, ?out, ?ocxo, ?locked, ?loses⟩
  case edge =>
    intro s h hr hlo hhi hi
    obtain ⟨hok, hlast, hrun, -⟩ := s.pulseValid_shows
    rw [← s.ppsIn_third hr hlo hhi hi] at hok hlast hrun
    exact ⟨_, act_of_running s (·.ppsIn) h, hok, hlast, hrun⟩
  case lost =>
    intro s h hv ht hi
    obtain ⟨hok, hat, -⟩ := s.pulseInvalid_shows
    rw [← s.ppsLose_late hv ht hi] at hok hat
    exact ⟨_, act_of_running s (·.ppsLose) h, hok, hat⟩
  case taken =>
    intro i s h hm
    refine ⟨⟨_, act_of_running s (·.setTod i false) h, ?_⟩, fun hp => ⟨_, act_of_running s (·.setTod i true) h, ?_⟩⟩
    · rw [s.setTod_grandmaster i false hm (by simp), if_neg (by simp), State.ptp_setTime]
      exact ⟨rfl, rfl⟩
    · rw [s.setTod_grandmaster i true hm (fun _ => hp), if_pos rfl, State.ptp_putPtp]
  case refused =>
    intro i p s h h6 h7
    refine ⟨_, act_of_running s (·.setTod i p) h, ?_⟩
    rw [s.setTod_refused i p h6 h7]
    exact ⟨State.fget_fset_self s Reg.TimeStatus.gmRefused 1 (by decide), rfl⟩
  case out =>
    intro s h hc hp hn ho
    refine ⟨_, act_of_running s (·.ppsOutEdge) h, ?_⟩
    rw [s.ppsOutEdge_free hc hp hn ho]
    exact ⟨rfl, rfl⟩
  case ocxo =>
    intro s h
    exact ⟨_, act_of_running s (·.fset Reg.TimeStatus.ocxoReady 1) h, State.fget_fset_self s Reg.TimeStatus.ocxoReady 1 (by decide)⟩
  case locked =>
    intro s h he hl
    exact ⟨_, act_of_running s (·.tenMLocks) h, s.tenMLock_tenMLocks he hl⟩
  case loses =>
    intro s h he
    exact ⟨_, act_of_running s (·.tenMLoses) h, s.tenMLoses_shows he⟩

end Sys2Proof.Machine
end

section
/-! PROOFS. The PTP clocks (R275 to R278, R281, R283, R286). -/

namespace Sys2Proof.Machine

/-! ### Registers of the time block beside the operations of a PTP axis -/

section
variable (s : State) {n a : Nat}

theorem axisRegs_ne_timeReg (hn : n < 4) (h : a / 65536 = 6) : Reg.axisStatus n ≠ a ∧ Reg.axisRate n ≠ a ∧ Reg.axisStepCnt n ≠ a := by
  unfold Reg.axisStatus Reg.axisRate Reg.axisStepCnt
  omega

/-- A status bit of a PTP axis that sets, with its event and attention, leaves the registers of the time block. -/
theorem State.timeReg_axisFlag (hn : n < 4) (h : a / 65536 = 6) (f : Field) (hf : f.addr = Reg.axisStatus n) (cls : Nat) :
    (s.flag f cls).attnTime.reg a = s.reg a :=
  (State.reg_attn _ _ _ (by omega)).trans
    (State.reg_flag _ _ _ _ (hf ▸ (axisRegs_ne_timeReg hn h).1) (by rintro rfl; cases h) (by rintro rfl; cases h))

theorem State.timeReg_setAxisState (hn : n < 4) (h : a / 65536 = 6) (v : Nat) : (s.setAxisState n v).reg a = s.reg a := by
  obtain ⟨hs, hr, -⟩ := axisRegs_ne_timeReg hn h
  unfold State.setAxisState
  split
  · rfl
  · dsimp only
    rw [State.timeReg_axisFlag _ hn h _ rfl]
    split
    · exact (State.reg_setRegN_ne _ _ _ _ hr).trans (State.reg_fset_ne _ _ _ _ hs)
    · exact State.reg_fset_ne _ _ _ _ hs

theorem State.timeReg_recordStep (hn : n < 4) (h : a / 65536 = 6) (fwd : Bool) : (s.recordStep n fwd).reg a = s.reg a := by
  unfold State.recordStep
  dsimp only
  rw [State.timeReg_axisFlag _ hn h _ (by cases fwd <;> rfl)]
  exact State.reg_bump_ne _ _ _ (axisRegs_ne_timeReg hn h).2.2

theorem State.reg_rebaseCadences (n a : Nat) : (s.rebaseCadences n).reg a = s.reg a := by
  refine State.reg_foldl _ _ (fun u x => ?_) _ _
  unfold State.countFrom
  split <;> rfl

theorem State.timeReg_takePos (hn : n < 4) (h : a / 65536 = 6) (p thr : Nat) : (s.takePos n p thr).reg a = s.reg a := by
  unfold State.takePos
  dsimp only
  repeat' split
  · rfl
  · exact State.timeReg_recordStep _ hn h _
  · rfl
  · exact (State.timeReg_recordStep _ hn h _).trans (State.reg_rebaseCadences _ _ _)
  · exact State.reg_rebaseCadences _ _ _

theorem State.timeReg_setRate (hn : n < 4) (h : a / 65536 = 6) (adv : Nat) : (s.setRate n adv).reg a = s.reg a :=
  State.reg_setRegN_ne _ _ _ _ (axisRegs_ne_timeReg hn h).2.1

theorem State.timeReg_lockAxis (hn : n < 4) (h : a / 65536 = 6) (p adv : Nat) : (s.lockAxis n p adv).reg a = s.reg a := by
  unfold State.lockAxis
  split
  · exact (State.reg_rebaseCadences _ _ _).trans ((State.timeReg_setAxisState _ hn h _).trans (State.timeReg_setRate _ hn h _))
  · exact (State.timeReg_setAxisState _ hn h _).trans ((State.timeReg_setRate _ hn h _).trans (State.timeReg_takePos _ hn h _ _))
  · rfl

theorem State.timeReg_stepAxis (hn : n < 4) (h : a / 65536 = 6) (p : Nat) : (s.stepAxis n p).reg a = s.reg a := by
  unfold State.stepAxis
  split
  · exact State.timeReg_takePos _ hn h _ _
  · rfl

theorem State.timeReg_relockAxis (hn : n < 4) (h : a / 65536 = 6) : (s.relockAxis n).reg a = s.reg a := by
  unfold State.relockAxis
  split
  · exact State.timeReg_setAxisState _ hn h _
  · rfl

end

@[simp] theorem State.relockAxis_ptps (s : State) (n : Nat) : (s.relockAxis n).ptps = s.ptps := by simp [State.relockAxis]

/-- R35: an axis that is to enter a state is in it. -/
theorem State.axisState_setAxisState (s : State) {n v : Nat} (hn : n < 4) (hv : v < 4) : (s.setAxisState n v).axisState n = v := by
  have hblock : Reg.axisStatus n / 65536 = 4 := by unfold Reg.axisStatus; omega
  have hrate : Reg.axisRate n ≠ Reg.axisStatus n := by unfold Reg.axisRate Reg.axisStatus; omega
  have hset : (s.fset (Reg.AxisStatus.state n) v).fget (Reg.AxisStatus.state n) = v :=
    (State.fget_fset_self s (Reg.AxisStatus.state n) v (of_decide_eq_true rfl)).trans (Nat.mod_eq_of_lt hv)
  unfold State.setAxisState
  split
  · assumption
  · extract_lets entered rated
    have hrated : rated.fget (Reg.AxisStatus.state n) = v := by
      unfold rated
      split
      · exact (State.fget_setRegN_ne _ _ _ (Reg.AxisStatus.state n) hrate).trans hset
      · exact hset
    calc (rated.flag (Reg.AxisStatus.stateChg n) 0).attnTime.fget (Reg.AxisStatus.state n)
        = (rated.flag (Reg.AxisStatus.stateChg n) 0).fget (Reg.AxisStatus.state n) :=
          State.fget_attn _ _ (Reg.AxisStatus.state n) (show Reg.axisStatus n / 65536 ≠ 5 by omega)
      _ = (rated.fset (Reg.AxisStatus.stateChg n) 1).fget (Reg.AxisStatus.state n) :=
          State.fget_flag _ _ (Reg.AxisStatus.state n) _ (fun e : Reg.axisStatus n = _ => by rw [e] at hblock; cases hblock)
            (fun e : Reg.axisStatus n = _ => by rw [e] at hblock; cases hblock)
      _ = rated.fget (Reg.AxisStatus.state n) :=
          State.fget_fset_beside _ (Reg.AxisStatus.stateChg n) (Reg.AxisStatus.state n) 1 rfl (of_decide_eq_true rfl) (of_decide_eq_true rfl)
      _ = v := hrated

/-! ### The state of a PTP clock (R295) -/

section
variable (s : State) {i : Nat}

@[simp] theorem State.setPtp_ptps (i v : Nat) : (s.setPtp i v).ptps = s.ptps := by simp [State.setPtp, State.attnTime]

/-- A change of state touches one register of the time block. -/
theorem State.timeReg_setPtp (v : Nat) {a : Nat} (h : a / 65536 = 6) (hne : Reg.timePtpStatus i ≠ a) : (s.setPtp i v).reg a = s.reg a := by
  unfold State.setPtp
  dsimp only
  split
  · rfl
  · exact (State.timeReg_rootEvent _ h _ _ _ _).trans
      ((State.reg_fset_ne _ (Reg.TimePtpStatus.gmSelf i) _ _ hne).trans (State.reg_fset_ne _ (Reg.TimePtpStatus.portState i) _ _ hne))

theorem State.ptpState_congr {t u : State} (h : t.reg (Reg.timePtpStatus i) = u.reg (Reg.timePtpStatus i)) : t.ptpState i = u.ptpState i :=
  State.fget_congr t u (Reg.TimePtpStatus.portState i) h

/-- A field of `TIME_PTP_STATUS` below the state is set beside it. -/
theorem State.ptpState_fset_beside (f : Field) (v : Nat) (ha : f.addr = Reg.timePtpStatus i) (hf : f.lo + f.len ≤ 28) :
    (s.fset f v).ptpState i = s.ptpState i :=
  State.fget_fset_beside s f (Reg.TimePtpStatus.portState i) v ha (by omega) (.inr hf)

theorem State.ptpState_setPtp (hi : i < 4) {v : Nat} (hv : v < 16) : (s.setPtp i v).ptpState i = v := by
  unfold State.setPtp
  dsimp only
  split
  · assumption
  · refine (State.ptpState_congr (State.timeReg_rootEvent _ (timePtpStatus_block hi) _ _ _ _)).trans ?_
    refine (State.ptpState_fset_beside _ (Reg.TimePtpStatus.gmSelf i) _ rfl (of_decide_eq_true rfl)).trans ?_
    exact (State.fget_fset_self s (Reg.TimePtpStatus.portState i) v (of_decide_eq_true rfl)).trans (Nat.mod_eq_of_lt hv)

end

theorem State.ptp_setPtp (s : State) (i v : Nat) : (s.setPtp i v).ptp i = s.ptp i := State.ptp_congr (s.setPtp_ptps i v) i

theorem timePtpCfg_block {i : Nat} (h : i < 4) : Reg.timePtpCfg i / 65536 = 6 := by
  unfold Reg.timePtpCfg
  omega

theorem timePtpSyncRx_block {i : Nat} (h : i < 4) : Reg.timePtpSyncRx i / 65536 = 6 := by
  unfold Reg.timePtpSyncRx
  omega

theorem timePtpAnnTimeout_block {i : Nat} (h : i < 4) : Reg.timePtpAnnTimeout i / 65536 = 6 := by
  unfold Reg.timePtpAnnTimeout
  omega

/-! ### Enable (R277, R281) -/

/-- R277: where no clock runs, `enable` starts one in INITIALIZING, and it listens. -/
theorem State.ptpEnable_starts (s : State) (i : Nat) (h : ∀ j < 4, (s.ptp j).running = false) (hi : i < 4) :
    ∃ y : PtpSt, y.running = true ∧ s.ptpEnable i true = (((s.fsetB (Reg.TimePtpCfg.enable i) true).putPtp i y).setPtp i 1).setPtp i 4 := by
  have hrun (j : Nat) (hj : j < 4) : ((s.fsetB (Reg.TimePtpCfg.enable i) true).ptp j).running = false := h j hj
  unfold State.ptpEnable
  extract_lets +onlyGivenNames x enabled
  rw [if_neg (by simp [x, h i hi]), if_neg (by simp)]
  extract_lets +onlyGivenNames y clash initializing
  have hclash : clash = false := by simp [clash, enabled, hrun]
  refine ⟨y, rfl, ?_⟩
  rw [hclash]
  rfl

theorem State.reg_putPtp (s : State) (i : Nat) (x : PtpSt) (a : Nat) : (s.putPtp i x).reg a = s.reg a := rfl

/-- R277: a clock started where none runs listens, and its `enable` reads 1. -/
theorem State.ptpEnable_runs (s : State) {i : Nat} (h : ∀ j < 4, (s.ptp j).running = false) (hi : i < 4) :
    ((s.ptpEnable i true).ptp i).running = true ∧ (s.ptpEnable i true).ptpState i = 4 ∧
      (s.ptpEnable i true).fbit (Reg.TimePtpCfg.enable i) = true := by
  obtain ⟨y, hy, heq⟩ := s.ptpEnable_starts i h hi
  have hne : Reg.timePtpStatus i ≠ Reg.timePtpCfg i := by
    unfold Reg.timePtpStatus Reg.timePtpCfg
    omega
  have hreg : (s.ptpEnable i true).reg (Reg.timePtpCfg i) = (s.fsetB (Reg.TimePtpCfg.enable i) true).reg (Reg.timePtpCfg i) := by
    rw [heq, State.timeReg_setPtp _ _ (timePtpCfg_block hi) hne, State.timeReg_setPtp _ _ (timePtpCfg_block hi) hne, State.reg_putPtp]
  refine ⟨?_, heq ▸ State.ptpState_setPtp _ hi (by decide), ?_⟩
  · rw [heq, State.ptp_setPtp, State.ptp_setPtp, State.ptp_putPtp]
    exact hy
  · exact (State.fbit_congr _ _ (Reg.TimePtpCfg.enable i) hreg).trans
      (State.fbit_fsetB_self s (Reg.TimePtpCfg.enable i) true (of_decide_eq_true rfl) rfl)

/-- R281: a clock that is disabled stops; its axis seeks again if it had a position. -/
theorem State.ptpEnable_stops (s : State) {i : Nat} (h : (s.ptp i).running = true) (hi : i < 4) :
    ((s.ptpEnable i false).ptp i).running = false ∧ (s.ptpEnable i false).ptpState i = 3 := by
  unfold State.ptpEnable
  extract_lets +onlyGivenNames x configured
  rw [if_neg (by simp [x, h]), Bool.not_false, if_pos rfl]
  extract_lets +onlyGivenNames stopped
  have hstopped : (stopped.ptp i).running = false ∧ stopped.ptpState i = 3 := by
    refine ⟨?_, State.ptpState_setPtp _ hi (by decide)⟩
    rw [State.ptp_setPtp, State.ptp_putPtp]
  split
  · rw [State.ptp_congr (State.relockAxis_ptps _ _), State.ptpState_congr (State.timeReg_relockAxis _ hi (timePtpStatus_block hi))]
    exact hstopped
  · exact hstopped

/-! ### Announces (R276) -/

/-- A master that has announced once is not qualified yet. -/
theorem State.bestForeign_single (s : State) (i : Nat) {a : PtpAnnounce} {t : Nat} (h : (s.ptp i).foreign = [(a, t, 1)]) :
    s.bestForeign i = none := by
  unfold State.bestForeign
  dsimp only
  rw [h]
  rfl

theorem State.bmca_none (s : State) (i : Nat) (h : s.bestForeign i = none) : s.bmca i = s := by
  unfold State.bmca
  rw [h]

/-- R276: a first Announce is kept. -/
theorem State.announceIn_first (s : State) (i : Nat) (a : PtpAnnounce) (hs : 4 ≤ s.ptpState i) (hf : (s.ptp i).foreign = []) :
    ((s.announceIn i a).ptp i).foreign = [(a, s.free, 1)] := by
  unfold State.announceIn
  rw [if_neg (by omega)]
  extract_lets x n kept
  have hkept : ((s.putPtp i kept).ptp i).foreign = [(a, s.free, 1)] := by
    rw [State.ptp_putPtp]
    simp [kept, n, x, hf]
  rw [State.bmca_none _ _ (State.bestForeign_single _ _ hkept)]
  exact hkept

/-! ### Sync, Follow_Up and the servo (R278, R279) -/

theorem State.syncIn_twoStep (s : State) (i : Nat) (m : PtpEvent) (sub : Nat) (hs : 8 ≤ s.ptpState i) (ht : m.twoStep = true) :
    s.syncIn i m sub = s.putPtp i { s.ptp i with two := some (m.seq, s.ingressTime i sub, m.corr) } := by
  unfold State.syncIn
  rw [if_neg (by omega), if_pos ht]

theorem State.syncIn_oneStep (s : State) (i : Nat) (m : PtpEvent) (sub : Nat) (hs : 8 ≤ s.ptpState i) (ht : m.twoStep = false) :
    s.syncIn i m sub = s.syncSample i m.origin (s.ingressTime i sub) m.corr := by
  unfold State.syncIn
  rw [if_neg (by omega), if_neg (by simp [ht])]

/-- What a clock has taken from its master's last Sync. -/
def PtpSt.sync (x : PtpSt) : Option Int × Option (Nat × Int × Int) × Nat := (x.diff, x.two, x.lastSync)

theorem PtpSt.sync_stepped (x : PtpSt) (b : Int) (g : Nat) : PtpSt.sync { x with base := b, good := g } = x.sync := rfl
theorem PtpSt.sync_tuned (x : PtpSt) (m r : Int) (g : Nat) (l : List (Nat × Int)) :
    PtpSt.sync { x with integ := m, r := r, good := g, rLog := l } = x.sync := rfl

/-- R279: the servo moves the time base or its rate, and leaves what the last Sync gave. -/
theorem State.sync_servo (s : State) (i : Nat) (o t : Int) : ((s.servo i o t).ptp i).sync = (s.ptp i).sync := by
  unfold State.servo
  extract_lets +onlyGivenNames x su offset
  split
  · extract_lets +onlyGivenNames moved stepped
    rw [State.ptp_congr (State.stepAxis_ptps _ _ _)]
    have hstepped : stepped.ptp i = moved := (State.ptp_congr (by simp [stepped]) i).trans (State.ptp_putPtp offset i moved)
    rw [hstepped]
    exact PtpSt.sync_stepped _ _ _
  · extract_lets +onlyGivenNames lim cl integ r good tuned rated
    have hrated : rated.ptp i = tuned := (State.ptp_congr (State.setRegN_ptps _ _ _) i).trans (State.ptp_putPtp offset i tuned)
    rw [apply_ite (State.ptp · i), State.ptp_congr (State.setRate_ptps _ _ _), ite_self, hrated]
    exact PtpSt.sync_tuned _ _ _ _ _

/-- R279: of the counters of its clock, the servo moves only that of the steps. -/
theorem State.syncRx_servo (s : State) {i : Nat} (hi : i < 4) (o t : Int) :
    (s.servo i o t).reg (Reg.timePtpSyncRx i) = s.reg (Reg.timePtpSyncRx i) := by
  have hblock := timePtpSyncRx_block hi
  obtain ⟨hoff, hrate, hcnt, hstat⟩ : Reg.timePtpOffset i ≠ Reg.timePtpSyncRx i ∧ Reg.timePtpRate i ≠ Reg.timePtpSyncRx i ∧
      Reg.timePtpStepCnt i ≠ Reg.timePtpSyncRx i ∧ Reg.timePtpStatus i ≠ Reg.timePtpSyncRx i := by
    unfold Reg.timePtpOffset Reg.timePtpRate Reg.timePtpStepCnt Reg.timePtpStatus Reg.timePtpSyncRx
    omega
  unfold State.servo
  extract_lets +onlyGivenNames x su offset
  have hoffset : offset.reg (Reg.timePtpSyncRx i) = s.reg (Reg.timePtpSyncRx i) := State.reg_setRegN_ne _ _ _ _ hoff
  split
  · refine (State.timeReg_stepAxis _ hi hblock _).trans ?_
    exact (State.reg_fset_ne _ (Reg.TimePtpStatus.step i) _ _ hstat).trans ((State.reg_bump_ne _ _ _ hcnt).trans hoffset)
  · extract_lets +onlyGivenNames lim cl integ r good tuned rated
    have hrated : rated.reg (Reg.timePtpSyncRx i) = s.reg (Reg.timePtpSyncRx i) := (State.reg_setRegN_ne _ _ _ _ hrate).trans hoffset
    split
    · exact (State.timeReg_setRate _ hi hblock _).trans hrated
    · exact hrated

/-- R278: a whole Sync before there is a path delay gives the difference, and no sample. -/
theorem State.syncSample_none (s : State) (i : Nat) (t1 t2 c : Int) (h : (s.ptp i).d = none) :
    s.syncSample i t1 t2 c = s.putPtp i { s.ptp i with diff := some (t2 - t1 - c), two := none } := by
  unfold State.syncSample
  simp only [h]

/-- R278, R281: a whole Sync gives the difference, and where a path delay exists it is a usable one and counts. -/
theorem State.syncSample_some (s : State) {i : Nat} (hi : i < 4) (t1 t2 c d : Int) (h : (s.ptp i).d = some d) :
    ((s.syncSample i t1 t2 c).ptp i).sync = (some (t2 - t1 - c), none, s.free) ∧
      (s.syncSample i t1 t2 c).regN (Reg.timePtpSyncRx i) = min 0xFFFFFFFF (s.regN (Reg.timePtpSyncRx i) + 1) := by
  have hblock := timePtpSyncRx_block hi
  have hne : Reg.timePtpStatus i ≠ Reg.timePtpSyncRx i := by
    unfold Reg.timePtpStatus Reg.timePtpSyncRx
    omega
  unfold State.syncSample
  extract_lets +onlyGivenNames x sampled
  split
  next hd => cases h.symm.trans hd
  next d' hd =>
  extract_lets +onlyGivenNames old usable slave served
  have husable : (usable.ptp i).sync = (some (t2 - t1 - c), none, s.free) ∧
      usable.regN (Reg.timePtpSyncRx i) = min 0xFFFFFFFF (s.regN (Reg.timePtpSyncRx i) + 1) := by
    refine ⟨(congrArg PtpSt.sync (State.ptp_putPtp sampled i _)).trans ?_, State.regN_bump _ _⟩
    rw [show old = _ from State.ptp_putPtp _ _ _]
    rfl
  have hslave : slave.ptp i = usable.ptp i ∧ slave.reg (Reg.timePtpSyncRx i) = usable.reg (Reg.timePtpSyncRx i) := by
    unfold slave
    split
    · exact ⟨State.ptp_setPtp _ _ _, State.timeReg_setPtp _ _ hblock hne⟩
    · exact ⟨rfl, rfl⟩
  have hserved : (served.ptp i).sync = (some (t2 - t1 - c), none, s.free) ∧
      served.regN (Reg.timePtpSyncRx i) = min 0xFFFFFFFF (s.regN (Reg.timePtpSyncRx i) + 1) :=
    ⟨(State.sync_servo _ _ _ _).trans (hslave.1 ▸ husable.1),
      (congrArg BitVec.toNat ((State.syncRx_servo _ hi _ _).trans hslave.2)).trans husable.2⟩
  extract_lets followed
  split
  · rw [State.ptp_congr (State.lockAxis_ptps _ _ _ _), State.regN, State.timeReg_lockAxis _ hi hblock]
    exact hserved
  · exact hserved

/-- R278: every whole Sync gives the difference, and none waits for its Follow_Up. -/
theorem State.diff_syncSample (s : State) {i : Nat} (hi : i < 4) (t1 t2 c : Int) :
    ((s.syncSample i t1 t2 c).ptp i).diff = some (t2 - t1 - c) ∧ ((s.syncSample i t1 t2 c).ptp i).two = none := by
  cases h : (s.ptp i).d with
  | none =>
    rw [s.syncSample_none i t1 t2 c h, State.ptp_putPtp]
    exact ⟨rfl, rfl⟩
  | some d =>
    obtain ⟨hsync, -⟩ := s.syncSample_some hi t1 t2 c d h
    exact ⟨congrArg (·.1) hsync, congrArg (·.2.1) hsync⟩

theorem State.followIn_waited (s : State) (i : Nat) (m : PtpEvent) (t2 c : Int) (hs : 8 ≤ s.ptpState i) (hw : (s.ptp i).two = some (m.seq, t2, c)) :
    s.followIn i m = s.syncSample i m.origin t2 (c + m.corr) := by
  unfold State.followIn
  simp only [hw]
  exact if_pos ⟨hs, trivial⟩

/-! ### The path delay (R278) -/

theorem State.delaySample_first (s : State) (i : Nat) (m : Int) (h : (s.ptp i).d = none) :
    (s.delaySample i m).ptp i = { s.ptp i with d := some m } := by
  unfold State.delaySample
  simp only [h]
  exact State.ptp_putPtp _ _ _

theorem State.delayRespIn_awaited (s : State) (i seq : Nat) (t4 corr t3 df : Int) (hs : 8 ≤ s.ptpState i) (hp : (s.ptp i).p2p = false)
    (hr : (s.ptp i).req = some (seq, t3)) (hd : (s.ptp i).diff = some df) :
    s.delayRespIn i seq t4 corr = (s.putPtp i { s.ptp i with req := none }).delaySample i ((df + (t4 - t3 - corr)) / 2) := by
  unfold State.delayRespIn
  simp only [hr, hd]
  exact if_pos ⟨hs, trivial, by simp [hp]⟩

/-! ### Messages sent (R212, R276, R286) -/

section
variable (s : State)

@[simp] theorem State.putQb_ptps (k : Nat) (q : QbSt) : (s.putQb k q).ptps = s.ptps := by simp [State.putQb, State.fmax]
@[simp] theorem State.qbPush_ptps (k : Nat) (l : List QbEntry) : (s.qbPush k l).ptps = s.ptps := by simp [State.qbPush]
@[simp] theorem State.qbDrop_ptps (k n : Nat) : (s.qbDrop k n).ptps = s.ptps := by simp [State.qbDrop]
@[simp] theorem State.qbFollow_ptps (k : Nat) (old new : List (List QbEntry)) : (s.qbFollow k old new).ptps = s.ptps := by simp [State.qbFollow]
@[simp] theorem State.putPort_ptps (n : Nat) (p : PortSt) : (s.putPort n p).ptps = s.ptps := by simp [State.putPort, State.setPort]
@[simp] theorem State.sendPause_ptps (n time : Nat) : (s.sendPause n time).ptps = s.ptps := by simp [State.sendPause]
@[simp] theorem State.pauseOff_ptps (e : Nat) : (s.pauseOff e).ptps = s.ptps := by simp [State.pauseOff]
@[simp] theorem State.congestion_ptps (n : Nat) : (s.congestion n).ptps = s.ptps := by simp [State.congestion]
@[simp] theorem State.enqueueUntimed_ptps (n : Nat) (u : Untimed) : (s.enqueueUntimed n u).ptps = s.ptps := by
  simp [State.enqueueUntimed, State.dropBit]
@[simp] theorem State.sendFrame_ptps (n : Nat) (l : List Byte) (stamp : Option (Nat × Nat × Nat)) : (s.sendFrame n l stamp).ptps = s.ptps :=
  State.enqueueUntimed_ptps _ _ _

/-- R212: a frame of the root that its port admits waits there. -/
theorem State.queued_sendFrame (n : Nat) (l : List Byte) (stamp : Option (Nat × Nat × Nat)) (h : Safety.admits s n (ethOf l).len) :
    Safety.queued s (s.sendFrame n l stamp) n l stamp := State.untimed_enqueueUntimed s n _ h.1 h.2

/-- R276: a message that a clock sends as it counts it is the one it would have sent before. -/
theorem State.ptpSend_putPtp (i : Nat) (x : PtpSt) (hx : x.cfg = (s.ptp i).cfg) (kind seq flags : Nat) (log : Int) (body : List Byte) (stamp : Bool) :
    (s.putPtp i x).ptpSend i kind seq flags log body stamp = (s.putPtp i x).sendFrame (s.ptp i).port (s.ptpOut i kind seq flags log body)
      (if stamp then some (i, kind, seq % 65536) else none) := by
  unfold State.ptpSend State.ptpOut PtpSt.port PtpSt.cfgF
  rw [State.ptp_putPtp]
  dsimp only
  rw [hx]
  rfl

/-- R276: a clock counts a message it sends, and the message waits at its port. -/
theorem State.ptpSend_counted (i : Nat) (x : PtpSt) (hx : x.cfg = (s.ptp i).cfg) (kind seq flags : Nat) (log : Int) (body : List Byte) (stamp : Bool)
    (h : Safety.admits s (s.ptp i).port (ethOf (s.ptpOut i kind seq flags log body)).len) :
    ((s.putPtp i x).ptpSend i kind seq flags log body stamp).ptp i = x ∧
      Safety.queued s ((s.putPtp i x).ptpSend i kind seq flags log body stamp) (s.ptp i).port (s.ptpOut i kind seq flags log body)
        (if stamp then some (i, kind, seq % 65536) else none) := by
  rw [s.ptpSend_putPtp i x hx]
  exact ⟨(State.ptp_congr (State.sendFrame_ptps _ _ _ _) i).trans (State.ptp_putPtp s i x), State.queued_sendFrame (s.putPtp i x) _ _ _ h⟩

theorem State.announceOut_due (i : Nat) (hm : s.ptpState i = 6) (ht : (s.ptp i).annNext ≤ s.free) :
    s.announceOut i = (s.putPtp i { s.ptp i with annSeq := (s.ptp i).annSeq + 1, annNext := s.free + (s.ptp i).annRaw }).ptpSend i 0xB
      (s.ptp i).annSeq s.announceFlags ((s.ptp i).logOf 24 1 (-2)) (s.announceBody i) false := if_neg (by omega)

theorem State.syncOut_due (i : Nat) (hm : s.ptpState i = 6) (ht : (s.ptp i).syncNext ≤ s.free) :
    s.syncOut i = (s.putPtp i { s.ptp i with syncSeq := (s.ptp i).syncSeq + 1, syncNext := s.free + (s.ptp i).syncRaw }).ptpSend i 0
      (s.ptp i).syncSeq ((s.ptp i).cfgF (Reg.TimePtpCfg.twoStep i) * 512) ((s.ptp i).logOf 16 0 (-3)) (List.replicate 10 0) true :=
  if_neg (by omega)

theorem State.delayReqOut_due (i : Nat) (hm : 8 ≤ s.ptpState i) (ht : (s.ptp i).reqNext ≤ s.free) :
    s.delayReqOut i = (s.putPtp i { s.ptp i with reqSeq := (s.ptp i).reqSeq + 1, reqNext := s.free + (s.ptp i).delayRaw }).ptpSend i
      (if (s.ptp i).p2p then 2 else 1) (s.ptp i).reqSeq 0 0x7F (List.replicate (if (s.ptp i).p2p then 20 else 10) 0) true :=
  if_neg (by omega)

theorem State.delayRespOut_master (i src seq sub : Nat) (hm : s.ptpState i = 6) (hp : (s.ptp i).p2p = false) :
    s.delayRespOut i src seq sub = s.sendFrame (s.ptp i).port
      (s.ptpOut i 9 seq 0 ((s.ptp i).logOf 8 0 (-3)) (ptpStamp (s.ingressTime i sub) ++ beBytes 10 src)) none :=
  if_pos ⟨hm, by simp [hp]⟩

/-- R286: where no clock runs, the switch answers a request of its own. -/
theorem State.pdelayIn_request (port src seq : Nat) (m : Int) (hm : s.fget Reg.TimeTcCtrl.tcMode = 2) (h : ∀ j < 4, (s.ptp j).running = false) :
    s.pdelayIn port true src seq m = s.pdelaySend port 3 seq (List.replicate 10 0 ++ beBytes 10 src) := by
  simp [State.pdelayIn, hm, h]

theorem State.pdelayIn_response (port src seq : Nat) (m : Int) (hm : s.fget Reg.TimeTcCtrl.tcMode = 2) (h : ∀ j < 4, (s.ptp j).running = false) :
    s.pdelayIn port false src seq m = { s with peerDelay := s.peerDelay.set port m } := by
  simp [State.pdelayIn, hm, h]

/-! ### Discards and timeouts (R276, R281) -/

theorem State.ptpDiscard_counts (i : Nat) : (s.ptpDiscard i).regN (Reg.timePtpMsgErr i) = min 0xFFFFFFFF (s.regN (Reg.timePtpMsgErr i) + 1) ∧
    (s.ptpDiscard i).fget (Reg.TimePtpStatus.msgErr i) = 1 := by
  have hne : Reg.timePtpStatus i ≠ Reg.timePtpMsgErr i := by
    unfold Reg.timePtpStatus Reg.timePtpMsgErr
    omega
  refine ⟨?_, State.fget_fset_self _ (Reg.TimePtpStatus.msgErr i) 1 (of_decide_eq_true rfl)⟩
  exact (congrArg BitVec.toNat (State.reg_fset_ne _ (Reg.TimePtpStatus.msgErr i) _ 1 hne)).trans (State.regN_bump s _)

theorem State.bestForeign_nil (i : Nat) (h : (s.ptp i).foreign = []) : s.bestForeign i = none := by
  unfold State.bestForeign
  dsimp only
  rw [h]
  rfl

/-- R281: a slave that has heard no master goes on listening; the timeout counts. -/
theorem State.announceLate_listening {i : Nat} (hi : i < 4) (hs : s.ptpState i = 4) (hr : (s.ptp i).role = 1) (hf : (s.ptp i).foreign = [])
    (ht : (s.ptp i).lastAnn + 3 * (s.ptp i).annRaw ≤ s.free) : ((s.announceLate i).ptp i).lastAnn = s.free ∧
      (s.announceLate i).regN (Reg.timePtpAnnTimeout i) = min 0xFFFFFFFF (s.regN (Reg.timePtpAnnTimeout i) + 1) := by
  have hne : Reg.timePtpStatus i ≠ Reg.timePtpAnnTimeout i := by
    unfold Reg.timePtpStatus Reg.timePtpAnnTimeout
    omega
  unfold State.announceLate
  extract_lets +onlyGivenNames st x
  rw [if_neg (by simp [st, x, hs, ht])]
  extract_lets +onlyGivenNames counted followed gone old waiting
  have hfollowed : followed = counted := if_neg (by simp [st, hs])
  have hold : old = s.ptp i := State.ptp_congr (by simp [hfollowed, counted]) i
  have hwaiting : (waiting.ptp i).foreign = [] ∧ (waiting.ptp i).lastAnn = s.free := by
    refine ⟨?_, ?_⟩ <;> rw [State.ptp_putPtp]
    · exact congrArg (List.filter _) ((congrArg PtpSt.foreign hold).trans hf)
    · exact (by simp [hfollowed, counted] : followed.free = s.free)
  obtain ⟨hforeign, hlast⟩ := hwaiting
  have hcount : waiting.regN (Reg.timePtpAnnTimeout i) = min 0xFFFFFFFF (s.regN (Reg.timePtpAnnTimeout i) + 1) := by
    have hreg : waiting.reg (Reg.timePtpAnnTimeout i) = (s.bump (Reg.timePtpAnnTimeout i)).reg (Reg.timePtpAnnTimeout i) :=
      (congrArg (State.reg · _) hfollowed).trans (State.reg_fset_ne _ (Reg.TimePtpStatus.annTimeout i) _ 1 hne)
    exact (congrArg BitVec.toNat hreg).trans (State.regN_bump s _)
  rw [waiting.bestForeign_nil i hforeign]
  dsimp only
  rw [if_pos hr, State.ptp_setPtp, State.ptp_putPtp, State.regN, State.timeReg_setPtp _ _ (timePtpAnnTimeout_block hi) hne]
  exact ⟨hlast, hcount⟩

/-- R280, R281: with no usable Sync a LOCKED axis goes into holdover. -/
theorem State.syncLate_late {i : Nat} (hi : i < 4) (hs : 8 ≤ s.ptpState i) (ha : s.axisState i = 2)
    (ht : (s.ptp i).lastSync + 3 * (s.ptp i).annRaw ≤ s.free) : (s.syncLate i).axisState i = 3 := by
  have hrate : Reg.timePtpRate i ≠ Reg.axisStatus i ∧ Reg.axisRate i ≠ Reg.axisStatus i := by
    unfold Reg.timePtpRate Reg.axisRate Reg.axisStatus
    omega
  have hhold : s.syncLate i = s.ptpHoldover i := if_pos ⟨hs, .inl ha, ht⟩
  rw [hhold]
  unfold State.ptpHoldover
  extract_lets x m y rated
  have hlocked : rated.axisState i = 2 := (State.fget_setRegN_ne _ _ _ (Reg.AxisStatus.state i) hrate.1).trans ha
  have hset : (rated.setRate i y.adv).axisState i = 2 := (State.fget_setRegN_ne _ _ _ (Reg.AxisStatus.state i) hrate.2).trans hlocked
  rw [if_pos hlocked]
  unfold State.loseAxis
  rw [if_pos ⟨by omega, hset⟩]
  exact State.axisState_setAxisState _ hi (by decide)

end

/-! ### The statement -/

/-- Settles O30, clause by clause: each command is its operation on a module that runs, and the operation's lemma says what stands then. -/
theorem ptpCommandsComplete : Obligations.PtpCommandsComplete := by
  unfold Obligations.PtpCommandsComplete
  refine ⟨?starts, ?stops, ?announced, ?waits, ?synced, ?followed, ?delay, ?answered, ?peer, ?discarded, ?announces, ?syncs,
    ?requests, ?unheard, ?lost⟩
  case starts =>
    intro i s h hnone
    exact ⟨_, act_of_running s (·.ptpEnable i true) h, s.ptpEnable_runs hnone i.isLt⟩
  case stops =>
    intro i s h hrun
    exact ⟨_, act_of_running s (·.ptpEnable i false) h, s.ptpEnable_stops hrun i.isLt⟩
  case announced =>
    intro i a s h hs hf
    exact ⟨_, act_of_running s (·.announceIn i a) h, s.announceIn_first i a hs hf⟩
  case waits =>
    intro i m sub s h hs ht
    refine ⟨_, act_of_running s (·.syncIn i m sub) h, ?_⟩
    rw [s.syncIn_twoStep i m sub hs ht, State.ptp_putPtp]
  case synced =>
    intro i m sub s h hs ht
    refine ⟨_, act_of_running s (·.syncIn i m sub) h, ?_⟩
    rw [s.syncIn_oneStep i m sub hs ht]
    refine ⟨(s.diff_syncSample i.isLt _ _ _).1, fun hd => ?_⟩
    obtain ⟨d, hd⟩ := Option.isSome_iff_exists.mp hd
    obtain ⟨hsync, hcount⟩ := s.syncSample_some i.isLt m.origin (s.ingressTime i sub) m.corr d hd
    exact ⟨congrArg (·.2.2) hsync, hcount⟩
  case followed =>
    intro i m t2 c s h hs _ hw
    refine ⟨_, act_of_running s (·.followIn i m) h, ?_⟩
    rw [s.followIn_waited i m t2 c hs hw]
    exact s.diff_syncSample i.isLt _ _ _
  case delay =>
    intro i seq t4 corr t3 df s h hs hd hp hr hdf
    refine ⟨_, act_of_running s (·.delayRespIn i seq t4 corr) h, ?_⟩
    rw [s.delayRespIn_awaited i seq t4 corr t3 df hs hp hr hdf,
      State.delaySample_first _ _ _ ((congrArg PtpSt.d (State.ptp_putPtp s i { s.ptp i with req := none })).trans hd), State.ptp_putPtp]
    exact ⟨rfl, rfl⟩
  case answered =>
    intro i src seq sub s h hm hp l hl
    refine ⟨_, act_of_running s (·.delayRespOut i src seq sub) h, ?_⟩
    rw [s.delayRespOut_master i src seq sub hm hp]
    exact s.queued_sendFrame _ _ _ hl
  case peer =>
    intro port src seq m s h hm hnone
    constructor
    · intro l hl
      refine ⟨_, act_of_running s (·.pdelayIn port true src seq m) h, ?_⟩
      rw [s.pdelayIn_request port src seq m hm hnone]
      exact s.queued_sendFrame _ _ _ hl
    · refine ⟨_, act_of_running s (·.pdelayIn port false src seq m) h, ?_⟩
      rw [s.pdelayIn_response port src seq m hm hnone]
      exact Tab.get_set_self _ _ _ _
  case discarded =>
    intro i s h
    exact ⟨_, act_of_running s (·.ptpDiscard i) h, s.ptpDiscard_counts i⟩
  case announces =>
    intro i s h hm ht l hl
    refine ⟨_, act_of_running s (·.announceOut i) h, ?_⟩
    rw [s.announceOut_due i hm ht]
    obtain ⟨hptp, hq⟩ := s.ptpSend_counted i { s.ptp i with annSeq := (s.ptp i).annSeq + 1, annNext := s.free + (s.ptp i).annRaw } rfl
      0xB (s.ptp i).annSeq s.announceFlags ((s.ptp i).logOf 24 1 (-2)) (s.announceBody i) false hl
    exact ⟨congrArg PtpSt.annSeq hptp, congrArg PtpSt.annNext hptp, hq⟩
  case syncs =>
    intro i s h hm ht q l hl
    refine ⟨_, act_of_running s (·.syncOut i) h, ?_⟩
    rw [s.syncOut_due i hm ht]
    obtain ⟨hptp, hq⟩ := s.ptpSend_counted i { s.ptp i with syncSeq := (s.ptp i).syncSeq + 1, syncNext := s.free + (s.ptp i).syncRaw } rfl
      0 (s.ptp i).syncSeq ((s.ptp i).cfgF (Reg.TimePtpCfg.twoStep i) * 512) ((s.ptp i).logOf 16 0 (-3)) (List.replicate 10 0) true hl
    exact ⟨congrArg PtpSt.syncNext hptp, hq⟩
  case requests =>
    intro i s h hm ht q kind l hl
    refine ⟨_, act_of_running s (·.delayReqOut i) h, ?_⟩
    rw [s.delayReqOut_due i hm ht]
    obtain ⟨hptp, hq⟩ := s.ptpSend_counted i { s.ptp i with reqSeq := (s.ptp i).reqSeq + 1, reqNext := s.free + (s.ptp i).delayRaw } rfl
      kind (s.ptp i).reqSeq 0 0x7F (List.replicate (if (s.ptp i).p2p then 20 else 10) 0) true hl
    exact ⟨congrArg PtpSt.reqNext hptp, hq⟩
  case unheard =>
    intro i s h hs hr hf ht
    exact ⟨_, act_of_running s (·.announceLate i) h, s.announceLate_listening i.isLt hs hr hf ht⟩
  case lost =>
    intro i s h hs ha ht
    exact ⟨_, act_of_running s (·.syncLate i) h, s.syncLate_late i.isLt hs ha ht⟩

end Sys2Proof.Machine
end
